-- ==== Sys2Proof/Word.lean ====
section
/-! DEFINITION. The words of the control space, bytes, and the two plain map shapes the state is built from. -/
namespace Sys2Proof

/-- A control-space register word (R19). -/
abbrev Word := BitVec 32

/-- One byte of memory, flash or a wire format. -/
abbrev Byte := BitVec 8

/-- A run of bytes in address (or wire) order. -/
abbrev Bytes := List Byte

/-- A finite map by number: a list of key and value pairs with strictly rising keys. -/
abbrev AMap (β : Type) := List (Nat × β)

/-- A 96-bit OSTAMP as an unsigned integer: PHYS in bits 95..32, LOGICAL in 31..8, HEAD in 7,
UNIT in 6..0 (R97, Table 3-1). Stamps compare as unsigned integers (R98). -/
abbrev Ostamp := Nat

/-- Access codes of register fields (R13, Table 0-3). -/
inductive Acc where
  | rw | ro | wo | w1c | w1s | rwl
  deriving DecidableEq, Repr

/-- A field of a register: the control-space key of its (lowest) word, its lowest bit and its width.
A register wider than 32 bits occupies consecutive words, lowest first (R20). -/
structure Fld where
  addr : Nat
  lo   : Nat
  w    : Nat
  deriving DecidableEq, Repr

/-- One row of a register table: page-relative offset, stride and count of the register's copies
inside the page, lowest bit, width, access code. -/
structure FRow where
  off    : Nat
  stride : Nat
  count  : Nat
  lo     : Nat
  w      : Nat
  acc    : Acc
  deriving DecidableEq, Repr

end Sys2Proof
end

