-- ==== Sys2Proof/Types.lean ====
section
/-! DEFINITION. Operands of the commands. -/
namespace Sys2Proof

/-- Who accesses the control space: cores 0 to 23 in order, then the Annex port as 24 (R682). -/
abbrev Requester := Fin 25

/-- A frame at the service port other than TFTP (R627). -/
inductive SvcFrame where
  | arpRequest (target : Nat) (sender : Nat)
  | icmpEcho (dst src ident seq : Nat) (data : Bytes)
  | other
  deriving DecidableEq, Repr

/-- An SGL descriptor of a host command: type, subtype, length, and the offset of an in-capsule block (Table 4-3). -/
structure Sgl where
  typ : Nat
  sub : Nat
  len : Nat
  off : Nat := 0
  deriving DecidableEq, Repr

/-- A host command as it arrives, with the data that came in its capsule. -/
structure NvmeCmd where
  cid    : Nat
  nsid   : Nat := 0
  fuse   : Nat := 0
  sgls   : List Sgl := []
  /-- in-capsule data as it arrived; for an Annex command the data in host memory that its PRPs name -/
  icd    : Bytes := []
  /-- header digest and data digest that did not match: expected and received -/
  hdgst  : Option (Nat × Nat) := none
  ddgst  : Option (Nat × Nat) := none
  /-- an Annex PRP entry that is not aligned: entry index and offset -/
  badPrp : Option (Nat × Nat) := none
  slba   : Nat := 0
  /-- number of blocks, NLB + 1 -/
  nlb    : Nat := 1
  pract  : Bool := false
  prchk  : Nat := 0
  lbat   : Nat := 0
  lbatm  : Nat := 0xFFFF
  deac   : Bool := false
  /-- ranges of Dataset Management, source ranges of Copy: first block and count -/
  ranges : List (Nat × Nat) := []
  /-- command dwords 10 to 15 of the commands that are not named above -/
  cdw    : List Nat := []
  deriving DecidableEq, Repr

/-- Which end of which link a lane or frame event concerns: this head's Jonan position, the bridge of a module at a
port, or this head's Carid end (R422, R427, R457). -/
inductive LinkSel where
  | jonan (pos : Fin 64)
  | bridge (module : Fin 64) (port : Fin 2)
  | carid
  deriving DecidableEq, Repr

/-- What R435 and R438 look at in an arriving Jonan frame: TYPE, VER, LEN and the payload bytes that arrived, whether
the CRC and the framing are good (R426), LSEQ, ACK and CREDITS. -/
structure JHdr where
  typ     : Nat
  ver     : Nat
  len     : Nat
  got     : Nat
  crcOk   : Bool
  lseq    : Nat := 0
  ack     : Nat := 4095
  credits : Nat := 0
  deriving DecidableEq, Repr

/-- What R469 looks at in an arriving Carid frame: VER, LEN and the payload bytes that arrived, whether CRC, CHAN and MSG and
the GCM tag are good, LSEQ (with the upper bits of XSEQ the receiver keeps), ACK, CREDITS and CCHAN. -/
structure CHdr where
  ver     : Nat
  len     : Nat
  got     : Nat
  crcOk   : Bool := true
  fmtOk   : Bool := true
  authOk  : Bool := true
  lseq    : Nat := 0
  ack     : Nat := 65535
  credits : Nat := 0
  cchan   : Nat := 0
  /-- ATAG of an ADMIN request or answer (R489) -/
  atag    : Nat := 0
  deriving DecidableEq, Repr

/-- The fields of a HELLO payload (Table 12-1). -/
structure Hello where
  vers  : Nat
  head  : Nat
  lanes : Nat
  flags : Nat
  array : Nat
  nonce : Bytes
  creds : List Nat
  mac   : Bytes
  deriving DecidableEq, Repr

/-- What LDC makes of one codeword of a read answer: the bits it corrected and the 4,224-byte payload, or none where
the decoder does not converge. The channel's errors are the medium's, so the outcome arrives with the answer. -/
structure CwDec where
  bits    : Nat := 0
  payload : Option Bytes := none
  deriving DecidableEq, Repr

/-- A grain record placed in a segment being filled: its trailer fields and its header and stored bytes (Tables 9-6, 9-7). -/
structure Placed where
  cid    : Nat
  gen    : Nat
  off    : Nat
  clen   : Nat
  fp     : Bytes
  bytes  : Bytes
  /-- relocated from this LOC, 0 for a grain of the write path -/
  srcLoc : Nat := 0
  deriving DecidableEq, Repr

/-- A journal record (Table 3-7, Table 3-8). -/
structure JRec where
  ostamp : Nat := 0
  typ    : Nat
  flags  : Nat := 0
  idx    : Nat := 0
  cnt    : Nat := 1
  head   : Nat := 0
  lane   : Nat := 0
  target : Nat
  old    : Nat := 0
  new    : Nat := 0
  deriving DecidableEq, Repr

/-- What an uncorrectable error of HBM or DRAM hit (R47): a host command's data, a hot-fingerprint entry, the map page under a grain a
command reads, the content-table line of a CID, another DRAM line (address ÷ 64), or what a core reads. -/
inductive Struck where
  | nothing
  | cmd (op : Nat)
  | hot (cid : Nat)
  | map (op gi : Nat)
  | ct (cid : Nat)
  | line (n : Nat)
  | core (c addr : Nat)
  deriving DecidableEq, Repr

/-- An access of a core, or of the MPE walker port, to physical memory (R574, R580, R592): sizes are in bytes, and a store-conditional
or an AMO carries the bytes it would write. -/
inductive CoreAcc where
  | load (n : Nat)
  | store (data : Bytes)
  | lr (n : Nat)
  | sc (data : Bytes)
  | amo (data : Bytes)
  | fetch (n : Nat) (trap : Bool)
  | walk (n : Nat)
  deriving DecidableEq, Repr

end Sys2Proof
end

