-- ==== Sys2Proof/Parts/Maps.lean ====
section
/-! DEFINITION. The journalled structures of an array: content records, map pages, namespaces, segments, pools, slice rows, and the journal that changes them. -/
namespace Sys2Proof

/-- A content record (Table 7-4). LOC is segment × 2^18 + offset; a slot is free when LOC is 0 (R262). -/
structure CtRec where
  ftag   : Nat := 0
  loc    : Nat := 0
  clen   : Nat := 0
  ref    : Nat := 0
  gen    : Nat := 0
  dom    : Nat := 0
  folded : Bool := false
  pinned : Bool := false
  deriving DecidableEq, Repr

/-- A namespace descriptor (Table 7-3). -/
structure NsDesc where
  size   : Nat := 0
  lbaf   : Nat := 0
  pool   : Nat := 0
  group  : Nat := 0
  slice  : Nat := 0
  ord    : Nat := 0
  view   : Bool := false
  valid  : Bool := false
  source : Nat := 0
  deriving DecidableEq, Repr

/-- A namespace: its descriptor, its epoch, its live root entry and its snapshot slots (R251, R277). -/
structure Ns where
  desc  : NsDesc := {}
  epoch : Nat := 0
  root  : Nat := 0
  slots : AMap Nat := []
  /-- epoch of the snapshot a view shows (R280) -/
  viewEpoch : Nat := 0
  /-- handle of the slice whose references the namespace's entries are: it stays when VALID is cleared (R202) -/
  holder : Nat := 0
  deriving DecidableEq, Repr

/-- A map page: its level, its reference count and its entries; unlisted entries are 0 (R251, R273). -/
structure Page where
  level : Nat
  cnt   : Nat := 0
  ents  : AMap Nat := []
  deriving DecidableEq, Repr

/-- A segment table entry (Table 9-2) with its dirty-region bit and the fold links of Table 10-6. -/
structure Seg where
  state   : Nat := 0
  gen     : Nat := 0
  kind    : Nat := 0
  pool    : Nat := 0
  owner   : Nat := 0
  d       : Nat := 0
  basegen : Nat := 0
  row     : Nat := 0
  valid   : Nat := 0
  dirty   : Bool := false
  sealStamp : Nat := 0
  openStamp : Nat := 0
  /-- OSTAMP of its RETIRED record (R404) -/
  retStamp  : Nat := 0
  linked  : Bool := false
  tgtSeg  : Nat := 0
  tgtGen  : Nat := 0
  q       : Nat := 0
  isFold  : Bool := false
  /-- left OPEN with units that were never written, so its grains are not durable in it (R336, R349, R351) -/
  lossy   : Bool := false
  sources : List Nat := []
  deriving DecidableEq, Repr

/-- A base of a layout (Table 9-1, R328). -/
structure Base where
  basegen : Nat
  d    : Nat
  n    : Nat
  seed : Nat
  mask : Nat
  deriving DecidableEq, Repr

/-- A pool's layout descriptor (Table 9-1). -/
structure Pool where
  laygen  : Nat := 0
  ballast : Nat := 5
  members : Nat := 0
  fdom    : Nat := 0
  rebuilt : Nat := 0
  retired : List Nat := []
  baseNew : Base
  baseOld : Option Base := none
  deriving DecidableEq, Repr

/-- A slice as its SLICE records carry it: generation of the index and the 128-bit descriptor (R171, Table 5-1). -/
structure SliceRow where
  gen  : Nat
  desc : Nat
  deriving DecidableEq, Repr

/-- Everything the journal records change (Table 3-8); both heads hold it alike. -/
structure Maps where
  /-- [65,536; R259, 07_maps_snapshots.md; reset empty] namespaces by number -/
  nss    : AMap Ns := []
  /-- [36-bit LPNs; R257 and R273, 07_maps_snapshots.md; reset empty] map pages in use by LPN, the LPN table -/
  pages  : AMap Page := []
  /-- [2^38; R260, 07_maps_snapshots.md; reset all free, GEN 0] content table by CID; an unlisted slot is free -/
  ct     : AMap CtRec := []
  /-- [2^25; R333, 09_redundancy.md; reset all FREE, GEN 0] segment table by number -/
  segs   : AMap Seg := []
  /-- [4; R328, 09_redundancy.md; reset none] layout descriptors by pool -/
  pools  : AMap Pool := []
  /-- [4,096; R171, 05_slices.md; reset all FREE, generation 0] slice table by index -/
  slices : AMap SliceRow := []
  /-- [1,024; R119, 03_stamps_and_order.md; reset no owner recorded] owner head of each namespace group -/
  owner  : AMap Nat := []
  /-- [64 × 24; R356, 09_redundancy.md; reset none] homes of each lane of both heads as LANE_HOME records gave them -/
  laneHome : AMap Nat := []
  /-- [256 B chunks; R331, 09_redundancy.md; reset none] descriptors written but not yet made current, by LAYGEN × 4 + pool -/
  layNext : AMap Pool := []
  deriving DecidableEq, Repr

/-- A journal page a lane has programmed on its homes (R353, R354). -/
structure LanePage where
  /-- segment number of its tile, its page in the tile, and its number on the lane -/
  seg     : Nat := 0
  slot    : Nat := 0
  num     : Nat := 0
  recs    : List JRec
  homes   : List Nat
  /-- homes whose program has completed -/
  done    : List Nat := []
  deriving DecidableEq, Repr

/-- One of this head's 32 journal lanes (R120, R353 to R356). -/
structure Lane where
  homes   : List Nat := []
  queue   : List JRec := []
  /-- local PHYS of the first record of the page being filled -/
  firstAt : Nat := 0
  pages   : List LanePage := []
  /-- segment number of the current tile, 0 for none; pages written to it, 4 fill it; its place on each home; pages
  programmed on the lane so far -/
  seg     : Nat := 0
  tilePages : Nat := 0
  spots   : List (Nat × Nat × Nat × Nat) := []
  num     : Nat := 0
  /-- the next page opens a tile, after re-homing with LANE_HOME (R356) -/
  rehome  : Bool := false
  /-- highest OSTAMP enqueued, and PHYS of the last activity (R132) -/
  horizon : Nat := 0
  lastAt  : Nat := 0
  /-- durable copies of the page programmed last, shown as JRN.LANE_HOME.COPIES -/
  copies  : Nat := 0
  deriving DecidableEq, Repr

/-- A durable journal page kept until a checkpoint releases it (R289). -/
structure JPage where
  seg    : Nat := 0
  head   : Nat
  lane   : Nat
  recs   : List JRec
  homes  : List Nat
  deriving DecidableEq, Repr

/-- A checkpoint being written or the newest complete one (R285 to R290). -/
structure Ckpt where
  number  : Nat
  covered : Nat
  image   : Maps := {}
  /-- chunks shadowed while it runs (R285), as ckTodo names them -/
  shadow  : List Nat := []
  /-- the directory: newest copy of each chunk, its LOC and its length in 16-byte units (R288) -/
  dir     : AMap (Nat × Nat) := []
  deriving DecidableEq, Repr

/-- A Gondola grain (R77): its slice handle, namespace, grain index, data, application tag and OSTAMP. -/
structure GonGrain where
  slice  : Nat
  ns     : Nat
  gi     : Nat
  tag    : Nat := 0
  ostamp : Nat
  data   : Bytes
  deriving DecidableEq, Repr

/-- A programmed wordline that recovery reads (R359, R387, R388): where it lies; its entry in the summary of its block where the block is
full; the 128 bytes of metadata of each of its codewords in order, empty for one that does not decode; and the bytes of the pages of it that
recovery reads, by tile × 4 + plane. -/
structure FoundWl where
  m     : Nat
  die   : Nat
  block : Nat
  wl    : Nat
  sum   : Option Nat := none
  cws   : List Bytes := []
  pages : List (Nat × Bytes) := []
  deriving DecidableEq, Repr

/-- A Gondola that recovery finds (R77, R82): its head and claim generation, the bytes of its seal, empty for none, the 64-byte records of its
journal tail, and its grains. -/
structure FoundGon where
  head   : Nat := 0
  gen    : Nat := 0
  sealB  : Bytes := []
  tail   : List Bytes := []
  grains : List GonGrain := []
  deriving DecidableEq, Repr

/-- What recovery finds on the Shelf (R82, R133, R290, R331, R359, R388): the checkpoints whose directories it reads, the programmed wordlines
of every present module, the Gondolas, and the layout descriptors among the chunks, by LAYGEN × 4 + pool. -/
structure Found where
  ckpts  : List Ckpt := []
  wls    : List FoundWl := []
  gons   : List FoundGon := []
  chunks : List (Nat × Pool) := []
  deriving DecidableEq, Repr

/-- A content record whose REF reached 0, waiting for its CT_FREE (R271). -/
structure FreeWait where
  cid    : Nat
  /-- stamp of the group z that brought REF to 0, and whether this head issued it -/
  z      : Nat
  ownZ   : Bool
  /-- PHYS a at which the partner reported applying z -/
  a      : Option Nat := none
  deriving DecidableEq, Repr

/-- An entry of the hot-fingerprint cache (R227). -/
structure HfcEnt where
  cid : Nat
  gen : Nat
  fp  : Bytes
  deriving DecidableEq, Repr

/-- The map engine beyond the structures it holds. -/
structure Mpe where
  /-- [32 lanes; R127, 03_stamps_and_order.md; reset empty] this head's journal lanes -/
  lanes  : AMap Lane := []
  /-- [journal segments; R289, 07_maps_snapshots.md; reset none] durable journal pages of this head's lanes not released -/
  log    : List JPage := []
  /-- [journal records; R289, 07_maps_snapshots.md; reset none] groups of both heads applied since the newest checkpoint's cut -/
  hist   : List (List JRec) := []
  /-- [list; R276, 07_maps_snapshots.md; reset none] pages whose count reached 0: namespace, LPN, last entry -/
  rels   : List (Nat × Nat × Nat) := []
  /-- [journal delta buffer; R122, 03_stamps_and_order.md; reset empty] records received from the partner and not applied -/
  delta  : List JRec := []
  /-- [32 × 96; R283, 07_maps_snapshots.md; reset 0] horizon delivered by each of the partner's lanes -/
  pHor   : AMap Nat := []
  /-- [64 × 96; R479, 12_partner_pairing.md; reset 0] applied horizon the partner last reported for each lane of both heads -/
  pApp   : AMap Nat := []
  /-- [32 × 96; R403, 10_media.md; reset 0] durable horizon the partner last reported for each of its lanes -/
  pDur   : AMap Nat := []
  /-- [96; R285, 07_maps_snapshots.md; reset 0] highest OSTAMP applied -/
  top    : Nat := 0
  /-- [96; R125, 03_stamps_and_order.md; reset 0] highest OSTAMP received from the partner -/
  pTop   : Nat := 0
  /-- [1; R290, 07_maps_snapshots.md; reset none] newest complete checkpoint on media -/
  ckpt   : Option Ckpt := none
  /-- [1; R285, 07_maps_snapshots.md; reset none] checkpoint being written -/
  ckRun  : Option Ckpt := none
  /-- [list; R288, 07_maps_snapshots.md; reset none] chunks that wait to be written, with the pool they go to: CID ÷ 4,096; 2^40 + LPN of a
  map page; 2^41 + segment ÷ 1,024 of the segment table (R335); 2^42 + LAYGEN × 4 + pool of a layout descriptor (R331); 2^43 + part of the directory -/
  ckTodo : List (Nat × Nat) := []
  /-- [list; R288, 07_maps_snapshots.md; reset none] chunks of each checkpoint segment being written: chunk, LOC, length in 16-byte units -/
  ckSegs : AMap (List (Nat × Nat × Nat)) := []
  /-- [directory; R288, 07_maps_snapshots.md; reset empty] newest durable copy of each chunk: LOC and length in 16-byte units -/
  dir    : AMap (Nat × Nat) := []
  /-- [1; R288, 07_maps_snapshots.md; reset false] the directory of the running checkpoint has been given out to be written -/
  ckDir  : Bool := false
  /-- [64; R289, 07_maps_snapshots.md; reset 0] PHYS at which the last checkpoint started -/
  ckAt   : Nat := 0
  /-- [journal records; R126 and R135, 03_stamps_and_order.md; reset none] records that replay read, until the Gondola grains are handled -/
  seen   : List JRec := []
  /-- [list; R271, 07_maps_snapshots.md; reset none] records waiting for CT_FREE -/
  frees  : List FreeWait := []
  /-- [list; R270, 07_maps_snapshots.md; reset none] records waiting for a pin record -/
  pins   : List Nat := []
  /-- [64 Mi × 64 B; R227, 06_write_path.md; reset empty] hot-fingerprint cache, by CID -/
  hfc    : AMap HfcEnt := []
  /-- [list of groups; R287, 07_maps_snapshots.md; reset none] groups held while the checkpoint shadow is full -/
  held   : List (List JRec) := []
  /-- [1; R277, 07_maps_snapshots.md; reset none] accepted snapshot command that waits for its stamp: op, namespace, epoch -/
  snap   : Option (Nat × Nat × Nat) := none
  /-- [pages; R258, 07_maps_snapshots.md; reset none] LPNs whose copy failed its check and is being replaced -/
  badPages : List Nat := []
  /-- [32-bit; R133, 03_stamps_and_order.md; reset 0] copies whose CRC failed and incomplete groups that replay met, and groups that failed their condition (R124) -/
  cntCrc : Nat := 0
  cntPartial : Nat := 0
  cntFail : Nat := 0
  deriving DecidableEq, Repr

/-- The map cache: lines present by set and way (R291 to R296). -/
structure Mpc where
  /-- [131,072 sets × 12 ways; R291, 07_maps_snapshots.md; reset empty] lines: set × 12 + way to (line address, dirty) -/
  lines : AMap (Nat × Bool) := []
  /-- [counter; R292, 07_maps_snapshots.md; reset 0] use order for least recently used, and last use per set × 12 + way -/
  clock : Nat := 0
  used  : AMap Nat := []
  /-- [131,072 × 8; R293, 07_maps_snapshots.md; reset 0] evictions of this 1 ms window per set, and the sets logged in it -/
  evict : AMap Nat := []
  logged : List Nat := []
  windowAt : Nat := 0
  /-- [range; R295, 07_maps_snapshots.md; reset none] preload in progress: way, address, length -/
  preload : Option (Nat × Nat × Nat) := none
  /-- [32; R296, 07_maps_snapshots.md; reset 0] lines written back by the drain in progress -/
  drained : Nat := 0
  deriving DecidableEq, Repr

/-- What a write of a command register meets outside this head: what recovery finds where it starts one (SERVE_SOLO), the
anti-rollback fuse that does not blow where it confirms an image, and the positions READY on the partner where it makes a layout. -/
structure WriteEnv where
  found   : Found := {}
  badFuse : Option Nat := none
  peer    : Nat := 0
  deriving DecidableEq, Repr

end Sys2Proof
end

