-- ==== Sys2Proof/Parts/Rpl.lean ====
section
/-! DEFINITION. Replication sessions and what RSP records carry (R501 to R529). -/
namespace Sys2Proof

/-- What R510 looks at in an arriving RSP record: MAGIC and a known TYPE, SEALED, LEN, the trailer where LEN puts it, RSEQ, and the
GCM tag. -/
structure RHdr where
  fmtOk   : Bool := true
  sealed  : Bool := true
  len     : Nat
  trailer : Bool := true
  rseq    : Nat
  authOk  : Bool := true
  deriving DecidableEq, Repr

/-- Body of a SESSION record (Table 13-5). -/
structure RSession where
  sid    : Nat
  kind   : Nat
  offers : Bool
  target : Nat
  base   : Nat
  new_   : Nat
  size   : Nat
  lbaf   : Nat
  kcv    : Bytes
  deriving DecidableEq, Repr

/-- An entry of a GRAIN record (Table 13-5). -/
structure RGrain where
  oidx : Nat
  form : Nat
  tag  : Nat
  crc  : Nat
  data : Bytes
  deriving DecidableEq, Repr

/-- An RSP message (Table 13-5). -/
inductive RMsg where
  | hello (vers role array : Nat) (nonce : Bytes)
  | session (b : RSession)
  | offer (batch : Nat) (fps : List Bytes)
  | want (batch : Nat) (final : Bool) (bits : List Bool)
  | grain (batch : Nat) (gs : List RGrain)
  | ext (batch start : Nat) (vals : List Nat)
  | run (start len value : Nat)
  | seal_ (sid new_ tepoch batches grains : Nat)
  | abort_ (code detail : Nat)
  deriving DecidableEq, Repr

/-- A batch the source prepares or has sent (R516). -/
structure RBatch where
  num    : Nat
  /-- content records captured in the walk, in order of first appearance, and the first grain index of each -/
  cids   : List Nat := []
  gis    : List Nat := []
  /-- changed grains: index and value; a value below 0xFFFD is a place in cids -/
  ents   : List (Nat × Nat) := []
  /-- fingerprint at each place, empty while unknown -/
  fps    : List Bytes := []
  /-- place in cids behind each offer index -/
  offers : List Nat := []
  /-- the read working for the batch -/
  op     : Option Nat := none
  /-- grains read, by place: plaintext, application tag, and the frame where it goes out as one -/
  got    : AMap (Bytes × Nat × Bytes) := []
  sent   : Bool := false
  /-- offer indices asked for and not yet sent -/
  wants  : List Nat := []
  deriving DecidableEq, Repr

/-- A batch at the target (R518, R520). -/
structure TBatch where
  num  : Nat
  fps  : List Bytes := []
  /-- the lookup of its offers -/
  op   : Option Nat := none
  /-- hits by offer index: CID, GEN and the PHYS of the bucket read -/
  hit  : AMap (Nat × Nat × Nat) := []
  /-- offer indices whose WANT bit was 1 -/
  want : List Nat := []
  /-- grains that arrived, by offer index: data, application tag, fingerprint -/
  got  : AMap (Bytes × Nat × Bytes) := []
  deriving DecidableEq, Repr

/-- An EXTENT held or being applied at the target (R521): a run has one value for all its grains. -/
structure RExt where
  batch : Option Nat
  start : Nat
  len   : Nat
  vals  : List Nat
  op    : Option Nat := none
  deriving DecidableEq, Repr

/-- A session (R505 to R526). STATE codes are those of RPL.SESS_STAT. -/
structure RSess where
  state   : Nat := 0
  inbound : Bool := false
  lport   : Nat := 0
  ver     : Nat := 0
  nonce   : Bytes := []
  txSeq   : Nat := 0
  rxSeq   : Nat := 0
  txKey   : Bytes := []
  rxKey   : Bytes := []
  kind    : Nat := 0
  ns      : Nat := 0
  target  : Nat := 0
  base    : Nat := 0
  new_    : Nat := 0
  sid     : Nat := 0
  rate    : Nat := 0
  /-- the other array: expected by the source, named in HELLO to the target -/
  array   : Nat := 0
  /-- inbound binding -/
  bind    : Nat := 0
  offers  : Bool := false
  code    : Nat := 0
  sentAb  : Bool := false
  grains  : Nat := 0
  datas   : Nat := 0
  bytes   : Nat := 0
  startAt : Nat := 0
  lastAt  : Nat := 0
  /-- next grain of the walk, and whether it is over; a page whose failed check is being repaired -/
  walkAt  : Nat := 0
  walked  : Bool := false
  badPix  : Option Nat := none
  /-- batches begun or, at the target, finalised -/
  count   : Nat := 0
  batches : List RBatch := []
  sealAsked : Bool := false
  tbs     : List TBatch := []
  exts    : List RExt := []
  /-- SEAL received: its NEW, BATCHES and GRAINS; slot created for it -/
  sealReq : Option (Nat × Nat × Nat) := none
  slot    : Option Nat := none
  deriving DecidableEq, Repr

/-- RPL (R501 to R529). -/
structure Rpl where
  /-- [64; R505, 13_replication.md; reset IDLE] sessions by number; an unlisted one is IDLE -/
  sess   : AMap RSess := []
  /-- [64 × 32; R528, 13_replication.md; reset 0] LENGTH aborts per session -/
  cntLen : AMap Nat := []
  /-- [list; R515, 13_replication.md; reset none] bindings whose live root still has to be restored -/
  restore : List Nat := []
  /-- [list; R675, 18_registers.md; reset none] indexes whose START waits for RPL to take new work -/
  held : List Nat := []
  deriving DecidableEq, Repr

end Sys2Proof
end

