-- ==== Sys2Proof/Parts/Out.lean ====
section
/-! DEFINITION. What the device sends: the messages an observer outside it sees. -/
namespace Sys2Proof

/-- A grain on the MIRROR channel (R475). -/
structure MGrain where
  slot  : Nat
  slice : Nat
  ns    : Nat
  gi    : Nat
  tag   : Nat
  data  : Bytes
  /-- CRC-64 of the plaintext, HIT, and ZERO with which no data follows (Table 12-6) -/
  crc   : Nat := 0
  hit   : Bool := false
  zero  : Bool := false
  /-- grain within the command (Table 12-6) -/
  idx   : Nat := 0
  deriving DecidableEq, Repr

/-- What a forwarded command carries of its 64 bytes (R482). -/
structure FwdCmd where
  opc  : Nat
  ns   : Nat
  slba : Nat
  nlb  : Nat
  pract : Bool
  lbat : Nat
  deac : Bool
  ranges : List (Nat × Nat)
  deriving DecidableEq, Repr

/-- A message the device sends the partner over Carid (chapter 12). -/
inductive CMsg where
  /-- MIRROR GRAIN: mirror token, grains in the command, and grains (R242, R475). -/
  | grain (txn gcnt : Nat) (gs : List MGrain)
  | bind (txn ostamp : Nat)
  | free (slots : List Nat)
  | cancel (txn : Nat)
  /-- DELTA RECS of one lane (R478). -/
  | recs (lane : Nat) (rs : List JRec)
  | horizon (ls : List (Nat × Nat))
  /-- DELTA HFC_HINT: CID, GEN and fingerprint (R481). -/
  | hfcHint (es : List HfcEnt)
  | pageReq (ns pix : Nat)
  | pageRsp (ns pix : Nat) (ents : AMap Nat)
  /-- FORWARD CMD with the first write data, WDATA, RDATA, DONE and ABORT by token (R482 to R484). -/
  | fwdCmd (txn slice ctl qid lport : Nat) (c : FwdCmd) (data : Bytes)
  | wdata (txn off : Nat) (data : Bytes)
  | rdata (txn off tag : Nat) (data : Bytes)
  | fwdDone (txn sct sc : Nat) (dnr : Bool) (dw0 ostamp : Nat)
  | fwdAbort (txn : Nat)
  /-- DELTA PT: page table changes by module × 2^29 + logical page, in PTSEQ order (R480). -/
  | pt (seq : Nat) (es : List (Nat × Nat))
  /-- ADMIN DEMAND: handle, operations, bytes; METER_CNT; METER_REC; METER_ACK; INFLIGHT (Table 12-8). -/
  | demand (es : List (Nat × Nat × Nat))
  | meterCnt (final : Bool) (es : List (Nat × Bytes))
  | meterRec (n : Nat) (entry : Bytes)
  | meterAck (seq : Nat)
  | inflight (h n : Nat)
  /-- MIRROR RCPT: transaction, true for RANGE; BIND_ACK (R475, R476). -/
  | rcpt (txn : Nat) (range : Bool)
  | bindAck (txn : Nat)
  /-- DELTA LACK: PHYS, PTSEQ, applied and durable horizons by lane (Table 12-8). -/
  | lack (phys ptSeq : Nat) (applied durable : List Nat)
  /-- HEARTBEAT: SEQ, ESTAMP, mode code, flags, array claim generation (R487). -/
  | heartbeat (seq estamp mode flags gen : Nat)
  /-- LINK HELLO of 64 bytes, NAK of a code, IDLE (Table 12-4). -/
  | hello (b : Bytes)
  | nak (code : Nat)
  | idle
  /-- ADMIN moves: group and OSTAMP (R490). -/
  | movePropose (group ostamp : Nat)
  | moveAgree (group ostamp : Nat)
  | moveDone (group ostamp : Nat)
  /-- ADMIN joining: limit of modules, CT_BITS, highest minor, usable DRAM; reason and cut (Table 12-9). -/
  | joinReq (limit ctBits minor gib : Nat)
  | joinRsp (reason cut : Nat)
  | releaseReq (head : Nat)
  | released (gen : Nat)
  | hoReq
  | hoAck
  | claimGen (gen : Nat)
  | rekey (nonce : Bytes) (xseq : Nat)
  | ring (es : List Bytes)
  /-- TETHER REQ with its exchange number, and RSP with t2 and t3 (R486). -/
  | tetherReq (ex : Nat)
  | tetherRsp (ex t2 t3 : Nat)
  /-- An ADMIN request or answer with its ATAG (R489). -/
  | admin (atag : Nat) (m : CMsg)
  deriving DecidableEq, Repr

/-- What a Carid frame's header carries beside its message (Table 12-3), and the key it is encrypted under, empty where it is sent in the
clear (R470). A replayed frame bears what it bore at first. -/
structure CSent where
  ver     : Nat
  xseq    : Nat := 0
  uctr    : Nat := 0
  ack     : Nat
  credits : Nat := 0
  cchan   : Nat := 0
  key     : Bytes := []
  deriving DecidableEq, Repr

/-- A message or level change leaving the device, in order of issue. -/
inductive Out where
  /-- The value a control-space or core-local read returned to requester r. -/
  | readData (r : Nat) (addr : Nat) (value : Nat)
  /-- An access fault at a core (R669, R579, R47). -/
  | accessFault (r : Nat) (addr : Nat)
  /-- An illegal-instruction exception at a core (R577). -/
  | illegal (core csr : Nat)
  /-- An MSI-X write of the Annex privileged function (R605). -/
  | msix (vector : Nat)
  /-- A TFTP packet to a client: opcode 3 DATA, 4 ACK, 5 ERROR, 6 OACK (R629). -/
  | tftp (tid opcode num : Nat) (data : Bytes)
  /-- An ARP reply from the service port (R627). -/
  | arpReply (target sender : Nat)
  /-- An ICMP echo reply from the service port (R627). -/
  | icmpReply (dst ident seq : Nat) (data : Bytes)
  /-- A completion queue entry: queue pair, Command ID, status code type, status, DNR, dword 0 (R157 to R169). -/
  | cqe (conn cid sct sc : Nat) (dnr : Bool) (dw0 : Nat)
  /-- An NVMe/TCP C2HTermReq with its fatal error status and field (Table 4-7). -/
  | c2hTerm (conn fes fei : Nat)
  /-- An NVMe/TCP ICResp with the digests enabled (R141). -/
  | icResp (conn : Nat) (hdgst ddgst : Bool)
  /-- A Ready-to-Transfer PDU (R143). -/
  | r2t (conn cid ttag off len : Nat)
  /-- An RDMA READ of host memory for a command (Table 4-3). -/
  | rdmaRead (conn cid len : Nat)
  /-- Read data to the host at an offset: C2HData, an RDMA WRITE, or a write to host memory (R301). -/
  | hostData (conn cid off : Nat) (data : Bytes)
  /-- Data of an Identify, log page, feature or reservation report command. -/
  | adminData (conn cid : Nat) (data : Bytes)
  /-- A Connect response: status code type, status, CNTLID or IPO and IATTR (R145, R146, R175). -/
  | connectRsp (conn sct sc value iattr : Nat)
  /-- A RoCEv2 congestion notification (R140). -/
  | cnp (conn : Nat)
  /-- An IEEE 802.1Qbb pause frame: logical port, priorities, quanta (R140). -/
  | pfc (lport classes quanta : Nat)
  /-- A RoCEv2 NAK: 0 sequence error, 1 remote invalid request (Table 4-7). -/
  | nak (conn kind : Nat)
  /-- The answer to an RDMA CM request: accepted or refused (R141). -/
  | cmReply (conn : Nat) (ok : Bool)
  /-- A connection or queue pair ended by the device (R161). -/
  | connEnd (conn : Nat)
  /-- A Jonan frame sent at a link end (0 to 63 this head's positions, 64 + 2 × module + port the bridges): TYPE, VER,
  LSEQ, ACK, CREDITS, TAG, TGEN, DIE, OP, FLAGS and payload (Table 11-6). -/
  | jonan (ending typ ver lseq ack credits : Nat) (tag tgen die op flags : Nat) (payload : Bytes)
  /-- RPL opens a TCP connection for a session: address, port and logical port (Table 13-1). -/
  | rspConnect (i addr port lport : Nat)
  /-- An RSP record of a session as it goes out (Table 13-3). -/
  | rsp (i : Nat) (record : Bytes)
  /-- The device closes a session's connection, or refuses one with a TCP reset (R506). -/
  | rspClose (i : Nat)
  | rspReset (lport : Nat)
  /-- A single-group move below Carid 3.3 is answered BAD_VERSION (Table 12-2). -/
  | badVersion (group : Nat)
  /-- A Carid frame: what its header carries, and the message (Table 12-3). -/
  | carid (h : CSent) (m : CMsg)
  deriving DecidableEq, Repr

end Sys2Proof
end

