-- ==== Sys2Proof/Parts/Io.lean ====
section
/-! DEFINITION. State of the host side: ports, connections, controllers, commands in flight, the write cache and the Sideboard. -/
namespace Sys2Proof

/-- An outstanding Ready-to-Transfer range of a connection (R143, Table 4-3). -/
structure R2t where
  idx : Nat
  gen : Nat
  op  : Nat
  off : Nat
  len : Nat
  got : Nat := 0
  deriving DecidableEq, Repr

/-- A queue pair: one admin or I/O queue of a controller, on any transport (R141, R144). -/
structure Conn where
  /-- 1 NVMe/TCP, 2 NVMe/RoCEv2, 3 Annex -/
  xport : Nat
  /-- logical port, or 0xFF for the Annex port -/
  lport : Nat
  /-- ICReq exchanged, or the queue pair set up -/
  ready : Bool := false
  /-- set up at the discovery port (Table 4-3) -/
  disc  : Bool := false
  hdgst : Bool := false
  ddgst : Bool := false
  /-- controller bound by Connect, and the queue's number and size -/
  ctl   : Option Nat := none
  qid   : Nat := 0
  size  : Nat := 0
  /-- PASID of an Annex queue -/
  pasid : Nat := 0
  /-- doorbell position, consumed position -/
  tail  : Nat := 0
  ttagGen : AMap Nat := []
  r2ts  : List R2t := []
  /-- transmit rate in 1/2^32 of line rate, local time of the last CNP sent and of the last regain (R140) -/
  rate  : Nat := 4294967296
  cnpAt : Option Nat := none
  gainAt : Nat := 0
  /-- next PSN expected -/
  psn   : Nat := 0
  /-- the queue pair is in error -/
  err   : Bool := false
  /-- the QP takes a pair of the pool -/
  pair  : Bool := false
  deriving DecidableEq, Repr

/-- A controller (R146). -/
structure Ctl where
  slice  : Nat
  hostId : Bytes
  ioq    : Nat := 0
  /-- keep-alive timeout in ns, 0 when none, and local time it was last restarted -/
  kato   : Nat := 0
  kaAt   : Nat := 0
  /-- Command IDs of waiting Async Event Requests, and events waiting for one -/
  aers   : List Nat := []
  events : List Nat := []
  aenCfg : Nat := 0
  feats  : AMap Nat := []
  /-- Error Information log, newest first: (count, qid, cid, status, lba, nsid) -/
  errs   : List (List Nat) := []
  errCnt : Nat := 0
  deriving DecidableEq, Repr

/-- A reservation of a namespace (R150): registrants are (host identifier, key). -/
structure Resv where
  gen    : Nat := 0
  regs   : List (Bytes × Nat) := []
  holder : Option Bytes := none
  typ    : Nat := 0
  ptpl   : Bool := true
  deriving DecidableEq, Repr

/-- What a head learns of its partner as the two enter PAIRED: the size of the Sideboard (R37), the admission capacities (R180), and the
reservations (R150). The spec names no Carid message that carries them (log 81). -/
structure PeerInfo where
  sb   : Nat := 12884901888
  capI : Nat := 0x13880
  capB : Nat := 0x61A8
  resv : AMap Resv := []
  deriving DecidableEq, Repr

/-- How far a grain of a write has come (R212 to R247). -/
inductive GrainSt where
  | merging                              -- its merge source is being read
  | blocked                              -- an earlier command on this head has the grain (R218)
  | digest                               -- waits for its fingerprint
  | bucket                               -- waits for the bucket (R228)
  | confirm (cands : List Nat)           -- candidate CIDs left; the first one's trailer is being fetched
  | compress                             -- CMP works on it
  | sealing                              -- CPH works on it
  | place                                -- sealed, waits for an open segment
  | zero
  | unmap                                -- a deallocated grain
  | copy (cid gen birth : Nat)           -- a grain copied by reference (R282)
  | hit (cid gen : Nat)
  | uniq (cid gen loc : Nat)
  deriving DecidableEq, Repr

/-- One grain of a write command. -/
structure Grain where
  gi   : Nat
  /-- sectors written, one bit each; 0xFF when the whole grain is -/
  mask : Nat := 255
  data : Bytes := []
  tag  : Nat := 0
  crc  : Nat := 0
  st   : GrainSt := .digest
  fp   : Bytes := []
  /-- PHYS at which the bucket was read (R268) -/
  readAt : Nat := 0
  /-- slot chosen for an insert, its GEN, and the stored bytes -/
  cid  : Nat := 0
  gen  : Nat := 0
  stored : Bytes := []
  raw  : Bool := false
  /-- compressed as a probe in SKIP (R234) -/
  probe : Bool := false
  hdr  : Bytes := []
  /-- the partner holds the grain (R242) -/
  rcpt : Bool := false
  deriving DecidableEq, Repr

/-- The stage of a host command. -/
inductive Stage where
  | waiting          -- at admission
  | data             -- admitted, host data still arriving
  | active
  | stamped
  deriving DecidableEq, Repr

/-- A grain being read for a Read or Compare, a merge, a relocation or a replication (R301 to R314). -/
structure RdGrain where
  gi    : Nat
  /-- sectors asked for, first and count, within the grain -/
  sec   : Nat := 0
  nsec  : Nat := 8
  cid   : Nat := 0
  loc   : Nat := 0
  clen  : Nat := 0
  gen   : Nat := 0
  tries : Nat := 0
  /-- codewords gathered: (unit × 65,536 + tile × 16 + codeword) to its 4,096 bytes, empty when unreadable -/
  cws   : AMap Bytes := []
  recon : Bool := false
  /-- plaintext once verified, and its application tag -/
  data  : Bytes := []
  tag   : Nat := 0
  /-- decrypted frame, where the record holds one -/
  frame : Bytes := []
  done  : Bool := false
  /-- status of the grain when it failed: SCT × 256 + SC, DNR -/
  fail  : Option (Nat × Bool) := none
  /-- transmitted, and acknowledged -/
  sent  : Bool := false
  deriving DecidableEq, Repr

/-- A command in flight, or work of the device on a command's behalf. -/
structure IoCmd where
  /-- queue pair, absent for a command the partner forwarded or the connection has ended -/
  conn  : Option Nat
  cid   : Nat
  /-- opcode as NVMe gives it -/
  opc   : Nat
  slice : Nat
  ns    : Nat
  slba  : Nat := 0
  nlb   : Nat := 0
  pract : Bool := false
  prchk : Nat := 0
  lbat  : Nat := 0
  stage : Stage := .waiting
  /-- local time of the command's fetch, and its place in the order of admission (R218) -/
  at0   : Nat := 0
  adm   : Nat := 0
  /-- host data gathered so far and expected -/
  need  : Nat := 0
  /-- bytes asked for and received so far -/
  asked : Nat := 0
  recvd : Nat := 0
  data  : Bytes := []
  grains : List Grain := []
  reads  : List RdGrain := []
  /-- grains whose groups are stamped; a long change is journalled as several groups (R129) -/
  doneN  : Nat := 0
  /-- highest OSTAMP of its groups, and whether all are stamped -/
  ostamp : Nat := 0
  /-- the partner acknowledged the binding (R243) -/
  bound  : Bool := false
  /-- transaction on the Carid MIRROR channel, token on the FORWARD channel -/
  txn    : Nat := 0
  tok    : Nat := 0
  /-- forwarded to the partner; forwarded by the partner -/
  fwd    : Bool := false
  fromPartner : Bool := false
  /-- status decided: SCT × 256 + SC, DNR -/
  status : Option (Nat × Bool) := none
  /-- source range of a Copy, options of Write Zeroes and DSM -/
  src    : Nat := 0
  ranges : List (Nat × Nat) := []
  /-- domain and key slot of a replicated grain, in place of its slice's (R520) -/
  via    : Option (Nat × Nat) := none
  deac   : Bool := false
  adopted : Bool := false
  deriving DecidableEq, Repr

/-- A read grain transmitted and not acknowledged by the host (R319). -/
structure Unack where
  conn : Nat
  cid  : Nat
  ns   : Nat
  slice : Nat
  off  : Nat
  /-- first block of the command and its PRACT -/
  base : Nat := 0
  pract : Bool := false
  g    : RdGrain
  /-- its buffer has been released, so a retransmission reads it again -/
  rel  : Bool := false
  deriving DecidableEq, Repr

/-- A dirty grain in the own write cache (R245, R246). -/
structure WcEnt where
  op    : Nat
  slice : Nat
  ns    : Nat
  gi    : Nat
  data  : Bytes
  tag   : Nat
  crc   : Nat
  ostamp : Nat := 0
  cid   : Nat := 0
  gen   : Nat := 0
  fp    : Bytes := []
  clen  : Nat := 0
  txn   : Nat := 0
  /-- 4 KiB slot of the own write cache (R473) -/
  slot  : Nat := 0
  /-- written by an inbound replication session: its domain and key slot (R520, R522) -/
  via   : Option (Nat × Nat) := none
  /-- adopted from the Sideboard or a Gondola (R38) -/
  adopted : Bool := false
  /-- original OSTAMP of an adopted grain that is written again and has no new stamp yet (R77, R126) -/
  orig : Nat := 0
  deriving DecidableEq, Repr

/-- A grain of the partner's in the Sideboard (R475, R476). -/
structure SbEnt where
  txn   : Nat
  slot  : Nat
  slice : Nat
  ns    : Nat
  gi    : Nat
  data  : Bytes
  tag   : Nat
  ostamp : Option Nat := none
  deriving DecidableEq, Repr

/-- The ingest engine's domain table: entry word by domain (R248). -/
structure Ing where
  /-- [1,024 × 32; R248, 06_write_path.md; reset 0] domain table -/
  dom : AMap Nat := []
  deriving DecidableEq, Repr

/-- The host side of a head. -/
structure Io where
  /-- [64; R140, 04_host_fabric.md; reset none] priorities of a logical port paused by PFC, and what it holds back meanwhile -/
  paused : AMap Nat := []
  held   : List (Nat × Out) := []
  /-- [262,144; R144, 04_host_fabric.md; reset none] queue pairs and transport connections -/
  conns  : AMap Conn := []
  /-- [controllers; R146, 04_host_fabric.md; reset none] controllers by CNTLID -/
  ctls   : AMap Ctl := []
  /-- [15; R146, 04_host_fabric.md; reset 0] last CNTLID issued, bits 14..0 -/
  lastCtl : Nat := 0
  /-- [list; R158, 04_host_fabric.md; reset none] commands in flight by the order of their arrival -/
  cmds   : AMap IoCmd := []
  nextOp : Nat := 0
  /-- [16 GiB; R36, 01_architecture.md; reset none] own write cache and Sideboard -/
  wc     : List WcEnt := []
  sb     : List SbEnt := []
  /-- [64; R37, 01_architecture.md; reset 12 GiB, Table 1-6] bytes of the partner's Sideboard -/
  pSb    : Nat := 12884901888
  /-- [1; R38, 01_architecture.md; reset false] the Sideboard's contents have been adopted as own dirty data -/
  adopted : Bool := false
  /-- [65,536; R150, 04_host_fabric.md; reset none] reservations by namespace -/
  resv   : AMap Resv := []
  /-- [list; R104, 03_stamps_and_order.md; reset none] log of the completions of state-changing commands: OSTAMP, queue pair, Command ID -/
  cqLog  : List (Nat × Nat × Nat) := []
  /-- [1,024; R59, 02_operating_modes.md; reset inaccessible] groups in ANA change state, and the ANA change count -/
  anaChg : List Nat := []
  anaCnt : Nat := 0
  /-- [1,024; R62, 02_operating_modes.md; reset none] ANA state reported per group -/
  ana    : AMap Nat := []
  /-- [64 × 256 × 32; R162, 04_host_fabric.md; reset 0] violation counters by logical port × 256 + VCODE -/
  vcnt   : AMap Nat := []
  /-- [list; R163, 04_host_fabric.md; reset none] local time of the last log entry per logical port and VCODE -/
  vlast  : AMap Nat := []
  /-- [32; R168, 04_host_fabric.md; reset 0] violation log entries firmware has not read -/
  vpend  : Nat := 0
  /-- [8,192; R319, 08_read_path.md; reset none] transmitted grains not acknowledged, oldest first -/
  unack  : List Unack := []
  /-- [64; R655, 17_faults_recorder_power.md; reset 0] bytes read by hosts -/
  rdBytes : Nat := 0
  /-- [64; R655, 17_faults_recorder_power.md; reset 0] bytes written by hosts -/
  wrBytes : Nat := 0
  deriving DecidableEq, Repr

end Sys2Proof
end

