-- ==== Sys2Proof/Syntax.lean ====
section
/-! DEFINITION. The commands of the block: one constructor per row of the table of operations and events. -/
namespace Sys2Proof

/-- A command or event from outside, or a timed event of the device; the effect of each is `Sys2Proof.Machine.exec`. -/
inductive Instr where
  /-- REGISTER_WRITE (R13): A write to a register field that has no row of its own takes the effect of its access code. -/
  | registerWrite (r : Requester) (key : Fin 67207168) (v : BitVec 32) (env : WriteEnv)
  /-- READ_CAPTURE_64 (R20): A read of the lower offset of a 64-bit register captures the whole value for the next upper read by the same requester. -/
  | readCapture64 (r : Requester) (key : Fin 67207168)
  /-- WRITE_UPPER_SHADOW (R21): A write to the upper offset of a 64-bit RW register is held in the requester's shadow. -/
  | writeUpperShadow (r : Requester) (key : Fin 67207168) (v : BitVec 32)
  /-- WRITE_LOWER_COMMIT (R21): A write to the lower offset of a 64-bit RW register commits both halves together. -/
  | writeLowerCommit (r : Requester) (key : Fin 67207168) (v : BitVec 32)
  /-- ANNEX_64BIT_ACCESS (R22): An aligned 64-bit Annex access is served as one serialised access on one 64-bit register or two 32-bit offsets. -/
  | annex64bitAccess (key : Fin 67207168) (wr : Option (BitVec 64)) (env : WriteEnv)
  /-- MISALIGNED_ACCESS (R23): A misaligned or narrow access is ignored or reads 0 and sets the control-space access error. -/
  | misalignedAccess (r : Requester) (key : Fin 67207168) (size : Fin 9) (wr : Option (BitVec 64))
  /-- UNASSIGNED_PAGE_ACCESS (R669): An access to an unassigned page faults a core, or completes with 0 for the Annex port and sets the ANX error. -/
  | unassignedPageAccess (r : Requester) (key : Fin 67207168) (wr : Option (BitVec 32))
  /-- HBC_FENCE (R49): HBC.FENCE_CMD FENCE makes a pseudo-channel fence pending until the next BOOT. -/
  | hbcFence (pc : Fin 64)
  /-- DDC_FENCE (R44): DDC.FENCE_CMD FENCE fences a DDR channel at once, sending the head to ISOLATED and re-interleaving. -/
  | ddcFence (ch : Fin 16)
  /-- DDR_CHANNEL_LOSS (R44): A channel that loses a DIMM or fails is fenced and the head enters ISOLATED with CAUSE 0x0A. -/
  | ddrChannelLoss (ch : Fin 16)
  /-- DDC_SCRUB (R45): DDC reads each DRAM line once per scrub period and writes corrected data back. -/
  | ddcScrub (line : Nat) (finding : Fin 3) (hit : Struck)
  /-- CE_WINDOW_END (R48): The one-hour ESTAMP window of corrected-error counts per pseudo-channel and channel ends and restarts. -/
  | ceWindowEnd
  /-- AUTO_JOIN (R44): With AUTO_JOIN set, the device issues JOIN itself on entry to ISOLATED from BOOT or once the footprint fits after a channel fence. -/
  | autoJoin
  /-- HBM_REFRESH_DOUBLE (R712): A stack sensor above 85 °C doubles that stack's refresh rate. -/
  | hbmRefreshDouble (stack : Fin 2) (temp : Int)
  /-- HBM_REFRESH_NORMAL (R712): A stack sensor below 82 °C returns the stack to the normal refresh rate. -/
  | hbmRefreshNormal (stack : Fin 2) (temp : Int)
  /-- JOIN (R57): BSV.MODE_CMD JOIN takes the head from ISOLATED to JOINING when its requirements hold, or reports a refusal. -/
  | join
  /-- SERVE_SOLO (R57): BSV.MODE_CMD SERVE_SOLO takes the head from ISOLATED to SOLO after the checks of Table 2-11. -/
  | serveSolo (found : Found)
  /-- HANDOVER (R72): BSV.MODE_CMD HANDOVER starts draining a PAIRED head to the partner. -/
  | handover
  /-- STOP (R56): BSV.MODE_CMD STOP takes a SOLO head to ISOLATED once admitted commands have completed. -/
  | stop
  /-- ENTER_SERVICE (R56): BSV.MODE_CMD ENTER_SERVICE takes an ISOLATED head to SERVICE. -/
  | enterService
  /-- PARTNER_LOSS (R64): After 10 ms without HEARTBEAT and 20 ms without a partner witness change, the head declares partner loss and claims every die. -/
  | partnerLoss
  /-- QUORUM_REACHED (R66): When a majority of present modules accept the claim, the head adopts the Sideboard, applies deltas, re-homes lanes and enters SOLO. -/
  | quorumReached (resync : List (Nat × Bool × List Placed × List Nat))
  /-- QUORUM_TIMEOUT (R65): Without quorum 40 ms after declaring partner loss, the head enters ISOLATED with CAUSE 0x0D. -/
  | quorumTimeout
  /-- HANDOVER_DRAIN_COMPLETE (R73): Once the drain conditions hold in order, the head enters ISOLATED, drives READY_REMOVE_N low and stops heartbeat and witness. -/
  | handoverDrainComplete
  /-- PWR_FAIL_FALL (R75): A PWR_FAIL_N fall in PAIRED, SOLO or HANDOVER enters VAULT; in other modes boot-flash work stops. -/
  | pwrFailFall (lowNs : Nat)
  /-- PWR_FAIL_RISE (R79): A PWR_FAIL_N rise starts the 100 ms high time that pending ceiling writes and VAULT exit wait for. -/
  | pwrFailRise
  /-- GONDOLA_SEAL (R77): When every vault segment is written, the seal is written and VAULT is complete. -/
  | gondolaSeal
  /-- GONDOLA_ABANDON (R80): After 1 s, or with no reserve room or openable row, the Gondola is abandoned without a seal. -/
  | gondolaAbandon
  /-- VAULT_EXIT (R79): Once the Gondola is sealed or abandoned and PWR_FAIL_N has been high 100 ms, the device enters BOOT. -/
  | vaultExit (bad : List Nat)
  /-- RESET_ASSERT (R698): RESET_N low for 1 µs or longer takes the device to BOOT; shorter pulses are ignored. -/
  | resetAssert (lowNs : Nat)
  /-- RESET_RELEASE (R699): The rise of RESET_N samples straps and starts the boot sequence. -/
  | resetRelease (bad : List Nat)
  /-- BOOT_COMPLETE (R622): With the image loaded and training done, the device enters ISOLATED (or SERVICE when required). -/
  | bootComplete (badPc : List (Fin 64)) (badCh : List (Fin 16)) (gon : Option (Bool × Nat))
  /-- CEILING_WRITE (R90): When PHYS reaches the ceiling minus 10 s, TBS appends a new ceiling of PHYS plus 20 s. -/
  | ceilingWrite
  /-- CEILING_WRITE_DONE (R90): A ceiling log entry becomes durable and stalled issuers may pass. -/
  | ceilingWriteDone
  /-- CEILING_STALL (R91): PHYS reaching the stored ceiling stalls every issuer and sets CEIL_STALL. -/
  | ceilingStall
  /-- CAL_SET (R95): TBS.CAL_CMD SET sets the RTC and calendar anchor and records the step. -/
  | calSet
  /-- RTC_HOURLY_UPDATE (R95): While the calendar is set, TBS writes the UTC of R93 into the RTC once per hour. -/
  | rtcHourlyUpdate
  /-- LOGICAL_OVF_RESUME (R103): An issuer stalled on LOGICAL overflow resumes once its PHYS copy passes. -/
  | logicalOvfResume (unit : Fin 128)
  /-- TETHER_EXCHANGE_START (R105): Every 1 µs the follower sends a TETHER REQ and takes t1. -/
  | tetherExchangeStart
  /-- TETHER_REQ (R486): The reference takes t2 and returns an RSP carrying t2 and t3. -/
  | tetherReq (ex : Fin 4294967296) (lag : Nat)
  /-- TETHER_RSP (R106): The follower takes t4, computes θ and δ, and corrects its rate. -/
  | tetherRsp (ex : Fin 4294967296) (t2 : Nat) (t3 : Nat)
  /-- TETHER_EXCHANGE_LOST (R486): A REQ without RSP within 2 µs is counted as lost. -/
  | tetherExchangeLost (ex : Fin 4294967296)
  /-- TETHER_LOCK_LOSS (R111): No completed exchange for 4 µs reports loss of lock and EPS_CUR grows. -/
  | tetherLockLoss
  /-- COMMIT_WAIT_PASS (R116): When local PHYS exceeds s plus 2 × EPS_CUR and other conditions hold, the completion is posted. -/
  | commitWaitPass (op : Nat)
  /-- GROUP_STAMP (R239): Once every grain of a command is placed or resolved, the lane of record 0 stamps the group and MPE applies it. -/
  | groupStamp (op : Nat)
  /-- LANE_PAGE_FLUSH (R353): A lane programs its page on three homes when full or FLUSH_NS after its first record. -/
  | lanePageFlush (lane : Fin 32)
  /-- LANE_PAGE_DURABLE (R354): A page program completing on two homes makes its records durable. -/
  | lanePageDurable (lane : Fin 32)
  /-- LANE_HORIZON_ADVANCE (R132): A lane idle for 10 µs advances its horizon over Carid without a record. -/
  | laneHorizonAdvance (lane : Fin 32)
  /-- PARTNER_GROUP_APPLY (R283): A received group is applied once complete and, for map records, once every partner lane has passed its OSTAMP. -/
  | partnerGroupApply (ostamp : Nat) (geo : List (Nat × Nat × Nat × Nat × Nat)) (lay : List (Nat × Pool)) (dir : List (Nat × Nat × Nat) := [])
  /-- PORT_CFG_WRITE (R138): A write to HFX.PORT_CFG changes the port mode only to or from 3 and otherwise sets the mode error. -/
  | portCfgWrite (port : Fin 16) (v : BitVec 32)
  /-- PORT_LINK_UP (R137): A logical port gains link after auto-negotiation and training. -/
  | portLinkUp (port : Fin 16) (k : Fin 4)
  /-- PORT_LINK_DOWN (R137): A logical port loses link and its connections end. -/
  | portLinkDown (port : Fin 16) (k : Fin 4)
  /-- ECN_MARKED_PACKET (R140): A marked RoCEv2 packet is answered with a congestion notification, at most one per queue pair per 50 µs. -/
  | ecnMarkedPacket (q : Nat)
  /-- CNP_RECEIVED (R140): A received congestion notification halves the queue pair's transmit rate. -/
  | cnpReceived (q : Nat)
  /-- RATE_REGAIN (R140): Every 55 µs a throttled queue pair regains 1/16 of line rate. -/
  | rateRegain (q : Nat)
  /-- ICREQ (R142): An NVMe/TCP ICReq is accepted or ends the connection when a required digest is not enabled. -/
  | icreq (q : Nat) (lport : Fin 64) (hd : Bool) (dd : Bool) (port : Fin 65536 := 4420)
  /-- FABRICS_CONNECT (R145): A Fabrics Connect binds a controller to a slice and takes a queue pair, or is refused. -/
  | fabricsConnect (q : Nat) (qid : Nat) (size : Nat) (cntlid : Nat) (kato : Nat) (hostId : Bytes) (hostNqn : Bytes) (subNqn : Bytes)
  /-- READ (R301): An NVMe Read is checked, admitted and each grain resolved, fetched, decoded, verified and transmitted. -/
  | readCmd (q : Nat) (c : NvmeCmd)
  /-- WRITE (R245): An NVMe Write is checked, admitted, cut into grains, deduplicated, compressed, sealed, mirrored and acknowledged. -/
  | writeCmd (q : Nat) (c : NvmeCmd)
  /-- FLUSH (R147): A Flush completes after commit wait with no media work. -/
  | flushCmd (q : Nat) (c : NvmeCmd)
  /-- WRITE_ZEROES (R281): Write Zeroes maps the blocks as zero grains or zero subtrees. -/
  | writeZeroes (q : Nat) (c : NvmeCmd)
  /-- DATASET_MANAGEMENT (R269): Dataset Management Deallocate unmaps ranges and releases old references. -/
  | datasetManagement (q : Nat) (c : NvmeCmd)
  /-- COPY (R282): Copy sets destination entries to the source's content references without moving data. -/
  | copyCmd (q : Nat) (c : NvmeCmd)
  /-- COMPARE (R320): Compare reads each grain and compares it with the host's data. -/
  | compareCmd (q : Nat) (c : NvmeCmd)
  /-- RESERVATION_REGISTER (R150): Reservation Register records an array-wide registration. -/
  | reservationRegister (q : Nat) (c : NvmeCmd)
  /-- RESERVATION_REPORT (R150): Reservation Report returns the array-wide reservation state. -/
  | reservationReport (q : Nat) (c : NvmeCmd)
  /-- RESERVATION_ACQUIRE (R150): Reservation Acquire takes an array-wide reservation. -/
  | reservationAcquire (q : Nat) (c : NvmeCmd)
  /-- RESERVATION_RELEASE (R150): Reservation Release releases an array-wide reservation. -/
  | reservationRelease (q : Nat) (c : NvmeCmd)
  /-- IDENTIFY (R147): Identify returns controller or namespace data. -/
  | identifyCmd (q : Nat) (c : NvmeCmd)
  /-- GET_LOG_PAGE (R149): Get Log Page returns a log page, including this head's ANA log. -/
  | getLogPage (q : Nat) (c : NvmeCmd)
  /-- GET_FEATURES (R147): Get Features returns a feature value. -/
  | getFeatures (q : Nat) (c : NvmeCmd)
  /-- SET_FEATURES (R147): Set Features sets a feature value. -/
  | setFeatures (q : Nat) (c : NvmeCmd)
  /-- KEEP_ALIVE (R141): Keep Alive restarts the controller's keep-alive timer. -/
  | keepAlive (q : Nat) (c : NvmeCmd)
  /-- ABORT (R147): Abort cancels a command only before its data transfer starts. -/
  | abortCmd (q : Nat) (c : NvmeCmd)
  /-- ASYNC_EVENT_REQUEST (R59): Async Event Request is held for a later asynchronous event such as ANA change. -/
  | asyncEventRequest (q : Nat) (c : NvmeCmd)
  /-- H2C_DATA (R160): An H2CData PDU is placed in its range or handled as a violation or stale TTAG. -/
  | h2cData (q : Nat) (ttag : Nat) (off : Nat) (d : Bytes) (last : Bool) (dgst : Option (Nat × Nat)) (hdgst : Option (Nat × Nat) := none)
  /-- RDMA_READ_RESPONSE (R141): Data of an RDMA READ of host memory arrives for a write. -/
  | rdmaReadResponse (q : Nat) (cid : Nat) (off : Nat) (d : Bytes) (err : Option Nat)
  /-- ROCE_PACKET_OUT_OF_WINDOW (R164): A RoCEv2 packet outside the PSN window is dropped with a NAK when ahead. -/
  | rocePacketOutOfWindow (q : Nat) (psn : Nat)
  /-- ANNEX_DOORBELL (R164): An Annex doorbell write starts queue fetch, or is ignored from an unbound PASID. -/
  | annexDoorbell (q : Nat) (pasid : Fin 1048576) (off : Nat) (tail : Nat)
  /-- ANNEX_QUEUE_CREATE (R176): An Annex queue is created and bound to its PASID's slice. -/
  | annexQueueCreate (q : Nat) (pasid : Fin 1048576) (qid : Nat) (size : Nat)
  /-- ANNEX_QUEUE_DELETE (R176): An Annex queue is deleted and its binding ends. -/
  | annexQueueDelete (q : Nat)
  /-- KEEP_ALIVE_TIMEOUT (R161): An expired keep-alive ends the controller; stamped commands are carried through. -/
  | keepAliveTimeout (cntlid : Nat)
  /-- CONNECTION_END (R161): A connection that ends posts no further completion; stamped commands complete durably. -/
  | connectionEnd (q : Nat)
  /-- VCNT_CLEAR (R166): NVT.VCNT_SEL CLR clears the selected violation counter. -/
  | vcntClear
  /-- TCP_RETRANSMIT (R319): Retransmission of released data rereads the grain, ending the connection if that fails. -/
  | tcpRetransmit (q : Nat) (cid : Nat) (off : Nat)
  /-- HOST_DATA_ACK (R319): A host acknowledgement releases transmitted data from read staging. -/
  | hostDataAck (q : Nat) (cid : Nat) (upto : Nat)
  /-- CREATE (R180): SLM CREATE takes an index and all resources for a new ACTIVE slice, or none. -/
  | createCmd
  /-- RESHAPE (R182): SLM RESHAPE changes a slice's resources and Bridle fields. -/
  | reshape (h : Fin 1048576)
  /-- QUIESCE (R183): QUIESCE takes an ACTIVE slice to QUIESCING. -/
  | quiesce (h : Fin 1048576)
  /-- RESUME (R183): RESUME returns a QUIESCED or FROZEN slice to ACTIVE. -/
  | resumeCmd (h : Fin 1048576)
  /-- RESET (R186): RESET ends every controller and connection of a QUIESCED slice on both heads. -/
  | resetCmd (h : Fin 1048576)
  /-- REMOVE (R187): REMOVE returns a slice's resources, ends metering and frees its index. -/
  | removeCmd (h : Fin 1048576)
  /-- FREEZE (R208): FREEZE takes a QUIESCED slice to FROZEN and closes its meter minute early. -/
  | freeze (h : Fin 1048576)
  /-- SAVE (R199): SAVE writes the GCM-sealed slice state blob. -/
  | saveCmd (h : Fin 1048576)
  /-- RESTORE (R200): RESTORE checks a blob and creates a FROZEN slice from it. -/
  | restoreCmd
  /-- WGL_START (R198): WGL_START turns a slice's written-grain log on. -/
  | wglStart (h : Fin 1048576)
  /-- WGL_STOP (R183): WGL_STOP turns a slice's written-grain log off. -/
  | wglStop (h : Fin 1048576)
  /-- QUIESCE_COMPLETE (R184): When the slice's in-flight count reaches 0 on both heads, it enters QUIESCED. -/
  | quiesceComplete (i : Fin 4096)
  /-- RESET_COMPLETE (R186): When every queue pair of the slice has closed on both heads, RESET returns it to QUIESCED. -/
  | resetComplete (i : Fin 4096) (partner : Bool := true)
  /-- BRIDLE_EPOCH (R189): Every 100 µs Bridle grants floor, weighted and redistributed tokens and admits waiting commands. -/
  | bridleEpoch
  /-- PARTNER_1MS_EXCHANGE (R193): Every 1 ms a PAIRED head sends DEMAND and METER_CNT to the partner. -/
  | partner1msExchange
  /-- DEMAND (R193): A received DEMAND sets each slice's floor and ceiling share for the next 1 ms. -/
  | demand (c : CHdr) (es : List (Nat × Nat × Nat))
  /-- METER_CNT (R204): A received METER_CNT updates the partner's counters of the open minute. -/
  | meterCnt (c : CHdr) (final : Bool) (es : List (Nat × Bytes))
  /-- METER_REC (R206): A received meter record is held and acknowledged. -/
  | meterRec (c : CHdr) (n : Nat) (b : Bytes)
  /-- METER_ACK (R206): A METER_ACK records that the partner holds a meter record. -/
  | meterAck (c : CHdr) (seq : Nat)
  /-- INFLIGHT (R184): An INFLIGHT message reports a slice's in-flight count on the partner. -/
  | inflight (c : CHdr) (h : Fin 1048576) (n : Nat)
  /-- MINUTE_CLOSE (R204): At each minute boundary the lead closes each slice's meter record with both heads' counters. -/
  | minuteClose
  /-- METER_PUBLISH (R206): A record durable in two copies and received by the partner is published in the meter ring. -/
  | meterPublish (seq : Nat)
  /-- HOURLY_SEAL (R207): After each whole UTC hour the lead writes a signed seal into the meter chain. -/
  | hourlySeal
  /-- ATTRIBUTION_SWEEP (R203): Every SWEEP_CFG hours MPE walks each slice's maps and sets ATTR and SNAP exactly. -/
  | attributionSweep
  /-- FINGERPRINT (R220): A DGE core finishes a grain's HMAC fingerprint and the bucket lookup proceeds. -/
  | fingerprint (op : Nat) (g : Nat)
  /-- TRAILER_FETCH_DONE (R226): A trailer fetch completes or fails and confirmation continues. -/
  | trailerFetchDone (op : Nat) (g : Nat) (fp : Option Bytes)
  /-- COMPRESS_DONE (R232): CMP finishes a frame and the grain is stored compressed or raw. -/
  | compressDone (op : Nat) (g : Nat) (blk : Bytes)
  /-- GRAIN_ENCRYPT_DONE (R235): CPH finishes sealing a grain and SGB places it in an open segment. -/
  | grainEncryptDone (op : Nat) (g : Nat)
  /-- SEGMENT_SEAL (R238): SGB seals an open segment when full or when its oldest grain has waited 1 ms, or 20 µs in SOLO. -/
  | segmentSeal (seg : Fin 33554432)
  /-- SEGMENT_DURABLE (R344): When every present unit is durable, the owner leaves OPEN and clears the dirty-region bit. -/
  | segmentDurable (seg : Fin 33554432)
  /-- HIT_EXPIRY (R268): A hit whose group is not stamped within 1 ms of the bucket read repeats its lookup. -/
  | hitExpiry (op : Nat)
  /-- PIN_RECORD (R270): Within 1 ms of REF reaching the threshold, the owner issues a pin record. -/
  | pinRecord (cid : Fin 274877906944)
  /-- CT_FREE_ISSUE (R271): The owner issues CT_FREE once REF is 0 and the timing conditions at both heads hold. -/
  | ctFreeIssue (cid : Fin 274877906944)
  /-- SNAP_CREATE (R277): SNAP_CREATE issues an EPOCH record and stores the root in the snapshot slot. -/
  | snapCreate (ns : Fin 65536)
  /-- SNAP_DELETE (R277): SNAP_DELETE issues a MAP_PAGE record clearing the snapshot slot. -/
  | snapDelete (ns : Fin 65536)
  /-- PAGE_REQ (R258): A PAGE_REQ asks the partner for a map page, which it answers from its replica. -/
  | pageReq (h : CHdr) (ns : Fin 65536) (pix : Fin 281474976710656)
  /-- PAGE_RSP (R258): A PAGE_RSP replaces the head's failed copy of a map page. -/
  | pageRsp (h : CHdr) (ns : Fin 65536) (pix : Fin 281474976710656) (status : Fin 256) (ents : List (Nat × Nat))
  /-- CHECKPOINT_START (R289): A checkpoint starts every PERIOD seconds, when journal use passes JRN_PCT or a tile lacks copies. -/
  | checkpointStart
  /-- CHECKPOINT_COMPLETE (R286): With every chunk durable and the horizon past C, the CHECKPOINT record is written and journal segments released. -/
  | checkpointComplete (ok : Bool)
  /-- MPC_INVALIDATE (R294): MPC.CMD INVALIDATE empties MPC while OFF and clears PRELOADED and LOCK. -/
  | mpcInvalidate
  /-- MPC_INVALIDATE_DONE (R294): An MPC INVALIDATE completes and sets INV_DONE. -/
  | mpcInvalidateDone
  /-- MPC_PRELOAD (R295): MPC.CMD PRELOAD loads a range into one way while ON. -/
  | mpcPreload (way : Fin 16)
  /-- MPC_PRELOAD_DONE (R295): An MPC preload completes and sets the way's PRELOADED bit. -/
  | mpcPreloadDone
  /-- MPC_ENABLE (R294): A write of MPC.CACHE.EN = 1 turns MPC ON only after an INVALIDATE. -/
  | mpcEnable
  /-- MPC_DISABLE (R296): A write of MPC.CACHE.EN = 0 while ON starts DRAINING. -/
  | mpcDisable
  /-- MPC_DRAIN_COMPLETE (R296): When dirty lines are written back, MPC enters OFF and reports DRAIN_COUNT. -/
  | mpcDrainComplete
  /-- MPC_LOCK_WRITE (R295): A write to MPC.LOCK locks only preloaded ways. -/
  | mpcLockWrite (v : BitVec 12)
  /-- MPC_HOT_WINDOW (R293): At the end of each 1 ms window, eviction counts are reset; hot sets are logged. -/
  | mpcHotWindow
  /-- STAGING_BUFFER_FREE (R307): A freed staging buffer lets held codewords proceed and returns Jonan credits. -/
  | stagingBufferFree
  /-- CREATE_POOL (R373): SGB.LAY_CMD CREATE_POOL builds a balanced base and installs a new pool's descriptor. -/
  | createPool (pool : Fin 4) (peer : BitVec 64)
  /-- LAYOUT_RESHAPE (R370): SGB.LAY_CMD RESHAPE builds a new base and moves the previous one to BASE_OLD. -/
  | layoutReshape (pool : Fin 4) (peer : BitVec 64)
  /-- RETIRE (R360): SGB.LAY_CMD RETIRE appends a module to RETIRED and starts its rebuild. -/
  | retire (pool : Fin 4) (module : Fin 64)
  /-- RETIRE_GRACE_EXPIRY (R360): A module absent for GRACE seconds, or reporting FATAL, is retired by the lead. -/
  | retireGraceExpiry (module : Fin 64) (peerAbsent : Bool)
  /-- RESHAPE_COMPLETE (R372): When the last BASE_OLD segment is FREE, BASE_OLD is cleared and departing modules leave. -/
  | reshapeComplete (pool : Fin 4)
  /-- SEGMENT_OPEN (R343): The owner opens a segment with a SEG_STATE and DIRTY_REGION group ahead of need. -/
  | segmentOpen (seg : Fin 33554432) (pool : Fin 4) (row : Fin 4096) (away : BitVec 64 := 0)
  /-- UNIT_REBUILD (R362): RBE rebuilds a missing unit stripe by stripe and programs it at its home. -/
  | unitRebuild (seg : Fin 33554432) (unit : Fin 18) (got : List (Nat × Bytes))
  /-- REBUILT_ADVANCE (R363): When every segment of a retirement entry is rebuilt, the lead advances REBUILT. -/
  | rebuiltAdvance (pool : Fin 4)
  /-- LOST_GRAIN_WALK (R366): MPE walks the pool's leaf pages and logs an LBA entry for each that names the lost CID. -/
  | lostGrainWalk
  /-- FOLD_START (R395): The owner opens a QLC segment for a fold quad and each home folds its unit. -/
  | foldStart (q0 : Fin 33554432) (q1 : Fin 33554432) (q2 : Fin 33554432) (q3 : Fin 33554432) (new : Fin 33554432) (got : List (Nat × Bytes))
  /-- FOLD_UNITS_DURABLE (R395): When every folded unit is durable, the owner marks the QLC segment QLC and the sources SUPERSEDED and moves their grains. -/
  | foldUnitsDurable (seg : Fin 33554432)
  /-- FOLD_RETIRE_SOURCE (R395): A SUPERSEDED segment with no live grain is retired. -/
  | foldRetireSource (seg : Fin 33554432)
  /-- GC_START (R400): The owner takes low-VALID segments into DRAINING when free blocks run low. -/
  | gcStart (seg : Fin 33554432) (recs : List Placed)
  /-- GC_RELOCATE_COMMIT (R401): When a destination segment is SEALED, CT_LOC records move its grains, and drained sources retire. -/
  | gcRelocateCommit (seg : Fin 33554432)
  /-- BLOCK_ERASE_ISSUE (R404): The die owner erases a block once its units are retired or moved and every horizon has passed. -/
  | blockEraseIssue (m : Fin 64) (die : Fin 64) (block : Fin 8192)
  /-- PAGE_MOVE (R405): FMM copies a unit to another block of the same module for failure, refresh, reclaim or wear. -/
  | pageMove (m : Fin 64) (seg : Fin 33554432) (got : List (Nat × Bytes))
  /-- PATROL_READ (R410): The die owner reads each valid page once per patrol period with full escalation. -/
  | patrolRead (m : Fin 64) (seg : Fin 33554432) (tile : Fin 4) (plane : Fin 4) (ok : Bool)
  /-- DIE_RECORD_WRITE (R389): The owner writes the die record hourly, at HANDOVER and before release. -/
  | dieRecordWrite (m : Fin 64) (die : Fin 64)
  /-- SIGNAL_DETECT (R427): Signal on a lane moves a position to DETECT and, when enabled, to TRAIN. -/
  | signalDetect (sel : LinkSel)
  /-- TRAIN_RATE_TIMEOUT (R423): No lane aligned within 200 ms at a rate retries at the next lower rate or goes DOWN. -/
  | trainRateTimeout (sel : LinkSel)
  /-- LANE_TRAINED (R423): A lane trains and the link moves to ALIGN. -/
  | laneTrained (sel : LinkSel) (lane : Fin 32)
  /-- ALIGN_LOCK (R427): ALIGN flits lock and lanes deskew; the link enters NEGOTIATE. -/
  | alignLock (sel : LinkSel) (lanes : BitVec 32) (bad : BitVec 32)
  /-- TRAIN_SEND_TICK (R429): In NEGOTIATE each end sends a TRAIN frame every 10 µs. -/
  | trainSendTick (sel : LinkSel)
  /-- TRAIN (R429): A received TRAIN frame sets version and credits and takes the link ACTIVE. -/
  | train (sel : LinkSel) (vers : Nat) (role : Nat) (port : Nat) (lanes : Nat) (rxcred : Nat)
  /-- RETRAIN_ENTRY (R427): Too many replays or loss of alignment or a lane takes the link to RETRAIN, keeping sequence state. -/
  | retrainEntry (sel : LinkSel) (loss : Fin 3)
  /-- RETRAIN_TIMEOUT (R427): A link not realigned within RETRAIN_MS goes DOWN. -/
  | retrainTimeout (sel : LinkSel)
  /-- SIGNAL_LOST (R427): Signal lost on both lanes for 1 ms takes the link DOWN. -/
  | signalLost (sel : LinkSel)
  /-- JONAN_NAK (R436): A NAK makes the sender replay every frame after its ACK. -/
  | jonanNak (sel : LinkSel) (h : JHdr) (code : Fin 256)
  /-- JONAN_IDLE (R437): An IDLE frame delivers ACK and credit returns. -/
  | jonanIdle (sel : LinkSel) (h : JHdr)
  /-- JONAN_ACK_TIMER (R437): An end with no frame to send sends IDLE within 1 µs of receiving a frame. -/
  | jonanAckTimer (sel : LinkSel)
  /-- EVENT (R431): A Jonan EVENT frame reports a module event and is answered only by ACK. -/
  | eventCmd (pos : Fin 64) (h : JHdr) (code : Fin 256) (die : Fin 256)
  /-- JONAN_READ (R439): A READ request returns the named codewords of a page. -/
  | jonanRead (m : Fin 64) (port : Fin 2) (h : JHdr) (tag : Fin 4096) (tgen : Fin 16) (die : Fin 4096) (addr : BitVec 64)
  /-- JONAN_PROGRAM (R443): PROGRAM requests carry the pages of a wordline, programmed once all have arrived. -/
  | jonanProgram (m : Fin 64) (port : Fin 2) (h : JHdr) (tag : Fin 4096) (tgen : Fin 16) (die : Fin 4096) (addr : BitVec 64) (page : Bytes)
  /-- JONAN_ERASE (R446): An ERASE request erases a block when the port owns the die at its start. -/
  | jonanErase (m : Fin 64) (port : Fin 2) (h : JHdr) (tag : Fin 4096) (tgen : Fin 16) (die : Fin 4096) (addr : BitVec 64)
  /-- JONAN_STATUS (R439): A STATUS request returns die or module status. -/
  | jonanStatus (m : Fin 64) (port : Fin 2) (h : JHdr) (tag : Fin 4096) (tgen : Fin 16) (die : Fin 4096)
  /-- PARAM (R439): A PARAM request returns a parameter page. -/
  | paramCmd (m : Fin 64) (port : Fin 2) (h : JHdr) (tag : Fin 4096) (tgen : Fin 16) (die : Fin 4096) (page : BitVec 32)
  /-- CLAIM (R447): A CLAIM sets owner and CGEN of the named dies, or is refused STALE_CLAIM for all. -/
  | claim (m : Fin 64) (port : Fin 2) (h : JHdr) (tag : Fin 4096) (tgen : Fin 16) (gen : BitVec 32) (mask : BitVec 64)
  /-- CLAIM_RELEASE (R447): A CLAIM with the release flag sets the owner of the named dies to none. -/
  | claimRelease (m : Fin 64) (port : Fin 2) (h : JHdr) (tag : Fin 4096) (tgen : Fin 16) (gen : BitVec 32) (mask : BitVec 64)
  /-- WITNESS_WRITE (R450): A WITNESS write atomically replaces the port's witness register and restarts its AGE. -/
  | witnessWrite (m : Fin 64) (port : Fin 2) (h : JHdr) (tag : Fin 4096) (tgen : Fin 16) (data : Bytes)
  /-- WITNESS_READ (R450): A WITNESS read returns both witness registers. -/
  | witnessRead (m : Fin 64) (port : Fin 2) (h : JHdr) (tag : Fin 4096) (tgen : Fin 16)
  /-- BRIDGE_OP_START (R446): When a program or erase would start, the bridge checks ownership and answers OWNER if lost. -/
  | bridgeOpStart (m : Fin 64) (port : Fin 2) (tag : Fin 4096)
  /-- CLAIM_ANSWER (R448): The bridge answers an accepted claim once started operations on the dies have finished. -/
  | claimAnswer (m : Fin 64)
  /-- JONAN_RSP (R440): A response completes its request, or is discarded as stale. -/
  | jonanRsp (pos : Fin 64) (h : JHdr) (tag : Fin 4096) (tgen : Fin 16) (status : Fin 256) (info : Nat) (payload : Bytes) (cws : List CwDec)
  /-- REQUEST_TIMEOUT (R441): A request without response within TIMEOUT_MS fails and its tag generation advances. -/
  | requestTimeout (pos : Fin 64) (tag : Fin 4096)
  /-- JLK_CLAIM (R449): JLK.CLAIM_CMD CLAIM sends CLAIM to the selected positions with JLK.CLAIM_GEN. -/
  | jlkClaim (inst : Fin 4) (mask : BitVec 16)
  /-- JLK_RELEASE (R447): JLK.CLAIM_CMD RELEASE sends a release CLAIM to the selected positions. -/
  | jlkRelease (inst : Fin 4) (mask : BitVec 16)
  /-- WITNESS_TICK (R451): Every PERIOD_MS JLK writes its witness and reads the partner's on each ACTIVE position. -/
  | witnessTick (inst : Fin 4)
  /-- STATUS_POLL (R432): Below Jonan 2.1, JLK polls module STATUS every POLL_MS. -/
  | statusPoll (pos : Fin 64)
  /-- HELLO_SEND_TICK (R461): In NEGOTIATE each Carid end sends HELLO every 10 µs. -/
  | helloSendTick
  /-- HELLO (R462): A received HELLO is checked and sets the Carid version and keys, or takes the link DOWN. -/
  | hello (h : Hello)
  /-- CARID_RETRAIN (R460): Carid enters RETRAIN for a width change or rekey below 3.2. -/
  | caridRetrain (rekey : Bool)
  /-- CARID_NAK (R469): A Carid NAK makes the sender replay from its ACK. -/
  | caridNak (h : CHdr) (code : Fin 256)
  /-- CARID_IDLE (R469): A Carid IDLE frame delivers ACK and credits. -/
  | caridIdle (h : CHdr)
  /-- REKEY_TIMER (R472): Before counters reach 2^32 or REKEY_H hours, an end rekeys. -/
  | rekeyTimer
  /-- REKEY (R472): A REKEY message derives new link keys from a new nonce at a given XSEQ. -/
  | rekey (h : CHdr) (nonce : Bytes) (xseq : Nat)
  /-- GRAIN (R475): A MIRROR GRAIN frame writes grains into the Sideboard, answered by RCPT. -/
  | grain (h : CHdr) (mtok : Nat) (gcnt : Nat) (gs : List MGrain)
  /-- RCPT (R245): A receipt records that the partner holds a command's grains. -/
  | rcpt (h : CHdr) (es : List (Nat × Bool))
  /-- BIND (R476): A BIND records a command's group OSTAMP against its Sideboard grains. -/
  | bind (h : CHdr) (mtok : Nat) (ostamp : Nat)
  /-- BIND_ACK (R245): A BIND_ACK records that the partner holds the binding. -/
  | bindAck (h : CHdr) (mtok : Nat)
  /-- FREE (R476): A MIRROR FREE releases Sideboard slots. -/
  | freeCmd (h : CHdr) (slots : List Nat)
  /-- CANCEL (R476): A MIRROR CANCEL releases the slots of a failed command. -/
  | cancelCmd (h : CHdr) (mtok : Nat)
  /-- RECS (R478): A RECS frame delivers one lane's journal records to the partner's delta buffer. -/
  | recs (h : CHdr) (lane : Fin 32) (rs : List JRec)
  /-- HORIZON (R132): A HORIZON frame advances idle lanes' horizons. -/
  | horizon (h : CHdr) (ls : List (Nat × Nat))
  /-- LACK_TICK (R479): Every LACK_US µs each head sends LACK. -/
  | lackTick
  /-- LACK (R479): A LACK reports the partner's applied and durable horizons and page-table sequence. -/
  | lack (h : CHdr) (physAt : Nat) (ptSeq : Nat) (applied : List Nat) (durable : List Nat)
  /-- PT (R480): A PT frame applies page-table changes in PTSEQ order. -/
  | pt (h : CHdr) (seq : Nat) (es : List (Nat × Nat))
  /-- HFC_HINT (R481): An HFC_HINT writes fingerprints into the hot-fingerprint cache. -/
  | hfcHint (h : CHdr) (es : List HfcEnt)
  /-- HEARTBEAT_TICK (R487): Every HB_US µs while ACTIVE, a head sends HEARTBEAT. -/
  | heartbeatTick
  /-- HEARTBEAT (R487): A valid HEARTBEAT records partner liveness and mode. -/
  | heartbeat (h : CHdr) (seq : Nat) (_estamp : Nat) (mode : Nat) (flags : Nat) (gen : Nat)
  /-- SPLIT_YIELD (R488): With Carid down but partner witness changing for SPLIT_MS, the weaker head yields with a class F fault. -/
  | splitYield
  /-- FORWARD_CMD (R482): A forwarded CMD is carried out by the owner without checks or tokens. -/
  | forwardCmd (h : CHdr) (tok : Nat) (slice : Nat) (f : FwdCmd) (data : Bytes)
  /-- WDATA (R482): WDATA delivers write data of a forwarded command. -/
  | wdata (h : CHdr) (tok : Nat) (off : Nat) (data : Bytes)
  /-- RDATA (R483): RDATA delivers a verified grain into read staging of the receiving head. -/
  | rdata (h : CHdr) (tok : Nat) (off : Nat) (tag : Nat) (data : Bytes)
  /-- DONE (R483): DONE gives a forwarded command's status and OSTAMP for commit wait. -/
  | done (h : CHdr) (tok : Nat) (sct : Nat) (sc : Nat) (dnr : Bool) (ostamp : Nat)
  /-- FORWARD_ABORT (R484): A FORWARD ABORT cancels a forwarded command only before data transfer. -/
  | forwardAbort (h : CHdr) (tok : Nat)
  /-- MOVE_PROPOSE (R490): A move proposal is answered with the agreed move OSTAMP. -/
  | movePropose (h : CHdr) (g : Fin 65536) (p : Nat)
  /-- MOVE_AGREE (R490): A move agreement fixes the move OSTAMP at both heads. -/
  | moveAgree (h : CHdr) (g : Fin 65536) (o : Nat)
  /-- MOVE_COMPLETE (R119): When its groups below the move OSTAMP complete at both heads, the old owner sends MOVE_DONE. -/
  | moveComplete (g : Fin 65536)
  /-- MOVE_DONE (R490): A MOVE_DONE lets the new owner admit writes to the group. -/
  | moveDone (h : CHdr) (g : Fin 65536) (o : Nat)
  /-- JOIN_REQ (R493): The serving head checks a JOIN_REQ and starts the join phases or refuses. -/
  | joinReq (h : CHdr) (limit : Nat) (ctBits : Nat) (minor : Nat) (gib : Nat)
  /-- JOIN_RSP (R493): A JOIN_RSP gives the joiner the cut or the refusal reason. -/
  | joinRsp (h : CHdr) (reason : Nat) (cut : Nat) (found : Found)
  /-- JOIN_VERSION_WAIT_END (R465): After ACVER is lowered, the join proceeds once a checkpoint above the last incompatible record completes. -/
  | joinVersionWaitEnd
  /-- JOIN_SWITCH (R494): Once pre-mirror writes are stamped, the server proposes the switch OSTAMP. -/
  | joinSwitch
  /-- RELEASE_REQ (R449): The server finishes work on the joiner's dies, writes die records and releases them. -/
  | releaseReq (h : CHdr) (_head : Fin 2)
  /-- RELEASED (R449): The joiner claims its released dies with the array claim generation + 1. -/
  | released (h : CHdr) (gen : Nat)
  /-- RING (R493): RING messages copy meter ring entries to the joiner. -/
  | ringCmd (h : CHdr) (es : List Bytes)
  /-- JOIN_DONE (R71): With lock, replica and Sideboard current, both heads enter PAIRED. -/
  | joinDone (peer : Bool) (info : PeerInfo := {})
  /-- HO_REQ (R72): HO_REQ asks the partner to take the leaving head's groups. -/
  | hoReq (h : CHdr)
  /-- HO_ACK (R72): HO_ACK lets the partner report the groups optimized. -/
  | hoAck (h : CHdr)
  /-- CLAIMGEN (R449): CLAIMGEN shares the array claim generation before a claim. -/
  | claimgen (h : CHdr) (gen : Nat)
  /-- START (R505): RPL.CMD START opens an outbound replication session. -/
  | startCmd (ix : Fin 1024)
  /-- RPL_CANCEL (R525): RPL.CMD CANCEL ends a session with ABORT CANCELLED. -/
  | rplCancel (ix : Fin 1024)
  /-- SEAL_ACK (R523): RPL.CMD SEAL_ACK lets the target answer SEAL and close the binding. -/
  | sealAck (ix : Fin 1024)
  /-- RPL_SEAL (R526): RPL.CMD SEAL lets a MIGRATE session send SEAL. -/
  | rplSeal (ix : Fin 1024)
  /-- RSP_CONNECT_ACCEPT (R506): An inbound TCP connection on the RSP port is accepted or reset. -/
  | rspConnectAccept (lport : Fin 64) (out : Option (Fin 64)) (port : Fin 65536 := 7447)
  /-- RSP_HELLO (R508): An RSP HELLO negotiates the version and keys. -/
  | rspHello (ix : Fin 64) (h : RHdr) (vers : Fin 256) (role : Fin 256) (array : BitVec 128) (nonce : Bytes)
  /-- SESSION (R514): A SESSION record is checked by the target and opens the binding. -/
  | session (ix : Fin 64) (h : RHdr) (b : RSession)
  /-- OFFER (R518): The target looks up offered fingerprints and answers WANT. -/
  | offer (ix : Fin 64) (h : RHdr) (batch : Fin 4294967296) (fps : List Bytes)
  /-- WANT (R521): A WANT makes the source send wanted grains or frees a finalised batch. -/
  | want (ix : Fin 64) (h : RHdr) (batch : Fin 4294967296) (final : Bool) (bits : List Bool)
  /-- RSP_GRAIN (R520): The target verifies each received grain and writes it. -/
  | rspGrain (ix : Fin 64) (h : RHdr) (batch : Fin 4294967296) (gs : List RGrain)
  /-- EXTENT (R521): An EXTENT is held until its offer indices are resolved. -/
  | extent (ix : Fin 64) (h : RHdr) (batch : Fin 4294967296) (run : Option Nat) (start : Fin 274877906944) (vals : List Nat)
  /-- RSP_SEAL (R523): SEAL makes the target create a snapshot and await SEAL_ACK. -/
  | rspSeal (ix : Fin 64) (h : RHdr) (sid : Nat) (new_ : Nat) (tepoch : Nat) (batches : Nat) (grains : Nat)
  /-- RSP_ABORT (R525): An ABORT ends the session and restores the target's live root. -/
  | rspAbort (ix : Fin 64) (h : RHdr) (code : Fin 65536)
  /-- RSP_IDLE_TIMEOUT (R525): No record for IDLE_S seconds ends the session as TIMEOUT. -/
  | rspIdleTimeout (ix : Fin 64)
  /-- RSP_CONNECTION_LOSS (R525): Loss of the TCP connection ends the session as TIMEOUT. -/
  | rspConnectionLoss (ix : Fin 64)
  /-- DIFF_WALK_BATCH (R516): The source walks the diff and sends the next batch while its window allows. -/
  | diffWalkBatch (ix : Fin 64) (trailers : List (Nat × Bytes)) (extra : List Nat)
  /-- DGE_FWQ_POST (R546): Advancing DGE.FWQ_WR posts firmware descriptors to DGE. -/
  | dgeFwqPost (ix : Fin 65536)
  /-- CPH_FWQ_POST (R546): Advancing CPH.FWQ_WR posts firmware descriptors to CPH. -/
  | cphFwqPost (ix : Fin 65536)
  /-- SHA256 (R530): A SHA256 descriptor computes a digest. -/
  | sha256
  /-- HMAC (R530): An HMAC descriptor computes a keyed digest. -/
  | hmac
  /-- COMPARE_DIGEST (R535): A COMPARE descriptor compares two 32-byte values in constant time. -/
  | compareDigest
  /-- XTS_ENC (R543): An XTS_ENC descriptor encrypts one data unit. -/
  | xtsEnc
  /-- XTS_DEC (R543): An XTS_DEC descriptor decrypts one data unit. -/
  | xtsDec
  /-- GCM_ENC (R545): A GCM_ENC descriptor encrypts and tags, within the slot's invocation limit. -/
  | gcmEnc
  /-- GCM_DEC (R544): A GCM_DEC descriptor decrypts and verifies, zeroing output on failure. -/
  | gcmDec
  /-- DIGEST_COMPLETE (R531): A DGE core finishes a message and writes its digest and status. -/
  | digestComplete (r : Nat)
  /-- CIPHER_COMPLETE (R540): A CPH core finishes a request and writes its output and status. -/
  | cipherComplete (r : Nat)
  /-- CHAIN_TIMEOUT (R534): A chain whose next descriptor is not posted within CHAIN_US fails with TIMEOUT. -/
  | chainTimeout (r : Nat)
  /-- CPH_REQUEST_AGED (R541): A request waiting longer than AGE_US is dispatched as class 0. -/
  | cphRequestAged (r : Nat)
  /-- IMPORT (R550): SEC IMPORT loads a clear key into a slot and returns blobs. -/
  | importCmd (eng : Fin 2) (slot : Fin 8192)
  /-- GENERATE (R550): SEC GENERATE creates a random key in a slot and returns blobs. -/
  | generate (eng : Fin 2) (slot : Fin 8192)
  /-- LOAD (R550): SEC LOAD unwraps a blob into an empty slot. -/
  | loadCmd (eng : Fin 2) (slot : Fin 8192)
  /-- ERASE (R552): SEC ERASE marks a slot EMPTY and waits for dispatched requests. -/
  | erase (eng : Fin 2) (slot : Fin 8192)
  /-- KEY_ERASE_DONE (R552): After dispatched requests finish, the key is cleared and ERASE completes. -/
  | keyEraseDone
  /-- QUOTE (R567): SIGN_CMD QUOTE builds and signs a quote body, rate-limited per hour. -/
  | quote
  /-- PUBKEY (R568): SIGN_CMD PUBKEY writes the identity public key. -/
  | pubkey
  /-- MEAS_EXTEND (R568): SIGN_CMD MEAS_EXTEND extends a measurement register. -/
  | measExtend (mreg : Fin 4)
  /-- GEN_IDENTITY (R561): SIGN_CMD GEN_IDENTITY creates the identity seeds in SERVICE mode. -/
  | genIdentity
  /-- SIGNATURE_RELEASE (R565): SEC self-checks a finished signature and releases it or retries. -/
  | signatureRelease (ok : Bool)
  /-- NODE_TABLES_READY (R564): SEC finishes the Merkle node tables and sets READY. -/
  | nodeTablesReady
  /-- NEXT_TREE_BUILD (R564): At half use of a bottom tree, SEC builds the next in the background. -/
  | nextTreeBuild
  /-- ALARM (R557): A voltage, clock, temperature, mesh or tamper alarm zeroises every key within 2 µs. -/
  | alarm (src : Fin 5)
  /-- NOISE_SOURCE_FAIL (R555): A failed noise source is fenced; with both failed the DRBG stops. -/
  | noiseSourceFail (n : Fin 2)
  /-- CORE_RUN_WRITE (R575): Setting a CCL.CORE_RUN bit releases that core from reset. -/
  | coreRunWrite (v : BitVec 32)
  /-- STAMP_CSR_READ (R577): A read of CSR 0xCC0 issues an OSTAMP for the core. -/
  | stampCsrRead (core : Fin 24) (hi : Bool) (user : Bool)
  /-- TIMER_COMPARE_MATCH (R578): The counter passing mtimecmp or stimecmp raises the timer interrupt. -/
  | timerCompareMatch (core : Fin 24) (stime : Option (BitVec 64))
  /-- CORE_DATA_ACCESS (R586): A core load or store trains its stride entry and may issue prefetches. -/
  | coreDataAccess (core : Fin 24) (pc : Nat) (addr : Nat) (acc : CoreAcc) (env : WriteEnv)
  /-- CRITICAL_CHUNK (R592): The requested chunk of a privileged miss arrives and its requester restarts. -/
  | criticalChunk (line : Nat)
  /-- L2_LINE_FILL (R591): A line fill completes, freeing its miss register and restarting secondary misses. -/
  | l2LineFill (line : Nat)
  /-- L2_INVALIDATE (R597): CCL.L2_CMD INVALIDATE empties L2 while OFF. -/
  | l2Invalidate
  /-- L2_INVALIDATE_DONE (R597): The L2 invalidate completes and sets INV_DONE. -/
  | l2InvalidateDone
  /-- L2_PRELOAD (R599): CCL.L2_CMD PRELOAD loads a range into one L2 way. -/
  | l2Preload (way : Fin 16)
  /-- L2_PRELOAD_DONE (R599): An L2 preload completes and sets the way's PRELOADED bit. -/
  | l2PreloadDone
  /-- L2_ENABLE (R596): A write of L2_CTL.EN = 1 turns L2 ON only after an INVALIDATE. -/
  | l2Enable
  /-- L2_DISABLE (R598): A write of L2_CTL.EN = 0 while ON starts DRAINING. -/
  | l2Disable
  /-- L2_DRAIN_COMPLETE (R598): When the last dirty line is written back, L2 invalidates and enters OFF. -/
  | l2DrainComplete
  /-- L2_LOCK_WRITE (R600): A write to CCL.L2_LOCK locks only preloaded ways. -/
  | l2LockWrite (v : BitVec 32)
  /-- INTERRUPT_ASSERT (R603): A block line asserts a source, setting MEIP or SEIP or sending MSI-X. -/
  | interruptAssert (src : Fin 128)
  /-- INTERRUPT_CLAIM (R604): A read of LOC_M_CLAIM or LOC_S_CLAIM claims the highest eligible source. -/
  | interruptClaim (core : Fin 24) (sup : Bool) (by_ : Fin 24)
  /-- INTERRUPT_COMPLETE (R604): A write of a claimed source number clears its in-service mark. -/
  | interruptComplete (core : Fin 24) (sup : Bool) (src : Fin 128)
  /-- SOFTWARE_INTERRUPT_WRITE (R608): A write to LOC_MSIP or LOC_SSIP sets or clears a core's software interrupt. -/
  | softwareInterruptWrite (core : Fin 24) (sup : Bool) (v : Bool)
  /-- BOOT_OK (R624): BSV.UPD_CMD BOOT_OK resets the trial's TRIES. -/
  | bootOk
  /-- CONFIRM (R625): BSV.UPD_CMD CONFIRM blows anti-rollback fuses, confirms the trial and purges. -/
  | confirm (badFuse : Option Nat)
  /-- REVERT (R626): BSV.UPD_CMD REVERT makes the next boot fall back. -/
  | revert
  /-- PROBATION_EXPIRY (R621): When the probation window ends, EXPIRED is set and the event interrupt raised. -/
  | probationExpiry
  /-- FL_READ (R613): BSV.FL_CMD READ copies boot flash into the firmware region. -/
  | flRead
  /-- CAB_APPEND (R633): BSV.FL_CMD CAB_APPEND writes and verifies a Cabinet record of the running format. -/
  | cabAppend
  /-- CAB_FIND (R633): BSV.FL_CMD CAB_FIND returns the visible value of a Cabinet key. -/
  | cabFind
  /-- CABINET_COMPACT (R634): With fewer than 32 free sectors, BSV copies live records of the oldest sector and erases it. -/
  | cabinetCompact
  /-- TFTP_WRQ (R630): A TFTP WRQ for image starts staging into the inactive slot. -/
  | tftpWrq (tid : Nat) (name : Bytes) (mode : Bytes) (blk : Option Nat)
  /-- TFTP_RRQ (R629): A TFTP RRQ for status returns the 16-byte status file. -/
  | tftpRrq (tid : Nat) (name : Bytes) (mode : Bytes) (blk : Option Nat)
  /-- TFTP_DATA (R630): A TFTP DATA block is written; the last completes and arms the slot. -/
  | tftpData (tid : Nat) (block : Fin 65536) (data : Bytes)
  /-- TFTP_ACK (R629): A TFTP ACK advances a status read transfer. -/
  | tftpAck (tid : Nat) (block : Fin 65536)
  /-- TFTP_RETRANSMIT (R629): After 1 s without answer BSV retransmits, abandoning after five. -/
  | tftpRetransmit
  /-- ERROR_OCCURRENCE (R643): A source occurrence sets ERR_STAT and takes its class action, fencing any named unit. -/
  | errorOccurrence (page : Fin 64) (src : Fin 32) (unit : Option Nat) (detail : Nat) (hit : Struck)
  /-- ERR_INJ_WRITE (R646): A write to ERR_INJ injects one occurrence while injection is enabled. -/
  | errInjWrite (page : Fin 64) (v : BitVec 32)
  /-- FCL_FAULT_CLEAR (R650): A write of 1 to FCL.FAULT clears a group only while its error line is low. -/
  | fclFaultClear (v : BitVec 64)
  /-- FCL_LOG_RD_WRITE (R651): A write to FCL.LOG_RD sets which log entries are pending. -/
  | fclLogRdWrite (i : Fin 64)
  /-- PIN_HOLD_WRITE (R652): A write to FCL.PIN_HOLD holds or releases FAULT_N. -/
  | pinHoldWrite (v : Bool)
  /-- FAULT_N_PULSE_END (R652): The minimum FAULT_N pulse ends and the pin releases unless held. -/
  | faultNPulseEnd
  /-- EVR_SAMPLE (R655): Each second EVR samples every quantity into the open periods. -/
  | evrSample (temps : List Int) (rails : List Nat)
  /-- EVR_PERIOD_CLOSE (R657): An hourly, daily or monthly period ends and its record is written. -/
  | evrPeriodClose (tier : Fin 3) (ok : Bool)
  /-- EVR_EVENT_PROGRAM (R661): Queued event entries are programmed to flash within 10 ms. -/
  | evrEventProgram (ok : Bool)
  /-- POWER_STATE_ENTRY (R664): An idle unit enters a deeper power state after its idle time. -/
  | powerStateEntry (page : Fin 33) (unit : Fin 256) (idleNs : Nat)
  /-- POWER_STATE_EXIT (R663): A unit leaves its power state after the exit latency and serves the waiting request. -/
  | powerStateExit (page : Fin 33) (unit : Fin 256)
  /-- CTL_EN_WRITE (R675): A write of CTL.EN stops or restarts new work for a block. -/
  | ctlEnWrite (page : Fin 64) (v : Bool)
  /-- BLOCK_STOPPED (R675): With EN 0, STOPPED is set once the block's work is finished. -/
  | blockStopped (page : Fin 64)
  /-- SOFT_RESET (R677): A write of CTL.SOFT_RST resets a stopped block's fields or is refused. -/
  | softReset (page : Fin 64)
  /-- SOFT_RESET_DONE (R677): Within 10 µs the block finishes resetting its internal state. -/
  | softResetDone (page : Fin 64)
  /-- CTL_FENCE_WRITE (R678): Setting CTL.FENCE fences every unit of the block until BOOT. -/
  | ctlFenceWrite (page : Fin 64)
  /-- CTL_LOCK_WRITE (R680): Setting CTL.LOCK applies the written values and locks the page until BOOT. -/
  | ctlLockWrite (page : Fin 64) (v : BitVec 31)
  /-- PRSNT_RISE (R708): PRSNT_N high idles every lane within 1 µs and enters VAULT when serving. -/
  | prsntRise
  /-- PRSNT_FALL (R707): PRSNT_N low starts the 50 ms that lanes wait with rails good. -/
  | prsntFall
  /-- LANE_ENABLE (R707): After 50 ms of PRSNT_N low with rails good, SerDes lanes may train. -/
  | laneEnable
  /-- EJECT_REQ (R709): A debounced EJECT_REQ_N fall starts HANDOVER in PAIRED or is reported to firmware. -/
  | ejectReq
  /-- POWER_DOWN (R693): The rails fall after RESET_N or the hold-up, ending all state except the VBAT-powered RTC and what lies outside the die. -/
  | powerDown
  /-- VBAT_LOSS (R94): VBAT is lost while every other rail is off, stopping the RTC so that it restarts with VALID 0 and RTC_LOST 1. -/
  | vbatLoss
  /-- REFCLK_PCIE_CHANGE (R697): REFCLK_PCIE becomes absent or returns, holding the Annex port in reset or letting it leave reset. -/
  | refclkPcieChange (present : Bool)
  /-- UNSUPPORTED_OPCODE (R147): A host command with an opcode outside Table 4-4, including namespace management, Format NVM, Sanitize and firmware download, is answered with Invalid Command Opcode. -/
  | unsupportedOpcode (q : Nat) (opc : Fin 256) (c : NvmeCmd)
  /-- INVALID_PDU (R164): A PDU before ICReq, a second ICReq, a TLS ClientHello or a PDU with a malformed header ends the NVMe/TCP connection with a C2HTermReq. -/
  | invalidPdu (q : Nat) (lport : Fin 64) (malformed : Bool) (d1 : Nat) (d2 : Nat)
  /-- RDMA_CM_CONNECT (R141): An RDMA CM connection request on UDP port 4791 sets up an RC queue pair, or is refused for UD and UC. -/
  | rdmaCmConnect (q : Nat) (lport : Fin 64) (rc : Bool)
  /-- PRIORITY_FLOW_CONTROL (R140): A received IEEE 802.1Qbb PFC frame on a priority in PFC_MASK pauses or resumes transmission on that priority when PFC_EN is 1. -/
  | priorityFlowControl (lport : Fin 64) (classes : BitVec 8) (pauseMask : BitVec 8)
  /-- SERVICE_PORT_FRAME (R627): A frame on the service port is answered as ARP or ICMP echo at BSV.SVC_IP, or dropped when it is not ARP, ICMP echo or TFTP. -/
  | servicePortFrame (f : SvcFrame)
  /-- NAMESPACE_MANAGEMENT (R716): Through the slice manager, the lead issues an NS record that creates, attaches, changes or deletes a namespace or view, releasing its trees when VALID is cleared. -/
  | namespaceManagement (ns : Fin 65536) (desc : BitVec 128) (viewEpoch : Fin 4294967296)
  /-- OWNERSHIP_MOVE (R119): Firmware requests the move of a single namespace group's ownership, which from Carid 3.3 starts MOVE_PROPOSE, and below 3.3 gets BAD_VERSION. -/
  | ownershipMove (g : Fin 1024)
  /-- DIE_OPERATION_DONE (R443): A program, erase or read ends on a die of a module, and the bridge sends its RSP and lets any waiting CLAIM answer. -/
  | dieOperationDone (m : Fin 64) (port : Fin 2) (tag : Fin 4096) (status : Fin 256) (data : Bytes)
  /-- BOOT_FLASH_PROGRAM_DONE (R615): A boot-flash page program or erase by BSV completes, letting a waiting ceiling write proceed and the next slot or Cabinet write start. -/
  | bootFlashProgramDone (ok : Bool)
  /-- MAP_PAGE_REBUILD_DONE (R258): In SOLO, MPE finishes rebuilding a failed map page from its checkpoint copy and the journal, after which reads of its grains no longer fail. -/
  | mapPageRebuildDone (ns : Fin 65536) (pix : Fin 281474976710656)
  deriving DecidableEq, Repr

end Sys2Proof
end

