-- ==== Sys2Proof/Decode.lean ====
section
/-! DEFINITION. Words of the table of operations: the table gives none of its rows any bits, so no word spells a command. -/
namespace Sys2Proof

/-- The command a word of the table spells. Every row of spec/opcode_table.json has an empty field list: operations and
events are named, not encoded (00_scope.md), so there is none. -/
def decodeTableWord (_nbits _w : Nat) : Option Instr := none

end Sys2Proof
end

