-- ==== Sys2Proof/Machine/Bits.lean ====
section
/-! DEFINITION. Bit fields, byte order, sorted maps, saturating counts and the CRC-32C every vendor structure carries. -/
namespace Sys2Proof.Machine

/-! ## Bit fields (R9) -/

/-- Bits [lo + w - 1 : lo] of n (R9). -/
def fld (n lo w : Nat) : Nat := n / 2 ^ lo % 2 ^ w

/-- n with bits [lo + w - 1 : lo] replaced by v, which is cut to w bits. -/
def setFld (n lo w v : Nat) : Nat := n - fld n lo w * 2 ^ lo + v % 2 ^ w * 2 ^ lo

/-- Bit i of n. -/
def bit (n i : Nat) : Bool := n / 2 ^ i % 2 = 1

/-- n with bit i set or cleared. -/
def setBit (n i : Nat) (b : Bool) : Nat := setFld n i 1 (if b then 1 else 0)

/-- A truth value as a bit. -/
def b2n (b : Bool) : Nat := if b then 1 else 0

/-- Number of ones among the low k bits of n. -/
def popcount (n : Nat) : Nat → Nat
  | 0 => 0
  | k + 1 => popcount n k + n / 2 ^ k % 2

/-- The positions of the ones among the low k bits of n, rising. -/
def onesBelow (n : Nat) : Nat → List Nat
  | 0 => []
  | k + 1 => onesBelow n k ++ (if bit n k then [k] else [])

/-- The lowest position below k whose bit of n is 0, if any. -/
def firstZero (n k : Nat) : Option Nat := (List.range k).find? (fun i => !bit n i)

/-- Addition that stops at the largest value of w bits (a counter marked saturating). -/
def satAdd (w a b : Nat) : Nat := min (a + b) (2 ^ w - 1)

/-- The value of a w-bit two's complement field. -/
def sext (w n : Nat) : Int := if 2 ^ (w - 1) ≤ n % 2 ^ w then (n % 2 ^ w : Nat) - (2 ^ w : Nat) else (n % 2 ^ w : Nat)

/-- An integer as a w-bit two's complement field. -/
def toTwos (w : Nat) (i : Int) : Nat := (i % (2 ^ w : Nat)).toNat

/-- Rounded-up quotient. -/
def cdiv (a b : Nat) : Nat := (a + b - 1) / b

/-- The product of two polynomials over GF(2) is built from exclusive or. -/
def xorBytes : Bytes → Bytes → Bytes
  | a :: s, b :: t => (a ^^^ b) :: xorBytes s t
  | s, [] => s
  | [], t => t

/-! ## Byte order (R10) -/

/-- The k little-endian bytes of n (R10). -/
def le (n : Nat) : Nat → Bytes
  | 0 => []
  | k + 1 => BitVec.ofNat 8 n :: le (n / 256) k

/-- The number whose little-endian bytes these are (R10). -/
def leVal : Bytes → Nat
  | [] => 0
  | b :: t => b.toNat + 256 * leVal t

/-- The k big-endian bytes of n (R11). -/
def be (n k : Nat) : Bytes := (le n k).reverse

/-- The number whose big-endian bytes these are (R11). -/
def beVal (l : Bytes) : Nat := leVal l.reverse

/-- k bytes of a run starting at offset o. -/
def slice (l : Bytes) (o k : Nat) : Bytes := (l.drop o).take k

/-- The little-endian field of k bytes at offset o. -/
def leAt (l : Bytes) (o k : Nat) : Nat := leVal (slice l o k)

/-- k zero bytes. -/
def zeros (k : Nat) : Bytes := List.replicate k 0#8

/-- A run cut or padded with zeros to exactly k bytes. -/
def padTo (k : Nat) (l : Bytes) : Bytes := (l ++ zeros (k - l.length)).take k

/-- The bytes of a text, for the words a format spells out. -/
def ascii (s : String) : Bytes := s.toList.map (fun c => BitVec.ofNat 8 c.toNat)

/-! ## Maps by number -/

/-- The entry of a key. -/
def aget {β : Type} (m : AMap β) (k : Nat) : Option β :=
  match m with
  | [] => none
  | (a, v) :: t => if a = k then some v else aget t k

/-- The entry of a key, or a default. -/
def agetD {β : Type} (m : AMap β) (k : Nat) (d : β) : β := (aget m k).getD d

/-- The map with one entry set. -/
def aset {β : Type} (m : AMap β) (k : Nat) (v : β) : AMap β :=
  match m with
  | [] => [(k, v)]
  | (a, w) :: t => if k < a then (k, v) :: (a, w) :: t else if k = a then (k, v) :: t else (a, w) :: aset t k v

/-- The map without a key. -/
def adel {β : Type} (m : AMap β) (k : Nat) : AMap β := m.filter (fun p => p.1 != k)

/-- The map with one entry changed where it is present. -/
def aupd {β : Type} (m : AMap β) (k : Nat) (f : β → β) : AMap β :=
  m.map (fun p => if p.1 = k then (p.1, f p.2) else p)

/-- The map with every entry changed. -/
def amap {β : Type} (m : AMap β) (f : Nat → β → β) : AMap β := m.map (fun p => (p.1, f p.1 p.2))

/-- The entries that pass a test. -/
def afilter {β : Type} (m : AMap β) (p : Nat → β → Bool) : AMap β := m.filter (fun e => p e.1 e.2)

/-- Whether a key is present. -/
def ahas {β : Type} (m : AMap β) (k : Nat) : Bool := (aget m k).isSome

/-- The lowest key below n that is not present. -/
def afree {β : Type} (m : AMap β) (n : Nat) : Option Nat := (List.range n).find? (fun k => !ahas m k)

/-- A counter kept per key. -/
def abump (m : AMap Nat) (k d : Nat) : AMap Nat := aset m k (agetD m k 0 + d)

/-- Keys strictly rise. -/
def rising : List Nat → Bool
  | a :: b :: t => a < b && rising (b :: t)
  | _ => true

/-! ## Sparse contents with a default: memory, boot flash and the register file -/

/-- The value at a key: the listed one, or what an unlisted key reads as. -/
def sget {β : Type} (d : Nat → β) (m : AMap β) (k : Nat) : β := (aget m k).getD (d k)

/-- Store a value, keeping the keys rising and listing no key at its default. -/
def sput {β : Type} [DecidableEq β] (d : Nat → β) (m : AMap β) (k : Nat) (v : β) : AMap β :=
  match m with
  | [] => if v = d k then [] else [(k, v)]
  | (a, w) :: t =>
    if k < a then (if v = d k then (a, w) :: t else (k, v) :: (a, w) :: t)
    else if k = a then (if v = d k then t else (k, v) :: t)
    else (a, w) :: sput d t k v

/-- The canonical form: keys strictly rise and no entry equals its default. -/
def swf {β : Type} [DecidableEq β] (d : Nat → β) (m : AMap β) : Bool :=
  rising (m.map Prod.fst) && m.all (fun e => decide (e.2 ≠ d e.1))

/-- k values from a key on. -/
def sgets {β : Type} (d : Nat → β) (m : AMap β) (a : Nat) : Nat → List β
  | 0 => []
  | k + 1 => sget d m a :: sgets d m (a + 1) k

/-- A run of values stored from a key on. -/
def sputs {β : Type} [DecidableEq β] (d : Nat → β) (m : AMap β) (a : Nat) : List β → AMap β
  | [] => m
  | v :: t => sputs d (sput d m a v) (a + 1) t

/-! ## Sorting by stamp -/

/-- Insert by rising key. -/
def insKey {β : Type} (key : β → Nat) (x : β) : List β → List β
  | [] => [x]
  | y :: t => if key x < key y then x :: y :: t else y :: insKey key x t

/-- Stable insertion sort by a numeric key. -/
def sortKey {β : Type} (key : β → Nat) : List β → List β
  | [] => []
  | x :: t => insKey key x (sortKey key t)

/-- The largest of a list of numbers, 0 when empty. -/
def maxL : List Nat → Nat
  | [] => 0
  | a :: t => max a (maxL t)

/-- The least of a list of numbers, or a default when empty. -/
def minL (d : Nat) : List Nat → Nat
  | [] => d
  | [a] => a
  | a :: t => min a (minL d t)

/-- The sum of a list of numbers. -/
def sumL : List Nat → Nat
  | [] => 0
  | a :: t => a + sumL t

/-- Entry i of a list, or a default. -/
def nthD {β : Type} (l : List β) (i : Nat) (d : β) : β := (l[i]?).getD d

/-- A list with entry i replaced. -/
def setNth {β : Type} (l : List β) (i : Nat) (v : β) : List β :=
  match l, i with
  | [], _ => []
  | _ :: t, 0 => v :: t
  | x :: t, k + 1 => x :: setNth t k v

/-! ## CRC-32C -/

/-- One bit step of the reflected CRC-32C polynomial 0x82F63B78. -/
def crcBit (c : BitVec 32) : BitVec 32 :=
  if c.getLsbD 0 then (c >>> 1) ^^^ 0x82F63B78#32 else c >>> 1

/-- One byte step of CRC-32C. -/
def crcByte (c : BitVec 32) (b : Byte) : BitVec 32 :=
  let x := c ^^^ b.setWidth 32
  crcBit (crcBit (crcBit (crcBit (crcBit (crcBit (crcBit (crcBit x)))))))

/-- CRC-32C of a run of bytes: initial value and final exclusive or all ones, reflected. -/
def crc32c (l : Bytes) : Nat := ((l.foldl crcByte 0xFFFFFFFF#32) ^^^ 0xFFFFFFFF#32).toNat

/-- A run of bytes followed by its CRC-32C. -/
def withCrc (l : Bytes) : Bytes := l ++ le (crc32c l) 4

/-- Whether the last four bytes of a structure of n bytes hold the CRC-32C of the rest. -/
def crcOk (n : Nat) (l : Bytes) : Bool := crc32c (slice l 0 (n - 4)) == leAt l (n - 4) 4

end Sys2Proof.Machine
end

