-- ==== Sys2Proof/Machine/Sha.lean ====
section
/-! DEFINITION. The digests and checks the device computes: SHA-256 (FIPS 180-4), HMAC and HKDF (RFC 2104, RFC 5869), SipHash-1-3, CRC-64 (NVMe) and CRC-16 T10-DIF. -/
namespace Sys2Proof.Machine

/-! ## SHA-256 -/

/-- Integer cube root by search upward, for the round constants. -/
def icbrt (n : Nat) : Nat → Nat → Nat
  | 0, r => r
  | k + 1, r => if (r + 2 ^ k) ^ 3 ≤ n then icbrt n k (r + 2 ^ k) else icbrt n k r

/-- The first 64 primes. -/
def primes64 : List Nat := [2, 3, 5, 7, 11, 13, 17, 19, 23, 29, 31, 37, 41, 43, 47, 53, 59, 61, 67, 71, 73, 79, 83,
  89, 97, 101, 103, 107, 109, 113, 127, 131, 137, 139, 149, 151, 157, 163, 167, 173, 179, 181, 191, 193, 197, 199,
  211, 223, 227, 229, 233, 239, 241, 251, 257, 263, 269, 271, 277, 281, 283, 293, 307, 311]

/-- SHA-256 round constants: 32 fraction bits of the cube roots of the first 64 primes (FIPS 180-4, 4.2.2). -/
def shaK : List Word := primes64.map (fun p => BitVec.ofNat 32 (icbrt (p * 2 ^ 96) 36 0))

/-- SHA-256 initial hash value (FIPS 180-4, 5.3.3): 32 fraction bits of the square roots of the first 8 primes. -/
def shaInit : List Word := (primes64.take 8).map (fun p => BitVec.ofNat 32 (Nat.sqrt (p * 2 ^ 64)))
where
  /-- Integer square root by search. -/
  Nat.sqrt (n : Nat) : Nat := go n 35 0
  go (n : Nat) : Nat → Nat → Nat
    | 0, r => r
    | k + 1, r => if (r + 2 ^ k) * (r + 2 ^ k) ≤ n then go n k (r + 2 ^ k) else go n k r

/-- The 16 big-endian words of a 64-byte block. -/
def shaWords : Bytes → List Word
  | a :: b :: c :: d :: t => BitVec.ofNat 32 (beVal [a, b, c, d]) :: shaWords t
  | _ => []

/-- The message schedule: each new word from the 16 before it, held latest first (FIPS 180-4, 6.2.2 step 1). -/
def shaExpand : Nat → List Word → List Word
  | 0, w => w
  | k + 1, w =>
    let w2 := nthD w 1 0#32
    let w7 := nthD w 6 0#32
    let w15 := nthD w 14 0#32
    let w16 := nthD w 15 0#32
    let s0 := (w15.rotateRight 7) ^^^ (w15.rotateRight 18) ^^^ (w15 >>> 3)
    let s1 := (w2.rotateRight 17) ^^^ (w2.rotateRight 19) ^^^ (w2 >>> 10)
    shaExpand k ((w16 + s0 + w7 + s1) :: w)

/-- One round (FIPS 180-4, 6.2.2 step 3). -/
def shaRound (h : List Word) (kw : Word × Word) : List Word :=
  match h with
  | [a, b, c, d, e, f, g, hh] =>
    let s1 := (e.rotateRight 6) ^^^ (e.rotateRight 11) ^^^ (e.rotateRight 25)
    let ch := (e &&& f) ^^^ (~~~e &&& g)
    let t1 := hh + s1 + ch + kw.1 + kw.2
    let s0 := (a.rotateRight 2) ^^^ (a.rotateRight 13) ^^^ (a.rotateRight 22)
    let maj := (a &&& b) ^^^ (a &&& c) ^^^ (b &&& c)
    [t1 + s0 + maj, a, b, c, d + t1, e, f, g]
  | _ => h

/-- The compression function on one 64-byte block. -/
def shaBlock (h : List Word) (blk : Bytes) : List Word :=
  let ws := (shaExpand 48 (shaWords blk).reverse).reverse
  ((shaK.zip ws).foldl shaRound h).zipWith (· + ·) h

/-- The blocks of a padded message. -/
def shaBlocks : Nat → List Word → Bytes → List Word
  | 0, h, _ => h
  | k + 1, h, l => shaBlocks k (shaBlock h (l.take 64)) (l.drop 64)

/-- SHA-256 (R530). -/
def sha256 (m : Bytes) : Bytes :=
  let pad := (119 - m.length % 64) % 64
  let l := m ++ [0x80#8] ++ zeros pad ++ be (8 * m.length) 8
  (shaBlocks (l.length / 64) shaInit l).flatMap (fun w => be w.toNat 4)

/-- HMAC-SHA-256 (R530; RFC 2104). -/
def hmac (key m : Bytes) : Bytes :=
  let k := padTo 64 (if 64 < key.length then sha256 key else key)
  sha256 (k.map (· ^^^ 0x5C#8) ++ sha256 (k.map (· ^^^ 0x36#8) ++ m))

/-- HKDF-Expand blocks (RFC 5869, 2.3). -/
def hkdfBlocks (prk info : Bytes) : Nat → Nat → Bytes → Bytes
  | 0, _, _ => []
  | k + 1, i, prev =>
    let t := hmac prk (prev ++ info ++ [BitVec.ofNat 8 i])
    t ++ hkdfBlocks prk info k (i + 1) t

/-- HKDF-Expand (RFC 5869, 2.3). -/
def hkdfExpand (prk info : Bytes) (n : Nat) : Bytes := (hkdfBlocks prk info (cdiv n 32) 1 []).take n

/-- HKDF with SHA-256 (RFC 5869). -/
def hkdf (salt ikm info : Bytes) (n : Nat) : Bytes := hkdfExpand (hmac salt ikm) info n

/-! ## SipHash-1-3 -/

/-- One SipRound on the four lanes. -/
def sipRound (v : List (BitVec 64)) : List (BitVec 64) :=
  match v with
  | [v0, v1, v2, v3] =>
    let v0 := v0 + v1
    let v1 := v1.rotateLeft 13 ^^^ v0
    let v0 := v0.rotateLeft 32
    let v2 := v2 + v3
    let v3 := v3.rotateLeft 16 ^^^ v2
    let v0 := v0 + v3
    let v3 := v3.rotateLeft 21 ^^^ v0
    let v2 := v2 + v1
    let v1 := v1.rotateLeft 17 ^^^ v2
    let v2 := v2.rotateLeft 32
    [v0, v1, v2, v3]
  | _ => v

/-- Mix one 8-byte word in with one round. -/
def sipWord (v : List (BitVec 64)) (m : BitVec 64) : List (BitVec 64) :=
  match v with
  | [v0, v1, v2, v3] =>
    match sipRound [v0, v1, v2, v3 ^^^ m] with
    | [a, b, c, d] => [a ^^^ m, b, c, d]
    | x => x
  | _ => v

/-- The message words, the last one holding the length in its top byte. -/
def sipWords (len : Nat) : Nat → Bytes → List (BitVec 64)
  | 0, l => [BitVec.ofNat 64 (leVal (l.take 7) + (len % 256) * 2 ^ 56)]
  | k + 1, l => BitVec.ofNat 64 (leVal (l.take 8)) :: sipWords len k (l.drop 8)

/-- SipHash-1-3 with a 16-byte key, 64-bit result. -/
def sipHash13 (key m : Bytes) : Nat :=
  let k0 := BitVec.ofNat 64 (leVal (key.take 8))
  let k1 := BitVec.ofNat 64 (leVal (key.drop 8))
  let v := [0x736F6D6570736575#64 ^^^ k0, 0x646F72616E646F6D#64 ^^^ k1,
            0x6C7967656E657261#64 ^^^ k0, 0x7465646279746573#64 ^^^ k1]
  let v := (sipWords m.length (m.length / 8) m).foldl sipWord v
  match v with
  | [v0, v1, v2, v3] =>
    match sipRound (sipRound (sipRound [v0, v1, v2 ^^^ 0xFF#64, v3])) with
    | [a, b, c, d] => (a ^^^ b ^^^ c ^^^ d).toNat
    | _ => 0
  | _ => 0

/-! ## CRC-64 and CRC-16 -/

/-- One bit step of the reflected CRC-64 polynomial of NVMe, 0x9A6C9329AC4BC9B5. -/
def crc64Bit (c : BitVec 64) : BitVec 64 :=
  if c.getLsbD 0 then (c >>> 1) ^^^ 0x9A6C9329AC4BC9B5#64 else c >>> 1

/-- One byte step of CRC-64. -/
def crc64Byte (c : BitVec 64) (b : Byte) : BitVec 64 :=
  let x := c ^^^ b.setWidth 64
  crc64Bit (crc64Bit (crc64Bit (crc64Bit (crc64Bit (crc64Bit (crc64Bit (crc64Bit x)))))))

/-- The 64-bit CRC of NVMe over a run of bytes. -/
def crc64 (l : Bytes) : Nat := ((l.foldl crc64Byte 0xFFFFFFFFFFFFFFFF#64) ^^^ 0xFFFFFFFFFFFFFFFF#64).toNat

/-- One bit step of the T10-DIF polynomial 0x8BB7, most significant bit first. -/
def crc16Bit (c : BitVec 16) : BitVec 16 :=
  if c.getLsbD 15 then (c <<< 1) ^^^ 0x8BB7#16 else c <<< 1

/-- One byte step of CRC-16 T10-DIF. -/
def crc16Byte (c : BitVec 16) (b : Byte) : BitVec 16 :=
  let x := c ^^^ (b.setWidth 16 <<< 8)
  crc16Bit (crc16Bit (crc16Bit (crc16Bit (crc16Bit (crc16Bit (crc16Bit (crc16Bit x)))))))

/-- CRC-16 T10-DIF, the guard of Protection Information. -/
def crc16 (l : Bytes) : Nat := (l.foldl crc16Byte 0#16).toNat

end Sys2Proof.Machine
end

