-- ==== Sys2Proof/Machine/Lms.lean ====
section
/-! DEFINITION. LM-OTS, LMS and HSS signatures (RFC 8554, NIST SP 800-208) with SHA-256, as image verification and the identity key use them (R559 to R562). -/
namespace Sys2Proof.Machine

/-- Parameters of one LMS level: Winternitz width, chains, checksum shift, tree height, typecodes (RFC 8554, 4.1 and 5.1). -/
structure LmsPar where
  w    : Nat
  p    : Nat
  ls   : Nat
  h    : Nat
  ots  : Nat
  lms  : Nat

/-- LMS_SHA256_M32_H20 with LMOTS_SHA256_N32_W8, for images (R559). -/
def lmsImage : LmsPar := ⟨8, 34, 0, 20, 4, 8⟩

/-- LMS_SHA256_M32_H15 with LMOTS_SHA256_N32_W4, for the identity key (R561). -/
def lmsIdent : LmsPar := ⟨4, 67, 4, 15, 3, 7⟩

/-- Digit i of a string in base 2^w (RFC 8554, 3.1.3). -/
def coef (w : Nat) (s : Bytes) (i : Nat) : Nat :=
  fld (nthD s (i * w / 8) 0#8).toNat (8 - w * (i % (8 / w) + 1)) w

/-- The Winternitz checksum (RFC 8554, 4.4). -/
def otsCksm (P : LmsPar) (q : Bytes) : Nat :=
  sumL ((List.range (256 / P.w)).map (fun i => 2 ^ P.w - 1 - coef P.w q i)) * 2 ^ P.ls

/-- Chain steps from j up, k of them (RFC 8554, 4.3 to 4.6). -/
def otsChain (I : Bytes) (q i : Nat) : Nat → Nat → Bytes → Bytes
  | 0, _, x => x
  | k + 1, j, x => otsChain I q i k (j + 1) (sha256 (I ++ be q 4 ++ be i 2 ++ be j 1 ++ x))

/-- The digits of a message representative with its checksum. -/
def otsDigits (P : LmsPar) (I : Bytes) (q : Nat) (C msg : Bytes) : List Nat :=
  let Q := sha256 (I ++ be q 4 ++ be 0x8181 2 ++ C ++ msg)
  let s := Q ++ be (otsCksm P Q) 2
  (List.range P.p).map (coef P.w s)

/-- The public key hash of its chain ends. -/
def otsPub (I : Bytes) (q : Nat) (ends : List Bytes) : Bytes := sha256 (I ++ be q 4 ++ be 0x8080 2 ++ ends.flatten)

/-- The LM-OTS public key candidate of a signature (RFC 8554, 4.6). -/
def otsCand (P : LmsPar) (I : Bytes) (q : Nat) (msg sig : Bytes) : Bytes :=
  let C := slice sig 4 32
  let ds := otsDigits P I q C msg
  otsPub I q ((List.range P.p).map (fun i =>
    let a := nthD ds i 0
    otsChain I q i (2 ^ P.w - 1 - a) a (slice sig (36 + 32 * i) 32)))

/-- Climb a Merkle path (RFC 8554, 5.4.2). -/
def lmsClimb (I : Bytes) : Nat → Bytes → List Bytes → Bytes
  | _, t, [] => t
  | n, t, s :: path =>
    let m := if n % 2 = 1 then s ++ t else t ++ s
    lmsClimb I (n / 2) (sha256 (I ++ be (n / 2) 4 ++ be 0x8383 2 ++ m)) path

/-- LMS verification with a 56-byte public key (RFC 8554, 5.4). -/
def lmsVerify (P : LmsPar) (pub msg sig : Bytes) : Bool :=
  let I := slice pub 8 16
  let q := beVal (sig.take 4)
  let otsLen := 4 + 32 * (P.p + 1)
  let ots := slice sig 4 otsLen
  let path := (List.range P.h).map (fun i => slice sig (8 + otsLen + 32 * i) 32)
  let n := 2 ^ P.h + q
  let leaf := sha256 (I ++ be n 4 ++ be 0x8282 2 ++ otsCand P I q msg ots)
  beVal (pub.take 4) == P.lms && beVal (slice pub 4 4) == P.ots && beVal (ots.take 4) == P.ots
    && beVal (slice sig (4 + otsLen) 4) == P.lms && decide (q < 2 ^ P.h)
    && sig.length == 8 + otsLen + 32 * P.h && lmsClimb I n leaf path == slice pub 24 32

/-- Verification of a one-level HSS signature of an image (R559): 1,776-byte signature, 60-byte key. -/
def hssVerifyImage (pub msg sig : Bytes) : Bool :=
  sig.length == 1776 && pub.length == 60 && beVal (pub.take 4) == 1 && beVal (sig.take 4) == 0
    && lmsVerify lmsImage (pub.drop 4) msg (sig.drop 4)

/-! ## Signing (R561, R562) -/

/-- Private chain start i of leaf q (RFC 8554, Appendix A). -/
def otsSeed (I seed : Bytes) (q i : Nat) : Bytes := sha256 (I ++ be q 4 ++ be i 2 ++ [0xFF#8] ++ seed)

/-- LM-OTS public key of leaf q. -/
def otsLeafPub (P : LmsPar) (I seed : Bytes) (q : Nat) : Bytes :=
  otsPub I q ((List.range P.p).map (fun i => otsChain I q i (2 ^ P.w - 1) 0 (otsSeed I seed q i)))

/-- Node n at k levels above the leaves (RFC 8554, 5.3). -/
def lmsNode (P : LmsPar) (I seed : Bytes) : Nat → Nat → Bytes
  | 0, n => sha256 (I ++ be n 4 ++ be 0x8282 2 ++ otsLeafPub P I seed (n - 2 ^ P.h))
  | k + 1, n =>
    sha256 (I ++ be n 4 ++ be 0x8383 2 ++ lmsNode P I seed k (2 * n) ++ lmsNode P I seed k (2 * n + 1))

/-- The 56-byte LMS public key of a seed. -/
def lmsPub (P : LmsPar) (I seed : Bytes) : Bytes :=
  be P.lms 4 ++ be P.ots 4 ++ I ++ lmsNode P I seed P.h 1

/-- An LMS signature at leaf q with randomiser C. -/
def lmsSign (P : LmsPar) (I seed C : Bytes) (q : Nat) (msg : Bytes) : Bytes :=
  let ds := otsDigits P I q C msg
  let ys := (List.range P.p).flatMap (fun i => otsChain I q i (nthD ds i 0) 0 (otsSeed I seed q i))
  let path := (List.range P.h).flatMap (fun i =>
    let n := (2 ^ P.h + q) / 2 ^ i
    lmsNode P I seed i (if n % 2 = 1 then n - 1 else n + 1))
  be q 4 ++ be P.ots 4 ++ C ++ ys ++ be P.lms 4 ++ path

/-- SEED of bottom tree b (R561). -/
def botSeed (Itop seedTop : Bytes) (b : Nat) : Bytes := sha256 (Itop ++ be b 4 ++ be 0xFFFE 2 ++ [0xFF#8] ++ seedTop)

/-- I of bottom tree b (R561). -/
def botI (Itop seedTop : Bytes) (b : Nat) : Bytes := (sha256 (Itop ++ be b 4 ++ be 0xFFFF 2 ++ [0xFF#8] ++ seedTop)).take 16

/-- The 60-byte identity public key: L = 2, then the top LMS public key (R562). -/
def identPub (Itop seedTop : Bytes) : Bytes := be 2 4 ++ lmsPub lmsIdent Itop seedTop

/-- An identity signature with index q (R562): Nspk, top signature on the bottom key, that key, bottom signature. -/
def identSign (Itop seedTop : Bytes) (q : Nat) (Ctop Cbot msg : Bytes) : Bytes :=
  let b := q / 32768
  let Ib := botI Itop seedTop b
  let sb := botSeed Itop seedTop b
  let pb := lmsPub lmsIdent Ib sb
  be 1 4 ++ lmsSign lmsIdent Itop seedTop Ctop b pb ++ pb ++ lmsSign lmsIdent Ib sb Cbot (q % 32768) msg

end Sys2Proof.Machine
end

