-- ==== Sys2Proof/Config.lean ====
section
/-! DEFINITION. Free values: what the spec leaves open. Nothing here has a body a proof could see. -/
namespace Sys2Proof.Config

/-- Draw n of SEC's random source, 64 bits at a time (R33, R554). -/
opaque random64 : Nat → Nat

/-- Energy in µJ a page's block has used in the second that draw n stands for (R665 gives an accuracy, no value). -/
opaque energy : (page : Nat) → (n : Nat) → Nat

/-- How a value halfway between two integers is rounded where the spec says only 'rounded' or gives no rounding
(R106 θ in whole ns, R658 means): true rounds up. -/
opaque halfUp : (twice : Int) → Bool

/-- The rate correction in ppm the follower applies for twice an offset θ; R109 bounds it by 100 ppm and fixes nothing else. -/
opaque tetherRate : (theta : Int) → Int

/-- DRAM frame an LPN has on this head; R257 leaves the frame to each head. -/
opaque lpnFrame : (lpn : Nat) → Nat

/-- The keyed hash of a DRAM line under the salt of a BOOT that picks its channel; R33 gives neither function nor key schedule. -/
opaque dramHash : (salt : Nat) → (line : Nat) → Nat

/-- The keyed hash that picks a record's journal lane; R120 names its input and gives neither function nor key. -/
opaque laneHash : (input : Nat) → Nat

/-- The hash that places an entry of the hot-fingerprint cache; R227 says only 'a hash of CID'. -/
opaque hfcHash : (cid : Nat) → Nat

/-- Bytes of an Identify structure that the spec does not give, by CNS, object and offset (R147). -/
opaque identifyByte : (cns : Nat) → (obj : Nat) → (off : Nat) → BitVec 8

/-- Bytes of a log page that the spec does not give, by log identifier and offset (R147). -/
opaque logByte : (lid : Nat) → (n : Nat) → (off : Nat) → BitVec 8

/-- Value of a feature no Set Features has written (R147). -/
opaque featureDefault : (fid : Nat) → Nat

/-- Bytes of a rebuilt codeword whose stripe cannot be recovered, which no record names any more (R365). -/
opaque lostByte : (seg : Nat) → (unit : Nat) → (pos : Nat) → BitVec 8

/-- Bytes of a bridge's parameter pages that the spec does not give, by module, page and offset (R439). -/
opaque paramByte : (module : Nat) → (page : Nat) → (off : Nat) → BitVec 8

/-- XTS data-unit number of a Gondola grain, by its OSTAMP and grain index (R77 names the cipher and the key only). -/
opaque gondolaUnit : (ostamp : Nat) → (gi : Nat) → Nat

/-- Journal use in percent for a number of unreleased tiles (R289, JRN.USE): the spec does not say of what. -/
opaque journalUse : (tiles : Nat) → Nat

/-- Randomiser C of an LMS signature of the identity key, by the tree's I, the leaf and the 64-bit word (R562): RFC 8554 asks for
random values and the spec names no source. -/
opaque lmsRandom : (tree : Nat) → (leaf : Nat) → (word : Nat) → Nat

/-- A byte of the boot ROM, whose contents the spec does not give (Table 15-1). -/
opaque romByte : (off : Nat) → BitVec 8

/-- PCIe generation of the Annex port's link, less 1 and modulo 6 (Table 18-5 gives the range 1 to 6; the host at the other end decides). -/
opaque pcieGen : (at_ : Nat) → Nat

/-- The 802.1Q priority, modulo 8, of the frames of a queue pair (R140 pauses priorities and does not say which traffic carries which). -/
opaque connPrio : (conn : Nat) → Nat

/-- Quanta, modulo 65,537, of the pause frame that draw n sends, 65,536 for none: R140 has the port send priority flow control and does not
say when. -/
opaque pfcQuanta : (n : Nat) → Nat

/-- MSG of the TETHER REQ (0), of the TETHER RSP (1) and of the HEARTBEAT (2): the spec numbers neither (R486, R487; log 100). -/
opaque caridMsg : Nat → Nat

/-- Class of the array identity record of Cabinet, which the spec does not give; its low 8 bits count (R96, log 104). -/
opaque identClass : Nat → Nat

/-- Whether the service port takes a TFTP block longer than the block size of its transfer, which RFC 1350 has no meaning for (R629, log 103). -/
opaque takesLong : (n : Nat) → Bool

/-- What a sensor that an EVR sample gives no value for reads as (R655, log 103). -/
opaque sensor : (n : Nat) → (i : Nat) → Nat

/-- A byte of the EVR area's header sector, by the number of replacements it records: the spec names what it holds and gives it no layout
(R660, log 106). -/
opaque evrHeader : (spares : Nat) → (off : Nat) → BitVec 8

end Sys2Proof.Config
end

