-- ==== Sys2Proof/Machine/RegTable.lean ====
section
/-! DEFINITION. The registers of the control space, field by field: where each lies, how it is accessed and what it holds after reset (Tables 1-10 to 18-5). -/
namespace Sys2Proof.Machine

/-! Page numbers of the blocks (R668, Table 18-1). -/
/-- Page of BSV (R668). -/
def Pg.BSV : Nat := 1
/-- Page of FCL (R668). -/
def Pg.FCL : Nat := 2
/-- Page of EVR (R668). -/
def Pg.EVR : Nat := 3
/-- Page of SEC (R668). -/
def Pg.SEC : Nat := 4
/-- Page of TBS (R668). -/
def Pg.TBS : Nat := 5
/-- Page of HFX instance 0 (R668). -/
def Pg.HFX : Nat := 6
/-- Page of NVT (R668). -/
def Pg.NVT : Nat := 10
/-- Page of SLM (R668). -/
def Pg.SLM : Nat := 11
/-- Page of ING (R668). -/
def Pg.ING : Nat := 12
/-- Page of DGE (R668). -/
def Pg.DGE : Nat := 13
/-- Page of CMP (R668). -/
def Pg.CMP : Nat := 14
/-- Page of CPH (R668). -/
def Pg.CPH : Nat := 15
/-- Page of SGB (R668). -/
def Pg.SGB : Nat := 16
/-- Page of RBE (R668). -/
def Pg.RBE : Nat := 17
/-- Page of JRN (R668). -/
def Pg.JRN : Nat := 18
/-- Page of MPE (R668). -/
def Pg.MPE : Nat := 19
/-- Page of MPC (R668). -/
def Pg.MPC : Nat := 20
/-- Page of FMM (R668). -/
def Pg.FMM : Nat := 21
/-- Page of LDC (R668). -/
def Pg.LDC : Nat := 22
/-- Page of JLK instance 0 (R668). -/
def Pg.JLK : Nat := 23
/-- Page of CPL (R668). -/
def Pg.CPL : Nat := 27
/-- Page of RPL (R668). -/
def Pg.RPL : Nat := 28
/-- Page of HBC (R668). -/
def Pg.HBC : Nat := 29
/-- Page of DDC (R668). -/
def Pg.DDC : Nat := 30
/-- Page of ANX (R668). -/
def Pg.ANX : Nat := 31
/-- Page of CCL (R668). -/
def Pg.CCL : Nat := 32

/-- HBC.PC_FENCED.PC [63:0] RO (R46, Table 1-10; reset 0). -/
def R.HBC.PC_FENCED.PC : Fld := ⟨119040, 0, 64⟩
/-- HBC.PC_PENDING.PC [63:0] RO (R46, Table 1-10; reset Kept in the SVC island). -/
def R.HBC.PC_PENDING.PC : Fld := ⟨119048, 0, 64⟩
/-- HBC.FENCE_CMD.PC [5:0] WO (R46, Table 1-10; reset 0). -/
def R.HBC.FENCE_CMD.PC : Fld := ⟨119056, 0, 6⟩
/-- HBC.FENCE_CMD.FENCE [8] WO (R46, Table 1-10; reset 0). -/
def R.HBC.FENCE_CMD.FENCE : Fld := ⟨119056, 8, 1⟩
/-- HBC.STAT.ENABLED [6:0] RO (R46, Table 1-10; reset 0x40). -/
def R.HBC.STAT.ENABLED : Fld := ⟨119060, 0, 7⟩
/-- HBC.STAT.HOT0 [8] RO (R46, Table 1-10; reset 0). -/
def R.HBC.STAT.HOT0 : Fld := ⟨119060, 8, 1⟩
/-- HBC.STAT.HOT1 [9] RO (R46, Table 1-10; reset 0). -/
def R.HBC.STAT.HOT1 : Fld := ⟨119060, 9, 1⟩
/-- HBC.CE_THR.COUNT [15:0] RW (R46, Table 1-10; reset 0x0100). -/
def R.HBC.CE_THR.COUNT : Fld := ⟨119064, 0, 16⟩
/-- HBC.CNT_CE.COUNT [31:0] RO (R46, Table 1-10; reset 0). -/
def R.HBC.CNT_CE.COUNT : Fld := ⟨119068, 0, 32⟩
/-- HBC.CNT_UE.COUNT [31:0] RO (R46, Table 1-10; reset 0). -/
def R.HBC.CNT_UE.COUNT : Fld := ⟨119072, 0, 32⟩
/-- HBC.UE_ADDR.ADDR [63:0] RO (R46, Table 1-10; reset 0). -/
def R.HBC.UE_ADDR.ADDR : Fld := ⟨119080, 0, 64⟩
/-- DDC.STAT.CH_EN [15:0] RO (R46, Table 1-11; reset 0). -/
def R.DDC.STAT.CH_EN : Fld := ⟨123136, 0, 16⟩
/-- DDC.STAT.DPC2 [16] RO (R46, Table 1-11; reset 0). -/
def R.DDC.STAT.DPC2 : Fld := ⟨123136, 16, 1⟩
/-- DDC.STAT.SPEED [18:17] RO (R46, Table 1-11; reset 0). -/
def R.DDC.STAT.SPEED : Fld := ⟨123136, 17, 2⟩
/-- DDC.CH_FENCED.CH [15:0] RO (R46, Table 1-11; reset 0). -/
def R.DDC.CH_FENCED.CH : Fld := ⟨123140, 0, 16⟩
/-- DDC.FENCE_CMD.CH [3:0] WO (R46, Table 1-11; reset 0). -/
def R.DDC.FENCE_CMD.CH : Fld := ⟨123144, 0, 4⟩
/-- DDC.FENCE_CMD.FENCE [8] WO (R46, Table 1-11; reset 0). -/
def R.DDC.FENCE_CMD.FENCE : Fld := ⟨123144, 8, 1⟩
/-- DDC.USABLE.GIB [13:0] RO (R46, Table 1-11; reset 0). -/
def R.DDC.USABLE.GIB : Fld := ⟨123148, 0, 14⟩
/-- DDC.SCRUB_CFG.HOURS [7:0] RW (R46, Table 1-11; reset 0x18). -/
def R.DDC.SCRUB_CFG.HOURS : Fld := ⟨123152, 0, 8⟩
/-- DDC.CE_THR.COUNT [15:0] RW (R46, Table 1-11; reset 0x0400). -/
def R.DDC.CE_THR.COUNT : Fld := ⟨123156, 0, 16⟩
/-- DDC.CNT_CE.COUNT [31:0] RO (R46, Table 1-11; reset 0). -/
def R.DDC.CNT_CE.COUNT : Fld := ⟨123160, 0, 32⟩
/-- DDC.CNT_UE.COUNT [31:0] RO (R46, Table 1-11; reset 0). -/
def R.DDC.CNT_UE.COUNT : Fld := ⟨123164, 0, 32⟩
/-- DDC.UE_ADDR.ADDR [63:0] RO (R46, Table 1-11; reset 0). -/
def R.DDC.UE_ADDR.ADDR : Fld := ⟨123168, 0, 64⟩
/-- BSV.MODE.MODE [3:0] RO (R55, Table 2-2; reset 0x1). -/
def R.BSV.MODE.MODE : Fld := ⟨4352, 0, 4⟩
/-- BSV.MODE.PREV [7:4] RO (R55, Table 2-2; reset 0x0). -/
def R.BSV.MODE.PREV : Fld := ⟨4352, 4, 4⟩
/-- BSV.MODE.CAUSE [15:8] RO (R55, Table 2-2; reset 0x00). -/
def R.BSV.MODE.CAUSE : Fld := ⟨4352, 8, 8⟩
/-- BSV.MODE.PENDING [16] RO (R55, Table 2-2; reset 0). -/
def R.BSV.MODE.PENDING : Fld := ⟨4352, 16, 1⟩
/-- BSV.MODE.GONDOLA_VALID [17] RO (R55, Table 2-2; reset 0). -/
def R.BSV.MODE.GONDOLA_VALID : Fld := ⟨4352, 17, 1⟩
/-- BSV.MODE_CMD.CMD [7:0] WO (R52, Table 2-3; reset 0x00). -/
def R.BSV.MODE_CMD.CMD : Fld := ⟨4356, 0, 8⟩
/-- BSV.MODE_RESULT.RESULT [7:0] RO (R52, Table 2-3; reset 0x00). -/
def R.BSV.MODE_RESULT.RESULT : Fld := ⟨4360, 0, 8⟩
/-- BSV.MODE_CFG.EJECT_HANDOVER [0] RWL (R52, Table 2-3; reset 1). -/
def R.BSV.MODE_CFG.EJECT_HANDOVER : Fld := ⟨4364, 0, 1⟩
/-- BSV.MODE_CFG.AUTO_JOIN [1] RWL (R52, Table 2-3; reset 0). -/
def R.BSV.MODE_CFG.AUTO_JOIN : Fld := ⟨4364, 1, 1⟩
/-- BSV.MODE_STAMP.ESTAMP [63:0] RO (R52, Table 2-3; reset 0). -/
def R.BSV.MODE_STAMP.ESTAMP : Fld := ⟨4368, 0, 64⟩
/-- TBS.ESTAMP.ESTAMP [63:0] RO (R114, Table 3-4; reset 0). -/
def R.TBS.ESTAMP.ESTAMP : Fld := ⟨20736, 0, 64⟩
/-- TBS.STAT.LOCK [0] RO (R114, Table 3-4; reset 0). -/
def R.TBS.STAT.LOCK : Fld := ⟨20744, 0, 1⟩
/-- TBS.STAT.ROLE [1] RO (R114, Table 3-4; reset 0). -/
def R.TBS.STAT.ROLE : Fld := ⟨20744, 1, 1⟩
/-- TBS.STAT.HOLDOVER [2] RO (R114, Table 3-4; reset 0). -/
def R.TBS.STAT.HOLDOVER : Fld := ⟨20744, 2, 1⟩
/-- TBS.STAT.CEIL_STALL [3] RO (R114, Table 3-4; reset 0). -/
def R.TBS.STAT.CEIL_STALL : Fld := ⟨20744, 3, 1⟩
/-- TBS.STAT.RUN [8:4] RO (R114, Table 3-4; reset 0). -/
def R.TBS.STAT.RUN : Fld := ⟨20744, 4, 5⟩
/-- TBS.EPS_CUR.EPS [15:0] RO (R114, Table 3-4; reset 0x0032). -/
def R.TBS.EPS_CUR.EPS : Fld := ⟨20748, 0, 16⟩
/-- TBS.EPS_CFG.ASYM [7:0] RWL (R114, Table 3-4; reset 0x08). -/
def R.TBS.EPS_CFG.ASYM : Fld := ⟨20752, 0, 8⟩
/-- TBS.EPS_CFG.EPS_MAX [31:16] RWL (R114, Table 3-4; reset 0x2710). -/
def R.TBS.EPS_CFG.EPS_MAX : Fld := ⟨20752, 16, 16⟩
/-- TBS.OFFSET.THETA [31:0] RO (R114, Table 3-4; reset 0). -/
def R.TBS.OFFSET.THETA : Fld := ⟨20756, 0, 32⟩
/-- TBS.RTT.DELTA [15:0] RO (R114, Table 3-4; reset 0). -/
def R.TBS.RTT.DELTA : Fld := ⟨20760, 0, 16⟩
/-- TBS.UTC_REF_E.ESTAMP [63:0] RO (R114, Table 3-4; reset 0). -/
def R.TBS.UTC_REF_E.ESTAMP : Fld := ⟨20768, 0, 64⟩
/-- TBS.UTC_REF_T.UTC [63:0] RO (R114, Table 3-4; reset 0). -/
def R.TBS.UTC_REF_T.UTC : Fld := ⟨20776, 0, 64⟩
/-- TBS.CEILING.CEIL [63:0] RO (R114, Table 3-4; reset 0). -/
def R.TBS.CEILING.CEIL : Fld := ⟨20784, 0, 64⟩
/-- TBS.STEP_MAX.SEC [15:0] RWL (R114, Table 3-4; reset 0x003C). -/
def R.TBS.STEP_MAX.SEC : Fld := ⟨20792, 0, 16⟩
/-- TBS.CNT_BADEX.COUNT [31:0] RO (R114, Table 3-4; reset 0). -/
def R.TBS.CNT_BADEX.COUNT : Fld := ⟨20796, 0, 32⟩
/-- TBS.CNT_LOST.COUNT [31:0] RO (R114, Table 3-4; reset 0). -/
def R.TBS.CNT_LOST.COUNT : Fld := ⟨20800, 0, 32⟩
/-- TBS.CNT_OVF.COUNT [31:0] RO (R114, Table 3-4; reset 0). -/
def R.TBS.CNT_OVF.COUNT : Fld := ⟨20804, 0, 32⟩
/-- TBS.CAL_VALUE.UTC [63:0] RW (R114, Table 3-4; reset 0). -/
def R.TBS.CAL_VALUE.UTC : Fld := ⟨20808, 0, 64⟩
/-- TBS.CAL_CMD.SET [0] WO (R114, Table 3-4; reset 0). -/
def R.TBS.CAL_CMD.SET : Fld := ⟨20816, 0, 1⟩
/-- TBS.CAL_STAT.VALID [0] RO (R114, Table 3-4; reset Kept on VBAT). -/
def R.TBS.CAL_STAT.VALID : Fld := ⟨20820, 0, 1⟩
/-- TBS.CAL_STAT.RTC_LOST [1] RO (R114, Table 3-4; reset Kept on VBAT). -/
def R.TBS.CAL_STAT.RTC_LOST : Fld := ⟨20820, 1, 1⟩
/-- HFX.PORT_CFG.MODE [1:0] RW (R140, Table 4-2; reset 0b11). -/
def R.HFX.PORT_CFG.MODE (inst n : Nat) : Fld := ⟨(6 + inst) * 4096 + 256 + 4 * n, 0, 2⟩
/-- HFX.PORT_CFG.AN [2] RW (R140, Table 4-2; reset 1). -/
def R.HFX.PORT_CFG.AN (inst n : Nat) : Fld := ⟨(6 + inst) * 4096 + 256 + 4 * n, 2, 1⟩
/-- HFX.PORT_CFG.PFC_EN [3] RW (R140, Table 4-2; reset 0). -/
def R.HFX.PORT_CFG.PFC_EN (inst n : Nat) : Fld := ⟨(6 + inst) * 4096 + 256 + 4 * n, 3, 1⟩
/-- HFX.PORT_CFG.PFC_MASK [11:4] RW (R140, Table 4-2; reset 0x08). -/
def R.HFX.PORT_CFG.PFC_MASK (inst n : Nat) : Fld := ⟨(6 + inst) * 4096 + 256 + 4 * n, 4, 8⟩
/-- HFX.PORT_CFG.MTU [29:16] RW (R140, Table 4-2; reset 0x23EE). -/
def R.HFX.PORT_CFG.MTU (inst n : Nat) : Fld := ⟨(6 + inst) * 4096 + 256 + 4 * n, 16, 14⟩
/-- HFX.PORT_STAT.UP [3:0] RO (R140, Table 4-2; reset 0). -/
def R.HFX.PORT_STAT.UP (inst n : Nat) : Fld := ⟨(6 + inst) * 4096 + 272 + 4 * n, 0, 4⟩
/-- HFX.PORT_STAT.FENCED [7:4] RO (R140, Table 4-2; reset 0). -/
def R.HFX.PORT_STAT.FENCED (inst n : Nat) : Fld := ⟨(6 + inst) * 4096 + 272 + 4 * n, 4, 4⟩
/-- NVT.TCP_PORT.PORT [15:0] RWL (R166, Table 4-9; reset 0x1144). -/
def R.NVT.TCP_PORT.PORT : Fld := ⟨41216, 0, 16⟩
/-- NVT.DISC_PORT.PORT [15:0] RWL (R166, Table 4-9; reset 0x1F49). -/
def R.NVT.DISC_PORT.PORT : Fld := ⟨41220, 0, 16⟩
/-- NVT.XPORT_CFG.TCP_EN [0] RW (R166, Table 4-9; reset 0). -/
def R.NVT.XPORT_CFG.TCP_EN : Fld := ⟨41224, 0, 1⟩
/-- NVT.XPORT_CFG.ROCE_EN [1] RW (R166, Table 4-9; reset 0). -/
def R.NVT.XPORT_CFG.ROCE_EN : Fld := ⟨41224, 1, 1⟩
/-- NVT.XPORT_CFG.HDGST_REQ [2] RWL (R166, Table 4-9; reset 0). -/
def R.NVT.XPORT_CFG.HDGST_REQ : Fld := ⟨41224, 2, 1⟩
/-- NVT.XPORT_CFG.DDGST_REQ [3] RWL (R166, Table 4-9; reset 0). -/
def R.NVT.XPORT_CFG.DDGST_REQ : Fld := ⟨41224, 3, 1⟩
/-- NVT.QPOOL_FREE.FREE [18:0] RO (R166, Table 4-9; reset 0x4_0000). -/
def R.NVT.QPOOL_FREE.FREE : Fld := ⟨41228, 0, 19⟩
/-- NVT.VCNT_SEL.LPORT [5:0] RW (R166, Table 4-9; reset 0). -/
def R.NVT.VCNT_SEL.LPORT : Fld := ⟨41232, 0, 6⟩
/-- NVT.VCNT_SEL.VCODE [15:8] RW (R166, Table 4-9; reset 0). -/
def R.NVT.VCNT_SEL.VCODE : Fld := ⟨41232, 8, 8⟩
/-- NVT.VCNT_SEL.CLR [16] WO (R166, Table 4-9; reset 0). -/
def R.NVT.VCNT_SEL.CLR : Fld := ⟨41232, 16, 1⟩
/-- NVT.VCNT_DATA.COUNT [31:0] RO (R166, Table 4-9; reset 0). -/
def R.NVT.VCNT_DATA.COUNT : Fld := ⟨41236, 0, 32⟩
/-- NVT.VLOG_BASE.ADDR [63:0] RWL (R166, Table 4-9; reset 0). -/
def R.NVT.VLOG_BASE.ADDR : Fld := ⟨41240, 0, 64⟩
/-- NVT.VLOG_WR.INDEX [11:0] RO (R166, Table 4-9; reset 0). -/
def R.NVT.VLOG_WR.INDEX : Fld := ⟨41248, 0, 12⟩
/-- NVT.VLOG_WRAP.COUNT [31:0] RO (R166, Table 4-9; reset 0). -/
def R.NVT.VLOG_WRAP.COUNT : Fld := ⟨41252, 0, 32⟩
/-- NVT.VLOG_RD.INDEX [11:0] RW (R166, Table 4-9; reset 0). -/
def R.NVT.VLOG_RD.INDEX : Fld := ⟨41256, 0, 12⟩
/-- SLM.CMD.OP [3:0] WO (R210, Table 5-8; reset 0x0). -/
def R.SLM.CMD.OP : Fld := ⟨45312, 0, 4⟩
/-- SLM.CMD.HANDLE [23:4] WO (R210, Table 5-8; reset 0). -/
def R.SLM.CMD.HANDLE : Fld := ⟨45312, 4, 20⟩
/-- SLM.CMD_STAT.RESULT [7:0] RO (R210, Table 5-8; reset 0x00). -/
def R.SLM.CMD_STAT.RESULT : Fld := ⟨45316, 0, 8⟩
/-- SLM.CMD_STAT.PENDING [8] RO (R210, Table 5-8; reset 0). -/
def R.SLM.CMD_STAT.PENDING : Fld := ⟨45316, 8, 1⟩
/-- SLM.CMD_STAT.HANDLE [31:12] RO (R210, Table 5-8; reset 0). -/
def R.SLM.CMD_STAT.HANDLE : Fld := ⟨45316, 12, 20⟩
/-- SLM.DESC.DESC [127:0] RW (R210, Table 5-8; reset 0). -/
def R.SLM.DESC.DESC : Fld := ⟨45320, 0, 128⟩
/-- SLM.BLOB_ADDR.ADDR [63:0] RW (R210, Table 5-8; reset 0). -/
def R.SLM.BLOB_ADDR.ADDR : Fld := ⟨45336, 0, 64⟩
/-- SLM.MIG_KEY.KEYSLOT [12:0] RWL (R210, Table 5-8; reset 0). -/
def R.SLM.MIG_KEY.KEYSLOT : Fld := ⟨45344, 0, 13⟩
/-- SLM.CAP_IOPS.KIOPS [16:0] RW (R210, Table 5-8; reset 0x1_3880). -/
def R.SLM.CAP_IOPS.KIOPS : Fld := ⟨45348, 0, 17⟩
/-- SLM.CAP_BW.UNITS [14:0] RW (R210, Table 5-8; reset 0x61A8). -/
def R.SLM.CAP_BW.UNITS : Fld := ⟨45352, 0, 15⟩
/-- SLM.STAT.LEAD [0] RO (R210, Table 5-8; reset 0). -/
def R.SLM.STAT.LEAD : Fld := ⟨45356, 0, 1⟩
/-- SLM.STAT.SLICES [13:1] RO (R210, Table 5-8; reset 0). -/
def R.SLM.STAT.SLICES : Fld := ⟨45356, 1, 13⟩
/-- SLM.SEL.INDEX [11:0] RW (R210, Table 5-8; reset 0). -/
def R.SLM.SEL.INDEX : Fld := ⟨45360, 0, 12⟩
/-- SLM.SLICE_STAT.STATE [2:0] RO (R210, Table 5-8; reset 0). -/
def R.SLM.SLICE_STAT.STATE : Fld := ⟨45364, 0, 3⟩
/-- SLM.SLICE_STAT.WGL_ON [3] RO (R210, Table 5-8; reset 0). -/
def R.SLM.SLICE_STAT.WGL_ON : Fld := ⟨45364, 3, 1⟩
/-- SLM.SLICE_STAT.WGL_OVF [4] RO (R210, Table 5-8; reset 0). -/
def R.SLM.SLICE_STAT.WGL_OVF : Fld := ⟨45364, 4, 1⟩
/-- SLM.SLICE_STAT.INFLIGHT [31:12] RO (R210, Table 5-8; reset 0). -/
def R.SLM.SLICE_STAT.INFLIGHT : Fld := ⟨45364, 12, 20⟩
/-- SLM.WGL_BASE.ADDR [63:0] RW (R210, Table 5-8; reset 0). -/
def R.SLM.WGL_BASE.ADDR : Fld := ⟨45368, 0, 64⟩
/-- SLM.WGL_SIZE.ENTRIES [23:0] RW (R210, Table 5-8; reset 0). -/
def R.SLM.WGL_SIZE.ENTRIES : Fld := ⟨45376, 0, 24⟩
/-- SLM.WGL_WR.INDEX [23:0] RO (R210, Table 5-8; reset 0). -/
def R.SLM.WGL_WR.INDEX : Fld := ⟨45380, 0, 24⟩
/-- SLM.WGL_RD.INDEX [23:0] RW (R210, Table 5-8; reset 0). -/
def R.SLM.WGL_RD.INDEX : Fld := ⟨45384, 0, 24⟩
/-- SLM.MRING_BASE.ADDR [63:0] RWL (R210, Table 5-8; reset 0). -/
def R.SLM.MRING_BASE.ADDR : Fld := ⟨45392, 0, 64⟩
/-- SLM.MRING_WR.SEQ [63:0] RO (R210, Table 5-8; reset 0). -/
def R.SLM.MRING_WR.SEQ : Fld := ⟨45400, 0, 64⟩
/-- SLM.MRING_RD.SEQ [63:0] RW (R210, Table 5-8; reset 0). -/
def R.SLM.MRING_RD.SEQ : Fld := ⟨45408, 0, 64⟩
/-- SLM.SWEEP_CFG.HOURS [7:0] RW (R210, Table 5-8; reset 0x18). -/
def R.SLM.SWEEP_CFG.HOURS : Fld := ⟨45416, 0, 8⟩
/-- SLM.CNT_STALE.COUNT [31:0] RO (R210, Table 5-8; reset 0). -/
def R.SLM.CNT_STALE.COUNT : Fld := ⟨45420, 0, 32⟩
/-- SLM.NQN_BASE.ADDR [63:0] RWL (R210, Table 5-8; reset 0). -/
def R.SLM.NQN_BASE.ADDR : Fld := ⟨45424, 0, 64⟩
/-- SLM.PASID_BASE.ADDR [63:0] RWL (R210, Table 5-8; reset 0). -/
def R.SLM.PASID_BASE.ADDR : Fld := ⟨45432, 0, 64⟩
/-- ING.CFG.TRAILER_FETCH [0] RW (R248, Table 6-3; reset 1). -/
def R.ING.CFG.TRAILER_FETCH : Fld := ⟨49408, 0, 1⟩
/-- ING.CFG.ZERO_DET [1] RW (R248, Table 6-3; reset 1). -/
def R.ING.CFG.ZERO_DET : Fld := ⟨49408, 1, 1⟩
/-- ING.CFG.SKIP_N [11:8] RW (R248, Table 6-3; reset 0x6). -/
def R.ING.CFG.SKIP_N : Fld := ⟨49408, 8, 4⟩
/-- ING.CFG.PROBE_N [15:12] RW (R248, Table 6-3; reset 0x6). -/
def R.ING.CFG.PROBE_N : Fld := ⟨49408, 12, 4⟩
/-- ING.DOM_SEL.DOMAIN [9:0] RW (R248, Table 6-3; reset 0). -/
def R.ING.DOM_SEL.DOMAIN : Fld := ⟨49412, 0, 10⟩
/-- ING.DOM_DATA.FP_SLOT [11:0] RW (R248, Table 6-3; reset 0). -/
def R.ING.DOM_DATA.FP_SLOT : Fld := ⟨49416, 0, 12⟩
/-- ING.DOM_DATA.VALID [31] RW (R248, Table 6-3; reset 0). -/
def R.ING.DOM_DATA.VALID : Fld := ⟨49416, 31, 1⟩
/-- ING.HFC_BASE.ADDR [63:0] RWL (R248, Table 6-3; reset 0xA_0000_0000). -/
def R.ING.HFC_BASE.ADDR : Fld := ⟨49424, 0, 64⟩
/-- ING.CNT_GRAIN.COUNT [63:0] RO (R248, Table 6-3; reset 0). -/
def R.ING.CNT_GRAIN.COUNT : Fld := ⟨49440, 0, 64⟩
/-- ING.CNT_ZERO.COUNT [63:0] RO (R248, Table 6-3; reset 0). -/
def R.ING.CNT_ZERO.COUNT : Fld := ⟨49448, 0, 64⟩
/-- ING.CNT_HIT.COUNT [63:0] RO (R248, Table 6-3; reset 0). -/
def R.ING.CNT_HIT.COUNT : Fld := ⟨49456, 0, 64⟩
/-- ING.CNT_CAND.COUNT [63:0] RO (R248, Table 6-3; reset 0). -/
def R.ING.CNT_CAND.COUNT : Fld := ⟨49464, 0, 64⟩
/-- ING.CNT_FALSE.COUNT [63:0] RO (R248, Table 6-3; reset 0). -/
def R.ING.CNT_FALSE.COUNT : Fld := ⟨49472, 0, 64⟩
/-- ING.CNT_TFETCH.COUNT [63:0] RO (R248, Table 6-3; reset 0). -/
def R.ING.CNT_TFETCH.COUNT : Fld := ⟨49480, 0, 64⟩
/-- ING.CNT_MERGE.COUNT [63:0] RO (R248, Table 6-3; reset 0). -/
def R.ING.CNT_MERGE.COUNT : Fld := ⟨49488, 0, 64⟩
/-- ING.CNT_RAW.COUNT [63:0] RO (R248, Table 6-3; reset 0). -/
def R.ING.CNT_RAW.COUNT : Fld := ⟨49496, 0, 64⟩
/-- ING.CNT_SKIP.COUNT [63:0] RO (R248, Table 6-3; reset 0). -/
def R.ING.CNT_SKIP.COUNT : Fld := ⟨49504, 0, 64⟩
/-- ING.CNT_RETRY.COUNT [31:0] RO (R248, Table 6-3; reset 0). -/
def R.ING.CNT_RETRY.COUNT : Fld := ⟨49512, 0, 32⟩
/-- ING.CNT_TFAIL.COUNT [31:0] RO (R248, Table 6-3; reset 0). -/
def R.ING.CNT_TFAIL.COUNT : Fld := ⟨49516, 0, 32⟩
/-- MPC.CMD.OP [3:0] WO (R297, Table 7-5; reset 0x0). -/
def R.MPC.CMD.OP : Fld := ⟨82176, 0, 4⟩
/-- MPC.CMD.WAY [7:4] WO (R297, Table 7-5; reset 0x0). -/
def R.MPC.CMD.WAY : Fld := ⟨82176, 4, 4⟩
/-- MPC.STATE.STATE [1:0] RO (R297, Table 7-5; reset 0b00). -/
def R.MPC.STATE.STATE : Fld := ⟨82180, 0, 2⟩
/-- MPC.STATE.INV_DONE [2] RO (R297, Table 7-5; reset 0). -/
def R.MPC.STATE.INV_DONE : Fld := ⟨82180, 2, 1⟩
/-- MPC.STATE.ENABLE_NO_INV [3] W1C (R297, Table 7-5; reset 0). -/
def R.MPC.STATE.ENABLE_NO_INV : Fld := ⟨82180, 3, 1⟩
/-- MPC.STATE.LOCK_NO_PRELOAD [4] W1C (R297, Table 7-5; reset 0). -/
def R.MPC.STATE.LOCK_NO_PRELOAD : Fld := ⟨82180, 4, 1⟩
/-- MPC.STATE.BUSY [5] RO (R297, Table 7-5; reset 0). -/
def R.MPC.STATE.BUSY : Fld := ⟨82180, 5, 1⟩
/-- MPC.DRAIN_COUNT.LINES [31:0] RO (R297, Table 7-5; reset 0). -/
def R.MPC.DRAIN_COUNT.LINES : Fld := ⟨82184, 0, 32⟩
/-- MPC.PRELOADED.WAYS [11:0] RO (R297, Table 7-5; reset 0). -/
def R.MPC.PRELOADED.WAYS : Fld := ⟨82188, 0, 12⟩
/-- MPC.LOCK.WAYS [11:0] RW (R297, Table 7-5; reset 0). -/
def R.MPC.LOCK.WAYS : Fld := ⟨82192, 0, 12⟩
/-- MPC.CACHE.EN [0] RW (R297, Table 7-5; reset 0). -/
def R.MPC.CACHE.EN : Fld := ⟨82196, 0, 1⟩
/-- MPC.PRELOAD_ADDR.ADDR [63:0] RW (R297, Table 7-5; reset 0). -/
def R.MPC.PRELOAD_ADDR.ADDR : Fld := ⟨82200, 0, 64⟩
/-- MPC.PRELOAD_LEN.BYTES [23:0] RW (R297, Table 7-5; reset 0). -/
def R.MPC.PRELOAD_LEN.BYTES : Fld := ⟨82208, 0, 24⟩
/-- MPC.HOT_CFG.THR [7:0] RW (R297, Table 7-5; reset 0x40). -/
def R.MPC.HOT_CFG.THR : Fld := ⟨82212, 0, 8⟩
/-- MPC.HOT_COUNT.COUNT [31:0] RO (R297, Table 7-5; reset 0). -/
def R.MPC.HOT_COUNT.COUNT : Fld := ⟨82216, 0, 32⟩
/-- MPC.HOT_WR.INDEX [5:0] RO (R297, Table 7-5; reset 0). -/
def R.MPC.HOT_WR.INDEX : Fld := ⟨82220, 0, 6⟩
/-- MPC.CNT_HIT.COUNT [63:0] RO (R297, Table 7-5; reset 0). -/
def R.MPC.CNT_HIT.COUNT : Fld := ⟨82224, 0, 64⟩
/-- MPC.CNT_MISS.COUNT [63:0] RO (R297, Table 7-5; reset 0). -/
def R.MPC.CNT_MISS.COUNT : Fld := ⟨82232, 0, 64⟩
/-- MPC.HOT_LOG.SET [16:0] RO (R297, Table 7-5; reset 0). -/
def R.MPC.HOT_LOG.SET (n : Nat) : Fld := ⟨82432 + 4 * n, 0, 17⟩
/-- MPC.HOT_LOG.EVICT [24:17] RO (R297, Table 7-5; reset 0). -/
def R.MPC.HOT_LOG.EVICT (n : Nat) : Fld := ⟨82432 + 4 * n, 17, 8⟩
/-- MPE.CT_BASE.ADDR [63:0] RWL (R298, Table 7-6; reset 0). -/
def R.MPE.CT_BASE.ADDR : Fld := ⟨78080, 0, 64⟩
/-- MPE.CT_BITS.BITS [5:0] RWL (R298, Table 7-6; reset 0). -/
def R.MPE.CT_BITS.BITS : Fld := ⟨78088, 0, 6⟩
/-- MPE.LPN_BASE.ADDR [63:0] RWL (R298, Table 7-6; reset 0). -/
def R.MPE.LPN_BASE.ADDR : Fld := ⟨78096, 0, 64⟩
/-- MPE.NS_BASE.ADDR [63:0] RWL (R298, Table 7-6; reset 0). -/
def R.MPE.NS_BASE.ADDR : Fld := ⟨78104, 0, 64⟩
/-- MPE.CKPT_CFG.PERIOD [15:0] RW (R298, Table 7-6; reset 0x003C). -/
def R.MPE.CKPT_CFG.PERIOD : Fld := ⟨78112, 0, 16⟩
/-- MPE.CKPT_CFG.JRN_PCT [23:16] RW (R298, Table 7-6; reset 0x32). -/
def R.MPE.CKPT_CFG.JRN_PCT : Fld := ⟨78112, 16, 8⟩
/-- MPE.CKPT_STAT.NUMBER [30:0] RO (R298, Table 7-6; reset 0). -/
def R.MPE.CKPT_STAT.NUMBER : Fld := ⟨78116, 0, 31⟩
/-- MPE.CKPT_STAT.RUNNING [31] RO (R298, Table 7-6; reset 0). -/
def R.MPE.CKPT_STAT.RUNNING : Fld := ⟨78116, 31, 1⟩
/-- MPE.SNAP_CMD.OP [1:0] WO (R298, Table 7-6; reset 0). -/
def R.MPE.SNAP_CMD.OP : Fld := ⟨78120, 0, 2⟩
/-- MPE.SNAP_CMD.NS [17:2] WO (R298, Table 7-6; reset 0). -/
def R.MPE.SNAP_CMD.NS : Fld := ⟨78120, 2, 16⟩
/-- MPE.SNAP_ARG.EPOCH [31:0] RW (R298, Table 7-6; reset 0). -/
def R.MPE.SNAP_ARG.EPOCH : Fld := ⟨78124, 0, 32⟩
/-- MPE.SNAP_STAT.RESULT [7:0] RO (R298, Table 7-6; reset 0). -/
def R.MPE.SNAP_STAT.RESULT : Fld := ⟨78128, 0, 8⟩
/-- MPE.SNAP_STAT.PENDING [8] RO (R298, Table 7-6; reset 0). -/
def R.MPE.SNAP_STAT.PENDING : Fld := ⟨78128, 8, 1⟩
/-- MPE.CT_FILL0.COUNT [63:0] RO (R298, Table 7-6; reset 0). -/
def R.MPE.CT_FILL0.COUNT : Fld := ⟨78136, 0, 64⟩
/-- MPE.CT_FILL1.COUNT [63:0] RO (R298, Table 7-6; reset 0). -/
def R.MPE.CT_FILL1.COUNT : Fld := ⟨78144, 0, 64⟩
/-- MPE.CT_WARN.PCT [6:0] RW (R298, Table 7-6; reset 0x55). -/
def R.MPE.CT_WARN.PCT : Fld := ⟨78152, 0, 7⟩
/-- MPE.CNT_SPILL.COUNT [31:0] RO (R298, Table 7-6; reset 0). -/
def R.MPE.CNT_SPILL.COUNT : Fld := ⟨78160, 0, 32⟩
/-- MPE.CNT_FULL.COUNT [31:0] RO (R298, Table 7-6; reset 0). -/
def R.MPE.CNT_FULL.COUNT : Fld := ⟨78164, 0, 32⟩
/-- MPE.CNT_CHK.COUNT [31:0] RO (R298, Table 7-6; reset 0). -/
def R.MPE.CNT_CHK.COUNT : Fld := ⟨78168, 0, 32⟩
/-- MPE.CNT_FREE.COUNT [63:0] RO (R298, Table 7-6; reset 0). -/
def R.MPE.CNT_FREE.COUNT : Fld := ⟨78176, 0, 64⟩
/-- MPE.CNT_PIN.COUNT [31:0] RO (R298, Table 7-6; reset 0). -/
def R.MPE.CNT_PIN.COUNT : Fld := ⟨78184, 0, 32⟩
/-- NVT.RD_CFG.RETAIN_PCT [6:0] RW (R321, Table 8-3; reset 0x4B). -/
def R.NVT.RD_CFG.RETAIN_PCT : Fld := ⟨41280, 0, 7⟩
/-- NVT.RD_STAT.BUFS [13:0] RO (R321, Table 8-3; reset 0). -/
def R.NVT.RD_STAT.BUFS : Fld := ⟨41284, 0, 14⟩
/-- NVT.CNT_RERES.COUNT [31:0] RO (R321, Table 8-3; reset 0). -/
def R.NVT.CNT_RERES.COUNT : Fld := ⟨41288, 0, 32⟩
/-- NVT.CNT_RECON.COUNT [31:0] RO (R321, Table 8-3; reset 0). -/
def R.NVT.CNT_RECON.COUNT : Fld := ⟨41292, 0, 32⟩
/-- NVT.CNT_UNREC.COUNT [31:0] RO (R321, Table 8-3; reset 0). -/
def R.NVT.CNT_UNREC.COUNT : Fld := ⟨41296, 0, 32⟩
/-- NVT.CNT_MAPFAIL.COUNT [31:0] RO (R321, Table 8-3; reset 0). -/
def R.NVT.CNT_MAPFAIL.COUNT : Fld := ⟨41300, 0, 32⟩
/-- NVT.CNT_RECFAIL.COUNT [31:0] RO (R321, Table 8-3; reset 0). -/
def R.NVT.CNT_RECFAIL.COUNT : Fld := ⟨41304, 0, 32⟩
/-- NVT.CNT_LOST.COUNT [31:0] RO (R321, Table 8-3; reset 0). -/
def R.NVT.CNT_LOST.COUNT : Fld := ⟨41308, 0, 32⟩
/-- NVT.CNT_PIFAIL.COUNT [31:0] RO (R321, Table 8-3; reset 0). -/
def R.NVT.CNT_PIFAIL.COUNT : Fld := ⟨41312, 0, 32⟩
/-- NVT.CNT_REREAD_FAIL.COUNT [31:0] RO (R321, Table 8-3; reset 0). -/
def R.NVT.CNT_REREAD_FAIL.COUNT : Fld := ⟨41316, 0, 32⟩
/-- NVT.CNT_CWSTALL.COUNT [31:0] RO (R321, Table 8-3; reset 0). -/
def R.NVT.CNT_CWSTALL.COUNT : Fld := ⟨41320, 0, 32⟩
/-- SGB.LAY_CMD.OP [3:0] WO (R373, Table 9-10; reset 0x0). -/
def R.SGB.LAY_CMD.OP : Fld := ⟨65792, 0, 4⟩
/-- SGB.LAY_CMD.POOL [5:4] WO (R373, Table 9-10; reset 0). -/
def R.SGB.LAY_CMD.POOL : Fld := ⟨65792, 4, 2⟩
/-- SGB.LAY_CMD.MODULE [11:6] WO (R373, Table 9-10; reset 0). -/
def R.SGB.LAY_CMD.MODULE : Fld := ⟨65792, 6, 6⟩
/-- SGB.LAY_STAT.RESULT [7:0] RO (R373, Table 9-10; reset 0x00). -/
def R.SGB.LAY_STAT.RESULT : Fld := ⟨65796, 0, 8⟩
/-- SGB.LAY_STAT.PENDING [8] RO (R373, Table 9-10; reset 0). -/
def R.SGB.LAY_STAT.PENDING : Fld := ⟨65796, 8, 1⟩
/-- SGB.LAY_MASK.MASK [63:0] RW (R373, Table 9-10; reset 0). -/
def R.SGB.LAY_MASK.MASK : Fld := ⟨65800, 0, 64⟩
/-- SGB.LAY_ARG.D [4:0] RW (R373, Table 9-10; reset 0x10). -/
def R.SGB.LAY_ARG.D : Fld := ⟨65808, 0, 5⟩
/-- SGB.LAY_ARG.BALLAST [10:8] RW (R373, Table 9-10; reset 0b101). -/
def R.SGB.LAY_ARG.BALLAST : Fld := ⟨65808, 8, 3⟩
/-- SGB.FDOM.DOM [31:0] RW (R373, Table 9-10; reset 0). -/
def R.SGB.FDOM.DOM (n : Nat) : Fld := ⟨65812 + 4 * n, 0, 32⟩
/-- SGB.DESC_BASE.ADDR [63:0] RWL (R373, Table 9-10; reset 0). -/
def R.SGB.DESC_BASE.ADDR : Fld := ⟨65856, 0, 64⟩
/-- SGB.SEGTAB_BASE.ADDR [63:0] RWL (R373, Table 9-10; reset 0). -/
def R.SGB.SEGTAB_BASE.ADDR : Fld := ⟨65864, 0, 64⟩
/-- SGB.CFG.MAX_DIRTY [9:0] RW (R373, Table 9-10; reset 0x200). -/
def R.SGB.CFG.MAX_DIRTY : Fld := ⟨65872, 0, 10⟩
/-- SGB.CFG.PREOPEN [23:16] RW (R373, Table 9-10; reset 0x10). -/
def R.SGB.CFG.PREOPEN : Fld := ⟨65872, 16, 8⟩
/-- SGB.POOL_SEL.POOL [1:0] RW (R373, Table 9-10; reset 0). -/
def R.SGB.POOL_SEL.POOL : Fld := ⟨65876, 0, 2⟩
/-- SGB.POOL_STAT.STATE [1:0] RO (R373, Table 9-10; reset 0). -/
def R.SGB.POOL_STAT.STATE : Fld := ⟨65880, 0, 2⟩
/-- SGB.POOL_STAT.RESHAPING [2] RO (R373, Table 9-10; reset 0). -/
def R.SGB.POOL_STAT.RESHAPING : Fld := ⟨65880, 2, 1⟩
/-- SGB.POOL_STAT.EXISTS [3] RO (R373, Table 9-10; reset 0). -/
def R.SGB.POOL_STAT.EXISTS : Fld := ⟨65880, 3, 1⟩
/-- SGB.POOL_STAT.NRET [9:4] RO (R373, Table 9-10; reset 0). -/
def R.SGB.POOL_STAT.NRET : Fld := ⟨65880, 4, 6⟩
/-- SGB.POOL_STAT.REBUILT [15:10] RO (R373, Table 9-10; reset 0). -/
def R.SGB.POOL_STAT.REBUILT : Fld := ⟨65880, 10, 6⟩
/-- SGB.POOL_STAT.LAYGEN [31:16] RO (R373, Table 9-10; reset 0). -/
def R.SGB.POOL_STAT.LAYGEN : Fld := ⟨65880, 16, 16⟩
/-- SGB.DIRTY.COUNT [9:0] RO (R373, Table 9-10; reset 0). -/
def R.SGB.DIRTY.COUNT : Fld := ⟨65884, 0, 10⟩
/-- SGB.CNT_DEGRADED.COUNT [31:0] RO (R373, Table 9-10; reset 0). -/
def R.SGB.CNT_DEGRADED.COUNT : Fld := ⟨65888, 0, 32⟩
/-- SGB.CNT_RESYNC.COUNT [31:0] RO (R373, Table 9-10; reset 0). -/
def R.SGB.CNT_RESYNC.COUNT : Fld := ⟨65892, 0, 32⟩
/-- SGB.CNT_ABANDON.COUNT [31:0] RO (R373, Table 9-10; reset 0). -/
def R.SGB.CNT_ABANDON.COUNT : Fld := ⟨65896, 0, 32⟩
/-- SGB.CNT_STALE.COUNT [31:0] RO (R373, Table 9-10; reset 0). -/
def R.SGB.CNT_STALE.COUNT : Fld := ⟨65900, 0, 32⟩
/-- RBE.CFG.GRACE [15:0] RW (R374, Table 9-11; reset 0x001E). -/
def R.RBE.CFG.GRACE : Fld := ⟨69888, 0, 16⟩
/-- RBE.CFG.SHARE [22:16] RW (R374, Table 9-11; reset 0x14). -/
def R.RBE.CFG.SHARE : Fld := ⟨69888, 16, 7⟩
/-- RBE.STAT.RUNNING [0] RO (R374, Table 9-11; reset 0). -/
def R.RBE.STAT.RUNNING : Fld := ⟨69892, 0, 1⟩
/-- RBE.REMAIN.UNITS [63:0] RO (R374, Table 9-11; reset 0). -/
def R.RBE.REMAIN.UNITS : Fld := ⟨69896, 0, 64⟩
/-- RBE.LOST_BASE.ADDR [63:0] RWL (R374, Table 9-11; reset 0). -/
def R.RBE.LOST_BASE.ADDR : Fld := ⟨69904, 0, 64⟩
/-- RBE.LOST_SIZE.ENTRIES [19:0] RWL (R374, Table 9-11; reset 0). -/
def R.RBE.LOST_SIZE.ENTRIES : Fld := ⟨69912, 0, 20⟩
/-- RBE.LOST_WR.INDEX [19:0] RO (R374, Table 9-11; reset 0). -/
def R.RBE.LOST_WR.INDEX : Fld := ⟨69916, 0, 20⟩
/-- RBE.LOST_RD.INDEX [19:0] RW (R374, Table 9-11; reset 0). -/
def R.RBE.LOST_RD.INDEX : Fld := ⟨69920, 0, 20⟩
/-- RBE.CNT_LOST.COUNT [31:0] RO (R374, Table 9-11; reset 0). -/
def R.RBE.CNT_LOST.COUNT : Fld := ⟨69924, 0, 32⟩
/-- RBE.CNT_Q.COUNT [31:0] RO (R374, Table 9-11; reset 0). -/
def R.RBE.CNT_Q.COUNT : Fld := ⟨69928, 0, 32⟩
/-- RBE.CNT_UNREAD.COUNT [31:0] RO (R374, Table 9-11; reset 0). -/
def R.RBE.CNT_UNREAD.COUNT : Fld := ⟨69932, 0, 32⟩
/-- JRN.CFG.FLUSH_NS [15:0] RW (R376, Table 9-12; reset 0x4E20). -/
def R.JRN.CFG.FLUSH_NS : Fld := ⟨73984, 0, 16⟩
/-- JRN.LANE_SEL.LANE [4:0] RW (R376, Table 9-12; reset 0). -/
def R.JRN.LANE_SEL.LANE : Fld := ⟨73988, 0, 5⟩
/-- JRN.LANE_HOME.HOMES [23:0] RO (R376, Table 9-12; reset 0). -/
def R.JRN.LANE_HOME.HOMES : Fld := ⟨73992, 0, 24⟩
/-- JRN.LANE_HOME.COPIES [25:24] RO (R376, Table 9-12; reset 0). -/
def R.JRN.LANE_HOME.COPIES : Fld := ⟨73992, 24, 2⟩
/-- JRN.USE.PCT [6:0] RO (R376, Table 9-12; reset 0). -/
def R.JRN.USE.PCT : Fld := ⟨73996, 0, 7⟩
/-- JRN.CNT_REHOME.COUNT [31:0] RO (R376, Table 9-12; reset 0). -/
def R.JRN.CNT_REHOME.COUNT : Fld := ⟨74000, 0, 32⟩
/-- JRN.CNT_COPYUP.COUNT [31:0] RO (R376, Table 9-12; reset 0). -/
def R.JRN.CNT_COPYUP.COUNT : Fld := ⟨74004, 0, 32⟩
/-- FMM.SHELF_CFG.PCT [4:0] RWL (R419, Table 10-10; reset 0x04). -/
def R.FMM.SHELF_CFG.PCT : Fld := ⟨86272, 0, 5⟩
/-- FMM.SHELF_CFG.LOW [14:8] RW (R419, Table 10-10; reset 0x0A). -/
def R.FMM.SHELF_CFG.LOW : Fld := ⟨86272, 8, 7⟩
/-- FMM.SHELF_CFG.VAULT_BLK [23:16] RO (R419, Table 10-10; reset 0). -/
def R.FMM.SHELF_CFG.VAULT_BLK : Fld := ⟨86272, 16, 8⟩
/-- FMM.GC_CFG.VALID_PCT [6:0] RW (R419, Table 10-10; reset 0x28). -/
def R.FMM.GC_CFG.VALID_PCT : Fld := ⟨86276, 0, 7⟩
/-- FMM.GC_CFG.FREE_LOW [14:8] RW (R419, Table 10-10; reset 0x05). -/
def R.FMM.GC_CFG.FREE_LOW : Fld := ⟨86276, 8, 7⟩
/-- FMM.GC_CFG.SHARE [22:16] RW (R419, Table 10-10; reset 0x14). -/
def R.FMM.GC_CFG.SHARE : Fld := ⟨86276, 16, 7⟩
/-- FMM.GC_CFG.FOLD_MIN [30:24] RW (R419, Table 10-10; reset 0x19). -/
def R.FMM.GC_CFG.FOLD_MIN : Fld := ⟨86276, 24, 7⟩
/-- FMM.WEAR_CFG.SLC_WEIGHT [7:0] RW (R419, Table 10-10; reset 0x06). -/
def R.FMM.WEAR_CFG.SLC_WEIGHT : Fld := ⟨86280, 0, 8⟩
/-- FMM.WEAR_CFG.SPREAD [23:8] RW (R419, Table 10-10; reset 0x0032). -/
def R.FMM.WEAR_CFG.SPREAD : Fld := ⟨86280, 8, 16⟩
/-- FMM.PATROL_CFG.DAYS [4:0] RW (R419, Table 10-10; reset 0x07). -/
def R.FMM.PATROL_CFG.DAYS : Fld := ⟨86284, 0, 5⟩
/-- FMM.PATROL_CFG.REFRESH_BITS [16:8] RW (R419, Table 10-10; reset 0x0A0). -/
def R.FMM.PATROL_CFG.REFRESH_BITS : Fld := ⟨86284, 8, 9⟩
/-- FMM.DISTURB_CFG.SLC_K [15:0] RW (R419, Table 10-10; reset 0x03E8). -/
def R.FMM.DISTURB_CFG.SLC_K : Fld := ⟨86288, 0, 16⟩
/-- FMM.DISTURB_CFG.QLC_K [31:16] RW (R419, Table 10-10; reset 0x0064). -/
def R.FMM.DISTURB_CFG.QLC_K : Fld := ⟨86288, 16, 16⟩
/-- FMM.RR_CFG.SOFT_DELTA [7:0] RW (R419, Table 10-10; reset 0x0C). -/
def R.FMM.RR_CFG.SOFT_DELTA : Fld := ⟨86292, 0, 8⟩
/-- FMM.RR_CFG.MAX_RETRY [11:8] RW (R419, Table 10-10; reset 0xF). -/
def R.FMM.RR_CFG.MAX_RETRY : Fld := ⟨86292, 8, 4⟩
/-- FMM.CFG.PFAIL_RETRY [1:0] RW (R419, Table 10-10; reset 0b10). -/
def R.FMM.CFG.PFAIL_RETRY : Fld := ⟨86296, 0, 2⟩
/-- FMM.CFG.DIE_MAX [13:8] RW (R419, Table 10-10; reset 0x04). -/
def R.FMM.CFG.DIE_MAX : Fld := ⟨86296, 8, 6⟩
/-- FMM.CFG.BAD_MAX [22:16] RW (R419, Table 10-10; reset 0x02). -/
def R.FMM.CFG.BAD_MAX : Fld := ⟨86296, 16, 7⟩
/-- FMM.PT_BASE.ADDR [63:0] RWL (R419, Table 10-10; reset 0). -/
def R.FMM.PT_BASE.ADDR : Fld := ⟨86304, 0, 64⟩
/-- FMM.BT_BASE.ADDR [63:0] RWL (R419, Table 10-10; reset 0). -/
def R.FMM.BT_BASE.ADDR : Fld := ⟨86312, 0, 64⟩
/-- FMM.DIE_SEL.MODULE [5:0] RW (R419, Table 10-10; reset 0). -/
def R.FMM.DIE_SEL.MODULE : Fld := ⟨86320, 0, 6⟩
/-- FMM.DIE_SEL.DIE [11:6] RW (R419, Table 10-10; reset 0). -/
def R.FMM.DIE_SEL.DIE : Fld := ⟨86320, 6, 6⟩
/-- FMM.DIE_STAT.BAD [13:0] RO (R419, Table 10-10; reset 0). -/
def R.FMM.DIE_STAT.BAD : Fld := ⟨86324, 0, 14⟩
/-- FMM.DIE_STAT.FAILED [14] RO (R419, Table 10-10; reset 0). -/
def R.FMM.DIE_STAT.FAILED : Fld := ⟨86324, 14, 1⟩
/-- FMM.DIE_STAT.OWNED [15] RO (R419, Table 10-10; reset 0). -/
def R.FMM.DIE_STAT.OWNED : Fld := ⟨86324, 15, 1⟩
/-- FMM.DIE_STAT.SHELF [27:16] RO (R419, Table 10-10; reset 0). -/
def R.FMM.DIE_STAT.SHELF : Fld := ⟨86324, 16, 12⟩
/-- FMM.FOLD_BACKLOG.SEGS [24:0] RO (R419, Table 10-10; reset 0). -/
def R.FMM.FOLD_BACKLOG.SEGS : Fld := ⟨86328, 0, 25⟩
/-- FMM.PATROL_STAT.PHASE [15:0] RO (R419, Table 10-10; reset 0). -/
def R.FMM.PATROL_STAT.PHASE : Fld := ⟨86332, 0, 16⟩
/-- FMM.CNT_FOLD.COUNT [63:0] RO (R419, Table 10-10; reset 0). -/
def R.FMM.CNT_FOLD.COUNT : Fld := ⟨86336, 0, 64⟩
/-- FMM.CNT_ERASE.COUNT [63:0] RO (R419, Table 10-10; reset 0). -/
def R.FMM.CNT_ERASE.COUNT : Fld := ⟨86344, 0, 64⟩
/-- FMM.CNT_RELOC.COUNT [63:0] RO (R419, Table 10-10; reset 0). -/
def R.FMM.CNT_RELOC.COUNT : Fld := ⟨86352, 0, 64⟩
/-- FMM.CNT_RELOC_STALE.COUNT [31:0] RO (R419, Table 10-10; reset 0). -/
def R.FMM.CNT_RELOC_STALE.COUNT : Fld := ⟨86360, 0, 32⟩
/-- FMM.CNT_FOLD_ABORT.COUNT [31:0] RO (R419, Table 10-10; reset 0). -/
def R.FMM.CNT_FOLD_ABORT.COUNT : Fld := ⟨86364, 0, 32⟩
/-- FMM.CNT_MOVE.COUNT [31:0] RO (R419, Table 10-10; reset 0). -/
def R.FMM.CNT_MOVE.COUNT : Fld := ⟨86368, 0, 32⟩
/-- FMM.CNT_REFRESH.COUNT [31:0] RO (R419, Table 10-10; reset 0). -/
def R.FMM.CNT_REFRESH.COUNT : Fld := ⟨86372, 0, 32⟩
/-- FMM.CNT_PFAIL.COUNT [31:0] RO (R419, Table 10-10; reset 0). -/
def R.FMM.CNT_PFAIL.COUNT : Fld := ⟨86376, 0, 32⟩
/-- FMM.CNT_EFAIL.COUNT [31:0] RO (R419, Table 10-10; reset 0). -/
def R.FMM.CNT_EFAIL.COUNT : Fld := ⟨86380, 0, 32⟩
/-- FMM.CNT_PATROL_UNREC.COUNT [31:0] RO (R419, Table 10-10; reset 0). -/
def R.FMM.CNT_PATROL_UNREC.COUNT : Fld := ⟨86384, 0, 32⟩
/-- LDC.CFG.HARD_ITER [5:0] RW (R420, Table 10-11; reset 0x10). -/
def R.LDC.CFG.HARD_ITER : Fld := ⟨90368, 0, 6⟩
/-- LDC.CFG.SOFT_ITER [13:8] RW (R420, Table 10-11; reset 0x20). -/
def R.LDC.CFG.SOFT_ITER : Fld := ⟨90368, 8, 6⟩
/-- LDC.CFG.SOFT_EN [16] RW (R420, Table 10-11; reset 1). -/
def R.LDC.CFG.SOFT_EN : Fld := ⟨90368, 16, 1⟩
/-- LDC.STAT.HARD [6:0] RO (R420, Table 10-11; reset 0x40). -/
def R.LDC.STAT.HARD : Fld := ⟨90372, 0, 7⟩
/-- LDC.STAT.SOFT [11:8] RO (R420, Table 10-11; reset 0x8). -/
def R.LDC.STAT.SOFT : Fld := ⟨90372, 8, 4⟩
/-- LDC.CNT_DEC.COUNT [63:0] RO (R420, Table 10-11; reset 0). -/
def R.LDC.CNT_DEC.COUNT : Fld := ⟨90376, 0, 64⟩
/-- LDC.CNT_SOFT.COUNT [31:0] RO (R420, Table 10-11; reset 0). -/
def R.LDC.CNT_SOFT.COUNT : Fld := ⟨90384, 0, 32⟩
/-- LDC.CNT_RETRY.COUNT [31:0] RO (R420, Table 10-11; reset 0). -/
def R.LDC.CNT_RETRY.COUNT : Fld := ⟨90388, 0, 32⟩
/-- LDC.CNT_FAIL.COUNT [31:0] RO (R420, Table 10-11; reset 0). -/
def R.LDC.CNT_FAIL.COUNT : Fld := ⟨90392, 0, 32⟩
/-- LDC.CNT_META.COUNT [31:0] RO (R420, Table 10-11; reset 0). -/
def R.LDC.CNT_META.COUNT : Fld := ⟨90396, 0, 32⟩
/-- LDC.BER_HIST.COUNT [31:0] RO (R420, Table 10-11; reset 0). -/
def R.LDC.BER_HIST.COUNT (n : Nat) : Fld := ⟨90432 + 4 * n, 0, 32⟩
/-- JLK.POS_SEL.POS [3:0] RW (R455, Table 11-15; reset 0). -/
def R.JLK.POS_SEL.POS (inst : Nat) : Fld := ⟨(23 + inst) * 4096 + 256, 0, 4⟩
/-- JLK.LINK_STAT.STATE [2:0] RO (R455, Table 11-15; reset 0). -/
def R.JLK.LINK_STAT.STATE (inst : Nat) : Fld := ⟨(23 + inst) * 4096 + 260, 0, 3⟩
/-- JLK.LINK_STAT.RATE [4:3] RO (R455, Table 11-15; reset 0). -/
def R.JLK.LINK_STAT.RATE (inst : Nat) : Fld := ⟨(23 + inst) * 4096 + 260, 3, 2⟩
/-- JLK.LINK_STAT.LANES [6:5] RO (R455, Table 11-15; reset 0). -/
def R.JLK.LINK_STAT.LANES (inst : Nat) : Fld := ⟨(23 + inst) * 4096 + 260, 5, 2⟩
/-- JLK.LINK_STAT.PRESENT [7] RO (R455, Table 11-15; reset 0). -/
def R.JLK.LINK_STAT.PRESENT (inst : Nat) : Fld := ⟨(23 + inst) * 4096 + 260, 7, 1⟩
/-- JLK.LINK_STAT.VER [11:8] RO (R455, Table 11-15; reset 0). -/
def R.JLK.LINK_STAT.VER (inst : Nat) : Fld := ⟨(23 + inst) * 4096 + 260, 8, 4⟩
/-- JLK.LINK_STAT.READY [12] RO (R455, Table 11-15; reset 0). -/
def R.JLK.LINK_STAT.READY (inst : Nat) : Fld := ⟨(23 + inst) * 4096 + 260, 12, 1⟩
/-- JLK.LINK_STAT.REASON [15:13] RO (R455, Table 11-15; reset 0). -/
def R.JLK.LINK_STAT.REASON (inst : Nat) : Fld := ⟨(23 + inst) * 4096 + 260, 13, 3⟩
/-- JLK.CFG.MAX_VER [3:0] RWL (R455, Table 11-15; reset 0x5). -/
def R.JLK.CFG.MAX_VER (inst : Nat) : Fld := ⟨(23 + inst) * 4096 + 264, 0, 4⟩
/-- JLK.CFG.MIN_VER [7:4] RWL (R455, Table 11-15; reset 0x1). -/
def R.JLK.CFG.MIN_VER (inst : Nat) : Fld := ⟨(23 + inst) * 4096 + 264, 4, 4⟩
/-- JLK.CFG.TIMEOUT_MS [15:8] RW (R455, Table 11-15; reset 0x64). -/
def R.JLK.CFG.TIMEOUT_MS (inst : Nat) : Fld := ⟨(23 + inst) * 4096 + 264, 8, 8⟩
/-- JLK.CFG.RETRY_MAX [23:16] RW (R455, Table 11-15; reset 0x10). -/
def R.JLK.CFG.RETRY_MAX (inst : Nat) : Fld := ⟨(23 + inst) * 4096 + 264, 16, 8⟩
/-- JLK.CFG.POLL_MS [31:24] RW (R455, Table 11-15; reset 0x0A). -/
def R.JLK.CFG.POLL_MS (inst : Nat) : Fld := ⟨(23 + inst) * 4096 + 264, 24, 8⟩
/-- JLK.CFG2.RXCRED [15:0] RWL (R455, Table 11-15; reset 0x0400). -/
def R.JLK.CFG2.RXCRED (inst : Nat) : Fld := ⟨(23 + inst) * 4096 + 268, 0, 16⟩
/-- JLK.CFG2.RETRAIN_MS [23:16] RW (R455, Table 11-15; reset 0x64). -/
def R.JLK.CFG2.RETRAIN_MS (inst : Nat) : Fld := ⟨(23 + inst) * 4096 + 268, 16, 8⟩
/-- JLK.CLAIM_CMD.OP [1:0] WO (R455, Table 11-15; reset 0). -/
def R.JLK.CLAIM_CMD.OP (inst : Nat) : Fld := ⟨(23 + inst) * 4096 + 272, 0, 2⟩
/-- JLK.CLAIM_CMD.POSMASK [17:2] WO (R455, Table 11-15; reset 0). -/
def R.JLK.CLAIM_CMD.POSMASK (inst : Nat) : Fld := ⟨(23 + inst) * 4096 + 272, 2, 16⟩
/-- JLK.CLAIM_GEN.GEN [31:0] RW (R455, Table 11-15; reset 0). -/
def R.JLK.CLAIM_GEN.GEN (inst : Nat) : Fld := ⟨(23 + inst) * 4096 + 276, 0, 32⟩
/-- JLK.CLAIM_DIES.MASK [63:0] RW (R455, Table 11-15; reset 0). -/
def R.JLK.CLAIM_DIES.MASK (inst : Nat) : Fld := ⟨(23 + inst) * 4096 + 280, 0, 64⟩
/-- JLK.CLAIM_STAT.DONE [15:0] RO (R455, Table 11-15; reset 0). -/
def R.JLK.CLAIM_STAT.DONE (inst : Nat) : Fld := ⟨(23 + inst) * 4096 + 288, 0, 16⟩
/-- JLK.CLAIM_STAT.FAIL [31:16] RO (R455, Table 11-15; reset 0). -/
def R.JLK.CLAIM_STAT.FAIL (inst : Nat) : Fld := ⟨(23 + inst) * 4096 + 288, 16, 16⟩
/-- JLK.WIT_CFG.PERIOD_MS [7:0] RWL (R455, Table 11-15; reset 0x05). -/
def R.JLK.WIT_CFG.PERIOD_MS (inst : Nat) : Fld := ⟨(23 + inst) * 4096 + 292, 0, 8⟩
/-- JLK.WIT_CFG.EN [8] RW (R455, Table 11-15; reset 0). -/
def R.JLK.WIT_CFG.EN (inst : Nat) : Fld := ⟨(23 + inst) * 4096 + 292, 8, 1⟩
/-- JLK.WIT_AGE.MS [15:0] RO (R455, Table 11-15; reset 0). -/
def R.JLK.WIT_AGE.MS (inst : Nat) : Fld := ⟨(23 + inst) * 4096 + 296, 0, 16⟩
/-- JLK.MAXGEN.GEN [31:0] RO (R455, Table 11-15; reset 0). -/
def R.JLK.MAXGEN.GEN (inst : Nat) : Fld := ⟨(23 + inst) * 4096 + 300, 0, 32⟩
/-- JLK.CNT_CRC.COUNT [31:0] RO (R455, Table 11-15; reset 0). -/
def R.JLK.CNT_CRC.COUNT (inst : Nat) : Fld := ⟨(23 + inst) * 4096 + 304, 0, 32⟩
/-- JLK.CNT_SEQ.COUNT [31:0] RO (R455, Table 11-15; reset 0). -/
def R.JLK.CNT_SEQ.COUNT (inst : Nat) : Fld := ⟨(23 + inst) * 4096 + 308, 0, 32⟩
/-- JLK.CNT_LEN.COUNT [31:0] RO (R455, Table 11-15; reset 0). -/
def R.JLK.CNT_LEN.COUNT (inst : Nat) : Fld := ⟨(23 + inst) * 4096 + 312, 0, 32⟩
/-- JLK.CNT_CREDIT.COUNT [31:0] RO (R455, Table 11-15; reset 0). -/
def R.JLK.CNT_CREDIT.COUNT (inst : Nat) : Fld := ⟨(23 + inst) * 4096 + 316, 0, 32⟩
/-- JLK.CNT_REPLAY.COUNT [31:0] RO (R455, Table 11-15; reset 0). -/
def R.JLK.CNT_REPLAY.COUNT (inst : Nat) : Fld := ⟨(23 + inst) * 4096 + 320, 0, 32⟩
/-- JLK.CNT_STALE.COUNT [31:0] RO (R455, Table 11-15; reset 0). -/
def R.JLK.CNT_STALE.COUNT (inst : Nat) : Fld := ⟨(23 + inst) * 4096 + 324, 0, 32⟩
/-- JLK.CNT_TIMEOUT.COUNT [31:0] RO (R455, Table 11-15; reset 0). -/
def R.JLK.CNT_TIMEOUT.COUNT (inst : Nat) : Fld := ⟨(23 + inst) * 4096 + 328, 0, 32⟩
/-- JLK.CNT_OWNER.COUNT [31:0] RO (R455, Table 11-15; reset 0). -/
def R.JLK.CNT_OWNER.COUNT (inst : Nat) : Fld := ⟨(23 + inst) * 4096 + 332, 0, 32⟩
/-- JLK.CNT_RETRAIN.COUNT [31:0] RO (R455, Table 11-15; reset 0). -/
def R.JLK.CNT_RETRAIN.COUNT (inst : Nat) : Fld := ⟨(23 + inst) * 4096 + 336, 0, 32⟩
/-- JLK.OUTSTANDING.TAGS [12:0] RO (R455, Table 11-15; reset 0). -/
def R.JLK.OUTSTANDING.TAGS (inst : Nat) : Fld := ⟨(23 + inst) * 4096 + 340, 0, 13⟩
/-- CPL.LINK_STAT.STATE [2:0] RO (R499, Table 12-11; reset 0). -/
def R.CPL.LINK_STAT.STATE : Fld := ⟨110848, 0, 3⟩
/-- CPL.LINK_STAT.LANES [8:3] RO (R499, Table 12-11; reset 0). -/
def R.CPL.LINK_STAT.LANES : Fld := ⟨110848, 3, 6⟩
/-- CPL.LINK_STAT.VER [12:9] RO (R499, Table 12-11; reset 0). -/
def R.CPL.LINK_STAT.VER : Fld := ⟨110848, 9, 4⟩
/-- CPL.LINK_STAT.GCM [13] RO (R499, Table 12-11; reset 0). -/
def R.CPL.LINK_STAT.GCM : Fld := ⟨110848, 13, 1⟩
/-- CPL.LINK_STAT.HALF [14] RO (R499, Table 12-11; reset 0). -/
def R.CPL.LINK_STAT.HALF : Fld := ⟨110848, 14, 1⟩
/-- CPL.CFG.MIN_VER [3:0] RWL (R499, Table 12-11; reset 0x0). -/
def R.CPL.CFG.MIN_VER : Fld := ⟨110852, 0, 4⟩
/-- CPL.CFG.MAX_VER [7:4] RWL (R499, Table 12-11; reset 0x4). -/
def R.CPL.CFG.MAX_VER : Fld := ⟨110852, 4, 4⟩
/-- CPL.CFG.GCM_REQ [8] RWL (R499, Table 12-11; reset 1). -/
def R.CPL.CFG.GCM_REQ : Fld := ⟨110852, 8, 1⟩
/-- CPL.CFG.RETRAIN_MS [23:16] RW (R499, Table 12-11; reset 0x64). -/
def R.CPL.CFG.RETRAIN_MS : Fld := ⟨110852, 16, 8⟩
/-- CPL.CFG.SPLIT_MS [31:24] RW (R499, Table 12-11; reset 0x1E). -/
def R.CPL.CFG.SPLIT_MS : Fld := ⟨110852, 24, 8⟩
/-- CPL.CFG2.HB_US [9:0] RW (R499, Table 12-11; reset 0x064). -/
def R.CPL.CFG2.HB_US : Fld := ⟨110856, 0, 10⟩
/-- CPL.CFG2.LACK_US [23:16] RW (R499, Table 12-11; reset 0x05). -/
def R.CPL.CFG2.LACK_US : Fld := ⟨110856, 16, 8⟩
/-- CPL.CFG2.REKEY_H [31:24] RW (R499, Table 12-11; reset 0x18). -/
def R.CPL.CFG2.REKEY_H : Fld := ⟨110856, 24, 8⟩
/-- CPL.KEY.SLOT [11:0] RWL (R499, Table 12-11; reset 0). -/
def R.CPL.KEY.SLOT : Fld := ⟨110860, 0, 12⟩
/-- CPL.KEY.VALID [31] RWL (R499, Table 12-11; reset 0). -/
def R.CPL.KEY.VALID : Fld := ⟨110860, 31, 1⟩
/-- CPL.ACVER.MINOR [3:0] RO (R499, Table 12-11; reset 0). -/
def R.CPL.ACVER.MINOR : Fld := ⟨110864, 0, 4⟩
/-- CPL.JOIN_STAT.PHASE [3:0] RO (R499, Table 12-11; reset 0). -/
def R.CPL.JOIN_STAT.PHASE : Fld := ⟨110868, 0, 4⟩
/-- CPL.JOIN_STAT.REASON [11:4] RO (R499, Table 12-11; reset 0). -/
def R.CPL.JOIN_STAT.REASON : Fld := ⟨110868, 4, 8⟩
/-- CPL.JOIN_STAT.SHORT [31:12] RO (R499, Table 12-11; reset 0). -/
def R.CPL.JOIN_STAT.SHORT : Fld := ⟨110868, 12, 20⟩
/-- CPL.CH_SEL.CHAN [2:0] RW (R499, Table 12-11; reset 0x1). -/
def R.CPL.CH_SEL.CHAN : Fld := ⟨110872, 0, 3⟩
/-- CPL.CNT_CRC.COUNT [31:0] RO (R499, Table 12-11; reset 0). -/
def R.CPL.CNT_CRC.COUNT : Fld := ⟨110876, 0, 32⟩
/-- CPL.CNT_SEQ.COUNT [31:0] RO (R499, Table 12-11; reset 0). -/
def R.CPL.CNT_SEQ.COUNT : Fld := ⟨110880, 0, 32⟩
/-- CPL.CNT_LEN.COUNT [31:0] RO (R499, Table 12-11; reset 0). -/
def R.CPL.CNT_LEN.COUNT : Fld := ⟨110884, 0, 32⟩
/-- CPL.CNT_CREDIT.COUNT [31:0] RO (R499, Table 12-11; reset 0). -/
def R.CPL.CNT_CREDIT.COUNT : Fld := ⟨110888, 0, 32⟩
/-- CPL.CNT_AUTH.COUNT [31:0] RO (R499, Table 12-11; reset 0). -/
def R.CPL.CNT_AUTH.COUNT : Fld := ⟨110892, 0, 32⟩
/-- CPL.CNT_REPLAY.COUNT [31:0] RO (R499, Table 12-11; reset 0). -/
def R.CPL.CNT_REPLAY.COUNT : Fld := ⟨110896, 0, 32⟩
/-- CPL.CNT_STALE.COUNT [31:0] RO (R499, Table 12-11; reset 0). -/
def R.CPL.CNT_STALE.COUNT : Fld := ⟨110900, 0, 32⟩
/-- CPL.CNT_RETRAIN.COUNT [31:0] RO (R499, Table 12-11; reset 0). -/
def R.CPL.CNT_RETRAIN.COUNT : Fld := ⟨110904, 0, 32⟩
/-- CPL.HB_AGE.US [23:0] RO (R499, Table 12-11; reset 0xFF_FFFF). -/
def R.CPL.HB_AGE.US : Fld := ⟨110908, 0, 24⟩
/-- RPL.CMD.OP [3:0] WO (R528, Table 13-7; reset 0x0). -/
def R.RPL.CMD.OP : Fld := ⟨114944, 0, 4⟩
/-- RPL.CMD.INDEX [13:4] WO (R528, Table 13-7; reset 0). -/
def R.RPL.CMD.INDEX : Fld := ⟨114944, 4, 10⟩
/-- RPL.CMD_STAT.RESULT [7:0] RO (R528, Table 13-7; reset 0x00). -/
def R.RPL.CMD_STAT.RESULT : Fld := ⟨114948, 0, 8⟩
/-- RPL.CMD_STAT.PENDING [8] RO (R528, Table 13-7; reset 0). -/
def R.RPL.CMD_STAT.PENDING : Fld := ⟨114948, 8, 1⟩
/-- RPL.CFG.PORT [15:0] RWL (R528, Table 13-7; reset 0x1D17). -/
def R.RPL.CFG.PORT : Fld := ⟨114952, 0, 16⟩
/-- RPL.CFG.MIN_VER [19:16] RWL (R528, Table 13-7; reset 0x1). -/
def R.RPL.CFG.MIN_VER : Fld := ⟨114952, 16, 4⟩
/-- RPL.CFG.MAX_VER [23:20] RWL (R528, Table 13-7; reset 0x3). -/
def R.RPL.CFG.MAX_VER : Fld := ⟨114952, 20, 4⟩
/-- RPL.CFG.IDLE_S [31:24] RW (R528, Table 13-7; reset 0x1E). -/
def R.RPL.CFG.IDLE_S : Fld := ⟨114952, 24, 8⟩
/-- RPL.CFG2.WCSHARE [11:0] RW (R528, Table 13-7; reset 0x040). -/
def R.RPL.CFG2.WCSHARE : Fld := ⟨114956, 0, 12⟩
/-- RPL.CFG2.WINDOW [24:16] RW (R528, Table 13-7; reset 0x100). -/
def R.RPL.CFG2.WINDOW : Fld := ⟨114956, 16, 9⟩
/-- RPL.KEY.SLOT [11:0] RWL (R528, Table 13-7; reset 0). -/
def R.RPL.KEY.SLOT : Fld := ⟨114960, 0, 12⟩
/-- RPL.KEY.VALID [31] RWL (R528, Table 13-7; reset 0). -/
def R.RPL.KEY.VALID : Fld := ⟨114960, 31, 1⟩
/-- RPL.CPH_BASE.SLOT [12:0] RWL (R528, Table 13-7; reset 0). -/
def R.RPL.CPH_BASE.SLOT : Fld := ⟨114964, 0, 13⟩
/-- RPL.OUT_BASE.ADDR [63:0] RWL (R528, Table 13-7; reset 0). -/
def R.RPL.OUT_BASE.ADDR : Fld := ⟨114968, 0, 64⟩
/-- RPL.IN_BASE.ADDR [63:0] RWL (R528, Table 13-7; reset 0). -/
def R.RPL.IN_BASE.ADDR : Fld := ⟨114976, 0, 64⟩
/-- RPL.SEL.SESSION [5:0] RW (R528, Table 13-7; reset 0). -/
def R.RPL.SEL.SESSION : Fld := ⟨114984, 0, 6⟩
/-- RPL.SESS_STAT.STATE [3:0] RO (R528, Table 13-7; reset 0). -/
def R.RPL.SESS_STAT.STATE : Fld := ⟨114988, 0, 4⟩
/-- RPL.SESS_STAT.DIR [4] RO (R528, Table 13-7; reset 0). -/
def R.RPL.SESS_STAT.DIR : Fld := ⟨114988, 4, 1⟩
/-- RPL.SESS_STAT.VER [11:8] RO (R528, Table 13-7; reset 0). -/
def R.RPL.SESS_STAT.VER : Fld := ⟨114988, 8, 4⟩
/-- RPL.SESS_ABORT.CODE [15:0] RO (R528, Table 13-7; reset 0). -/
def R.RPL.SESS_ABORT.CODE : Fld := ⟨114992, 0, 16⟩
/-- RPL.SESS_ABORT.SENT [16] RO (R528, Table 13-7; reset 0). -/
def R.RPL.SESS_ABORT.SENT : Fld := ⟨114992, 16, 1⟩
/-- RPL.SESS_GRAINS.COUNT [63:0] RO (R528, Table 13-7; reset 0). -/
def R.RPL.SESS_GRAINS.COUNT : Fld := ⟨114996, 0, 64⟩
/-- RPL.SESS_SENT.COUNT [63:0] RO (R528, Table 13-7; reset 0). -/
def R.RPL.SESS_SENT.COUNT : Fld := ⟨115004, 0, 64⟩
/-- RPL.SESS_BYTES.COUNT [63:0] RO (R528, Table 13-7; reset 0). -/
def R.RPL.SESS_BYTES.COUNT : Fld := ⟨115012, 0, 64⟩
/-- RPL.CNT_LENGTH.COUNT [31:0] RO (R528, Table 13-7; reset 0). -/
def R.RPL.CNT_LENGTH.COUNT : Fld := ⟨115020, 0, 32⟩
/-- RPL.CNT_ABORT.COUNT [31:0] RO (R528, Table 13-7; reset 0). -/
def R.RPL.CNT_ABORT.COUNT : Fld := ⟨115024, 0, 32⟩
/-- DGE.CFG.LONG_CORES [6:0] RW (R569, Table 14-9; reset 0x08). -/
def R.DGE.CFG.LONG_CORES : Fld := ⟨53504, 0, 7⟩
/-- DGE.CFG.CHAIN_US [15:8] RW (R569, Table 14-9; reset 0x0A). -/
def R.DGE.CFG.CHAIN_US : Fld := ⟨53504, 8, 8⟩
/-- DGE.STAT.CORES [6:0] RO (R569, Table 14-9; reset 0x60). -/
def R.DGE.STAT.CORES : Fld := ⟨53508, 0, 7⟩
/-- DGE.STAT.BUSY [14:8] RO (R569, Table 14-9; reset 0). -/
def R.DGE.STAT.BUSY : Fld := ⟨53508, 8, 7⟩
/-- DGE.FWQ_BASE.ADDR [63:0] RWL (R569, Table 14-9; reset 0). -/
def R.DGE.FWQ_BASE.ADDR : Fld := ⟨53512, 0, 64⟩
/-- DGE.FWQ_SIZE.ENTRIES [16:0] RWL (R569, Table 14-9; reset 0). -/
def R.DGE.FWQ_SIZE.ENTRIES : Fld := ⟨53520, 0, 17⟩
/-- DGE.FWQ_WR.INDEX [15:0] RW (R569, Table 14-9; reset 0). -/
def R.DGE.FWQ_WR.INDEX : Fld := ⟨53524, 0, 16⟩
/-- DGE.FWQ_RD.INDEX [15:0] RO (R569, Table 14-9; reset 0). -/
def R.DGE.FWQ_RD.INDEX : Fld := ⟨53528, 0, 16⟩
/-- DGE.SLOT_SEL.SLOT [11:0] RW (R569, Table 14-9; reset 0). -/
def R.DGE.SLOT_SEL.SLOT : Fld := ⟨53532, 0, 12⟩
/-- DGE.SLOT_INFO.KIND [1:0] RO (R569, Table 14-9; reset 0). -/
def R.DGE.SLOT_INFO.KIND : Fld := ⟨53536, 0, 2⟩
/-- DGE.CNT_MSG.COUNT [63:0] RO (R569, Table 14-9; reset 0). -/
def R.DGE.CNT_MSG.COUNT : Fld := ⟨53544, 0, 64⟩
/-- DGE.CNT_CMP.COUNT [31:0] RO (R569, Table 14-9; reset 0). -/
def R.DGE.CNT_CMP.COUNT : Fld := ⟨53552, 0, 32⟩
/-- DGE.CNT_FAIL.COUNT [31:0] RO (R569, Table 14-9; reset 0). -/
def R.DGE.CNT_FAIL.COUNT : Fld := ⟨53556, 0, 32⟩
/-- CPH.CFG.LONG_CORES [5:0] RW (R570, Table 14-10; reset 0x08). -/
def R.CPH.CFG.LONG_CORES : Fld := ⟨61696, 0, 6⟩
/-- CPH.CFG.AGE_US [15:8] RW (R570, Table 14-10; reset 0x64). -/
def R.CPH.CFG.AGE_US : Fld := ⟨61696, 8, 8⟩
/-- CPH.STAT.CORES [5:0] RO (R570, Table 14-10; reset 0x30). -/
def R.CPH.STAT.CORES : Fld := ⟨61700, 0, 6⟩
/-- CPH.STAT.BUSY [13:8] RO (R570, Table 14-10; reset 0). -/
def R.CPH.STAT.BUSY : Fld := ⟨61700, 8, 6⟩
/-- CPH.CLASS_MAP.VAULT [3:0] RW (R570, Table 14-10; reset 0x0). -/
def R.CPH.CLASS_MAP.VAULT : Fld := ⟨61704, 0, 4⟩
/-- CPH.CLASS_MAP.READ [7:4] RW (R570, Table 14-10; reset 0x2). -/
def R.CPH.CLASS_MAP.READ : Fld := ⟨61704, 4, 4⟩
/-- CPH.CLASS_MAP.WRITE [11:8] RW (R570, Table 14-10; reset 0x3). -/
def R.CPH.CLASS_MAP.WRITE : Fld := ⟨61704, 8, 4⟩
/-- CPH.CLASS_MAP.RPL [15:12] RW (R570, Table 14-10; reset 0x8). -/
def R.CPH.CLASS_MAP.RPL : Fld := ⟨61704, 12, 4⟩
/-- CPH.CLASS_MAP.SLM [19:16] RW (R570, Table 14-10; reset 0xA). -/
def R.CPH.CLASS_MAP.SLM : Fld := ⟨61704, 16, 4⟩
/-- CPH.CLASS_MAP.FW [23:20] RW (R570, Table 14-10; reset 0xC). -/
def R.CPH.CLASS_MAP.FW : Fld := ⟨61704, 20, 4⟩
/-- CPH.FWQ_BASE.ADDR [63:0] RWL (R570, Table 14-10; reset 0). -/
def R.CPH.FWQ_BASE.ADDR : Fld := ⟨61712, 0, 64⟩
/-- CPH.FWQ_SIZE.ENTRIES [16:0] RWL (R570, Table 14-10; reset 0). -/
def R.CPH.FWQ_SIZE.ENTRIES : Fld := ⟨61720, 0, 17⟩
/-- CPH.FWQ_WR.INDEX [15:0] RW (R570, Table 14-10; reset 0). -/
def R.CPH.FWQ_WR.INDEX : Fld := ⟨61724, 0, 16⟩
/-- CPH.FWQ_RD.INDEX [15:0] RO (R570, Table 14-10; reset 0). -/
def R.CPH.FWQ_RD.INDEX : Fld := ⟨61728, 0, 16⟩
/-- CPH.SLOT_SEL.SLOT [12:0] RW (R570, Table 14-10; reset 0). -/
def R.CPH.SLOT_SEL.SLOT : Fld := ⟨61732, 0, 13⟩
/-- CPH.SLOT_INFO.KIND [1:0] RO (R570, Table 14-10; reset 0). -/
def R.CPH.SLOT_INFO.KIND : Fld := ⟨61736, 0, 2⟩
/-- CPH.SLOT_INVOC.COUNT [31:0] RO (R570, Table 14-10; reset 0). -/
def R.CPH.SLOT_INVOC.COUNT : Fld := ⟨61740, 0, 32⟩
/-- CPH.CNT_REQ.COUNT [63:0] RO (R570, Table 14-10; reset 0). -/
def R.CPH.CNT_REQ.COUNT : Fld := ⟨61744, 0, 64⟩
/-- CPH.CNT_AUTH.COUNT [31:0] RO (R570, Table 14-10; reset 0). -/
def R.CPH.CNT_AUTH.COUNT : Fld := ⟨61752, 0, 32⟩
/-- CPH.CNT_AGED.COUNT [31:0] RO (R570, Table 14-10; reset 0). -/
def R.CPH.CNT_AGED.COUNT : Fld := ⟨61756, 0, 32⟩
/-- SEC.STAT.READY [0] RO (R571, Table 14-11; reset 0). -/
def R.SEC.STAT.READY : Fld := ⟨16640, 0, 1⟩
/-- SEC.STAT.ZEROISED [1] RO (R571, Table 14-11; reset 0). -/
def R.SEC.STAT.ZEROISED : Fld := ⟨16640, 1, 1⟩
/-- SEC.STAT.RNG [3:2] RO (R571, Table 14-11; reset 0b11). -/
def R.SEC.STAT.RNG : Fld := ⟨16640, 2, 2⟩
/-- SEC.STAT.IDENTITY [4] RO (R571, Table 14-11; reset 0). -/
def R.SEC.STAT.IDENTITY : Fld := ⟨16640, 4, 1⟩
/-- SEC.ALARM.SRC [4:0] RO (R571, Table 14-11; reset 0). -/
def R.SEC.ALARM.SRC : Fld := ⟨16644, 0, 5⟩
/-- SEC.CFG.CLEAR_IMPORT [0] RWL (R571, Table 14-11; reset 1). -/
def R.SEC.CFG.CLEAR_IMPORT : Fld := ⟨16648, 0, 1⟩
/-- SEC.CFG.TAMPER_EN [1] RWL (R571, Table 14-11; reset 1). -/
def R.SEC.CFG.TAMPER_EN : Fld := ⟨16648, 1, 1⟩
/-- SEC.CFG.QUOTE_PER_H [15:8] RWL (R571, Table 14-11; reset 0x0C). -/
def R.SEC.CFG.QUOTE_PER_H : Fld := ⟨16648, 8, 8⟩
/-- SEC.CFG.BOOT_CORES [22:16] RWL (R571, Table 14-11; reset 0x10). -/
def R.SEC.CFG.BOOT_CORES : Fld := ⟨16648, 16, 7⟩
/-- SEC.KEY_CMD.OP [3:0] WO (R571, Table 14-11; reset 0x0). -/
def R.SEC.KEY_CMD.OP : Fld := ⟨16652, 0, 4⟩
/-- SEC.KEY_CMD.ENGINE [4] WO (R571, Table 14-11; reset 0). -/
def R.SEC.KEY_CMD.ENGINE : Fld := ⟨16652, 4, 1⟩
/-- SEC.KEY_CMD.SLOT [17:5] WO (R571, Table 14-11; reset 0). -/
def R.SEC.KEY_CMD.SLOT : Fld := ⟨16652, 5, 13⟩
/-- SEC.KEY_ARG.KIND [1:0] RW (R571, Table 14-11; reset 0). -/
def R.SEC.KEY_ARG.KIND : Fld := ⟨16656, 0, 2⟩
/-- SEC.KEY_ARG.TVALID [2] RW (R571, Table 14-11; reset 0). -/
def R.SEC.KEY_ARG.TVALID : Fld := ⟨16656, 2, 1⟩
/-- SEC.KEY_ARG.TSLOT [15:4] RW (R571, Table 14-11; reset 0). -/
def R.SEC.KEY_ARG.TSLOT : Fld := ⟨16656, 4, 12⟩
/-- SEC.KEY_KID.KID [63:0] RW (R571, Table 14-11; reset 0). -/
def R.SEC.KEY_KID.KID : Fld := ⟨16664, 0, 64⟩
/-- SEC.KEY_IN.ADDR [63:0] RW (R571, Table 14-11; reset 0). -/
def R.SEC.KEY_IN.ADDR : Fld := ⟨16672, 0, 64⟩
/-- SEC.KEY_OUT.ADDR [63:0] RW (R571, Table 14-11; reset 0). -/
def R.SEC.KEY_OUT.ADDR : Fld := ⟨16680, 0, 64⟩
/-- SEC.KEY_STAT.RESULT [7:0] RO (R571, Table 14-11; reset 0x00). -/
def R.SEC.KEY_STAT.RESULT : Fld := ⟨16688, 0, 8⟩
/-- SEC.KEY_STAT.PENDING [8] RO (R571, Table 14-11; reset 0). -/
def R.SEC.KEY_STAT.PENDING : Fld := ⟨16688, 8, 1⟩
/-- SEC.SIGN_CMD.OP [3:0] WO (R571, Table 14-11; reset 0x0). -/
def R.SEC.SIGN_CMD.OP : Fld := ⟨16692, 0, 4⟩
/-- SEC.SIGN_CMD.MREG [5:4] WO (R571, Table 14-11; reset 0). -/
def R.SEC.SIGN_CMD.MREG : Fld := ⟨16692, 4, 2⟩
/-- SEC.SIGN_IN.ADDR [63:0] RW (R571, Table 14-11; reset 0). -/
def R.SEC.SIGN_IN.ADDR : Fld := ⟨16696, 0, 64⟩
/-- SEC.SIGN_OUT.ADDR [63:0] RW (R571, Table 14-11; reset 0). -/
def R.SEC.SIGN_OUT.ADDR : Fld := ⟨16704, 0, 64⟩
/-- SEC.SIGN_STAT.RESULT [7:0] RO (R571, Table 14-11; reset 0x00). -/
def R.SEC.SIGN_STAT.RESULT : Fld := ⟨16712, 0, 8⟩
/-- SEC.SIGN_STAT.PENDING [8] RO (R571, Table 14-11; reset 0). -/
def R.SEC.SIGN_STAT.PENDING : Fld := ⟨16712, 8, 1⟩
/-- SEC.NEXT_Q.INDEX [63:0] RO (R571, Table 14-11; reset 0). -/
def R.SEC.NEXT_Q.INDEX : Fld := ⟨16720, 0, 64⟩
/-- SEC.RESV.FUSES [13:0] RO (R571, Table 14-11; reset 0). -/
def R.SEC.RESV.FUSES : Fld := ⟨16728, 0, 14⟩
/-- SEC.CNT_SIGN.COUNT [31:0] RO (R571, Table 14-11; reset 0). -/
def R.SEC.CNT_SIGN.COUNT : Fld := ⟨16732, 0, 32⟩
/-- SEC.NODE_BASE.ADDR [63:0] RWL (R571, Table 14-11; reset 0). -/
def R.SEC.NODE_BASE.ADDR : Fld := ⟨16736, 0, 64⟩
/-- CCL.CORE_RUN.RUN [23:0] RW (R610, Table 15-4; reset 0x00_0001). -/
def R.CCL.CORE_RUN.RUN : Fld := ⟨131328, 0, 24⟩
/-- CCL.CORE_FENCED.FENCED [23:0] RO (R610, Table 15-4; reset 0). -/
def R.CCL.CORE_FENCED.FENCED : Fld := ⟨131332, 0, 24⟩
/-- CCL.L2_CTL.EN [0] RW (R610, Table 15-4; reset 0). -/
def R.CCL.L2_CTL.EN : Fld := ⟨131344, 0, 1⟩
/-- CCL.L2_CMD.OP [3:0] WO (R610, Table 15-4; reset 0x0). -/
def R.CCL.L2_CMD.OP : Fld := ⟨131348, 0, 4⟩
/-- CCL.L2_CMD.WAY [7:4] WO (R610, Table 15-4; reset 0x0). -/
def R.CCL.L2_CMD.WAY : Fld := ⟨131348, 4, 4⟩
/-- CCL.L2_STATE.STATE [1:0] RO (R610, Table 15-4; reset 0b00). -/
def R.CCL.L2_STATE.STATE : Fld := ⟨131352, 0, 2⟩
/-- CCL.L2_STATE.INV_DONE [2] RO (R610, Table 15-4; reset 0). -/
def R.CCL.L2_STATE.INV_DONE : Fld := ⟨131352, 2, 1⟩
/-- CCL.L2_STATE.ENABLE_NO_INV [3] W1C (R610, Table 15-4; reset 0). -/
def R.CCL.L2_STATE.ENABLE_NO_INV : Fld := ⟨131352, 3, 1⟩
/-- CCL.L2_STATE.LOCK_NO_PRELOAD [4] W1C (R610, Table 15-4; reset 0). -/
def R.CCL.L2_STATE.LOCK_NO_PRELOAD : Fld := ⟨131352, 4, 1⟩
/-- CCL.L2_STATE.BUSY [5] RO (R610, Table 15-4; reset 0). -/
def R.CCL.L2_STATE.BUSY : Fld := ⟨131352, 5, 1⟩
/-- CCL.L2_STATE.PRELOAD_BAD [6] W1C (R610, Table 15-4; reset 0). -/
def R.CCL.L2_STATE.PRELOAD_BAD : Fld := ⟨131352, 6, 1⟩
/-- CCL.L2_DRAIN_COUNT.LINES [31:0] RO (R610, Table 15-4; reset 0). -/
def R.CCL.L2_DRAIN_COUNT.LINES : Fld := ⟨131356, 0, 32⟩
/-- CCL.L2_PRELOADED.WAYS [15:0] RO (R610, Table 15-4; reset 0). -/
def R.CCL.L2_PRELOADED.WAYS : Fld := ⟨131360, 0, 16⟩
/-- CCL.L2_LOCK.WAYS [15:0] RW (R610, Table 15-4; reset 0). -/
def R.CCL.L2_LOCK.WAYS : Fld := ⟨131364, 0, 16⟩
/-- CCL.L2_PRELOAD_ADDR.ADDR [63:0] RW (R610, Table 15-4; reset 0). -/
def R.CCL.L2_PRELOAD_ADDR.ADDR : Fld := ⟨131368, 0, 64⟩
/-- CCL.L2_PRELOAD_LEN.BYTES [20:0] RW (R610, Table 15-4; reset 0). -/
def R.CCL.L2_PRELOAD_LEN.BYTES : Fld := ⟨131376, 0, 21⟩
/-- CCL.PF_CFG.L1_EN [0] RW (R610, Table 15-4; reset 1). -/
def R.CCL.PF_CFG.L1_EN : Fld := ⟨131380, 0, 1⟩
/-- CCL.PF_CFG.DEPTH [3:1] RW (R610, Table 15-4; reset 0b010). -/
def R.CCL.PF_CFG.DEPTH : Fld := ⟨131380, 1, 3⟩
/-- CCL.PF_CFG.SB_EN [4] RW (R610, Table 15-4; reset 1). -/
def R.CCL.PF_CFG.SB_EN : Fld := ⟨131380, 4, 1⟩
/-- CCL.COH_WIN_LO.BASE [13:0] RWL (R610, Table 15-4; reset 0). -/
def R.CCL.COH_WIN_LO.BASE (n : Nat) : Fld := ⟨131392 + 8 * n, 0, 14⟩
/-- CCL.COH_WIN_LO.VALID [31] RWL (R610, Table 15-4; reset 0). -/
def R.CCL.COH_WIN_LO.VALID (n : Nat) : Fld := ⟨131392 + 8 * n, 31, 1⟩
/-- CCL.COH_WIN_HI.SIZE [13:0] RWL (R610, Table 15-4; reset 0). -/
def R.CCL.COH_WIN_HI.SIZE (n : Nat) : Fld := ⟨131396 + 8 * n, 0, 14⟩
/-- CCL.IRQ_SEL.SOURCE [6:0] RW (R610, Table 15-4; reset 0). -/
def R.CCL.IRQ_SEL.SOURCE : Fld := ⟨131456, 0, 7⟩
/-- CCL.IRQ_CFG.TARGET [4:0] RW (R610, Table 15-4; reset 0x00). -/
def R.CCL.IRQ_CFG.TARGET : Fld := ⟨131460, 0, 5⟩
/-- CCL.IRQ_CFG.PRIV [5] RW (R610, Table 15-4; reset 0). -/
def R.CCL.IRQ_CFG.PRIV : Fld := ⟨131460, 5, 1⟩
/-- CCL.IRQ_CFG.PRIO [8:6] RW (R610, Table 15-4; reset 0b000). -/
def R.CCL.IRQ_CFG.PRIO : Fld := ⟨131460, 6, 3⟩
/-- CCL.IRQ_CFG.VECTOR [26:16] RW (R610, Table 15-4; reset 0). -/
def R.CCL.IRQ_CFG.VECTOR : Fld := ⟨131460, 16, 11⟩
/-- CCL.IRQ_PEND.PEND [127:0] RO (R610, Table 15-4; reset 0). -/
def R.CCL.IRQ_PEND.PEND : Fld := ⟨131464, 0, 128⟩
/-- CCL.CNT_L2_HIT.COUNT [63:0] RO (R610, Table 15-4; reset 0). -/
def R.CCL.CNT_L2_HIT.COUNT : Fld := ⟨131488, 0, 64⟩
/-- CCL.CNT_L2_MISS.COUNT [63:0] RO (R610, Table 15-4; reset 0). -/
def R.CCL.CNT_L2_MISS.COUNT : Fld := ⟨131496, 0, 64⟩
/-- CCL.CNT_MERGE.COUNT [31:0] RO (R610, Table 15-4; reset 0). -/
def R.CCL.CNT_MERGE.COUNT : Fld := ⟨131504, 0, 32⟩
/-- CCL.CNT_SB_USED.COUNT [31:0] RO (R610, Table 15-4; reset 0). -/
def R.CCL.CNT_SB_USED.COUNT : Fld := ⟨131508, 0, 32⟩
/-- CCL.CNT_SB_DROP.COUNT [31:0] RO (R610, Table 15-4; reset 0). -/
def R.CCL.CNT_SB_DROP.COUNT : Fld := ⟨131512, 0, 32⟩
/-- CCL.CNT_IRQ_REDIR.COUNT [31:0] RO (R610, Table 15-4; reset 0). -/
def R.CCL.CNT_IRQ_REDIR.COUNT : Fld := ⟨131516, 0, 32⟩
/-- BSV.BOOT_STAT.SLOT [0] RO (R640, Table 16-10; reset 0). -/
def R.BSV.BOOT_STAT.SLOT : Fld := ⟨4384, 0, 1⟩
/-- BSV.BOOT_STAT.TRIAL [1] RO (R640, Table 16-10; reset 0). -/
def R.BSV.BOOT_STAT.TRIAL : Fld := ⟨4384, 1, 1⟩
/-- BSV.BOOT_STAT.EXPIRED [2] RO (R640, Table 16-10; reset 0). -/
def R.BSV.BOOT_STAT.EXPIRED : Fld := ⟨4384, 2, 1⟩
/-- BSV.BOOT_STAT.FELL_BACK [3] RO (R640, Table 16-10; reset 0). -/
def R.BSV.BOOT_STAT.FELL_BACK : Fld := ⟨4384, 3, 1⟩
/-- BSV.BOOT_STAT.CHECK_A [11:8] RO (R640, Table 16-10; reset 0). -/
def R.BSV.BOOT_STAT.CHECK_A : Fld := ⟨4384, 8, 4⟩
/-- BSV.BOOT_STAT.CHECK_B [15:12] RO (R640, Table 16-10; reset 0). -/
def R.BSV.BOOT_STAT.CHECK_B : Fld := ⟨4384, 12, 4⟩
/-- BSV.BOOT_STAT.TRIES [17:16] RO (R640, Table 16-10; reset 0). -/
def R.BSV.BOOT_STAT.TRIES : Fld := ⟨4384, 16, 2⟩
/-- BSV.BOOT_STEP.STEP [3:0] RO (R640, Table 16-10; reset 0x0). -/
def R.BSV.BOOT_STEP.STEP : Fld := ⟨4388, 0, 4⟩
/-- BSV.SECVER.RUN [6:0] RO (R640, Table 16-10; reset 0). -/
def R.BSV.SECVER.RUN : Fld := ⟨4392, 0, 7⟩
/-- BSV.SECVER.FUSES [14:8] RO (R640, Table 16-10; reset 0). -/
def R.BSV.SECVER.FUSES : Fld := ⟨4392, 8, 7⟩
/-- BSV.UPD_CMD.OP [3:0] WO (R640, Table 16-10; reset 0x0). -/
def R.BSV.UPD_CMD.OP : Fld := ⟨4396, 0, 4⟩
/-- BSV.UPD_STAT.RESULT [7:0] RO (R640, Table 16-10; reset 0x00). -/
def R.BSV.UPD_STAT.RESULT : Fld := ⟨4400, 0, 8⟩
/-- BSV.UPD_STAT.PENDING [8] RO (R640, Table 16-10; reset 0). -/
def R.BSV.UPD_STAT.PENDING : Fld := ⟨4400, 8, 1⟩
/-- BSV.UPD_CFG.WINDOW_H [15:0] RWL (R640, Table 16-10; reset 0x0048). -/
def R.BSV.UPD_CFG.WINDOW_H : Fld := ⟨4404, 0, 16⟩
/-- BSV.PROB_END.ESTAMP [63:0] RO (R640, Table 16-10; reset 0). -/
def R.BSV.PROB_END.ESTAMP : Fld := ⟨4408, 0, 64⟩
/-- BSV.SVC_CTL.TFTP_EN [0] RW (R640, Table 16-10; reset 0). -/
def R.BSV.SVC_CTL.TFTP_EN : Fld := ⟨4416, 0, 1⟩
/-- BSV.SVC_CTL.SERVICE_EN [1] RO (R640, Table 16-10; reset —). -/
def R.BSV.SVC_CTL.SERVICE_EN : Fld := ⟨4416, 1, 1⟩
/-- BSV.SVC_IP.ADDR [31:0] RW (R640, Table 16-10; reset 0xC0A8_FE14 + SLOT_ID). -/
def R.BSV.SVC_IP.ADDR : Fld := ⟨4420, 0, 32⟩
/-- BSV.SVC_MASK.PREFIX [5:0] RW (R640, Table 16-10; reset 0x18). -/
def R.BSV.SVC_MASK.PREFIX : Fld := ⟨4424, 0, 6⟩
/-- BSV.TFTP_STAT.STATE [1:0] RO (R640, Table 16-10; reset 0). -/
def R.BSV.TFTP_STAT.STATE : Fld := ⟨4428, 0, 2⟩
/-- BSV.TFTP_STAT.LAST_ERR [15:8] RO (R640, Table 16-10; reset 0). -/
def R.BSV.TFTP_STAT.LAST_ERR : Fld := ⟨4428, 8, 8⟩
/-- BSV.TFTP_STAT.BLKSIZE [31:16] RO (R640, Table 16-10; reset 0). -/
def R.BSV.TFTP_STAT.BLKSIZE : Fld := ⟨4428, 16, 16⟩
/-- BSV.TFTP_BYTES.COUNT [31:0] RO (R640, Table 16-10; reset 0). -/
def R.BSV.TFTP_BYTES.COUNT : Fld := ⟨4432, 0, 32⟩
/-- BSV.FL_CMD.OP [3:0] WO (R640, Table 16-10; reset 0x0). -/
def R.BSV.FL_CMD.OP : Fld := ⟨4436, 0, 4⟩
/-- BSV.FL_ADDR.ADDR [27:0] RW (R640, Table 16-10; reset 0). -/
def R.BSV.FL_ADDR.ADDR : Fld := ⟨4440, 0, 28⟩
/-- BSV.FL_LEN.BYTES [26:0] RW (R640, Table 16-10; reset 0). -/
def R.BSV.FL_LEN.BYTES : Fld := ⟨4444, 0, 27⟩
/-- BSV.FL_HBM.ADDR [63:0] RW (R640, Table 16-10; reset 0). -/
def R.BSV.FL_HBM.ADDR : Fld := ⟨4448, 0, 64⟩
/-- BSV.CAB_KEY.KEY [63:0] RW (R640, Table 16-10; reset 0). -/
def R.BSV.CAB_KEY.KEY : Fld := ⟨4456, 0, 64⟩
/-- BSV.CAB_SEL.CLASS [15:0] RW (R640, Table 16-10; reset 0). -/
def R.BSV.CAB_SEL.CLASS : Fld := ⟨4464, 0, 16⟩
/-- BSV.CAB_SEL.FMT [31:16] RW (R640, Table 16-10; reset 0). -/
def R.BSV.CAB_SEL.FMT : Fld := ⟨4464, 16, 16⟩
/-- BSV.FL_STAT.RESULT [7:0] RO (R640, Table 16-10; reset 0x00). -/
def R.BSV.FL_STAT.RESULT : Fld := ⟨4468, 0, 8⟩
/-- BSV.FL_STAT.PENDING [8] RO (R640, Table 16-10; reset 0). -/
def R.BSV.FL_STAT.PENDING : Fld := ⟨4468, 8, 1⟩
/-- BSV.FL_STAT.LEN [31:16] RO (R640, Table 16-10; reset 0). -/
def R.BSV.FL_STAT.LEN : Fld := ⟨4468, 16, 16⟩
/-- BSV.CAB_FREE.SECTORS [9:0] RO (R640, Table 16-10; reset 0). -/
def R.BSV.CAB_FREE.SECTORS : Fld := ⟨4472, 0, 10⟩
/-- FCL.FAULT.GROUP [63:0] W1C (R653, Table 17-5; reset 0). -/
def R.FCL.FAULT.GROUP : Fld := ⟨8448, 0, 64⟩
/-- FCL.FCLASS.CLASS [63:0] RO (R653, Table 17-5; reset 0). -/
def R.FCL.FCLASS.CLASS : Fld := ⟨8456, 0, 64⟩
/-- FCL.PIN_CFG.QUALIFY [3:0] RWL (R653, Table 17-5; reset 0b1100). -/
def R.FCL.PIN_CFG.QUALIFY : Fld := ⟨8464, 0, 4⟩
/-- FCL.PIN_CFG.AUTO_HOLD [4] RWL (R653, Table 17-5; reset 1). -/
def R.FCL.PIN_CFG.AUTO_HOLD : Fld := ⟨8464, 4, 1⟩
/-- FCL.PIN_CFG.PULSE_US [15:8] RWL (R653, Table 17-5; reset 0x14). -/
def R.FCL.PIN_CFG.PULSE_US : Fld := ⟨8464, 8, 8⟩
/-- FCL.PIN_HOLD.HOLD [0] RW (R653, Table 17-5; reset 0). -/
def R.FCL.PIN_HOLD.HOLD : Fld := ⟨8468, 0, 1⟩
/-- FCL.PIN_DRIVE.DRIVE [0] RW (R653, Table 17-5; reset 0). -/
def R.FCL.PIN_DRIVE.DRIVE : Fld := ⟨8472, 0, 1⟩
/-- FCL.PIN_DRIVE.LEVEL [1] RO (R653, Table 17-5; reset 1). -/
def R.FCL.PIN_DRIVE.LEVEL : Fld := ⟨8472, 1, 1⟩
/-- FCL.INJ_CFG.EN [0] RWL (R653, Table 17-5; reset 0). -/
def R.FCL.INJ_CFG.EN : Fld := ⟨8476, 0, 1⟩
/-- FCL.LOG_WR.INDEX [5:0] RO (R653, Table 17-5; reset 0). -/
def R.FCL.LOG_WR.INDEX : Fld := ⟨8480, 0, 6⟩
/-- FCL.LOG_RD.INDEX [5:0] RW (R653, Table 17-5; reset 0). -/
def R.FCL.LOG_RD.INDEX : Fld := ⟨8484, 0, 6⟩
/-- FCL.CNT_LOGLOST.COUNT [31:0] RO (R653, Table 17-5; reset 0). -/
def R.FCL.CNT_LOGLOST.COUNT : Fld := ⟨8488, 0, 32⟩
/-- FCL.CNT_CLASS.COUNT [31:0] RO (R653, Table 17-5; reset 0). -/
def R.FCL.CNT_CLASS.COUNT (n : Nat) : Fld := ⟨8496 + 4 * n, 0, 32⟩
/-- FCL.LOG.ENTRY [255:0] RO (R653, Table 17-5; reset 0). -/
def R.FCL.LOG.ENTRY (n : Nat) : Fld := ⟨10240 + 32 * n, 0, 256⟩
/-- EVR.STAT.CAL_INVALID [0] RO (R661, Table 17-12; reset 1). -/
def R.EVR.STAT.CAL_INVALID : Fld := ⟨12544, 0, 1⟩
/-- EVR.STAT.M_FULL [1] RO (R661, Table 17-12; reset 0). -/
def R.EVR.STAT.M_FULL : Fld := ⟨12544, 1, 1⟩
/-- EVR.STAT.WRITING [2] RO (R661, Table 17-12; reset 0). -/
def R.EVR.STAT.WRITING : Fld := ⟨12544, 2, 1⟩
/-- EVR.STAT.SPARES [9:3] RO (R661, Table 17-12; reset 0). -/
def R.EVR.STAT.SPARES : Fld := ⟨12544, 3, 7⟩
/-- EVR.SEQ_H.SEQ [31:0] RO (R661, Table 17-12; reset 0). -/
def R.EVR.SEQ_H.SEQ : Fld := ⟨12548, 0, 32⟩
/-- EVR.SEQ_D.SEQ [31:0] RO (R661, Table 17-12; reset 0). -/
def R.EVR.SEQ_D.SEQ : Fld := ⟨12552, 0, 32⟩
/-- EVR.SEQ_M.SEQ [31:0] RO (R661, Table 17-12; reset 0). -/
def R.EVR.SEQ_M.SEQ : Fld := ⟨12556, 0, 32⟩
/-- EVR.TEMP_WARN.TEMP [11:0] RW (R661, Table 17-12; reset 0x690). -/
def R.EVR.TEMP_WARN.TEMP : Fld := ⟨12560, 0, 12⟩
/-- EVR.Q_SEL.Q [4:0] RW (R661, Table 17-12; reset 0). -/
def R.EVR.Q_SEL.Q : Fld := ⟨12564, 0, 5⟩
/-- EVR.Q_NOW.VALUE [15:0] RO (R661, Table 17-12; reset 0). -/
def R.EVR.Q_NOW.VALUE : Fld := ⟨12568, 0, 16⟩
/-- EVR.CNT_EVT_LOST.COUNT [31:0] RO (R661, Table 17-12; reset 0). -/
def R.EVR.CNT_EVT_LOST.COUNT : Fld := ⟨12572, 0, 32⟩
/-- EVR.CNT_BADREC.COUNT [31:0] RO (R661, Table 17-12; reset 0). -/
def R.EVR.CNT_BADREC.COUNT : Fld := ⟨12576, 0, 32⟩
/-- ANX.CS_CFG.WR_EN [0] RWL (R672, Table 18-2; reset 1). -/
def R.ANX.CS_CFG.WR_EN : Fld := ⟨127232, 0, 1⟩
/-- ANX.CS_CFG.SVC_HIDE [1] RWL (R672, Table 18-2; reset 0). -/
def R.ANX.CS_CFG.SVC_HIDE : Fld := ⟨127232, 1, 1⟩
/-- ANX.CNT_CS_DROP.COUNT [31:0] RO (R672, Table 18-2; reset 0). -/
def R.ANX.CNT_CS_DROP.COUNT : Fld := ⟨127236, 0, 32⟩
/-- CCL.LOC_MTIMECMP.CMP [63:0] RW (R609, Table 15-3; reset 0xFFFF_FFFF_FFFF_FFFF). -/
def R.CCL.LOC_MTIMECMP.CMP (core : Nat) : Fld := ⟨0x4000000 + core * 4096 + 0, 0, 64⟩
/-- CCL.LOC_MTIME.TIME [63:0] RO (R609, Table 15-3; reset 0). -/
def R.CCL.LOC_MTIME.TIME (core : Nat) : Fld := ⟨0x4000000 + core * 4096 + 8, 0, 64⟩
/-- CCL.LOC_MSIP.MSIP [0] RW (R609, Table 15-3; reset 0). -/
def R.CCL.LOC_MSIP.MSIP (core : Nat) : Fld := ⟨0x4000000 + core * 4096 + 16, 0, 1⟩
/-- CCL.LOC_SSIP.SSIP [0] RW (R609, Table 15-3; reset 0). -/
def R.CCL.LOC_SSIP.SSIP (core : Nat) : Fld := ⟨0x4000000 + core * 4096 + 20, 0, 1⟩
/-- CCL.LOC_M_THRESH.THR [2:0] RW (R609, Table 15-3; reset 0). -/
def R.CCL.LOC_M_THRESH.THR (core : Nat) : Fld := ⟨0x4000000 + core * 4096 + 32, 0, 3⟩
/-- CCL.LOC_M_CLAIM.SOURCE [6:0] RW (R609, Table 15-3; reset 0). -/
def R.CCL.LOC_M_CLAIM.SOURCE (core : Nat) : Fld := ⟨0x4000000 + core * 4096 + 36, 0, 7⟩
/-- CCL.LOC_S_THRESH.THR [2:0] RW (R609, Table 15-3; reset 0). -/
def R.CCL.LOC_S_THRESH.THR (core : Nat) : Fld := ⟨0x4000000 + core * 4096 + 40, 0, 3⟩
/-- CCL.LOC_S_CLAIM.SOURCE [6:0] RW (R609, Table 15-3; reset 0). -/
def R.CCL.LOC_S_CLAIM.SOURCE (core : Nat) : Fld := ⟨0x4000000 + core * 4096 + 44, 0, 7⟩
/-- ERR_STAT.SRC [31:0] W1C (R642, Table 17-1; reset 0). -/
def R.HDR.ERR_STAT.SRC (page : Nat) : Fld := ⟨page * 4096 + 16, 0, 32⟩
/-- ERR_MASK.MASK [31:0] RW (R642, Table 17-1; reset 0). -/
def R.HDR.ERR_MASK.MASK (page : Nat) : Fld := ⟨page * 4096 + 20, 0, 32⟩
/-- ERR_CLASS.CLASS [63:0] RWL (R642, Table 17-1; reset Per block table). -/
def R.HDR.ERR_CLASS.CLASS (page : Nat) : Fld := ⟨page * 4096 + 24, 0, 64⟩
/-- ERR_INJ.INJ [31:0] WO (R642, Table 17-1; reset 0). -/
def R.HDR.ERR_INJ.INJ (page : Nat) : Fld := ⟨page * 4096 + 32, 0, 32⟩
/-- ERR_FIRST.SOURCE [4:0] RO (R642, Table 17-1; reset 0). -/
def R.HDR.ERR_FIRST.SOURCE (page : Nat) : Fld := ⟨page * 4096 + 36, 0, 5⟩
/-- ERR_FIRST.VALID [31] RO (R642, Table 17-1; reset 0). -/
def R.HDR.ERR_FIRST.VALID (page : Nat) : Fld := ⟨page * 4096 + 36, 31, 1⟩
/-- ERR_STAMP.ESTAMP [63:0] RO (R642, Table 17-1; reset 0). -/
def R.HDR.ERR_STAMP.ESTAMP (page : Nat) : Fld := ⟨page * 4096 + 40, 0, 64⟩
/-- PWR_CTL.POLICY [1:0] RW (R665, Table 17-16; reset 0b00). -/
def R.HDR.PWR_CTL.POLICY (page : Nat) : Fld := ⟨page * 4096 + 48, 0, 2⟩
/-- PWR_CTL.IDLE_US [15:8] RW (R665, Table 17-16; reset 0x64). -/
def R.HDR.PWR_CTL.IDLE_US (page : Nat) : Fld := ⟨page * 4096 + 48, 8, 8⟩
/-- PWR_STAT.STATE [2:0] RO (R665, Table 17-16; reset 0). -/
def R.HDR.PWR_STAT.STATE (page : Nat) : Fld := ⟨page * 4096 + 52, 0, 3⟩
/-- PWR_STAT.ACTIVE_UNITS [15:8] RO (R665, Table 17-16; reset 0). -/
def R.HDR.PWR_STAT.ACTIVE_UNITS (page : Nat) : Fld := ⟨page * 4096 + 52, 8, 8⟩
/-- PWR_STAT.EXITING [16] RO (R665, Table 17-16; reset 0). -/
def R.HDR.PWR_STAT.EXITING (page : Nat) : Fld := ⟨page * 4096 + 52, 16, 1⟩
/-- ENERGY.UJ [63:0] RO (R665, Table 17-16; reset 0). -/
def R.HDR.ENERGY.UJ (page : Nat) : Fld := ⟨page * 4096 + 56, 0, 64⟩
/-- ID.CODE [7:0] RO (R674, Table 18-5; reset Table 18-1). -/
def R.HDR.ID.CODE (page : Nat) : Fld := ⟨page * 4096 + 0, 0, 8⟩
/-- ID.INST [11:8] RO (R674, Table 18-5; reset Per page). -/
def R.HDR.ID.INST (page : Nat) : Fld := ⟨page * 4096 + 0, 8, 4⟩
/-- ID.VERSION [23:16] RO (R674, Table 18-5; reset 0x10). -/
def R.HDR.ID.VERSION (page : Nat) : Fld := ⟨page * 4096 + 0, 16, 8⟩
/-- ID.FUSED [31] RO (R674, Table 18-5; reset Fuse). -/
def R.HDR.ID.FUSED (page : Nat) : Fld := ⟨page * 4096 + 0, 31, 1⟩
/-- CAP.UNITS [9:0] RO (R674, Table 18-5; reset Fuse). -/
def R.HDR.CAP.UNITS (page : Nat) : Fld := ⟨page * 4096 + 4, 0, 10⟩
/-- CAP.UNITS_MAX [19:10] RO (R674, Table 18-5; reset Table 18-1). -/
def R.HDR.CAP.UNITS_MAX (page : Nat) : Fld := ⟨page * 4096 + 4, 10, 10⟩
/-- CAP.LINKED [20] RO (R674, Table 18-5; reset Per block). -/
def R.HDR.CAP.LINKED (page : Nat) : Fld := ⟨page * 4096 + 4, 20, 1⟩
/-- CAP.SOFT_RST [21] RO (R674, Table 18-5; reset Table 18-1). -/
def R.HDR.CAP.SOFT_RST (page : Nat) : Fld := ⟨page * 4096 + 4, 21, 1⟩
/-- CTL.EN [0] RW (R674, Table 18-5; reset 1). -/
def R.HDR.CTL.EN (page : Nat) : Fld := ⟨page * 4096 + 8, 0, 1⟩
/-- CTL.SOFT_RST [1] WO (R674, Table 18-5; reset 0). -/
def R.HDR.CTL.SOFT_RST (page : Nat) : Fld := ⟨page * 4096 + 8, 1, 1⟩
/-- CTL.FENCE [2] W1S (R674, Table 18-5; reset 0). -/
def R.HDR.CTL.FENCE (page : Nat) : Fld := ⟨page * 4096 + 8, 2, 1⟩
/-- CTL.LOCK [31] W1S (R674, Table 18-5; reset 0). -/
def R.HDR.CTL.LOCK (page : Nat) : Fld := ⟨page * 4096 + 8, 31, 1⟩
/-- STAT.BUSY [0] RO (R674, Table 18-5; reset 0). -/
def R.HDR.STAT.BUSY (page : Nat) : Fld := ⟨page * 4096 + 12, 0, 1⟩
/-- STAT.STOPPED [1] RO (R674, Table 18-5; reset 0). -/
def R.HDR.STAT.STOPPED (page : Nat) : Fld := ⟨page * 4096 + 12, 1, 1⟩
/-- STAT.DEGRADED [2] RO (R674, Table 18-5; reset 0). -/
def R.HDR.STAT.DEGRADED (page : Nat) : Fld := ⟨page * 4096 + 12, 2, 1⟩
/-- STAT.RST_REFUSED [3] W1C (R674, Table 18-5; reset 0). -/
def R.HDR.STAT.RST_REFUSED (page : Nat) : Fld := ⟨page * 4096 + 12, 3, 1⟩
/-- STAT.FENCED_UNITS [25:16] RO (R674, Table 18-5; reset 0). -/
def R.HDR.STAT.FENCED_UNITS (page : Nat) : Fld := ⟨page * 4096 + 12, 16, 10⟩
/-- IFVER.MIN [7:0] RO (R674, Table 18-5; reset 0). -/
def R.HDR.IFVER.MIN (page : Nat) : Fld := ⟨page * 4096 + 64, 0, 8⟩
/-- IFVER.MAX [15:8] RO (R674, Table 18-5; reset 0). -/
def R.HDR.IFVER.MAX (page : Nat) : Fld := ⟨page * 4096 + 64, 8, 8⟩
/-- IFVER.VALID [16] RO (R674, Table 18-5; reset 0). -/
def R.HDR.IFVER.VALID (page : Nat) : Fld := ⟨page * 4096 + 64, 16, 1⟩

/-! The register tables as rows: offset, stride, copies, lowest bit, width, access code. -/
/-- The common page header (R642, R665, R674; Tables 17-1, 17-16, 18-5). -/
def hdrRows : List FRow := [
  ⟨16, 4, 1, 0, 32, .w1c⟩,
  ⟨20, 4, 1, 0, 32, .rw⟩,
  ⟨24, 4, 1, 0, 64, .rwl⟩,
  ⟨32, 4, 1, 0, 32, .wo⟩,
  ⟨36, 4, 1, 0, 5, .ro⟩,
  ⟨36, 4, 1, 31, 1, .ro⟩,
  ⟨40, 4, 1, 0, 64, .ro⟩,
  ⟨48, 4, 1, 0, 2, .rw⟩,
  ⟨48, 4, 1, 8, 8, .rw⟩,
  ⟨52, 4, 1, 0, 3, .ro⟩,
  ⟨52, 4, 1, 8, 8, .ro⟩,
  ⟨52, 4, 1, 16, 1, .ro⟩,
  ⟨56, 4, 1, 0, 64, .ro⟩,
  ⟨0, 4, 1, 0, 8, .ro⟩,
  ⟨0, 4, 1, 8, 4, .ro⟩,
  ⟨0, 4, 1, 16, 8, .ro⟩,
  ⟨0, 4, 1, 31, 1, .ro⟩,
  ⟨4, 4, 1, 0, 10, .ro⟩,
  ⟨4, 4, 1, 10, 10, .ro⟩,
  ⟨4, 4, 1, 20, 1, .ro⟩,
  ⟨4, 4, 1, 21, 1, .ro⟩,
  ⟨8, 4, 1, 0, 1, .rw⟩,
  ⟨8, 4, 1, 1, 1, .wo⟩,
  ⟨8, 4, 1, 2, 1, .w1s⟩,
  ⟨8, 4, 1, 31, 1, .w1s⟩,
  ⟨12, 4, 1, 0, 1, .ro⟩,
  ⟨12, 4, 1, 1, 1, .ro⟩,
  ⟨12, 4, 1, 2, 1, .ro⟩,
  ⟨12, 4, 1, 3, 1, .w1c⟩,
  ⟨12, 4, 1, 16, 10, .ro⟩,
  ⟨64, 4, 1, 0, 8, .ro⟩,
  ⟨64, 4, 1, 8, 8, .ro⟩,
  ⟨64, 4, 1, 16, 1, .ro⟩]
/-- The registers of a HBC page (R46). -/
def rowsHBC : List FRow := [
  ⟨256, 4, 1, 0, 64, .ro⟩,
  ⟨264, 4, 1, 0, 64, .ro⟩,
  ⟨272, 4, 1, 0, 6, .wo⟩,
  ⟨272, 4, 1, 8, 1, .wo⟩,
  ⟨276, 4, 1, 0, 7, .ro⟩,
  ⟨276, 4, 1, 8, 1, .ro⟩,
  ⟨276, 4, 1, 9, 1, .ro⟩,
  ⟨280, 4, 1, 0, 16, .rw⟩,
  ⟨284, 4, 1, 0, 32, .ro⟩,
  ⟨288, 4, 1, 0, 32, .ro⟩,
  ⟨296, 4, 1, 0, 64, .ro⟩]
/-- The registers of a DDC page (R46). -/
def rowsDDC : List FRow := [
  ⟨256, 4, 1, 0, 16, .ro⟩,
  ⟨256, 4, 1, 16, 1, .ro⟩,
  ⟨256, 4, 1, 17, 2, .ro⟩,
  ⟨260, 4, 1, 0, 16, .ro⟩,
  ⟨264, 4, 1, 0, 4, .wo⟩,
  ⟨264, 4, 1, 8, 1, .wo⟩,
  ⟨268, 4, 1, 0, 14, .ro⟩,
  ⟨272, 4, 1, 0, 8, .rw⟩,
  ⟨276, 4, 1, 0, 16, .rw⟩,
  ⟨280, 4, 1, 0, 32, .ro⟩,
  ⟨284, 4, 1, 0, 32, .ro⟩,
  ⟨288, 4, 1, 0, 64, .ro⟩]
/-- The registers of a BSV page (R52, R55, R640). -/
def rowsBSV : List FRow := [
  ⟨256, 4, 1, 0, 4, .ro⟩,
  ⟨256, 4, 1, 4, 4, .ro⟩,
  ⟨256, 4, 1, 8, 8, .ro⟩,
  ⟨256, 4, 1, 16, 1, .ro⟩,
  ⟨256, 4, 1, 17, 1, .ro⟩,
  ⟨260, 4, 1, 0, 8, .wo⟩,
  ⟨264, 4, 1, 0, 8, .ro⟩,
  ⟨268, 4, 1, 0, 1, .rwl⟩,
  ⟨268, 4, 1, 1, 1, .rwl⟩,
  ⟨272, 4, 1, 0, 64, .ro⟩,
  ⟨288, 4, 1, 0, 1, .ro⟩,
  ⟨288, 4, 1, 1, 1, .ro⟩,
  ⟨288, 4, 1, 2, 1, .ro⟩,
  ⟨288, 4, 1, 3, 1, .ro⟩,
  ⟨288, 4, 1, 8, 4, .ro⟩,
  ⟨288, 4, 1, 12, 4, .ro⟩,
  ⟨288, 4, 1, 16, 2, .ro⟩,
  ⟨292, 4, 1, 0, 4, .ro⟩,
  ⟨296, 4, 1, 0, 7, .ro⟩,
  ⟨296, 4, 1, 8, 7, .ro⟩,
  ⟨300, 4, 1, 0, 4, .wo⟩,
  ⟨304, 4, 1, 0, 8, .ro⟩,
  ⟨304, 4, 1, 8, 1, .ro⟩,
  ⟨308, 4, 1, 0, 16, .rwl⟩,
  ⟨312, 4, 1, 0, 64, .ro⟩,
  ⟨320, 4, 1, 0, 1, .rw⟩,
  ⟨320, 4, 1, 1, 1, .ro⟩,
  ⟨324, 4, 1, 0, 32, .rw⟩,
  ⟨328, 4, 1, 0, 6, .rw⟩,
  ⟨332, 4, 1, 0, 2, .ro⟩,
  ⟨332, 4, 1, 8, 8, .ro⟩,
  ⟨332, 4, 1, 16, 16, .ro⟩,
  ⟨336, 4, 1, 0, 32, .ro⟩,
  ⟨340, 4, 1, 0, 4, .wo⟩,
  ⟨344, 4, 1, 0, 28, .rw⟩,
  ⟨348, 4, 1, 0, 27, .rw⟩,
  ⟨352, 4, 1, 0, 64, .rw⟩,
  ⟨360, 4, 1, 0, 64, .rw⟩,
  ⟨368, 4, 1, 0, 16, .rw⟩,
  ⟨368, 4, 1, 16, 16, .rw⟩,
  ⟨372, 4, 1, 0, 8, .ro⟩,
  ⟨372, 4, 1, 8, 1, .ro⟩,
  ⟨372, 4, 1, 16, 16, .ro⟩,
  ⟨376, 4, 1, 0, 10, .ro⟩]
/-- The registers of a TBS page (R114). -/
def rowsTBS : List FRow := [
  ⟨256, 4, 1, 0, 64, .ro⟩,
  ⟨264, 4, 1, 0, 1, .ro⟩,
  ⟨264, 4, 1, 1, 1, .ro⟩,
  ⟨264, 4, 1, 2, 1, .ro⟩,
  ⟨264, 4, 1, 3, 1, .ro⟩,
  ⟨264, 4, 1, 4, 5, .ro⟩,
  ⟨268, 4, 1, 0, 16, .ro⟩,
  ⟨272, 4, 1, 0, 8, .rwl⟩,
  ⟨272, 4, 1, 16, 16, .rwl⟩,
  ⟨276, 4, 1, 0, 32, .ro⟩,
  ⟨280, 4, 1, 0, 16, .ro⟩,
  ⟨288, 4, 1, 0, 64, .ro⟩,
  ⟨296, 4, 1, 0, 64, .ro⟩,
  ⟨304, 4, 1, 0, 64, .ro⟩,
  ⟨312, 4, 1, 0, 16, .rwl⟩,
  ⟨316, 4, 1, 0, 32, .ro⟩,
  ⟨320, 4, 1, 0, 32, .ro⟩,
  ⟨324, 4, 1, 0, 32, .ro⟩,
  ⟨328, 4, 1, 0, 64, .rw⟩,
  ⟨336, 4, 1, 0, 1, .wo⟩,
  ⟨340, 4, 1, 0, 1, .ro⟩,
  ⟨340, 4, 1, 1, 1, .ro⟩]
/-- The registers of a HFX page (R140). -/
def rowsHFX : List FRow := [
  ⟨256, 4, 4, 0, 2, .rw⟩,
  ⟨256, 4, 4, 2, 1, .rw⟩,
  ⟨256, 4, 4, 3, 1, .rw⟩,
  ⟨256, 4, 4, 4, 8, .rw⟩,
  ⟨256, 4, 4, 16, 14, .rw⟩,
  ⟨272, 4, 4, 0, 4, .ro⟩,
  ⟨272, 4, 4, 4, 4, .ro⟩]
/-- The registers of a NVT page (R166, R321). -/
def rowsNVT : List FRow := [
  ⟨256, 4, 1, 0, 16, .rwl⟩,
  ⟨260, 4, 1, 0, 16, .rwl⟩,
  ⟨264, 4, 1, 0, 1, .rw⟩,
  ⟨264, 4, 1, 1, 1, .rw⟩,
  ⟨264, 4, 1, 2, 1, .rwl⟩,
  ⟨264, 4, 1, 3, 1, .rwl⟩,
  ⟨268, 4, 1, 0, 19, .ro⟩,
  ⟨272, 4, 1, 0, 6, .rw⟩,
  ⟨272, 4, 1, 8, 8, .rw⟩,
  ⟨272, 4, 1, 16, 1, .wo⟩,
  ⟨276, 4, 1, 0, 32, .ro⟩,
  ⟨280, 4, 1, 0, 64, .rwl⟩,
  ⟨288, 4, 1, 0, 12, .ro⟩,
  ⟨292, 4, 1, 0, 32, .ro⟩,
  ⟨296, 4, 1, 0, 12, .rw⟩,
  ⟨320, 4, 1, 0, 7, .rw⟩,
  ⟨324, 4, 1, 0, 14, .ro⟩,
  ⟨328, 4, 1, 0, 32, .ro⟩,
  ⟨332, 4, 1, 0, 32, .ro⟩,
  ⟨336, 4, 1, 0, 32, .ro⟩,
  ⟨340, 4, 1, 0, 32, .ro⟩,
  ⟨344, 4, 1, 0, 32, .ro⟩,
  ⟨348, 4, 1, 0, 32, .ro⟩,
  ⟨352, 4, 1, 0, 32, .ro⟩,
  ⟨356, 4, 1, 0, 32, .ro⟩,
  ⟨360, 4, 1, 0, 32, .ro⟩]
/-- The registers of a SLM page (R210). -/
def rowsSLM : List FRow := [
  ⟨256, 4, 1, 0, 4, .wo⟩,
  ⟨256, 4, 1, 4, 20, .wo⟩,
  ⟨260, 4, 1, 0, 8, .ro⟩,
  ⟨260, 4, 1, 8, 1, .ro⟩,
  ⟨260, 4, 1, 12, 20, .ro⟩,
  ⟨264, 4, 1, 0, 128, .rw⟩,
  ⟨280, 4, 1, 0, 64, .rw⟩,
  ⟨288, 4, 1, 0, 13, .rwl⟩,
  ⟨292, 4, 1, 0, 17, .rw⟩,
  ⟨296, 4, 1, 0, 15, .rw⟩,
  ⟨300, 4, 1, 0, 1, .ro⟩,
  ⟨300, 4, 1, 1, 13, .ro⟩,
  ⟨304, 4, 1, 0, 12, .rw⟩,
  ⟨308, 4, 1, 0, 3, .ro⟩,
  ⟨308, 4, 1, 3, 1, .ro⟩,
  ⟨308, 4, 1, 4, 1, .ro⟩,
  ⟨308, 4, 1, 12, 20, .ro⟩,
  ⟨312, 4, 1, 0, 64, .rw⟩,
  ⟨320, 4, 1, 0, 24, .rw⟩,
  ⟨324, 4, 1, 0, 24, .ro⟩,
  ⟨328, 4, 1, 0, 24, .rw⟩,
  ⟨336, 4, 1, 0, 64, .rwl⟩,
  ⟨344, 4, 1, 0, 64, .ro⟩,
  ⟨352, 4, 1, 0, 64, .rw⟩,
  ⟨360, 4, 1, 0, 8, .rw⟩,
  ⟨364, 4, 1, 0, 32, .ro⟩,
  ⟨368, 4, 1, 0, 64, .rwl⟩,
  ⟨376, 4, 1, 0, 64, .rwl⟩]
/-- The registers of a ING page (R248). -/
def rowsING : List FRow := [
  ⟨256, 4, 1, 0, 1, .rw⟩,
  ⟨256, 4, 1, 1, 1, .rw⟩,
  ⟨256, 4, 1, 8, 4, .rw⟩,
  ⟨256, 4, 1, 12, 4, .rw⟩,
  ⟨260, 4, 1, 0, 10, .rw⟩,
  ⟨264, 4, 1, 0, 12, .rw⟩,
  ⟨264, 4, 1, 31, 1, .rw⟩,
  ⟨272, 4, 1, 0, 64, .rwl⟩,
  ⟨288, 4, 1, 0, 64, .ro⟩,
  ⟨296, 4, 1, 0, 64, .ro⟩,
  ⟨304, 4, 1, 0, 64, .ro⟩,
  ⟨312, 4, 1, 0, 64, .ro⟩,
  ⟨320, 4, 1, 0, 64, .ro⟩,
  ⟨328, 4, 1, 0, 64, .ro⟩,
  ⟨336, 4, 1, 0, 64, .ro⟩,
  ⟨344, 4, 1, 0, 64, .ro⟩,
  ⟨352, 4, 1, 0, 64, .ro⟩,
  ⟨360, 4, 1, 0, 32, .ro⟩,
  ⟨364, 4, 1, 0, 32, .ro⟩]
/-- The registers of a MPC page (R297). -/
def rowsMPC : List FRow := [
  ⟨256, 4, 1, 0, 4, .wo⟩,
  ⟨256, 4, 1, 4, 4, .wo⟩,
  ⟨260, 4, 1, 0, 2, .ro⟩,
  ⟨260, 4, 1, 2, 1, .ro⟩,
  ⟨260, 4, 1, 3, 1, .w1c⟩,
  ⟨260, 4, 1, 4, 1, .w1c⟩,
  ⟨260, 4, 1, 5, 1, .ro⟩,
  ⟨264, 4, 1, 0, 32, .ro⟩,
  ⟨268, 4, 1, 0, 12, .ro⟩,
  ⟨272, 4, 1, 0, 12, .rw⟩,
  ⟨276, 4, 1, 0, 1, .rw⟩,
  ⟨280, 4, 1, 0, 64, .rw⟩,
  ⟨288, 4, 1, 0, 24, .rw⟩,
  ⟨292, 4, 1, 0, 8, .rw⟩,
  ⟨296, 4, 1, 0, 32, .ro⟩,
  ⟨300, 4, 1, 0, 6, .ro⟩,
  ⟨304, 4, 1, 0, 64, .ro⟩,
  ⟨312, 4, 1, 0, 64, .ro⟩,
  ⟨512, 4, 64, 0, 17, .ro⟩,
  ⟨512, 4, 64, 17, 8, .ro⟩]
/-- The registers of a MPE page (R298). -/
def rowsMPE : List FRow := [
  ⟨256, 4, 1, 0, 64, .rwl⟩,
  ⟨264, 4, 1, 0, 6, .rwl⟩,
  ⟨272, 4, 1, 0, 64, .rwl⟩,
  ⟨280, 4, 1, 0, 64, .rwl⟩,
  ⟨288, 4, 1, 0, 16, .rw⟩,
  ⟨288, 4, 1, 16, 8, .rw⟩,
  ⟨292, 4, 1, 0, 31, .ro⟩,
  ⟨292, 4, 1, 31, 1, .ro⟩,
  ⟨296, 4, 1, 0, 2, .wo⟩,
  ⟨296, 4, 1, 2, 16, .wo⟩,
  ⟨300, 4, 1, 0, 32, .rw⟩,
  ⟨304, 4, 1, 0, 8, .ro⟩,
  ⟨304, 4, 1, 8, 1, .ro⟩,
  ⟨312, 4, 1, 0, 64, .ro⟩,
  ⟨320, 4, 1, 0, 64, .ro⟩,
  ⟨328, 4, 1, 0, 7, .rw⟩,
  ⟨336, 4, 1, 0, 32, .ro⟩,
  ⟨340, 4, 1, 0, 32, .ro⟩,
  ⟨344, 4, 1, 0, 32, .ro⟩,
  ⟨352, 4, 1, 0, 64, .ro⟩,
  ⟨360, 4, 1, 0, 32, .ro⟩]
/-- The registers of a SGB page (R373). -/
def rowsSGB : List FRow := [
  ⟨256, 4, 1, 0, 4, .wo⟩,
  ⟨256, 4, 1, 4, 2, .wo⟩,
  ⟨256, 4, 1, 6, 6, .wo⟩,
  ⟨260, 4, 1, 0, 8, .ro⟩,
  ⟨260, 4, 1, 8, 1, .ro⟩,
  ⟨264, 4, 1, 0, 64, .rw⟩,
  ⟨272, 4, 1, 0, 5, .rw⟩,
  ⟨272, 4, 1, 8, 3, .rw⟩,
  ⟨276, 4, 8, 0, 32, .rw⟩,
  ⟨320, 4, 1, 0, 64, .rwl⟩,
  ⟨328, 4, 1, 0, 64, .rwl⟩,
  ⟨336, 4, 1, 0, 10, .rw⟩,
  ⟨336, 4, 1, 16, 8, .rw⟩,
  ⟨340, 4, 1, 0, 2, .rw⟩,
  ⟨344, 4, 1, 0, 2, .ro⟩,
  ⟨344, 4, 1, 2, 1, .ro⟩,
  ⟨344, 4, 1, 3, 1, .ro⟩,
  ⟨344, 4, 1, 4, 6, .ro⟩,
  ⟨344, 4, 1, 10, 6, .ro⟩,
  ⟨344, 4, 1, 16, 16, .ro⟩,
  ⟨348, 4, 1, 0, 10, .ro⟩,
  ⟨352, 4, 1, 0, 32, .ro⟩,
  ⟨356, 4, 1, 0, 32, .ro⟩,
  ⟨360, 4, 1, 0, 32, .ro⟩,
  ⟨364, 4, 1, 0, 32, .ro⟩]
/-- The registers of a RBE page (R374). -/
def rowsRBE : List FRow := [
  ⟨256, 4, 1, 0, 16, .rw⟩,
  ⟨256, 4, 1, 16, 7, .rw⟩,
  ⟨260, 4, 1, 0, 1, .ro⟩,
  ⟨264, 4, 1, 0, 64, .ro⟩,
  ⟨272, 4, 1, 0, 64, .rwl⟩,
  ⟨280, 4, 1, 0, 20, .rwl⟩,
  ⟨284, 4, 1, 0, 20, .ro⟩,
  ⟨288, 4, 1, 0, 20, .rw⟩,
  ⟨292, 4, 1, 0, 32, .ro⟩,
  ⟨296, 4, 1, 0, 32, .ro⟩,
  ⟨300, 4, 1, 0, 32, .ro⟩]
/-- The registers of a JRN page (R376). -/
def rowsJRN : List FRow := [
  ⟨256, 4, 1, 0, 16, .rw⟩,
  ⟨260, 4, 1, 0, 5, .rw⟩,
  ⟨264, 4, 1, 0, 24, .ro⟩,
  ⟨264, 4, 1, 24, 2, .ro⟩,
  ⟨268, 4, 1, 0, 7, .ro⟩,
  ⟨272, 4, 1, 0, 32, .ro⟩,
  ⟨276, 4, 1, 0, 32, .ro⟩]
/-- The registers of a FMM page (R419). -/
def rowsFMM : List FRow := [
  ⟨256, 4, 1, 0, 5, .rwl⟩,
  ⟨256, 4, 1, 8, 7, .rw⟩,
  ⟨256, 4, 1, 16, 8, .ro⟩,
  ⟨260, 4, 1, 0, 7, .rw⟩,
  ⟨260, 4, 1, 8, 7, .rw⟩,
  ⟨260, 4, 1, 16, 7, .rw⟩,
  ⟨260, 4, 1, 24, 7, .rw⟩,
  ⟨264, 4, 1, 0, 8, .rw⟩,
  ⟨264, 4, 1, 8, 16, .rw⟩,
  ⟨268, 4, 1, 0, 5, .rw⟩,
  ⟨268, 4, 1, 8, 9, .rw⟩,
  ⟨272, 4, 1, 0, 16, .rw⟩,
  ⟨272, 4, 1, 16, 16, .rw⟩,
  ⟨276, 4, 1, 0, 8, .rw⟩,
  ⟨276, 4, 1, 8, 4, .rw⟩,
  ⟨280, 4, 1, 0, 2, .rw⟩,
  ⟨280, 4, 1, 8, 6, .rw⟩,
  ⟨280, 4, 1, 16, 7, .rw⟩,
  ⟨288, 4, 1, 0, 64, .rwl⟩,
  ⟨296, 4, 1, 0, 64, .rwl⟩,
  ⟨304, 4, 1, 0, 6, .rw⟩,
  ⟨304, 4, 1, 6, 6, .rw⟩,
  ⟨308, 4, 1, 0, 14, .ro⟩,
  ⟨308, 4, 1, 14, 1, .ro⟩,
  ⟨308, 4, 1, 15, 1, .ro⟩,
  ⟨308, 4, 1, 16, 12, .ro⟩,
  ⟨312, 4, 1, 0, 25, .ro⟩,
  ⟨316, 4, 1, 0, 16, .ro⟩,
  ⟨320, 4, 1, 0, 64, .ro⟩,
  ⟨328, 4, 1, 0, 64, .ro⟩,
  ⟨336, 4, 1, 0, 64, .ro⟩,
  ⟨344, 4, 1, 0, 32, .ro⟩,
  ⟨348, 4, 1, 0, 32, .ro⟩,
  ⟨352, 4, 1, 0, 32, .ro⟩,
  ⟨356, 4, 1, 0, 32, .ro⟩,
  ⟨360, 4, 1, 0, 32, .ro⟩,
  ⟨364, 4, 1, 0, 32, .ro⟩,
  ⟨368, 4, 1, 0, 32, .ro⟩]
/-- The registers of a LDC page (R420). -/
def rowsLDC : List FRow := [
  ⟨256, 4, 1, 0, 6, .rw⟩,
  ⟨256, 4, 1, 8, 6, .rw⟩,
  ⟨256, 4, 1, 16, 1, .rw⟩,
  ⟨260, 4, 1, 0, 7, .ro⟩,
  ⟨260, 4, 1, 8, 4, .ro⟩,
  ⟨264, 4, 1, 0, 64, .ro⟩,
  ⟨272, 4, 1, 0, 32, .ro⟩,
  ⟨276, 4, 1, 0, 32, .ro⟩,
  ⟨280, 4, 1, 0, 32, .ro⟩,
  ⟨284, 4, 1, 0, 32, .ro⟩,
  ⟨320, 4, 16, 0, 32, .ro⟩]
/-- The registers of a JLK page (R455). -/
def rowsJLK : List FRow := [
  ⟨256, 4, 1, 0, 4, .rw⟩,
  ⟨260, 4, 1, 0, 3, .ro⟩,
  ⟨260, 4, 1, 3, 2, .ro⟩,
  ⟨260, 4, 1, 5, 2, .ro⟩,
  ⟨260, 4, 1, 7, 1, .ro⟩,
  ⟨260, 4, 1, 8, 4, .ro⟩,
  ⟨260, 4, 1, 12, 1, .ro⟩,
  ⟨260, 4, 1, 13, 3, .ro⟩,
  ⟨264, 4, 1, 0, 4, .rwl⟩,
  ⟨264, 4, 1, 4, 4, .rwl⟩,
  ⟨264, 4, 1, 8, 8, .rw⟩,
  ⟨264, 4, 1, 16, 8, .rw⟩,
  ⟨264, 4, 1, 24, 8, .rw⟩,
  ⟨268, 4, 1, 0, 16, .rwl⟩,
  ⟨268, 4, 1, 16, 8, .rw⟩,
  ⟨272, 4, 1, 0, 2, .wo⟩,
  ⟨272, 4, 1, 2, 16, .wo⟩,
  ⟨276, 4, 1, 0, 32, .rw⟩,
  ⟨280, 4, 1, 0, 64, .rw⟩,
  ⟨288, 4, 1, 0, 16, .ro⟩,
  ⟨288, 4, 1, 16, 16, .ro⟩,
  ⟨292, 4, 1, 0, 8, .rwl⟩,
  ⟨292, 4, 1, 8, 1, .rw⟩,
  ⟨296, 4, 1, 0, 16, .ro⟩,
  ⟨300, 4, 1, 0, 32, .ro⟩,
  ⟨304, 4, 1, 0, 32, .ro⟩,
  ⟨308, 4, 1, 0, 32, .ro⟩,
  ⟨312, 4, 1, 0, 32, .ro⟩,
  ⟨316, 4, 1, 0, 32, .ro⟩,
  ⟨320, 4, 1, 0, 32, .ro⟩,
  ⟨324, 4, 1, 0, 32, .ro⟩,
  ⟨328, 4, 1, 0, 32, .ro⟩,
  ⟨332, 4, 1, 0, 32, .ro⟩,
  ⟨336, 4, 1, 0, 32, .ro⟩,
  ⟨340, 4, 1, 0, 13, .ro⟩]
/-- The registers of a CPL page (R499). -/
def rowsCPL : List FRow := [
  ⟨256, 4, 1, 0, 3, .ro⟩,
  ⟨256, 4, 1, 3, 6, .ro⟩,
  ⟨256, 4, 1, 9, 4, .ro⟩,
  ⟨256, 4, 1, 13, 1, .ro⟩,
  ⟨256, 4, 1, 14, 1, .ro⟩,
  ⟨260, 4, 1, 0, 4, .rwl⟩,
  ⟨260, 4, 1, 4, 4, .rwl⟩,
  ⟨260, 4, 1, 8, 1, .rwl⟩,
  ⟨260, 4, 1, 16, 8, .rw⟩,
  ⟨260, 4, 1, 24, 8, .rw⟩,
  ⟨264, 4, 1, 0, 10, .rw⟩,
  ⟨264, 4, 1, 16, 8, .rw⟩,
  ⟨264, 4, 1, 24, 8, .rw⟩,
  ⟨268, 4, 1, 0, 12, .rwl⟩,
  ⟨268, 4, 1, 31, 1, .rwl⟩,
  ⟨272, 4, 1, 0, 4, .ro⟩,
  ⟨276, 4, 1, 0, 4, .ro⟩,
  ⟨276, 4, 1, 4, 8, .ro⟩,
  ⟨276, 4, 1, 12, 20, .ro⟩,
  ⟨280, 4, 1, 0, 3, .rw⟩,
  ⟨284, 4, 1, 0, 32, .ro⟩,
  ⟨288, 4, 1, 0, 32, .ro⟩,
  ⟨292, 4, 1, 0, 32, .ro⟩,
  ⟨296, 4, 1, 0, 32, .ro⟩,
  ⟨300, 4, 1, 0, 32, .ro⟩,
  ⟨304, 4, 1, 0, 32, .ro⟩,
  ⟨308, 4, 1, 0, 32, .ro⟩,
  ⟨312, 4, 1, 0, 32, .ro⟩,
  ⟨316, 4, 1, 0, 24, .ro⟩]
/-- The registers of a RPL page (R528). -/
def rowsRPL : List FRow := [
  ⟨256, 4, 1, 0, 4, .wo⟩,
  ⟨256, 4, 1, 4, 10, .wo⟩,
  ⟨260, 4, 1, 0, 8, .ro⟩,
  ⟨260, 4, 1, 8, 1, .ro⟩,
  ⟨264, 4, 1, 0, 16, .rwl⟩,
  ⟨264, 4, 1, 16, 4, .rwl⟩,
  ⟨264, 4, 1, 20, 4, .rwl⟩,
  ⟨264, 4, 1, 24, 8, .rw⟩,
  ⟨268, 4, 1, 0, 12, .rw⟩,
  ⟨268, 4, 1, 16, 9, .rw⟩,
  ⟨272, 4, 1, 0, 12, .rwl⟩,
  ⟨272, 4, 1, 31, 1, .rwl⟩,
  ⟨276, 4, 1, 0, 13, .rwl⟩,
  ⟨280, 4, 1, 0, 64, .rwl⟩,
  ⟨288, 4, 1, 0, 64, .rwl⟩,
  ⟨296, 4, 1, 0, 6, .rw⟩,
  ⟨300, 4, 1, 0, 4, .ro⟩,
  ⟨300, 4, 1, 4, 1, .ro⟩,
  ⟨300, 4, 1, 8, 4, .ro⟩,
  ⟨304, 4, 1, 0, 16, .ro⟩,
  ⟨304, 4, 1, 16, 1, .ro⟩,
  ⟨308, 4, 1, 0, 64, .ro⟩,
  ⟨316, 4, 1, 0, 64, .ro⟩,
  ⟨324, 4, 1, 0, 64, .ro⟩,
  ⟨332, 4, 1, 0, 32, .ro⟩,
  ⟨336, 4, 1, 0, 32, .ro⟩]
/-- The registers of a DGE page (R569). -/
def rowsDGE : List FRow := [
  ⟨256, 4, 1, 0, 7, .rw⟩,
  ⟨256, 4, 1, 8, 8, .rw⟩,
  ⟨260, 4, 1, 0, 7, .ro⟩,
  ⟨260, 4, 1, 8, 7, .ro⟩,
  ⟨264, 4, 1, 0, 64, .rwl⟩,
  ⟨272, 4, 1, 0, 17, .rwl⟩,
  ⟨276, 4, 1, 0, 16, .rw⟩,
  ⟨280, 4, 1, 0, 16, .ro⟩,
  ⟨284, 4, 1, 0, 12, .rw⟩,
  ⟨288, 4, 1, 0, 2, .ro⟩,
  ⟨296, 4, 1, 0, 64, .ro⟩,
  ⟨304, 4, 1, 0, 32, .ro⟩,
  ⟨308, 4, 1, 0, 32, .ro⟩]
/-- The registers of a CPH page (R570). -/
def rowsCPH : List FRow := [
  ⟨256, 4, 1, 0, 6, .rw⟩,
  ⟨256, 4, 1, 8, 8, .rw⟩,
  ⟨260, 4, 1, 0, 6, .ro⟩,
  ⟨260, 4, 1, 8, 6, .ro⟩,
  ⟨264, 4, 1, 0, 4, .rw⟩,
  ⟨264, 4, 1, 4, 4, .rw⟩,
  ⟨264, 4, 1, 8, 4, .rw⟩,
  ⟨264, 4, 1, 12, 4, .rw⟩,
  ⟨264, 4, 1, 16, 4, .rw⟩,
  ⟨264, 4, 1, 20, 4, .rw⟩,
  ⟨272, 4, 1, 0, 64, .rwl⟩,
  ⟨280, 4, 1, 0, 17, .rwl⟩,
  ⟨284, 4, 1, 0, 16, .rw⟩,
  ⟨288, 4, 1, 0, 16, .ro⟩,
  ⟨292, 4, 1, 0, 13, .rw⟩,
  ⟨296, 4, 1, 0, 2, .ro⟩,
  ⟨300, 4, 1, 0, 32, .ro⟩,
  ⟨304, 4, 1, 0, 64, .ro⟩,
  ⟨312, 4, 1, 0, 32, .ro⟩,
  ⟨316, 4, 1, 0, 32, .ro⟩]
/-- The registers of a SEC page (R571). -/
def rowsSEC : List FRow := [
  ⟨256, 4, 1, 0, 1, .ro⟩,
  ⟨256, 4, 1, 1, 1, .ro⟩,
  ⟨256, 4, 1, 2, 2, .ro⟩,
  ⟨256, 4, 1, 4, 1, .ro⟩,
  ⟨260, 4, 1, 0, 5, .ro⟩,
  ⟨264, 4, 1, 0, 1, .rwl⟩,
  ⟨264, 4, 1, 1, 1, .rwl⟩,
  ⟨264, 4, 1, 8, 8, .rwl⟩,
  ⟨264, 4, 1, 16, 7, .rwl⟩,
  ⟨268, 4, 1, 0, 4, .wo⟩,
  ⟨268, 4, 1, 4, 1, .wo⟩,
  ⟨268, 4, 1, 5, 13, .wo⟩,
  ⟨272, 4, 1, 0, 2, .rw⟩,
  ⟨272, 4, 1, 2, 1, .rw⟩,
  ⟨272, 4, 1, 4, 12, .rw⟩,
  ⟨280, 4, 1, 0, 64, .rw⟩,
  ⟨288, 4, 1, 0, 64, .rw⟩,
  ⟨296, 4, 1, 0, 64, .rw⟩,
  ⟨304, 4, 1, 0, 8, .ro⟩,
  ⟨304, 4, 1, 8, 1, .ro⟩,
  ⟨308, 4, 1, 0, 4, .wo⟩,
  ⟨308, 4, 1, 4, 2, .wo⟩,
  ⟨312, 4, 1, 0, 64, .rw⟩,
  ⟨320, 4, 1, 0, 64, .rw⟩,
  ⟨328, 4, 1, 0, 8, .ro⟩,
  ⟨328, 4, 1, 8, 1, .ro⟩,
  ⟨336, 4, 1, 0, 64, .ro⟩,
  ⟨344, 4, 1, 0, 14, .ro⟩,
  ⟨348, 4, 1, 0, 32, .ro⟩,
  ⟨352, 4, 1, 0, 64, .rwl⟩]
/-- The registers of a CCL page (R610). -/
def rowsCCL : List FRow := [
  ⟨256, 4, 1, 0, 24, .rw⟩,
  ⟨260, 4, 1, 0, 24, .ro⟩,
  ⟨272, 4, 1, 0, 1, .rw⟩,
  ⟨276, 4, 1, 0, 4, .wo⟩,
  ⟨276, 4, 1, 4, 4, .wo⟩,
  ⟨280, 4, 1, 0, 2, .ro⟩,
  ⟨280, 4, 1, 2, 1, .ro⟩,
  ⟨280, 4, 1, 3, 1, .w1c⟩,
  ⟨280, 4, 1, 4, 1, .w1c⟩,
  ⟨280, 4, 1, 5, 1, .ro⟩,
  ⟨280, 4, 1, 6, 1, .w1c⟩,
  ⟨284, 4, 1, 0, 32, .ro⟩,
  ⟨288, 4, 1, 0, 16, .ro⟩,
  ⟨292, 4, 1, 0, 16, .rw⟩,
  ⟨296, 4, 1, 0, 64, .rw⟩,
  ⟨304, 4, 1, 0, 21, .rw⟩,
  ⟨308, 4, 1, 0, 1, .rw⟩,
  ⟨308, 4, 1, 1, 3, .rw⟩,
  ⟨308, 4, 1, 4, 1, .rw⟩,
  ⟨320, 8, 8, 0, 14, .rwl⟩,
  ⟨320, 8, 8, 31, 1, .rwl⟩,
  ⟨324, 8, 8, 0, 14, .rwl⟩,
  ⟨384, 4, 1, 0, 7, .rw⟩,
  ⟨388, 4, 1, 0, 5, .rw⟩,
  ⟨388, 4, 1, 5, 1, .rw⟩,
  ⟨388, 4, 1, 6, 3, .rw⟩,
  ⟨388, 4, 1, 16, 11, .rw⟩,
  ⟨392, 4, 1, 0, 128, .ro⟩,
  ⟨416, 4, 1, 0, 64, .ro⟩,
  ⟨424, 4, 1, 0, 64, .ro⟩,
  ⟨432, 4, 1, 0, 32, .ro⟩,
  ⟨436, 4, 1, 0, 32, .ro⟩,
  ⟨440, 4, 1, 0, 32, .ro⟩,
  ⟨444, 4, 1, 0, 32, .ro⟩]
/-- The registers of a FCL page (R653). -/
def rowsFCL : List FRow := [
  ⟨256, 4, 1, 0, 64, .w1c⟩,
  ⟨264, 4, 1, 0, 64, .ro⟩,
  ⟨272, 4, 1, 0, 4, .rwl⟩,
  ⟨272, 4, 1, 4, 1, .rwl⟩,
  ⟨272, 4, 1, 8, 8, .rwl⟩,
  ⟨276, 4, 1, 0, 1, .rw⟩,
  ⟨280, 4, 1, 0, 1, .rw⟩,
  ⟨280, 4, 1, 1, 1, .ro⟩,
  ⟨284, 4, 1, 0, 1, .rwl⟩,
  ⟨288, 4, 1, 0, 6, .ro⟩,
  ⟨292, 4, 1, 0, 6, .rw⟩,
  ⟨296, 4, 1, 0, 32, .ro⟩,
  ⟨304, 4, 4, 0, 32, .ro⟩,
  ⟨2048, 32, 64, 0, 256, .ro⟩]
/-- The registers of a EVR page (R661). -/
def rowsEVR : List FRow := [
  ⟨256, 4, 1, 0, 1, .ro⟩,
  ⟨256, 4, 1, 1, 1, .ro⟩,
  ⟨256, 4, 1, 2, 1, .ro⟩,
  ⟨256, 4, 1, 3, 7, .ro⟩,
  ⟨260, 4, 1, 0, 32, .ro⟩,
  ⟨264, 4, 1, 0, 32, .ro⟩,
  ⟨268, 4, 1, 0, 32, .ro⟩,
  ⟨272, 4, 1, 0, 12, .rw⟩,
  ⟨276, 4, 1, 0, 5, .rw⟩,
  ⟨280, 4, 1, 0, 16, .ro⟩,
  ⟨284, 4, 1, 0, 32, .ro⟩,
  ⟨288, 4, 1, 0, 32, .ro⟩]
/-- The registers of a ANX page (R672). -/
def rowsANX : List FRow := [
  ⟨256, 4, 1, 0, 1, .rwl⟩,
  ⟨256, 4, 1, 1, 1, .rwl⟩,
  ⟨260, 4, 1, 0, 32, .ro⟩]
/-- The registers of a core-local page (R609, Table 15-3). -/
def rowsLocal : List FRow := [
  ⟨0, 4, 1, 0, 64, .rw⟩,
  ⟨8, 4, 1, 0, 64, .ro⟩,
  ⟨16, 4, 1, 0, 1, .rw⟩,
  ⟨20, 4, 1, 0, 1, .rw⟩,
  ⟨32, 4, 1, 0, 3, .rw⟩,
  ⟨36, 4, 1, 0, 7, .rw⟩,
  ⟨40, 4, 1, 0, 3, .rw⟩,
  ⟨44, 4, 1, 0, 7, .rw⟩]
/-- The block code of an assigned page (R668): its first instance's page; 0 for an unassigned page. -/
def blockOf (page : Nat) : Nat :=
  if page = 0 ∨ 32 < page then 0
  else if 6 ≤ page ∧ page ≤ 9 then 6
  else if 23 ≤ page ∧ page ≤ 26 then 23
  else page
/-- The rows a block places after its header, by block code (R674). -/
def blockRows (code : Nat) : List FRow :=
  match code with
  | 1 => rowsBSV
  | 2 => rowsFCL
  | 3 => rowsEVR
  | 4 => rowsSEC
  | 5 => rowsTBS
  | 6 => rowsHFX
  | 10 => rowsNVT
  | 11 => rowsSLM
  | 12 => rowsING
  | 13 => rowsDGE
  | 15 => rowsCPH
  | 16 => rowsSGB
  | 17 => rowsRBE
  | 18 => rowsJRN
  | 19 => rowsMPE
  | 20 => rowsMPC
  | 21 => rowsFMM
  | 22 => rowsLDC
  | 23 => rowsJLK
  | 27 => rowsCPL
  | 28 => rowsRPL
  | 29 => rowsHBC
  | 30 => rowsDDC
  | 31 => rowsANX
  | 32 => rowsCCL
  | _ => []
/-- CAP.UNITS_MAX by block code (R668, Table 18-1). -/
def unitsMax (code : Nat) : Nat :=
  match code with
  | 1 => 1
  | 2 => 1
  | 3 => 1
  | 4 => 1
  | 5 => 1
  | 6 => 16
  | 10 => 1
  | 11 => 1
  | 12 => 1
  | 13 => 96
  | 14 => 160
  | 15 => 48
  | 16 => 1
  | 17 => 1
  | 18 => 1
  | 19 => 1
  | 20 => 1
  | 21 => 1
  | 22 => 72
  | 23 => 32
  | 27 => 32
  | 28 => 1
  | 29 => 64
  | 30 => 16
  | 31 => 16
  | 32 => 24
  | _ => 0
/-- Whether CTL.SOFT_RST is accepted, by block code (R668, Table 18-1). -/
def softRst (code : Nat) : Bool :=
  code == 6 || code == 10 || code == 12 || code == 14 || code == 22 || code == 23 || code == 28
/-- Whether IFVER is meaningful, by block code (Table 18-5, CAP.LINKED). -/
def linkedBlk (code : Nat) : Bool :=
  code == 23 || code == 27 || code == 31
/-- ERR_CLASS after reset, by block code: the "Class after reset" columns of the error tables (R47, R115, R169, R211, R250, R300, R322, R377, R421, R456, R500, R529, R572, R611, R641, R654, R662, R673). -/
def errClassReset (code : Nat) : Nat :=
  match code with
  | 1 => 0x1400
  | 2 => 0x0
  | 3 => 0x10
  | 4 => 0x7B
  | 5 => 0x24
  | 6 => 0x28
  | 10 => 0x0
  | 11 => 0x40
  | 12 => 0x5
  | 13 => 0x8
  | 14 => 0x95
  | 15 => 0x90
  | 16 => 0x0
  | 17 => 0x4
  | 18 => 0x0
  | 19 => 0x5
  | 20 => 0xC
  | 21 => 0x80
  | 22 => 0x21
  | 23 => 0x120
  | 27 => 0x10C20
  | 28 => 0x40
  | 29 => 0x2B4
  | 30 => 0xA4
  | 31 => 0x0
  | 32 => 0x8C0
  | _ => 0
/-- The ERR_STAT bit of a block's control-space access error (R23), by block code. -/
def accessErrBit (code : Nat) : Nat :=
  match code with
  | 1 => 7
  | 2 => 2
  | 3 => 4
  | 4 => 6
  | 5 => 4
  | 6 => 3
  | 10 => 3
  | 11 => 4
  | 12 => 3
  | 13 => 2
  | 14 => 4
  | 15 => 4
  | 16 => 4
  | 17 => 4
  | 18 => 3
  | 19 => 4
  | 20 => 4
  | 21 => 6
  | 22 => 3
  | 23 => 8
  | 27 => 9
  | 28 => 4
  | 29 => 6
  | 30 => 4
  | 31 => 3
  | 32 => 8
  | _ => 0
/-- Number of error sources a block's table names, by block code. -/
def errSources (code : Nat) : Nat :=
  match code with
  | 1 => 8
  | 2 => 3
  | 3 => 5
  | 4 => 7
  | 5 => 5
  | 6 => 4
  | 10 => 4
  | 11 => 5
  | 12 => 4
  | 13 => 3
  | 14 => 5
  | 15 => 5
  | 16 => 5
  | 17 => 5
  | 18 => 4
  | 19 => 5
  | 20 => 5
  | 21 => 7
  | 22 => 4
  | 23 => 9
  | 27 => 10
  | 28 => 5
  | 29 => 7
  | 30 => 5
  | 31 => 4
  | 32 => 9
  | _ => 0
/-- Words of a block page that are not 0 after reset, by offset (the Reset columns of the register tables). -/
def blockReset (code : Nat) : List (Nat × Nat) :=
  match code with
  | 1 => [(0x100, 0x1), (0x10C, 0x1), (0x134, 0x48), (0x144, 0xC0A8FE14), (0x148, 0x18)]
  | 2 => [(0x110, 0x141C), (0x118, 0x2)]
  | 3 => [(0x100, 0x1), (0x110, 0x690)]
  | 4 => [(0x100, 0xC), (0x108, 0x100C03)]
  | 5 => [(0x10C, 0x32), (0x110, 0x27100008), (0x138, 0x3C)]
  | 6 => [(0x100, 0x23EE0087), (0x104, 0x23EE0087), (0x108, 0x23EE0087), (0x10C, 0x23EE0087)]
  | 10 => [(0x100, 0x1144), (0x104, 0x1F49), (0x10C, 0x40000), (0x140, 0x4B)]
  | 11 => [(0x124, 0x13880), (0x128, 0x61A8), (0x168, 0x18)]
  | 12 => [(0x100, 0x6603), (0x110, 0x0), (0x114, 0xA)]
  | 13 => [(0x100, 0xA08), (0x104, 0x60)]
  | 15 => [(0x100, 0x6408), (0x104, 0x30), (0x108, 0xCA8320)]
  | 16 => [(0x110, 0x510), (0x150, 0x100200)]
  | 17 => [(0x100, 0x14001E)]
  | 18 => [(0x100, 0x4E20)]
  | 19 => [(0x120, 0x32003C), (0x148, 0x55)]
  | 20 => [(0x124, 0x40)]
  | 21 => [(0x100, 0xA04), (0x104, 0x19140528), (0x108, 0x3206), (0x10C, 0xA007), (0x110, 0x6403E8), (0x114, 0xF0C), (0x118, 0x20402)]
  | 22 => [(0x100, 0x12010), (0x104, 0x840)]
  | 23 => [(0x108, 0xA106415), (0x10C, 0x640400), (0x124, 0x5)]
  | 27 => [(0x104, 0x1E640140), (0x108, 0x18050064), (0x118, 0x1), (0x13C, 0xFFFFFF)]
  | 28 => [(0x108, 0x1E311D17), (0x10C, 0x1000040)]
  | 29 => [(0x114, 0x40), (0x118, 0x100)]
  | 30 => [(0x110, 0x18), (0x114, 0x400)]
  | 31 => [(0x100, 0x1)]
  | 32 => [(0x100, 0x1), (0x134, 0x15)]
  | _ => []
/-- The value a list of pairs gives a key, or 0. -/
def lookupOr0 (l : List (Nat × Nat)) (k : Nat) : Nat :=
  match l with
  | [] => 0
  | (a, v) :: t => if a = k then v else lookupOr0 t k
/-- ID after reset on an instance that is not fused off (Table 18-5): CODE, INST, VERSION 0x10. -/
def idReset (page : Nat) : Nat := blockOf page + 256 * (page - blockOf page) + 0x100000
/-- CAP after reset on an instance that is not fused off (Table 18-5, Table 18-1). -/
def capReset (code : Nat) : Nat :=
  unitsMax code + 1024 * unitsMax code + (if linkedBlk code then 0x100000 else 0)
    + (if softRst code then 0x200000 else 0)
/-- A header word after reset (Tables 17-1, 17-16, 18-5). -/
def hdrReset (page off : Nat) : Nat :=
  match off with
  | 0x000 => idReset page
  | 0x004 => capReset (blockOf page)
  | 0x008 => 1
  | 0x018 => errClassReset (blockOf page) % 4294967296
  | 0x01C => errClassReset (blockOf page) / 4294967296
  | 0x030 => if blockOf page = 30 then 0x3200 else 0x6400
  | _ => 0
/-- What a control-space word holds after reset, by its key: page × 4096 + offset in the control space,
0x4000000 + core × 4096 + offset for the core-local pages (R609: mtimecmp and stimecmp all ones). -/
def resetWord (addr : Nat) : Word :=
  if 0x4000000 ≤ addr then
    (if addr % 4096 ≤ 4 then 0xFFFFFFFF#32 else 0#32)
  else
    let page := addr / 4096
    let off := addr % 4096
    if blockOf page = 0 then 0#32
    else if off < 0x100 then BitVec.ofNat 32 (hdrReset page off)
    else BitVec.ofNat 32 (lookupOr0 (blockReset (blockOf page)) off)

end Sys2Proof.Machine
end

