-- ==== Sys2Proof/Parts/Carid.lean ====
section
/-! DEFINITION. State of CPL: the Carid link, its sequence and credits, heartbeats, joins, moves and takeover. -/
namespace Sys2Proof

/-- CPL beyond its registers (R457 to R500). -/
structure Cpl where
  /-- [64; R460, 12_partner_pairing.md; reset 0] local time the link state was entered -/
  since  : Nat := 0
  /-- [32; R459, 12_partner_pairing.md; reset 0] lanes aligned, one bit each -/
  lanes  : Nat := 0
  /-- [1; R472, 12_partner_pairing.md; reset false] the retraining in progress exchanges HELLO again -/
  rehello : Bool := false
  /-- [16 B; R461, 12_partner_pairing.md; reset none] own nonce of this negotiation, and the partner's -/
  nonce  : Bytes := []
  pNonce : Bytes := []
  /-- [64; R461, 12_partner_pairing.md; reset none] local time the last HELLO was sent -/
  helloAt : Option Nat := none
  /-- [32 B; R466, 12_partner_pairing.md; reset none] keys to transmit and to receive, and the receive key that applies from an XSEQ -/
  txKey  : Bytes := []
  rxKey  : Bytes := []
  rxNew  : Option (Nat × Bytes) := none
  txNew  : Option (Nat × Bytes) := none
  /-- [64; R472, 12_partner_pairing.md; reset 0] local time of the last key change -/
  keyAt  : Nat := 0
  /-- [64; R467, 12_partner_pairing.md; reset 0] next XSEQ, next XSEQ expected, and UCTR -/
  xseq   : Nat := 0
  rxNext : Nat := 0
  uctr   : Nat := 0
  /-- [16,384; R469, 12_partner_pairing.md; reset none] frames sent and not acknowledged, and messages that wait -/
  unack  : List (Nat × CMsg × CSent) := []
  queue  : List CMsg := []
  /-- [4 × 16; R469, 12_partner_pairing.md; reset 0] credits by channel: held for sending, still held by the other end, to return -/
  txCred : AMap Nat := []
  rxCred : AMap Nat := []
  owed   : AMap Nat := []
  /-- [64; R436, 11_jonan_link.md; reset none] local time of the last NAK, oldest frame not acknowledged, consecutive replays -/
  nakAt  : Option Nat := none
  ackDue : Option Nat := none
  replays : Nat := 0
  /-- [16; R471, 12_partner_pairing.md; reset none] local times of AUTH failures of the last 1 ms -/
  authAt : List Nat := []
  /-- [24-bit indexes × 8; R489, 12_partner_pairing.md; reset none] ADMIN requests without an answer yet: index to generation, and the last
  generation of each index -/
  asks   : AMap Nat := []
  askGen : AMap Nat := []
  /-- [32; R489, 12_partner_pairing.md; reset 0] ATAG of the JOIN_REQ and of the RELEASE_REQ that wait for their answer -/
  jTag   : Nat := 0
  relTag : Nat := 0
  /-- [8 × 5 × 32; R469, 12_partner_pairing.md; reset 0] NAK counters by channel × 8 + code -/
  cnt    : AMap Nat := []
  /-- [64; R487, 12_partner_pairing.md; reset 0] HEARTBEAT SEQ sent, local time of the last one sent and of the last LACK -/
  hbSeq  : Nat := 0
  hbSent : Nat := 0
  lackAt : Nat := 0
  /-- [64; R487, 12_partner_pairing.md; reset none] local time, mode code, flags and claim generation of the last valid HEARTBEAT -/
  hbAt   : Option Nat := none
  hbMode : Nat := 0
  hbFlags : Nat := 0
  hbPSeq  : Nat := 0
  /-- [6; R461, 12_partner_pairing.md; reset 0] usable lanes of the partner, from its HELLO -/
  pLanes : Nat := 0
  /-- [64; R488, 12_partner_pairing.md; reset none] local time since which the split conditions have held -/
  splitAt : Option Nat := none
  /-- [24-bit indexes × 8; R477, 12_partner_pairing.md; reset none] generation current for each mirror-token index of the partner -/
  mGen   : AMap Nat := []
  /-- [list; R475, 12_partner_pairing.md; reset none] tokens of the partner answered with RANGE -/
  mBad   : List Nat := []
  /-- [2; R493, 12_partner_pairing.md; reset 0] part in a join: 0 none, 1 joiner, 2 server -/
  role   : Nat := 0
  /-- [96; R493, 12_partner_pairing.md; reset 0] cut J, and the switch OSTAMP once agreed (R494) -/
  cut    : Nat := 0
  switch : Option Nat := none
  /-- [4; R465, 12_partner_pairing.md; reset 0] highest minor of the joiner, and the OSTAMP a checkpoint must pass first -/
  jMinor : Nat := 0
  waitFor : Nat := 0
  /-- [64; R494, 12_partner_pairing.md; reset none] order number below which writes were admitted before instant m -/
  opM    : Option Nat := none
  /-- [3; R493, 12_partner_pairing.md; reset false] the joiner has loaded its replica; dies released; dies claimed -/
  loaded : Bool := false
  /-- release of dies: 0 none, 1 programs finish, 2 die records are written, 3 releases sent, 4 released -/
  relStage : Nat := 0
  diesOk : Bool := false
  /-- [32; R493, 12_partner_pairing.md; reset 0] meter ring position still to be sent in RING messages -/
  ringAt : Option Nat := none
  /-- [groups; R490, 12_partner_pairing.md; reset none] moves: group to (move OSTAMP, new owner); proposals not yet answered -/
  moves  : AMap (Nat × Nat) := []
  props  : AMap (Nat × Nat) := []
  /-- [1; R72, 02_operating_modes.md; reset false] HO_REQ sent and not answered; the partner's handover accepted here -/
  hoSent : Bool := false
  hoFrom : Bool := false
  /-- [32; R73, 02_operating_modes.md; reset false] the drain's final METER_CNT has been sent -/
  hoFinal : Bool := false
  /-- [1; R73, 02_operating_modes.md; reset false] the partner has claimed this head's dies at HANDOVER; its final meters are acknowledged -/
  hoClaimed : Bool := false
  hoMeters  : Nat := 0
  deriving DecidableEq, Repr

end Sys2Proof
end

