-- ==== Sys2Proof/Parts/Cluster.lean ====
section
/-! DEFINITION. The control cluster: what each core keeps beside its instruction set, and the L1 and L2 caches (R573 to R608). -/
namespace Sys2Proof

/-- A stream entry of a core's stride prefetcher (R586): bits 12..1 of the instruction's address, the address accessed last, the
stride and the count. -/
structure Stream where
  idx    : Nat
  last   : Nat
  stride : Int := 0
  cnt    : Nat := 0
  deriving DecidableEq, Repr

/-- A core (R573 to R578). Lines are physical addresses divided by 64. -/
structure Core where
  /-- [16 entries; R586, 15_control_cluster.md; reset none] stride prefetcher, least recently used first -/
  streams : List Stream := []
  /-- [64 KiB, 8-way; R583, 15_control_cluster.md; reset empty] lines of the L1 data cache and whether dirty, least recently used first -/
  l1d     : List (Nat × Bool) := []
  /-- [64 KiB, 4-way; R583, 15_control_cluster.md; reset empty] lines of the L1 instruction cache, least recently used first -/
  l1i     : List Nat := []
  /-- [line; R574, 15_control_cluster.md; reset none] line an LR has reserved -/
  resv    : Option Nat := none
  /-- [1; R578, 15_control_cluster.md; reset false] machine and supervisor timer interrupt pending -/
  mtip    : Bool := false
  stip    : Bool := false
  /-- [64; R578, 15_control_cluster.md; reset all ones: DESIGN CHOICE, log 64] stimecmp -/
  stimecmp : Nat := 18446744073709551615
  deriving DecidableEq, Repr

/-- A request a slice of L2 has taken in and not yet answered (R591, R592). -/
structure CacheReq where
  /-- core, or 24 for the MPE walker port -/
  who   : Nat
  addr  : Nat
  priv  : Bool := false
  store : Bool := false
  /-- the L1 it fills: 0 none, 1 data, 2 instruction -/
  l1    : Nat := 0
  /-- value of a load as of its place in the slice's order -/
  val   : Option Nat := none
  answered : Bool := false
  deriving DecidableEq, Repr

/-- A miss register (R591): prefetched tells that a prefetch took it. -/
structure MissReg where
  line : Nat
  reqs : List CacheReq := []
  prefetched : Bool := false
  deriving DecidableEq, Repr

/-- A line L2 holds: its way and whether it is dirty. -/
structure L2Line where
  line  : Nat
  way   : Nat
  dirty : Bool := false
  deriving DecidableEq, Repr

/-- The control cluster. -/
structure Ccl where
  /-- [24; R573, 15_control_cluster.md; reset: as a core's own lines say] cores by number; an unlisted one is as at reset -/
  cores : AMap Core := []
  /-- [16 MiB, 16-way; R589, 15_control_cluster.md; reset empty] lines of L2, least recently used first -/
  l2    : List L2Line := []
  /-- [4 × 32; R591, 15_control_cluster.md; reset none] miss registers -/
  regs  : List MissReg := []
  /-- [4 queues; R591, 15_control_cluster.md; reset empty] requests waiting at their slice -/
  queue : List CacheReq := []
  /-- [4 × 64 lines; R593, 15_control_cluster.md; reset empty] side buffers, oldest first -/
  side  : List Nat := []
  /-- [32; R593, 15_control_cluster.md; reset 0] prefetched lines dropped unused, shown as CCL.CNT_SB_DROP -/
  drops : Nat := 0
  /-- [4; R599, 15_control_cluster.md; reset none] way of the preload that runs -/
  preload : Option Nat := none
  /-- [32; R598, 15_control_cluster.md; reset 0] lines written back by the drain that runs -/
  drained : Nat := 0
  deriving DecidableEq, Repr

/-- A write by any requester to a run of bytes (R594): its lines leave the side buffers, and reservations on them end. -/
def Ccl.wrote (c : Ccl) (a k : Nat) : Ccl :=
  let hit := fun (l : Nat) => decide (a / 64 ≤ l ∧ l * 64 < a + k)
  let gone := (c.side.filter hit).length
  { c with side := c.side.filter (fun l => !hit l), drops := min 0xFFFFFFFF (c.drops + gone)
           cores := c.cores.map (fun e => (e.1, { e.2 with resv := e.2.resv.filter (fun l => !hit l) })) }

end Sys2Proof
end

