-- ==== Sys2Proof/Parts/Control.lean ====
section
/-! DEFINITION. State of the always-on and timebase blocks: modes, pins, straps, fuses, TBS, BSV, FCL, EVR and the power states. -/
namespace Sys2Proof

/-- The eight operating modes (R52, Table 2-1). -/
inductive Mode where
  | boot | isolated | joining | paired | solo | handover | vault | service
  deriving DecidableEq, Repr

/-- The three ordering variants (R2, Table 1-9). -/
inductive Variant where
  | ilv6440 | ilv6432 | ilv6424
  deriving DecidableEq, Repr

/-- The pins the model reads and drives (R652, R697 to R710). Levels: true is high. -/
structure Pins where
  /-- [1; R698, 19_package_electrical.md; reset true: DESIGN CHOICE, log 3] RESET_N level -/
  resetN : Bool := true
  /-- [64; R698, 19_package_electrical.md; reset 0: DESIGN CHOICE, log 3] local time of the last fall of RESET_N -/
  resetFallAt : Nat := 0
  /-- [1; R702, 19_package_electrical.md; reset true: DESIGN CHOICE, log 3] PWR_FAIL_N level -/
  pwrFailN : Bool := true
  /-- [64; R79, 02_operating_modes.md; reset none] local time of the last rise of PWR_FAIL_N, if it has fallen -/
  pwrRiseAt : Option Nat := none
  /-- [64; R693, 19_package_electrical.md; reset 0: DESIGN CHOICE, log 3] local time of the last fall of PWR_FAIL_N -/
  pwrFallAt : Nat := 0
  /-- [1; R707, 19_package_electrical.md; reset false: DESIGN CHOICE, log 3] PRSNT_N level -/
  prsntN : Bool := false
  /-- [64; R707, 19_package_electrical.md; reset 0: DESIGN CHOICE, log 3] local time PRSNT_N fell with rails good -/
  prsntLowAt : Nat := 0
  /-- [1; R707, 19_package_electrical.md; reset true: DESIGN CHOICE, log 3] rails good -/
  railsGood : Bool := true
  /-- [1; R707, 19_package_electrical.md; reset false] SerDes lanes may train -/
  lanesEnabled : Bool := false
  /-- [1; R709, 19_package_electrical.md; reset true: DESIGN CHOICE, log 3] EJECT_REQ_N level after its debounce -/
  ejectReqN : Bool := true
  /-- [1; R709, 19_package_electrical.md; reset false] eject request reported to firmware -/
  ejectReported : Bool := false
  /-- [1; R699, 19_package_electrical.md; reset true: DESIGN CHOICE, log 3] SERVICE_EN level -/
  serviceEn : Bool := true
  /-- [2; R699, 19_package_electrical.md; reset 0: DESIGN CHOICE, log 3] SLOT_ID strap level -/
  slotId : Nat := 0
  /-- [1; R74, 02_operating_modes.md; reset true] READY_REMOVE_N level -/
  readyRemoveN : Bool := true
  /-- [1; R697, 19_package_electrical.md; reset true: DESIGN CHOICE, log 3] REFCLK_PCIE present -/
  refclkPcie : Bool := true
  /-- [1; R556, 14_digest_cipher_signatures.md; reset true: DESIGN CHOICE, log 3] TAMPER_N level -/
  tamperN : Bool := true
  /-- [1; R94, 03_stamps_and_order.md; reset true: DESIGN CHOICE, log 3] VBAT present -/
  vbat : Bool := true
  deriving DecidableEq, Repr

/-- One of the four image key hashes in the fuses (R560). -/
structure KeyHash where
  hash    : Bytes
  revoked : Bool
  deriving DecidableEq, Repr

/-- Values fixed by fuse (R50, R560, R618, R566, Table 16-7). -/
structure Fuses where
  /-- [2; R2, 00_scope.md; reset ilv6440: DESIGN CHOICE, log 4] ordering variant -/
  variant : Variant := .ilv6440
  /-- [7; R618, 16_boot_update.md; reset 0: DESIGN CHOICE, log 4] anti-rollback fuses blown -/
  antiRollback : Nat := 0
  /-- [4 × 257; R560, 14_digest_cipher_signatures.md; reset none: DESIGN CHOICE, log 4] image key hashes -/
  keyHashes : List KeyHash := []
  /-- [256; R548, 14_digest_cipher_signatures.md; reset zeros: DESIGN CHOICE, log 4] root fuse from which DRK is derived -/
  root : Nat := 0
  /-- [14; R566, 14_digest_cipher_signatures.md; reset 0: DESIGN CHOICE, log 4] reservation fuses blown -/
  reservation : Nat := 0
  /-- [64; R714, 19_package_electrical.md; reset 0: DESIGN CHOICE, log 4] part serial -/
  serial : Nat := 0
  deriving DecidableEq, Repr

/-- Straps sampled at the rise of RESET_N (R699). -/
structure Straps where
  /-- [1; R699, 19_package_electrical.md; reset 0: DESIGN CHOICE, log 3] head number, SLOT_ID[0] -/
  head : Nat := 0
  /-- [1; R699, 19_package_electrical.md; reset true: DESIGN CHOICE, log 3] SERVICE_EN as sampled -/
  serviceEn : Bool := true
  deriving DecidableEq, Repr

/-- The timebase and Tether (R87 to R115). -/
structure Tbs where
  /-- [64; R87, 03_stamps_and_order.md; reset 0] the time counter, shown as TBS.ESTAMP -/
  phys : Nat := 0
  /-- [1; R92, 03_stamps_and_order.md; reset false] the counter runs -/
  started : Bool := false
  /-- [1; R92, 03_stamps_and_order.md; reset false] PHYS has been set under R70 for SOLO -/
  soloSet : Bool := false
  /-- [64; R92, 03_stamps_and_order.md; reset 0] start value S of this BOOT -/
  startS : Nat := 0
  /-- [64; R96, 03_stamps_and_order.md; reset none] UTC in ns that anchors PHYS when it starts: the RTC as BOOT read it -/
  rtcRead : Option Nat := none
  /-- [64; R659, 17_faults_recorder_power.md; reset 0] the ceiling read at this BOOT -/
  bootCeiling : Nat := 0
  /-- [64; R90, 03_stamps_and_order.md; reset none] ceiling being written -/
  ceilWrite : Option Nat := none
  /-- [1; R91, 03_stamps_and_order.md; reset false] a ceiling write waits -/
  ceilWaits : Bool := false
  /-- [32; R614, 16_boot_update.md; reset 0: DESIGN CHOICE, log 5] sequence of the last ceiling log entry -/
  ceilSeq : Nat := 0
  /-- [64; R110, 03_stamps_and_order.md; reset none] forward step waiting for its ceiling -/
  stepAfterCeil : Option Nat := none
  /-- [41 × 88; R101, 03_stamps_and_order.md; reset none issued] last stamp of each issuing unit -/
  issuers : AMap Ostamp := []
  /-- [96; R102, 03_stamps_and_order.md; reset 0] the floor -/
  floor : Ostamp := 0
  /-- [128; R103, 03_stamps_and_order.md; reset none] issuers stalled on LOGICAL overflow, with the PHYS to pass -/
  ovfStalls : AMap Nat := []
  /-- [64; R94, 03_stamps_and_order.md; reset 0: DESIGN CHOICE, log 5] RTC count in 1/32,768 s since 1970-01-01 -/
  rtc : Nat := 0
  /-- [32; R94, 03_stamps_and_order.md; reset 0] part of an RTC unit elapsed, in 1/10^9 units -/
  rtcFrac : Nat := 0
  /-- [1; R94, 03_stamps_and_order.md; reset false: kept on VBAT] RTC VALID -/
  rtcValid : Bool := false
  /-- [1; R94, 03_stamps_and_order.md; reset false: kept on VBAT] RTC_LOST -/
  rtcLost : Bool := false
  /-- [64; R95, 03_stamps_and_order.md; reset 0] ESTAMP of the last hourly RTC update -/
  rtcUpdAt : Nat := 0
  /-- [64; R96, 03_stamps_and_order.md; reset none] EPOCH_UTC of the array identity record -/
  epochUtc : Option Nat := none
  /-- [8; R109, 03_stamps_and_order.md; reset 0] rate correction in ppm, -100 to 100 -/
  rate : Int := 0
  /-- [32; R109, 03_stamps_and_order.md; reset 0] fraction of a nanosecond accumulated by the rate, in 1/10^6 ns -/
  frac : Int := 0
  /-- [AMap; R105, 03_stamps_and_order.md; reset none] exchanges started and not ended: number and t1 -/
  exch : AMap Nat := []
  /-- [32; R486, 12_partner_pairing.md; reset 0] number of the next exchange -/
  exNext : Nat := 0
  /-- [64; R105, 03_stamps_and_order.md; reset 0] local PHYS of the last exchange started -/
  exAt : Nat := 0
  /-- [64; R111, 03_stamps_and_order.md; reset 0] PHYS at the last completed exchange -/
  lastDone : Nat := 0
  /-- [64; R112, 03_stamps_and_order.md; reset 0] PHYS at the last exchange within ε, or the start R112 substitutes -/
  lastGood : Nat := 0
  /-- [33; R112, 03_stamps_and_order.md; reset 0] twice the magnitude of the last θ, which EPS_CUR grows from -/
  theta2 : Nat := 0
  /-- [3; R111, 03_stamps_and_order.md; reset 0] consecutive exchanges not within ε -/
  badRun : Nat := 0
  /-- [1; R112, 03_stamps_and_order.md; reset false] an exchange within ε has occurred since the exchanges began -/
  goodSeen : Bool := false
  /-- [1; R110, 03_stamps_and_order.md; reset false] the step decision of this join has been made -/
  stepDone : Bool := false
  deriving DecidableEq, Repr

/-- Cabinet record as it stands in the log (R631, Table 16-9). -/
structure CabRec where
  deleted : Bool
  kill    : Bool
  cls     : Nat
  fmt     : Nat
  key     : Nat
  seq     : Nat
  imgen   : Nat
  body    : Bytes
  deriving DecidableEq, Repr

/-- A Cabinet sector: its sequence and the records appended to it, oldest first (R631, R634). -/
structure CabSector where
  idx  : Nat
  seq  : Nat
  used : Nat
  recs : List CabRec
  deriving DecidableEq, Repr

/-- The boot record body (Table 16-6). -/
structure BootRec where
  confirmed  : Nat := 0xFF
  trial      : Nat := 0xFF
  tries      : Nat := 0
  flags      : Nat := 0
  windowH    : Nat := 0
  trialStart : Nat := 0
  confSecver : Nat := 0
  confCarid  : Nat := 0
  confCabfmt : Nat := 0
  confGen    : Nat := 0
  trialGen   : Nat := 0
  nextGen    : Nat := 1
  deriving DecidableEq, Repr

/-- A boot-flash job of BSV (R613, R615, R630, R633). -/
inductive FlJob where
  | cabAppend (r : CabRec)                       -- append for firmware, answers FL_STAT
  | slotData  (addr : Nat) (data : Bytes) (last : Bool) (block : Nat)
  | bootOk | confirm | revert                     -- the boot-record write of an update command that PWR_FAIL_N held back
  deriving DecidableEq, Repr

/-- The transfer the TFTP server runs (R629, R630). -/
structure Tftp where
  upload   : Bool            -- true: WRQ of image; false: RRQ of status
  tid      : Nat             -- the client's address and port
  slot     : Nat
  blksize  : Nat
  blkOpt   : Bool            -- an OACK was sent
  nextBlk  : Nat             -- full block count expected next (wraps on the wire)
  bytes    : Nat
  lastSent : Bytes
  lastAt   : Nat
  retries  : Nat
  header   : Bytes           -- first 256 bytes received
  deriving DecidableEq, Repr

/-- Boot, update and Cabinet state of BSV (R612 to R641). -/
structure Bsv where
  /-- [4; R52, 02_operating_modes.md; reset 0x1] BSV.MODE.MODE -/
  mode : Mode := .boot
  /-- [4; R55, 02_operating_modes.md; reset 0x0] BSV.MODE.PREV -/
  prev : Option Mode := none
  /-- [8; R55, 02_operating_modes.md; reset 0x00] BSV.MODE.CAUSE -/
  cause : Nat := 0
  /-- [1; R53, 02_operating_modes.md; reset 0] BSV.MODE.PENDING -/
  pending : Bool := false
  /-- [1; R81, 02_operating_modes.md; reset 0] BSV.MODE.GONDOLA_VALID -/
  gondolaValid : Bool := false
  /-- [32; R81, 02_operating_modes.md; reset 0] claim generation in the seal of the Gondola that GONDOLA_VALID reports -/
  gondolaGen : Nat := 0
  /-- [1; R700, 19_package_electrical.md; reset false] the boot sequence waits for PWR_FAIL_N -/
  bootHeld : Bool := false
  /-- [2; R700, 19_package_electrical.md; reset none] slots that do not read back, as the held boot sequence will find them -/
  bootBad : List Nat := []
  /-- [1; R44, 01_architecture.md; reset false] entered ISOLATED from BOOT or by a channel fence, so AUTO_JOIN may act -/
  autoJoinArmed : Bool := false
  /-- [1; R622, 16_boot_update.md; reset false] an image was chosen and loaded -/
  imageLoaded : Bool := false
  /-- [1; R57, 02_operating_modes.md; reset false] SERVE_SOLO waits for quorum -/
  soloAsked : Bool := false
  /-- [1; R56, 02_operating_modes.md; reset false] STOP waits for admitted commands -/
  stopAsked : Bool := false
  /-- [8; R56, 02_operating_modes.md; reset none] SOLO leaves for ISOLATED under this cause once admitted commands have completed -/
  leaveCause : Option Nat := none
  /-- [1; R64, 02_operating_modes.md; reset none] local time partner loss was declared -/
  lossAt : Option Nat := none
  /-- [1; R63, 02_operating_modes.md; reset false] heartbeat and witness stopped -/
  silent : Bool := false
  /-- [4; R56, 02_operating_modes.md; reset false] maps loaded in DRAM -/
  mapsLoaded : Bool := false
  /-- [1; R70, 02_operating_modes.md; reset false] the head has served since BOOT -/
  served : Bool := false
  /-- [1; R75, 02_operating_modes.md; reset false] VAULT waits: the Gondola was sealed or abandoned -/
  vaultDone : Bool := false
  /-- [64; R80, 02_operating_modes.md; reset 0] local time VAULT was entered -/
  vaultAt : Nat := 0
  /-- [128; R96, 03_stamps_and_order.md; reset none: DESIGN CHOICE, log 6] array identity in the array identity record of Cabinet -/
  arrayId : Option Nat := none
  /-- [1,024; R62, 02_operating_modes.md; reset head 0 for every group: DESIGN CHOICE, log 6] preferred owners held in Cabinet -/
  pref : AMap Nat := []
  /-- [4; R464, 12_partner_pairing.md; reset 0: DESIGN CHOICE, log 6] ACVER in the array identity record -/
  acver : Nat := 0
  /-- [32 MiB; R631, 16_boot_update.md; reset empty: DESIGN CHOICE, log 6] Cabinet sectors in use, oldest first -/
  cab : List CabSector := []
  /-- [64; R631, 16_boot_update.md; reset 0: DESIGN CHOICE, log 6] last Cabinet SEQ issued -/
  cabSeq : Nat := 0
  /-- [32; R631, 16_boot_update.md; reset 0: DESIGN CHOICE, log 6] last sector sequence issued -/
  cabSectorSeq : Nat := 0
  /-- [1; R619, 16_boot_update.md; reset none] the boot record -/
  bootRec : Option BootRec := none
  /-- [2; R630, 16_boot_update.md; reset both incomplete: DESIGN CHOICE, log 6] slots marked incomplete -/
  incomplete : List Nat := [0, 1]
  /-- [1; R621, 16_boot_update.md; reset none] running slot -/
  running : Option Nat := none
  /-- [16; R633, 16_boot_update.md; reset 0] CABFMT of the running image -/
  runFmt : Nat := 0
  /-- [8; R638, 16_boot_update.md; reset 0] CARID byte of the running image -/
  runCarid : Nat := 0
  /-- [16; R632, 16_boot_update.md; reset 0] image generation of the running image -/
  runGen : Nat := 0
  /-- [64; R616, 16_boot_update.md; reset 0] ENTRY of the running image -/
  entry : Nat := 0
  /-- [queue; R615, 16_boot_update.md; reset none] boot-flash jobs, the first one in progress -/
  jobs : List FlJob := []
  /-- [1; R76 and R623, 16_boot_update.md; reset false] the first job has not started, because PWR_FAIL_N held the flash -/
  jobHeld : Bool := false
  /-- [1; R629, 16_boot_update.md; reset none] TFTP transfer -/
  tftp : Option Tftp := none
  deriving DecidableEq, Repr

/-- A log entry FCL has yet to stamp (R91, R92, R103): repeat key, instance, source, class byte, mode code, DETAIL, and local time of the
occurrence. -/
structure FclWait where
  key    : Nat
  inst   : Nat
  src    : Nat
  cls    : Nat
  mode   : Nat
  detail : Nat
  at0    : Nat
  deriving DecidableEq, Repr

/-- The fault collector beyond its registers (R649 to R652). -/
structure Fcl where
  /-- [queue; R91, 03_stamps_and_order.md; reset none] occurrences whose log entry waits while FCL's issuer stalls -/
  wait : List FclWait := []
  /-- [AMap; R651, 17_faults_recorder_power.md; reset none] per instance × 32 + source: local time and log index of the last entry -/
  last : AMap (Nat × Nat) := []
  /-- [64; R652, 17_faults_recorder_power.md; reset none] local time of the latest qualifying occurrence -/
  lastQual : Option Nat := none
  /-- [33 × units; R40, 01_architecture.md; reset none] fenced units per page -/
  fenced : AMap (List Nat) := []
  /-- [33; R677, 18_registers.md; reset none] pages whose soft reset is still running -/
  softRst : List Nat := []
  /-- [1; R653, 17_faults_recorder_power.md; reset false: DESIGN CHOICE, log 3] fuses loaded since the last reset, so FAULT_N may be driven -/
  fusesLoaded : Bool := false
  deriving DecidableEq, Repr

/-- What an open EVR period has gathered of one quantity (R655, Table 17-9). -/
structure QAcc where
  min   : Int := 0
  max   : Int := 0
  sum   : Int := 0
  n     : Nat := 0
  flags : Nat := 2
  hist  : List Nat := []
  deriving DecidableEq, Repr

/-- An open EVR period (R657). -/
structure Period where
  start   : Nat := 0
  startUtc : Nat := 0
  samples : Nat := 0
  step    : Bool := false
  short   : Bool := false
  qs      : List QAcc := []
  deriving DecidableEq, Repr

/-- An event entry whose issuer stalls (R91, R92, R103): issuing unit, type, detail, UTC in seconds and whether the calendar was set, and
local time of the event. -/
structure EvrWait where
  unit   : Nat
  typ    : Nat
  detail : Nat
  utcS   : Nat
  cal    : Bool
  at0    : Nat
  deriving DecidableEq, Repr

/-- The event recorder (R655 to R662). -/
structure Evr where
  /-- [queue; R91, 03_stamps_and_order.md; reset none] event entries that wait for their stamp -/
  wait : List EvrWait := []
  /-- [3 periods; R657, 17_faults_recorder_power.md; reset none open] open hourly, daily and monthly period -/
  hour  : Period := {}
  day   : Period := {}
  month : Period := {}
  /-- [3 × 64; R656, 17_faults_recorder_power.md; reset 0: DESIGN CHOICE, log 7] END of the last record of each tier -/
  lastEnd : List Nat := [0, 0, 0]
  /-- [3 × 32; R656, 17_faults_recorder_power.md; reset 0: DESIGN CHOICE, log 7] records of each tier since manufacture, shown as EVR.SEQ_H, SEQ_D and SEQ_M from the end of fuse load -/
  seqs : List Nat := [0, 0, 0]
  /-- [queue × 32 B; R661, 17_faults_recorder_power.md; reset none] event entries queued, with the local time each was queued -/
  queue : List (Nat × Bytes) := []
  /-- [queue; R661, 17_faults_recorder_power.md; reset none] local times of the entries programmed in the last second -/
  recent : List Nat := []
  /-- [4 × 16; R660, 17_faults_recorder_power.md; reset 0: DESIGN CHOICE, log 7] next write slot of the hourly, daily, monthly and event ring -/
  pos : List Nat := [0, 0, 0, 0]
  /-- [AMap; R660, 17_faults_recorder_power.md; reset none: DESIGN CHOICE, log 7] sectors replaced by spares -/
  spare : AMap Nat := []
  /-- [30 × 16; R655, 17_faults_recorder_power.md; reset none] last sample of each quantity, shown as EVR.Q_NOW -/
  now : List Int := []
  /-- [8 × 64; R655, 17_faults_recorder_power.md; reset 0] counters at the last sample, for the rate quantities -/
  prev : List Nat := []
  /-- [3 × 1; R659, 17_faults_recorder_power.md; reset false] the next record of each tier is marked GAP -/
  gap : List Bool := [false, false, false]
  /-- [64; R655, 17_faults_recorder_power.md; reset none] ESTAMP of the last sample -/
  sampleAt : Option Nat := none
  deriving DecidableEq, Repr

/-- Power state of one unit of a page (R663, Table 17-14): state code and local time it became idle. -/
structure PUnit where
  state  : Nat := 0
  idleAt : Nat := 0
  deriving DecidableEq, Repr

/-- The interrupt sources (R602 to R607). -/
structure Irq where
  /-- [66; R602, 15_control_cluster.md; reset none] sources asserted, shown as CCL.IRQ_PEND -/
  asserted : List Nat := []
  /-- [AMap; R604, 15_control_cluster.md; reset none] sources in service: core × 2 + privilege that claimed each -/
  inService : AMap Nat := []
  /-- [128 × 27; R603, 15_control_cluster.md; reset 0] CCL.IRQ_CFG word of each source -/
  cfg : AMap Nat := []
  /-- [AMap; R604, 15_control_cluster.md; reset none] configuration a source in service keeps until its completion -/
  held : AMap Nat := []
  /-- [1; R605, 15_control_cluster.md; reset false: PRESUMED the PCIe value, log 12] MSI-X enabled in the privileged function -/
  msixEnabled : Bool := false
  deriving DecidableEq, Repr

/-- HBC and DDC beyond their registers (R31 to R49, R712). -/
structure Dram where
  /-- [64 × 16; R48, 01_architecture.md; reset 0] corrected errors of this window per pseudo-channel -/
  hbmCe : AMap Nat := []
  /-- [16 × 16; R48, 01_architecture.md; reset 0] corrected errors of this window per channel -/
  ddrCe : AMap Nat := []
  /-- [80; R48, 01_architecture.md; reset none] units reported above their threshold in this window; channel n is 64 + n -/
  ceOver : List Nat := []
  /-- [64; R48, 01_architecture.md; reset 0] ESTAMP the window began -/
  windowAt : Nat := 0
  /-- [64; R33, 01_architecture.md; reset 0: new at each BOOT, log 8] salt of the DRAM interleave and the MPC set index -/
  salt : Nat := 0
  /-- [14; R35, 01_architecture.md; reset 8192: DESIGN CHOICE, log 8] GiB the fitted DIMMs give over 16 channels -/
  fitted : Nat := 8192
  /-- [1; R31, 01_architecture.md; reset true: DESIGN CHOICE, log 8] two DIMMs per channel -/
  dpc2 : Bool := true
  /-- [14; R35, 01_architecture.md; reset 7115: DESIGN CHOICE, log 8] fixed footprint of the array in GiB (Table 1-5) -/
  fixedGib : Nat := 7115
  /-- [64; R36, 01_architecture.md; reset Table 1-6] bytes usable in each HBM region: own write cache, Sideboard, staging, hot fingerprints, firmware -/
  regions : List Nat := [12884901888, 12884901888, 17179869184, 4294967296, 4294967296]
  /-- [AMap; R45, 01_architecture.md; reset none] ESTAMP each DRAM line was last scrubbed -/
  scrub : AMap Nat := []
  /-- [list; R47, 01_architecture.md; reset none] DRAM lines (address ÷ 64) that an uncorrectable error left unreadable until they are written -/
  bad : List Nat := []
  deriving DecidableEq, Repr

end Sys2Proof
end

