-- ==== Sys2Proof/Parts/Crypto.lean ====
section
/-! DEFINITION. Key slots and the state of DGE, CPH and SEC. -/
namespace Sys2Proof

/-- A key slot that is not EMPTY (R537, Table 14-1): its kind, its key, its key identifier and, for GCM, its
invocation count (R545). A DGE slot is held by the key whose two compressed states it keeps. -/
structure Key where
  kind : Nat
  key  : Bytes
  kid  : Nat := 0
  inv  : Nat := 0
  /-- marked EMPTY for new requests by ERASE, waiting for dispatched ones (R552) -/
  dying : Bool := false
  deriving DecidableEq, Repr

/-- A message a DGE core holds for the firmware queue (R531, R534). -/
structure DgeReq where
  /-- descriptor taken last -/
  desc  : Nat
  op    : Nat
  slot  : Nat := 0
  /-- key of an HMAC, as of dispatch -/
  key   : Bytes := []
  data  : Bytes := []
  dst   : Nat
  /-- the message goes on in the next descriptor -/
  chain : Bool := false
  /-- local time of dispatch and of the descriptor taken last -/
  at0   : Nat
  last  : Nat
  /-- core that holds it; none while it waits for one after its core was fenced (R40) -/
  core  : Option Nat := none
  deriving DecidableEq, Repr

/-- A CPH request of the firmware queue, queued in its class or held by a core (R540, R541). -/
structure CphReq where
  desc : Nat
  op   : Nat
  slot : Nat
  src  : Nat
  dst  : Nat
  len  : Nat
  aux  : Nat
  auxLen : Nat
  iv   : Bytes
  /-- local time it was queued, whether it aged, and local time a core took it -/
  at0  : Nat
  aged : Bool := false
  core : Option Nat := none
  /-- key as of dispatch -/
  key  : Bytes := []
  /-- core it was given to last -/
  unit : Nat := 0
  deriving DecidableEq, Repr

/-- A signature being made (R563, R565): for the hourly seal or a quote, its message, its index, and whether a first one failed. -/
structure SignJob where
  forSeal : Bool
  msg   : Bytes
  q     : Nat
  again : Bool := false
  deriving DecidableEq, Repr

/-- The security block's state, with the firmware requests of DGE and CPH. -/
structure Sec where
  /-- [4,096 slots; R537, 14_digest_cipher_signatures.md; reset EMPTY] DGE key slots -/
  dge : AMap Key := []
  /-- [8,192 slots; R537, 14_digest_cipher_signatures.md; reset EMPTY] CPH key slots -/
  cph : AMap Key := []
  /-- [256; R548, 14_digest_cipher_signatures.md; reset none, derived at BOOT] device root key -/
  drk : Option Bytes := none
  /-- [32 B and 16 B; R561 and R564, 14_digest_cipher_signatures.md; reset none, unwrapped at BOOT] top SEED and I of the identity -/
  ident : Option (Bytes × Bytes) := none
  /-- [4 × 256; R568, 14_digest_cipher_signatures.md; reset 0] measurement registers -/
  meas : List Bytes := List.replicate 4 (List.replicate 32 0#8)
  /-- [256; R567, 14_digest_cipher_signatures.md; reset 0 before an image runs: DESIGN CHOICE, log 63] SHA-256 of the running image's manifest -/
  image : Bytes := List.replicate 32 0#8
  /-- [96 cores; R531 and R534, 14_digest_cipher_signatures.md; reset none] firmware messages on DGE cores -/
  dreq : AMap DgeReq := []
  /-- [48 cores and queue; R540 and R541, 14_digest_cipher_signatures.md; reset none] firmware requests in CPH -/
  creq : AMap CphReq := []
  /-- [count; R546, 14_digest_cipher_signatures.md; reset 0] number of the next firmware request -/
  next : Nat := 0
  /-- [2 × 17; R557, 14_digest_cipher_signatures.md; reset 0] posted descriptors of DGE and CPH an alarm found untaken -/
  dzero : Nat := 0
  czero : Nat := 0
  /-- [1 + 13; R552, 14_digest_cipher_signatures.md; reset none] slot being erased: engine, 1 for DGE, and slot -/
  erase : Option (Nat × Nat) := none
  /-- [1; R563, 14_digest_cipher_signatures.md; reset false] a reservation fuse was blown since BOOT; [10] indexes of its block used -/
  block : Bool := false
  used  : Nat := 0
  /-- [1; R565, 14_digest_cipher_signatures.md; reset none] signature in progress; quote waiting behind it -/
  job   : Option SignJob := none
  quote : Option Bytes := none
  /-- [hour and count; R567, 14_digest_cipher_signatures.md; reset 0] hour of ESTAMP of the last quote, and quotes in it -/
  qHour : Nat := 0
  qCnt  : Nat := 0
  /-- [list; R564, 14_digest_cipher_signatures.md; reset none] bottom trees whose node tables are built -/
  trees : List Nat := []
  /-- [1; R76 and R561, 02_operating_modes.md; reset false] GEN_IDENTITY waits for PWR_FAIL_N to let go of the flash -/
  genWait : Bool := false
  deriving DecidableEq, Repr

/-- What a reset leaves of the security block: nothing; keys go, and the identity lies in the boot flash (Table 18-6, R564). -/
def Sec.kept (_s : Sec) : Sec := {}

end Sys2Proof
end

