-- ==== Sys2Proof/Parts/Media.lean ====
section
/-! DEFINITION. State of the media side: segments being filled, the page and block tables, rebuild, relocation, and LDC. -/
namespace Sys2Proof

/-- What an OPEN segment of a striped kind is being filled with, and how far its units are (R341, R343, R349). -/
structure OpenSeg where
  /-- the group that opened it is durable in two copies (R343) -/
  openDur : Bool := false
  recs    : List Placed := []
  /-- next free byte of each tile's record area, tile index and byte -/
  tile    : Nat := 0
  fill    : Nat := 64
  count   : Nat := 0
  /-- local time the oldest grain was placed -/
  oldest  : Option Nat := none
  /-- sealed: no further grain is placed; programs issued -/
  closed  : Bool := false
  /-- units whose program is durable, units absent, attempts per unit -/
  durable : List Nat := []
  absent  : List Nat := []
  tries   : AMap Nat := []
  /-- page-table changes of the segment the partner has yet to acknowledge, by PTSEQ (R386) -/
  ptSeq   : Nat := 0
  /-- written by a fold (R395), and the tiles of its units until they are programmed -/
  fold    : Bool := false
  tiles   : List (List Bytes) := []
  /-- programs of its units have been issued -/
  issued  : Bool := false
  deriving DecidableEq, Repr

/-- A block table entry (Table 10-4) with its next free wordline. -/
structure Blk where
  slcE  : Nat := 0
  qlcE  : Nat := 0
  reads : Nat := 0
  state : Nat := 0
  rr    : Nat := 0
  wl    : Nat := 0
  /-- marked for refresh (R408, R409); erase under way; outstanding reads (R308) -/
  refresh : Bool := false
  erasing : Bool := false
  outRd : Nat := 0
  /-- its summary has been appended to the metadata area (R387) -/
  summed : Bool := false
  deriving DecidableEq, Repr

/-- What the head knows of an admitted module (R378, R389, R452). -/
structure Mod where
  dies   : Nat
  blocks : Nat := 8192
  /-- geometry outside Table 10-1: present and unusable (R378) -/
  unusable : Bool := false
  ready  : Bool := false
  failed : List Nat := []
  serial : Bytes := []
  phase  : Nat := 0
  /-- local time from which the module is absent -/
  goneAt : Option Nat := none
  /-- local time each die's record was last written, and each die's patrol position -/
  recAt  : AMap Nat := []
  patrol : AMap Nat := []
  rrTab  : Nat := 1
  /-- FATAL reported (R439, R360); array identity its die records name; steps of admission still to answer -/
  fatal  : Bool := false
  arrayId : Option Nat := none
  step   : Nat := 0
  waits  : Nat := 0
  isNew  : Bool := false
  /-- dies whose owner was this head when their STATUS was read -/
  claimed : Nat := 0
  deriving DecidableEq, Repr

/-- A relocation of one live record from a DRAINING segment (R401, R402). -/
structure Reloc where
  cid : Nat
  gen : Nat
  src : Nat
  dst : Nat
  deriving DecidableEq, Repr

/-- A vault segment being written (R77, R80). -/
structure VSeg where
  seg    : Nat
  /-- payload of its data tiles -/
  data   : List Bytes := []
  /-- units whose program has not been answered, and units lost -/
  wait   : List Nat := []
  absent : List Nat := []
  deriving DecidableEq, Repr

/-- A descriptor that is to be made current (R331): why (1 CREATE_POOL, 2 RESHAPE, 3 RETIRE, 4 retirement by the lead, 5 end of a reshape,
6 REBUILT), its pool, the module a retirement names, the LAYGEN it replaces, and the descriptor. -/
structure LayJob where
  op     : Nat
  pool   : Nat
  module : Nat := 0
  old    : Nat
  desc   : Pool
  deriving DecidableEq, Repr

/-- The segment builder. -/
structure Sgb where
  /-- [HBM segment assembly; R343, 09_redundancy.md; reset none] segments being filled or programmed, by number -/
  opens  : AMap OpenSeg := []
  /-- [list; R401, 10_media.md; reset none] records placed in destination segments whose CT_LOC is still to come -/
  reloc  : List Reloc := []
  /-- [list; R350 and R351, 09_redundancy.md; reset none] records of segments that lost units for which no segment was open -/
  stray  : List (Nat × Placed) := []
  /-- [list; R374, 09_redundancy.md; reset none] layout command running: op, pool, module -/
  cmd    : Option (Nat × Nat × Nat) := none
  /-- [256 B; R331, 09_redundancy.md; reset none] descriptor whose chunk is being written, or whose LAYOUT record waits for its stamp -/
  job    : Option LayJob := none
  /-- [vault reserve; R77, 02_operating_modes.md; reset none] vault segments of the Gondola being written -/
  vault  : List VSeg := []
  /-- [1; R80, 02_operating_modes.md; reset false] the reserve has no room, or no row can be opened -/
  vaultStuck : Bool := false
  /-- [25; R79, 02_operating_modes.md; reset none] vault segment that holds the seal, while it is being programmed -/
  sealing : Option Nat := none
  deriving DecidableEq, Repr

/-- The flash media manager. -/
structure Fmm where
  /-- [64 × 2^29 × 32; R383, 10_media.md; reset 0] page table by module × 2^29 + logical page -/
  pt   : AMap Nat := []
  /-- [64 × 64 × 8,192 × 64; R383, 10_media.md; reset 0] block table by (module × 64 + die) × 8,192 + block -/
  bt   : AMap Blk := []
  /-- [64; R452, 11_jonan_link.md; reset none] modules admitted -/
  mods : AMap Mod := []
  /-- [32; R386, 12_partner_pairing.md; reset 0] page-table changes sent since link-up, how many of them the partner has acknowledged, and how many of its own were applied here -/
  ptSeq : Nat := 0
  ptAck : Nat := 0
  ptIn  : Nat := 0
  /-- [list; R405, 10_media.md; reset none] unit moves whose program is not yet done: key of the logical page, new entry base -/
  moves : AMap Nat := []
  /-- [queue; R387 and R389, 10_media.md; reset none] wordlines that wait to be programmed in a metadata area: module, die, whether the
  highest-numbered block takes it, bytes -/
  metaWait : List (Nat × Nat × Bool × Bytes) := []
  /-- [64; R348, 09_redundancy.md; reset 0] positions absent to the partner, as this head last learned -/
  pAway : Nat := 0
  deriving DecidableEq, Repr

/-- A Jonan frame as it is kept for sending and replay (Table 11-6). -/
structure JFrame where
  typ   : Nat
  tag   : Nat := 0
  tgen  : Nat := 0
  die   : Nat := 0xFFF
  op    : Nat := 0
  flags : Nat := 0
  payload : Bytes := []
  deriving DecidableEq, Repr

/-- One end of a link: its state machine (Table 11-3), sequence numbers, replay buffer and credits (R427 to R438). -/
structure LinkEnd where
  state  : Nat := 0
  rate   : Nat := 0
  /-- lanes up, one bit each -/
  lanes  : Nat := 0
  /-- negotiated version -/
  ver    : Nat := 0
  /-- head number the other end named in its TRAIN frame -/
  peer   : Nat := 0
  reason : Nat := 0
  /-- local time the state or the training rate was entered -/
  since  : Nat := 0
  /-- TRAIN received in this NEGOTIATE, and local time of the last one sent -/
  trainGot : Bool := false
  trainAt : Option Nat := none
  txNext : Nat := 0
  txCred : Nat := 0
  unack  : List (Nat × JFrame) := []
  queue  : List JFrame := []
  rxNext : Nat := 0
  /-- credits the other end still holds, and credits to return -/
  rxCred : Nat := 0
  owed   : Nat := 0
  /-- local time of the last NAK sent and not yet answered by the expected frame -/
  nakAt  : Option Nat := none
  /-- local time of the oldest received frame not yet acknowledged by a frame sent -/
  ackDue : Option Nat := none
  /-- consecutive replays -/
  replays : Nat := 0
  cntCrc : Nat := 0
  cntSeq : Nat := 0
  cntLen : Nat := 0
  cntCredit : Nat := 0
  cntReplay : Nat := 0
  cntStale : Nat := 0
  cntTimeout : Nat := 0
  cntOwner : Nat := 0
  cntRetrain : Nat := 0
  deriving DecidableEq, Repr

/-- What a request of JLK is for. -/
inductive Why where
  /-- codewords of tile `tile`, unit `unit`, for read grain i of a command; phase 0 hard, 1 first and 2 second soft read;
  entries of the read-retry table tried so far -/
  | grain (op i unit tile cw n phase tried : Nat)
  | unit (seg unit : Nat)
  | lane (lane page home : Nat)
  | erase (die block : Nat)
  /-- a unit moved or rebuilt: module × 2^29 + segment × 16, and whether it was rebuilt -/
  | move (key built : Nat)
  /-- metadata area and copied journal tiles -/
  | other
  /-- a unit of a vault segment -/
  | vault (seg unit : Nat)
  /-- admission step and die (Table 11-14) -/
  | adm (step die : Nat)
  /-- claim: 0 JLK.CLAIM_CMD, 1 release, 2 takeover, 3 join -/
  | claim (kind : Nat)
  | wit (write : Bool)
  | poll
  deriving DecidableEq, Repr

/-- An outstanding request (R439 to R441). -/
structure Req where
  op   : Nat
  die  : Nat := 0xFFF
  addr : Nat := 0
  gen  : Nat
  at0  : Nat
  why  : Why
  deriving DecidableEq, Repr

/-- A READ answer held for lack of a staging buffer (R307). -/
structure Held where
  pos  : Nat
  cred : Nat
  req  : Req
  cws  : List CwDec
  deriving DecidableEq, Repr

/-- JLK (R422 to R456). -/
structure Jlk where
  /-- [64 + 128 ends; R427, 11_jonan_link.md; reset DOWN] this head's positions 0 to 63, and the bridges' ports at 64 + 2 × module + port -/
  ends   : AMap LinkEnd := []
  /-- [64 × 4,096 × 4; R440, 11_jonan_link.md; reset 0] generation of each tag, by position × 4,096 + tag -/
  tagGen : AMap Nat := []
  /-- [64 × 4,096; R440, 11_jonan_link.md; reset none] outstanding requests -/
  reqs   : AMap Req := []
  /-- [list; R431, 11_jonan_link.md; reset none] programs and erases that wait for room in their die's queue: request and frame payloads -/
  wait   : List (Nat × List Bytes) := []
  /-- [list; R307, 08_read_path.md; reset none] answers held for lack of staging -/
  held   : List Held := []
  /-- [32; R449, 11_jonan_link.md; reset 0] array claim generation -/
  gen    : Nat := 0
  /-- [64; R450, 11_jonan_link.md; reset 0] SEQ of this head's witness writes -/
  witSeq : Nat := 0
  /-- [4 × 64; R451, 11_jonan_link.md; reset none] local time of the last witness round of each instance -/
  witAt  : AMap Nat := []
  /-- [64 × 64; R451, 11_jonan_link.md; reset none] partner's witness SEQ last read per position, and local time it last changed -/
  witSeen : AMap (Nat × Nat) := []
  /-- [64; R432, 11_jonan_link.md; reset none] local time of the last status poll per position -/
  pollAt : AMap Nat := []
  /-- [64; R66, 02_operating_modes.md; reset none] positions that accepted the takeover claim, and those it was sent to -/
  won    : List Nat := []
  asked  : List Nat := []
  deriving DecidableEq, Repr

/-- A request the bridge holds (R442 to R448). -/
structure BOp where
  port  : Nat
  tag   : Nat
  tgen  : Nat
  op    : Nat
  die   : Nat
  addr  : Nat := 0
  /-- pages of a PROGRAM that have arrived, and how many make it whole -/
  pages : Nat := 1
  want  : Nat := 1
  started : Bool := false
  /-- an erase suspended for a read (R432) -/
  susp  : Bool := false
  /-- dies an accepted CLAIM names: answered once their started operations are done -/
  mask  : Nat := 0
  /-- highest CGEN an accepted CLAIM's answer carries -/
  gen   : Nat := 0
  /-- credits of its request frames, returned with the answer -/
  cred  : Nat := 0
  deriving DecidableEq, Repr

/-- A witness register (Table 11-13): its 24 written bytes and the local time of the write. -/
structure Witness where
  bytes : Bytes := List.replicate 24 0#8
  at0   : Option Nat := none
  deriving DecidableEq, Repr

/-- The ILV-0216 bridge of a module (R430, R439 to R450). -/
structure Bridge where
  /-- [6; R439, 11_jonan_link.md; reset 64: DESIGN CHOICE, log 18] dies of the module -/
  dies   : Nat := 64
  /-- [14; R439, 11_jonan_link.md; reset 8,192: DESIGN CHOICE, log 18] block addresses per plane -/
  blocks : Nat := 8192
  failed : List Nat := []
  /-- owner and CGEN per die; none and 0 when unlisted (R445) -/
  owner  : AMap Nat := []
  cgen   : AMap Nat := []
  wit0   : Witness := {}
  wit1   : Witness := {}
  ops    : List BOp := []
  /-- next free wordline of each block written to, by die × 8,192 + block (R444) -/
  wl     : AMap Nat := []
  /-- module STATUS byte 0x10, temperature and worst rated life (Table 11-12) -/
  flags  : Nat := 0
  temp   : Nat := 0
  life   : Nat := 0
  /-- lowest and highest version code the bridge offers -/
  verLo  : Nat := 1
  verHi  : Nat := 5
    deriving DecidableEq, Repr

/-- LDC counters beyond its registers. -/
structure Ldc where
  /-- [64; R655, 17_faults_recorder_power.md; reset 0] corrected bits of the codewords decoded at step 1 -/
  bits : Nat := 0
  /-- [64; R655, 17_faults_recorder_power.md; reset 0] codewords decoded at step 1 -/
  decodes : Nat := 0
  deriving DecidableEq, Repr

/-- RBE beyond its registers. -/
structure Rbe where
  /-- [64; R655, 17_faults_recorder_power.md; reset 0] units rebuilt on this head -/
  unitsBuilt : Nat := 0
  /-- [list; R366, 09_redundancy.md; reset none] lost CIDs whose LBA walk is still to come, with the pool -/
  walks : List (Nat × Nat) := []
  /-- [list; R375, 09_redundancy.md; reset false] the lost-grain log is full -/
  full  : Bool := false
  /-- entries of the lost-grain log firmware has not consumed -/
  pend  : Nat := 0
  /-- [list; R314, 08_read_path.md; reset none] CIDs reported for re-protection -/
  report : List Nat := []
  deriving DecidableEq, Repr

end Sys2Proof
end

