-- ==== Sys2Proof/Parts/Slices.lean ====
section
/-! DEFINITION. Slices beyond their journalled rows: Bridle balances, meter counters, written-grain logs, and the meter chain. -/
namespace Sys2Proof

/-- The counters of a slice's open minute on one head (Table 5-5). -/
structure Meter where
  rdOps : Nat := 0
  wrOps : Nat := 0
  otOps : Nat := 0
  rdB   : Nat := 0
  wrB   : Nat := 0
  hist  : AMap Nat := []
  throt : Nat := 0
  short : Nat := 0
  deriving DecidableEq, Repr

/-- A written-grain log ring (R197, R198). -/
structure Wgl where
  base : Nat
  size : Nat
  /-- entries written and not consumed -/
  pend : Nat := 0
  deriving DecidableEq, Repr

/-- Bridle's account of one kind of token of a slice (R189 to R193). Amounts are in 1/65,536 token. -/
structure Tok where
  /-- granted and not used; below 0 a debt -/
  bal    : Int := 0
  /-- burst bucket -/
  bucket : Int := 0
  /-- fraction carried to the next epoch -/
  frac   : Nat := 0
  /-- this epoch's grant, its amount of step 1 of R189, and what has been used of it -/
  grant  : Nat := 0
  first  : Nat := 0
  used   : Nat := 0
  /-- cost of the commands that arrived during the last epoch -/
  arrived : Nat := 0
  /-- demand of this head in the running 1 ms, in the last one, and of the partner -/
  own    : Nat := 0
  sent   : Nat := 0
  other  : Nat := 0
  /-- share of the floor and ceiling this head applies: numerator and denominator -/
  num    : Nat := 1
  den    : Nat := 1
  deriving DecidableEq, Repr

/-- What SLM holds of a slice index beyond its journalled row. -/
structure SliceDyn where
  ops    : Tok := {}
  byt    : Tok := {}
  /-- below its floor this epoch (R191) -/
  hungry : Bool := false
  /-- a command waited this epoch because of its own ceiling or share -/
  ceiled : Bool := false
  own    : Meter := {}
  part   : Meter := {}
  /-- what the last METER_CNT told the partner of own (R204) -/
  told   : Meter := {}
  /-- counters changed since the last METER_CNT -/
  changed : Bool := false
  /-- attributed bytes and snapshot-only bytes, 1/65,536 byte (R202, R203) -/
  attr   : Int := 0
  snap   : Nat := 0
  /-- records written, SHA-256 of the last record, flags of the next one (R201) -/
  mseq   : Nat := 0
  sprev  : Bytes := []
  flags  : Nat := 0
  /-- the running log, and its next entry and firmware's read position, which stay readable after it stops (R13, R198) -/
  wgl    : Option Wgl := none
  wglWr  : Nat := 0
  wglRd  : Nat := 0
  wglOvf : Bool := false
  /-- skip predictor: SKIP state, and its run count (R234) -/
  skip   : Bool := false
  run    : Nat := 0
  /-- in-flight count the partner last reported (R184) -/
  pInfl  : Option Nat := none
  /-- OSTAMP of the record that last made the slice QUIESCING (R184) -/
  qStamp : Nat := 0
  deriving DecidableEq, Repr

/-- A meter chain entry not yet published (R206). -/
structure MetEnt where
  seq   : Nat
  bytes : Bytes
  /-- in a page of the meter log that has been programmed on its homes -/
  sent  : Bool := false
  /-- durable in two copies, received by the partner -/
  dur   : Bool := false
  ack   : Bool := false
  deriving DecidableEq, Repr

/-- A page of the meter log programmed on its homes (R206, R358): its tile, its page in the tile, its number, and the SEQs of its entries. -/
structure MPage where
  seg   : Nat
  slot  : Nat
  num   : Nat
  seqs  : List Nat
  homes : List Nat
  /-- homes whose program has completed -/
  done  : List Nat := []
  deriving DecidableEq, Repr

/-- The meter log's tile being written (R358): homes, segment number (0 for none), pages written to it, its place on each home, pages
programmed so far, and those not yet durable. -/
structure MLog where
  homes : List Nat := []
  seg   : Nat := 0
  tilePages : Nat := 0
  spots : List (Nat × Nat × Nat × Nat) := []
  num   : Nat := 0
  /-- local PHYS of the first entry that waits -/
  firstAt : Nat := 0
  /-- the next page opens a tile -/
  rehome : Bool := false
  pages : List MPage := []
  deriving DecidableEq, Repr

/-- The slice manager (R170 to R211). -/
structure Slm where
  /-- [4,096; R189, 05_slices.md; reset empty] dynamic part of each slice index -/
  dyn    : AMap SliceDyn := []
  /-- [command; R173, 05_slices.md; reset none] command running: op and handle -/
  cmd    : Option (Nat × Nat) := none
  /-- [1; R205, 05_slices.md; reset false] the open meter minute takes CAL_STEP -/
  calStep : Bool := false
  /-- [64; R206, 05_slices.md; reset 0] SEQ of the next chain entry and SHA-256 of the last one -/
  seq    : Nat := 0
  chain  : Bytes := []
  /-- [list; R206, 05_slices.md; reset none] entries not yet published -/
  unpub  : List MetEnt := []
  /-- [meter log; R206, 05_slices.md; reset empty] durable entries of the meter log -/
  log    : List (Nat × Bytes) := []
  /-- [tiles of kind meter log; R358, 09_redundancy.md; reset none] where the meter log is being written -/
  mlog   : MLog := {}
  /-- [32; R205, 05_slices.md; reset 0] last MINUTE closed -/
  minute : Nat := 0
  /-- [64; R205, 05_slices.md; reset 0] PHYS at which the open minute began -/
  minuteAt : Nat := 0
  /-- [2; R208, 05_slices.md; reset 0] TAKEOVER, HANDOVER and CAL flags of the open minute -/
  minFlags : Nat := 0
  /-- [32; R180, 05_slices.md; reset 0x1_3880, 0x61A8] the partner's SLM.CAP_IOPS and SLM.CAP_BW -/
  pCapI  : Nat := 0x13880
  pCapB  : Nat := 0x61A8
  /-- [64; R189, 05_slices.md; reset 0] PHYS of the last Bridle epoch, the last 1-ms exchange and the last sweep -/
  epochAt : Nat := 0
  exchAt  : Nat := 0
  sweepAt : Nat := 0
  /-- [header; R207, 05_slices.md; reset none] hourly seal waiting for its signature: SEQ and header -/
  hseal  : Option (Nat × Bytes) := none
  /-- [32; R207, 05_slices.md; reset 0] last MINUTE for whose hour a seal was begun -/
  sealed : Nat := 0
  deriving DecidableEq, Repr

end Sys2Proof
end

