-- ==== Sys2Proof/Machine/State.lean ====
section
/-! DEFINITION. The state of one head: every register, buffer, queue and pin the spec gives it, the commands that wait, and the reset state. -/
namespace Sys2Proof.Machine

/-- Why a step stops with a fault. -/
inductive Fault where
  /-- Raised by none: every command runs on every operand (log 103), so a step never stops with a fault. It names what an operand would have
  to be that no frame or access can carry (Sys2Proof.WellFormed). Safe. -/
  | illFormed (mnemonic : String)
  deriving DecidableEq, Repr

/-- Why a step is refused. -/
inductive Refusal where
  /-- Raised by exec for a command whose meaning is not written. Safe. -/
  | notModelled (mnemonic : String)
  deriving DecidableEq, Repr

/-- One head of the array with its environment's levels. -/
structure State where
  /-- [queue; the model's own, log 1; reset empty] commands waiting, first in first out -/
  pending : List Instr := []
  /-- [registers of Tables 1-10 to 18-5; R667, 18_registers.md; reset: their Reset columns] control-space and core-local words that differ from their reset value -/
  regs : AMap Word := []
  /-- [25 × 57 × (register, 32); R20, 00_scope.md; reset none] 64-bit read captures per requester and page: requester × 64 + page, 33 + c for core-local page c -/
  caps : AMap (Nat × Word) := []
  /-- [25 × 57 × (register, 32); R21, 00_scope.md; reset none] upper-half write shadows, as the captures -/
  shadows : AMap (Nat × Word) := []
  /-- [64; the model's own, log 2; reset 0] local nanoseconds since power-up -/
  now : Nat := 0
  /-- [64; the model's own, log 9; reset 0] draws taken from the free values -/
  freeCtr : Nat := 0
  pins : Pins := {}
  fuses : Fuses := {}
  straps : Straps := {}
  tbs : Tbs := {}
  bsv : Bsv := {}
  fcl : Fcl := {}
  evr : Evr := {}
  irq : Irq := {}
  dram : Dram := {}
  io : Io := {}
  ing : Ing := {}
  slm : Slm := {}
  maps : Maps := {}
  mpe : Mpe := {}
  mpc : Mpc := {}
  sgb : Sgb := {}
  fmm : Fmm := {}
  jlk : Jlk := {}
  /-- [64; R445, 11_jonan_link.md; reset: first power-up, log 18] the bridges of the modules, by module number -/
  bridges : AMap Bridge := []
  cpl : Cpl := {}
  sec : Sec := {}
  ldc : Ldc := {}
  rbe : Rbe := {}
  rpl : Rpl := {}
  ccl : Ccl := {}
  /-- [33 pages × units; R663, 17_faults_recorder_power.md; reset ACTIVE] power state per page × 1024 + unit -/
  pwr : AMap PUnit := []
  /-- [bytes; R36 and R580, 01_architecture.md and 15_control_cluster.md; reset unlisted bytes read 0, log 10] HBM and DRAM contents -/
  mem : List Host.Cell := []
  /-- [256 MiB; R612, 16_boot_update.md; reset unlisted bytes read 0xFF, log 6] boot flash contents outside Cabinet -/
  flash : List Host.Cell := []
  /-- [list; the model's own, log 11; reset empty] messages sent, oldest first -/
  out : List Out := []
  deriving DecidableEq, Repr

/-- The head right after power-up, in BOOT (Table 2-2: MODE 0x1). -/
def State.reset : State := {}

end Sys2Proof.Machine
end

