-- ==== Sys2Proof/Machine/Ops.lean ====
section
/-! DEFINITION. The shared operations: registers and their fields, memory and flash bytes, stamps, interrupts, fault occurrences and mode changes. -/
namespace Sys2Proof.Machine

/-! ## Registers -/

/-- The stored word of a control-space key (R667): what was last set, else the reset value. -/
def State.word (s : State) (a : Nat) : Word := sget resetWord s.regs a

/-- Store a word; the register file stays sorted and lists no reset value. -/
def State.setWord (s : State) (a : Nat) (v : Word) : State := { s with regs := sput resetWord s.regs a v }

/-- k consecutive words as one number, lowest first (R20). -/
def State.words (s : State) (a : Nat) : Nat → Nat
  | 0 => 0
  | k + 1 => (s.word a).toNat + 4294967296 * s.words (a + 4) k

/-- Store a number in k consecutive words, lowest first. -/
def State.setWords (s : State) (a v : Nat) : Nat → State
  | 0 => s
  | k + 1 => (s.setWord a (BitVec.ofNat 32 v)).setWords (a + 4) (v / 4294967296) k

/-- The value of a field. -/
def State.rf (s : State) (f : Sys2Proof.Fld) : Nat := fld (s.words f.addr ((f.lo + f.w + 31) / 32)) f.lo f.w

/-- Set a field, cutting the value to its width. -/
def State.wf (s : State) (f : Sys2Proof.Fld) (v : Nat) : State :=
  let k := (f.lo + f.w + 31) / 32
  s.setWords f.addr (setFld (s.words f.addr k) f.lo f.w v) k

/-- Whether a one-bit field is set. -/
def State.flag (s : State) (f : Sys2Proof.Fld) : Bool := s.rf f = 1

/-- Add to a counter that stops at its largest value. -/
def State.incBy (s : State) (f : Sys2Proof.Fld) (n : Nat) : State := s.wf f (satAdd f.w (s.rf f) n)

/-- Count one in a counter that stops at its largest value. -/
def State.inc (s : State) (f : Sys2Proof.Fld) : State := s.incBy f 1

/-- Words a field takes. -/
def wordsOf (f : Sys2Proof.Fld) : Nat := (f.lo + f.w + 31) / 32

/-- Two fields share no bit: other words, or other bits of the same words. -/
def apart (f g : Sys2Proof.Fld) : Bool :=
  decide (g.addr + 4 * wordsOf g ≤ f.addr) || decide (f.addr + 4 * wordsOf f ≤ g.addr)
    || (decide (f.addr = g.addr) && decide (wordsOf f = wordsOf g) && (decide (g.lo + g.w ≤ f.lo) || decide (f.lo + f.w ≤ g.lo)))

/-- Every assigned page (R668). -/
def allPages : List Nat := (List.range 33).drop 1

/-- Whether a variant has the block instance of a page fused off (R50, Table 1-9). -/
def fusedOff (v : Variant) (page : Nat) : Bool :=
  match v with
  | .ilv6440 => false
  | .ilv6432 => page == 9 || page == 26
  | .ilv6424 => page == 8 || page == 9 || page == 25 || page == 26

/-- Module positions the variant enables (R50). -/
def positionsOf (v : Variant) : Nat :=
  match v with
  | .ilv6440 => 64
  | .ilv6432 => 48
  | .ilv6424 => 32

/-- JLK instances the variant enables (R50). -/
def jlksOf (v : Variant) : Nat := positionsOf v / 16

/-! ## Memory and flash -/

/-- What a byte of HBM or DRAM that nothing has written reads as: 0 (DESIGN CHOICE, log 10; unsafe). -/
def memDefault : Nat → Byte := fun _ => 0#8

/-- What an erased boot-flash byte reads as: 0xFF (PRESUMED of xSPI NOR flash, log 6; unsafe). -/
def flashDefault : Nat → Byte := fun _ => 0xFF#8

/-- The canonical form of memory contents: addresses rise and no entry equals what an unlisted address reads as. -/
def Memory.wf (m : List Host.Cell) : Bool := swf memDefault m

/-- The canonical form of boot-flash contents. -/
def Flash.wf (m : List Host.Cell) : Bool := swf flashDefault m

/-- Base of the HBM regions in the model's one byte address space; offsets are those of Table 1-6 (log 10). -/
def hbmBase : Nat := 0x10000000000

/-- Base of DRAM in the model's one byte address space (log 10). -/
def dramBase : Nat := 0x100000000000

/-- Read k bytes. -/
def State.load (s : State) (a k : Nat) : Bytes := sgets memDefault s.mem a k

/-- Write bytes; the cluster's side buffers see the write (R594), and a line written is readable again (R47). -/
def State.store (s : State) (a : Nat) (l : Bytes) : State :=
  { s with mem := sputs memDefault s.mem a l, ccl := s.ccl.wrote a l.length
           dram := { s.dram with bad := s.dram.bad.filter (fun b => decide (dramBase + b * 64 + 64 ≤ a ∨ a + l.length ≤ dramBase + b * 64)) } }

/-- An entry of k bytes at an address lies in no line that an uncorrectable error left unreadable (R47). -/
def State.readable (s : State) (a k : Nat) : Bool :=
  s.dram.bad.all (fun b => decide (dramBase + b * 64 + 64 ≤ a ∨ a + k ≤ dramBase + b * 64))

/-- An entry of a table that firmware writes, as another block reads it: one with an unreadable line is as if it were not valid (R47). -/
def State.entry (s : State) (a k : Nat) : Bytes := if s.readable a k then s.load a k else zeros k

/-- Read k bytes of the boot flash. -/
def State.flLoad (s : State) (a k : Nat) : Bytes := sgets flashDefault s.flash a k

/-- Program bytes of the boot flash. -/
def State.flStore (s : State) (a : Nat) (l : Bytes) : State := { s with flash := sputs flashDefault s.flash a l }

/-- Erase a range of the boot flash. -/
def State.flErase (s : State) (a k : Nat) : State :=
  { s with flash := s.flash.filter (fun c => decide (c.1 < a ∨ a + k ≤ c.1)) }

/-! ## Messages -/

/-- Send a message. -/
def State.emit (s : State) (o : Out) : State := { s with out := s.out ++ [o] }

/-- Draw a free value's index. -/
def State.draw (s : State) : State := { s with freeCtr := s.freeCtr + 1 }

/-! ## Modes -/

/-- Code of a mode (Table 2-1). -/
def modeCode : Sys2Proof.Mode → Nat
  | .boot => 1 | .isolated => 2 | .joining => 3 | .paired => 4
  | .solo => 5 | .handover => 6 | .vault => 7 | .service => 8

/-- The mode of a code, if it is one. -/
def modeOf (c : Nat) : Option Sys2Proof.Mode :=
  match c with
  | 1 => some .boot | 2 => some .isolated | 3 => some .joining | 4 => some .paired
  | 5 => some .solo | 6 => some .handover | 7 => some .vault | 8 => some .service
  | _ => none

/-- The current mode. -/
abbrev State.mode (s : State) : Sys2Proof.Mode := s.bsv.mode

/-- The mode serves host I/O or drains it (Table 2-1). -/
def serving : Sys2Proof.Mode → Bool
  | .paired | .solo | .handover => true
  | _ => false

/-! ## Stamps (R97 to R103) -/

/-- PHYS of a stamp (Table 3-1). -/
def phys (o : Ostamp) : Nat := o / 4294967296

/-- LOGICAL of a stamp (Table 3-1). -/
def logical (o : Ostamp) : Nat := o / 256 % 16777216

/-- ORIGIN of a stamp: HEAD and UNIT (Table 3-1). -/
def origin (o : Ostamp) : Nat := o % 256

/-- PHYS and LOGICAL of a stamp as one number, for the comparison of R101. -/
def physLog (o : Ostamp) : Nat := o / 256

/-- Put a stamp together (Table 3-1). -/
def mkStamp (p l org : Nat) : Ostamp := p * 4294967296 + l * 256 + org

/-- The origin of this head's unit (R99). -/
def State.origin (s : State) (unit : Nat) : Nat := s.straps.head * 128 + unit

/-- The ESTAMP now (R87). -/
abbrev State.estamp (s : State) : Nat := s.tbs.phys

/-- The later of an issuer's last stamp and the floor, as PHYS and LOGICAL (R101, R102). -/
def State.issueBase (s : State) (unit : Nat) : Nat :=
  max (physLog (agetD s.tbs.issuers unit 0)) (physLog s.tbs.floor)

/-- Issuers stall at the ceiling (R90, R91) and before PHYS has started (R92). -/
def State.ceilStalled (s : State) : Bool :=
  !s.tbs.started || decide (s.rf R.TBS.CEILING.CEIL ≤ s.tbs.phys)

/-- The stamp an issuer would issue now (R101), or none when it stalls (R91, R92, R103). -/
def State.nextStamp (s : State) (unit : Nat) : Option Ostamp :=
  let b := s.issueBase unit
  if s.ceilStalled then none
  else if b / 16777216 < s.tbs.phys then some (mkStamp s.tbs.phys 0 (s.origin unit))
  else if b % 16777216 = 0xFFFFFF then none
  else some ((b + 1) * 256 + s.origin unit)

/-- LOGICAL would overflow for this issuer (R103). -/
def State.ovfStalled (s : State) (unit : Nat) : Bool :=
  !s.ceilStalled && decide (s.tbs.phys ≤ s.issueBase unit / 16777216)
    && decide (s.issueBase unit % 16777216 = 0xFFFFFF)

/-- Record a stamp as issued (R100). -/
def State.issued (s : State) (unit : Nat) (o : Ostamp) : State :=
  { s with tbs := { s.tbs with issuers := aset s.tbs.issuers unit o } }

/-- Begin a LOGICAL overflow stall of an issuer: counted once in TBS.CNT_OVF (R103). -/
def State.ovfBegin (s : State) (unit : Nat) : State :=
  if s.ovfStalled unit && !ahas s.tbs.ovfStalls unit then
    { s.inc R.TBS.CNT_OVF.COUNT with
      tbs := { s.tbs with ovfStalls := aset s.tbs.ovfStalls unit (s.issueBase unit / 16777216) } }
  else s

/-- Issue a stamp: the stamp and the state after it, or none with the stall counted (R101, R103). -/
def State.issue (s : State) (unit : Nat) : Option Ostamp × State :=
  match s.nextStamp unit with
  | some o => (some o, s.issued unit o)
  | none => (none, s.ovfBegin unit)

/-- Issue one stamp for each of a list of units, in order, or none of them where an issuer stalls (R91, R103). -/
def State.issueAll (s : State) : List Nat → Option (List Ostamp) × State
  | [] => (some [], s)
  | u :: t =>
    match s.issue u with
    | (none, s) => (none, s)
    | (some o, s1) =>
      match s1.issueAll t with
      | (some os, s2) => (some (o :: os), s2)
      | (none, s2) => (none, { s2 with tbs := { s2.tbs with issuers := s.tbs.issuers } })

/-- Issue a stamp above another (R120): where the next stamp of the issuer would not lie above it, the stamps up to its PHYS and LOGICAL are
passed over (DEDUCED, log 76). -/
def State.issueAbove (s : State) (unit : Nat) (h : Ostamp) : Option Ostamp × State :=
  match s.nextStamp unit with
  | some o => if h < o then s.issue unit else (s.issued unit (mkStamp (phys h) (logical h) (s.origin unit))).issue unit
  | none => s.issue unit

/-- Raise the floor (R102, R125, R135). -/
def State.raiseFloor (s : State) (o : Ostamp) : State :=
  { s with tbs := { s.tbs with floor := max s.tbs.floor o } }

/-- Issuing units (R99, Table 3-2). -/
def Unit.fmm (island : Nat) : Nat := 0x20 + island
def Unit.nvt (i : Nat) : Nat := 0x24 + i
def Unit.slm : Nat := 0x28
def Unit.fcl : Nat := 0x29
def Unit.bsv : Nat := 0x2A
def Unit.rpl : Nat := 0x2B
def Unit.rbe : Nat := 0x2C
def Unit.cpl : Nat := 0x2D
def Unit.sec : Nat := 0x2E
def Unit.core (c : Nat) : Nat := 0x30 + c

/-- One hour in ns. -/
def hourNs : Nat := 3600000000000

/-- UTC in nanoseconds now (R93). -/
def State.utcNs (s : State) : Nat :=
  s.rf R.TBS.UTC_REF_T.UTC + s.tbs.phys - s.rf R.TBS.UTC_REF_E.ESTAMP

/-! ## Event recorder entries (R661) -/

/-- The 28 bytes of an event entry before its CRC (Table 17-11). -/
def evrEntryBytes (o : Ostamp) (utcS : Nat) (typ : Nat) (calInvalid : Bool) (detail : Nat) : Bytes :=
  le o 12 ++ le utcS 6 ++ le typ 1 ++ le (b2n calInvalid) 1 ++ le detail 8

/-- Stamp a waiting event entry and queue it, or leave it to wait on where its issuer stalls (R91, R92, R103). -/
def State.evrStamp (s : State) (w : EvrWait) : State :=
  match s.issue w.unit with
  | (some o, s) =>
    { s with evr := { s.evr with queue := s.evr.queue ++ [(w.at0, withCrc (evrEntryBytes o w.utcS w.typ (!w.cal) w.detail))] } }
  | (none, s) => { s with evr := { s.evr with wait := s.evr.wait ++ [w] } }

/-- Stamp the event entries that wait, in the order of their events, as far as their issuers go. -/
def State.evrFlush (s : State) : State := s.evr.wait.foldl State.evrStamp { s with evr := { s.evr with wait := [] } }

/-- Queue an event entry stamped by a unit (R661, Table 17-11), behind those that wait for their stamp. -/
def State.evrEvent (s : State) (typ unit detail : Nat) : State :=
  let w : EvrWait := { unit := unit, typ := typ, detail := detail, utcS := if s.tbs.rtcValid then s.utcNs / 1000000000 else 0
                       cal := s.tbs.rtcValid, at0 := s.now }
  { s with evr := { s.evr with wait := s.evr.wait ++ [w] } }.evrFlush

/-! ## Faults -/

/-- One occurrence of an error source (R643, R715). -/
structure Occ where
  page   : Nat
  src    : Nat
  unit   : Option Nat := none
  detail : Nat := 0
  inj    : Bool := false

/-- Class of a source (R642): 0 C, 1 U, 2 D, 3 F. -/
def State.errClass (s : State) (page src : Nat) : Nat := fld (s.rf (R.HDR.ERR_CLASS.CLASS page)) (2 * src) 2

/-- Whether a source is masked; class F cannot be (R644). -/
def State.errMasked (s : State) (page src : Nat) : Bool :=
  bit (s.rf (R.HDR.ERR_MASK.MASK page)) src && decide (s.errClass page src ≠ 3)

/-- The ERR_MASK bits that act: those of sources not of class F (R644). -/
def State.maskEff (s : State) (page : Nat) : Nat :=
  sumL ((List.range 32).map (fun i => if s.errMasked page i then 2 ^ i else 0))

/-- The error line of an instance: some unmasked source is set (R644, R649). -/
def State.errLine (s : State) (page : Nat) : Bool :=
  (List.range 32).any (fun i => bit (s.rf (R.HDR.ERR_STAT.SRC page)) i && !s.errMasked page i)

/-- Set a source's ERR_STAT bit and capture the first one (R643, R645). -/
def State.setErrStat (s : State) (page src : Nat) : State :=
  let old := s.rf (R.HDR.ERR_STAT.SRC page)
  let s1 := s.wf (R.HDR.ERR_STAT.SRC page) (setBit old src true)
  if old = 0 then
    ((s1.wf (R.HDR.ERR_FIRST.SOURCE page) src).wf (R.HDR.ERR_FIRST.VALID page) 1).wf
      (R.HDR.ERR_STAMP.ESTAMP page) s.estamp
  else s1

/-- DETAIL of a log entry (Table 17-4): UNIT, the unit's index, block-specific bits. -/
def Occ.detailBits (o : Occ) : Nat :=
  match o.unit with
  | some u => 2 ^ 63 + o.detail % 2 ^ 47 * 65536 + u % 65536
  | none => o.detail % 2 ^ 63

/-- The bytes of an FCL log entry (Table 17-4). -/
def fclEntry (o : Ostamp) (inst src cls mode rep detail : Nat) : Bytes :=
  withCrc (le o 12 ++ le inst 1 ++ le src 1 ++ le cls 1 ++ le mode 1 ++ le rep 4 ++ le detail 8)

/-- Add one occurrence to REPEAT of a log entry, with its CRC kept right (R651). -/
def fclRepeat (e : Nat) : Nat :=
  let l := le e 32
  leVal (withCrc (slice l 0 16 ++ le (satAdd 32 (leAt l 16 4) 1) 4 ++ slice l 20 8))

/-- A new entry at LOG_WR under a stamp, the oldest pending one given up when the log is full. -/
def State.fclNew (s : State) (st : Ostamp) (w : FclWait) : Bool × State :=
  let wr := s.rf R.FCL.LOG_WR.INDEX
  let e := fclEntry st w.inst w.src w.cls w.mode 0 w.detail
  let s := s.wf (R.FCL.LOG.ENTRY wr) (leVal e)
  let gone := amap s.fcl.last (fun _ p => if p.2 = wr then (p.1, 64) else p)
  let s := { s with fcl := { s.fcl with last := aset gone w.key (w.at0, wr) } }
  let nx := (wr + 1) % 64
  let s := s.wf R.FCL.LOG_WR.INDEX nx
  if nx = s.rf R.FCL.LOG_RD.INDEX then
    (true, (s.wf R.FCL.LOG_RD.INDEX ((nx + 1) % 64)).inc R.FCL.CNT_LOGLOST.COUNT)
  else (false, s)

/-- Write or merge one occurrence in the FCL log (R651), or leave it to wait where FCL's issuer stalls (R91, R103). True when an entry
was overwritten or lost. -/
def State.fclPut (s : State) (w : FclWait) : Bool × State :=
  let fresh := fun (s : State) =>
    match s.issue Unit.fcl with
    | (some st, s) => s.fclNew st w
    | (none, s) => (false, { s with fcl := { s.fcl with wait := s.fcl.wait ++ [w] } })
  match aget s.fcl.last w.key with
  | some (t, i) =>
    if w.at0 < t + 1000000 then
      if i < 64 then (false, s.wf (R.FCL.LOG.ENTRY i) (fclRepeat (s.rf (R.FCL.LOG.ENTRY i))))
      else (true, s.inc R.FCL.CNT_LOGLOST.COUNT)
    else fresh s
  | none => fresh s

/-- Log the occurrences that wait, oldest first, as far as FCL's issuer goes. -/
def State.fclFlush (s : State) : Bool × State :=
  s.fcl.wait.foldl (fun (a : Bool × State) w => let b := a.2.fclPut w; (a.1 || b.1, b.2)) (false, { s with fcl := { s.fcl with wait := [] } })

/-- Log an occurrence behind those that wait for a stamp (R651). True when an entry was overwritten or lost. -/
def State.fclLog (s : State) (o : Occ) (cls : Nat) (fresh : Bool) : Bool × State :=
  let w : FclWait := { key := o.page * 32 + o.src, inst := o.page, src := o.src, cls := cls + (if o.inj then 4 else 0) + (if fresh then 8 else 0)
                       mode := modeCode s.mode, detail := o.detailBits, at0 := s.now }
  { s with fcl := { s.fcl with wait := s.fcl.wait ++ [w] } }.fclFlush

/-! ## Interrupt sources (R602 to R606) -/

/-- TARGET, PRIV, PRIO and VECTOR of a source (R603): while it is in service, the configuration it was claimed under (R604). -/
def State.irqCfgOf (s : State) (src : Nat) : Nat := (aget s.irq.held src).getD (agetD s.irq.cfg src 0)

/-- A core is released and not fenced (R575, R576). -/
def State.coreRuns (s : State) (c : Nat) : Bool :=
  decide (c < 24) && bit (s.rf R.CCL.CORE_RUN.RUN) c && !bit (s.rf R.CCL.CORE_FENCED.FENCED) c

/-- The lowest-numbered running core (R606). -/
def State.firstRunning (s : State) : Option Nat := (List.range 24).find? s.coreRuns

/-- The core and privilege (0 M, 1 S) a source is delivered to (R605, R606); none for an MSI-X source. -/
def State.irqDest (s : State) (src : Nat) : Option (Nat × Nat) :=
  let c := s.irqCfgOf src
  let t := fld c 0 5
  if t = 0x1F then (if s.irq.msixEnabled then none else some (0, 0))
  else if s.coreRuns t then some (t, fld c 5 1)
  else (s.firstRunning).map (fun k => (k, fld c 5 1))

/-- Whether a delivery of this source is redirected from a fenced or held core (R606). -/
def State.irqRedirected (s : State) (src : Nat) : Bool :=
  let c := s.irqCfgOf src
  decide (fld c 0 5 ≠ 0x1F) && !s.coreRuns (fld c 0 5) && decide (fld c 6 3 ≠ 0) && s.firstRunning.isSome

/-- A source becomes asserted (R602, R605, R606); rz handles the occurrence a redirection makes. -/
def State.assertWith (rz : Occ → State → State) (src : Nat) (s : State) : State :=
  if s.irq.asserted.contains src then s
  else
    let s1 := { s with irq := { s.irq with asserted := s.irq.asserted ++ [src] } }
    let c := s.irqCfgOf src
    if fld c 0 5 = 0x1F && s.irq.msixEnabled && decide (fld c 6 3 ≠ 0) then s1.emit (.msix (fld c 16 11))
    else if s.irqRedirected src then rz { page := Pg.CCL, src := 6 } (s1.inc R.CCL.CNT_IRQ_REDIR.COUNT)
    else s1

/-- A source's line falls. -/
def State.deassert (s : State) (src : Nat) : State :=
  { s with irq := { s.irq with asserted := s.irq.asserted.filter (fun x => x != src) } }

/-! ## Mode changes (R55, R63) -/

/-- A mode change: BSV.MODE, BSV.MODE_STAMP and one EVR entry in one update, and the mode-change interrupt (R55). READY_REMOVE_N is
high in every mode but ISOLATED entered from HANDOVER, whose entry drives it low afterwards (R74). -/
def State.enterWith (rz : Occ → State → State) (m : Sys2Proof.Mode) (cause : Nat) (s : State) : State :=
  let old := s.mode
  let s := { s with bsv := { s.bsv with mode := m, prev := some old, cause := cause, pending := false }
                    pins := { s.pins with readyRemoveN := s.pins.readyRemoveN || decide (m ≠ Sys2Proof.Mode.isolated) } }
  let s := s.wf R.BSV.MODE_STAMP.ESTAMP s.estamp
  let s := s.evrEvent 1 Unit.bsv (modeCode m + 256 * modeCode old + 65536 * cause)
  State.assertWith rz (2 * Pg.BSV) s

/-- Change a controller. -/
def State.updCtl (s : State) (k : Nat) (f : Ctl → Ctl) : State := { s with io := { s.io with ctls := aupd s.io.ctls k f } }

/-! ## ANA (R59 to R61, R148, R149) -/

/-- Dword 0 of the ANA change event: notice, ANA change, log page 0x0C. -/
def anaEvent : Nat := 0x0C0302

/-- Give an asynchronous event to a controller: to a waiting request, else kept, once, for the next one. -/
def State.asyncEvent (s : State) (k dw0 : Nat) : State :=
  match aget s.io.ctls k with
  | none => s
  | some c =>
    match c.aers, s.io.conns.find? (fun e => e.2.ctl == some k && e.2.qid == 0) with
    | cid :: t, some (q, _) => (s.updCtl k (fun c => { c with aers := t })).emit (.cqe q cid 0 0 false dw0)
    | _, _ => if c.events.contains dw0 then s else s.updCtl k (fun c => { c with events := c.events ++ [dw0] })

/-- One report of new ANA states (R149): the change count rises, and every controller that has the event enabled gets it. -/
def State.anaNotify (s : State) : State :=
  let s := { s with io := { s.io with anaCnt := s.io.anaCnt + 1 } }
  ((s.io.ctls.filter (fun e => bit e.2.aenCfg 11)).map Prod.fst).foldl (fun s k => s.asyncEvent k anaEvent) s

/-- Groups go to ANA change state (R59). -/
def State.anaChange (s : State) (gs : List Nat) : State :=
  let new := gs.filter (fun g => !s.io.anaChg.contains g)
  if new = [] then s else { s with io := { s.io with anaChg := s.io.anaChg ++ new } }.anaNotify

/-- Groups leave ANA change state with new states (R59): 1 optimized, 2 non-optimized, 3 inaccessible. -/
def State.anaReport (s : State) (gs : List (Nat × Nat)) : State :=
  let ana := gs.foldl (fun (m : AMap Nat) (p : Nat × Nat) => if p.2 = 3 then adel m p.1 else aset m p.1 p.2) s.io.ana
  if gs = [] then s
  else { s with io := { s.io with ana := ana, anaChg := s.io.anaChg.filter (fun g => !gs.any (fun p => p.1 == g)) } }.anaNotify

/-- Every namespace group. -/
def allGroups : List Nat := List.range 1024

/-- ANA state of a group on this head: change state, or what was last reported (R59, R149). -/
def State.anaOf (s : State) (g : Nat) : Nat := if s.io.anaChg.contains g then 0xF else agetD s.io.ana g 3

/-- A change of the states of groups in its two reports (R59). -/
def State.anaMove (s : State) (gs : List (Nat × Nat)) : State :=
  let real := gs.filter (fun p => s.anaOf p.1 != p.2)
  (s.anaChange (real.map Prod.fst)).anaReport real

/-- Commands that wait at admission are answered Asymmetric Access Inaccessible (R61); as a path's status it carries no DNR. -/
def State.answerWaiting (s : State) : State :=
  (s.io.cmds.filter (fun e => e.2.stage == Stage.waiting)).foldl (fun s e =>
    match e.2.conn with
    | some q => s.emit (.cqe q e.2.cid 3 0x02 false 0)
    | none => s) s

/-- Serving stops (R61, Table 2-5): every group is inaccessible, and commands admitted and not completed get no completion. A command that
waits at admission is answered, but on a head that leaves PAIRED by itself, where no command gets a completion. What the head held of its
own and of the partner's data is no longer its to land. -/
def State.stopServing (s : State) (answer : Bool := true) : State :=
  let s := s.anaMove (allGroups.map (fun g => (g, 3)))
  let s := if answer then s.answerWaiting else s
  { s with io := { s.io with cmds := [], wc := [], sb := [], unack := [], anaChg := [] }, bsv := { s.bsv with mapsLoaded := false, lossAt := none },
           cpl := { s.cpl with role := 0, switch := none, opM := none, loaded := false, relStage := 0, diesOk := false, ringAt := none, moves := [], props := [] } }

/-- Host commands admitted and not completed. -/
def State.admitted (s : State) : Nat := (s.io.cmds.filter (fun e => e.2.stage != Stage.waiting && decide (e.2.opc < 0x300))).length

/-- A PROGRAM or ERASE frame that waits in a link queue. -/
def dieFrame (f : JFrame) : Bool := f.typ == 1 && (f.op == 2 || f.op == 3)

/-- PROGRAM and ERASE requests that wait in the link queues of this head are not sent any more, and are forgotten (R52, R63). -/
def State.muteDies (s : State) : State :=
  let gone := (s.jlk.ends.filter (fun e => decide (e.1 < 64))).flatMap (fun e => (e.2.queue.filter dieFrame).map (fun f => e.1 * 4096 + f.tag)) ++ s.jlk.wait.map Prod.fst
  { s with jlk := { s.jlk with
      ends := amap s.jlk.ends (fun i (e : LinkEnd) => if i < 64 then { e with queue := e.queue.filter (fun f => !dieFrame f) } else e)
      reqs := s.jlk.reqs.filter (fun e => !gone.contains e.1)
      wait := [] } }

/-- Leave serving for ISOLATED (R42, R44, R648): at once from PAIRED; from SOLO once admitted commands have
completed (Table 2-5); in other modes the trigger is not listed and does nothing (R56). From then on the head sends
no heartbeat and no witness and starts no program or erase (R63). -/
def State.leaveWith (rz : Occ → State → State) (cause : Nat) (s : State) : State :=
  let go := fun (answer : Bool) (s : State) =>
    ((State.enterWith rz .isolated cause
      { s with bsv := { s.bsv with silent := true, leaveCause := none, autoJoinArmed := decide (cause = 0x0A) } }).stopServing answer).muteDies
  match s.mode with
  | .paired => go false s
  | .solo => if s.admitted = 0 then go true s else { s with bsv := { s.bsv with leaveCause := some cause } }
  | _ => s

/-! ## Fences (R40 to R44, R49, R715) -/

/-- Units of a page that are fenced. -/
def State.fencedUnits (s : State) (page : Nat) : List Nat := agetD s.fcl.fenced page []

/-- Units of a page still enabled in a range. -/
def State.unitsLeft (s : State) (page lo n : Nat) : Nat :=
  ((List.range n).filter (fun i => !(s.fencedUnits page).contains (lo + i))).length

/-- Whether a page's units are below the minimum to serve (R42, Table 1-8): a block without another instance is when it is fenced (R678). Carid lanes and DDR channels have
their own rows (link down, R44); pseudo-channel fences take effect only at BOOT (R49), when HBC.STAT counts them out. -/
def State.belowMin (s : State) (page : Nat) : Bool :=
  if s.flag (R.HDR.CTL.FENCE page) && blockOf page != 6 && blockOf page != 23 then true
  else if 6 ≤ page ∧ page ≤ 9 then
    (List.range 4).all (fun i => fusedOff s.fuses.variant (6 + i) || s.unitsLeft (6 + i) 0 16 == 0)
  else if 23 ≤ page ∧ page ≤ 26 then
    (List.range 16).any (fun m => s.unitsLeft page (2 * m) 2 == 0 && ahas s.fmm.mods ((page - 23) * 16 + m))
  else if page = Pg.DGE then decide (s.unitsLeft page 0 96 < 24)
  else if page = Pg.CMP then decide (s.unitsLeft page 0 64 < 16) || decide (s.unitsLeft page 64 96 < 24)
  else if page = Pg.CPH then decide (s.unitsLeft page 0 48 < 12)
  else if page = Pg.LDC then decide (s.unitsLeft page 0 64 < 16) || decide (s.unitsLeft page 64 8 < 2)
  else if page = Pg.CCL then decide (s.unitsLeft page 0 24 < 8)
  else if page = Pg.HBC then decide (s.rf R.HBC.STAT.ENABLED < 48)
  else false

/-- Some page's units are below the minimum to serve (R42): a head in this state does not stay in a serving mode. -/
def State.cannotServe (s : State) : Bool := allPages.any s.belowMin

/-- DRAM usable over the channels in use, GiB (Table 1-11, DDC.USABLE). -/
def State.usableGib (s : State) : Nat := s.dram.fitted / 16 * popcount (s.rf R.DDC.STAT.CH_EN) 16

/-- The registers of the block that show a fenced unit (Tables 1-11, 4-2, 10-11, 12-11, 14-9, 14-10, 15-4). -/
def State.showFence (s : State) (page u : Nat) : State :=
  if 6 ≤ page ∧ page ≤ 9 then
    let f := R.HFX.PORT_STAT.FENCED (page - 6) (u / 4)
    s.wf f (setBit (s.rf f) (u % 4) true)
  else if page = Pg.DGE then s.wf R.DGE.STAT.CORES (s.rf R.DGE.STAT.CORES - 1)
  else if page = Pg.CPH then s.wf R.CPH.STAT.CORES (s.rf R.CPH.STAT.CORES - 1)
  else if page = Pg.LDC then
    (if u < 64 then s.wf R.LDC.STAT.HARD (s.rf R.LDC.STAT.HARD - 1)
     else s.wf R.LDC.STAT.SOFT (s.rf R.LDC.STAT.SOFT - 1))
  else if page = Pg.CCL then s.wf R.CCL.CORE_FENCED.FENCED (setBit (s.rf R.CCL.CORE_FENCED.FENCED) u true)
  else if page = Pg.DDC then
    let s := s.wf R.DDC.CH_FENCED.CH (setBit (s.rf R.DDC.CH_FENCED.CH) u true)
    let s := s.wf R.DDC.STAT.CH_EN (setBit (s.rf R.DDC.STAT.CH_EN) u false)
    s.wf R.DDC.USABLE.GIB s.usableGib
  else if page = Pg.HBC then
    let s := s.wf R.HBC.PC_FENCED.PC (setBit (s.rf R.HBC.PC_FENCED.PC) u true)
    s.wf R.HBC.STAT.ENABLED (s.rf R.HBC.STAT.ENABLED - 1)
  else s

/-- Count a unit as fenced (R715): an already fenced unit is not counted again. -/
def State.markFenced (s : State) (page u : Nat) : State :=
  if (s.fencedUnits page).contains u then s
  else
    let s := { s with fcl := { s.fcl with fenced := aset s.fcl.fenced page (s.fencedUnits page ++ [u]) } }
    let s := s.wf (R.HDR.STAT.FENCED_UNITS page) (s.rf (R.HDR.STAT.FENCED_UNITS page) + 1)
    let s := s.wf (R.HDR.STAT.DEGRADED page) 1
    s.showFence page u

/-- A channel fence in ISOLATED re-interleaves DRAM (R44): the maps must be loaded again, AUTO_JOIN may act, and a SERVE_SOLO that waits for
its quorum has lost its maps, so it ends NOT_READY (Table 2-11, log 23). -/
def State.unloadMaps (s : State) : State :=
  let s := if s.bsv.soloAsked then s.wf R.BSV.MODE_RESULT.RESULT 8 else s
  { s with bsv := { s.bsv with mapsLoaded := false, autoJoinArmed := true, pending := s.bsv.pending && !s.bsv.soloAsked
                               lossAt := if s.bsv.soloAsked then none else s.bsv.lossAt, soloAsked := false } }

/-- Fence one unit of a page (R40, R42, R44, R49). A pseudo-channel's fence waits for the next BOOT. In ISOLATED a channel's fence
unloads the maps and lets AUTO_JOIN act. -/
def State.fenceWith (rz : Occ → State → State) (page u : Nat) (s : State) : State :=
  if page = Pg.HBC then s.wf R.HBC.PC_PENDING.PC (setBit (s.rf R.HBC.PC_PENDING.PC) u true)
  else
    let s := s.markFenced page u
    if page = Pg.DDC then
      (if s.mode = .isolated then s.unloadMaps else State.leaveWith rz 0x0A s)
    else if s.belowMin page then State.leaveWith rz 0x0C s
    else s

/-! ## Occurrences (R643 to R652) -/

/-- FCL's part of an unmasked occurrence (R649, R651, R652), without its interrupt. True when a log entry was lost. -/
def State.fclTake (s : State) (o : Occ) (cls : Nat) (fresh : Bool) : Bool × State :=
  let s := s.wf R.FCL.FAULT.GROUP (setBit (s.rf R.FCL.FAULT.GROUP) o.page true)
  let g := s.rf R.FCL.FCLASS.CLASS
  let s := s.wf R.FCL.FCLASS.CLASS (setFld g (2 * o.page - 2) 2 (max cls (fld g (2 * o.page - 2) 2)))
  let s := s.inc (R.FCL.CNT_CLASS.COUNT cls)
  let (lost, s) := s.fclLog o cls fresh
  let s := if 2 ≤ cls then s.evrEvent 2 Unit.fcl (o.page + 256 * o.src + 65536 * cls) else s
  let s :=
    if bit (s.rf R.FCL.PIN_CFG.QUALIFY) cls then
      let s := { s with fcl := { s.fcl with lastQual := some s.now } }
      if s.flag R.FCL.PIN_CFG.AUTO_HOLD then s.wf R.FCL.PIN_HOLD.HOLD 1 else s
    else s
  (lost, s)

/-- One occurrence of a source with everything its class brings (R643, R644, R648, R715). The first argument bounds
the occurrences that one occurrence can itself cause: a lost log entry (FCL 0) and a redirected interrupt (CCL 6). -/
def raiseN : Nat → Occ → State → State
  | 0, _, s => s
  | k + 1, o, s =>
    let fresh := !bit (s.rf (R.HDR.ERR_STAT.SRC o.page)) o.src
    let cls := s.errClass o.page o.src
    let s := s.setErrStat o.page o.src
    if s.errMasked o.page o.src then s
    else
      let s :=
        match o.unit with
        | some u => if 2 ≤ cls then State.fenceWith (raiseN k) o.page u s else s
        | none => s
      let (lost, s) := s.fclTake o cls fresh
      let s := State.assertWith (raiseN k) (2 * o.page + 1) s
      let s := State.assertWith (raiseN k) (2 * Pg.FCL) s
      let s := if lost && !(o.page == Pg.FCL && o.src == 0) then raiseN k { page := Pg.FCL, src := 0 } s else s
      if cls = 3 && decide (s.mode = .paired) then State.leaveWith (raiseN k) 0x05 s else s

/-- An occurrence of a source (R643). -/
def State.occur (s : State) (o : Occ) : State := raiseN 3 o s

/-- An occurrence that names no unit. -/
def State.raise (s : State) (page src : Nat) : State := s.occur { page := page, src := src }

/-- An occurrence that names no unit, with the block's own detail. -/
def State.raiseD (s : State) (page src detail : Nat) : State := s.occur { page := page, src := src, detail := detail }

/-- An occurrence that names one unit (R715). -/
def State.raiseU (s : State) (page src unit : Nat) : State := s.occur { page := page, src := src, unit := some unit }

/-- Entries of EVR and FCL that waited for a stamp are written as far as their issuers go (R91, R92, R103). -/
def State.stampFlush (s : State) : State :=
  let (lost, s) := s.evrFlush.fclFlush
  if lost then s.occur { page := Pg.FCL, src := 0 } else s

/-- A block's event line rises (R602). -/
def State.event (s : State) (page : Nat) : State := State.assertWith (raiseN 2) (2 * page) s

/-- A mode change (R55). -/
def State.enter (s : State) (m : Sys2Proof.Mode) (cause : Nat) : State := State.enterWith (raiseN 2) m cause s

/-- Leave serving for ISOLATED (R42, R44, R648). -/
def State.leave (s : State) (cause : Nat) : State := State.leaveWith (raiseN 2) cause s

/-- A head that has entered a serving mode below the minimum to serve leaves it again (R42). -/
def State.minCheck (s : State) : State := if serving s.mode && s.cannotServe then s.leave 0x0C else s

/-- Fence one unit (R40). -/
def State.fence (s : State) (page u : Nat) : State := State.fenceWith (raiseN 2) page u s

/-- The error line of an instance after a write to its error registers: a line that has fallen deasserts its source,
one that has risen asserts it and latches FCL.FAULT (R15, R649, R650). -/
def State.syncErrLine (s : State) (page : Nat) : State :=
  if s.errLine page then
    State.assertWith (raiseN 2) (2 * page + 1) (s.wf R.FCL.FAULT.GROUP (setBit (s.rf R.FCL.FAULT.GROUP) page true))
  else s.deassert (2 * page + 1)

/-- Keep ERR_FIRST in step with ERR_STAT: no capture once every bit is clear (R645). -/
def State.syncErrFirst (s : State) (page : Nat) : State :=
  if s.rf (R.HDR.ERR_STAT.SRC page) = 0 then
    s.wf (R.HDR.ERR_FIRST.VALID page) 0
  else s

/-- FAULT_N is driven low (R652, R653). -/
def State.faultNLow (s : State) : Bool :=
  s.flag R.FCL.PIN_DRIVE.DRIVE ||
  (s.pins.resetN && s.fcl.fusesLoaded &&
    ((match s.fcl.lastQual with
      | some t => decide (s.now < t + max 20 (s.rf R.FCL.PIN_CFG.PULSE_US) * 1000)
      | none => false) || s.flag R.FCL.PIN_HOLD.HOLD))

/-- A class F bit is latched in FCL.FCLASS (R648). -/
def State.fLatched (s : State) : Bool :=
  (List.range 32).any (fun i => fld (s.rf R.FCL.FCLASS.CLASS) (2 * i) 2 == 3)

/-- A join is refused or its partner lost (R57, R493): on the joiner the head goes to ISOLATED with CAUSE 0x06 and
BSV.MODE_RESULT reads JOIN_REFUSED; on either head the phase and reason show it. -/
def State.joinRefuse (s : State) (reason : Nat) : State :=
  let s := ((s.wf R.CPL.JOIN_STAT.PHASE 0xF).wf R.CPL.JOIN_STAT.REASON reason).raise Pg.CPL 7
  let s := { s with cpl := { s.cpl with role := 0, switch := none, opM := none, loaded := false, relStage := 0, diesOk := false, ringAt := none } }
  if s.mode = .joining then (s.wf R.BSV.MODE_RESULT.RESULT 0x07).enter .isolated 0x06 else s

/-- Own SEALED Shelf data segments not yet folded (FMM.FOLD_BACKLOG, Table 10-10). -/
def State.foldBacklog (s : State) : Nat :=
  (s.maps.segs.filter (fun e => e.2.state == 2 && e.2.kind == 0 && e.2.owner == s.straps.head && !e.2.isFold)).length

/-- A grain of a command in flight is at a stage that one of these tests finds. -/
def State.anyGrain (s : State) (p : GrainSt → Bool) : Bool := s.io.cmds.any (fun e => e.2.grains.any (fun g => p g.st))

/-- A member of a pool is retired and not yet rebuilt (R367). -/
def State.rebuilds (s : State) : Bool := s.maps.pools.any (fun e => decide (e.2.rebuilt < e.2.retired.length))

/-- A lane of the journal has records queued or a page not yet durable on its homes (R353, R354). -/
def State.lanesBusy (s : State) : Bool :=
  s.mpe.lanes.any (fun e => e.2.queue != [] || e.2.pages.any (fun p => decide (p.done.length < p.homes.length)))

/-- The block takes new work (R675, R677). What counts as new work of a block is DEDUCED, log 107. -/
def State.blockOn (s : State) (page : Nat) : Bool := s.flag (R.HDR.CTL.EN page) && !s.fcl.softRst.contains page

/-- An operation code in a command slot: 16 more while the command waits for its block to take new work (R675). -/
def heldOp (op : Nat) (on : Bool) : Nat := op + 16 * b2n (!on)

/-- A command slot holds a command that its block has taken. -/
def opTaken (o : Option Nat) : Bool := match o with | some op => decide (op < 16) | none => false

/-- Work a block holds that is not finished, for STAT.BUSY (Table 18-5; which work counts: DEDUCED, log 66). -/
def State.holdsWork (s : State) (page : Nat) : Bool :=
  match page with
  | 1 => !s.bsv.jobs.isEmpty || s.bsv.tftp.isSome
  | 3 => !s.evr.queue.isEmpty
  | 4 => s.sec.erase.isSome || s.sec.job.isSome
  | 10 => !s.io.cmds.isEmpty || !s.io.unack.isEmpty
  | 11 => opTaken (s.slm.cmd.map Prod.fst)
  | 12 => s.anyGrain (fun g => match g with | .merging | .digest | .bucket | .confirm _ => true | _ => false)
  | 13 => !s.sec.dreq.isEmpty
  | 14 => s.anyGrain (fun g => g == .compress)
  | 15 => !s.sec.creq.isEmpty || s.anyGrain (fun g => g == .sealing)
  | 16 => !s.sgb.opens.isEmpty || opTaken (s.sgb.cmd.map Prod.fst) || s.sgb.job.isSome
  | 17 => s.rebuilds
  | 18 => s.lanesBusy
  | 19 => s.mpe.ckRun.isSome || opTaken (s.mpe.snap.map Prod.fst) || !s.mpe.rels.isEmpty
  | 20 => s.flag R.MPC.STATE.BUSY
  | 21 => !s.fmm.moves.isEmpty
  | 22 => s.jlk.reqs.any (fun e => e.2.op == 1)
  | 23 | 24 | 25 | 26 => s.jlk.reqs.any (fun e => e.1 / 65536 == page - 23)
  | 27 => !s.cpl.queue.isEmpty || !s.cpl.unack.isEmpty
  | 28 => s.rpl.sess.any (fun e => decide (1 ≤ e.2.state ∧ e.2.state ≤ 5))
  | 32 => !s.ccl.regs.isEmpty || s.ccl.preload.isSome || decide (2 ≤ s.rf R.CCL.L2_STATE.STATE)
  | _ => false

/-- ε in nanoseconds (R105). -/
def epsilon : Nat := 50

/-- The current skew bound before it is cut to the register (R112, R114): in 1/4,000 ns, 4,000 × the larger of ε and |θ| + ASYM, where
2 |θ| is kept, plus 1 for each nanosecond since the last exchange within ε, rounded up to a whole ns. -/
def State.epsRaw (s : State) : Nat :=
  if (s.mode == .paired || s.mode == .joining || s.mode == .handover) && !s.flag R.TBS.STAT.LOCK then
    cdiv (2000 * max (2 * epsilon) (s.tbs.theta2 + 2 * s.rf R.TBS.EPS_CFG.ASYM) + (s.tbs.phys - s.tbs.lastGood)) 4000
  else epsilon

/-- TBS.EPS_CUR, the bound commit wait, R113 and R125 use (R112). -/
def State.epsCur (s : State) : Nat := min s.epsRaw 0xFFFF

/-- The bound exceeds EPS_MAX, the condition of TBS error source EPS_LIMIT (R113). -/
def State.epsOver (s : State) : Bool := decide (s.rf R.TBS.EPS_CFG.EPS_MAX < s.epsCur)

/-- ERR_STAT bits whose cause persists, so that a clear does not hold (R15): TBS CEIL_STALL and EPS_LIMIT, HBC at doubled refresh, an
alarm and failed noise sources of SEC until BOOT (R555, R558), and the status bits that MPC source 3 and CCL source 4 report. -/
def State.persisting (s : State) (page : Nat) : Nat :=
  if page = Pg.TBS then 4 * b2n (s.flag R.TBS.STAT.CEIL_STALL) + 2 * b2n s.epsOver
  else if page = Pg.HBC then 32 * b2n (s.flag R.HBC.STAT.HOT0 || s.flag R.HBC.STAT.HOT1)
  else if page = Pg.SEC then
    b2n (decide (s.rf R.SEC.ALARM.SRC ≠ 0)) + 2 * b2n (decide (s.rf R.SEC.STAT.RNG ≠ 3)) + 4 * b2n (decide (s.rf R.SEC.STAT.RNG = 0))
  else if page = Pg.MPC then 8 * b2n (s.flag R.MPC.STATE.ENABLE_NO_INV || s.flag R.MPC.STATE.LOCK_NO_PRELOAD)
  else if page = Pg.CCL then
    16 * b2n (s.flag R.CCL.L2_STATE.ENABLE_NO_INV || s.flag R.CCL.L2_STATE.LOCK_NO_PRELOAD || s.flag R.CCL.L2_STATE.PRELOAD_BAD)
  else 0

/-- The RW fields and counters a soft reset clears that lie behind a selection register: violation counters, the domain table,
the counters of a JLK instance's positions, and the LENGTH aborts of sessions (R677). -/
def State.softBanks (s : State) (page : Nat) : State :=
  if page = Pg.NVT then { s with io := { s.io with vcnt := [], vpend := 0 } }
  else if page = Pg.ING then { s with ing := { s.ing with dom := [] } }
  else if 23 ≤ page ∧ page ≤ 26 then
    { s with jlk := { s.jlk with ends := amap s.jlk.ends (fun i (e : LinkEnd) =>
      if i / 16 = page - 23 then
        { e with cntCrc := 0, cntSeq := 0, cntLen := 0, cntCredit := 0, cntReplay := 0, cntStale := 0, cntTimeout := 0, cntOwner := 0, cntRetrain := 0 }
      else e) } }
  else if page = Pg.RPL then { s with rpl := { s.rpl with cntLen := [] } }
  else s

/-! ## What the power states look at (Table 17-15) -/

/-- No segment is open, no rebuild runs and no lane record is pending. -/
def State.sgbIdle (s : State) : Bool := s.sgb.opens.isEmpty && !s.rebuilds && !s.lanesBusy

/-- A module position is in DOWN or DETECT, where it has no signal. -/
def State.jlkNoSignal (s : State) (pos : Nat) : Bool := decide ((agetD s.jlk.ends pos {}).state ≤ 1)

/-! ## Power-fail pin -/

/-- PWR_FAIL_N is high and has been for 100 ms if it ever fell: flash work may start (R76, R91, R623, R659, R700). -/
def State.flashOk (s : State) : Bool :=
  s.pins.pwrFailN && (match s.pins.pwrRiseAt with
    | none => true
    | some t => decide (t + 100000000 ≤ s.now))

/-- Half of an integer in whole units, a half unit rounded as the free choice says (log 9). -/
def halveInt (twice : Int) : Int :=
  if twice % 2 = 0 then twice / 2 else if Config.halfUp twice then twice / 2 + 1 else twice / 2

/-- A quotient rounded to nearest, the halfway case as the free choice says (R656 MEAN, log 9). -/
def roundDiv (a : Int) (n : Nat) : Int :=
  if n = 0 then 0
  else
    let q := a / (n : Int)
    let r := a % (n : Int)
    if 2 * r < n then q else if (n : Int) < 2 * r then q + 1 else if Config.halfUp a then q + 1 else q

end Sys2Proof.Machine
end

