-- ==== Sys2Proof/Machine/CaridLink.lean ====
section
/-! DEFINITION. Carid frames: channels, lengths, credits, sequence, sending and receiving (R459 to R472). -/
namespace Sys2Proof.Machine

/-- Channels (Table 12-4). -/
def cMirror : Nat := 1
def cDelta : Nat := 2
def cForward : Nat := 3
def cTether : Nat := 4
def cHeart : Nat := 5
def cAdmin : Nat := 6
def cLink : Nat := 7

/-- Channel of a message (Tables 12-7, 12-9). -/
def chanOf : CMsg → Nat
  | .grain _ _ _ => cMirror | .bind _ _ => cMirror | .free _ => cMirror | .cancel _ => cMirror | .rcpt _ _ => cMirror | .bindAck _ => cMirror
  | .recs _ _ => cDelta | .horizon _ => cDelta | .hfcHint _ => cDelta | .pt _ _ => cDelta | .lack _ _ _ _ => cDelta
  | .fwdCmd _ _ _ _ _ _ _ => cForward | .wdata _ _ _ => cForward | .rdata _ _ _ _ => cForward | .fwdDone _ _ _ _ _ _ => cForward | .fwdAbort _ => cForward
  | .heartbeat _ _ _ _ _ => cHeart
  | .hello _ => cLink | .nak _ => cLink | .idle => cLink
  | .pageReq _ _ => cAdmin | .pageRsp _ _ _ => cAdmin | .demand _ => cAdmin | .meterCnt _ _ => cAdmin | .meterRec _ _ => cAdmin | .meterAck _ => cAdmin
  | .inflight _ _ => cAdmin | .movePropose _ _ => cAdmin | .moveAgree _ _ => cAdmin | .moveDone _ _ => cAdmin | .joinReq _ _ _ _ => cAdmin
  | .joinRsp _ _ => cAdmin | .releaseReq _ => cAdmin | .released _ => cAdmin | .hoReq => cAdmin | .hoAck => cAdmin | .claimGen _ => cAdmin
  | .rekey _ _ => cAdmin | .ring _ => cAdmin
  | .tetherReq _ => cTether | .tetherRsp _ _ _ => cTether | .admin _ _ => cAdmin

/-- Transmit priority of a channel, 1 first (Table 12-4). -/
def prioOf (ch : Nat) : Nat := nthD [9, 5, 4, 6, 1, 2, 7, 3] ch 9

/-- Write data of a forwarded command: the ranges of a Dataset Management (16 bytes each) or Copy (32 bytes each) command, else the data at
hand (R482; the layouts are NVMe's). -/
def fwdData (c : FwdCmd) (d : Bytes) : Bytes :=
  if c.opc = 0x09 then c.ranges.flatMap (fun r => zeros 4 ++ le r.2 4 ++ le r.1 8)
  else if c.opc = 0x19 then c.ranges.flatMap (fun r => zeros 8 ++ le r.1 8 ++ le (r.2 - 1) 2 ++ zeros 14)
  else d

/-- Payload bytes of a message (Tables 12-6 to 12-9); an ADMIN request or answer carries its ATAG besides (R489). -/
def lenOf : CMsg → Nat
  | .grain _ _ gs => sumL (gs.map (fun g => 40 + g.data.length))
  | .bind _ _ => 20 | .free l => 4 * l.length | .cancel _ => 4 | .rcpt _ _ => 8 | .bindAck _ => 4
  | .recs _ rs => 4 + 64 * rs.length | .horizon l => 16 * l.length | .hfcHint l => 40 * l.length | .pt _ es => 16 + 12 * es.length | .lack _ _ _ _ => 800
  | .fwdCmd _ _ _ _ _ c d => 80 + (fwdData c d).length | .wdata _ _ d => 8 + d.length | .rdata _ _ _ d => 16 + d.length | .fwdDone _ _ _ _ _ _ => 28 | .fwdAbort _ => 4
  | .heartbeat _ _ _ _ _ => 32 | .hello b => b.length | .nak _ => 4 | .idle => 0
  | .pageReq _ _ => 8 | .pageRsp _ _ _ => 4104 | .demand es => 16 * es.length | .meterCnt _ es => 4 + sumL (es.map (fun e => 4 + e.2.length))
  | .meterRec _ b => b.length | .meterAck _ => 8 | .inflight _ _ => 8 | .movePropose _ _ => 16 | .moveAgree _ _ => 16 | .moveDone _ _ => 16
  | .joinReq _ _ _ _ => 8 | .joinRsp _ _ => 16 | .releaseReq _ => 1 | .released _ => 4 | .hoReq => 0 | .hoAck => 0 | .claimGen _ => 4
  | .rekey n _ => n.length + 8 | .ring es => sumL (es.map (fun e => e.length))
  | .tetherReq _ => 4 | .tetherRsp _ _ _ => 24 | .admin _ m => 4 + lenOf m

/-- Sequenced channels, which use credits (Table 12-4). -/
def sequenced (ch : Nat) : Bool := ch == 1 || ch == 2 || ch == 3 || ch == 6

/-- Cut a list into runs of at most n (fuel: its length). -/
def chunks {β : Type} (n : Nat) : Nat → List β → List (List β)
  | 0, _ => []
  | _, [] => []
  | k + 1, l => l.take (max n 1) :: chunks n k (l.drop (max n 1))

def chunksOf {β : Type} (n : Nat) (l : List β) : List (List β) := chunks n (l.length + 1) l

/-- The frames a message takes at the negotiated version (R463, R474, Table 12-7): none where it is not enabled. -/
def framesOf (ver : Nat) : CMsg → List CMsg
  | .grain t n gs => (chunksOf (if 1 ≤ ver then 8 else 1) gs).map (fun g => .grain t n g)
  | .free l => (chunksOf 64 l).map .free
  | .recs l rs => (chunksOf 64 rs).map (fun r => .recs l r)
  | .horizon l => (chunksOf 32 l).map .horizon
  | .pt n es => if es = [] then [.pt n es] else (chunksOf 256 es).zipIdx.map (fun e => .pt (n + 256 * e.2) e.1)
  | .hfcHint l => if ver < 4 then [] else (chunksOf 64 l).map .hfcHint
  | .ring l => (chunksOf 16 l).map .ring
  | m => [m]

/-- Credits a frame needs of its channel (R469). -/
def State.cCred (s : State) (len : Nat) : Nat := cdiv (20 + len + (if s.flag R.CPL.LINK_STAT.GCM then 16 else 0)) 256

/-- The Carid link is ACTIVE, or keeps its sequence state in RETRAIN; not in VAULT (R75, R460), and not once partner loss is
declared (R491). -/
def State.caridUp (s : State) : Bool :=
  (decide (s.rf R.CPL.LINK_STAT.STATE = 5) || decide (s.rf R.CPL.LINK_STAT.STATE = 6)) && s.mode != .vault && s.bsv.lossAt.isNone

def State.setCpl (s : State) (c : Cpl) : State := { s with cpl := c }
def State.updCpl (s : State) (f : Cpl → Cpl) : State := { s with cpl := f s.cpl }

/-- The channel with credits to return, if any: the lowest. -/
def owing (c : Cpl) : Nat × Nat :=
  match c.owed.find? (fun e => decide (0 < e.2)) with
  | some (ch, n) => (ch, min n 255)
  | none => (0, 0)

/-- Header of a frame of an XSEQ (Table 12-3, R470): the ACK and up to 255 credits of one channel; LINK frames are never encrypted, and
an encrypted frame outside the sequence bears UCTR. HELLO has VER 0. -/
def State.cHead (s : State) (x : Nat) (m : CMsg) : CSent :=
  let c := s.cpl
  let enc := s.flag R.CPL.LINK_STAT.GCM && chanOf m != cLink
  { ver := match m with | .hello _ => 0 | _ => s.rf R.CPL.LINK_STAT.VER
    xseq := x, uctr := if enc && !sequenced (chanOf m) then c.uctr else 0, ack := (c.rxNext + 65535) % 65536
    credits := (owing c).2, cchan := (owing c).1, key := if enc then c.txKey else [] }

/-- Put a new frame on the link: its credits are returned, its ACK is sent, and UCTR goes on (R437, R469, R470). -/
def State.cOut (s : State) (h : CSent) (m : CMsg) : State :=
  (s.updCpl (fun c =>
    { c with owed := if h.credits = 0 then c.owed else aset c.owed h.cchan (agetD c.owed h.cchan 0 - h.credits)
             rxCred := if h.credits = 0 then c.rxCred else abump c.rxCred h.cchan h.credits
             uctr := if h.key ≠ [] && !sequenced (chanOf m) then c.uctr + 1 else c.uctr, ackDue := none })).emit (.carid h m)

/-- Send a frame outside the sequence. -/
def State.cEmit (s : State) (m : CMsg) : State := s.cOut (s.cHead 0 m) m

/-- Take the next queued message that its channel's credits allow, best priority first (R468). -/
def State.nextMsg (s : State) : Option CMsg :=
  (sortKey (fun m => prioOf (chanOf m)) s.cpl.queue).find? (fun m =>
    -- only the oldest message of its channel may go
    (match s.cpl.queue.find? (fun x => chanOf x == chanOf m) with | some x => x == m | none => false)
      && decide (s.cCred (lenOf m) ≤ agetD s.cpl.txCred (chanOf m) 0))

/-- Remove the first occurrence of a message. -/
def dropMsg (m : CMsg) : List CMsg → List CMsg
  | [] => []
  | x :: t => if x == m then t else x :: dropMsg m t

/-- Send queued messages while the window and the credits allow (R434, R469); keys change at their XSEQ (R472). -/
def State.pumpC : Nat → State → State
  | 0, s => s
  | k + 1, s =>
    if s.rf R.CPL.LINK_STAT.STATE ≠ 5 ∨ 16384 ≤ s.cpl.unack.length ∨ s.blockOn Pg.CPL = false then s
    else
      match s.nextMsg with
      | none => s
      | some m =>
        let c := s.cpl
        let (x, key, nw) := match c.txNew with
          | some (at_, key) => if at_ = c.xseq then (0, key, none) else (c.xseq, c.txKey, c.txNew)
          | none => (c.xseq, c.txKey, none)
        let s := s.setCpl { c with queue := dropMsg m c.queue, xseq := x + 1, txKey := key, txNew := nw
                                   txCred := aset c.txCred (chanOf m) (agetD c.txCred (chanOf m) 0 - s.cCred (lenOf m)) }
        let h := s.cHead x m
        State.pumpC k ((s.updCpl (fun c => { c with unack := c.unack ++ [(x, m, h)] })).cOut h m)

def State.pumpCarid (s : State) : State := State.pumpC (s.cpl.queue.length + 1) s

/-- Send a message: queued on its channel while the link is ACTIVE or retrains; an unsequenced one only while ACTIVE. -/
def State.sendC (s : State) (m : CMsg) : State :=
  if !s.caridUp then s
  else if sequenced (chanOf m) then
    (s.updCpl (fun c => { c with queue := c.queue ++ framesOf (s.rf R.CPL.LINK_STAT.VER) m })).pumpCarid
  else if s.rf R.CPL.LINK_STAT.STATE = 5 then s.cEmit m
  else s

/-- Send an ADMIN request under an ATAG: the lowest index without a request, its generation advanced when it is reused (R477, R489). -/
def State.ask (s : State) (m : CMsg) : State :=
  if !s.caridUp then s
  else
    let i := (afree s.cpl.asks (s.cpl.asks.length + 1)).getD 0
    let g := match aget s.cpl.askGen i with | some g => (g + 1) % 256 | none => 0
    (s.updCpl (fun c => { c with asks := aset c.asks i g, askGen := aset c.askGen i g })).sendC (.admin (i + g * 2 ^ 24) m)

/-- Send a LINK frame, whatever the credits. -/
def State.sendLink (s : State) (m : CMsg) : State := s.cEmit m

/-! ## Down (R460, R471, R499) -/

/-- The link enters DOWN: replay buffer, queue and partly received frames are discarded (R460). -/
def State.cplDown (s : State) : State :=
  let was := s.rf R.CPL.LINK_STAT.STATE
  let s := ((((s.wf R.CPL.LINK_STAT.STATE 0).wf R.CPL.LINK_STAT.LANES 0).wf R.CPL.LINK_STAT.VER 0).wf R.CPL.LINK_STAT.GCM 0).wf R.CPL.LINK_STAT.HALF 0
  let s := s.updCpl (fun c => { c with since := s.now, lanes := 0, rehello := false, nonce := [], pNonce := [], helloAt := none, txKey := [], rxKey := []
                                       rxNew := none, txNew := none, unack := [], queue := [], asks := [], nakAt := none, ackDue := none, replays := 0, authAt := [] })
  if was = 0 then s else s.raise Pg.CPL 3

/-- Count a NAK under the channel of the frame it rejects (R469). -/
def State.cNakCount (s : State) (ch code : Nat) : State :=
  let k := ch * 8 + (if code = 5 then 4 else code)
  (s.updCpl (fun c => { c with cnt := aset c.cnt k (satAdd 32 (agetD c.cnt k 0) 1) })).raise Pg.CPL 0

/-- An AUTH failure of a received frame counts toward the limit of 16 in 1 ms (R471): true when the link goes DOWN. -/
def State.authFail (s : State) : Bool × State :=
  let l := s.cpl.authAt.filter (fun t => decide (s.now < t + 1000000)) ++ [s.now]
  let s := s.updCpl (fun c => { c with authAt := l })
  if 16 ≤ l.length then (true, (s.cplDown).raise Pg.CPL 4) else (false, s)

/-- Discard a frame with a code (R436, R469): a sequenced frame is answered with NAK. -/
def State.cReject (s : State) (ch code : Nat) : State :=
  let (down, s) := if code = 6 then s.authFail else (false, s)
  if down then s
  else if !sequenced ch then s.cNakCount ch code
  else
    let mute := match s.cpl.nakAt with | some t => decide (s.now < t + 10000) | none => false
    if mute then s
    else (((s.updCpl (fun c => { c with nakAt := some s.now })).sendLink (.nak code))).cNakCount ch code

/-- Whether some frame bears an LSEQ. -/
def hasSeq (a : Nat) (l : List (Nat × CMsg × CSent)) : Bool := l.any (fun x => x.1 % 65536 == a)

/-- The frames after the last one that bears the acknowledged LSEQ. -/
def dropAcked (a : Nat) : List (Nat × CMsg × CSent) → List (Nat × CMsg × CSent)
  | [] => []
  | x :: t => if x.1 % 65536 = a then (if hasSeq a t then dropAcked a t else t) else if hasSeq a t then dropAcked a t else x :: t

/-- ACK and CREDITS of an accepted frame (R434, R437, R469). -/
def State.cAck (s : State) (h : CHdr) : State :=
  let s := s.updCpl (fun c =>
    let keep := dropAcked h.ack c.unack
    { c with unack := keep, txCred := if h.credits = 0 then c.txCred else abump c.txCred h.cchan h.credits
             replays := if keep.length < c.unack.length then 0 else c.replays })
  s.pumpCarid

/-- Receive a frame of a channel (R469, R471, R477): whether it is accepted, and the state after. -/
def State.cRecv (s : State) (ch : Nat) (h : CHdr) : Bool × State :=
  let c := s.cpl
  let n := s.cCred h.got
  let ret := fun (s : State) => s.updCpl (fun c =>
    { c with rxCred := aset c.rxCred ch (agetD c.rxCred ch 0 - min n (agetD c.rxCred ch 0)), owed := abump c.owed ch (min n (agetD c.rxCred ch 0)) })
  if s.rf R.CPL.LINK_STAT.STATE ≠ 5 ∨ s.mode = .vault ∨ (s.bsv.lossAt.isSome ∧ ch ≠ cHeart) then (false, s)
  else if !h.crcOk then (false, s.cReject ch 1)
  else if !h.fmtOk || h.ver ≠ s.rf R.CPL.LINK_STAT.VER then (false, s.cReject ch 5)
  else if h.len ≠ h.got then (false, s.cReject ch 3)
  else if s.flag R.CPL.LINK_STAT.GCM && ch != cLink && !h.authOk then (false, s.cReject ch 6)
  else if !sequenced ch then (true, s.cAck h)
  else if agetD c.rxCred ch 0 < n then (false, s.cReject ch 4)
  else if h.lseq = c.rxNext % 65536 then
    let nx := match c.rxNew with | some (x, _) => if x = c.rxNext + 1 then 0 else c.rxNext + 1 | none => c.rxNext + 1
    let s := (ret s).updCpl (fun c =>
      match c.rxNew with
      | some (x, key) => if x = c.rxNext + 1 then { c with rxNext := nx, rxKey := key, rxNew := none, nakAt := none, ackDue := some (c.ackDue.getD s.now) }
                         else { c with rxNext := nx, nakAt := none, ackDue := some (c.ackDue.getD s.now) }
      | none => { c with rxNext := nx, nakAt := none, ackDue := some (c.ackDue.getD s.now) })
    (true, s.cAck h)
  else if (c.rxNext % 65536 + 65536 - h.lseq) % 65536 ≤ 16384 then
    (false, (ret s).updCpl (fun c => { c with ackDue := some (c.ackDue.getD s.now) }))
  else (false, s.cReject ch 2)

/-- A token of the partner or of this head is not current (R477). -/
def State.staleTok (s : State) : State := (s.inc R.CPL.CNT_STALE.COUNT).raise Pg.CPL 6

/-- Receive the answer to an ADMIN request: one whose ATAG is not current is discarded and counted (R477, R489). -/
def State.cAnswer (s : State) (h : CHdr) : Bool × State :=
  match s.cRecv cAdmin h with
  | (false, s) => (false, s)
  | (true, s) =>
    if aget s.cpl.asks (h.atag % 2 ^ 24) = some (h.atag / 2 ^ 24) then (true, s.updCpl (fun c => { c with asks := adel c.asks (h.atag % 2 ^ 24) }))
    else (false, s.staleTok)

/-- Every frame not acknowledged goes out again, in order, byte for byte (R436, R470). -/
def State.cReplay (s : State) : State :=
  s.cpl.unack.foldl (fun s x => (s.emit (.carid x.2.2 x.2.1)).inc R.CPL.CNT_REPLAY.COUNT) s

end Sys2Proof.Machine
end

