-- ==== Sys2Proof/Machine/Cabinet.lean ====
section
/-! DEFINITION. Cabinet as a log of records in sectors of the boot flash (R631, R633, R634), and the array identity record (R96, R464). -/
namespace Sys2Proof.Machine

/-- Flash address of Cabinet (Table 16-1). -/
def cabBase : Nat := 0x06000000

/-- The record of a Cabinet entry in flash: 32-byte header and body (Table 16-9). -/
def cabRecBytes (r : CabRec) : Bytes :=
  let h := le 0x4243 2 ++ le (b2n r.deleted + 2 * b2n r.kill) 1 ++ zeros 1 ++ le r.cls 2 ++ le r.fmt 2 ++ le r.key 8
    ++ le r.seq 8 ++ le r.imgen 2 ++ le r.body.length 2
  h ++ le (crc32c (h ++ r.body)) 4 ++ r.body

/-- Bytes a record takes in its sector: 8-byte aligned (R631). -/
def cabRecSize (r : CabRec) : Nat := cdiv (32 + r.body.length) 8 * 8

/-- The bytes of a sector: its header and its records. -/
def cabSectorBytes (c : CabSector) : Bytes :=
  withCrc (le 0x43534243 4 ++ le c.seq 4 ++ zeros 20)
    ++ c.recs.flatMap (fun r => cabRecBytes r ++ List.replicate (cabRecSize r - (32 + r.body.length)) 0xFF#8)

/-- Every record in the log, oldest sector first. -/
def State.cabAll (s : State) : List CabRec := s.bsv.cab.flatMap (fun c => c.recs)

/-- Sectors free. -/
def State.cabFreeSectors (s : State) : Nat := 512 - s.bsv.cab.length

/-- A physical sector that no sector in use occupies. -/
def State.cabFreeIdx (s : State) : Nat :=
  ((List.range 512).find? (fun i => !s.bsv.cab.any (fun c => c.idx == i))).getD 0

/-- Whether a record fits the sector being filled. -/
def State.cabFits (s : State) (r : CabRec) : Bool :=
  match s.bsv.cab.getLast? with
  | some c => decide (c.used + cabRecSize r ≤ 65536)
  | none => false

/-- The record opens a new sector. -/
def State.cabNew (s : State) (r : CabRec) : State :=
  let seq := s.bsv.cabSectorSeq + 1
  { s with bsv := { s.bsv with cabSectorSeq := seq,
                               cab := s.bsv.cab ++ [{ idx := s.cabFreeIdx, seq := seq, used := 32 + cabRecSize r, recs := [r] }] } }

/-- Append a record as it stands to the sector being filled, or to a new one. -/
def State.cabPut (s : State) (r : CabRec) : State :=
  let s :=
    match s.bsv.cab.getLast? with
    | some c =>
      if c.used + cabRecSize r ≤ 65536 then
        { s with bsv := { s.bsv with cab := s.bsv.cab.dropLast ++ [{ c with used := c.used + cabRecSize r, recs := c.recs ++ [r] }] } }
      else s.cabNew r
    | none => s.cabNew r
  s.wf R.BSV.CAB_FREE.SECTORS s.cabFreeSectors

/-- Append a record BSV makes for itself, with the next SEQ and generation 0 (R639, log 6). -/
def State.cabOwn (s : State) (r : CabRec) : State :=
  let n := s.bsv.cabSeq + 1
  { s with bsv := { s.bsv with cabSeq := n } }.cabPut { r with seq := n, imgen := 0 }

/-- Body of the array identity record: array identity, EPOCH_UTC with a flag that it has been written, and ACVER (R96, R464). The layout and
the class below 0x0100 are the model's (log 104). -/
def State.identBody (s : State) : Bytes :=
  le (s.bsv.arrayId.getD 0) 16 ++ le (s.tbs.epochUtc.getD 0) 8 ++ le (b2n s.tbs.epochUtc.isSome) 1 ++ le s.bsv.acver 1 ++ zeros 6

/-- Write the array identity record, once an array exists (R96, R464). -/
def State.putIdent (s : State) : State :=
  if s.bsv.arrayId.isSome && s.flashOk then
    s.cabOwn { deleted := false, kill := false, cls := Config.identClass 0 % 256, fmt := 0, key := 0, seq := 0, imgen := 0, body := s.identBody }
  else s

end Sys2Proof.Machine
end

