-- ==== Sys2Proof/Machine/Recorder.lean ====
section
/-! DEFINITION. EVR: samples, periods, records and event entries (R655 to R662), and the power states of units (R663 to R666). -/
namespace Sys2Proof.Machine

/-! ## Samples and histograms (R655, Table 17-7) -/

/-- Nominal voltages of the monitored rails in mV, in the order of quantities 12 to 19 (Table 19-4). -/
def railNominal : List Nat := [750, 850, 1100, 1100, 400, 900, 1200, 1800]

/-- A value held to bins 0 to 15. -/
def clampBin (i : Int) : Nat := min 15 i.toNat

/-- The histogram bin of a sample of quantity q (Table 17-7). -/
def evrBin (q : Nat) (v : Int) : Nat :=
  if q < 12 then (if v < 640 then 0 else clampBin (1 + (v - 640) / 80))
  else if q < 20 then
    let nom : Int := ((nthD railNominal (q - 12) 1 : Nat) : Int)
    clampBin ((v - nom) * 100 / nom + 8)
  else if q < 22 then clampBin (v / 500)
  else if q = 22 then clampBin (v / 200)
  else if v ≤ 0 then 0 else min 15 (Nat.log2 v.toNat + 1)

/-- The largest value a quantity's MAX field holds: signed for temperatures, 16 bits otherwise (Table 17-9). -/
def evrSat (q : Nat) (v : Int) : Int × Bool :=
  let lo : Int := if q < 12 then -32768 else 0
  let hi : Int := if q < 12 then 32767 else 65535
  if v < lo then (lo, true) else if hi < v then (hi, true) else (v, false)

/-- One more in a 24-bit histogram count. -/
def histBump (h : List Nat) (b n : Nat) : List Nat :=
  let h := if h.length = 16 then h else List.replicate 16 0
  setNth h b (satAdd 24 (nthD h b 0) n)

/-- Fold one sample into a quantity. -/
def qAdd (q : Nat) (v : Int) (a : QAcc) : QAcc :=
  let (v, sat) := evrSat q v
  { min := if a.n = 0 then v else min a.min v, max := if a.n = 0 then v else max a.max v
    sum := a.sum + v, n := a.n + 1
    flags := (if sat then 1 else a.flags % 2), hist := histBump a.hist (evrBin q v) 1 }

/-- The thirty open quantities of a period. -/
def periodQs (p : Period) : List QAcc := if p.qs.length = 30 then p.qs else List.replicate 30 {}

/-- The counters whose change over a second gives the rate quantities: host bytes read and written, energy of all
pages, class counts, bins of LDC.BER_HIST, corrected bits, units rebuilt (R655). -/
def State.evrCounters (s : State) : List Nat :=
  [s.io.rdBytes, s.io.wrBytes, sumL (allPages.map (fun p => s.rf (R.HDR.ENERGY.UJ p))),
   s.rf (R.FCL.CNT_CLASS.COUNT 0), s.rf (R.FCL.CNT_CLASS.COUNT 1), s.rf (R.FCL.CNT_CLASS.COUNT 2),
   s.rf (R.FCL.CNT_CLASS.COUNT 3), s.ldc.bits, s.ldc.decodes, s.rbe.unitsBuilt]
  ++ (List.range 16).map (fun k => s.rf (R.LDC.BER_HIST.COUNT k))

/-- Change of counter i since the last sample. -/
def evrDelta (cur prev : List Nat) (i : Nat) : Nat := nthD cur i 0 - nthD prev i 0

/-- The samples of this second; none where a quantity has none (Q 27 with no decode). -/
def State.evrValues (s : State) (temps : List Int) (rails : List Nat) : List (Option Int) :=
  let c := s.evrCounters
  let d := evrDelta c s.evr.prev
  temps.map some ++ rails.map (fun v => some ((v : Nat) : Int))
  ++ [some ((d 0 / 100000000 : Nat) : Int), some ((d 1 / 100000000 : Nat) : Int), some ((d 2 / 100000 : Nat) : Int),
      some (d 3 : Int), some (d 4 : Int), some (d 5 : Int), some (d 6 : Int),
      (if d 8 = 0 then none else some ((d 7 * 16 / d 8 : Nat) : Int)),
      some ((s.foldBacklog : Nat) : Int), some (d 9 : Int)]

/-- Fold one second into the open hourly period; the Q 27 histogram gathers the step-1 decodes of each bin. -/
def State.evrFold (s : State) (vs : List (Option Int)) : List QAcc :=
  (List.range 30).map (fun q =>
    let a := nthD (periodQs s.evr.hour) q {}
    match nthD vs q none with
    | none => a
    | some v =>
      let b := qAdd q v a
      if q = 27 then
        { b with hist := (List.range 16).map (fun k =>
            nthD a.hist k 0 + evrDelta s.evrCounters s.evr.prev (10 + k)) }
      else b)

/-- The readings of a sample, as many as there are sensors: more are left out, and one that is missing is a free value (log 103). -/
def sensorFill (n from_ k : Nat) (l : List Int) : List Int := (List.range k).map (fun i => nthD l i ((Config.sensor n (from_ + i) : Nat) : Int))

/-- EVR_SAMPLE (R655, R662): fold this second of ESTAMP into the open hourly period; a die sensor at or above
EVR.TEMP_WARN raises the warning once. Nothing is sampled before the end of fuse load or twice in one second. -/
def execEvrSample (temps : List Int) (rails : List Nat) (s : State) : Host.Outcome State Fault Refusal :=
  if !s.fcl.fusesLoaded then .next s
  else if (match s.evr.sampleAt with | some t => decide (s.estamp < t + 1000000000) | none => false) then .next s
  else
    let n := s.freeCtr
    let temps := sensorFill n 0 12 temps
    let rails := (sensorFill n 12 8 (rails.map (fun v => ((v : Nat) : Int)))).map Int.toNat
    let s := (allPages.foldl (fun (t : State) p =>
      if fusedOff t.fuses.variant p then t else t.incBy (R.HDR.ENERGY.UJ p) (Config.energy p n)) s).draw
    let vs := s.evrValues temps rails
    let qs := s.evrFold vs
    let s := { s with evr := { s.evr with
      hour := { s.evr.hour with samples := s.evr.hour.samples + 1, qs := qs }
      now := vs.map (fun v => v.getD 0), prev := s.evrCounters, sampleAt := some s.estamp } }
    if temps.any (fun t => decide ((s.rf R.EVR.TEMP_WARN.TEMP : Int) ≤ t)) then .next (s.raise Pg.EVR 0) else .next s

/-! ## Records (R656 to R660) -/

/-- Share of the decodes in a bin in units of 2^-24 (Table 17-7, Q 27), held to 24 bits. -/
def berShare (h : List Nat) (k : Nat) : Nat :=
  if sumL h = 0 then 0 else min (nthD h k 0 * 16777216 / sumL h) 16777215

/-- A quantity block (Table 17-9). -/
def qBlock (q : Nat) (a : QAcc) : Bytes :=
  le (toTwos 16 a.min) 2 ++ le (toTwos 16 a.max) 2 ++ le (toTwos 16 (roundDiv a.sum a.n)) 2
  ++ le (a.flags % 2 + (if a.n = 0 then 2 else 0)) 2
  ++ (List.range 16).flatMap (fun k => le (if q = 27 then berShare a.hist k else nthD a.hist k 0) 3)

/-- The bytes of a record (Table 17-8) from its quantity blocks. -/
def evrRecord (tier seq start fin utc samples flags head array : Nat) (blocks : Bytes) : Bytes :=
  withCrc (le 0x5645 2 ++ le 1 1 ++ le tier 1 ++ le seq 4 ++ le start 8 ++ le fin 8 ++ le utc 8 ++ le samples 4
    ++ le flags 2 ++ le 30 1 ++ le head 1 ++ le array 16 ++ zeros 8 ++ padTo 1680 blocks ++ zeros 300)

/-- EVR area: base and sector count of the hourly, daily, monthly and event rings (Table 17-10). -/
def evrRing (ring : Nat) : Nat × Nat :=
  match ring with
  | 0 => (0x0E010000, 69)
  | 1 => (0x0E460000, 59)
  | 2 => (0x0E810000, 10)
  | _ => (0x0E8B0000, 8)

/-- Flash address of a sector of the EVR area, through its replacement when it has one (R660). -/
def State.evrSector (s : State) (addr : Nat) : Nat :=
  match aget s.evr.spare addr with
  | some k => 0x0E930000 + 65536 * k
  | none => addr

/-- Replace a sector that failed by the next spare (R660): true when one was left. -/
def State.evrReplace (s : State) (sector : Nat) : Bool × State :=
  let used := s.evr.spare.length
  if used < 109 then
    (true, ({ s with evr := { s.evr with spare := aset s.evr.spare sector used } }.wf R.EVR.STAT.SPARES (used + 1)).raise
      Pg.EVR 1)
  else (false, s.raise Pg.EVR 2)

/-- Write one slot of a ring, erasing the sector ahead when it is entered; a sector that fails is replaced (R660). -/
def State.evrWrite (s : State) (ring size : Nat) (data : Bytes) (ok : Bool) : State :=
  let (base, n) := evrRing ring
  let per := 65536 / size
  let slot := nthD s.evr.pos ring 0
  let sector := base + 65536 * (slot / per)
  let s := { s with evr := { s.evr with pos := setNth s.evr.pos ring ((slot + 1) % (n * per)) } }
  let (room, s) := if ok then (true, s) else s.evrReplace sector
  if !room then s
  else
    let a := s.evrSector sector
    let s := if slot % per = 0 ∧ ring ≠ 2 then s.flErase a 65536 else s
    s.flStore (a + size * (slot % per)) data

/-- The records of a tier whose START lies in a range, in slot order, as (record, CRC right). -/
def State.evrRecords (s : State) (ring lo hi : Nat) : List (Bytes × Bool) :=
  let (base, n) := evrRing ring
  ((List.range (32 * n)).map (fun i => s.flLoad (s.evrSector (base + 65536 * (i / 32)) + 2048 * (i % 32)) 2048)).filterMap
    (fun r =>
      if leAt r 0 2 = 0x5645 ∧ leAt r 3 1 = ring + 1 ∧ lo ≤ leAt r 8 8 ∧ leAt r 8 8 < hi then some (r, crcOk 2048 r) else none)

/-- Combine one quantity of several records (R658). -/
def qCombine (q : Nat) (rs : List Bytes) : Bytes :=
  let at_ := fun (r : Bytes) => slice r (0x40 + 56 * q) 56
  let ok := rs.filter (fun r => leAt (at_ r) 6 2 / 2 % 2 = 0)
  let w := sumL (ok.map (fun r => leAt r 0x20 4))
  let val := fun (o : Nat) (r : Bytes) => if q < 12 then sext 16 (leAt (at_ r) o 2) else (leAt (at_ r) o 2 : Int)
  let mn := ok.foldl (fun (m : Option Int) r => some (match m with | none => val 0 r | some x => min x (val 0 r))) none
  let mx := ok.foldl (fun (m : Option Int) r => some (match m with | none => val 2 r | some x => max x (val 2 r))) none
  let mean := roundDiv (ok.foldl (fun (t : Int) r => t + val 4 r * (leAt r 0x20 4 : Int)) 0) w
  let flags := rs.foldl (fun f r => f ||| leAt (at_ r) 6 2) 0
  le (toTwos 16 (mn.getD 0)) 2 ++ le (toTwos 16 (mx.getD 0)) 2 ++ le (toTwos 16 mean) 2 ++ le flags 2
  ++ (List.range 16).flatMap (fun k =>
    let h := fun (r : Bytes) => leAt (at_ r) (8 + 3 * k) 3
    le (if q = 27 then (roundDiv ((sumL (ok.map (fun r => h r * leAt r 0x20 4)) : Nat) : Int) w).toNat
        else min (sumL (rs.map h)) 16777215) 3)

/-- The SEQ register of a tier (Table 17-12). -/
def seqReg (tier : Nat) : Sys2Proof.Fld :=
  if tier = 0 then R.EVR.SEQ_H.SEQ else if tier = 1 then R.EVR.SEQ_D.SEQ else R.EVR.SEQ_M.SEQ

/-- The open period of a tier. -/
def State.periodOf (s : State) (tier : Nat) : Period :=
  if tier = 0 then s.evr.hour else if tier = 1 then s.evr.day else s.evr.month

/-- Open a new period of a tier now. -/
def State.openPeriod (s : State) (tier : Nat) : State :=
  let p : Period := { start := s.estamp, startUtc := if s.tbs.rtcValid then s.utcNs / 1000000000 else 0 }
  { s with evr := if tier = 0 then { s.evr with hour := p } else if tier = 1 then { s.evr with day := p } else { s.evr with month := p } }

/-- Every period opens when PHYS starts (R92, R657): before, ESTAMP stands still and no second is sampled. -/
def State.evrOpen (s : State) : State := ((s.openPeriod 0).openPeriod 1).openPeriod 2

/-- EVR.STAT.M_FULL: all 300 monthly slots are used (R660). -/
def State.evrFull (s : State) : State := s.wf R.EVR.STAT.M_FULL (b2n (decide (300 ≤ nthD s.evr.pos 2 0)))

/-- What EVR reads of its area at the end of fuse load: the last SEQ of each tier, the spares used and whether the monthly sectors are full
(R656, R660, Table 17-12). -/
def State.evrBoot (s : State) : State :=
  let s := (List.range 3).foldl (fun (t : State) k => t.wf (seqReg k) (nthD s.evr.seqs k 0)) s
  (s.wf R.EVR.STAT.SPARES s.evr.spare.length).evrFull

/-- Close the open period of a tier and write its record (R656 to R660). A daily record is made of the hourly records,
a monthly one of the daily records, that start in it; one that fails its CRC is left out and sets SHORT. -/
def State.closePeriod (s : State) (tier : Nat) (step ok : Bool) : State :=
  let p := s.periodOf tier
  if tier = 2 ∧ 300 ≤ nthD s.evr.pos 2 0 then s.openPeriod 2
  else
    let parts := if tier = 0 then [] else s.evrRecords (tier - 1) p.start (s.estamp + 1)
    let good := (parts.filter Prod.snd).map Prod.fst
    let bad := parts.length - good.length
    let samples := if tier = 0 then p.samples else sumL (good.map (fun r => leAt r 0x20 4))
    let blocks := (List.range 30).flatMap (fun q =>
      if tier = 0 then qBlock q (nthD (periodQs p) q {}) else qCombine q good)
    let gap := decide (nthD s.evr.lastEnd tier 0 < p.start) || nthD s.evr.gap tier false
    let short := decide (samples < (s.estamp - p.start) / 1000000000) || decide (bad ≠ 0)
    let flags := b2n (!s.tbs.rtcValid) + 2 * b2n step + 4 * b2n gap + 8 * b2n short
    let seq := nthD s.evr.seqs tier 0 + 1
    let rec_ := evrRecord (tier + 1) seq p.start s.estamp (if s.tbs.rtcValid then p.startUtc else 0) samples flags
      s.straps.head (s.bsv.arrayId.getD 0) blocks
    let s := s.incBy R.EVR.CNT_BADREC.COUNT bad
    let s := (s.evrWrite tier 2048 rec_ ok).wf (seqReg tier) seq
    let s := { s with evr := { s.evr with lastEnd := setNth s.evr.lastEnd tier s.estamp, seqs := setNth s.evr.seqs tier seq
                                          gap := setNth s.evr.gap tier false } }
    s.evrFull.openPeriod tier

/-- Whether a period of a tier has ended: a whole UTC hour, day or month passed, or its length of ESTAMP while the
calendar is unset (R657). -/
def State.periodDue (s : State) (tier : Nat) : Bool :=
  let p := s.periodOf tier
  if s.tbs.rtcValid then
    let t := s.utcNs / 1000000000
    if tier = 0 then decide (p.startUtc / 3600 < t / 3600)
    else if tier = 1 then decide (p.startUtc / 86400 < t / 86400)
    else decide (monthNo (p.startUtc / 86400) < monthNo (t / 86400))
  else decide (p.start + 1000000000 * (if tier = 0 then 3600 else if tier = 1 then 86400 else 2592000) ≤ s.estamp)
where
  /-- Months since 0000-03 of a day number since 1970-01-01 (proleptic Gregorian calendar). -/
  monthNo (day : Nat) : Nat :=
    let z := day + 719468
    let era := z / 146097
    let doe := z % 146097
    let yoe := (doe - doe / 1460 + doe / 36524 - doe / 146096) / 365
    let doy := doe - (365 * yoe + yoe / 4 - yoe / 100)
    (era * 400 + yoe) * 12 + (5 * doy + 2) / 153

/-- EVR_PERIOD_CLOSE (R657 to R660): the record of an ended period is written, unless a fall of PWR_FAIL_N stops flash
work (R659); a daily or monthly one waits for the records it is made of (R658). `ok` says whether the sector programs. -/
def execEvrPeriodClose (tier : Fin 3) (ok : Bool) (s : State) : Host.Outcome State Fault Refusal :=
  if s.fcl.fusesLoaded && s.flashOk && s.periodDue tier.val && (List.range tier.val).all (fun k => !s.periodDue k) then .next (s.closePeriod tier.val false ok) else .next s

/-- Close every open period with CAL_STEP (R657): the hourly one first, as the others are made of its record. -/
def State.evrCalStep (s : State) : State :=
  if s.flashOk && s.fcl.fusesLoaded then
    ((s.closePeriod 0 true true).closePeriod 1 true true).closePeriod 2 true true
  else s

/-- EVR_EVENT_PROGRAM (R661): program the queued entries, at most 64 in any second; each entry beyond is counted lost. -/
def execEvrEventProgram (ok : Bool) (s : State) : Host.Outcome State Fault Refusal :=
  if !s.flashOk || s.evr.queue.isEmpty then .next s
  else
    let recent := s.evr.recent.filter (fun t => decide (s.now < t + 1000000000))
    let room := 64 - recent.length
    let take_ := s.evr.queue.take room
    let lost := s.evr.queue.length - take_.length
    let s := take_.foldl (fun s e => s.evrWrite 3 32 e.2 ok) s
    let s := { s with evr := { s.evr with queue := [], recent := recent ++ take_.map (fun _ => s.now) } }
    if lost = 0 then .next s else .next ((s.incBy R.EVR.CNT_EVT_LOST.COUNT lost).raise Pg.EVR 3)

/-! ## Power states (R663 to R666) -/

/-- Key of a unit in the power map; unit 255 stands for the island. -/
def pwrKey (page unit : Nat) : Nat := page * 1024 + unit

/-- Every DDR channel enters a power state: ACTIVE until the Gondola is sealed, self-refresh afterwards (R704). -/
def State.ddcPower (s : State) (st : Nat) : State :=
  { s with pwr := (List.range 16).foldl (fun (m : AMap PUnit) u =>
      if st = 0 then adel m (pwrKey Pg.DDC u) else aset m (pwrKey Pg.DDC u) { state := st, idleAt := s.now }) s.pwr }

/-- A unit has work: its engine holds some, or its core a message (Table 17-15). -/
def State.unitWorks (s : State) (page unit : Nat) : Bool :=
  if page = 10 ∨ page = 11 ∨ page = 19 ∨ page = 20 ∨ page = 21 ∨ page = 28 then s.holdsWork page
  else if page = Pg.DGE then s.sec.dreq.any (fun e => e.2.core == some unit)
  else if page = Pg.CPH then s.sec.creq.any (fun e => e.2.unit == some unit)
  else false

/-- The deepest state a unit of a block enters by itself while its condition holds (Table 17-15): 0 where the unit stays or becomes
ACTIVE, as every DDR channel does from the fall of PWR_FAIL_N to the Gondola's seal (R704). -/
def State.deepest (s : State) (page unit : Nat) : Nat :=
  if s.unitWorks page unit || (page == Pg.DDC && s.mode == .vault && !s.bsv.vaultDone) then 0
  else if 6 ≤ page ∧ page ≤ 9 then
    (if s.rf (R.HFX.PORT_CFG.MODE (page - 6) (unit / 4)) = 3 ∨ s.rf (R.HFX.PORT_STAT.UP (page - 6) (unit / 4)) = 0 then 2 else 0)
  else if page = 12 ∨ page = 13 ∨ page = 14 ∨ page = 15 ∨ page = 22 then
    (if unit = 255 then
      (if (List.range (unitsMax page)).all (fun u => decide ((agetD s.pwr (pwrKey page u) {}).state ≠ 0) && !s.unitWorks page u) then 3 else 0)
     else 1)
  else if page = 16 ∨ page = 17 ∨ page = 18 then (if unit = 255 ∧ s.sgbIdle then 3 else 0)
  else if 23 ≤ page ∧ page ≤ 26 then (if s.jlkNoSignal ((page - 23) * 16 + unit / 2) then 2 else 0)
  else if page = 27 then (if s.rf R.CPL.LINK_STAT.STATE = 0 then 2 else 0)
  else if page = 29 ∨ page = 30 then 2
  else if page = 10 ∨ page = 11 ∨ page = 19 ∨ page = 20 ∨ page = 21 ∨ page = 28 ∨ page = 32 then 1
  else 0

/-- POWER_STATE_ENTRY (R664, R666): a unit idle for a time enters GATED after 1 µs, and its block's deeper state after
PWR_CTL.IDLE_US, as its POLICY allows. Pages of the SVC island and TBS stay ACTIVE. -/
def execPowerStateEntry (page : Fin 33) (unit : Fin 256) (idleNs : Nat) (s : State) : Host.Outcome State Fault Refusal :=
  let p := page.val
  let d := s.deepest p unit.val
  let pol := s.rf (R.HDR.PWR_CTL.POLICY p)
  let link := (6 ≤ p ∧ p ≤ 9) ∨ (23 ≤ p ∧ p ≤ 27)
  let st :=
    if p ≤ 5 ∨ fusedOff s.fuses.variant p ∨ 2 ≤ pol then 0
    else if d = 0 then 0
    else if d = 1 then (if 1000 ≤ idleNs then 1 else 0)
    else if pol = 1 ∧ ¬ link then (if 1000 ≤ idleNs ∧ unit.val ≠ 255 then 1 else 0)
    else if s.rf (R.HDR.PWR_CTL.IDLE_US p) * 1000 ≤ idleNs then d
    else 0
  if st = 0 ∨ st ≤ (agetD s.pwr (pwrKey p unit.val) {}).state then .next s
  else .next { s with pwr := aset s.pwr (pwrKey p unit.val) { state := st, idleAt := s.now - idleNs } }

/-- POWER_STATE_EXIT (R663): the unit is ACTIVE again after its exit latency; a unit that is OFF stays so (R666). -/
def execPowerStateExit (page : Fin 33) (unit : Fin 256) (s : State) : Host.Outcome State Fault Refusal :=
  .next { s with pwr := adel s.pwr (pwrKey page.val unit.val) }

/-- Power state of a unit: as entered, and ACTIVE again as soon as a request reaches it (R663, log 107). -/
def State.unitPower (s : State) (page u : Nat) : Nat := min (agetD s.pwr (pwrKey page u) {}).state (s.deepest page u)

/-- The units of a page that are enabled: the others are OFF under every policy (R666, Table 17-14). -/
def State.unitsOn (s : State) (page : Nat) : List Nat :=
  (List.range (unitsMax (blockOf page))).filter (fun u => !(s.fencedUnits page).contains u)

/-- PWR_STAT.STATE: the shallowest state among the enabled units, OFF where none is (Table 17-16). -/
def State.pwrState (s : State) (page : Nat) : Nat := minL 4 ((s.unitsOn page).map (s.unitPower page))

/-- PWR_STAT.ACTIVE_UNITS, saturating (Table 17-16). -/
def State.activeUnits (s : State) (page : Nat) : Nat :=
  min 255 ((s.unitsOn page).filter (fun u => s.unitPower page u == 0)).length

end Sys2Proof.Machine
end

