-- ==== Sys2Proof/Machine/Timebase.lean ====
section
/-! DEFINITION. TBS: the time counter, the stamp ceiling, calendar time and Tether (R87 to R115). -/
namespace Sys2Proof.Machine

/-! ## The ceiling log (R90 to R92, R614, R615) -/

/-- One second in nanoseconds. -/
def oneS : Nat := 1000000000

/-- Flash address of the ceiling log and its number of entries (Table 16-2). -/
def ceilBase : Nat := 0x0F020000
def ceilEntries : Nat := 57344

/-- The bytes of a ceiling log entry (Table 16-2). -/
def ceilEntry (c seq : Nat) : Bytes := withCrc (le c 8 ++ le seq 4)

/-- The valid entry with the highest sequence (R615): ceiling and sequence. -/
def State.ceilRead (s : State) : Option (Nat × Nat) :=
  ((List.range ceilEntries).map (fun i => s.flLoad (ceilBase + 16 * i) 16)).foldl
    (fun best e =>
      if !crcOk 16 e then best
      else match best with
        | none => some (leAt e 0 8, leAt e 8 4)
        | some b => if b.2 < leAt e 8 4 then some (leAt e 0 8, leAt e 8 4) else best) none

/-- Program the next entry of the ceiling log, erasing the sector ahead as a sector is entered (R615). -/
def State.ceilProgram (s : State) (c : Nat) : State :=
  let seq := s.tbs.ceilSeq + 1
  let i := seq % ceilEntries
  let s := if i % 4096 = 0 then s.flErase (ceilBase + 65536 * ((i / 4096 + 1) % 14)) 65536 else s
  { s.flStore (ceilBase + 16 * i) (ceilEntry c seq) with tbs := { s.tbs with ceilSeq := seq } }

/-- Begin the write of a new ceiling; it waits for a page program of BSV in progress (R615) and for PWR_FAIL_N (R91). -/
def State.ceilBegin (s : State) (c : Nat) : State :=
  { s with tbs := { s.tbs with ceilWrite := some c, ceilWaits := !s.bsv.jobs.isEmpty || !s.flashOk } }

/-- CEILING_WRITE (R90, R91): when PHYS has reached the stored ceiling less 10 s, a ceiling of PHYS + 20 s is appended;
one that waited for a program or for PWR_FAIL_N starts once neither holds it back. -/
def execCeilingWrite (s : State) : Host.Outcome State Fault Refusal :=
  match s.tbs.ceilWrite with
  | some c => .next (if s.tbs.ceilWaits then s.ceilBegin c else s)
  | none =>
    if s.tbs.started && decide (s.rf R.TBS.CEILING.CEIL ≤ s.tbs.phys + 10 * oneS) then .next (s.ceilBegin (s.tbs.phys + 20 * oneS))
    else .next s

/-! ## Calendar time (R93 to R96) -/

/-- RTC units of 1/32,768 s in a UTC nanosecond count (R94). -/
def rtcOf (ns : Nat) : Nat := ns * 32768 / oneS

/-- UTC nanoseconds of an RTC count. -/
def rtcNs (n : Nat) : Nat := n * oneS / 32768

/-- Set the anchor pair so that UTC at the present ESTAMP is t (R93). -/
def State.anchor (s : State) (t : Nat) : State := (s.wf R.TBS.UTC_REF_T.UTC t).wf R.TBS.UTC_REF_E.ESTAMP s.tbs.phys

/-- Write EPOCH_UTC, once, into the array identity record when an array exists and the calendar is set (R96); not while the boot flash is held
(R76). -/
def State.epochUtcWrite (s : State) : State :=
  if s.bsv.arrayId.isSome && s.tbs.rtcValid && s.tbs.epochUtc.isNone && s.flashOk then
    { s with tbs := { s.tbs with epochUtc := some (s.utcNs - s.tbs.phys) } }.putIdent
  else s

/-- Step the counter forward: the anchor pair moves with it, so that UTC does not jump (R93, R110). -/
def State.stepPhys (s : State) (d : Nat) : State :=
  { s with tbs := { s.tbs with phys := s.tbs.phys + d, lastGood := s.tbs.phys + d } }.anchor s.utcNs

/-- Step forward under the ceiling: when the step passes it, a ceiling 20 s above is appended first (R110). -/
def State.stepForward (s : State) (d : Nat) : State :=
  if s.rf R.TBS.CEILING.CEIL < s.tbs.phys + d then
    { s.ceilBegin (s.tbs.phys + d + 20 * oneS) with tbs := { (s.ceilBegin (s.tbs.phys + d + 20 * oneS)).tbs with stepAfterCeil := some d } }
  else s.stepPhys d

/-- Start PHYS at S and anchor it to the UTC that BOOT read from the RTC (R92, R96). -/
def State.physStart (s : State) : State :=
  let s := { s with tbs := { s.tbs with phys := s.tbs.startS, started := true } }
  match s.tbs.rtcRead with
  | some t => (s.anchor t).evrOpen
  | none => s.evrOpen

/-- The entry of a ceiling write is durable: PHYS starts at its first ceiling of a BOOT, and a step that waited for it is taken
(R90 to R92, R110). -/
def State.ceilDone (s : State) (c : Nat) : State :=
  let s := (s.ceilProgram c).wf R.TBS.CEILING.CEIL c
  let step := s.tbs.stepAfterCeil
  let s := { s with tbs := { s.tbs with ceilWrite := none, stepAfterCeil := none } }
  let s := if s.tbs.started then s else s.physStart
  let s := match step with | some d => s.stepPhys d | none => s
  s.wf R.TBS.STAT.CEIL_STALL (b2n (decide (c ≤ s.tbs.phys)))

/-- CEILING_STALL (R91): PHYS has reached the stored ceiling; every issuer stalls and TBS sets CEIL_STALL. -/
def execCeilingStall (s : State) : Host.Outcome State Fault Refusal :=
  if s.tbs.started && decide (s.rf R.TBS.CEILING.CEIL ≤ s.tbs.phys) && !s.flag R.TBS.STAT.CEIL_STALL then
    .next ((s.wf R.TBS.STAT.CEIL_STALL 1).raise Pg.TBS 2)
  else .next s

/-- The step of a calendar setting in whole seconds: CAL_VALUE less the UTC before, 0 when it was unset (R95). -/
def State.calStep (s : State) : Int :=
  if s.tbs.rtcValid then Int.tdiv ((s.rf R.TBS.CAL_VALUE.UTC : Int) - (s.utcNs : Int)) 1000000000 else 0

/-- Set the calendar from CAL_VALUE (R95): RTC, anchor, EVR entry, CAL_STEP in the open meter minute and EVR periods,
EPOCH_UTC when it is the first setting of an array (R96). A setting before PHYS has started is also the value that anchors its start
(DESIGN CHOICE, log 74). -/
def State.calSet (s : State) : State :=
  let v := s.rf R.TBS.CAL_VALUE.UTC
  let step := s.calStep
  let s := { s with tbs := { s.tbs with rtc := rtcOf v, rtcFrac := 0, rtcValid := true, rtcLost := false, rtcUpdAt := s.tbs.phys
                                        rtcRead := if s.tbs.started then s.tbs.rtcRead else some v } }
  let s := s.anchor v
  let s := s.evrEvent 7 Unit.bsv (toTwos 48 step)
  let s := s.evrCalStep
  { s with slm := { s.slm with calStep := true } }.epochUtcWrite

/-- CAL_SET (R95): the write of 1 to TBS.CAL_CMD.SET. -/
def execCalSet (s : State) : Host.Outcome State Fault Refusal := .next s.calSet

/-- RTC_HOURLY_UPDATE (R95): while the calendar is set, the RTC takes the UTC of R93 once per hour. -/
def execRtcHourlyUpdate (s : State) : Host.Outcome State Fault Refusal :=
  if s.tbs.rtcValid && decide (s.tbs.rtcUpdAt + 3600 * oneS ≤ s.tbs.phys) then
    .next { s with tbs := { s.tbs with rtc := rtcOf s.utcNs, rtcFrac := 0, rtcUpdAt := s.tbs.phys } }
  else .next s

/-! ## Tether (R105 to R114) -/

/-- Exchanges run in PAIRED and JOINING while Carid is ACTIVE and the counter runs (R92, R105), until partner loss is declared (R491). -/
def State.tetherRuns (s : State) : Bool :=
  s.tbs.started && s.bsv.lossAt.isNone && (s.mode == .paired || s.mode == .handover || s.mode == .joining || (s.mode == .solo && s.cpl.role == 2 && decide (3 ≤ s.rf R.CPL.JOIN_STAT.PHASE)))
    && decide (s.rf R.CPL.LINK_STAT.STATE = 5)

/-- TETHER_EXCHANGE_START (R105): the follower sends a REQ every microsecond and takes t1. -/
def execTetherExchangeStart (s : State) : Host.Outcome State Fault Refusal :=
  if s.tetherRuns && s.flag R.TBS.STAT.ROLE && (s.tbs.exNext == 0 || decide (s.tbs.exAt + 1000 ≤ s.tbs.phys)) then
    let ex := s.tbs.exNext
    .next ({ s with tbs := { s.tbs with exch := aset s.tbs.exch ex s.tbs.phys, exNext := (ex + 1) % 4294967296, exAt := s.tbs.phys } }.cEmit
      (.tetherReq ex))
  else .next s

/-- One more exchange within ε, and lock after sixteen (R111); theta2 is twice |θ|. -/
def State.tetherGood (s : State) (theta2 : Nat) : State :=
  let run := min 16 (s.rf R.TBS.STAT.RUN + 1)
  let s := (s.wf R.TBS.STAT.RUN run)
  let s := { s with tbs := { s.tbs with badRun := 0, lastDone := s.tbs.phys, lastGood := s.tbs.phys, theta2 := theta2, goodSeen := true } }
  if run = 16 then s.wf R.TBS.STAT.LOCK 1 else s

/-- Loss of lock (R111, Table 3-5). -/
def State.tetherLoss (s : State) : State :=
  let s := (s.wf R.TBS.STAT.LOCK 0).wf R.TBS.STAT.RUN 0
  if s.mode = .paired then s.raise Pg.TBS 0 else s

/-- One more exchange that is not within ε (R111, R112). Until one within ε has occurred, |θ| stays that of the step decision. -/
def State.tetherBad (s : State) (theta2 : Nat) : State :=
  let s := (s.inc R.TBS.CNT_BADEX.COUNT).wf R.TBS.STAT.RUN 0
  let s := { s with tbs := { s.tbs with badRun := min 4 (s.tbs.badRun + 1), lastDone := s.tbs.phys,
                                         theta2 := if s.tbs.goodSeen then theta2 else s.tbs.theta2 } }
  if s.tbs.badRun = 4 && s.flag R.TBS.STAT.LOCK then s.tetherLoss else s

/-- The step decision of a join (R110) by twice θ: |θ| above STEP_MAX refuses it with CLOCK_STEP; a head shown to be behind steps
forward by |θ|, rounded up to a whole ns. -/
def State.joinStep (s : State) (behind2 : Int) : State :=
  let m := behind2.natAbs
  let s := { s with tbs := { s.tbs with stepDone := true, theta2 := if s.tbs.goodSeen then s.tbs.theta2 else m } }
  if 2 * (s.rf R.TBS.STEP_MAX.SEC * oneS) < m then (s.raise Pg.TBS 3).joinRefuse 0x09
  else
    let s := s.wf R.CPL.JOIN_STAT.PHASE 4
    if 0 < behind2 then s.stepForward (cdiv m 2) else s

/-- In the TETHER phase of a join, with the step decision still to be made (Table 12-10). -/
def State.stepPhase (s : State) : Bool := decide (s.rf R.CPL.JOIN_STAT.PHASE = 3) && !s.tbs.stepDone

/-- TETHER_REQ (R105, R486): the reference takes t2 and answers with t2 and t3. `lag` is twice the offset by which the step decision of
the join has shown this head to be behind, 0 otherwise: the spec gives no frame that tells the reference (log 13). -/
def execTetherReq (ex : Fin 4294967296) (lag : Nat) (s : State) : Host.Outcome State Fault Refusal :=
  if s.tetherRuns && !s.flag R.TBS.STAT.ROLE then
    let t := s.tbs.phys
    let decides := s.stepPhase && decide (0 < lag)
    let s := (s.cEmit (.tetherRsp ex.val t t)).tetherGood 0
    let s := if decides then s.joinStep lag else s
    .next (if s.cpl.role = 2 ∧ s.rf R.CPL.JOIN_STAT.PHASE = 3 ∧ s.rf R.TBS.STAT.RUN = 16 then s.wf R.CPL.JOIN_STAT.PHASE 4 else s)
  else .next s

/-- An exchange is within ε (R106): δ ≤ 2 µs and |θ| + ASYM ≤ 50 ns, taken by twice |θ| so that nothing is rounded. -/
def State.withinEps (s : State) (theta2 delta : Int) : Bool :=
  decide (delta ≤ 2000) && decide (theta2.natAbs + 2 * s.rf R.TBS.EPS_CFG.ASYM ≤ 2 * epsilon)

/-- TETHER_RSP (R105, R106, R109 to R112): the follower takes t4, computes θ and δ, sets its rate and keeps the lock; the exchange that
decides the join's step counts as every other one. TBS.OFFSET shows θ in whole ns (log 9); TBS.RTT shows the low 16 bits of a round trip that
does not fit them (DESIGN CHOICE, log 75). -/
def execTetherRsp (ex : Fin 4294967296) (t2 t3 : Nat) (s : State) : Host.Outcome State Fault Refusal :=
  match aget s.tbs.exch ex.val with
  | none => .next s
  | some t1 =>
    let t4 := s.tbs.phys
    let s := { s with tbs := { s.tbs with exch := adel s.tbs.exch ex.val } }
    if !(s.tetherRuns && s.flag R.TBS.STAT.ROLE) then .next s
    else
      let theta2 := ((t2 : Int) - t1) - ((t4 : Int) - t3)
      let delta := ((t4 : Int) - t1) - ((t3 : Int) - t2)
      let s := (s.wf R.TBS.OFFSET.THETA (toTwos 32 (halveInt theta2))).wf R.TBS.RTT.DELTA (toTwos 16 delta)
      let step := s.stepPhase && decide (delta ≤ 2000)
      let s := { s with tbs := { s.tbs with rate := max (-100) (min 100 (Config.tetherRate theta2)) } }
      let s := if s.withinEps theta2 delta then s.tetherGood theta2.natAbs else s.tetherBad theta2.natAbs
      .next (if step then s.joinStep theta2 else s)

/-- TETHER_EXCHANGE_LOST (R486): a REQ without RSP within 2 µs counts in CNT_LOST. -/
def execTetherExchangeLost (ex : Fin 4294967296) (s : State) : Host.Outcome State Fault Refusal :=
  match aget s.tbs.exch ex.val with
  | some t1 =>
    if t1 + 2000 ≤ s.tbs.phys then
      .next { s.inc R.TBS.CNT_LOST.COUNT with tbs := { s.tbs with exch := adel s.tbs.exch ex.val } }
    else .next s
  | none => .next s

/-- TETHER_LOCK_LOSS (R111): no exchange has completed for 4 µs. -/
def execTetherLockLoss (s : State) : Host.Outcome State Fault Refusal :=
  if (s.mode == .paired || s.mode == .joining) && s.flag R.TBS.STAT.LOCK && decide (s.tbs.lastDone + 4000 ≤ s.tbs.phys) then
    .next s.tetherLoss
  else .next s

end Sys2Proof.Machine
end

