-- ==== Sys2Proof/Machine/Boot.lean ====
section
/-! DEFINITION. Boot flash, Phohorn images, the boot record, Cabinet, update commands and the service port (R612 to R641). -/
namespace Sys2Proof.Machine

/-! ## Cabinet (R631 to R635) -/

/-- Some KILL record names this SEQ (R632). -/
def State.cabDead (s : State) (seq : Nat) : Bool := s.cabAll.any (fun r => r.kill && leVal r.body == seq)

/-- The boot record in force; without one, as R619 gives. -/
def State.bootRecord (s : State) : BootRec := s.bsv.bootRec.getD {}

/-- The running image is the trial. -/
def State.runsTrial (s : State) : Bool :=
  (s.bootRecord.trial != 0xFF) && s.bsv.running == some s.bootRecord.trial && s.flag R.BSV.BOOT_STAT.TRIAL

/-- A record belongs to a trial that exists. -/
def State.cabOfTrial (s : State) (r : CabRec) : Bool := s.bootRecord.trial != 0xFF && r.imgen == s.bootRecord.trialGen

/-- Visible to the running image (R632). -/
def State.cabVisible (s : State) (r : CabRec) : Bool := !s.cabOfTrial r || s.runsTrial

/-- The same CLASS, FMT and KEY. -/
def cabSame (a b : CabRec) : Bool := a.cls == b.cls && a.fmt == b.fmt && a.key == b.key

/-- The record that gives a key its value (R632): visible, live, not a KILL record, highest SEQ. -/
def State.cabNewest (s : State) (cls fmt key : Nat) : Option CabRec :=
  (s.cabAll.filter (fun r => !r.kill && r.cls == cls && r.fmt == fmt && r.key == key && s.cabVisible r && !s.cabDead r.seq)).foldl
    (fun b r => match b with | none => some r | some x => if x.seq < r.seq then some r else b) none

/-- The value of a key, none when it has none (R632). -/
def State.cabValue (s : State) (cls fmt key : Nat) : Option Bytes :=
  match s.cabNewest cls fmt key with
  | some r => if r.deleted then none else some r.body
  | none => none

/-- A KILL record for a SEQ. -/
def killRec (seq : Nat) : CabRec :=
  { deleted := false, kill := true, cls := 0, fmt := 0, key := 0, seq := 0, imgen := 0, body := le seq 8 }

/-- Kill every live record that passes a test, in one pass (R636, R637, R639). -/
def State.cabPurge (s : State) (p : CabRec → Bool) : State :=
  (s.cabAll.filter (fun r => !r.kill && !s.cabDead r.seq && p r)).foldl (fun t r => t.cabOwn (killRec r.seq)) s

/-- Whether compaction copies a record (R634). -/
def State.cabKeeps (s : State) (r : CabRec) : Bool :=
  let older := s.cabAll.any (fun x => cabSame x r && decide (x.seq < r.seq) && !x.kill && !s.cabDead x.seq)
  !s.cabDead r.seq
  && !s.cabAll.any (fun x => cabSame x r && decide (r.seq < x.seq) && !x.kill && !r.kill && !s.cabDead x.seq && !s.cabOfTrial x)
  && !(r.deleted && !older)
  && !(r.kill && !s.cabAll.any (fun x => x.seq == leVal r.body))

/-- Compact the oldest sector (R634): copy its live records unchanged, then erase it. -/
def State.cabCompact (s : State) : State :=
  match s.bsv.cab with
  | [] => s
  | c :: rest =>
    if rest.isEmpty then s
    else
      let keep := c.recs.filter s.cabKeeps
      let s := keep.foldl (fun t r => t.cabPut r) s
      let s := { s with bsv := { s.bsv with cab := s.bsv.cab.drop 1 } }
      s.wf R.BSV.CAB_FREE.SECTORS s.cabFreeSectors

/-- CABINET_COMPACT (R634): with fewer than 32 free sectors. -/
def execCabinetCompact (s : State) : Host.Outcome State Fault Refusal :=
  if s.flashOk && decide (s.cabFreeSectors < 32) then .next s.cabCompact else .next s

/-- A byte of the boot flash as a reader sees it: Cabinet's records in their sectors, the header of the EVR area,
whose layout is not given (log 106), else the stored byte. -/
def State.flByte (s : State) (a : Nat) : Byte :=
  if cabBase ≤ a ∧ a < 0x08000000 then
    match s.bsv.cab.find? (fun c => c.idx == (a - cabBase) / 65536) with
    | some c => nthD (cabSectorBytes c) (a % 65536) 0xFF#8
    | none => 0xFF#8
  else if 0x0E000000 ≤ a ∧ a < 0x0E010000 then Config.evrHeader s.evr.spare.length (a - 0x0E000000)
  else sget flashDefault s.flash a

/-- k bytes of the boot flash from an address on. -/
def State.flRead (s : State) (a : Nat) : Nat → Bytes
  | 0 => []
  | k + 1 => s.flByte a :: s.flRead (a + 1) k

/-! ## The boot record (R619, R620, Table 16-6) -/

/-- The 32-byte body of the boot record (Table 16-6). -/
def bootRecBytes (b : BootRec) : Bytes :=
  le b.confirmed 1 ++ le b.trial 1 ++ le b.tries 1 ++ le b.flags 1 ++ le b.windowH 2 ++ zeros 2 ++ le b.trialStart 8
  ++ le b.confSecver 1 ++ le b.confCarid 1 ++ le b.confCabfmt 2 ++ le b.confGen 2 ++ le b.trialGen 2 ++ le b.nextGen 2 ++ zeros 6

/-- Write the boot record: class 0x0001, format 0, key 0 of Cabinet. -/
def State.putBootRec (s : State) (b : BootRec) : State :=
  let s := { s with bsv := { s.bsv with bootRec := some b } }
  (s.cabOwn { deleted := false, kill := false, cls := 1, fmt := 0, key := 0, seq := 0, imgen := 0, body := bootRecBytes b }).wf
    R.BSV.BOOT_STAT.TRIES b.tries

/-- Arm a slot as the trial (R620). -/
def State.armSlot (s : State) (slot tries : Nat) : State :=
  let b := s.bootRecord
  s.putBootRec { b with trial := slot, tries := tries, trialStart := 0, trialGen := b.nextGen, nextGen := (b.nextGen + 1) % 65536
                        windowH := s.rf R.BSV.UPD_CFG.WINDOW_H }

/-! ## Image checks (R616, R617) -/

/-- Flash address of a slot (Table 16-1). -/
def slotBase (slot : Nat) : Nat := if slot = 0 then 0 else 0x08000000

/-- Largest image (R616). -/
def imageMax : Nat := 100663296

/-- The 256-byte header of a slot. -/
def State.imgHeader (s : State) (slot : Nat) : Bytes := s.flLoad (slotBase slot) 256

/-- The manifest of a slot. -/
def State.imgManifest (s : State) (slot : Nat) : Bytes := s.flLoad (slotBase slot + 0x800) (leAt (s.imgHeader slot) 0x0C 4)

/-- The manifest entries: slot offset, length, load offset, digest (Table 16-4). -/
def manEntries (m : Bytes) : List (Nat × Nat × Nat × Bytes) :=
  (List.range (leAt m 0 4)).map (fun i =>
    let e := slice m (16 + 64 * i) 64
    (leAt e 4 4, leAt e 8 4, leAt e 12 8, slice e 0x20 32))

/-- Two load ranges do not overlap. -/
def loadsApart (es : List (Nat × Nat × Nat × Bytes)) : Bool :=
  (List.range es.length).all (fun i => (List.range i).all (fun j =>
    let a := nthD es i (0, 0, 0, [])
    let b := nthD es j (0, 0, 0, [])
    decide (a.2.2.1 + a.2.1 ≤ b.2.2.1 ∨ b.2.2.1 + b.2.1 ≤ a.2.2.1)))

/-- Header, manifest and sections are consistent (check 3 of R617). -/
def imgFormatOk (h m : Bytes) : Bool :=
  let total := leAt h 8 4
  let es := manEntries m
  leAt h 4 2 == 1 && decide (total ≤ imageMax) && leAt h 0x0C 4 == 16 + 64 * leAt m 0 4
  && decide (1 ≤ leAt m 0 4 ∧ leAt m 0 4 ≤ 64) && decide (0x800 + leAt h 0x0C 4 ≤ total)
  && es.all (fun e => e.1 % 4096 == 0 && decide (0x2000 ≤ e.1 ∧ e.1 + e.2.1 ≤ total) && decide (e.2.2.1 + e.2.1 ≤ 4294967296))
  && loadsApart es

/-- The image key hash a header names is unrevoked and is that of its public key (R560). -/
def State.imgKeyOk (s : State) (h : Bytes) : Bool :=
  match s.fuses.keyHashes[leAt h 0x14 1]? with
  | some k => decide (leAt h 0x14 1 < 4) && !k.revoked && k.hash == sha256 (slice h 0x30 60)
  | none => false

/-- The result of checking a slot (R617, Table 16-5): 1 pass, or the code of the first check that fails. -/
def State.checkSlot (s : State) (slot : Nat) (readBad : Bool) : Nat :=
  let h := s.imgHeader slot
  let m := s.imgManifest slot
  if readBad then 8
  else if slice h 0 4 ≠ ascii "PHHN" ∨ s.bsv.incomplete.contains slot then 7
  else if !imgFormatOk h m then 2
  else if !s.imgKeyOk h then 3
  else if !hssVerifyImage (slice h 0x30 60) (h ++ m) (s.flLoad (slotBase slot + 0x100) 1776) then 4
  else if 64 < leAt h 0x10 4 ∨ leAt h 0x10 4 < s.fuses.antiRollback then 5
  else if (manEntries m).all (fun e => sha256 (s.flLoad (slotBase slot + e.1) e.2.1) == e.2.2.2) then 1
  else 6

/-- Check a slot at BOOT, with the result in BOOT_STAT and source 0 raised on a failure (R640, R641). -/
def State.checkAt (s : State) (slot : Nat) (bad : List Nat) : Nat × State :=
  let c := s.checkSlot slot (bad.contains slot)
  let s := if slot = 0 then s.wf R.BSV.BOOT_STAT.CHECK_A c else s.wf R.BSV.BOOT_STAT.CHECK_B c
  (c, if c = 1 then s else s.raise Pg.BSV 0)

/-- HBM offset of the firmware region (Table 1-6). -/
def fwRegion : Nat := 0xB00000000

/-- Load a checked image and make it the running one. -/
def State.loadImage (s : State) (slot : Nat) (trial : Bool) : State :=
  let h := s.imgHeader slot
  let m := s.imgManifest slot
  let b := s.bootRecord
  let s := (manEntries m).foldl (fun t e => t.store (hbmBase + fwRegion + e.2.2.1) (t.flLoad (slotBase slot + e.1) e.2.1)) s
  let s := { s with bsv := { s.bsv with
    running := some slot, runFmt := leAt h 0x18 2, runCarid := leAt h 0x1A 1,
    runGen := if trial then b.trialGen else b.confGen, entry := leAt m 8 8, imageLoaded := true } }
  let s := { s with sec := { s.sec with image := sha256 m } }
  let s := (s.wf R.BSV.BOOT_STAT.SLOT slot).wf R.BSV.BOOT_STAT.TRIAL (b2n trial)
  let s := s.wf R.BSV.SECVER.RUN (leAt h 0x10 4)
  let s := s.wf R.BSV.PROB_END.ESTAMP (if trial then b.trialStart + b.windowH * 3600 * oneS else 0)
  s.wf R.BSV.BOOT_STEP.STEP 4

/-- Kill every live firmware record of another format (R636). -/
def State.confirmPurge (s : State) : State :=
  s.cabPurge (fun r => decide (0x100 ≤ r.cls) && r.fmt != s.bootRecord.confCabfmt)

/-- Steps 2 and 3 of R625 for the trial in a slot: the boot record, then the confirm purge. -/
def State.confirmTrial (s : State) (slot : Nat) : State :=
  let h := s.imgHeader slot
  let b := s.bootRecord
  let s := s.putBootRec { b with confirmed := slot, trial := 0xFF, confSecver := leAt h 0x10 4, confCarid := leAt h 0x1A 1
                                 confCabfmt := leAt h 0x18 2, confGen := b.trialGen, flags := setBit b.flags 2 true }
  let s := s.confirmPurge
  s.putBootRec { s.bootRecord with flags := setBit s.bootRecord.flags 2 false }

/-- The fallback purge: kill every live record of the failed trial's generation (R637). -/
def State.fallbackPurge (s : State) : State :=
  let g := s.bootRecord.trialGen
  let s := s.cabPurge (fun r => r.imgen == g)
  s.putBootRec { s.bootRecord with flags := setBit s.bootRecord.flags 1 false }

/-- Fall back (R621): no trial, the flags, the purge; a FALLBACK entry with the slots (R661). -/
def State.fallBack (s : State) : State :=
  let b := s.bootRecord
  let failed := b.trial
  let s := s.putBootRec { b with trial := 0xFF, tries := 0, flags := setBit (setBit b.flags 0 true) 1 true }
  let s := s.fallbackPurge
  let s := (s.wf R.BSV.BOOT_STAT.FELL_BACK 1).raise Pg.BSV 1
  s.evrEvent 6 Unit.bsv (failed + 256 * b.confirmed)

/-- Step 5 and on of the slot choice (R621): the confirmed image, else the other slot on probation, else none. -/
def State.chooseConfirmed (s : State) (startS : Nat) (bad : List Nat) : State :=
  let b := s.bootRecord
  let (c, s) := if b.confirmed = 0xFF then (0, s) else s.checkAt b.confirmed bad
  if c = 1 then s.loadImage b.confirmed false
  else
    let other := if b.confirmed = 0 then 1 else 0
    let (c, s) := s.checkAt other bad
    if c = 1 then
      let s := s.armSlot other 1
      (s.putBootRec { s.bootRecord with trialStart := startS }).loadImage other true
    else s

/-- The slot choice at BOOT (R621); the boot record is written before an image is loaded. -/
def State.slotChoice (s : State) (startS : Nat) (bad : List Nat) : State :=
  let b := s.bootRecord
  let s := if bit b.flags 1 then s.fallbackPurge else s
  let s :=
    if bit b.flags 2 then
      let s := s.cabPurge (fun r => decide (0x100 ≤ r.cls) && r.fmt != s.bootRecord.confCabfmt)
      s.putBootRec { s.bootRecord with flags := setBit s.bootRecord.flags 2 false }
    else s
  let b := s.bootRecord
  if b.trial = 0xFF then
    (s.putBootRec { b with flags := setBit b.flags 0 false }).chooseConfirmed startS bad
  else
    let first := if b.confSecver < s.fuses.antiRollback then some (s.checkAt b.trial bad) else none
    let s := (first.map Prod.snd).getD s
    if (first.map Prod.fst) = some 1 ∧ leAt (s.imgHeader b.trial) 0x10 4 = s.fuses.antiRollback then (s.confirmTrial b.trial).loadImage b.trial false
    else if b.tries = 3 ∨ (b.trialStart ≠ 0 ∧ b.trialStart + b.windowH * 3600 * oneS ≤ startS) then
      s.fallBack.chooseConfirmed startS bad
    else
      let s := s.putBootRec { b with tries := b.tries + 1, trialStart := if b.trialStart = 0 then startS else b.trialStart
                                     flags := setBit b.flags 0 false }
      let (c, s) := match first with | some x => (x.1, s) | none => s.checkAt b.trial bad
      if c = 1 then s.loadImage b.trial true else s.fallBack.chooseConfirmed startS bad

/-! ## Update commands (R624 to R626) -/

/-- Answer a BSV.UPD_CMD command. -/
def State.updResult (s : State) (r : Nat) : State := s.wf R.BSV.UPD_STAT.RESULT r

/-- Queue a boot-flash job; the first one starts at once unless PWR_FAIL_N holds the flash (R76, R623). -/
def State.flPost (s : State) (j : FlJob) : State :=
  { s with bsv := { s.bsv with jobs := s.bsv.jobs ++ [j], jobHeld := if s.bsv.jobs.isEmpty then !s.flashOk else s.bsv.jobHeld } }

/-- An update command that writes the boot record: at once, or where the flash is held as a job that keeps the command pending (R76, R623). -/
def State.updRun (s : State) (j : FlJob) (now : State) : State :=
  if s.flashOk then now else (s.wf R.BSV.UPD_STAT.PENDING 1).flPost j

/-- BOOT_OK (R624). -/
def State.bootOk (s : State) : State :=
  if s.flag R.BSV.UPD_STAT.PENDING then s.updResult 2
  else if s.runsTrial then s.updRun .bootOk ((s.putBootRec { s.bootRecord with tries := 0 }).updResult 0)
  else s.updResult 0

/-- BOOT_OK: BSV.UPD_CMD 0x1. -/
def execBootOk (s : State) : Host.Outcome State Fault Refusal := .next s.bootOk

/-- Steps 2 and 3 of R625: write the record and purge. -/
def State.confirmWrite (s : State) : State :=
  let s := s.confirmTrial s.bootRecord.trial
  let s := { s with bsv := { s.bsv with runGen := s.bootRecord.confGen } }
  ((s.wf R.BSV.BOOT_STAT.TRIAL 0).wf R.BSV.PROB_END.ESTAMP 0).updResult 0

/-- Every fuse has programmed (R625): the record follows, once the flash is not held. -/
def State.confirmDone (s : State) (want : Nat) : State :=
  let s := { s with fuses := { s.fuses with antiRollback := want } }.wf R.BSV.SECVER.FUSES want
  s.updRun .confirm s.confirmWrite

/-- CONFIRM (R625): `badFuse` is the anti-rollback fuse count at which a fuse fails to program, if one does. -/
def State.confirm (s : State) (badFuse : Option Nat) : State :=
  if s.flag R.BSV.UPD_STAT.PENDING then s.updResult 2
  else if !s.runsTrial then s.updResult 3
  else if s.mode = .boot ∨ s.mode = .vault then s.updResult 7
  else if s.flag R.BSV.BOOT_STAT.EXPIRED then s.updResult 4
  else
    let want := max s.fuses.antiRollback (s.rf R.BSV.SECVER.RUN)
    match badFuse with
    | some k =>
      if s.fuses.antiRollback ≤ k ∧ k < want then
        (({ s with fuses := { s.fuses with antiRollback := k } }.wf R.BSV.SECVER.FUSES k).raise Pg.BSV 6).updResult 5
      else s.confirmDone want
    | none => s.confirmDone want

/-- CONFIRM: BSV.UPD_CMD 0x2. -/
def execConfirm (badFuse : Option Nat) (s : State) : Host.Outcome State Fault Refusal := .next (s.confirm badFuse)

/-- REVERT (R626). -/
def State.revert (s : State) : State :=
  if s.flag R.BSV.UPD_STAT.PENDING then s.updResult 2
  else if s.bootRecord.trial = 0xFF then s.updResult 3
  else s.updRun .revert ((s.putBootRec { s.bootRecord with tries := 3 }).updResult 0)

/-- REVERT: BSV.UPD_CMD 0x3. -/
def execRevert (s : State) : Host.Outcome State Fault Refusal := .next s.revert

/-- PROBATION_EXPIRY (R621): the trial's window has ended; EXPIRED is set and the event interrupt raised. -/
def execProbationExpiry (s : State) : Host.Outcome State Fault Refusal :=
  if s.runsTrial && !s.flag R.BSV.BOOT_STAT.EXPIRED && decide (s.rf R.BSV.PROB_END.ESTAMP ≤ s.tbs.phys) then
    .next (((s.wf R.BSV.BOOT_STAT.EXPIRED 1).raise Pg.BSV 2).event Pg.BSV)
  else .next s

/-! ## Flash commands of firmware (R613, R633) -/

/-- Answer a BSV.FL_CMD command. -/
def State.flResult (s : State) (r : Nat) : State := s.wf R.BSV.FL_STAT.RESULT r

/-- A buffer lies in the HBM firmware region (Table 1-6, R43). -/
def State.inFw (s : State) (a k : Nat) : Bool := decide (fwRegion ≤ a ∧ a + k ≤ fwRegion + nthD s.dram.regions 4 0)

/-- FL_CMD READ (R613): every area can be read. -/
def State.flCmdRead (s : State) : State :=
  let a := s.rf R.BSV.FL_ADDR.ADDR
  let k := s.rf R.BSV.FL_LEN.BYTES
  let h := s.rf R.BSV.FL_HBM.ADDR
  if s.flag R.BSV.FL_STAT.PENDING then s.flResult 2
  else if 0x10000000 < a + k ∨ !s.inFw h k then s.flResult 7
  else (s.store (hbmBase + h) (s.flRead a k)).flResult 0

/-- FL_READ: BSV.FL_CMD 0x1. -/
def execFlRead (s : State) : Host.Outcome State Fault Refusal := .next s.flCmdRead

/-- The record firmware presents at FL_HBM: header fields as given, SEQ and IMGEN set by BSV (R633). -/
def State.cabRequest (s : State) : CabRec :=
  let h := s.load (hbmBase + s.rf R.BSV.FL_HBM.ADDR) 32
  { deleted := bit (leAt h 2 1) 0, kill := bit (leAt h 2 1) 1, cls := leAt h 4 2, fmt := leAt h 6 2, key := leAt h 8 8
    seq := s.bsv.cabSeq + 1, imgen := s.bsv.runGen,
    body := s.load (hbmBase + s.rf R.BSV.FL_HBM.ADDR + 32) (leAt h 0x1A 2) }

/-- FL_CMD CAB_APPEND (R633, R634): the program starts, and the command answers when it has been read back. -/
def State.cabAppend (s : State) : State :=
  let r := s.cabRequest
  if s.flag R.BSV.FL_STAT.PENDING then s.flResult 2
  else if !s.inFw (s.rf R.BSV.FL_HBM.ADDR) (32 + r.body.length) ∨ 65472 < r.body.length then s.flResult 7
  else if r.cls < 0x100 ∨ r.fmt ≠ s.bsv.runFmt then s.flResult 3
  else
    let s := if s.cabFreeSectors < 32 ∧ s.flashOk then s.cabCompact else s
    let after := if s.cabFits r then s.cabFreeSectors else s.cabFreeSectors - 1
    if after < 16 then (s.raise Pg.BSV 5).flResult 5
    else (s.wf R.BSV.FL_STAT.PENDING 1).flPost (.cabAppend r)

/-- CAB_APPEND: BSV.FL_CMD 0x2. -/
def execCabAppend (s : State) : Host.Outcome State Fault Refusal := .next s.cabAppend

/-- FL_CMD CAB_FIND (R632, R633): the value of a key, its length in LEN; a buffer too small for it gives RANGE. -/
def State.cabFind (s : State) : State :=
  let h := s.rf R.BSV.FL_HBM.ADDR
  if s.flag R.BSV.FL_STAT.PENDING then s.flResult 2
  else
    match s.cabValue (s.rf R.BSV.CAB_SEL.CLASS) (s.rf R.BSV.CAB_SEL.FMT) (s.rf R.BSV.CAB_KEY.KEY) with
    | none => s.flResult 4
    | some b =>
      if s.rf R.BSV.FL_LEN.BYTES < b.length ∨ !s.inFw h b.length then s.flResult 7
      else ((s.store (hbmBase + h) b).wf R.BSV.FL_STAT.LEN b.length).flResult 0

/-- CAB_FIND: BSV.FL_CMD 0x3. -/
def execCabFind (s : State) : Host.Outcome State Fault Refusal := .next s.cabFind

/-! ## Service port and TFTP (R627 to R630) -/

/-- Image staging is enabled (R628). -/
def State.stagingOn (s : State) : Bool :=
  (!s.pins.serviceEn || s.flag R.BSV.SVC_CTL.TFTP_EN) && (s.mode == .service || s.mode == .paired || s.mode == .solo)

/-- The slot a transfer goes to (R628). -/
def State.targetSlot (s : State) : Nat := if s.bootRecord.confirmed = 0 then 1 else 0

/-- Answer with an ERROR packet and its LAST_ERR code (Table 16-8). -/
def State.tftpError (s : State) (tid code lastErr : Nat) (msg : String) : State :=
  (s.emit (.tftp tid 5 code (ascii msg))).wf R.BSV.TFTP_STAT.LAST_ERR lastErr

/-- Send a packet of the transfer and keep it for retransmission (R629). -/
def State.tftpSend (s : State) (t : Tftp) (opcode num : Nat) (data : Bytes) : State :=
  let t := { t with lastSent := le opcode 2 ++ le num 2 ++ data, lastAt := s.now, retries := 0 }
  { s.emit (.tftp t.tid opcode num data) with bsv := { s.bsv with tftp := some t } }

/-- End an upload that did not complete (R630): the slot stays incomplete and unarmed. -/
def State.tftpAbandon (s : State) : State :=
  match s.bsv.tftp with
  | none => s
  | some t =>
    let s := { s with bsv := { s.bsv with tftp := none, jobs := s.bsv.jobs.filter (fun j => match j with
                                                                              | .slotData .. => false
                                                                              | _ => true) } }
    if t.upload then (s.wf R.BSV.TFTP_STAT.STATE 3).raise Pg.BSV 3 else s.wf R.BSV.TFTP_STAT.STATE 3

/-- The negotiated block size of a request (R629). -/
def tftpBlk (blk : Option Nat) : Nat := match blk with | some b => min b 1468 | none => 512

/-- TFTP file modes are compared without regard to case (RFC 1350). -/
def lowerAscii (l : Bytes) : Bytes := l.map (fun b => if 65 ≤ b.toNat ∧ b.toNat ≤ 90 then b + 32#8 else b)

/-- TFTP_WRQ (R628 to R630, Table 16-8). While PWR_FAIL_N holds the flash, a request that would be accepted is not answered, and its client
asks again (R76, log 105). -/
def execTftpWrq (tid : Nat) (name mode : Bytes) (blk : Option Nat) (s : State) : Host.Outcome State Fault Refusal :=
  if !s.stagingOn then .next (s.tftpError tid 2 1 "DISABLED")
  else if s.runsTrial then .next (s.tftpError tid 2 2 "PROBATION")
  else if s.bsv.tftp.isSome then .next (s.tftpError tid 0 3 "BUSY")
  else if name ≠ ascii "image" then .next (s.tftpError tid 1 4 "NOFILE")
  else if lowerAscii mode ≠ ascii "octet" then .next (s.tftpError tid 4 5 "MODE")
  else if (match blk with | some b => decide (b < 8) | none => false) then .next (s.tftpError tid 8 6 "BLKSIZE")
  else if !s.flashOk then .next s
  else
    let slot := s.targetSlot
    let s := if s.bootRecord.trial = slot then s.putBootRec { s.bootRecord with trial := 0xFF } else s
    let s := { s with bsv := { s.bsv with incomplete := slot :: s.bsv.incomplete.filter (fun x => x != slot) } }
    let t : Tftp := { upload := true, tid := tid, slot := slot, blksize := tftpBlk blk, blkOpt := blk.isSome, nextBlk := 1
                      bytes := 0, lastSent := [], lastAt := s.now, retries := 0, header := [] }
    let s := ((s.wf R.BSV.TFTP_STAT.STATE 1).wf R.BSV.TFTP_STAT.BLKSIZE t.blksize).wf R.BSV.TFTP_BYTES.COUNT 0
    .next (if blk.isSome then s.tftpSend t 6 t.blksize [] else s.tftpSend t 4 0 [])

/-- Word of BSV.MODE as a reader sees it (Table 2-2). -/
def State.modeWord (s : State) : Nat :=
  modeCode s.mode + 16 * (match s.bsv.prev with | some m => modeCode m | none => 0) + 256 * (s.bsv.cause % 256)
  + 65536 * b2n s.bsv.pending + 131072 * b2n s.bsv.gondolaValid

/-- The 16-byte status file (R629). -/
def State.statusFile (s : State) : Bytes :=
  le s.modeWord 4 ++ le (s.words R.BSV.BOOT_STAT.SLOT.addr 1) 4 ++ le (s.words R.BSV.TFTP_STAT.STATE.addr 1) 4
  ++ le (s.words R.BSV.TFTP_BYTES.COUNT.addr 1) 4

/-- Block n of the status transfer. -/
def statusBlock (t : Tftp) (n : Nat) : Bytes := (t.header.drop ((n - 1) * t.blksize)).take t.blksize

/-- TFTP_RRQ (R629): the status file. -/
def execTftpRrq (tid : Nat) (name mode : Bytes) (blk : Option Nat) (s : State) : Host.Outcome State Fault Refusal :=
  if s.bsv.tftp.isSome then .next (s.tftpError tid 0 3 "BUSY")
  else if name ≠ ascii "status" then .next (s.tftpError tid 1 4 "NOFILE")
  else if lowerAscii mode ≠ ascii "octet" then .next (s.tftpError tid 4 5 "MODE")
  else if (match blk with | some b => decide (b < 8) | none => false) then .next (s.tftpError tid 8 6 "BLKSIZE")
  else
    let t : Tftp := { upload := false, tid := tid, slot := 0, blksize := tftpBlk blk, blkOpt := blk.isSome, nextBlk := 1
                      bytes := 0, lastSent := [], lastAt := s.now, retries := 0, header := s.statusFile }
    .next (if blk.isSome then s.tftpSend t 6 t.blksize [] else s.tftpSend t 3 1 (statusBlock t 1))

/-- TFTP_DATA (R629, R630): a block of the image, or a duplicate of the one acknowledged last. A block longer than the negotiated size is taken
as a full block or dropped, as a free value says (log 103). -/
def execTftpData (tid : Nat) (block : Fin 65536) (data : Bytes) (s : State) : Host.Outcome State Fault Refusal :=
  match s.bsv.tftp with
  | none => .next (s.emit (.tftp tid 5 5 []))
  | some t =>
    if tid ≠ t.tid ∨ !t.upload then .next (s.emit (.tftp tid 5 5 []))
    else if t.blksize < data.length ∧ Config.takesLong s.freeCtr = false then .next s.draw
    else if s.bsv.jobs.any (fun j => match j with | .slotData .. => true | _ => false) then .next s
    else if block.val + 1 = t.nextBlk % 65536 ∨ (block.val = 65535 ∧ t.nextBlk % 65536 = 0) then
      .next (if t.nextBlk = 1 then s else s.tftpSend t 4 block.val [])
    else if block.val ≠ t.nextBlk % 65536 then .next s
    else if !s.stagingOn then .next ((s.tftpError tid 0 10 "MODE_CHANGE").tftpAbandon)
    else if imageMax < t.bytes + data.length then .next ((s.tftpError tid 3 7 "FULL").tftpAbandon)
    else
      let a := slotBase t.slot + t.bytes
      let t' := { t with header := (t.header ++ data).take 256 }
      let s := if t.blksize < data.length then s.draw else s
      .next ({ s with bsv := { s.bsv with tftp := some t' } }.flPost (.slotData a data (decide (data.length < t.blksize)) block.val))

/-- TFTP_ACK (R629): the client has the last block of a status transfer. -/
def execTftpAck (tid : Nat) (block : Fin 65536) (s : State) : Host.Outcome State Fault Refusal :=
  match s.bsv.tftp with
  | none => .next (s.emit (.tftp tid 5 5 []))
  | some t =>
    if tid ≠ t.tid then .next (s.emit (.tftp tid 5 5 []))
    else if t.upload then .next s
    else if block.val = 0 ∧ t.nextBlk = 1 ∧ t.blkOpt then .next (s.tftpSend t 3 1 (statusBlock t 1))
    else if block.val ≠ t.nextBlk then .next s
    else if (statusBlock t t.nextBlk).length < t.blksize then
      .next { s.wf R.BSV.TFTP_STAT.STATE 2 with bsv := { s.bsv with tftp := none } }
    else .next (s.tftpSend { t with nextBlk := t.nextBlk + 1 } 3 (t.nextBlk + 1) (statusBlock t (t.nextBlk + 1)))

/-- TFTP_RETRANSMIT (R629): the last packet again after 1 s, and the transfer abandoned after five. -/
def execTftpRetransmit (s : State) : Host.Outcome State Fault Refusal :=
  match s.bsv.tftp with
  | none => .next s
  | some t =>
    if s.now < t.lastAt + oneS then .next s
    else if t.retries < 5 then
      let l := t.lastSent
      .next { s.emit (.tftp t.tid (leAt l 0 2) (leAt l 2 2) (l.drop 4)) with
              bsv := { s.bsv with tftp := some { t with retries := t.retries + 1, lastAt := s.now } } }
    else .next s.tftpAbandon

/-- SERVICE_PORT_FRAME (R627): ARP and ICMP echo for BSV.SVC_IP are answered, everything else but TFTP is dropped. -/
def execServicePortFrame (f : SvcFrame) (s : State) : Host.Outcome State Fault Refusal :=
  match f with
  | .arpRequest target sender =>
    .next (if target = s.rf R.BSV.SVC_IP.ADDR then s.emit (.arpReply target sender) else s)
  | .icmpEcho dst src ident seq data =>
    .next (if dst = s.rf R.BSV.SVC_IP.ADDR then s.emit (.icmpReply src ident seq data) else s)
  | .other => .next s

/-! ## The end of a flash job (R615, R623, R630, R633) -/

/-- A slot page has programmed: count it, and on the last block complete and arm the slot or report LENGTH (R630). -/
def State.slotProgrammed (s : State) (t : Tftp) (a : Nat) (data : Bytes) (last : Bool) (block : Nat) : State :=
  let s := if a % 65536 + data.length ≤ 65536 ∧ a % 65536 ≠ 0 then s
           else s.flErase (cdiv a 65536 * 65536) 65536
  let s := s.flStore a data
  let n := t.bytes + data.length
  let s := s.wf R.BSV.TFTP_BYTES.COUNT n
  let t := { t with bytes := n, nextBlk := t.nextBlk + 1 }
  let s := { s with bsv := { s.bsv with tftp := some t } }
  if !last then s.tftpSend t 4 block []
  else if n = leAt t.header 8 4 ∧ 12 ≤ t.header.length then
    let s := { s with bsv := { s.bsv with incomplete := s.bsv.incomplete.filter (fun x => x != t.slot) } }
    let s := (s.armSlot t.slot 0).emit (.tftp t.tid 4 block [])
    { s.wf R.BSV.TFTP_STAT.STATE 2 with bsv := { s.bsv with tftp := none } }
  else (s.tftpError t.tid 0 8 "LENGTH").tftpAbandon

/-- BOOT_FLASH_PROGRAM_DONE (R615): the first job ends; a ceiling that waited for it may go, then the next job starts.
`ok` is false when the program or erase failed. No job ends that a fall of PWR_FAIL_N kept from starting (R623). -/
def execBootFlashProgramDone (ok : Bool) (s : State) : Host.Outcome State Fault Refusal :=
  match s.bsv.jobs with
  | [] => .next s
  | j :: rest =>
    if s.bsv.jobHeld && !s.flashOk then .next s else
    let s := { s with bsv := { s.bsv with jobs := rest, jobHeld := !s.flashOk && !rest.isEmpty } }
    let upd := fun (t : State) => Host.Outcome.next (t.wf R.BSV.UPD_STAT.PENDING 0)
    let s := match s.tbs.ceilWrite with
      | some _ => { s with tbs := { s.tbs with ceilWaits := !s.flashOk } }
      | none => s
    match j with
    | .cabAppend r =>
      if ok then
        .next (({ s with bsv := { s.bsv with cabSeq := r.seq } }.cabPut r).wf R.BSV.FL_STAT.PENDING 0 |>.flResult 0)
      else .next (((s.raise Pg.BSV 4).wf R.BSV.FL_STAT.PENDING 0).flResult 6)
    | .slotData a data last block =>
      match s.bsv.tftp with
      | none => .next s
      | some t =>
        if ok then .next (s.slotProgrammed t a data last block)
        else .next (((s.raise Pg.BSV 4).tftpError t.tid 0 9 "FLASH").tftpAbandon)
    | .bootOk => upd (if ok then (s.putBootRec { s.bootRecord with tries := 0 }).updResult 0 else (s.raise Pg.BSV 4).updResult 6)
    | .confirm => upd (if ok then s.confirmWrite else (s.raise Pg.BSV 4).updResult 6)
    | .revert => upd (if ok then (s.putBootRec { s.bootRecord with tries := 3 }).updResult 0 else (s.raise Pg.BSV 4).updResult 6)

end Sys2Proof.Machine
end

