-- ==== Sys2Proof/Machine/PageHeader.lean ====
section
/-! DEFINITION. The common page header: enable, soft reset, fence, lock and the fault registers (R642 to R654, R674 to R681). -/
namespace Sys2Proof.Machine

/-! ## CTL (R675 to R680) -/

/-- A page the control space serves on this variant: assigned and not fused off (R668, R681). -/
def State.pageLive (s : State) (page : Nat) : Bool := blockOf page != 0 && !fusedOff s.fuses.variant page

/-- Pages in which EN reads 1 and ignores writes: BSV, FCL, EVR, SEC, TBS and CCL (R675). -/
def enFixed (page : Nat) : Bool := decide (1 ≤ page ∧ page ≤ 5) || page == 32

/-- STAT.BUSY: the block holds work not yet finished, or its soft reset runs (R677, Table 18-5). -/
def State.busy (s : State) (page : Nat) : Bool := s.fcl.softRst.contains page || s.holdsWork page

/-- Set CTL.EN (R675); STOPPED falls with the write that sets it. -/
def State.setEn (s : State) (page : Nat) (v : Bool) : State :=
  if enFixed page then s
  else
    let s := s.wf (R.HDR.CTL.EN page) (b2n v)
    if v then s.wf (R.HDR.STAT.STOPPED page) 0 else s

/-- BLOCK_STOPPED (R675): with EN 0 and no work held, STOPPED is set. -/
def execBlockStopped (page : Fin 64) (s : State) : Host.Outcome State Fault Refusal :=
  .next (if s.pageLive page.val && !s.flag (R.HDR.CTL.EN page.val) && !s.busy page.val then s.wf (R.HDR.STAT.STOPPED page.val) 1 else s)

/-- Offsets of the RO fields that count events, and of ring write indexes, in the blocks that accept a soft reset (R677). -/
def counterOffs (code : Nat) : List Nat :=
  match code with
  | 10 => [0x114, 0x120, 0x124, 0x148, 0x14C, 0x150, 0x154, 0x158, 0x15C, 0x160, 0x164, 0x168]
  | 12 => [0x120, 0x128, 0x130, 0x138, 0x140, 0x148, 0x150, 0x158, 0x160, 0x168, 0x16C]
  | 22 => [0x108, 0x110, 0x114, 0x118, 0x11C, 0x140]
  | 23 => [0x130, 0x134, 0x138, 0x13C, 0x140, 0x144, 0x148, 0x14C, 0x150]
  | 28 => [0x134, 0x13C, 0x144, 0x14C, 0x150]
  | _ => []

/-- The copies of a field row in a page. -/
def rowFields (page : Nat) (r : FRow) : List Sys2Proof.Fld :=
  (List.range r.count).map (fun k => ⟨page * 4096 + r.off + r.stride * k, r.lo, r.w⟩)

/-- The reset value of a field. -/
def resetFld (f : Sys2Proof.Fld) : Nat :=
  fld (sumL ((List.range ((f.lo + f.w + 31) / 32)).map (fun k => (resetWord (f.addr + 4 * k)).toNat * 2 ^ (32 * k)))) f.lo f.w

/-- What a soft reset does to one field row (R677, Table 18-6). -/
def softRow (page : Nat) (r : FRow) (s : State) : State :=
  let cnt := (counterOffs (blockOf page)).contains r.off
  if r.acc = .rw ∧ ¬ (r.off = 8 ∧ r.lo = 0) then (rowFields page r).foldl (fun t f => t.wf f (resetFld f)) s
  else if r.acc = .ro ∧ cnt then (rowFields page r).foldl (fun t f => t.wf f 0) s
  else s

/-- The register side of a soft reset, at the write (R677, Table 18-6). -/
def State.softRegs (s : State) (page : Nat) : State :=
  let s := (hdrRows ++ blockRows (blockOf page)).foldl (fun t r => softRow page r t) s
  let s := ((s.wf (R.HDR.ERR_STAT.SRC page) 0).wf (R.HDR.ERR_FIRST.SOURCE page) 0).wf (R.HDR.ERR_FIRST.VALID page) 0
  (s.wf (R.HDR.ERR_STAMP.ESTAMP page) 0).deassert (2 * page + 1)

/-- A write of 1 to CTL.SOFT_RST (R677): acted on only where CAP.SOFT_RST is 1 and EN and BUSY were 0 before it. -/
def State.softReset (s : State) (page : Nat) (enBefore : Bool) : State :=
  if softRst (blockOf page) && !enBefore && !s.busy page then
    let s := (s.softRegs page).softBanks page
    { s with fcl := { s.fcl with softRst := s.fcl.softRst ++ [page] } }
  else s.wf (R.HDR.STAT.RST_REFUSED page) 1

/-- SOFT_RESET: CTL.SOFT_RST written 1. -/
def execSoftReset (page : Fin 64) (s : State) : Host.Outcome State Fault Refusal :=
  .next (if s.pageLive page.val then s.softReset page.val (s.flag (R.HDR.CTL.EN page.val)) else s)

/-- SOFT_RESET_DONE (R677): the block's internal state is reset, and BUSY falls. -/
def execSoftResetDone (page : Fin 64) (s : State) : Host.Outcome State Fault Refusal :=
  .next { s with fcl := { s.fcl with softRst := s.fcl.softRst.filter (fun p => p != page.val) } }

/-- Set CTL.FENCE (R678): every unit of the block is fenced; a block without another instance falls below the minimum. -/
def State.fenceBlock (s : State) (page : Nat) : State :=
  let s := s.wf (R.HDR.CTL.FENCE page) 1
  let n := unitsMax (blockOf page)
  let s := (List.range n).foldl
    (fun t u => if page = Pg.HBC then t.wf R.HBC.PC_PENDING.PC (setBit (t.rf R.HBC.PC_PENDING.PC) u true) else t.markFenced page u) s
  if s.belowMin page then s.leave 0x0C else s

/-- A write of the whole CTL word (R675 to R680): the field values first, then the lock. -/
def State.ctlWrite (s : State) (page v : Nat) : State :=
  let en := s.flag (R.HDR.CTL.EN page)
  let s := if bit v 1 then s.softReset page en else s
  let s := s.setEn page (bit v 0)
  let s := if bit v 2 then s.fenceBlock page else s
  if bit v 31 then s.wf (R.HDR.CTL.LOCK page) 1 else s

/-! ## ERR_STAT, ERR_MASK, ERR_CLASS and ERR_INJ (R642 to R647) -/

/-- Sources whose occurrence concerns one unit of the page's range (R715, log 14). -/
def namesUnit (code src : Nat) : Bool :=
  match code, src with
  | 6, 1 | 6, 2 | 13, 1 | 14, 3 | 15, 3 | 22, 2 | 23, 2 | 27, 2 | 32, 5 => true
  | 29, 0 | 29, 1 | 29, 3 | 29, 4 | 30, 0 | 30, 1 | 30, 2 | 30, 3 => true
  | _, _ => false

/-- The lowest-numbered unit of a page that is enabled and not fenced (R646). -/
def State.firstUnit (s : State) (page : Nat) : Option Nat :=
  (List.range (unitsMax (blockOf page))).find? (fun u => !(s.fencedUnits page).contains u)

/-- Inject one occurrence of a source (R646). -/
def State.inject (s : State) (page src : Nat) : State :=
  s.occur { page := page, src := src, inj := true, unit := if namesUnit (blockOf page) src then s.firstUnit page else none }

/-- A write to ERR_INJ (R646): each 1 acts as one occurrence while FCL.INJ_CFG.EN is 1; otherwise the write is ignored
and FCL reports it. -/
def State.errInj (s : State) (page v : Nat) : State :=
  if s.flag R.FCL.INJ_CFG.EN then
    ((onesBelow v 32).filter (fun i => decide (i < errSources (blockOf page)))).foldl (fun t i => t.inject page i) s
  else if v = 0 then s
  else s.raise Pg.FCL 1

/-- A write to ERR_STAT (R13, R15, R645): each 1 clears its bit, except a bit whose cause persists. -/
def State.errStatWrite (s : State) (page v : Nat) : State :=
  let old := s.rf (R.HDR.ERR_STAT.SRC page)
  let keep := s.persisting page
  let new := sumL ((List.range 32).map (fun i => if bit old i && (!bit v i || bit keep i) then 2 ^ i else 0))
  let s := s.wf (R.HDR.ERR_STAT.SRC page) new
  if new = 0 then (s.syncErrFirst page).syncErrLine page else s.syncErrLine page

/-- A write to ERR_MASK (R644): bits of class F sources ignore it. -/
def State.errMaskWrite (s : State) (page v : Nat) : State :=
  let new := sumL ((List.range 32).map (fun i => if bit v i && decide (s.errClass page i ≠ 3) then 2 ^ i else 0))
  (s.wf (R.HDR.ERR_MASK.MASK page) new).syncErrLine page

/-- A write of ERR_CLASS (R644, R647): SEC source 0 stays F; a source made F is unmasked in the same write. -/
def State.errClassWrite (s : State) (page v : Nat) : State :=
  let v := if page = Pg.SEC then setFld v 0 2 3 else v
  let s := s.wf (R.HDR.ERR_CLASS.CLASS page) v
  s.errMaskWrite page (s.rf (R.HDR.ERR_MASK.MASK page))

/-! ## FCL (R649 to R653) -/

/-- FCL_FAULT_CLEAR (R650): a group clears, with its class, only while its error line is low. -/
def State.faultClear (s : State) (v : Nat) : State :=
  ((onesBelow v 33).filter (fun n => decide (1 ≤ n))).foldl (fun t n =>
    if t.errLine n then t
    else
      let t := t.wf R.FCL.FAULT.GROUP (setBit (t.rf R.FCL.FAULT.GROUP) n false)
      t.wf R.FCL.FCLASS.CLASS (setFld (t.rf R.FCL.FCLASS.CLASS) (2 * n - 2) 2 0)) s

/-- FCL_FAULT_CLEAR: a write of FCL.FAULT. -/
def execFclFaultClear (v : BitVec 64) (s : State) : Host.Outcome State Fault Refusal := .next (s.faultClear v.toNat)

/-- FCL_LOG_RD_WRITE (R651): any value is accepted and sets which entries are pending. -/
def execFclLogRdWrite (i : Fin 64) (s : State) : Host.Outcome State Fault Refusal := .next (s.wf R.FCL.LOG_RD.INDEX i.val)

/-- PIN_HOLD_WRITE (R652): holds or releases FAULT_N. -/
def execPinHoldWrite (v : Bool) (s : State) : Host.Outcome State Fault Refusal := .next (s.wf R.FCL.PIN_HOLD.HOLD (b2n v))

/-- FAULT_N_PULSE_END (R652): the minimum pulse since the latest qualifying occurrence is over. -/
def execFaultNPulseEnd (s : State) : Host.Outcome State Fault Refusal :=
  match s.fcl.lastQual with
  | some t =>
    if t + max 20 (s.rf R.FCL.PIN_CFG.PULSE_US) * 1000 ≤ s.now then .next { s with fcl := { s.fcl with lastQual := none } } else .next s
  | none => .next s

end Sys2Proof.Machine
end

