-- ==== Sys2Proof/Machine/Ldpc.lean ====
section
/-! DEFINITION. The codeword: scrambler, LDPC encoder and codeword metadata (R381, R382, R414 to R417), and the parity of stripes in GF(2⁸) (R326). -/
namespace Sys2Proof.Machine

/-! ## Parity in GF(2⁸) (R326) -/

/-- Multiplication by g = 0x02 under x⁸ + x⁴ + x³ + x² + 1 (R326). -/
def gfx (a : Byte) : Byte := if a.getLsbD 7 then (a <<< 1) ^^^ 0x1D#8 else a <<< 1

/-- Product in the field of R326. -/
def gfm : Nat → Byte → Byte → Byte → Byte
  | 0, _, _, r => r
  | k + 1, a, b, r => gfm k (gfx a) (b >>> 1) (if b.getLsbD 0 then r ^^^ a else r)

def gfMulB (a b : Byte) : Byte := gfm 8 a b 0#8

/-- g^k. -/
def gfPow : Nat → Byte
  | 0 => 1#8
  | k + 1 => gfx (gfPow k)

/-- Inverse, as the 254th power. -/
def gfInv (a : Byte) : Byte := (List.range 253).foldl (fun r _ => gfMulB r a) a

/-- P of data units: their bytewise exclusive or (R326). -/
def parityP (ds : List Bytes) : Bytes :=
  match ds with
  | [] => []
  | d :: t => t.foldl xorBytes d

/-- A unit's bytes multiplied by g^k. -/
def gfScale (k : Nat) (d : Bytes) : Bytes := d.map (fun b => gfMulB (gfPow k) b)

/-- Q of data units: the sum of g^k · D_k (R326). -/
def parityQ (ds : List Bytes) : Bytes := parityP (ds.zipIdx.map (fun p => gfScale p.2 p.1))

/-- Unit k of a stripe of d data units recovered from the units at hand, by the algebra of R326: from P when it and every
other data unit are there, from Q when P is not, from both when one more data unit is missing. -/
def recoverUnit (d k : Nat) (have_ : AMap Bytes) : Option Bytes :=
  let others := (List.range d).filter (fun i => i != k)
  let miss := others.filter (fun i => !ahas have_ i)
  let xs := others.filterMap (fun i => (aget have_ i).map (fun b => (i, b)))
  let p := aget have_ d
  let q := aget have_ (d + 1)
  if k = d then (if miss = [] && (List.range d).all (ahas have_) then some (parityP ((List.range d).filterMap (aget have_))) else none)
  else if k = d + 1 then (if (List.range d).all (ahas have_) then some (parityQ ((List.range d).filterMap (aget have_))) else none)
  else
    match miss, p, q with
    | [], some p, _ => some (xs.foldl (fun a x => xorBytes a x.2) p)
    | [], none, some q => some ((xs.foldl (fun a x => xorBytes a (gfScale x.1 x.2)) q).map (fun b => gfMulB b (gfInv (gfPow k))))
    | [j], some p, some q =>
      -- A = D_k + D_j, B = g^k D_k + g^j D_j
      let a := xs.foldl (fun a x => xorBytes a x.2) p
      let b := xs.foldl (fun a x => xorBytes a (gfScale x.1 x.2)) q
      let den := gfInv (gfPow k ^^^ gfPow j)
      some ((xorBytes b (gfScale j a)).map (fun y => gfMulB y den))
    | _, _, _ => none

/-! ## The codeword (R381, R382) -/

/-- Codeword metadata, 128 bytes (Table 10-2). -/
def cwMeta (seg gen unit tile cw kind die block page cwInPage : Nat) (qlc : Bool) (pstamp array module : Nat) : Bytes :=
  withCrc (le seg 4 ++ le gen 1 ++ le unit 1 ++ le (tile + cw * 4) 1 ++ le ((if qlc then 1 else 0) + kind * 2) 1
    ++ le (die + block * 64 + page * 2 ^ 19 + cwInPage * 2 ^ 27) 4 ++ le pstamp 12 ++ le array 16 ++ le module 1 ++ zeros 83)

/-! ## Scrambler (R417) -/

/-- k bits of the LFSR from a state, packed into bytes bit 0 first. -/
def lfsrBytes : Nat → BitVec 23 → Bytes
  | 0, _ => []
  | k + 1, s =>
    let step := fun (x : BitVec 23 × Byte × Byte) (_ : Nat) =>
      let b := x.1.getLsbD 22 ^^ x.1.getLsbD 4
      ((x.1 <<< 1) ||| (if b then 1#23 else 0#23), (if b then x.2.1 ||| x.2.2 else x.2.1), x.2.2 <<< 1)
    let r := (List.range 8).foldl step (s, 0#8, 1#8)
    r.2.1 :: lfsrBytes k r.1

/-- The seed of a block and page (R417). -/
def lfsrSeed (block page : Nat) : BitVec 23 :=
  let n := (block * 256 + page) % 2 ^ 23
  BitVec.ofNat 23 (if n = 0 then 0x400000 else n)

/-- Scramble, or unscramble, the payloads of a page laid end to end. -/
def scramble (block page : Nat) (payloads : Bytes) : Bytes := xorBytes payloads (lfsrBytes payloads.length (lfsrSeed block page))

/-! ## The LDPC code (R414 to R416) -/

/-- Shift of the circulant at (i, j) among the information columns, where one is present (R414). -/
def ldpcShift (i j : Nat) : Option Nat :=
  if (3 * i + j) % 13 < 4 then some ((37 * i * j + 11 * i + 5 * j) % 256) else none

/-- Block column j of a payload: 256 bits, bit n of the column in bit n & 7 of byte n >> 3 (R414). -/
def ldpcCol (payload : Bytes) (j : Nat) : BitVec 256 := BitVec.ofNat 256 (leVal (slice payload (32 * j) 32))

/-- Syndrome of block row i over the payload columns: row r takes bit (r + σ) mod 256 (R415). -/
def ldpcSyndrome (payload : Bytes) (i : Nat) : BitVec 256 :=
  (List.range 132).foldl (fun a j =>
    match ldpcShift i j with
    | some sh => a ^^^ (ldpcCol payload j).rotateRight sh
    | none => a) 0#256

/-- The 416 parity bytes of a scrambled payload (R416). -/
def ldpcParity (payload : Bytes) : Bytes :=
  ((List.range 13).foldl (fun (acc : Bytes × BitVec 256) i =>
    let p := ldpcSyndrome payload i ^^^ acc.2
    (acc.1 ++ le p.toNat 32, p)) ([], 0#256)).1

/-- The 18,560 bytes of a physical page from its four payloads of 4,224 bytes (R381, R417). -/
def pageBytes (block page : Nat) (payloads : List Bytes) : Bytes :=
  let s := scramble block page payloads.flatten
  (List.range 4).flatMap (fun c => let p := slice s (c * 4224) 4224; p ++ ldpcParity p)

end Sys2Proof.Machine
end

