-- ==== Sys2Proof/Machine/Aes.lean ====
section
/-! DEFINITION. AES-256 (FIPS 197) and the modes the cipher engine runs: XTS (IEEE 1619), GCM (SP 800-38D) and key wrap (SP 800-38F). -/
namespace Sys2Proof.Machine

/-- Multiply by x in GF(2^8) with the AES polynomial 0x11B. -/
def xtime (a : Byte) : Byte := if a.getLsbD 7 then (a <<< 1) ^^^ 0x1B#8 else a <<< 1

/-- Product in GF(2^8) with the AES polynomial. -/
def gmulAes (a b : Byte) : Byte := go 8 a b 0#8
where
  go : Nat → Byte → Byte → Byte → Byte
    | 0, _, _, r => r
    | k + 1, a, b, r => go k (xtime a) (b >>> 1) (if b.getLsbD 0 then r ^^^ a else r)

/-- a to the power 254 in GF(2^8): the inverse, with 0 to 0. -/
def ginvAes (a : Byte) : Byte :=
  let a2 := gmulAes a a
  let a4 := gmulAes a2 a2
  let a8 := gmulAes a4 a4
  let a16 := gmulAes a8 a8
  let a32 := gmulAes a16 a16
  let a64 := gmulAes a32 a32
  let a128 := gmulAes a64 a64
  gmulAes a2 (gmulAes a4 (gmulAes a8 (gmulAes a16 (gmulAes a32 (gmulAes a64 a128)))))

/-- The AES S-box. -/
def sbox (a : Byte) : Byte :=
  let i := ginvAes a
  i ^^^ i.rotateLeft 1 ^^^ i.rotateLeft 2 ^^^ i.rotateLeft 3 ^^^ i.rotateLeft 4 ^^^ 0x63#8

/-- The inverse S-box. -/
def invSbox (a : Byte) : Byte :=
  ginvAes (a.rotateLeft 1 ^^^ a.rotateLeft 3 ^^^ a.rotateLeft 6 ^^^ 0x05#8)

/-- The key schedule words of AES-256, latest first (FIPS 197, 5.2). -/
def aesExpand : Nat → Nat → Byte → List Bytes → List Bytes
  | 0, _, _, w => w
  | k + 1, i, rc, w =>
    let prev := nthD w 0 []
    let back := nthD w 7 []
    let t :=
      if i % 8 = 0 then xorBytes ((prev.drop 1 ++ prev.take 1).map sbox) [rc, 0#8, 0#8, 0#8]
      else if i % 8 = 4 then prev.map sbox
      else prev
    aesExpand k (i + 1) (if i % 8 = 0 then xtime rc else rc) (xorBytes back t :: w)

/-- The fifteen round keys of a 32-byte key. -/
def aesKeys (key : Bytes) : List Bytes :=
  let w := (aesExpand 52 8 1#8 ((List.range 8).map (fun i => slice key (4 * i) 4)).reverse).reverse
  (List.range 15).map (fun r => ((w.drop (4 * r)).take 4).flatten)

/-- Position i of the state after ShiftRows by d rows each, column-major. -/
def shiftRows (s : Bytes) : Bytes := (List.range 16).map (fun i => nthD s ((i + 4 * (i % 4)) % 16) 0#8)

/-- The inverse of ShiftRows. -/
def invShiftRows (s : Bytes) : Bytes := (List.range 16).map (fun i => nthD s ((i + 12 * (i % 4)) % 16) 0#8)

/-- One column through a circulant matrix. -/
def mixCol (m : List Byte) (c : Bytes) : Bytes :=
  (List.range 4).map (fun r =>
    (List.range 4).foldl (fun acc k => acc ^^^ gmulAes (nthD m ((k + 4 - r) % 4) 0#8) (nthD c k 0#8)) 0#8)

/-- MixColumns with the given circulant. -/
def mixCols (m : List Byte) (s : Bytes) : Bytes :=
  (List.range 4).flatMap (fun c => mixCol m (slice s (4 * c) 4))

/-- AES-256 encryption of one block (FIPS 197, 5.1). -/
def aesEnc (key blk : Bytes) : Bytes :=
  let ks := aesKeys key
  let s := xorBytes blk (nthD ks 0 [])
  let s := (List.range 13).foldl
    (fun s r => xorBytes (mixCols [2#8, 3#8, 1#8, 1#8] (shiftRows (s.map sbox))) (nthD ks (r + 1) [])) s
  xorBytes (shiftRows (s.map sbox)) (nthD ks 14 [])

/-- AES-256 decryption of one block (FIPS 197, 5.3). -/
def aesDec (key blk : Bytes) : Bytes :=
  let ks := aesKeys key
  let s := xorBytes blk (nthD ks 14 [])
  let s := (List.range 13).foldl
    (fun s r => mixCols [14#8, 11#8, 13#8, 9#8] (xorBytes ((invShiftRows s).map invSbox) (nthD ks (13 - r) []))) s
  xorBytes ((invShiftRows s).map invSbox) (nthD ks 0 [])

/-! ## XTS -/

/-- Multiply the tweak by α (IEEE 1619): a little-endian shift with the polynomial 0x87. -/
def xtsAlpha (t : Bytes) : Bytes :=
  let n := leVal t * 2
  let l := le n 16
  if 2 ^ 128 ≤ n then xorBytes [0x87#8] l else l

/-- The whole blocks of an XTS data unit under block function f. -/
def xtsBlocks (f : Bytes → Bytes) : Nat → Bytes → Bytes → Bytes
  | 0, _, _ => []
  | k + 1, t, l => xorBytes (f (xorBytes (l.take 16) t)) t ++ xtsBlocks f k (xtsAlpha t) (l.drop 16)

/-- The tweak of block j. -/
def xtsTweak (t : Bytes) : Nat → Bytes
  | 0 => t
  | j + 1 => xtsAlpha (xtsTweak t j)

/-- XTS-AES-256 encryption with ciphertext stealing; key 64 bytes, tweak 16 bytes. -/
def xtsEnc (key tweak data : Bytes) : Bytes :=
  let t := aesEnc (key.drop 32) tweak
  let f := aesEnc (key.take 32)
  let m := data.length / 16
  let r := data.length % 16
  if r = 0 then xtsBlocks f m t data
  else
    let whole := xtsBlocks f m t (data.take (16 * m))
    let cc := whole.drop (16 * (m - 1))
    let last := xtsBlocks f 1 (xtsTweak t m) (data.drop (16 * m) ++ cc.drop r)
    whole.take (16 * (m - 1)) ++ last ++ cc.take r

/-- XTS-AES-256 decryption with ciphertext stealing. -/
def xtsDec (key tweak data : Bytes) : Bytes :=
  let t := aesEnc (key.drop 32) tweak
  let f := aesDec (key.take 32)
  let m := data.length / 16
  let r := data.length % 16
  if r = 0 then xtsBlocks f m t data
  else
    let whole := xtsBlocks f (m - 1) t (data.take (16 * (m - 1)))
    let pp := xtsBlocks f 1 (xtsTweak t m) (slice data (16 * (m - 1)) 16)
    let last := xtsBlocks f 1 (xtsTweak t (m - 1)) (data.drop (16 * m) ++ pp.drop r)
    whole ++ last ++ pp.take r

/-! ## GCM -/

/-- Product in GF(2^128) in GCM's bit order (SP 800-38D, 6.3); operands as big-endian numbers. -/
def gfMul (x y : Nat) : Nat := go 128 x y 0
where
  go : Nat → Nat → Nat → Nat → Nat
    | 0, _, _, z => z
    | k + 1, x, v, z =>
      let z := if bit x k then z ^^^ v else z
      go k x (if v % 2 = 1 then (v / 2) ^^^ (0xE1 * 2 ^ 120) else v / 2) z

/-- GHASH over the 16-byte blocks of a padded string. -/
def ghash (h : Nat) : Nat → Nat → Bytes → Nat
  | 0, y, _ => y
  | k + 1, y, l => ghash h k (gfMul (y ^^^ beVal (padTo 16 (l.take 16))) h) (l.drop 16)

/-- Counter-mode blocks from a counter on. -/
def gctr (key iv : Bytes) : Nat → Nat → Bytes → Bytes
  | 0, _, _ => []
  | k + 1, c, l => xorBytes (l.take 16) ((aesEnc key (iv ++ be c 4)).take (min 16 l.length)) ++ gctr key iv k (c + 1) (l.drop 16)

/-- The GCM tag of a ciphertext with a 12-byte IV. -/
def gcmTag (key iv aad c : Bytes) : Bytes :=
  let h := beVal (aesEnc key (zeros 16))
  let y := ghash h (cdiv aad.length 16) 0 aad
  let y := ghash h (cdiv c.length 16) y c
  let y := ghash h 1 y (be (8 * aad.length) 8 ++ be (8 * c.length) 8)
  xorBytes (be y 16) (aesEnc key (iv ++ be 1 4))

/-- AES-256-GCM encryption: ciphertext and 16-byte tag. -/
def gcmEnc (key iv aad p : Bytes) : Bytes × Bytes :=
  let c := gctr key iv (cdiv p.length 16) 2 p
  (c, gcmTag key iv aad c)

/-- AES-256-GCM decryption: the plaintext when the tag verifies. -/
def gcmDec (key iv aad c tag : Bytes) : Option Bytes :=
  if gcmTag key iv aad c = tag then some (gctr key iv (cdiv c.length 16) 2 c) else none

/-! ## Key wrap -/

/-- One pass of the AES key wrap over its semiblocks (SP 800-38F, 6.1). -/
def kwPass (key : Bytes) : Nat → Bytes → List Bytes → List Bytes → Bytes × List Bytes
  | _, a, [], done => (a, done.reverse)
  | t, a, r :: rs, done =>
    let b := aesEnc key (a ++ r)
    kwPass key (t + 1) (xorBytes (b.take 8) (be t 8)) rs (b.drop 8 :: done)

/-- The semiblocks of a string. -/
def semiblocks : Nat → Bytes → List Bytes
  | 0, _ => []
  | k + 1, l => l.take 8 :: semiblocks k (l.drop 8)

/-- AES-256 key wrap (KW) with the default initial value. -/
def kwWrap (key p : Bytes) : Bytes :=
  let n := p.length / 8
  let (a, rs) := (List.range 6).foldl (fun (x : Bytes × List Bytes) j => kwPass key (n * j + 1) x.1 x.2 [])
    (List.replicate 8 0xA6#8, semiblocks n p)
  a ++ rs.flatten

/-- One pass of the inverse, from the last semiblock to the first. -/
def kwUnpass (key : Bytes) : Nat → Bytes → List Bytes → List Bytes → Bytes × List Bytes
  | _, a, [], done => (a, done)
  | t, a, r :: rs, done =>
    let b := aesDec key (xorBytes a (be t 8) ++ r)
    kwUnpass key (t - 1) (b.take 8) rs (b.drop 8 :: done)

/-- AES-256 key unwrap: the key when the integrity value is right. -/
def kwUnwrap (key c : Bytes) : Option Bytes :=
  let n := c.length / 8 - 1
  let (a, rs) := (List.range 6).foldl
    (fun (x : Bytes × List Bytes) j => kwUnpass key (n * (6 - j)) x.1 x.2.reverse [])
    (c.take 8, semiblocks n (c.drop 8))
  if a = List.replicate 8 0xA6#8 then some rs.flatten else none

end Sys2Proof.Machine
end

