-- ==== Sys2Proof/Machine/MapCache.lean ====
section
/-! DEFINITION. MPC: the map cache's lines, its commands and its hot-set log (R291 to R297). -/
namespace Sys2Proof.Machine

/-- STATE codes of MPC.STATE (Table 7-5). -/
def mpcOff : Nat := 0
def mpcOn : Nat := 1
def mpcDraining : Nat := 2
def mpcInvalidating : Nat := 3

/-- Set of a line address (R292). -/
def State.mpcSet (s : State) (line : Nat) : Nat :=
  let k := le s.dram.salt 8 ++ le (2 ^ 64 - 1 - s.dram.salt) 8
  sipHash13 k (le line 8) % 131072

/-- The way that holds a line in a set. -/
def State.mpcWay (s : State) (set line : Nat) : Option Nat :=
  (List.range 12).find? (fun w => (aget s.mpc.lines (set * 12 + w)).map Prod.fst == some line)

/-- The way a miss takes: an empty one that is not locked, else the least recently used one that is not locked (R292, R295). -/
def State.mpcVictim (s : State) (set : Nat) : Nat :=
  let ok := (List.range 12).filter (fun w => !bit (s.rf R.MPC.LOCK.WAYS) w)
  match ok.find? (fun w => !ahas s.mpc.lines (set * 12 + w)) with
  | some w => w
  | none => ((sortKey (fun w => agetD s.mpc.used (set * 12 + w) 0) ok).head?).getD 0

/-- Log a hot set (R293): at most once per window, into the next of 64 entries. -/
def State.mpcHot (s : State) (set n : Nat) : State :=
  if s.rf R.MPC.HOT_CFG.THR < n && !s.mpc.logged.contains set then
    let i := s.rf R.MPC.HOT_WR.INDEX
    let s := (s.wf (R.MPC.HOT_LOG.SET i) set).wf (R.MPC.HOT_LOG.EVICT i) (min n 255)
    let s := (s.wf R.MPC.HOT_WR.INDEX ((i + 1) % 64)).inc R.MPC.HOT_COUNT.COUNT
    { s with mpc := { s.mpc with logged := s.mpc.logged ++ [set] } }.raise Pg.MPC 2
  else s

/-- Put a line into a way of its set, counting the eviction of another line. -/
def State.mpcPut (s : State) (set w line : Nat) (dirty : Bool) : State :=
  let k := set * 12 + w
  let c := s.mpc.clock + 1
  let full := match aget s.mpc.lines k with | some (l, _) => l != line | none => false
  let ev := if full then abump s.mpc.evict set 1 else s.mpc.evict
  let s := { s with mpc := { s.mpc with lines := aset s.mpc.lines k (line, dirty), clock := c, evict := ev
                                        used := aset s.mpc.used k c } }
  if full then s.mpcHot set (agetD ev set 0) else s

/-- Count in a 64-bit counter that wraps (R248). -/
def State.incWrap (s : State) (f : Sys2Proof.Fld) : State := s.wf f ((s.rf f + 1) % 2 ^ f.w)

/-- One access of MPE to DRAM through MPC (R291, R296): a hit or an allocation while ON; while DRAINING a write goes
to DRAM and invalidates the line; while OFF or INVALIDATING every access goes to DRAM. -/
def State.mpcTouch (s : State) (addr : Nat) (wr : Bool) : State :=
  let line := addr / 64 * 64
  let st := s.rf R.MPC.STATE.STATE
  if st = mpcOn then
    let set := s.mpcSet line
    match s.mpcWay set line with
    | some w =>
      let d := match aget s.mpc.lines (set * 12 + w) with | some (_, d) => d | none => false
      (s.mpcPut set w line (d || wr)).incWrap R.MPC.CNT_HIT.COUNT
    | none => (s.mpcPut set (s.mpcVictim set) line wr).incWrap R.MPC.CNT_MISS.COUNT
  else if st = mpcDraining then
    let set := s.mpcSet line
    match s.mpcWay set line with
    | some w =>
      let s := s.incWrap R.MPC.CNT_HIT.COUNT
      if wr then { s with mpc := { s.mpc with lines := adel s.mpc.lines (set * 12 + w) } } else s
    | none => s.incWrap R.MPC.CNT_MISS.COUNT
  else s

/-- DRAM address of a content record (R260). -/
def State.ctAddr (s : State) (cid : Nat) : Nat := s.rf R.MPE.CT_BASE.ADDR + cid * 16

/-- DRAM address of entry i of a page; the frame an LPN has on a head is its own choice (R257, log 9). -/
def pageAddr (lpn i : Nat) : Nat := Config.lpnFrame lpn * 4096 + i * 8

/-- DRAM address of a segment table entry (R335). -/
def State.segAddr (s : State) (n : Nat) : Nat := s.rf R.SGB.SEGTAB_BASE.ADDR + n * 64

/-- DRAM address of an LPN table entry (Table 7-6). -/
def State.lpnAddr (s : State) (lpn : Nat) : Nat := s.rf R.MPE.LPN_BASE.ADDR + lpn * 8

/-- MPE follows a path of pages for a grain: the LPN table gives each page's frame, then the entry is read; the leaf entry is written where wr
says so. -/
def State.mpcPath (s : State) (gi : Nat) (wr : Bool) (path : List (Nat × Nat)) : State :=
  path.foldl (fun (s : State) p => (s.mpcTouch (s.lpnAddr p.2) false).mpcTouch (pageAddr p.2 (gi / 512 ^ p.1 % 512)) (wr && p.1 == 0)) s

/-! ## Commands -/

/-- MPC.CMD INVALIDATE is accepted only while OFF and while no command runs (R294). -/
def State.mpcInvalidate (s : State) : State :=
  if s.rf R.MPC.STATE.STATE = mpcOff && !s.flag R.MPC.STATE.BUSY then
    let s := (s.wf R.MPC.STATE.STATE mpcInvalidating).wf R.MPC.STATE.BUSY 1
    (s.wf R.MPC.PRELOADED.WAYS 0).wf R.MPC.LOCK.WAYS 0
  else s

/-- MPC_INVALIDATE (R294). -/
def execMpcInvalidate (s : State) : Host.Outcome State Fault Refusal := .next s.mpcInvalidate

/-- MPC_INVALIDATE_DONE (R294): the cache is empty, OFF again, and INV_DONE is set. -/
def execMpcInvalidateDone (s : State) : Host.Outcome State Fault Refusal :=
  if s.rf R.MPC.STATE.STATE = mpcInvalidating then
    let s := ((s.wf R.MPC.STATE.STATE mpcOff).wf R.MPC.STATE.BUSY 0).wf R.MPC.STATE.INV_DONE 1
    .next { s with mpc := { s.mpc with lines := [], used := [] } }
  else .next s

/-- MPC.CMD PRELOAD of a way (R295): accepted only while ON, with no command running and a way below 12. -/
def State.mpcPreload (s : State) (way : Nat) : State :=
  if s.rf R.MPC.STATE.STATE = mpcOn && !s.flag R.MPC.STATE.BUSY && decide (way < 12) then
    { s.wf R.MPC.STATE.BUSY 1 with
      mpc := { s.mpc with preload := some (way, s.rf R.MPC.PRELOAD_ADDR.ADDR / 64 * 64,
                                           min (s.rf R.MPC.PRELOAD_LEN.BYTES / 64 * 64) 8388608) } }
  else s

/-- MPC_PRELOAD (R295). -/
def execMpcPreload (way : Fin 16) (s : State) : Host.Outcome State Fault Refusal := .next (s.mpcPreload way.val)

/-- Load n lines from an address into one way of each line's set. -/
def State.mpcLoadLines (s : State) (way addr : Nat) : Nat → State
  | 0 => s
  | n + 1 => (s.mpcPut (s.mpcSet addr) way addr false).mpcLoadLines way (addr + 64) n

/-- MPC_PRELOAD_DONE (R295): every line of the range is in the way, whose PRELOADED bit is set. -/
def execMpcPreloadDone (s : State) : Host.Outcome State Fault Refusal :=
  match s.mpc.preload with
  | some (way, addr, len) =>
    let s := { s with mpc := { s.mpc with preload := none } }.mpcLoadLines way addr (len / 64)
    .next ((s.wf R.MPC.PRELOADED.WAYS (setBit (s.rf R.MPC.PRELOADED.WAYS) way true)).wf R.MPC.STATE.BUSY 0)
  | none => .next s

/-- A write of MPC.CACHE.EN = 1 (R294). -/
def State.mpcEnable (s : State) : State :=
  if s.rf R.MPC.STATE.STATE = mpcOff then
    if s.flag R.MPC.STATE.INV_DONE then (s.wf R.MPC.STATE.STATE mpcOn).wf R.MPC.CACHE.EN 1
    else (s.wf R.MPC.STATE.ENABLE_NO_INV 1).raise Pg.MPC 3
  else s

/-- MPC_ENABLE (R294). -/
def execMpcEnable (s : State) : Host.Outcome State Fault Refusal := .next s.mpcEnable

/-- A write of MPC.CACHE.EN = 0 while ON (R296); EN reads 1 only while MPC is ON (R294). -/
def State.mpcDisable (s : State) : State :=
  if s.rf R.MPC.STATE.STATE = mpcOn then
    let d := (s.mpc.lines.filter (fun e => e.2.2)).length
    { (s.wf R.MPC.STATE.STATE mpcDraining).wf R.MPC.CACHE.EN 0 with mpc := { s.mpc with drained := d } }
  else s

/-- MPC_DISABLE (R296). -/
def execMpcDisable (s : State) : Host.Outcome State Fault Refusal := .next s.mpcDisable

/-- MPC_DRAIN_COMPLETE (R296): OFF, with the lines written back in DRAIN_COUNT. -/
def execMpcDrainComplete (s : State) : Host.Outcome State Fault Refusal :=
  if s.rf R.MPC.STATE.STATE = mpcDraining then
    let s := (s.wf R.MPC.STATE.STATE mpcOff).wf R.MPC.DRAIN_COUNT.LINES s.mpc.drained
    .next { s with mpc := { s.mpc with lines := [], used := [], drained := 0 } }
  else .next s

/-- A write to MPC.LOCK (R295): only ways that are preloaded, at most eight of them; any other set bit is ignored and
reported. -/
def State.mpcLockWrite (s : State) (v : Nat) : State :=
  let ok := ((onesBelow v 12).filter (fun w => bit (s.rf R.MPC.PRELOADED.WAYS) w)).take 8
  let s := s.wf R.MPC.LOCK.WAYS (sumL (ok.map (fun w => 2 ^ w)))
  if ok.length = popcount v 12 then s else (s.wf R.MPC.STATE.LOCK_NO_PRELOAD 1).raise Pg.MPC 3

/-- MPC_LOCK_WRITE (R295). -/
def execMpcLockWrite (v : BitVec 12) (s : State) : Host.Outcome State Fault Refusal := .next (s.mpcLockWrite v.toNat)

/-- MPC_HOT_WINDOW (R293): after 1 ms the eviction counts start again. -/
def execMpcHotWindow (s : State) : Host.Outcome State Fault Refusal :=
  if s.mpc.windowAt + 1000000 ≤ s.now then
    .next { s with mpc := { s.mpc with evict := [], logged := [], windowAt := s.now } }
  else .next s

end Sys2Proof.Machine
end

