-- ==== Sys2Proof/Machine/MapCodec.lean ====
section
/-! DEFINITION. Bit layouts of the journalled structures: map entries, content records, namespace and slice descriptors, journal records. -/
namespace Sys2Proof.Machine

/-! ## Content records (Table 7-4) -/

/-- A content record as its 128 bits (Table 7-4). -/
def ctEnc (r : CtRec) : Nat :=
  b2n r.pinned + b2n r.folded * 2 + r.dom * 4 + r.gen * 2 ^ 12 + r.ref * 2 ^ 20 + r.clen * 2 ^ 44 + r.loc * 2 ^ 53
    + r.ftag * 2 ^ 96

/-- The content record of 128 bits (Table 7-4). -/
def ctDec (n : Nat) : CtRec :=
  { ftag := fld n 96 32, loc := fld n 53 43, clen := fld n 44 9, ref := fld n 20 24, gen := fld n 12 8, dom := fld n 2 10
    folded := bit n 1, pinned := bit n 0 }

/-- LOC of a segment and an offset in 16-byte units (Table 7-4). -/
def locOf (seg off : Nat) : Nat := seg * 2 ^ 18 + off

/-- Segment of a LOC. -/
def locSeg (l : Nat) : Nat := l / 2 ^ 18

/-- Offset of a LOC. -/
def locOff (l : Nat) : Nat := l % 2 ^ 18

/-- The lost marker: segment 0, offset 1 (R365). -/
def lostLoc : Nat := 1

/-- A slot is free when its LOC is 0 (R262). -/
def ctFree (r : CtRec) : Bool := r.loc == 0

/-! ## Map entries (Tables 7-1, 7-2) -/

/-- KIND of an entry. -/
def entKind (e : Nat) : Nat := fld e 62 2

/-- CID of a leaf entry. -/
def entCid (e : Nat) : Nat := fld e 24 38

/-- BIRTH of an entry. -/
def entBirth (e : Nat) : Nat := fld e 8 16

/-- LPN of an interior entry. -/
def entLpn (e : Nat) : Nat := fld e 26 36

/-- COPY of a MAP_PAGE NEW. -/
def entCopy (e : Nat) : Bool := bit e 25

/-- FRESH of a MAP_PAGE NEW. -/
def entFresh (e : Nat) : Bool := bit e 24

/-- CHK of a leaf entry (R254). -/
def leafChk (e ns gi : Nat) : Nat := crc32c (le (e / 256) 7 ++ le ns 2 ++ le gi 5) % 256

/-- An interior entry as stored: COPY and FRESH are 0 (R256). -/
def entStored (e : Nat) : Nat := setFld e 24 2 0

/-- CHK of an interior entry (R255, R256). -/
def intChk (e ns pix : Nat) : Nat := crc32c (le (entStored e / 256) 7 ++ le ns 2 ++ le pix 6) % 256

/-- A leaf entry with its CHK (R253, R254). -/
def mkLeaf (kind cid birth ns gi : Nat) : Nat :=
  let e := kind * 2 ^ 62 + cid * 2 ^ 24 + birth % 65536 * 256
  e + leafChk e ns gi

/-- An interior entry with its CHK; flags is COPY × 2 + FRESH (R255, R256). -/
def mkInt (kind lpn birth flags ns pix : Nat) : Nat :=
  let e := kind * 2 ^ 62 + lpn * 2 ^ 26 + birth % 65536 * 256
  e + flags * 2 ^ 24 + intChk e ns pix

/-- A leaf entry passes its check (R254): all zero, or KIND 01 or 10 with the right CHK. -/
def leafOk (e ns gi : Nat) : Bool :=
  e == 0 || ((entKind e == 1 || entKind e == 2) && e % 256 == leafChk e ns gi)

/-- An interior or root entry passes its check (R254, R255). -/
def intOk (e ns pix : Nat) : Bool :=
  e == 0 || ((entKind e == 1 || entKind e == 2) && e % 256 == intChk e ns pix)

/-- A map page index: LEVEL and INDEX (R252). -/
def pageIx (level index : Nat) : Nat := level * 2 ^ 44 + index

/-- The root level of a namespace of n grains (R251). -/
def rootLevel (n : Nat) : Nat :=
  if n ≤ 512 then 0 else if n ≤ 512 ^ 2 then 1 else if n ≤ 512 ^ 3 then 2 else if n ≤ 512 ^ 4 then 3 else 4

/-- INDEX of the page at a level that covers a grain (R252). -/
def pageOf (level gi : Nat) : Nat := gi / 512 ^ (level + 1)

/-! ## Namespace descriptors (Table 7-3) -/

/-- A namespace descriptor as its 128 bits. -/
def nsEnc (d : NsDesc) : Nat :=
  d.size + d.lbaf * 2 ^ 38 + d.pool * 2 ^ 42 + d.group * 2 ^ 44 + d.slice * 2 ^ 54 + d.ord * 2 ^ 74 + b2n d.view * 2 ^ 82
    + b2n d.valid * 2 ^ 83 + d.source * 2 ^ 84

/-- The namespace descriptor of 128 bits. -/
def nsDec (n : Nat) : NsDesc :=
  { size := fld n 0 38, lbaf := fld n 38 4, pool := fld n 42 2, group := fld n 44 10, slice := fld n 54 20, ord := fld n 74 8
    view := bit n 82, valid := bit n 83, source := fld n 84 16 }

/-! ## Slice descriptors (Table 5-1) -/

/-- Fields of a slice descriptor (Table 5-1). -/
def sdState (d : Nat) : Nat := fld d 0 3
def sdDomain (d : Nat) : Nat := fld d 3 10
def sdKeyslot (d : Nat) : Nat := fld d 13 13
def sdQueues (d : Nat) : Nat := fld d 26 12
def sdWcshare (d : Nat) : Nat := fld d 38 12
def sdFloorIops (d : Nat) : Nat := fld d 50 17
def sdCeilIops (d : Nat) : Nat := fld d 67 17
def sdFloorBw (d : Nat) : Nat := fld d 84 15
def sdCeilBw (d : Nat) : Nat := fld d 99 15
def sdWeight (d : Nat) : Nat := fld d 114 8
def sdBurst (d : Nat) : Nat := fld d 122 4

/-- A descriptor with another STATE. -/
def sdWith (d st : Nat) : Nat := setFld d 0 3 st

/-! ## Journal records (Table 3-7) -/

/-- The 64 bytes of a journal record. -/
def jrBytes (r : JRec) : Bytes :=
  withCrc (le r.ostamp 12 ++ le r.typ 1 ++ le r.flags 1 ++ le (r.idx + r.cnt * 4096) 3 ++ le (r.head * 128 + r.lane) 1 ++ zeros 2
    ++ le r.target 8 ++ le r.old 16 ++ le r.new 16)

/-- The journal record of 64 bytes whose CRC checks; none otherwise (R133). -/
def jrParse (l : Bytes) : Option JRec :=
  if l.length = 64 ∧ crcOk 64 l = true then
    let g := leAt l 14 3
    let w := leAt l 17 1
    some { ostamp := leAt l 0 12, typ := leAt l 12 1, flags := leAt l 13 1, idx := g % 4096, cnt := g / 4096, head := w / 128
           lane := w % 32, target := leAt l 20 8, old := leAt l 28 16, new := leAt l 44 16 }
  else none

/-- Record types (Table 3-8). -/
def tMapSet : Nat := 0x01
def tCtInsert : Nat := 0x02
def tCtRef : Nat := 0x03
def tCtLoc : Nat := 0x04
def tCtFree : Nat := 0x05
def tSegState : Nat := 0x06
def tDirty : Nat := 0x07
def tEpoch : Nat := 0x08
def tMapPage : Nat := 0x09
def tNs : Nat := 0x0A
def tSlice : Nat := 0x0B
def tLayout : Nat := 0x0C
def tLaneHome : Nat := 0x0D
def tCheckpoint : Nat := 0x0E
def tMove : Nat := 0x0F
def tPad : Nat := 0xFF

/-- Constructors of the records the device issues (Table 3-8). -/
def rMapSet (ns gi old new : Nat) : JRec := { typ := tMapSet, target := ns + gi * 65536, old := old, new := new }
def rCtInsert (cid : Nat) (old new : CtRec) : JRec := { typ := tCtInsert, target := cid, old := ctEnc old, new := ctEnc new }
def rCtRef (cid gen : Nat) (delta : Int) : JRec := { typ := tCtRef, target := cid, new := toTwos 32 delta + gen * 2 ^ 32 }
def rCtLoc (cid old new : Nat) : JRec := { typ := tCtLoc, target := cid, old := old, new := new }
def rCtFree (cid gen : Nat) : JRec := { typ := tCtFree, target := cid, old := gen * 2 ^ 12, new := (gen + 1) % 256 * 2 ^ 12 }
def rSegState (seg gen kind old new : Nat) : JRec :=
  { typ := tSegState, target := seg + gen * 2 ^ 25, old := old + kind * 16, new := new + kind * 16 }
def rDirty (seg : Nat) (old new : Bool) : JRec := { typ := tDirty, target := seg, old := b2n old, new := b2n new }
def rEpoch (ns e : Nat) : JRec := { typ := tEpoch, target := ns, old := e, new := e + 1 }
def rMapPage (ns pix old new : Nat) : JRec := { typ := tMapPage, target := ns + pix * 65536, old := old, new := new }
def rNs (ns : Nat) (old new : NsDesc) : JRec := { typ := tNs, target := ns, old := nsEnc old, new := nsEnc new }
def rSlice (handle old new : Nat) : JRec := { typ := tSlice, target := handle, old := old, new := new }
def rLayout (pool old new : Nat) : JRec := { typ := tLayout, target := pool, old := old, new := new }
def rLaneHome (head lane old new : Nat) : JRec := { typ := tLaneHome, target := head * 128 + lane, old := old, new := new }
def rCheckpoint (n covered : Nat) : JRec := { typ := tCheckpoint, target := n, new := covered }
def rMove (group old new ostamp : Nat) : JRec := { typ := tMove, target := group, old := old, new := new + ostamp * 2 ^ 32 }

end Sys2Proof.Machine
end

