-- ==== Sys2Proof/Machine/Journal.lean ====
section
/-! DEFINITION. Change groups: how a record applies (R122 to R124, R273 to R284, R716) and how a group is stamped and enqueued (R120, R239). -/
namespace Sys2Proof.Machine

/-! ## Reading the maps -/

def State.setMaps (s : State) (m : Maps) : State := { s with maps := m }

/-- Content record of a CID; an unlisted slot is free with GEN 0. -/
def State.ctRec (s : State) (cid : Nat) : CtRec := agetD s.maps.ct cid {}

/-- Segment table entry. -/
def State.seg (s : State) (n : Nat) : Seg := agetD s.maps.segs n {}

def State.setSeg (s : State) (n : Nat) (g : Seg) : State := { s with maps := { s.maps with segs := sput (fun _ => {}) s.maps.segs n g } }

/-- A namespace that exists: its descriptor is VALID. -/
def State.nsOf (s : State) (ns : Nat) : Option Ns :=
  match aget s.maps.nss ns with
  | some n => if n.desc.valid then some n else none
  | none => none

/-- What a grain index resolves to (Table 8-1): a page whose entry failed its check is named with its page index. -/
inductive Leaf where
  | unmapped
  | zero
  | ref (cid birth : Nat)
  | bad (pix : Nat)
  deriving DecidableEq, Repr

/-- Walk from an entry that points to the page at a level down to the leaf entry (R251, R303). -/
def walkMap (m : Maps) (ns gi : Nat) : Nat → Nat → Leaf
  | level, e =>
    if !intOk e ns (pageIx level (pageOf level gi)) then .bad (pageIx (level + 1) (pageOf (level + 1) gi))
    else if entKind e = 0 then .unmapped
    else if entKind e = 1 then .zero
    else
      match aget m.pages (entLpn e) with
      | none => .bad (pageIx level (pageOf level gi))
      | some p =>
        match level with
        | 0 =>
          let x := agetD p.ents (gi % 512) 0
          if !leafOk x ns gi then .bad (pageIx 0 (pageOf 0 gi))
          else if x = 0 then .unmapped
          else if entKind x = 1 then .zero
          else .ref (entCid x) (entBirth x)
        | l + 1 => walkMap m ns gi l (agetD p.ents (gi / 512 ^ (l + 1) % 512) 0)

/-- What a grain of a namespace resolves to from a root entry. -/
def State.resolveFrom (s : State) (ns root gi : Nat) : Leaf :=
  match aget s.maps.nss ns with
  | some n => walkMap s.maps ns gi (rootLevel n.desc.size) root
  | none => .unmapped

/-- The page of a grain's path that is being rebuilt, as its copy has failed its check (R258): each is kept as namespace and page index. -/
def State.badOn (s : State) (ns gi : Nat) : Option Nat :=
  ((List.range 6).map (fun l => pageIx l (pageOf l gi))).find? (fun p => s.mpe.badPages.contains (ns + p * 65536))

/-- What a grain resolves to; a view reads through the snapshot slot of its source (R280). A grain in a page that is being rebuilt fails in the
same way (R258). -/
def State.resolve (s : State) (ns gi : Nat) : Leaf :=
  match s.badOn ns gi with
  | some p => .bad p
  | none =>
  match aget s.maps.nss ns with
  | some n =>
    if n.desc.view then
      match aget s.maps.nss n.desc.source with
      | some src => s.resolveFrom n.desc.source (agetD src.slots n.viewEpoch 0) gi
      | none => .unmapped
    else s.resolveFrom ns n.root gi
  | none => .unmapped

/-- The LPNs on the path of a grain from the page at a level down: (level, LPN). -/
def pathMap (m : Maps) (gi : Nat) : Nat → Nat → List (Nat × Nat)
  | level, e =>
    if entKind e = 2 then
      (level, entLpn e) ::
        (match level, aget m.pages (entLpn e) with
         | l + 1, some p => pathMap m gi l (agetD p.ents (gi / 512 ^ (l + 1) % 512) 0)
         | _, _ => [])
    else []

/-- The namespace whose tree a namespace reads, its root level and root entry: a view's lies in a snapshot slot of its SOURCE (R280). -/
def treeOf (m : Maps) (ns : Nat) : Option (Nat × Nat × Nat) :=
  match aget m.nss ns with
  | none => none
  | some n =>
    if n.desc.view then (aget m.nss n.desc.source).map (fun src => (n.desc.source, rootLevel src.desc.size, agetD src.slots n.viewEpoch 0))
    else some (ns, rootLevel n.desc.size, n.root)

/-- The pages on a grain's path in the tree its namespace reads. -/
def State.pathOf (s : State) (ns gi : Nat) : List (Nat × Nat) :=
  match treeOf s.maps ns with
  | some (_, top, root) => pathMap s.maps gi top root
  | none => []

/-- The entry that points to the page of a level on a grain's path, from the root entry at the top level. -/
def entryAt (m : Maps) (gi want : Nat) : Nat → Nat → Nat
  | level, e =>
    if level = want then e
    else
      match level, aget m.pages (entLpn e) with
      | l + 1, some p => if entKind e = 2 then entryAt m gi want l (agetD p.ents (gi / 512 ^ (l + 1) % 512) 0) else 0
      | _, _ => 0

/-- The stored leaf entry of a grain: 0 where no leaf page exists. -/
def State.leafEntry (s : State) (ns gi : Nat) : Nat :=
  match aget s.maps.nss ns with
  | some n =>
    let e := entryAt s.maps gi 0 (rootLevel n.desc.size) n.root
    if entKind e = 2 then
      match aget s.maps.pages (entLpn e) with
      | some p => agetD p.ents (gi % 512) 0
      | none => 0
    else 0
  | none => 0

/-! ## Ownership -/

/-- This head's number. -/
abbrev State.head (s : State) : Nat := s.straps.head

/-- This head owns a namespace group (R62, R118); a head that is not serving owns none (R277). -/
def State.ownsGroup (s : State) (g : Nat) : Bool :=
  match s.mode with
  | .solo => true
  | .paired | .handover => agetD s.maps.owner g 2 == s.head
  | _ => false

/-- This head is the lead (R173): the Tether reference in PAIRED, the serving head in SOLO. -/
def State.lead (s : State) : Bool :=
  match s.mode with
  | .solo => true
  | .paired | .handover => !s.flag R.TBS.STAT.ROLE
  | _ => false

/-- The owner of a record is the owner of its segment; a lost record has the lead as its owner (R265, R365). -/
def State.ownsRec (s : State) (r : CtRec) : Bool :=
  if locSeg r.loc = 0 then s.lead
  else s.mode == .solo || (s.seg (locSeg r.loc)).owner == s.head

/-- The slice index a namespace belongs to. -/
def State.sliceOfNs (s : State) (ns : Nat) : Nat :=
  match aget s.maps.nss ns with
  | some n => n.desc.slice % 4096
  | none => 4096

/-- A handle names the current generation of an index in use (R172). -/
def State.handleLive (s : State) (h : Nat) : Bool :=
  match aget s.maps.slices (h % 4096) with
  | some r => r.gen == h / 4096 % 256 && sdState r.desc != 0
  | none => false

/-- The slice index that a namespace's references count for (R202): that of the slice that holds them, 4,096 where no slice in use does. -/
def State.chargeOf (s : State) (ns : Nat) : Nat :=
  match aget s.maps.nss ns with
  | some n => if s.handleLive n.holder then n.holder % 4096 else 4096
  | none => 4096

/-- Change the dynamic part of a slice index. -/
def State.updDyn (s : State) (i : Nat) (f : SliceDyn → SliceDyn) : State :=
  { s with slm := { s.slm with dyn := aupd s.slm.dyn i f } }

/-- Add to a slice's ATTR, in 1/65,536 byte (R202). -/
def State.attrAdd (s : State) (slice n : Nat) : State := s.updDyn slice (fun d => { d with attr := d.attr + n })

/-- Take from a slice's ATTR. -/
def State.attrSub (s : State) (slice n : Nat) : State := s.updDyn slice (fun d => { d with attr := d.attr - n })

/-- Attribution of one reference among n (R202). -/
def attrOf (clen n : Nat) : Nat := clen * 16 * 65536 / n

/-! ## Content table changes -/

/-- Keep CT_FILL0 and CT_FILL1 as a slot fills or empties (Table 7-6), and raise the fill interrupt at CT_WARN. -/
def State.ctFill (s : State) (cid : Nat) (up : Bool) : State :=
  let f := if cid % 32 < 16 then R.MPE.CT_FILL0.COUNT else R.MPE.CT_FILL1.COUNT
  let n := if up then s.rf f + 1 else s.rf f - 1
  let was := s.rf f
  let s := s.wf f n
  let half := 2 ^ s.rf R.MPE.CT_BITS.BITS * 16
  if up && decide (s.rf R.MPE.CT_WARN.PCT * half ≤ n * 100) && decide (was * 100 < s.rf R.MPE.CT_WARN.PCT * half) then
    s.event Pg.MPE
  else s

/-- Change VALID of a segment by the size of a record (Table 9-2). -/
def State.segValid (s : State) (seg clen : Nat) (up : Bool) : State :=
  if seg = 0 then s
  else
    let g := s.seg seg
    s.setSeg seg { g with valid := if up then g.valid + (clen + 1) else g.valid - (clen + 1) }

/-- Store a content record, through MPC (R291). -/
def State.ctPut (s : State) (cid : Nat) (r : CtRec) : State :=
  let s := s.mpcTouch (s.ctAddr cid) true
  { s with maps := { s.maps with ct := sput (fun _ => {}) s.maps.ct cid r } }

/-- FOLDED of a LOC (R263). -/
def State.foldedOf (s : State) (loc : Nat) : Bool := (s.seg (locSeg loc)).isFold

/-- Note a record whose REF has just reached 0 for its CT_FREE (R271), or reached the pin threshold (R270). -/
def State.refWatch (s : State) (cid z : Nat) (ownZ : Bool) (r : CtRec) : State :=
  if r.ref = 0 then
    let w : FreeWait := { cid := cid, z := z, ownZ := ownZ }
    { s with mpe := { s.mpe with frees := s.mpe.frees.filter (fun x => x.cid != cid) ++ [w] } }
  else if 0xF0000 * 16 ≤ r.ref && !r.pinned && !s.mpe.pins.contains cid then
    { s with mpe := { s.mpe with pins := s.mpe.pins ++ [cid] } }
  else s

/-- Add a signed amount to a record's REF, unconditionally but for a pinned record (R270, R274, R276), with the
attribution of the slice (R202). z is the stamp of the group that does it. -/
def State.refAdd (s : State) (slice cid z : Nat) (ownZ up : Bool) : State :=
  let r := s.ctRec cid
  if ctFree r || r.pinned then s
  else
    let n := if up then r.ref + 1 else r.ref - 1
    let s := if up then s.attrAdd slice (attrOf r.clen n) else s.attrSub slice (attrOf r.clen (max r.ref 1))
    let r' := { r with ref := n }
    (s.ctPut cid r').refWatch cid z ownZ r'

/-! ## Map pages -/

def State.putPage (s : State) (lpn : Nat) (p : Page) : State := { s with maps := { s.maps with pages := aset s.maps.pages lpn p } }

/-- Add 1 to the count of an LPN (R273). -/
def State.pageUp (s : State) (lpn : Nat) : State :=
  match aget s.maps.pages lpn with
  | some p => s.putPage lpn { p with cnt := p.cnt + 1 }
  | none => s

/-- Subtract 1 from the count of an LPN (R273); a page whose count reaches 0 is to be released (R276). -/
def State.pageDown (s : State) (ns lpn ent : Nat) : State :=
  match aget s.maps.pages lpn with
  | some p =>
    let s := s.putPage lpn { p with cnt := p.cnt - 1 }
    if p.cnt ≤ 1 then { s with mpe := { s.mpe with rels := s.mpe.rels.filter (fun x => x.2.1 != lpn) ++ [(ns, lpn, entStored ent)] } }
    else s
  | none => s

/-- The entries of a page taken FRESH (Table 7-2): unmapped, zero grains or zero subtrees as OLD gave. -/
def freshEnts (ns level index old : Nat) : AMap Nat :=
  if entKind old = 1 then
    (List.range 512).map (fun i =>
      (i, if level = 0 then mkLeaf 1 0 (entBirth old) ns (index * 512 + i)
          else mkInt 1 0 (entBirth old) 0 ns (pageIx (level - 1) (index * 512 + i))))
  else []

/-- What taking a page as a COPY does to what it points to (R274). -/
def State.copyRefs (s : State) (slice z : Nat) (ownZ : Bool) (p : Page) : State :=
  p.ents.foldl (fun s e =>
    if entKind e.2 = 2 then
      if p.level = 0 then s.refAdd slice (entCid e.2) z ownZ true else s.pageUp (entLpn e.2)
    else s) s

/-- What releasing a page does to what it points to (R276). -/
def State.dropRefs (s : State) (ns slice z : Nat) (ownZ : Bool) (p : Page) : State :=
  p.ents.foldl (fun s e =>
    if entKind e.2 = 2 then
      if p.level = 0 then s.refAdd slice (entCid e.2) z ownZ false else s.pageDown ns (entLpn e.2) e.2
    else s) s

/-- Set the entry that points to the page (level, index) of a namespace: the root entry or an entry of its parent. -/
def State.setPageEntry (s : State) (ns level index e : Nat) : State :=
  match aget s.maps.nss ns with
  | none => s
  | some n =>
    let top := rootLevel n.desc.size
    if level = top then { s with maps := { s.maps with nss := aset s.maps.nss ns { n with root := e } } }
    else
      let gi := index * 512 ^ (level + 1)
      let pe := entryAt s.maps gi (level + 1) top n.root
      match aget s.maps.pages (entLpn pe) with
      | some p => if entKind pe = 2 then s.putPage (entLpn pe) { p with ents := sput (fun _ => 0) p.ents (index % 512) e } else s
      | none => s

/-- A MAP_PAGE record (R252, R256, R273 to R277, R284). -/
def State.applyMapPage (s : State) (r : JRec) : Option State :=
  let ns := r.target % 65536
  let pix := r.target / 65536
  let level := pix / 2 ^ 44
  let index := pix % 2 ^ 44
  let slice := s.chargeOf ns
  let own := r.head == s.head
  if entCopy r.new && entFresh r.new then none
  else if level = 0xF then
    -- a snapshot slot: INDEX is its epoch (R252, R277)
    match aget s.maps.nss ns with
    | some n =>
      let e := index % 2 ^ 32
      let slots := if r.new = 0 then adel n.slots e else aset n.slots e (entStored r.new)
      let s := { s with maps := { s.maps with nss := aset s.maps.nss ns { n with slots := slots } } }
      let s := if entKind r.new = 2 then s.pageUp (entLpn r.new) else s
      some (if entKind r.old = 2 then s.pageDown ns (entLpn r.old) r.old else s)
    | none => some s
  else if level = 0xE then
    -- the release of a page: INDEX is its LPN (R252, R276)
    let lpn := index % 2 ^ 36
    match aget s.maps.pages lpn with
    | some p =>
      let s := { s with maps := { s.maps with pages := adel s.maps.pages lpn },
                        mpe := { s.mpe with rels := s.mpe.rels.filter (fun x => x.2.1 != lpn) } }
      some (s.dropRefs ns slice r.ostamp own p)
    | none => some s
  else if 5 ≤ level then some s
  else
    let e := entStored r.new
    let s :=
      if entKind r.new = 2 then
        let lpn := entLpn r.new
        let old := (aget s.maps.pages (entLpn r.old)).getD { level := level }
        if entCopy r.new then
          (s.putPage lpn { old with cnt := 0 }).copyRefs slice r.ostamp own old
        else if entFresh r.new then s.putPage lpn { level := level, ents := freshEnts ns level index r.old }
        else s
      else s
    let s := s.setPageEntry ns level index e
    let s := if entKind r.new = 2 then s.pageUp (entLpn r.new) else s
    some (if entKind r.old = 2 then s.pageDown ns (entLpn r.old) r.old else s)

/-! ## Written-grain log (R197, R198) -/

/-- Append an entry for a MAP_SET applied to a logged slice. -/
def State.wglAppend (s : State) (ns gi new : Nat) : State :=
  match aget s.maps.nss ns with
  | none => s
  | some n =>
    let i := n.desc.slice % 4096
    match (if s.handleLive n.desc.slice then aget s.slm.dyn i else none) with
    | some d =>
      match d.wgl with
      | some w =>
        let nx := if d.wglWr + 1 < w.size then d.wglWr + 1 else 0
        if w.size ≤ w.pend then
          (s.updDyn i (fun d => { d with wgl := none, wglOvf := true })).raise Pg.SLM 2
        else
          let ent := gi % 2 ^ 38 + n.desc.ord * 2 ^ 38 + (if entKind new = 2 then 0 else 2 ^ 46)
          let s := s.store (w.base + d.wglWr * 8) (le ent 8)
          s.updDyn i (fun d => { d with wglWr := nx, wgl := some { w with pend := w.pend + 1 } })
      | none => s
    | none => s

/-! ## Applying one record (R123) -/

/-- MAP_SET: the leaf entry takes NEW (R253). -/
def State.applyMapSet (s : State) (r : JRec) : State :=
  let ns := r.target % 65536
  let gi := r.target / 65536 % 2 ^ 38
  let s := s.mpcPath gi true (s.pathOf ns gi)
  let s := match aget s.maps.nss ns with
    | some n =>
      let e := entryAt s.maps gi 0 (rootLevel n.desc.size) n.root
      match aget s.maps.pages (entLpn e) with
      | some p => if entKind e = 2 then s.putPage (entLpn e) { p with ents := sput (fun _ => 0) p.ents (gi % 512) r.new } else s
      | none => s
    | none => s
  s.wglAppend ns gi r.new

/-- Store a segment table entry, through MPC (R291). -/
def State.segPut (s : State) (n : Nat) (g : Seg) : State := (s.mpcTouch (s.segAddr n) true).setSeg n g

/-- The change of a segment's state (R334 to R336). A segment that becomes QLC was written by a fold, so a LOC into it sets FOLDED on both
heads and in replay alike (R263, R284); one that leaves OPEN for DEGRADED or RETIRED never held its grains durably. -/
def State.applySegState (s : State) (r : JRec) : State :=
  let n := r.target % 2 ^ 25
  let gen := r.target / 2 ^ 25 % 256
  let g := s.seg n
  if gen ≠ g.gen then (s.inc R.SGB.CNT_STALE.COUNT).raise Pg.SGB 2
  else
    let st := fld r.new 0 4
    let kind := fld r.new 4 3
    if st = 0 then
      s.segPut n { gen := (g.gen + 1) % 256 }
    else if st = 1 then s.segPut n { g with state := 1, kind := kind, owner := r.head, openStamp := r.ostamp }
    else
      let g := { g with state := st, kind := kind, isFold := g.isFold || decide (st = 3) }
      let g := if fld r.old 0 4 = 1 then { g with sealStamp := r.ostamp, lossy := decide (st = 5 ∨ st = 7) } else g
      let g := if st = 7 then { g with retStamp := r.ostamp } else g
      s.segPut n g

/-- What clearing a namespace's VALID releases (R716). -/
def State.nsRelease (s : State) (ns : Nat) (n : Ns) : State :=
  let s := if entKind n.root = 2 then s.pageDown ns (entLpn n.root) n.root else s
  n.slots.foldl (fun s e => if entKind e.2 = 2 then s.pageDown ns (entLpn e.2) e.2 else s) s

/-- An NS record (R259, R716). -/
def State.applyNs (s : State) (r : JRec) : State :=
  let ns := r.target % 65536
  let d := nsDec r.new
  let n := agetD s.maps.nss ns {}
  if n.desc.valid && !d.valid then
    let s := s.nsRelease ns n
    { s with maps := { s.maps with nss := aset s.maps.nss ns { desc := d, epoch := n.epoch, holder := n.holder } } }
  else { s with maps := { s.maps with nss := aset s.maps.nss ns { n with desc := d, holder := if d.valid then d.slice else n.holder } } }

/-- Content-table chunks of the records a leaf page names. -/
def refChunks (p : Page) : List Nat :=
  if p.level = 0 then (p.ents.filter (fun e => entKind e.2 == 2)).map (fun e => entCid e.2 / 4096) else []

/-- The chunk of the map page of a level and index of a namespace, where it has one (R285). -/
def State.pageChunk (s : State) (ns level index : Nat) : List Nat :=
  match aget s.maps.nss ns with
  | some n =>
    let e := entryAt s.maps (index * 512 ^ (level + 1)) level (rootLevel n.desc.size) n.root
    if level ≤ rootLevel n.desc.size ∧ entKind e = 2 then [2 ^ 40 + entLpn e] else []
  | none => []

/-- The chunks a record changes (R285, R335): 128 buckets of the content table, map pages, 1,024 entries of the segment table. -/
def State.chunksOf (s : State) (r : JRec) : List Nat :=
  let ns := r.target % 65536
  let level := r.target / 2 ^ 60
  let index := r.target / 65536 % 2 ^ 44
  let page := fun (l : Nat) => aget s.maps.pages l
  if 2 ≤ r.typ ∧ r.typ ≤ 5 then [r.target % 2 ^ 38 / 4096]
  else if r.typ = tMapSet then s.pageChunk ns 0 (r.target / 65536 % 2 ^ 38 / 512)
  else if r.typ = tMapPage then
    if level = 0xE then (2 ^ 40 + index % 2 ^ 36) :: ((page (index % 2 ^ 36)).map refChunks).getD []
    else if 5 ≤ level then []
    else
      let new_ := if entKind r.new = 2 then (2 ^ 40 + entLpn r.new) :: (if entCopy r.new then ((page (entLpn r.old)).map refChunks).getD [] else []) else []
      s.pageChunk ns (level + 1) (index / 512) ++ new_
  else if r.typ = tSegState ∨ r.typ = tDirty then [2 ^ 41 + r.target % 2 ^ 25 / 1024]
  else []

/-- The pool a chunk of a record is written to (R288): the namespace's for a map page, else the lowest-numbered. -/
def State.chunkPool (s : State) (r : JRec) (k : Nat) : Nat :=
  if 2 ^ 40 ≤ k ∧ k < 2 ^ 41 then ((aget s.maps.nss (r.target % 65536)).map (fun n => n.desc.pool)).getD 0
  else ((s.maps.pools.head?).map Prod.fst).getD 0

/-- Chunks that some records change, with their pools. -/
def State.chunksFor (s : State) (rs : List JRec) : List (Nat × Nat) :=
  (rs.flatMap (fun r => (s.chunksOf r).map (fun k => (s.chunkPool r k, k)))).eraseDups

/-- Put chunks among those that wait to be written. -/
def State.chunkQueue (s : State) (l : List (Nat × Nat)) : State :=
  { s with mpe := { s.mpe with ckTodo := s.mpe.ckTodo ++ l.filter (fun c => !s.mpe.ckTodo.contains c) } }

/-- Apply one record under its class; none when its condition fails (R123, R124, R284). slice is the slice whose
references the group changes. -/
def State.applyRec (s : State) (slice : Nat) (r : JRec) : Option State :=
  let own := r.head == s.head
  if r.typ = tMapSet then some (s.applyMapSet r)
  else if r.typ = tCtInsert then
    let cid := r.target % 2 ^ 38
    let c := s.ctRec cid
    let o := ctDec r.old
    let n := ctDec r.new
    if ctFree c && c.gen == o.gen then
      let n := { n with folded := s.foldedOf n.loc }
      let s := ((s.ctPut cid n).ctFill cid true).segValid (locSeg n.loc) n.clen true
      some (s.attrAdd slice (attrOf n.clen (max n.ref 1)))
    else none
  else if r.typ = tCtRef then
    let cid := r.target % 2 ^ 38
    let c := s.ctRec cid
    if !ctFree c && c.gen == fld r.new 32 8 then
      if c.pinned then some s
      else
        let d := sext 32 (fld r.new 0 32)
        let n := ((c.ref : Int) + d).toNat
        let s := if 0 ≤ d then s.attrAdd slice (attrOf c.clen (max n 1)) else s.attrSub slice (attrOf c.clen (max c.ref 1))
        let c' := { c with ref := n }
        some ((s.ctPut cid c').refWatch cid r.ostamp own c')
    else none
  else if r.typ = tCtLoc then
    let cid := r.target % 2 ^ 38
    let c := s.ctRec cid
    let o := fld r.old 0 43
    let n := fld r.new 0 43
    if !ctFree c && c.loc == o then
      if o = n then some ((s.ctPut cid { c with pinned := true }).inc R.MPE.CNT_PIN.COUNT)
      else
        let s := (s.segValid (locSeg o) c.clen false).segValid (locSeg n) c.clen true
        some (s.ctPut cid { c with loc := n, folded := s.foldedOf n })
    else none
  else if r.typ = tCtFree then
    let cid := r.target % 2 ^ 38
    let c := s.ctRec cid
    if !ctFree c && c.ref == fld r.old 20 24 && c.gen == fld r.old 12 8 then
      let s := (s.segValid (locSeg c.loc) c.clen false).ctFill cid false
      let s := { s with mpe := { s.mpe with frees := s.mpe.frees.filter (fun w => w.cid != cid) } }
      some (s.ctPut cid { gen := fld r.new 12 8 })
    else none
  else if r.typ = tSegState then some (s.applySegState r)
  else if r.typ = tDirty then
    let n := r.target % 2 ^ 25
    some (s.setSeg n { s.seg n with dirty := bit r.new 0 })
  else if r.typ = tEpoch then
    let ns := r.target % 65536
    match aget s.maps.nss ns with
    | some n =>
      let e := fld r.old 0 32
      let s := { s with maps := { s.maps with nss := aset s.maps.nss ns { n with epoch := fld r.new 0 32, slots := aset n.slots e n.root } } }
      some (if entKind n.root = 2 then s.pageUp (entLpn n.root) else s)
    | none => some s
  else if r.typ = tMapPage then s.applyMapPage r
  else if r.typ = tNs then some (s.applyNs r)
  else if r.typ = tSlice then
    let h := r.target % 2 ^ 20
    let i := h % 4096
    let was := ((aget s.maps.slices i).map (fun x => sdState x.desc)).getD 0
    let dyn := if sdState r.new = 0 then adel s.slm.dyn i else if was = 0 then aset s.slm.dyn i {}
      else if sdState r.new = 2 ∧ was ≠ 2 then aupd s.slm.dyn i (fun d => { d with pInfl := none, qStamp := r.ostamp }) else s.slm.dyn
    some { s with maps := { s.maps with slices := aset s.maps.slices i { gen := h / 4096, desc := r.new } }, slm := { s.slm with dyn := dyn } }
  else if r.typ = tLayout then
    let p := r.target % 4
    match aget s.maps.layNext (fld r.new 0 16 * 4 + p) with
    | some d => some { s with maps := { s.maps with pools := aset s.maps.pools p d, layNext := adel s.maps.layNext (fld r.new 0 16 * 4 + p) } }
    | none => some s
  else if r.typ = tLaneHome then
    some { s with maps := { s.maps with laneHome := aset s.maps.laneHome (r.target / 128 % 2 * 32 + r.target % 32) (fld r.new 0 24) } }
  else if r.typ = tMove then
    let g := r.target % 65536
    let h := fld r.new 0 8
    let o := if g = 0xFFFF then (List.range 1024).map (fun i => (i, h)) else aset s.maps.owner g h
    some { s with maps := { s.maps with owner := o } }
  else some s

/-! ## Applying a group (R124, R285 to R287) -/

/-- The slice whose references a group changes: that of the namespace its first map record names. -/
def State.groupSlice (s : State) (g : List JRec) : Nat :=
  match g.find? (fun r => r.typ == tMapSet || r.typ == tMapPage) with
  | some r => s.chargeOf (r.target % 65536)
  | none => 4096

/-- Apply records in order; none as soon as one fails. -/
def applyRecs (slice : Nat) : List JRec → State → Option State
  | [], s => some s
  | r :: t, s =>
    match s.applyRec slice r with
    | some s => applyRecs slice t s
    | none => none

/-- Remember an applied group for replay and checkpoints, and its stamp as applied. -/
def State.noteApplied (s : State) (g : List JRec) : State :=
  let o := maxL (g.map (fun r => r.ostamp))
  { s with mpe := { s.mpe with hist := s.mpe.hist ++ [g], top := max s.mpe.top o } }

/-- Bytes of the checkpoint shadow (R260): the part of the region past the slot array. -/
def State.shadowSize (s : State) : Nat :=
  let slots := 2 ^ s.rf R.MPE.CT_BITS.BITS * 512
  cdiv (slots * 20) (17 * 2 ^ 30) * 2 ^ 30 - slots

/-- Bytes a shadow list takes (R285, R335): 4 KiB for a map page, 64 KiB for a chunk of the content table or the segment table. -/
def shadowBytes (l : List Nat) : Nat := sumL (l.map (fun c => if 2 ^ 40 ≤ c ∧ c < 2 ^ 41 then 4096 else 65536))

/-- A chunk of the running checkpoint is still to become durable. -/
def State.chunkOwed (s : State) (k : Nat) : Bool :=
  s.mpe.ckTodo.any (fun c => c.2 == k) || s.mpe.ckSegs.any (fun e => e.2.any (fun c => c.1 == k))

/-- The chunks of a group above the cut that a running checkpoint shadows, because it has not written them yet (R285). -/
def State.shadowWith (s : State) (g : List JRec) : Option (List Nat) :=
  match s.mpe.ckRun with
  | some k =>
    if k.covered < maxL (g.map (fun r => r.ostamp)) then
      some (((g.flatMap s.chunksOf).filter s.chunkOwed).foldl (fun l c => if l.contains c then l else l ++ [c]) k.shadow)
    else none
  | none => none

/-- What the lane hash takes of a record (R120): namespace and map page, bucket, or the whole TARGET. -/
def laneInput (r : JRec) : Nat :=
  if r.typ = tMapSet then r.target % 65536 + 65536 * (r.target / 65536 / 512)
  else if r.typ = tMapPage ∧ r.target / 2 ^ 60 = 0 then r.target
  else if 2 ≤ r.typ ∧ r.typ ≤ 5 then 2 ^ 64 + r.target % 2 ^ 38 / 32
  else 2 ^ 65 + r.target

/-- What a record touches, for the order in which held groups take effect: its namespace's tree, or what its lane is picked by. -/
def touches (r : JRec) : Nat :=
  if r.typ = tMapSet ∨ r.typ = tMapPage ∨ r.typ = tEpoch ∨ r.typ = tNs then 2 ^ 90 + r.target % 65536 else laneInput r

/-- Two groups change a common target. -/
def clash (a b : List JRec) : Bool := a.any (fun r => b.any (fun q => touches r == touches q))

/-- A group at or below the cut of the running checkpoint changes chunks that are written with it (R286). -/
def State.lateChunks (s : State) (g : List JRec) : State :=
  match s.mpe.ckRun with
  | some k => if g.all (fun r => decide (r.ostamp ≤ k.covered)) then { s.chunkQueue (s.chunksFor g) with mpe := { (s.chunkQueue (s.chunksFor g)).mpe with ckDir := false } } else s
  | none => s

/-- Apply a group to the maps now, all of it or nothing (R124). -/
def State.applyNow (s : State) (g : List JRec) : Option State :=
  match applyRecs (s.groupSlice g) g (s.lateChunks g) with
  | some s => some (s.noteApplied g)
  | none => none

/-- A group that the checkpoint shadow has room for is applied, and its chunks are shadowed (R285). -/
def State.applyShadowed (s : State) (g : List JRec) : Option State :=
  match s.shadowWith g with
  | some l => (s.applyNow g).map (fun s => { s with mpe := { s.mpe with ckRun := s.mpe.ckRun.map (fun (k : Ckpt) => { k with shadow := l }) } })
  | none => s.applyNow g

/-- The shadow of the running checkpoint has no room for a group (R287). -/
def State.shadowFull (s : State) (g : List JRec) : Bool :=
  match s.shadowWith g with
  | some l => decide (s.shadowSize < shadowBytes l) && decide (20 ≤ s.rf R.MPE.CT_BITS.BITS)
  | none => false

/-- Apply a group atomically (R117, R124, R287). It is held while the checkpoint shadow has no room for it, and behind a held group that
changes a target of its own, so that each target changes in order; whether its conditions hold is told as if the held groups had been applied. -/
def State.applyGroup (s : State) (g : List JRec) : Option State :=
  if s.shadowFull g || s.mpe.held.any (fun h => clash h g) then
    match applyRecs (s.groupSlice g) g (s.mpe.held.foldl (fun t h => (applyRecs (t.groupSlice h) h t).getD t) s) with
    | none => none
    | some _ =>
      let s := if s.mpe.held.isEmpty then s.raise Pg.MPE 2 else s
      some { s with mpe := { s.mpe with held := s.mpe.held ++ [g] } }
  else s.applyShadowed g

/-- A held group of a command, or one that changes a namespace: its effect is still to come (R240, R287). -/
def State.groupHeld (s : State) (o : Ostamp) : Bool := s.mpe.held.any (fun g => g.any (fun r => r.ostamp == o))

/-! ## Lanes -/

/-- Journal lane of a record (R120). -/
def laneOf (r : JRec) : Nat := Config.laneHash (laneInput r) % 32

/-- A lane's state. -/
def State.lane (s : State) (l : Nat) : Lane := agetD s.mpe.lanes l {}

def State.setLane (s : State) (l : Nat) (x : Lane) : State := { s with mpe := { s.mpe with lanes := aset s.mpe.lanes l x } }

/-- The partner holds or builds a replica that this head's records keep current. -/
def State.mirrors (s : State) : Bool :=
  s.caridUp && (s.mode == .paired || s.mode == .handover || (s.cpl.role == 2 && decide (3 ≤ s.rf R.CPL.JOIN_STAT.PHASE ∧ s.rf R.CPL.JOIN_STAT.PHASE ≤ 7)))

/-- Enqueue a record on its lane and give it to CPL (R120, R121). -/
def State.enqueue (s : State) (r : JRec) : State :=
  let l := r.lane
  let x := s.lane l
  let x := { x with queue := x.queue ++ [r], firstAt := if x.queue.isEmpty then s.estamp else x.firstAt
                    horizon := max x.horizon r.ostamp, lastAt := s.estamp }
  let s := s.setLane l x
  if s.mirrors then s.sendC (.recs l [r]) else s

/-- Number a group's records and set their stamp, head and lanes (Table 3-7, R120). -/
def finishGroup (head ostamp flags : Nat) (rs : List JRec) : List JRec :=
  rs.zipIdx.map (fun p => { p.1 with ostamp := ostamp, flags := flags, idx := p.2, cnt := rs.length, head := head, lane := laneOf p.1 })

/-- What became of a group that was to be stamped. -/
inductive Stamped where
  | stalled (s : State)          -- the issuer stalls; nothing was issued
  | failed (s : State)           -- a condition failed; the group is discarded (R124, R229)
  | done (ostamp : Nat) (s : State)

/-- Stamp a group on the lane of record 0, apply it and enqueue its records (R120, R239, R240). -/
def State.stampGroup (s : State) (flags : Nat) (rs : List JRec) : Stamped :=
  match rs with
  | [] => .done 0 s
  | r0 :: _ =>
    -- every lane takes its records in ascending OSTAMP order (R120)
    match s.issueAbove (laneOf r0) (maxL (rs.map (fun r => (s.lane (laneOf r)).horizon))) with
    | (none, s) => .stalled s
    | (some o, s) =>
      let g := finishGroup s.head o flags rs
      match s.applyGroup g with
      | some s => .done o (g.foldl (fun s r => s.enqueue r) s)
      | none => .failed { s with mpe := { s.mpe with cntFail := s.mpe.cntFail + 1 } }

/-- Stamp a group whose records cannot fail; a stalled issuer leaves the state unchanged but for the stall. -/
def State.journal (s : State) (rs : List JRec) : Bool × State :=
  match s.stampGroup 0 rs with
  | .done _ s => (true, s)
  | .stalled s => (false, s)
  | .failed s => (false, s)

/-! ## Moves of ownership (R119) -/

/-- The OSTAMP at and above which this head issues no group of a namespace group (R119, R490): that of a move to the other
head that is agreed, or proposed by this head and not yet answered. -/
def State.moveBar (s : State) (g : Nat) : Option Nat :=
  [g, 0xFFFF].findSome? (fun k =>
    match aget s.cpl.moves k with
    | some (o, h) => if h = s.head then none else some o
    | none => (aget s.cpl.props k).bind (fun p => if p.2 = s.head then none else some p.1))

/-- A group of a command could be stamped at or above its move OSTAMP: some lane would issue such a stamp now. -/
def State.moveHolds (s : State) (ns : Nat) : Bool :=
  match (s.nsOf ns).bind (fun n => s.moveBar n.desc.group) with
  | some o => (List.range 32).any (fun l => match s.nextStamp l with | some t => decide (o ≤ t) | none => false)
  | none => false

/-! ## Releasing pages (R276) -/

/-- Issue the releases of pages whose count is 0 in groups this head owns and no move bars (R119), children first as they come. -/
def State.pumpReleases (s : State) : Nat → State
  | 0 => s
  | k + 1 =>
    match s.mpe.rels.find? (fun x => match aget s.maps.nss x.1 with
        | some n => s.ownsGroup n.desc.group && !s.moveHolds x.1
        | none => s.lead) with
    | none => s
    | some (ns, lpn, ent) =>
      match s.journal [rMapPage ns (pageIx 0xE lpn) ent 0] with
      | (true, s) => s.pumpReleases k
      | (false, s) => s

/-- A bound on the releases one step can cause: every page in use. -/
def State.releaseAll (s : State) : State := s.pumpReleases (s.maps.pages.length + 1)

/-! ## Preparing a path for a change (R275) -/

/-- An LPN this head may take (R257): free, with bit 0 its head number unless it serves alone. -/
def State.freeLpn (s : State) : Nat :=
  ((List.range (2 * s.maps.pages.length + 4)).find? (fun l =>
    !ahas s.maps.pages l && (s.mode == .solo || l % 2 == s.head))).getD 0

/-- The first page on a grain's path that must be copied or taken before its leaf entry changes, as its MAP_PAGE
record: from the first page whose count is above 1 on, every page is copied; a missing page is taken FRESH. -/
def State.pathStep (s : State) (ns gi : Nat) (top root birth : Nat) : Option JRec :=
  let levels := ((List.range (top + 1)).map (fun i => top - i))
  levels.findSome? (fun level =>
    let e := entryAt s.maps gi level top root
    let parentOk := level == top || entKind (entryAt s.maps gi (level + 1) top root) == 2
    let pix := pageIx level (pageOf level gi)
    if !parentOk then none
    else if entKind e = 2 then
      match aget s.maps.pages (entLpn e) with
      | some p => if 1 < p.cnt then some (rMapPage ns pix e (mkInt 2 s.freeLpn birth 2 ns pix)) else none
      | none => none
    else some (rMapPage ns pix e (mkInt 2 s.freeLpn birth 1 ns pix)))

/-- The MAP_PAGE records that make the paths of some grains changeable, from the root down, with the state they lead
to; applying a copy raises the counts below it, so the pages below are copied in turn (R275). -/
def State.pathRecs (s : State) (ns : Nat) : Nat → List Nat → List JRec → List JRec
  | 0, _, acc => acc
  | _, [], acc => acc
  | k + 1, gi :: t, acc =>
    match aget s.maps.nss ns with
    | none => acc
    | some n =>
      match s.pathStep ns gi (rootLevel n.desc.size) n.root n.epoch with
      | none => s.pathRecs ns k t acc
      | some r =>
        match s.applyMapPage { r with head := s.head } with
        | some s' => s'.pathRecs ns k (gi :: t) (acc ++ [r])
        | none => acc

/-- The records of R275 for a set of grains of a namespace. -/
def State.prepPaths (s : State) (ns : Nat) (gis : List Nat) : List JRec := s.pathRecs ns (6 * gis.length + 1) gis []

end Sys2Proof.Machine
end

