-- ==== Sys2Proof/Machine/HostPorts.lean ====
section
/-! DEFINITION. HFX: port modes, links, flow and congestion control (R136 to R140). -/
namespace Sys2Proof.Machine

/-- Register instance and number of a physical port (Table 4-2). -/
def portH (p : Nat) : Nat := p / 4
def portN (p : Nat) : Nat := p % 4

/-- MODE of a physical port. -/
def State.portMode (s : State) (p : Nat) : Nat := s.rf (R.HFX.PORT_CFG.MODE (portH p) (portN p))

/-- Logical port k of port p exists in a mode (Table 4-1). -/
def lportIn (mode k : Nat) : Bool := (mode == 0 && k == 0) || (mode == 1 && k < 2) || (mode == 2 && k < 4)

/-- Lanes of logical port 4p + k within its port (Table 4-1). -/
def lportLanes (mode k : Nat) : List Nat :=
  if mode = 0 then [0, 1, 2, 3] else if mode = 1 then [2 * k, 2 * k + 1] else if mode = 2 then [k] else []

/-- A logical port has link. -/
def State.lportUp (s : State) (l : Nat) : Bool := bit (s.rf (R.HFX.PORT_STAT.UP (portH (l / 4)) (portN (l / 4)))) (l % 4)

/-- Set or clear a logical port's link bit. -/
def State.setUp (s : State) (l : Nat) (v : Bool) : State :=
  let f := R.HFX.PORT_STAT.UP (portH (l / 4)) (portN (l / 4))
  s.wf f (setBit (s.rf f) (l % 4) v)

/-! ## Violations (R162 to R168) -/

/-- Transport and port of a queue pair: XPORT, LPORT. -/
def State.connPort (s : State) (q : Nat) : Nat × Nat :=
  match aget s.io.conns q with
  | some c => (c.xport, c.lport)
  | none => (1, 0)

/-- The slice handle of a queue pair's controller, 0xFFFFF before binding. -/
def State.connSlice (s : State) (q : Nat) : Nat :=
  match (aget s.io.conns q).bind (fun c => c.ctl) with
  | some k => ((aget s.io.ctls k).map (fun c => c.slice)).getD 0xFFFFF
  | none => 0xFFFFF

/-- Bytes of a violation log entry (Table 4-6). -/
def vlogEntry (estamp vcode lport xport slice qid cid d1 d2 : Nat) : Bytes :=
  withCrc (le estamp 8 ++ le vcode 2 ++ le lport 1 ++ le xport 1 ++ le slice 4 ++ le qid 2 ++ le cid 2 ++ le d1 4 ++ le d2 4)

/-- Write a violation log entry into the ring (R162, R167, R168). -/
def State.vlogPut (s : State) (e : Bytes) : State :=
  let base := s.rf R.NVT.VLOG_BASE.ADDR
  let wr := s.rf R.NVT.VLOG_WR.INDEX
  let s := (s.store (hbmBase + base + wr * 32) e).wf R.NVT.VLOG_WR.INDEX ((wr + 1) % 4096)
  let s := s.raise Pg.NVT 0
  if 4096 ≤ s.io.vpend then (s.inc R.NVT.VLOG_WRAP.COUNT).raise Pg.NVT 1
  else
    let s := { s with io := { s.io with vpend := s.io.vpend + 1 } }
    if s.io.vpend = 3073 then s.event Pg.NVT else s

/-- Count a violation and log it at most once per 1 ms per logical port and VCODE (R162, R163, R167). -/
def State.violate (s : State) (q vcode cid d1 d2 : Nat) : State :=
  let (xp, lp) := s.connPort q
  let key := lp * 256 + vcode
  let s := { s with io := { s.io with vcnt := aset s.io.vcnt key (satAdd 32 (agetD s.io.vcnt key 0) 1) } }
  let recent := match aget s.io.vlast key with
    | some t => decide (s.now < t + 1000000)
    | none => false
  if recent || s.rf R.NVT.VLOG_BASE.ADDR = 0 then s
  else
    let s := { s with io := { s.io with vlast := aset s.io.vlast key s.now } }
    let qid := ((aget s.io.conns q).map (fun c => if c.ctl.isSome then c.qid else 0xFFFF)).getD 0xFFFF
    s.vlogPut (vlogEntry s.estamp vcode lp xp (s.connSlice q) qid cid d1 d2)

/-- VCNT_CLEAR (R166): NVT.VCNT_SEL CLR clears the selected counter; LPORT 0x3F selects the Annex port. -/
def State.vcntKey (s : State) : Nat :=
  let l := s.rf R.NVT.VCNT_SEL.LPORT
  (if l = 0x3F then 0xFF else l) * 256 + s.rf R.NVT.VCNT_SEL.VCODE

def execVcntClear (s : State) : Host.Outcome State Fault Refusal :=
  .next { s with io := { s.io with vcnt := adel s.io.vcnt s.vcntKey } }

/-! ## Completions and the end of connections -/

/-- Add an entry to a controller's Error Information log (R162): count, queue, Command ID, status, LBA, namespace. -/
def State.errInfo (s : State) (q cid status lba nsid : Nat) : State :=
  match (aget s.io.conns q).bind (fun c => c.ctl) with
  | some k =>
    match aget s.io.ctls k with
    | some c =>
      let qid := ((aget s.io.conns q).map (fun c => c.qid)).getD 0
      let e := [c.errCnt + 1, qid, cid, status, lba, nsid]
      { s with io := { s.io with ctls := aset s.io.ctls k { c with errCnt := c.errCnt + 1, errs := (e :: c.errs).take 64 } } }
    | none => s
  | none => s

/-- Priorities paused at the logical port of a queue pair (R140). -/
def State.pausedAt (s : State) (q : Nat) : Nat := agetD s.io.paused (s.connPort q).2 0

/-- Send to the host of a queue pair: held back while the priority of its frames is paused (R140, log 92). -/
def State.hostEmit (s : State) (q : Nat) (o : Out) : State :=
  if s.io.paused = [] then s.emit o
  else if bit (s.pausedAt q) (Config.connPrio q % 8) then { s with io := { s.io with held := s.io.held ++ [(q, o)] } }
  else s.emit o

/-- Send what was held back and is not paused any more, in the order it was issued. -/
def State.hostResume (s : State) : State :=
  let go := fun (e : Nat × Out) => !bit (s.pausedAt e.1) (Config.connPrio e.1 % 8)
  (s.io.held.filter go).foldl (fun s e => s.emit e.2) { s with io := { s.io with held := s.io.held.filter (fun e => !go e) } }

/-- Send priority flow control at a port with PFC_EN 1, on the priorities of PFC_MASK, whenever the port sees fit (R140, log 92). -/
def State.flowControl (s : State) (q : Nat) : State :=
  let p := (s.connPort q).2 / 4
  if (s.connPort q).1 ≠ 3 ∧ s.flag (R.HFX.PORT_CFG.PFC_EN (portH p) (portN p)) = true then
    let z := Config.pfcQuanta s.freeCtr % 65537
    let s := { s with freeCtr := s.freeCtr + 1 }
    if z = 65536 then s else s.emit (.pfc (s.connPort q).2 (s.rf (R.HFX.PORT_CFG.PFC_MASK (portH p) (portN p))) z)
  else s

/-- Answer a command that is not carried out, by status code type and status. -/
def State.answer (s : State) (q cid sct sc : Nat) (dnr : Bool) : State := s.hostEmit q (.cqe q cid sct sc dnr 0)

/-- Answer a violation with a completion status: log, count, Error Information entry, completion (R162, R164). -/
def State.violAnswer (s : State) (q vcode cid d1 d2 sc : Nat) : State :=
  ((s.violate q vcode cid d1 d2).errInfo q cid sc 0 0).answer q cid 0 sc (sc != 0x22)

/-- Remove a command in flight. -/
def State.dropCmd (s : State) (op : Nat) : State := { s with io := { s.io with cmds := adel s.io.cmds op } }

def State.updCmd (s : State) (op : Nat) (f : IoCmd → IoCmd) : State := { s with io := { s.io with cmds := aupd s.io.cmds op f } }

def State.updConn (s : State) (q : Nat) (f : Conn → Conn) : State := { s with io := { s.io with conns := aupd s.io.conns q f } }

/-- The placing of an adopted grain, or of a record of a segment that a crash left open: no host command (R126, R345). -/
def oAdopt : Nat := 0x2F0

/-- RPL's lookup of offered fingerprints, its writes, and its reads: no host commands (R518 to R520). -/
def oOffer : Nat := 0x310
def oRplWrite : Nat := 0x311
def oRplRead : Nat := 0x312

/-- Work whose grains hold neither a grain index nor a bucket against others. -/
def loose (opc : Nat) : Bool := opc == oAdopt || opc == oOffer

/-- A command may change data or namespace state. -/
def writes (opc : Nat) : Bool := opc == 0x01 || opc == 0x08 || opc == 0x09 || opc == 0x19

/-- A command that changes state and takes a stamp (R116): those of `writes`, and the reservation commands that change a reservation. -/
def changes (opc : Nat) : Bool := writes opc || opc == 0x0D || opc == 0x11 || opc == 0x15

/-- What the end of its connection does to a command (R161): stamped work is carried through without a completion;
work with no group stamped is discarded without effect, and the partner's copies released. -/
def State.orphan (s : State) (op : Nat) (c : IoCmd) : State :=
  if changes c.opc && (c.stage == .stamped || c.ostamp != 0) then
    s.updCmd op (fun c => { c with conn := none, grains := c.grains.take c.doneN, stage := .stamped })
  else
    let s := if c.fwd then (if c.bound then s.sendC (.fwdAbort c.tok) else s) else if c.txn ≠ 0 then s.sendC (.cancel (c.txn % 2 ^ 32)) else s
    { s.dropCmd op with io := { (s.dropCmd op).io with wc := s.io.wc.filter (fun w => w.op != op || w.ostamp != 0) } }

/-- The commands of a queue pair, with their numbers. -/
def State.cmdsOf (s : State) (q : Nat) : AMap IoCmd := s.io.cmds.filter (fun e => e.2.conn == some q)

/-- Return a queue pair to the pool (R144, R186). -/
def State.freePair (s : State) : State := s.wf R.NVT.QPOOL_FREE.FREE (s.rf R.NVT.QPOOL_FREE.FREE + 1)

/-- Close one queue pair: its commands end as R161 gives, its pair returns to the pool. -/
def State.closeQueue (s : State) (q : Nat) : State :=
  match aget s.io.conns q with
  | none => s
  | some c =>
    let s := (s.cmdsOf q).foldl (fun s e => s.orphan e.1 e.2) s
    let s := { s with io := { s.io with conns := adel s.io.conns q, unack := s.io.unack.filter (fun u => u.conn != q), held := s.io.held.filter (fun e => e.1 != q) } }
    let s := if c.pair then s.freePair else s
    s.emit (.connEnd q)

/-- The queue pairs of a controller. -/
def State.queuesOf (s : State) (k : Nat) : List Nat := (s.io.conns.filter (fun e => e.2.ctl == some k)).map Prod.fst

/-- End a controller: every queue of it closes and it is gone. -/
def State.endCtl (s : State) (k : Nat) : State :=
  let s := (s.queuesOf k).foldl (fun s q => s.closeQueue q) s
  { s with io := { s.io with ctls := adel s.io.ctls k } }

/-- A connection ends (R161): the admin queue's end takes its controller with it; an I/O queue's end closes that queue. -/
def State.endConn (s : State) (q : Nat) : State :=
  match aget s.io.conns q with
  | none => s
  | some c =>
    match c.ctl with
    | some k => if c.qid = 0 then s.endCtl k else s.closeQueue q
    | none => s.closeQueue q

/-- End a TCP connection with a C2HTermReq, or put a RoCEv2 queue pair in error (Table 4-7). -/
def State.endWith (s : State) (q fes fei : Nat) : State :=
  match aget s.io.conns q with
  | none => s
  | some c => if c.xport = 1 then (s.emit (.c2hTerm q fes fei)).endConn q else s.endConn q

/-! ## Commands of the ports -/

/-- A logical port loses link: every connection on it ends (R138, R161). -/
def State.dropLport (s : State) (l : Nat) : State :=
  let s := s.setUp l false
  let qs := (s.io.conns.filter (fun e => e.2.lport == l && e.2.xport != 3)).map Prod.fst
  let s := qs.foldl (fun s q => s.endConn q) s
  { s with io := { s.io with paused := adel s.io.paused l } }.hostResume

/-- A write to HFX.PORT_CFG (R138): MODE changes only from or to 3; the other fields take effect as written. -/
def State.portCfgWrite (s : State) (p v : Nat) : State :=
  let h := portH p
  let n := portN p
  let cur := s.portMode p
  let m := fld v 0 2
  let s := (((s.wf (R.HFX.PORT_CFG.AN h n) (fld v 2 1)).wf (R.HFX.PORT_CFG.PFC_EN h n) (fld v 3 1)).wf
    (R.HFX.PORT_CFG.PFC_MASK h n) (fld v 4 8)).wf (R.HFX.PORT_CFG.MTU h n) (fld v 16 14)
  if m = cur then s
  else if cur ≠ 3 ∧ m ≠ 3 then s.raise (6 + h) 0
  else
    let s := (List.range 4).foldl (fun s k => if s.lportUp (4 * p + k) then s.dropLport (4 * p + k) else s) s
    s.wf (R.HFX.PORT_CFG.MODE h n) m

/-- Payload bytes of the largest frame a port sends (R139, Table 4-2): a value outside 1,500 to 9,198 acts as the nearer limit. -/
def State.portMtu (s : State) (p : Nat) : Nat := min 9198 (max 1500 (s.rf (R.HFX.PORT_CFG.MTU (portH p) (portN p))))

/-- Send data to the host in pieces that fit the port's frames (R139); an Annex queue writes host memory in one. -/
def State.sendData (s : State) (q cid off : Nat) (b : Bytes) : State :=
  let (xp, lp) := s.connPort q
  let n := if xp = 3 then max 1 b.length else s.portMtu (lp / 4)
  (List.range (cdiv b.length n)).foldl (fun s i => s.hostEmit q (.hostData q cid (off + i * n) (slice b (i * n) (min n (b.length - i * n))))) s

/-- PORT_LINK_UP (R137): a logical port of its port's mode gains link, in a mode whose ports are up (Table 2-1), on lanes
that are not all fenced. -/
def execPortLinkUp (port : Fin 16) (k : Fin 4) (s : State) : Host.Outcome State Fault Refusal :=
  let p := port.val
  let lanes := lportLanes (s.portMode p) k.val
  let fenced := s.rf (R.HFX.PORT_STAT.FENCED (portH p) (portN p))
  if lportIn (s.portMode p) k.val && !fusedOff s.fuses.variant (6 + portH p) && s.mode != .boot && s.mode != .vault
      && s.mode != .service && lanes.all (fun j => !bit fenced j) then
    .next (s.setUp (4 * p + k.val) true)
  else .next s

/-- ECN_MARKED_PACKET (R140): a marked RoCEv2 packet is answered by a notification, at most one per queue pair per 50 µs. -/
def execEcnMarkedPacket (q : Nat) (s : State) : Host.Outcome State Fault Refusal :=
  match aget s.io.conns q with
  | some c =>
    if c.xport = 2 && (match c.cnpAt with | some t => decide (t + 50000 ≤ s.now) | none => true) then
      .next ((s.updConn q (fun c => { c with cnpAt := some s.now })).emit (.cnp q))
    else .next s
  | none => .next s

/-- CNP_RECEIVED (R140): the queue pair's transmit rate halves. -/
def execCnpReceived (q : Nat) (s : State) : Host.Outcome State Fault Refusal :=
  .next (s.updConn q (fun c => if c.xport = 2 then { c with rate := c.rate / 2, gainAt := s.now } else c))

/-- RATE_REGAIN (R140): every 55 µs a throttled queue pair regains 1/16 of line rate. -/
def execRateRegain (q : Nat) (s : State) : Host.Outcome State Fault Refusal :=
  .next (s.updConn q (fun c =>
    if c.xport = 2 && decide (c.rate < 4294967296) && decide (c.gainAt + 55000 ≤ s.now) then
      { c with rate := min 4294967296 (c.rate + 268435456), gainAt := s.now }
    else c))

/-- PRIORITY_FLOW_CONTROL (R140): on a port with PFC_EN 1, the frame pauses (nonzero quanta) or resumes the priorities
of PFC_MASK that its class-enable vector names; what was held back goes out once its priority resumes. -/
def execPriorityFlowControl (lport : Fin 64) (classes : BitVec 8) (pauseMask : BitVec 8) (s : State) :
    Host.Outcome State Fault Refusal :=
  let p := lport.val / 4
  let h := portH p
  let n := portN p
  if s.flag (R.HFX.PORT_CFG.PFC_EN h n) && s.lportUp lport.val then
    let m := s.rf (R.HFX.PORT_CFG.PFC_MASK h n)
    let old := agetD s.io.paused lport.val 0
    let new := sumL ((List.range 8).map (fun i =>
      if bit m i && classes.getLsbD i then (if pauseMask.getLsbD i then 2 ^ i else 0) else (if bit old i then 2 ^ i else 0)))
    .next { s with io := { s.io with paused := if new = 0 then adel s.io.paused lport.val else aset s.io.paused lport.val new } }.hostResume
  else .next s

end Sys2Proof.Machine
end

