-- ==== Sys2Proof/Machine/Bridle.lean ====
section
/-! DEFINITION. Bridle: token grants, admission and the partner's share (R30, R181, R189 to R195). -/
namespace Sys2Proof.Machine

/-- A slice's row, if its index is in use. -/
def State.sliceRow (s : State) (i : Nat) : Option SliceRow :=
  match aget s.maps.slices i with
  | some r => if sdState r.desc = 0 then none else some r
  | none => none

/-- Descriptor of a slice index, 0 when FREE. -/
def State.sliceDesc (s : State) (i : Nat) : Nat := ((s.sliceRow i).map (fun r => r.desc)).getD 0

/-- A handle names the current generation of its index (R172). -/
def State.handleOk (s : State) (h : Nat) : Bool :=
  match aget s.maps.slices (h % 4096) with
  | some r => r.gen == h / 4096 % 256
  | none => h / 4096 == 0

/-- A stale arrival is counted and reported (R172). -/
def State.staleHandle (s : State) : State := (s.inc R.SLM.CNT_STALE.COUNT).raise Pg.SLM 0

def State.dynOf (s : State) (i : Nat) : SliceDyn := agetD s.slm.dyn i {}

/-! ## Costs (R190) -/

/-- Data bytes of a block of an LBA format (Table 4-5). -/
def blockSize (lbaf : Nat) : Nat := if lbaf = 1 then 512 else 4096

/-- Metadata bytes of a block (Table 4-5). -/
def metaSize (lbaf : Nat) : Nat := if lbaf = 2 then 8 else if lbaf = 3 then 16 else 0

def State.lbafOf (s : State) (ns : Nat) : Nat := ((aget s.maps.nss ns).map (fun n => n.desc.lbaf)).getD 0

/-- Operation tokens of a command: one. Admin commands are not charged. -/
def opCost (opc : Nat) : Nat := if 0x100 ≤ opc then 0 else 1

/-- Byte tokens of a command (R190): the host data of Read, Write and Compare. -/
def State.byteCost (s : State) (c : IoCmd) : Nat :=
  if c.opc = 0x01 ∨ c.opc = 0x02 ∨ c.opc = 0x05 then c.nlb * blockSize (s.lbafOf c.ns) else 0

/-! ## Limits, in 1/65,536 token per epoch of 100 µs -/

def iopsEpoch (units : Nat) : Nat := units * 65536 / 10
def bwEpoch (units : Nat) : Nat := units * 3200 * 65536

/-- Floor of a slice on this head for a kind (false operations, true bytes), with its share (R193). -/
def floorOf (d : Nat) (t : Tok) (bytes : Bool) : Nat :=
  (if bytes then bwEpoch (sdFloorBw d) else iopsEpoch (sdFloorIops d)) * t.num / max 1 t.den

/-- Ceiling, none where the descriptor has none (Table 5-1). -/
def ceilOf (d : Nat) (t : Tok) (bytes : Bool) : Option Nat :=
  if bytes then (if sdCeilBw d = 0x7FFF then none else some (bwEpoch (sdCeilBw d) * t.num / max 1 t.den))
  else (if sdCeilIops d = 0x1FFFF then none else some (iopsEpoch (sdCeilIops d) * t.num / max 1 t.den))

/-- What a slice brings to an epoch: index, demand, floor, limit (demand or ceiling, whichever is less), weight. -/
structure Claim where
  idx    : Nat
  demand : Nat
  floor  : Nat
  limit  : Nat
  weight : Nat
  got    : Nat := 0

/-- Steps 2 and 3 of R189: divide what remains by weight among the unmet, dividing again what is cut off. -/
def divide : Nat → Nat → List Claim → List Claim
  | 0, _, cs => cs
  | k + 1, rem, cs =>
    let unmet := cs.filter (fun c => c.got < c.limit)
    let w := sumL (unmet.map (fun c => c.weight))
    if w = 0 ∨ rem = 0 then cs
    else
      let cut := unmet.any (fun c => c.limit - c.got < rem * c.weight / w)
      let cs' := cs.map (fun c => if c.got < c.limit then { c with got := c.got + min (rem * c.weight / w) (c.limit - c.got) } else c)
      let given := sumL (cs'.map (fun c => c.got)) - sumL (cs.map (fun c => c.got))
      if cut then divide k (rem - given) cs' else cs'

/-- The grants of an epoch (R189). -/
def grants (cap : Nat) (cs : List Claim) : List Claim :=
  let cs := cs.map (fun c => { c with got := min c.floor c.demand })
  let sum := sumL (cs.map (fun c => c.got))
  if cap < sum then cs.map (fun c => { c with got := c.got * cap / sum })
  else divide (cs.length + 1) (cap - sum) cs

/-! ## Admission (R30, R181, R190, R191) -/

/-- A cost is covered by a balance and, where the grant does not cover it, by the burst bucket (R190, R191): the
balance and bucket after it. -/
def tokTake (t : Tok) (cost : Nat) (both mayBurst : Bool) : Option Tok :=
  let c : Int := cost * 65536
  if cost = 0 then some t
  else if c ≤ t.bal then some { t with bal := t.bal - c, used := t.used + cost * 65536 }
  else if mayBurst && decide (c ≤ t.bal + t.bucket) && decide (0 ≤ t.bal) then
    some { t with bal := 0, bucket := t.bucket - (c - t.bal), used := t.used + cost * 65536 }
  else if (t.grant : Int) < c && both then some { t with bal := t.bal - c, used := t.used + cost * 65536 }
  else none

/-- No other slice is below its floor (R191). -/
def State.burstOk (s : State) (i : Nat) : Bool := s.slm.dyn.all (fun e => e.1 == i || !e.2.hungry)

/-- Take a command's tokens of both kinds, or none (R190). -/
def State.bridleTake (s : State) (i oc bc : Nat) : Option State :=
  let d := s.dynOf i
  let both := decide (0 < d.ops.bal) && decide (0 < d.byt.bal)
  let b := s.burstOk i
  match tokTake d.ops oc (if bc = 0 then decide (0 < d.ops.bal) else both) b, tokTake d.byt bc both b with
  | some o, some y => some (s.updDyn i (fun d => { d with ops := o, byt := y }))
  | _, _ => none

/-- Bytes of own dirty data of a slice on this head, or of all slices. -/
def State.dirtyOf (s : State) (i : Nat) : Nat := 4096 * (s.io.wc.filter (fun w => w.slice % 4096 == i && w.via.isNone)).length
def State.dirtyAll (s : State) : Nat := 4096 * (s.io.wc.filter (fun w => !w.adopted)).length

/-- Size of this head's own write cache, adopted Sideboard space not counted (Table 1-6, R43). -/
def State.wcSize (s : State) : Nat := nthD s.dram.regions 0 0

/-- Effective write cache (R37). -/
def State.wcEffective (s : State) : Nat := if s.mode = .solo then s.wcSize else min s.wcSize s.io.pSb

/-- WCSHARE of a slice in bytes, scaled by the enabled pseudo-channels (R181). -/
def State.wcShare (s : State) (i : Nat) : Nat := sdWcshare (s.sliceDesc i) * 4194304 * s.rf R.HBC.STAT.ENABLED / 64

/-- Host data in write staging: what admitted writes that are not stamped hold (R30). -/
def State.stagingUsed (s : State) : Nat :=
  sumL ((s.io.cmds.filter (fun e => e.2.stage == .data || e.2.stage == .active)).map (fun e => e.2.need))

/-- Bytes a command will add to the write cache: a grain for each grain of a Write, and for each end of a Write Zeroes that covers a grain
in part. -/
def State.wcNeed (s : State) (c : IoCmd) : Nat :=
  if c.opc = 0x01 then (if s.lbafOf c.ns = 1 then ((c.slba + c.nlb + 7) / 8 - c.slba / 8) else c.nlb) * 4096
  else if c.opc = 0x08 && s.lbafOf c.ns == 1 then (b2n (c.slba % 8 != 0) + b2n ((c.slba + c.nlb) % 8 != 0)) * 4096
  else 0

/-- Bytes that commands admitted and not yet stamped are still to add to the write cache, of those that p picks. -/
def State.wcOwed (s : State) (p : IoCmd → Bool) : Nat :=
  sumL ((s.io.cmds.filter (fun e => (e.2.stage == .data || e.2.stage == .active) && !e.2.fwd && p e.2)).map (fun e =>
    s.wcNeed e.2 - 4096 * (s.io.wc.filter (fun w => w.op == e.1)).length))

/-- Segments of this head with the dirty-region bit set (R347). -/
def State.dirtySegs (s : State) : Nat := (s.maps.segs.filter (fun e => e.2.dirty && e.2.owner == s.head)).length

/-- Room for a write on this head: staging, write cache, and a segment to place it in (R30, R37, R347). -/
def State.writeRoom (s : State) (c : IoCmd) : Bool :=
  decide (s.stagingUsed + s.wcNeed c ≤ nthD s.dram.regions 2 0) && decide (s.dirtyAll + s.wcOwed (fun _ => true) + s.wcNeed c ≤ s.wcEffective)
    && (s.sgb.opens.any (fun e => !e.2.closed) || decide (s.dirtySegs < s.rf R.SGB.CFG.MAX_DIRTY))

/-- The slice's own write-cache share has room (R181), what its admitted writes are still to bring counted. -/
def State.shareRoom (s : State) (c : IoCmd) : Bool :=
  decide (s.dirtyOf (c.slice % 4096) + s.wcOwed (fun x => x.slice % 4096 == c.slice % 4096 && x.via.isNone) + s.wcNeed c ≤ s.wcShare (c.slice % 4096))

/-- Write staging is full: no grain fits (R30, R194). -/
def State.stagingFull (s : State) : Bool := decide (nthD s.dram.regions 2 0 < s.stagingUsed + 4096)

/-- The head admits host commands: a serving mode, PHYS set (R85), NVT and SLM taking new work (R675), no latched class F outside PAIRED (R648), and no
departure under way (R56). -/
def State.admitting (s : State) : Bool :=
  serving s.mode && s.tbs.started && s.blockOn Pg.NVT && s.blockOn Pg.SLM && !(s.fLatched && s.mode != .paired) && s.bsv.leaveCause.isNone && !s.bsv.stopAsked

/-! ## The epoch (R189 to R194) -/

/-- Commands of a slice that wait at admission. -/
def State.waitingOf (s : State) (i : Nat) : List IoCmd :=
  (s.io.cmds.filter (fun e => e.2.stage == .waiting && e.2.slice % 4096 == i)).map Prod.snd

/-- Demand of a slice for a kind, in 1/65,536 token (R192). -/
def State.demandOf (s : State) (i : Nat) (bytes : Bool) : Nat :=
  let w := s.waitingOf i
  let d := s.dynOf i
  65536 * (if bytes then sumL (w.map s.byteCost) + d.byt.arrived else sumL (w.map (fun c => opCost c.opc)) + d.ops.arrived)

/-- The claims of all slices for a kind. -/
def State.claims (s : State) (bytes : Bool) : List Claim :=
  s.slm.dyn.filterMap (fun e =>
    match s.sliceRow e.1 with
    | some r =>
      let t := if bytes then e.2.byt else e.2.ops
      let dem := s.demandOf e.1 bytes
      if dem = 0 then none
      else some { idx := e.1, demand := dem, floor := floorOf r.desc t bytes
                  limit := match ceilOf r.desc t bytes with | some c => min dem c | none => dem, weight := sdWeight r.desc }
    | none => none)

/-- A kind's account at the start of an epoch: unused tokens go to the burst bucket when there is a ceiling, a debt is
carried, the grant's fraction is carried (R189 to R191). -/
def tokEpoch (t : Tok) (ceil : Option Nat) (burst got first : Nat) : Tok :=
  let whole := (got + t.frac) / 65536
  let bucket := match ceil with
    | some c => min (t.bucket + max t.bal 0) ((c : Int) * 2 ^ burst)
    | none => 0
  { t with bal := min t.bal 0 + (whole * 65536 : Nat), bucket := bucket, frac := (got + t.frac) % 65536, grant := whole * 65536, first := first, used := 0, arrived := 0 }

/-- The grant of a slice among the claims, 0 when it made none. -/
def gotOf (cs : List Claim) (i : Nat) : Nat := ((cs.find? (fun c => c.idx == i)).map (fun c => c.got)).getD 0

/-- The amount of step 1 of R189: the lesser of a slice's floor and its demand. -/
def firstOf (cs : List Claim) (i : Nat) : Nat := ((cs.find? (fun c => c.idx == i)).map (fun c => min c.floor c.demand)).getD 0

/-- A slice got less than the lesser of its floor and its demand. -/
def shortOf (cs : List Claim) (i : Nat) : Bool :=
  match cs.find? (fun c => c.idx == i) with
  | some c => decide (c.got < min c.floor c.demand)
  | none => false

/-- The grants of both kinds, with SHORTFALL counted for the epoch (R189, Table 5-5). -/
def State.epochGrant (s : State) : State :=
  let po := grants (iopsEpoch (s.rf R.SLM.CAP_IOPS.KIOPS)) (s.claims false)
  let pb := grants (bwEpoch (s.rf R.SLM.CAP_BW.UNITS)) (s.claims true)
  let dyn := amap s.slm.dyn (fun i d =>
    let desc := s.sliceDesc i
    let hungry := shortOf po i || shortOf pb i
    { d with ops := tokEpoch d.ops (ceilOf desc d.ops false) (sdBurst desc) (gotOf po i) (firstOf po i)
             byt := tokEpoch d.byt (ceilOf desc d.byt true) (sdBurst desc) (gotOf pb i) (firstOf pb i)
             hungry := hungry
             own := { d.own with short := if hungry then d.own.short + 100 else d.own.short
                                 throt := if d.ceiled then d.own.throt + 100 else d.own.throt }
             changed := d.changed || hungry || d.ceiled, ceiled := false })
  { s with slm := { s.slm with dyn := dyn, epochAt := s.estamp } }

/-- A slice has not yet used its amount of step 1 of R189 in this epoch, in a kind that a command costs. -/
def State.belowFirst (s : State) (c : IoCmd) : Bool :=
  let d := s.dynOf (c.slice % 4096)
  decide (d.ops.used < d.ops.first) || (decide (s.byteCost c ≠ 0) && decide (d.byt.used < d.byt.first))

/-- Waiting commands in the order they are considered: by arrival, or, when write staging is full, those that their slice's amount of
step 1 covers first, and then by weight (R194). -/
def State.admitOrder (s : State) : List Nat :=
  let w := s.io.cmds.filter (fun e => e.2.stage == .waiting)
  if s.stagingFull then
    (sortKey (fun (e : Nat × IoCmd) => if s.belowFirst e.2 then 0 else 256 - sdWeight (s.sliceDesc (e.2.slice % 4096))) w).map Prod.fst
  else w.map Prod.fst

/-- The share of a kind by demand (R193): own ÷ (own + partner), split equally where neither has demand. -/
def tokShare (t : Tok) : Tok :=
  if t.sent + t.other = 0 then { t with num := 1, den := 2 } else { t with num := t.sent, den := t.sent + t.other }

end Sys2Proof.Machine
end

