-- ==== Sys2Proof/Machine/Placement.lean ====
section
/-! DEFINITION. Grain records: check field, sealing, and their place in a segment being filled (R235 to R241, R306, R338 to R341). -/
namespace Sys2Proof.Machine

/-- Bytes of a data tile and of its trailer parts (R323, R340). -/
def tileBytes : Nat := 65536

/-- The 16-byte check field before encryption (Table 9-6). -/
def checkField (crc cid gen tag : Nat) : Bytes := le (crc + cid * 2 ^ 64 + gen * 2 ^ 102 + tag * 2 ^ 110) 16

/-- A grain record: header and stored bytes, each sealed as its own data unit (R235, R339). -/
def sealRecord (key : Bytes) (cid : Nat) (hdr stored : Bytes) : Bytes :=
  xtsEnc key (le (cid + 2 ^ 127) 16) hdr ++ xtsEnc key (le cid 16) stored

/-- The key of an XTS slot of CPH, if the slot holds one (R537, R538). -/
def State.xtsKey (s : State) (slot : Nat) : Option Bytes :=
  match aget s.sec.cph slot with
  | some k => if k.kind = 1 && !k.dying then some k.key else none
  | none => none

/-- Messages DGE has completed for the device's own requesters (R569). -/
def State.dgeRan (s : State) (n : Nat) : State := s.wf R.DGE.CNT_MSG.COUNT ((s.rf R.DGE.CNT_MSG.COUNT + n) % 2 ^ 64)

/-- A comparison with a comparator of DGE (R535, R536). -/
def State.cmpRan (s : State) : State := s.inc R.DGE.CNT_CMP.COUNT

/-- Requests CPH has completed for the device's own requesters (R570). -/
def State.cphRan (s : State) (n : Nat) : State := s.wf R.CPH.CNT_REQ.COUNT ((s.rf R.CPH.CNT_REQ.COUNT + n) % 2 ^ 64)

/-- A DGE request of the device's own that names an empty slot ends BAD_SLOT (R538, R547, R569). -/
def State.dgeNoSlot (s : State) : State := (s.inc R.DGE.CNT_FAIL.COUNT).raise Pg.DGE 0

/-- A CPH request of the device's own that names an empty slot ends BAD_SLOT (R538, R547). -/
def State.cphNoSlot (s : State) : State := s.raise Pg.CPH 0

/-- A GCM_DEC of the device's own ends AUTH (R544, R570). -/
def State.cphAuth (s : State) : State := ((s.cphRan 1).inc R.CPH.CNT_AUTH.COUNT).raise Pg.CPH 1

/-- The key of a MAC slot of DGE (R537, R538). -/
def State.macKey (s : State) (slot : Nat) : Option Bytes :=
  match aget s.sec.dge slot with
  | some k => if k.kind = 2 && !k.dying then some k.key else none
  | none => none

/-- The key of an FP slot of DGE. -/
def State.fpKey (s : State) (slot : Nat) : Option Bytes :=
  match aget s.sec.dge slot with
  | some k => if k.kind = 1 && !k.dying then some k.key else none
  | none => none

/-- Where a record of n bytes goes in a segment with d data tiles that is filled up to (tile, fill, count) (R341,
R306): the tile and byte, or none when the segment is full. -/
def placeAt (d n : Nat) : Nat → Nat → Nat → Nat → Option (Nat × Nat × Nat)
  | 0, _, _, _ => none
  | k + 1, tile, fill, count =>
    if d ≤ tile then none
    else if fill + n ≤ 65520 - 48 * (count + 1) ∧ count + 1 ≤ 341 ∧ (fill + n - 1) / 4096 - fill / 4096 ≤ 1 then some (tile, fill, count)
    else placeAt d n k (tile + 1) 64 0

/-- The place of a record in an open segment. -/
def State.roomIn (s : State) (seg : Nat) (o : OpenSeg) (n : Nat) : Option (Nat × Nat × Nat) :=
  placeAt (s.seg seg).d n 17 o.tile o.fill o.count

/-- The open segment of a pool a record goes to: the lowest-numbered one of data kind with room. -/
def State.openFor (s : State) (pool n : Nat) : Option (Nat × OpenSeg) :=
  (s.sgb.opens.find? (fun e => !e.2.closed && !e.2.fold && (s.seg e.1).pool == pool && (s.seg e.1).kind == 0
    && (s.roomIn e.1 e.2 n).isSome))

/-- Place a record in a segment (R237, R341): its LOC and the state after. -/
def State.placeIn (s : State) (seg : Nat) (o : OpenSeg) (p : Placed) : Nat × State :=
  match s.roomIn seg o p.bytes.length with
  | none => (0, s)
  | some (tile, fill, count) =>
    let off := tile * 4096 + fill / 16
    let o := { o with recs := o.recs ++ [{ p with off := off }], tile := tile, fill := fill + p.bytes.length, count := count + 1
                      oldest := some (o.oldest.getD s.now) }
    (locOf seg off, { s with sgb := { s.sgb with opens := aset s.sgb.opens seg o } })

/-- Place a record in a pool, if a segment is open for it. -/
def State.placePool (s : State) (pool : Nat) (p : Placed) : Option (Nat × State) :=
  match s.openFor pool p.bytes.length with
  | some (seg, o) => some (s.placeIn seg o p)
  | none => none

/-- A grain at a location is durable on the Shelf (R246, R336, R350): its segment is SEALED, QLC, SUPERSEDED, or DRAINING or RETIRED
after one of them; the grains of a segment that left OPEN without all of its units are not until they are placed again. -/
def State.locDurable (s : State) (loc : Nat) : Bool :=
  let g := s.seg (locSeg loc)
  !g.lossy && (g.state == 2 || g.state == 3 || g.state == 4 || g.state == 6 || g.state == 7)

/-- A segment is not yet durable: reads of its grains come from the write cache (R241, R305). -/
def State.locPending (s : State) (loc : Nat) : Bool :=
  let g := s.seg (locSeg loc)
  g.state == 1 || g.state == 5 || (g.lossy && g.state != 0)

end Sys2Proof.Machine
end

