-- ==== Sys2Proof/Machine/HostCheck.lean ====
section
/-! DEFINITION. What NVT checks of an arriving command, in the order of R157, and how a command is taken in. -/
namespace Sys2Proof.Machine

/-- Opcodes of Table 4-4; admin and fabrics opcodes are 0x100 and above in the model. -/
def oFlush : Nat := 0x00
def oWrite : Nat := 0x01
def oRead : Nat := 0x02
def oCompare : Nat := 0x05
def oWz : Nat := 0x08
def oDsm : Nat := 0x09
def oResReg : Nat := 0x0D
def oResRep : Nat := 0x0E
def oResAcq : Nat := 0x11
def oResRel : Nat := 0x15
def oCopy : Nat := 0x19
def oAdmin : Nat := 0x100

/-- MDTS in bytes (Table 4-3). -/
def mdts : Nat := 1048576

/-- In-capsule data bytes (Table 4-3). -/
def ioccsz : Nat := 8192

/-- A command whose data transfer Table 4-3 governs. -/
def moves (opc : Nat) : Bool := opc == oWrite || opc == oRead || opc == oCompare

/-- The controller of a queue pair. -/
def State.ctlOf (s : State) (q : Nat) : Option (Nat × Ctl) :=
  match (aget s.io.conns q).bind (fun c => c.ctl) with
  | some k => (aget s.io.ctls k).map (fun c => (k, c))
  | none => none

/-- Step 1 of R157: transport framing and digests. The state after the answer, or none when the command passes. -/
def State.chkTransport (s : State) (q : Nat) (k : Conn) (c : NvmeCmd) : Option State :=
  let n := c.icd.length
  match c.hdgst with
  | some (e, r) => some ((s.violate q 0x0A c.cid e r).endWith q 0x03 0)
  | none =>
    if k.xport = 1 ∧ ioccsz < n then some ((s.violate q 0x04 c.cid ioccsz n).endWith q 0x05 0)
    else if k.xport = 2 ∧ ioccsz < n then some (((s.violate q 0x20 c.cid 8256 (n + 64)).emit (.nak q 1)).endConn q)
    else
      match c.ddgst with
      | some (e, r) => some (s.violAnswer q 0x0B c.cid e r 0x22)
      | none =>
        match c.sgls with
        | [g] =>
          if k.xport = 1 ∧ g.typ = 0 ∧ n < g.len then some (s.violAnswer q 0x02 c.cid g.len n 0x0F)
          else if k.xport = 1 ∧ g.typ = 0 ∧ g.len < n then some (s.violAnswer q 0x03 c.cid g.len n 0x0F)
          else none
        | _ => none

/-- A Command ID is outstanding on a queue (R158): a command in flight, or a held Async Event Request. -/
def State.cidBusy (s : State) (q cid : Nat) : Bool :=
  s.io.cmds.any (fun e => e.2.conn == some q && e.2.cid == cid) ||
  (match s.ctlOf q with
   | some (_, k) => (match aget s.io.conns q with | some c => c.qid == 0 | none => false) && k.aers.contains cid
   | none => false)

/-- Step 2 of R157 (R159). -/
def State.chkCid (s : State) (q opc : Nat) (c : NvmeCmd) : Option State :=
  if s.cidBusy q c.cid then some (s.violAnswer q 0x01 c.cid (opc % 256) 0 0x03) else none

/-- Step 3 of R157: the row gives the opcode; FUSE bits are zero (R147). -/
def State.chkFuse (s : State) (q : Nat) (c : NvmeCmd) : Option State :=
  if c.fuse ≠ 0 then some (s.violAnswer q 0x42 c.cid c.fuse 0 0x02) else none

/-- Step 4 of R157: namespace and attachment, ANA state, slice state. NSID n names namespace n (log 15). -/
def State.chkNs (s : State) (q : Nat) (c : NvmeCmd) : Option State :=
  match s.nsOf c.nsid, s.ctlOf q with
  | some n, some (_, k) =>
    if n.desc.slice ≠ k.slice then some (s.violAnswer q 0x40 c.cid c.nsid 0 0x0B)
    else if s.anaOf n.desc.group = 0xF then some (s.answer q c.cid 3 0x03 false)
    else if s.anaOf n.desc.group = 3 then some (s.answer q c.cid 3 0x02 false)
    else if sdState (s.sliceDesc (k.slice % 4096)) ≠ 1 then some (s.answer q c.cid 0 0x82 false)
    else none
  | _, _ => some (s.violAnswer q 0x40 c.cid c.nsid 0 0x0B)

/-- Blocks of a namespace. -/
def nsBlocks (d : NsDesc) : Nat := if d.lbaf = 1 then d.size * 8 else d.size

/-- Step 5 of R157: command fields. -/
def State.chkFields (s : State) (q opc : Nat) (c : NvmeCmd) : Option State :=
  match s.nsOf c.nsid with
  | none => none
  | some n =>
    let blocks := nsBlocks n.desc
    let bs := blockSize n.desc.lbaf
    if n.desc.view && writes opc then some (s.answer q c.cid 0 0x20 true)
    else if opc = oCopy ∧ c.ranges.length ≠ 1 then some (s.violAnswer q 0x41 c.cid 1 c.ranges.length 0x02)
    else if opc = oCopy ∧ mdts < (nthD c.ranges 0 (0, 0)).2 * bs then
      some (s.violAnswer q 0x43 c.cid mdts ((nthD c.ranges 0 (0, 0)).2 * bs) 0x02)
    else if opc = oCopy ∧ n.desc.lbaf = 1 ∧ ((nthD c.ranges 0 (0, 0)).1 % 8 ≠ 0 ∨ (nthD c.ranges 0 (0, 0)).2 % 8 ≠ 0 ∨ c.slba % 8 ≠ 0) then
      some (s.answer q c.cid 0 0x02 true)
    else if opc = oDsm ∧ 256 < c.ranges.length then some (s.answer q c.cid 0 0x02 true)
    else
      let own := if opc = oCopy then [(c.slba, (nthD c.ranges 0 (0, 0)).2)]
        else if moves opc ∨ opc = oWz then [(c.slba, c.nlb)] else []
      let rs := own ++ (if opc = oCopy ∨ opc = oDsm then c.ranges else [])
      if rs.any (fun r => decide (blocks < r.1 + r.2)) then some (s.answer q c.cid 0 0x80 true) else none

/-- A descriptor form Table 4-3 allows on a transport. -/
def sglOk (xport : Nat) (g : Sgl) : Bool :=
  if xport = 1 then (g.typ == 0 && g.sub == 1) || (g.typ == 5 && g.sub == 0xA)
  else if xport = 2 then (g.typ == 4 && (g.sub == 0 || g.sub == 0xF)) || (g.typ == 0 && g.sub == 1)
  else (g.typ == 0 || g.typ == 2 || g.typ == 3) && g.sub == 0

/-- Bytes a command transfers: NLB × extended block size (R151, VCODE 0x13). -/
def State.wireBytes (s : State) (c : NvmeCmd) : Nat :=
  let l := s.lbafOf c.nsid
  c.nlb * (blockSize l + metaSize l)

/-- The blocks a command of Table 4-4 names fix its transfer: VCODE 0x13 compares with them. -/
def State.sglWant (s : State) (opc : Nat) (c : NvmeCmd) : Option Nat := if moves opc then some (s.wireBytes c) else none

/-- Step 6 of R157: SGL form and lengths, and MDTS. A command other than Read, Write and Compare has no length by blocks, and is
held to the form of the descriptors it brings. -/
def State.chkSgl (s : State) (q opc : Nat) (k : Conn) (c : NvmeCmd) : Option State :=
  if !moves opc && c.sgls == [] && c.badPrp.isNone then none
  else
    let want := (s.sglWant opc c).getD (sumL ((c.sgls.filter (fun g => g.typ != 2 && g.typ != 3)).map (fun g => g.len)))
    let total := sumL ((c.sgls.filter (fun g => g.typ != 2 && g.typ != 3)).map (fun g => g.len))
    let max := if k.xport = 1 then 1 else if k.xport = 2 then (if c.sgls.any (fun g => g.typ == 0) then 1 else 16) else c.sgls.length
    match c.badPrp with
    | some (i, o) => some (s.violAnswer q 0x31 c.cid i o 0x13)
    | none =>
      if k.xport = 3 ∧ c.sgls = [] then
        (if mdts < want then some (s.violAnswer q 0x15 c.cid mdts want 0x02) else none)
      else
        match c.sgls.find? (fun g => !sglOk k.xport g) with
        | some g => some (s.violAnswer q 0x10 c.cid (g.typ * 16 + g.sub) 0 0x11)
        | none =>
          if max < c.sgls.length then some (s.violAnswer q 0x12 c.cid max c.sgls.length 0x0E)
          else
            match c.sgls.find? (fun g => (g.typ == 2 || g.typ == 3) && (g.len % 16 != 0 || decide (256 < g.len))) with
            | some g => some (s.violAnswer q 0x11 c.cid g.len 0 0x0D)
            | none =>
              if total ≠ want then some (s.violAnswer q 0x13 c.cid want total 0x0F)
              else if k.xport = 2 ∧ c.sgls.any (fun g => g.typ == 0) ∧ c.icd.length ≠ total then
                some (s.violAnswer q 0x21 c.cid total c.icd.length 0x0F)
              else
                match c.sgls.find? (fun g => g.typ == 0 && k.xport != 3 && decide (c.icd.length < g.off)) with
                | some g => some (s.violAnswer q 0x14 c.cid g.off c.icd.length 0x16)
                | none => if mdts < want then some (s.violAnswer q 0x15 c.cid mdts want 0x02) else none

/-- The checks of R157 up to step 6, in order, for a command on a namespace; the answer of the first that fails. -/
def State.check (s : State) (q opc : Nat) (k : Conn) (c : NvmeCmd) : Option State :=
  (s.chkTransport q k c).orElse fun _ => (s.chkCid q opc c).orElse fun _ => (s.chkFuse q c).orElse fun _ =>
    (s.chkNs q c).orElse fun _ => (s.chkFields q opc c).orElse fun _ => s.chkSgl q opc k c

/-- The checks of an admin command: steps 1 to 3 and 6; the namespace, where one is named, is looked up by the command. -/
def State.checkAdmin (s : State) (q opc : Nat) (k : Conn) (c : NvmeCmd) : Option State :=
  (s.chkTransport q k c).orElse fun _ => (s.chkCid q opc c).orElse fun _ => (s.chkFuse q c).orElse fun _ => s.chkSgl q opc k c

/-! ## Protection Information (R151 to R155) -/

/-- Reference tag of an LBA (Table 4-5). -/
def refTag (lbaf lba : Nat) : Nat := if lbaf = 2 then lba % 2 ^ 32 else lba % 2 ^ 48

/-- Guard of a block's data (Table 4-5). -/
def guardOf (lbaf : Nat) (d : Bytes) : Nat := if lbaf = 2 then crc16 d else crc64 d

/-- The metadata of a block: guard, application tag, reference tag, big-endian (R11). -/
def piBytes (lbaf : Nat) (d : Bytes) (tag lba : Nat) : Bytes :=
  if lbaf = 2 then be (guardOf lbaf d) 2 ++ be tag 2 ++ be (refTag lbaf lba) 4
  else be (guardOf lbaf d) 8 ++ be tag 2 ++ be (refTag lbaf lba) 6

/-- Guard, application tag and reference tag of a block's metadata. -/
def piParse (lbaf : Nat) (m : Bytes) : Nat × Nat × Nat :=
  if lbaf = 2 then (beVal (slice m 0 2), beVal (slice m 2 2), beVal (slice m 4 4))
  else (beVal (slice m 0 8), beVal (slice m 8 2), beVal (slice m 10 6))

/-- The check of one block as PRCHK selects, in the order guard, application tag, reference tag (R152): a status, or
none when it passes. PRCHK bit 2 selects the guard, bit 1 the application tag, bit 0 the reference tag. -/
def piCheck (prchk lbat lbatm g tag r gw rw : Nat) : Option Nat :=
  if tag = 0xFFFF then none
  else if bit prchk 2 && g != gw then some 0x82
  else if bit prchk 1 && (tag &&& lbatm) != (lbat &&& lbatm) then some 0x83
  else if bit prchk 0 && r != rw then some 0x84
  else none

/-! ## Reservations (R150, Table 4-4) -/

def State.resvOf (s : State) (ns : Nat) : Resv := agetD s.io.resv ns {}

/-- Host identifier behind a queue pair. -/
def State.hostOf (s : State) (q : Nat) : Bytes := match s.ctlOf q with | some (_, k) => padTo 16 k.hostId | none => zeros 16

/-- A host is registered. -/
def isReg (r : Resv) (h : Bytes) : Bool := r.regs.any (fun e => e.1 == h)

/-- A host holds the reservation: its holder, or any registrant for the all-registrants types 5 and 6. -/
def holds (r : Resv) (h : Bytes) : Bool :=
  match r.holder with
  | none => false
  | some x => x == h || (decide (5 ≤ r.typ) && isReg r h)

/-- A command conflicts with the namespace's reservation: types 1, 3 and 5 exclude writes, 2, 4 and 6 all access;
registrants are let through by types 3 to 6. -/
def resConflict (r : Resv) (h : Bytes) (opc : Nat) : Bool :=
  if r.holder.isNone || holds r h then false
  else
    let member := decide (3 ≤ r.typ) && isReg r h
    let rd := opc == oRead || opc == oCompare
    if opc = oFlush then (r.typ == 1 || r.typ == 2) && !member
    else if rd then (r.typ % 2 == 0) && !member
    else !member

/-- Data of a Reservation Report: generation, type, registrants. -/
def resReport (r : Resv) : Bytes :=
  le r.gen 4 ++ le (if r.holder.isSome then r.typ else 0) 1 ++ le r.regs.length 2 ++ zeros 2 ++ le (b2n r.ptpl) 1 ++ zeros 54 ++
    r.regs.flatMap (fun e => le 0xFFFF 2 ++ le (b2n (holds r e.1)) 1 ++ zeros 5 ++ le e.2 8 ++ padTo 16 e.1 ++ zeros 32)

/-- The reservation after losing a registrant: the last one of an all-registrants type, or the holder, takes it along. -/
def dropReg (r : Resv) (h : Bytes) : Resv :=
  let regs := r.regs.filter (fun e => e.1 != h)
  let lost := r.holder == some h && (decide (r.typ < 5) || regs.isEmpty)
  { r with regs := regs, holder := if lost then none else if r.holder == some h then (regs.head?).map Prod.fst else r.holder, typ := if lost then 0 else r.typ }

/-- Reservation Register: the reservation after it, or a conflict. -/
def resRegister (r : Resv) (h : Bytes) (action : Nat) (iekey : Bool) (cr nr : Nat) : Option Resv :=
  let mine := (r.regs.find? (fun e => e.1 == h)).map Prod.snd
  match action with
  | 0 =>
    (match mine with
     | none => some { r with gen := r.gen + 1, regs := r.regs ++ [(h, nr)] }
     | some k => if k = nr then some r else none)
  | 1 => if mine.isSome && (iekey || mine == some cr) then some { dropReg r h with gen := r.gen + 1 } else none
  | _ => if mine.isSome && (iekey || mine == some cr) then
      some { r with gen := r.gen + 1, regs := r.regs.map (fun e => if e.1 == h then (e.1, nr) else e) } else none

/-- Reservation Acquire. -/
def resAcquire (r : Resv) (h : Bytes) (action typ : Nat) (iekey : Bool) (cr pr : Nat) : Option Resv :=
  let mine := (r.regs.find? (fun e => e.1 == h)).map Prod.snd
  if !(mine.isSome && (iekey || mine == some cr)) then none
  else if action = 0 then
    (match r.holder with
     | none => some { r with holder := some h, typ := typ }
     | some _ => if holds r h && r.typ == typ then some r else none)
  else
    let hit := r.regs.filter (fun e => e.2 == pr && e.1 != h)
    let holderKey := r.holder.bind (fun x => (r.regs.find? (fun e => e.1 == x)).map Prod.snd)
    let all := decide (5 ≤ r.typ) && pr == 0
    let gone := if all then r.regs.filter (fun e => e.1 != h) else hit
    if gone.isEmpty && !(r.holder == some h && holderKey == some pr) then none
    else
      let takes := r.holder.isSome && (all || holderKey == some pr)
      some { r with gen := r.gen + 1, regs := r.regs.filter (fun e => !gone.contains e), holder := if takes then some h else r.holder
                    typ := if takes then typ else r.typ }

/-- Reservation Release. -/
def resRelease (r : Resv) (h : Bytes) (action typ : Nat) (iekey : Bool) (cr : Nat) : Option (Option Resv) :=
  let mine := (r.regs.find? (fun e => e.1 == h)).map Prod.snd
  if !(mine.isSome && (iekey || mine == some cr)) then none
  else if action = 1 then some (some { r with gen := r.gen + 1, regs := [], holder := none, typ := 0 })
  else if r.holder.isSome && holds r h then
    (if r.typ = typ then some (some { r with holder := none, typ := 0 }) else some none)
  else some (some r)

/-- What a reservation command carries: its keys, and the identifier of its host. -/
def resData (data host : Bytes) : Bytes := padTo 16 (data.take 16) ++ padTo 16 host

/-- Carry out a reservation command on its namespace (R150): the status, and the reservation after it. -/
def resDo (r : Resv) (h : Bytes) (opc cdw10 : Nat) (data : Bytes) : Nat × Resv :=
  let a := fld cdw10 0 3
  let ie := bit cdw10 3
  let t := fld cdw10 8 8
  let badT := t = 0 ∨ 6 < t
  if opc = oResReg then
    (if 2 < a then (0x02, r) else match resRegister r h a ie (leAt data 0 8) (leAt data 8 8) with
      | some r => (0, { r with ptpl := if fld cdw10 30 2 = 2 then false else if fld cdw10 30 2 = 3 then true else r.ptpl })
      | none => (0x83, r))
  else if opc = oResAcq then
    (if 2 < a ∨ badT then (0x02, r) else match resAcquire r h a t ie (leAt data 0 8) (leAt data 8 8) with
      | some r => (0, r)
      | none => (0x83, r))
  else
    (if 1 < a ∨ (a = 0 ∧ badT) then (0x02, r) else match resRelease r h a t ie (leAt data 0 8) with
      | some (some r) => (0, r)
      | some none => (0x02, r)
      | none => (0x83, r))

/-- Make the change of a reservation command, keys and host given as resData does: the status, and the state after it. -/
def State.resApply (s : State) (ns opc cdw10 : Nat) (data : Bytes) : Nat × State :=
  let (sc, r) := resDo (s.resvOf ns) (slice data 16 16) opc cdw10 data
  (sc, if sc = 0 then { s with io := { s.io with resv := aset s.io.resv ns r } } else s)

/-- The four reservation commands (R150). -/
def isResv (opc : Nat) : Bool := opc == oResReg || opc == oResRep || opc == oResAcq || opc == oResRel

/-! ## Taking a command in -/

/-- A command in flight made from an arriving one. -/
def State.mkCmd (s : State) (q opc : Nat) (c : NvmeCmd) : IoCmd :=
  { conn := some q, cid := c.cid, opc := opc, slice := s.connSlice q, ns := c.nsid, slba := c.slba, nlb := c.nlb
    pract := c.pract, prchk := c.prchk, lbat := c.lbat + 65536 * c.lbatm, at0 := s.now, ranges := c.ranges, deac := c.deac }

/-- A command capsule reaches its queue: a RoCEv2 Send takes a PSN for each packet of up to 4,096 B (R164, log 92), and the port may
send flow control. -/
def State.arrived (s : State) (q : Nat) (c : NvmeCmd) : State :=
  (s.updConn q (fun k => if k.xport = 2 then { k with psn := (k.psn + cdiv (64 + c.icd.length) 4096) % 16777216 } else k)).flowControl q

/-- Insert a command at admission, counting its cost as arrived (R192); one the partner forwarded was counted where it arrived. -/
def State.insertCmd (s : State) (c : IoCmd) : Nat × State :=
  let op := s.io.nextOp
  let i := c.slice % 4096
  let bc := s.byteCost c
  let s := { s with io := { s.io with cmds := aset s.io.cmds op { c with adm := op }, nextOp := op + 1 } }
  (op, if c.fromPartner then s else s.updDyn i (fun d =>
    { d with ops := { d.ops with arrived := d.ops.arrived + opCost c.opc, own := d.ops.own + opCost c.opc }
             byt := { d.byt with arrived := d.byt.arrived + bc, own := d.byt.own + bc } }))

end Sys2Proof.Machine
end

