-- ==== Sys2Proof/Machine/Zstd.lean ====
section
/-! DEFINITION. Zstandard frames as CMP writes and reads them (R231 to R233, RFC 8878). -/
namespace Sys2Proof.Machine

/-- The frame of Table 6-2 around one block: type 1 RLE or 2 Compressed, and the block's Block_Size. -/
def zstdFrame (typ size : Nat) (content : Bytes) : Bytes :=
  le 0xFD2FB528 4 ++ le 0x60 1 ++ le 0x0F00 2 ++ le (1 + typ * 2 + size * 8) 3 ++ content

/-- All bytes of a run are equal to its first. -/
def constRun (l : Bytes) : Bool :=
  match l with
  | [] => false
  | b :: t => t.all (fun x => x == b)

/-! ## The decoder: any block type (R233; the format is RFC 8878's) -/

/-- Position of the highest set bit, 0 for 0. -/
def hiBit (n : Nat) : Nat := Nat.log2 n

/-- A bit stream read backwards: its bytes as a number, and the bits not yet read. -/
structure BackBits where
  n : Nat
  p : Int

/-- Open a backward stream at the marker bit of its last byte. -/
def backOpen (l : Bytes) : Option BackBits :=
  match l.getLast? with
  | some b => if b = 0#8 then none else some ⟨leVal l, (hiBit (leVal l) : Int)⟩
  | none => none

/-- Look at the next k bits; bits before the start of the stream read 0. -/
def BackBits.peek (b : BackBits) (k : Nat) : Nat :=
  if b.p ≤ 0 then 0
  else
    let p := b.p.toNat
    if k ≤ p then b.n / 2 ^ (p - k) % 2 ^ k else b.n % 2 ^ p * 2 ^ (k - p)

def BackBits.skip (b : BackBits) (k : Nat) : BackBits := { b with p := b.p - k }

/-! ### FSE tables -/

/-- An FSE table: accuracy log and, per state, symbol, bits to read and base of the next state. -/
structure Fse where
  al  : Nat
  tab : List (Nat × Nat × Nat)

/-- Zero-count repeats after a probability of 0: number of zeros and the bit position after them. -/
def fseZeros (n : Nat) : Nat → Nat → Nat → Nat × Nat
  | 0, pos, acc => (acc, pos)
  | k + 1, pos, acc =>
    let r := n / 2 ^ pos % 4
    if r = 3 then fseZeros n k (pos + 2) (acc + 3) else (acc + r, pos + 2)

/-- Normalised counts read forward from a bit position. -/
def fseCounts (n : Nat) : Nat → Nat → Nat → List Int → Option (List Int × Nat)
  | 0, _, _, _ => none
  | k + 1, remaining, pos, acc =>
    if remaining = 0 then some (acc, pos)
    else
      let bits := hiBit (remaining + 1) + 1
      let v := n / 2 ^ pos % 2 ^ bits
      let mask := 2 ^ (bits - 1)
      let thr := 2 ^ bits - 1 - (remaining + 1)
      let (v, pos) := if v % mask < thr then (v % mask, pos + bits - 1) else (if mask ≤ v then v - thr else v, pos + bits)
      let pr : Int := (v : Int) - 1
      let used := pr.natAbs
      if remaining < used then none
      else
        let acc := acc ++ [pr]
        if pr = 0 then
          let (z, pos) := fseZeros n 128 pos 0
          fseCounts n k remaining pos (acc ++ List.replicate z 0)
        else fseCounts n k (remaining - used) pos acc

/-- Spread one symbol over the next positions below the high threshold. -/
def fseSpread (size hi step sym : Nat) : Nat → Nat → List Nat → Nat × List Nat
  | 0, pos, l => (pos, l)
  | k + 1, pos, l =>
    let l := setNth l pos sym
    let rec next (fuel p : Nat) : Nat :=
      match fuel with
      | 0 => p
      | f + 1 => let q := (p + step) % size; if hi ≤ q then next f q else q
    fseSpread size hi step sym k (next size pos) l

/-- The table of an accuracy log and normalised counts. -/
def fseBuild (al : Nat) (cs : List Int) : Option Fse :=
  let size := 2 ^ al
  let low := cs.zipIdx.filter (fun c => c.1 == -1)
  let hi := size - low.length
  let base := low.zipIdx.foldl (fun l c => setNth l (size - 1 - c.2) c.1.2) (List.replicate size 0)
  let (pos, syms) := cs.zipIdx.foldl (fun (x : Nat × List Nat) c =>
    if 0 < c.1 then fseSpread size hi (size / 2 + size / 8 + 3) c.2 c.1.toNat x.1 x.2 else x) (0, base)
  if pos ≠ 0 then none
  else
    let r := syms.foldl (fun (x : List Nat × List (Nat × Nat × Nat)) sym =>
      let d := nthD x.1 sym 1
      let nb := al - hiBit d
      (setNth x.1 sym (d + 1), (sym, nb, d * 2 ^ nb - size) :: x.2)) (cs.map (fun c => if c = -1 then 1 else c.toNat), [])
    some ⟨al, r.2.reverse⟩

/-- A table read from a byte run with a largest accuracy log: the table and the bytes it took. -/
def fseRead (l : Bytes) (maxAl : Nat) : Option (Fse × Nat) :=
  let n := leVal (l.take 512)
  let al := n % 16 + 5
  if maxAl < al then none
  else
    match fseCounts n 256 (2 ^ al) 4 [] with
    | some (cs, pos) => (fseBuild al cs).map (fun t => (t, cdiv pos 8))
    | none => none

def Fse.at (t : Fse) (st : Nat) : Nat × Nat × Nat := nthD t.tab st (0, 0, 0)

/-! ### Huffman tables -/

/-- A Huffman table: longest code and, per prefix of that length, symbol and bits. -/
structure Huf where
  maxBits : Nat
  tab : List (Nat × Nat)

/-- Weights of FSE-coded Huffman headers, two interleaved states until the stream runs out. -/
def hufWeightsFse (t : Fse) : Nat → BackBits → Nat → Nat → List Nat → Option (List Nat)
  | 0, _, _, _, _ => none
  | k + 1, b, s1, s2, acc =>
    let (w, nb, base) := t.at s1
    let acc := acc ++ [w]
    let s1' := base + b.peek nb
    let b := b.skip nb
    if b.p < 0 then some (acc ++ [(t.at s2).1]) else hufWeightsFse t k b s2 s1' acc

/-- The table of a list of weights, the last weight implied. -/
def hufBuild (ws : List Nat) : Option Huf :=
  let sum := sumL (ws.map (fun w => if w = 0 then 0 else 2 ^ (w - 1)))
  if sum = 0 then none
  else
    let mb := hiBit sum + 1
    let left := 2 ^ mb - sum
    if left ≠ 2 ^ hiBit left ∨ 11 < mb then none
    else
      let ws := ws ++ [hiBit left + 1]
      let byW := (List.range mb).map (fun i => i + 1)
      let tab := byW.flatMap (fun w => (ws.zipIdx.filter (fun x => x.1 == w)).flatMap (fun x => List.replicate (2 ^ (w - 1)) (x.2, mb + 1 - w)))
      if tab.length = 2 ^ mb then some ⟨mb, tab⟩ else none

/-- A Huffman tree description: the table and the bytes it took. -/
def hufRead (l : Bytes) : Option (Huf × Nat) :=
  match l with
  | [] => none
  | h :: t =>
    let hb := h.toNat
    if 128 ≤ hb then
      let n := hb - 127
      let ws := (List.range n).map (fun i => let b := (nthD t (i / 2) 0#8).toNat; if i % 2 = 0 then b / 16 else b % 16)
      if t.length < (n + 1) / 2 then none else (hufBuild ws).map (fun x => (x, 1 + (n + 1) / 2))
    else
      let body := t.take hb
      match fseRead body 6 with
      | some (f, used) =>
        match backOpen (body.drop used) with
        | some b =>
          let s1 := b.peek f.al
          let b := b.skip f.al
          let s2 := b.peek f.al
          let b := b.skip f.al
          (match hufWeightsFse f 256 b s1 s2 [] with
           | some ws => (hufBuild ws).map (fun x => (x, 1 + hb))
           | none => none)
        | none => none
      | none => none

/-- Decode n symbols of one Huffman stream that they use up exactly. -/
def hufStream (h : Huf) : Nat → BackBits → Bytes → Option Bytes
  | 0, b, acc => if b.p = 0 then some acc.reverse else none
  | k + 1, b, acc =>
    let (sym, nb) := nthD h.tab (b.peek h.maxBits) (0, 0)
    if b.p < nb ∨ nb = 0 then none else hufStream h k (b.skip nb) (BitVec.ofNat 8 sym :: acc)

def hufOne (h : Huf) (l : Bytes) (n : Nat) : Option Bytes := (backOpen l).bind (fun b => hufStream h n b [])

/-! ### Blocks -/

/-- What one block leaves for the next: tables and repeat offsets. -/
structure ZCtx where
  huf : Option Huf := none
  ll  : Option Fse := none
  off : Option Fse := none
  ml  : Option Fse := none
  rep : Nat × Nat × Nat := (1, 4, 8)

def llDefault : List Int := [4, 3, 2, 2, 2, 2, 2, 2, 2, 2, 2, 2, 2, 1, 1, 1, 2, 2, 2, 2, 2, 2, 2, 2, 2, 3, 2, 1, 1, 1, 1, 1, -1, -1, -1, -1]
def ofDefault : List Int := [1, 1, 1, 1, 1, 1, 2, 2, 2, 1, 1, 1, 1, 1, 1, 1, 1, 1, 1, 1, 1, 1, 1, 1, -1, -1, -1, -1, -1]
def mlDefault : List Int :=
  [1, 4, 3, 2, 2, 2, 2, 2, 2] ++ List.replicate 37 1 ++ List.replicate 7 (-1)

/-- Baseline and extra bits of a literal length code. -/
def llCode (c : Nat) : Nat × Nat :=
  if c < 16 then (c, 0)
  else nthD [(16, 1), (18, 1), (20, 1), (22, 1), (24, 2), (28, 2), (32, 3), (40, 3), (48, 4), (64, 6), (128, 7), (256, 8), (512, 9),
    (1024, 10), (2048, 11), (4096, 12), (8192, 13), (16384, 14), (32768, 15), (65536, 16)] (c - 16) (0, 0)

/-- Baseline and extra bits of a match length code. -/
def mlCode (c : Nat) : Nat × Nat :=
  if c < 32 then (c + 3, 0)
  else nthD [(35, 1), (37, 1), (39, 1), (41, 1), (43, 2), (47, 2), (51, 3), (59, 3), (67, 4), (83, 4), (99, 5), (131, 7), (259, 8),
    (515, 9), (1027, 10), (2051, 11), (4099, 12), (8195, 13), (16387, 14), (32771, 15), (65539, 16)] (c - 32) (0, 0)

/-- The literals section: literals, Huffman table for later blocks, bytes taken. -/
def zLiterals (x : ZCtx) (l : Bytes) : Option (Bytes × Option Huf × Nat) :=
  let h := leVal (l.take 5)
  let typ := h % 4
  let sf := h / 4 % 4
  if typ < 2 then
    let (n, k) := if sf % 2 = 0 then (h % 256 / 8, 1) else if sf = 1 then (h % 65536 / 16, 2) else (h % 2 ^ 24 / 16, 3)
    if typ = 0 then (if l.length < k + n then none else some (slice l k n, x.huf, k + n))
    else
      match l.drop k with
      | b :: _ => some (List.replicate n b, x.huf, k + 1)
      | [] => none
  else
    let (regen, comp, k) :=
      if sf < 2 then (h / 16 % 1024, h / 2 ^ 14 % 1024, 3)
      else if sf = 2 then (h / 16 % 16384, h / 2 ^ 18 % 16384, 4) else (h / 16 % 262144, h / 2 ^ 22 % 262144, 5)
    let body := slice l k comp
    if body.length < comp ∨ 131072 < regen then none
    else
      match (if typ = 2 then (hufRead body).map (fun r => (r.1, body.drop r.2)) else x.huf.map (fun h => (h, body))) with
      | none => none
      | some (huf, st) =>
        let out :=
          if sf = 0 then hufOne huf st regen
          else
            let a := leAt st 0 2
            let b := leAt st 2 2
            let c := leAt st 4 2
            let q := (regen + 3) / 4
            if st.length < 6 + a + b + c ∨ regen < 3 * q then none
            else
              match hufOne huf (slice st 6 a) q, hufOne huf (slice st (6 + a) b) q, hufOne huf (slice st (6 + a + b) c) q,
                  hufOne huf (st.drop (6 + a + b + c)) (regen - 3 * q) with
              | some w, some x, some y, some z => some (w ++ x ++ y ++ z)
              | _, _, _, _ => none
        out.map (fun o => (o, some huf, k + comp))

/-- One of the three sequence tables by its mode: the table and the bytes taken. -/
def zTable (mode : Nat) (prev : Option Fse) (al : Nat) (dflt : List Int) (maxAl : Nat) (l : Bytes) : Option (Fse × Nat) :=
  if mode = 0 then (fseBuild al dflt).map (fun t => (t, 0))
  else if mode = 1 then
    match l with
    | b :: _ => some (⟨0, [(b.toNat, 0, 0)]⟩, 1)
    | [] => none
  else if mode = 2 then fseRead l maxAl
  else prev.map (fun t => (t, 0))

/-- Append n bytes copied from an offset back in the output, which is held newest first. -/
def zCopy (off : Nat) : Nat → Bytes → Bytes
  | 0, o => o
  | n + 1, o => zCopy off n (nthD o (off - 1) 0#8 :: o)

/-- The sequences of a block executed: literals left, output (newest first), repeat offsets, all within the output bound. -/
def zSeqs (ll off ml : Fse) (total : Nat) : Nat → BackBits → Nat → Nat → Nat → Bytes → Bytes → Nat × Nat × Nat → Option (Bytes × Bytes × (Nat × Nat × Nat))
  | 0, b, _, _, _, lits, out, rep => if b.p = 0 then some (lits, out, rep) else none
  | k + 1, b, sl, so, sm, lits, out, rep =>
    let oc := (off.at so).1
    let (mb, me) := mlCode (ml.at sm).1
    let (lb, le_) := llCode (ll.at sl).1
    let ov := 2 ^ oc + b.peek oc
    let b := b.skip oc
    let mlen := mb + b.peek me
    let b := b.skip me
    let llen := lb + b.peek le_
    let b := b.skip le_
    let idx := ov - 1 + (if llen = 0 then 1 else 0)
    let (o, rep) :=
      if 3 < ov then (ov - 3, (ov - 3, rep.1, rep.2.1))
      else if idx = 0 then (rep.1, rep)
      else if idx = 1 then (rep.2.1, (rep.2.1, rep.1, rep.2.2))
      else if idx = 2 then (rep.2.2, (rep.2.2, rep.1, rep.2.1))
      else (rep.1 - 1, (rep.1 - 1, rep.1, rep.2.1))
    if lits.length < llen ∨ b.p < 0 then none
    else
      let out := (lits.take llen).reverse ++ out
      if o = 0 ∨ out.length < o ∨ 4096 < out.length + mlen then none
      else
        let out := zCopy o mlen out
        let up := fun (t : Fse) (st : Nat) (b : BackBits) => let e := t.at st; (e.2.2 + b.peek e.2.1, b.skip e.2.1)
        if k = 0 then zSeqs ll off ml total k b sl so sm (lits.drop llen) out rep
        else
          let (sl, b) := up ll sl b
          let (sm, b) := up ml sm b
          let (so, b) := up off so b
          zSeqs ll off ml total k b sl so sm (lits.drop llen) out rep

/-- A compressed block appended to the output, which is held newest first. -/
def zBlock (x : ZCtx) (l : Bytes) (out : Bytes) : Option (ZCtx × Bytes) :=
  match zLiterals x l with
  | none => none
  | some (lits, huf, used) =>
    let r := l.drop used
    let b0 := leAt r 0 1
    if r = [] then none
    else if b0 = 0 then (if r.length = 1 then some ({ x with huf := huf }, lits.reverse ++ out) else none)
    else
      let (n, k) := if b0 < 128 then (b0, 1) else if b0 < 255 then ((b0 - 128) * 256 + leAt r 1 1, 2) else (leAt r 1 2 + 0x7F00, 3)
      let modes := leAt r k 1
      if modes % 4 ≠ 0 then none
      else
        match zTable (modes / 64) x.ll 6 llDefault 9 (r.drop (k + 1)) with
        | none => none
        | some (tl, u1) =>
          match zTable (modes / 16 % 4) x.off 5 ofDefault 8 (r.drop (k + 1 + u1)) with
          | none => none
          | some (to_, u2) =>
            match zTable (modes / 4 % 4) x.ml 6 mlDefault 9 (r.drop (k + 1 + u1 + u2)) with
            | none => none
            | some (tm, u3) =>
              match backOpen (r.drop (k + 1 + u1 + u2 + u3)) with
              | none => none
              | some b =>
                let sl := b.peek tl.al
                let b := b.skip tl.al
                let so := b.peek to_.al
                let b := b.skip to_.al
                let sm := b.peek tm.al
                let b := b.skip tm.al
                match zSeqs tl to_ tm n n b sl so sm lits out x.rep with
                | some (rest, out, rep) =>
                  some ({ huf := huf, ll := some tl, off := some to_, ml := some tm, rep := rep }, rest.reverse ++ out)
                | none => none

/-- Blocks up to the last one: output (newest first) and bytes taken. -/
def zBlocks : Nat → ZCtx → Bytes → Bytes → Nat → Option (Bytes × Nat)
  | 0, _, _, _, _ => none
  | k + 1, x, l, out, used =>
    let h := leAt l 0 3
    let typ := h / 2 % 4
    let size := h / 8
    if l.length < 3 ∨ 4096 < out.length then none
    else
      let n := if typ = 1 then 1 else size
      let body := slice l 3 n
      if body.length < n then none
      else
        let r := if typ = 0 then some (x, body.reverse ++ out)
          else if typ = 1 then (if 4096 < size then none else some (x, List.replicate size (nthD body 0 0#8) ++ out))
          else if typ = 2 then zBlock x body out else none
        match r with
        | none => none
        | some (x, out) => if h % 2 = 1 then some (out, used + 3 + n) else zBlocks k x (l.drop (3 + n)) out (used + 3 + n)

/-! ### XXH64, the content checksum -/

def xxP1 : BitVec 64 := 0x9E3779B185EBCA87#64
def xxP2 : BitVec 64 := 0xC2B2AE3D27D4EB4F#64
def xxP3 : BitVec 64 := 0x165667B19E3779F9#64
def xxP4 : BitVec 64 := 0x85EBCA77C2B2AE63#64
def xxP5 : BitVec 64 := 0x27D4EB2F165667C5#64

def xxRound (a x : BitVec 64) : BitVec 64 := (a + x * xxP2).rotateLeft 31 * xxP1
def xxWord (l : Bytes) (i : Nat) : BitVec 64 := BitVec.ofNat 64 (leAt l i 8)

/-- XXH64 with seed 0 of a run whose length is a multiple of 32 bytes. -/
def xxh64 (l : Bytes) : BitVec 64 :=
  let step := fun (v : List (BitVec 64)) (i : Nat) =>
    (List.range 4).map (fun j => xxRound (nthD v j 0#64) (xxWord l (32 * i + 8 * j)))
  let v := (List.range (l.length / 32)).foldl step [xxP1 + xxP2, xxP2, 0#64, 0#64 - xxP1]
  let g := fun (j : Nat) => nthD v j 0#64
  let h := (g 0).rotateLeft 1 + (g 1).rotateLeft 7 + (g 2).rotateLeft 12 + (g 3).rotateLeft 18
  let h := v.foldl (fun h a => (h ^^^ xxRound 0#64 a) * xxP1 + xxP4) h
  let h := h + BitVec.ofNat 64 l.length
  let h := (h ^^^ (h >>> 33)) * xxP2
  let h := (h ^^^ (h >>> 29)) * xxP3
  h ^^^ (h >>> 32)

/-- Decode a frame under R233: its 4,096 bytes and the length of the frame. -/
def zstdDecode (l : Bytes) : Option (Bytes × Nat) :=
  let fhd := leAt l 4 1
  let single := bit fhd 5
  let wd := leAt l 5 1
  let k := if single then 5 else 6
  let win := let b := 2 ^ (10 + wd / 8); b + b / 8 * (wd % 8)
  let dl := nthD [0, 1, 2, 4] (fhd % 4) 0
  let fl := nthD [if single then 1 else 0, 2, 4, 8] (fhd / 64) 0
  let dict := leAt l k dl
  let fcs := leAt l (k + dl) fl + (if fl = 2 then 256 else 0)
  if leAt l 0 4 ≠ 0xFD2FB528 ∨ bit fhd 3 = true ∨ dict ≠ 0 ∨ (single = false ∧ 4096 < win) ∨ (fl ≠ 0 ∧ fcs ≠ 4096) then none
  else
    let hd := k + dl + fl
    match zBlocks 4096 {} (l.drop hd) [] hd with
    | none => none
    | some (out, used) =>
      if out.length ≠ 4096 then none
      else
        let d := out.reverse
        if bit fhd 2 then
          (if leAt l used 4 = (xxh64 d).toNat % 2 ^ 32 ∧ used + 4 ≤ l.length then some (d, used + 4) else none)
        else some (d, used)

end Sys2Proof.Machine
end

