-- ==== Sys2Proof/Machine/WritePath.lean ====
section
/-! DEFINITION. The write path: grains, lookup, compression, sealing, change groups, mirroring and acknowledge (R212 to R250). -/
namespace Sys2Proof.Machine

/-! ## Grains of commands -/

def State.updGrain (s : State) (op i : Nat) (f : Grain → Grain) : State :=
  s.updCmd op (fun c => { c with grains := match c.grains[i]? with | some g => setNth c.grains i (f g) | none => c.grains })

def State.grainAt (s : State) (op i : Nat) : Option (IoCmd × Grain) :=
  match aget s.io.cmds op with
  | some c => (c.grains[i]?).map (fun g => (c, g))
  | none => none

/-- The domain, pool and key slot that a namespace's grains use. -/
def State.domainOf (s : State) (slice : Nat) : Nat := sdDomain (s.sliceDesc (slice % 4096))
def State.poolOf (s : State) (ns : Nat) : Nat := ((aget s.maps.nss ns).map (fun n => n.desc.pool)).getD 0
def State.keyslotOf (s : State) (slice : Nat) : Nat := sdKeyslot (s.sliceDesc (slice % 4096))

/-- Domain and key slot of a command's grains: its slice's, or those of the binding of an inbound session (R520). -/
def State.cmdDom (s : State) (c : IoCmd) : Nat := match c.via with | some v => v.1 | none => s.domainOf c.slice
def State.cmdKey (s : State) (c : IoCmd) : Nat := match c.via with | some v => v.2 | none => s.keyslotOf c.slice

/-- The fingerprint slot of a domain: its domain table entry when VALID (R220, R221). -/
def State.fpSlot (s : State) (dom : Nat) : Option Nat :=
  let w := agetD s.ing.dom dom 0
  if bit w 31 then some (fld w 0 12) else none

/-- A Write whose data is still arriving covers a grain. -/
def State.covers (s : State) (c : IoCmd) (gi : Nat) : Bool :=
  c.opc == oWrite && (if s.lbafOf c.ns = 1 then decide (c.slba / 8 ≤ gi ∧ gi < (c.slba + c.nlb + 7) / 8) else decide (c.slba ≤ gi ∧ gi < c.slba + c.nlb))

/-- A grain is still to be handled for a command admitted earlier on this head (R218): its data is arriving, or its group is not stamped. -/
def State.grainHeld (s : State) (op ns gi : Nat) : Bool :=
  let a := ((aget s.io.cmds op).map (fun c => c.adm)).getD op
  s.io.cmds.any (fun e => e.1 != op && decide (e.2.adm < a) && e.2.ns == ns && !loose e.2.opc && !e.2.fwd &&
    ((e.2.stage == .data && s.covers e.2 gi) || (e.2.stage == .active && (e.2.grains.drop e.2.doneN).any (fun g => g.gi == gi))))

/-- The bound Sideboard grain that is a grain's current data: no later MAP_SET of the grain has been applied, and its own group has. -/
def State.sbGrain (s : State) (ns gi : Nat) : Option SbEnt :=
  let es := s.io.sb.filter (fun e => e.ns == ns && e.gi == gi && e.ostamp.isSome)
  let top := maxL (es.map (fun e => e.ostamp.getD 0))
  let set := maxL ((s.mpe.hist.flatten.filter (fun r => r.typ == tMapSet && r.target % 65536 == ns && r.target / 65536 % 2 ^ 38 == gi)).map (fun r => r.ostamp))
  if set = top ∨ (set = 0 ∧ s.mpe.delta.all (fun r => r.ostamp != top) = true) then es.find? (fun e => e.ostamp == some top) else none

/-- The plaintext, tag and CRC-64 of a content record held in this head's own write cache, or in the Sideboard as the current data of the
grain that resolved to it (R216, R241). -/
def State.cached (s : State) (ns gi cid gen : Nat) : Option (Bytes × Nat × Nat) :=
  match s.io.wc.find? (fun w => w.cid == cid && w.gen == gen && w.ostamp != 0 && w.fp != []) with
  | some w => some (w.data, w.tag, w.crc)
  | none =>
    if entKind (s.leafEntry ns gi) = 2 ∧ entCid (s.leafEntry ns gi) = cid then (s.sbGrain ns gi).map (fun e => (e.data, e.tag, crc64 e.data))
    else none

/-- Replace the sectors of a grain that a mask names by those of new data (R215). -/
def mergeSectors (mask : Nat) (new old : Bytes) : Bytes :=
  (List.range 8).flatMap (fun i => slice (if bit mask i then new else old) (i * 512) 512)

/-- Every byte is zero. -/
def allZero (l : Bytes) : Bool := l.all (fun b => b == 0#8)

/-- A full grain enters the write path (R214, R219): CRC-64, zero detection, else its fingerprint is to be computed.
It is written to the own write cache. -/
def State.enterGrain (s : State) (op i : Nat) : State :=
  match s.grainAt op i with
  | none => s
  | some (c, g) =>
    let z := s.flag R.ING.CFG.ZERO_DET && allZero g.data && g.tag == 0
    let s := s.updGrain op i (fun g => { g with crc := crc64 g.data, mask := 255, st := if z then .zero else .digest })
    let free := ((List.range (s.io.wc.length + 1)).find? (fun n => !s.io.wc.any (fun w => w.slot == n))).getD 0
    let w : WcEnt := { slot := free, op := op, slice := c.slice, ns := c.ns, gi := g.gi, data := g.data, tag := g.tag, crc := crc64 g.data, txn := c.txn, via := c.via }
    let s := { s with io := { s.io with wc := s.io.wc ++ [w] } }
    s.incWrap R.ING.CNT_GRAIN.COUNT

/-- The read of a merge source is asked for (R216 source 3). -/
def State.mergeRead (s : State) (op gi cid : Nat) : State :=
  s.updCmd op (fun c => { c with reads := c.reads ++ [{ gi := gi, cid := cid }] })

/-- Begin a grain of a command: wait for an earlier command on it (R218), merge a partial one (R215, R216), or enter
it. -/
def State.beginGrain (s : State) (op i : Nat) : State :=
  match s.grainAt op i with
  | none => s
  | some (c, g) =>
    if s.grainHeld op c.ns g.gi then s.updGrain op i (fun g => { g with st := .blocked })
    else if g.mask = 255 then s.enterGrain op i
    else
      let put := fun (old : Bytes) (s : State) =>
        ((s.updGrain op i (fun g => { g with data := mergeSectors g.mask g.data old })).incWrap R.ING.CNT_MERGE.COUNT).enterGrain op i
      match s.resolve c.ns g.gi with
      | .ref cid _ =>
        match s.cached c.ns g.gi cid (s.ctRec cid).gen with
        | some w => put w.1 s
        | none => (s.updGrain op i (fun g => { g with st := .merging })).mergeRead op g.gi cid
      | .bad _ => (s.updGrain op i (fun g => { g with st := .merging })).mergeRead op g.gi 0
      | _ => put (zeros 4096) s

/-- Every grain has its data: none is merging or blocked. -/
def dataReady (c : IoCmd) : Bool := c.grains.all (fun g => g.st != .merging && g.st != .blocked)

/-- A head mirrors its writes: in PAIRED and HANDOVER, and on the serving head of a join from the switch on (R71, R245). -/
def State.mirroring (s : State) : Bool :=
  s.mode == .paired || s.mode == .handover || (s.mode == .solo && s.cpl.role == 2 && decide (5 ≤ s.rf R.CPL.JOIN_STAT.PHASE ∧ s.rf R.CPL.JOIN_STAT.PHASE ≤ 7))

/-- A grain copied by reference. -/
def isCopy (g : GrainSt) : Bool := match g with | .copy _ _ _ => true | _ => false

/-- Send the grains of a command to the partner (R242): with its slice, namespace and grain index, zero grains and hits
included. -/
def State.mirrorCmd (s : State) (op : Nat) : State :=
  match aget s.io.cmds op with
  | none => s
  | some c =>
    let carry := s.io.wc.filter (fun w => w.op == op && w.txn == 0)
    if s.mirroring && dataReady c && c.txn == 0 && !carry.isEmpty && !c.fwd then
      let t := op + 1
      let st := fun (w : WcEnt) => ((c.grains.find? (fun g => g.gi == w.gi)).map (fun g => g.st)).getD .digest
      let gs := carry.zipIdx.map (fun x =>
        let w := x.1
        let z := st w == .zero
        { slot := w.slot, slice := if s.handleLive w.slice then w.slice else 0xFFFFF, ns := w.ns, gi := w.gi, tag := w.tag, data := if z then [] else w.data, crc := w.crc
          hit := (match st w with | .hit _ _ => true | _ => false), zero := z, idx := x.2 : MGrain })
      let s := (s.updCmd op (fun c => { c with txn := t })).sendC (.grain (t % 2 ^ 32) gs.length gs)
      { s with io := { s.io with wc := s.io.wc.map (fun w => if w.op = op then { w with txn := t } else w) } }
    else s

/-- The end of a write that fails before it is stamped: nothing of it is written (R217, R221, R266). -/
def State.failWrite (s : State) (op sct sc : Nat) (dnr : Bool) : State :=
  match aget s.io.cmds op with
  | none => s
  | some c =>
    let s := if c.txn ≠ 0 then s.sendC (.cancel (c.txn % 2 ^ 32)) else s
    let s := { s.dropCmd op with io := { (s.dropCmd op).io with wc := s.io.wc.filter (fun w => w.op != op || w.ostamp != 0) } }
    match c.conn with
    | some q => (s.errInfo q c.cid sc c.slba c.ns).answer q c.cid sct sc dnr
    | none => if c.fromPartner then s.sendC (.fwdDone c.tok sct sc dnr 0 0) else s

/-! ## Lookup (R222 to R230) -/

/-- Bucket of a fingerprint (R222). -/
def State.bucketOf (s : State) (fp : Bytes) : Nat := leAt fp 0 8 % 2 ^ s.rf R.MPE.CT_BITS.BITS

/-- FTAG of a fingerprint (R222). -/
def ftagOf (fp : Bytes) : Nat := leAt fp 8 4

/-- A record is a candidate (R223). -/
def State.candidate (s : State) (dom pool ftag cid : Nat) : Bool :=
  let r := s.ctRec cid
  !ctFree r && r.dom == dom && r.ftag == ftag && r.ref != 0 && locSeg r.loc != 0 && (s.seg (locSeg r.loc)).pool == pool

/-- The candidates of a bucket in ascending slot order (R224, R225). -/
def State.candidates (s : State) (dom pool : Nat) (fp : Bytes) : List Nat :=
  let k := s.bucketOf fp
  ((List.range 32).map (fun i => k * 32 + i)).filter (s.candidate dom pool (ftagOf fp))

/-- The hot-fingerprint cache entry of a candidate (R225, R227). -/
def State.hfcOf (s : State) (cid : Nat) : Option Bytes :=
  match aget s.mpe.hfc cid with
  | some e => if e.gen = (s.ctRec cid).gen then some e.fp else none
  | none => none

/-- Sets of the hot-fingerprint cache: eight entries of 64 B each in its region as R43 sizes it. -/
def State.hfcSets (s : State) : Nat := max 1 (nthD s.dram.regions 3 0 / 512)

/-- Write an entry of the hot-fingerprint cache: eight ways by a hash of CID, replaced least recently used (R227).
Entries of one set leave in the order they were last written or used. -/
def State.hfcPut (s : State) (cid gen : Nat) (fp : Bytes) : State :=
  let set := Config.hfcHash cid % s.hfcSets
  let same := (adel s.mpe.hfc cid).filter (fun e => Config.hfcHash e.1 % s.hfcSets == set)
  let m := if 8 ≤ same.length then adel s.mpe.hfc ((same.head?.map Prod.fst).getD cid) else s.mpe.hfc
  { s with mpe := { s.mpe with hfc := adel m cid ++ [(cid, { cid := cid, gen := gen, fp := fp })] } }

/-- An entry of the hot-fingerprint cache has been used: it is the last of its set to leave (R227). -/
def State.hfcUse (s : State) (cid : Nat) : State :=
  match aget s.mpe.hfc cid with
  | some e => { s with mpe := { s.mpe with hfc := adel s.mpe.hfc cid ++ [(cid, e)] } }
  | none => s

/-- Slots a head may insert into (R264). -/
def State.slotsOf (s : State) : List Nat :=
  if s.mode = .solo then List.range 32 else (List.range 16).map (fun i => 16 * s.head + i)

/-- CIDs chosen by grains not yet stamped. -/
def State.chosen (s : State) : List Nat :=
  s.io.cmds.flatMap (fun e => (e.2.grains.drop e.2.doneN).filterMap (fun g =>
    match g.st with
    | .compress | .sealing | .place => some g.cid
    | .uniq c _ _ => some c
    | _ => none))

/-- The slot an insert takes (R264, R266): the lowest free one of the head's part, in the home bucket or the seven after
it; the number of buckets passed over. -/
def State.freeSlot (s : State) (fp : Bytes) : Option (Nat × Nat) :=
  let nb := 2 ^ s.rf R.MPE.CT_BITS.BITS
  let k := s.bucketOf fp
  let busy := s.chosen
  (List.range 8).findSome? (fun i =>
    (s.slotsOf.map (fun j => (k + i) % nb * 32 + j)).findSome? (fun cid =>
      if ctFree (s.ctRec cid) && !busy.contains cid then some (cid, i) else none))

/-- Whether the slice's predictor sends a unique grain to CMP (R234). -/
def State.tryCompress (s : State) (i : Nat) : Bool :=
  let d := s.dynOf i
  !d.skip || (d.run + 1) % 2 ^ s.rf R.ING.CFG.PROBE_N == 0

/-- A unique grain (R225): take a slot, then CMP, or store it raw in SKIP (R234). -/
def State.grainUnique (s : State) (op i : Nat) : State :=
  match s.grainAt op i with
  | none => s
  | some (c, g) =>
    if c.opc = oOffer then s.updGrain op i (fun g => { g with st := .unmap })
    else if c.opc = oRplWrite ∧ g.data = [] then s.updGrain op i (fun g => { g with st := .merging })
    else
    match s.freeSlot g.fp with
    | none => ((s.inc R.MPE.CNT_FULL.COUNT).raise Pg.MPE 1).failWrite op 0 0x81 false
    | some (cid, spill) =>
      let s := if spill ≠ 0 then s.inc R.MPE.CNT_SPILL.COUNT else s
      let gen := (s.ctRec cid).gen
      let sl := c.slice % 4096
      if c.via.isSome || s.tryCompress sl then
        let probe := c.via.isNone && (s.dynOf sl).skip
        let s := if probe then s.updDyn sl (fun d => { d with run := d.run + 1 }) else s
        s.updGrain op i (fun g => { g with cid := cid, gen := gen, st := .compress, probe := probe })
      else
        let s := (s.updDyn sl (fun d => { d with run := d.run + 1 })).incWrap R.ING.CNT_SKIP.COUNT
        s.updGrain op i (fun g => { g with cid := cid, gen := gen, stored := g.data, raw := true, st := .sealing })

/-- Confirm candidates in order until one compares equal, a trailer has to be fetched, or none is left (R225, R226). -/
def State.confirmHit (s : State) (op i : Nat) : List Nat → State
  | [] => s.grainUnique op i
  | cid :: t =>
    match s.grainAt op i with
    | none => s
    | some (_, g) =>
      match s.hfcOf cid with
      | some fp =>
        let s := (s.hfcUse cid).incWrap R.ING.CNT_CAND.COUNT
        if fp = g.fp then (s.incWrap R.ING.CNT_HIT.COUNT).updGrain op i (fun g => { g with st := .hit cid (s.ctRec cid).gen })
        else (s.incWrap R.ING.CNT_FALSE.COUNT).confirmHit op i t
      | none =>
        if s.flag R.ING.CFG.TRAILER_FETCH then
          (s.incWrap R.ING.CNT_TFETCH.COUNT).updGrain op i (fun g => { g with st := .confirm (cid :: t) })
        else s.confirmHit op i t

/-- Another command holds the bucket (R228): one of its grains has looked it up and its group is not stamped. -/
def State.bucketHeld (s : State) (op : Nat) (k : Nat) : Bool :=
  s.io.cmds.any (fun e => e.1 != op && e.2.stage == .active && !loose e.2.opc && (e.2.grains.drop e.2.doneN).any (fun g =>
    g.fp != [] && s.bucketOf g.fp == k && (match g.st with
      | .confirm _ | .compress | .sealing | .place | .hit _ _ | .uniq _ _ _ => true
      | _ => false)))

/-- Another grain of the same command with the same fingerprint that inserts a record (R228 within one group). -/
def sibling (c : IoCmd) (i : Nat) (fp : Bytes) : Option (Nat × Nat) :=
  c.grains.zipIdx.findSome? (fun x =>
    if x.2 != i && x.1.fp == fp then (match x.1.st with
      | .compress | .sealing | .place => some (x.1.cid, x.1.gen)
      | .uniq cid gen _ => some (cid, gen)
      | _ => none)
    else none)

/-- Another grain of the same command with the same fingerprint is being confirmed: what it finds decides this one too. -/
def twinConfirms (c : IoCmd) (i : Nat) (fp : Bytes) : Bool :=
  c.grains.zipIdx.any (fun x => x.2 != i && x.1.fp == fp && (match x.1.st with | .confirm _ => true | _ => false))

/-- The bucket lookup of a grain (R222 to R225, R228, R268): one access to the eight lines of its bucket (R224). -/
def State.lookup (s : State) (op i : Nat) : State :=
  match s.grainAt op i with
  | none => s
  | some (c, g) =>
    let k := s.bucketOf g.fp
    if c.opc != oOffer && (s.bucketHeld op k || twinConfirms c i g.fp) then s.updGrain op i (fun g => { g with st := .bucket })
    else
      let s := s.updGrain op i (fun g => { g with readAt := s.estamp })
      let s := (List.range 8).foldl (fun s j => s.mpcTouch (s.ctAddr (k * 32) + 64 * j) false) s
      match sibling c i g.fp with
      | some (cid, gen) => (s.incWrap R.ING.CNT_HIT.COUNT).updGrain op i (fun g => { g with st := .hit cid gen })
      | none => s.confirmHit op i (s.candidates (s.cmdDom c) (s.poolOf c.ns) g.fp)

/-- Grains that wait for a bucket or an earlier command, tried again in order. -/
def State.pumpGrains (s : State) : State :=
  let work := s.io.cmds.flatMap (fun e => e.2.grains.zipIdx.map (fun p => (e.1, p.2)))
  let s := work.foldl (fun s w =>
    match s.grainAt w.1 w.2 with
    | some (_, g) =>
      match g.st with
      | .blocked => s.beginGrain w.1 w.2
      | .bucket => s.lookup w.1 w.2
      | _ => s
    | none => s) s
  (s.io.cmds.map Prod.fst).foldl (fun s op => s.mirrorCmd op) s

/-! ## Compression (R231 to R234) -/

/-- The predictor after a grain was sent to CMP, as a probe or in TRY, and stored compressed or raw (R234): in SKIP only a probe that is
stored compressed counts. -/
def State.predict (s : State) (i : Nat) (probe compressed : Bool) : State :=
  s.updDyn i (fun d =>
    if d.skip then (if probe && compressed then { d with skip := false, run := 0 } else d)
    else if compressed then { d with run := 0 }
    else if 2 ^ s.rf R.ING.CFG.SKIP_N ≤ d.run + 1 then { d with skip := true, run := 0 }
    else { d with run := d.run + 1 })

/-! ## Sealing and placement (R235 to R241) -/

/-- CLEN of stored bytes (R232). -/
def clenOf (stored : Bytes) : Nat := cdiv stored.length 16

/-- An adopted record is placed in the pool of the segment it lay in, and its CT_LOC waits for the new segment to be SEALED; one
that has moved on meanwhile needs no place (R126, R272, R402). -/
def State.placeAdopted (s : State) (op : Nat) (c : IoCmd) (g : Grain) : State :=
  let r := s.ctRec g.cid
  if ctFree r || r.gen != g.gen || r.loc != c.src then s.dropCmd op
  else
    match s.placePool (s.seg (locSeg c.src)).pool { cid := g.cid, gen := g.gen, off := 0, clen := clenOf g.stored, fp := g.fp, bytes := g.hdr, srcLoc := c.src } with
    | some (loc, s) => { s.dropCmd op with sgb := { s.sgb with reloc := s.sgb.reloc ++ [{ cid := g.cid, gen := g.gen, src := c.src, dst := loc }] } }
    | none => s.updGrain op 0 (fun x => { x with st := .place })

/-- Place a sealed grain in an open segment of its pool (R237); it waits while none is open. -/
def State.placeGrain (s : State) (op i : Nat) : State :=
  match s.grainAt op i with
  | none => s
  | some (c, g) =>
    if c.opc = oAdopt then s.placeAdopted op c g
    else
    match s.placePool (s.poolOf c.ns) { cid := g.cid, gen := g.gen, off := 0, clen := clenOf g.stored, fp := g.fp, bytes := g.hdr } with
    | some (loc, s) => s.updGrain op i (fun x => { x with st := .uniq g.cid g.gen loc })
    | none => s.updGrain op i (fun x => { x with st := .place })

/-- Grains that wait for an open segment, placed in order once one is open. -/
def State.pumpPlace (s : State) : State :=
  (s.io.cmds.flatMap (fun e => e.2.grains.zipIdx.map (fun p => (e.1, p.2)))).foldl (fun s w =>
    match s.grainAt w.1 w.2 with
    | some (_, g) => if g.st = .place then s.placeGrain w.1 w.2 else s
    | none => s) s

/-! ## The change group (R239, R240, R269, R282) -/

/-- A grain is resolved: placed, hit, zero, unmapped or copied. -/
def grainReady (g : Grain) : Bool :=
  match g.st with
  | .zero | .unmap | .copy _ _ _ | .hit _ _ | .uniq _ _ _ => true
  | _ => false

/-- The records of one grain (R239, R269): MAP_SET, CT_INSERT or CT_REF, and the release of the previous reference. -/
def State.grainRecs (s : State) (c : IoCmd) (g : Grain) : List JRec :=
  let epoch := ((aget s.maps.nss c.ns).map (fun n => n.epoch)).getD 0
  let old := s.leafEntry c.ns g.gi
  let rel := if entKind old = 2 then
      [rCtRef (entCid old) (s.ctRec (entCid old)).gen (-1)] else []
  let leaf := fun (k cid : Nat) => mkLeaf k cid epoch c.ns g.gi
  match g.st with
  | .zero => rMapSet c.ns g.gi old (leaf 1 0) :: rel
  | .unmap => (if old = 0 then [] else [rMapSet c.ns g.gi old 0]) ++ rel
  | .hit cid gen => rMapSet c.ns g.gi old (leaf 2 cid) :: rCtRef cid gen 1 :: rel
  | .copy cid gen _ => rMapSet c.ns g.gi old (leaf 2 cid) :: rCtRef cid gen 1 :: rel
  | .uniq cid gen loc =>
    let r : CtRec := { ftag := ftagOf g.fp, loc := loc, clen := clenOf g.stored, ref := 1, gen := gen, dom := s.cmdDom c }
    rMapSet c.ns g.gi old (leaf 2 cid) :: rCtInsert cid (s.ctRec cid) r :: rel
  | _ => []

/-- The grains of a command that are not stamped. -/
def leftGrains (c : IoCmd) : List Grain := c.grains.drop c.doneN

/-- The first of some grains whose records together are at most n. -/
def State.fitGrains (s : State) (c : IoCmd) : Nat → List Grain → List Grain
  | _, [] => []
  | n, g :: t =>
    let k := (s.grainRecs c g).length
    if k ≤ n then g :: s.fitGrains c (n - k) t else []

/-- Grains of the next group: all that are left, or, above 4,095 records, as many as that allows (R129, R239). -/
def State.nextGrains (s : State) (c : IoCmd) : List Grain := s.fitGrains c 4095 (leftGrains c)

/-- The records of a group in the order of its indexes: record 0 is the MAP_SET of the lowest grain (R239), and a new record comes before
another grain's reference to it. -/
def groupOrder : List JRec → List JRec
  | [] => []
  | r :: t => r :: (t.filter (fun x => x.typ == tCtInsert) ++ t.filter (fun x => x.typ != tCtInsert))

/-- A hit of the next group is older than 1 ms (R268). -/
def State.hitsExpired (s : State) (c : IoCmd) : Bool :=
  (s.nextGrains c).any (fun g => match g.st with
    | .hit _ _ => decide (g.readAt + 1000000 < s.estamp) && g.fp != []
    | _ => false)

/-- Repeat the lookup of every grain of a command (R229): hits and inserts start again from the bucket. -/
def State.retryCmd (s : State) (op : Nat) : State :=
  let s := (s.inc R.ING.CNT_RETRY.COUNT).updCmd op (fun c => { c with grains := c.grains.map (fun g =>
    match g.st with
    | .hit _ _ | .uniq _ _ _ | .compress | .sealing | .place | .confirm _ => { g with st := .bucket }
    | _ => g) })
  s.pumpGrains

/-- A copied grain whose source record has moved on is resolved again from the map (R229, R282). -/
def State.recopy (s : State) (op : Nat) : State :=
  match aget s.io.cmds op with
  | some c =>
    let off := c.src
    s.updCmd op (fun c => { c with grains := c.grains.zipIdx.map (fun p =>
      match p.1.st with
      | .copy _ _ _ => match s.resolve c.ns (off + p.2) with
        | .ref cid b => { p.1 with st := .copy cid (s.ctRec cid).gen b }
        | .zero => { p.1 with st := .zero }
        | _ => { p.1 with st := .unmap }
      | _ => p.1) })
  | none => s

/-- After a group of a command is stamped: cache entries take its stamp, new records enter the hot-fingerprint cache and
the partner is told of them, and the partner gets the binding (R227, R243, R481). -/
def State.afterStamp (s : State) (op o : Nat) (gs : List Grain) : State :=
  let s := gs.foldl (fun s g =>
    match g.st with
    | .uniq cid gen _ => s.hfcPut cid gen g.fp
    | _ => s) s
  let hints := gs.filterMap (fun g => match g.st with | .uniq cid gen _ => some ({ cid := cid, gen := gen, fp := g.fp } : HfcEnt) | _ => none)
  let s := if hints = [] then s else if s.mirrors then s.sendC (.hfcHint hints) else s
  let ids := fun (gi : Nat) => match gs.find? (fun g => g.gi == gi) with
    | some g => (match g.st with
      | .uniq cid gen _ => some (cid, gen, g.fp, clenOf g.stored)
      | .hit cid gen => some (cid, gen, g.fp, 0)
      | .zero | .unmap => some (0, 0, [], 0)
      | _ => none)
    | none => none
  { s with io := { s.io with wc := s.io.wc.map (fun w =>
      if w.op = op && w.ostamp = 0 then
        (match ids w.gi with
         | some (cid, gen, fp, clen) => { w with ostamp := o, cid := cid, gen := gen, fp := fp, clen := clen }
         | none => w)
      else w) } }

/-- The new owner admits no write to a group before MOVE_DONE (R119, R490). -/
def State.moveWaits (s : State) (ns opc : Nat) : Bool :=
  writes opc && (match s.nsOf ns with
    | some n => [n.desc.group, 0xFFFF].any (fun k => match aget s.cpl.moves k with | some (_, h) => h == s.head | none => false)
    | none => false)

/-- A group of a command has got its stamp: the command is stamped with its last group, its grains go on, and a mirrored write is
bound (R129, R239, R476). -/
def State.groupDone (s : State) (op : Nat) (gs : List Grain) (o : Nat) : State :=
  let s := s.updCmd op (fun c =>
    let n := c.doneN + gs.length
    { c with doneN := n, ostamp := max c.ostamp o, stage := if c.grains.length ≤ n then Stage.stamped else Stage.active })
  let s := s.afterStamp op o gs
  let s := s.wf R.ING.CNT_ZERO.COUNT ((s.rf R.ING.CNT_ZERO.COUNT + (gs.filter (fun g => g.st == .zero)).length) % 2 ^ R.ING.CNT_ZERO.COUNT.w)
  let s := match aget s.io.cmds op with
    | some c => if c.stage == Stage.stamped && c.txn != 0 then s.sendC (.bind (c.txn % 2 ^ 32) c.ostamp) else s
    | none => s
  s.releaseAll.pumpGrains

/-- Stamp the next group of a command, with the page copies that must come before it (R239, R240, R275). The command's
completion waits for its last group (R129). -/
def State.groupStamp (s : State) (op : Nat) : State :=
  match aget s.io.cmds op with
  | none => s
  | some c =>
    if c.stage != .active || c.grains.isEmpty || c.grains.length ≤ c.doneN || !(leftGrains c).all grainReady
        || (leftGrains c).any (fun g => s.grainHeld op c.ns g.gi) || s.moveHolds c.ns then s
    else if s.hitsExpired c then s.retryCmd op
    else
      let gs := s.nextGrains c
      let touch := gs.filter (fun g => !(s.grainRecs c g).isEmpty)
      let prep := s.prepPaths c.ns ((touch.filter (fun g => g.st != .unmap || s.leafEntry c.ns g.gi != 0)).map (fun g => g.gi))
      match (if prep = [] then Stamped.done 0 s else s.stampGroup 0 prep) with
      | .stalled s => s
      | .failed s => s
      | .done _ s =>
        let recs := groupOrder (gs.flatMap (s.grainRecs c))
        if recs = [] then s.groupDone op gs 0
        else
          match s.stampGroup (b2n c.adopted) recs with
          | .stalled s => s
          | .failed s => if c.opc = oCopy then s.recopy op else s.retryCmd op
          | .done o s => s.groupDone op gs o

/-! ## Acknowledge (R116, R245, R246, R68) -/

/-- Histogram bin of a latency in ns (Table 5-5). -/
def latBin (ns : Nat) : Nat :=
  let us := ns / 1000
  if us < 16 then 0 else min 15 ((Nat.log2 us) - 3)

/-- Count a completed command in its slice's open minute (R201, R204). -/
def State.meterCmd (s : State) (c : IoCmd) : State :=
  let b := s.byteCost c
  let rd := c.opc == oRead || c.opc == oCompare
  let s := if c.opc = oRead then { s with io := { s.io with rdBytes := s.io.rdBytes + b } }
    else if c.opc = oWrite then { s with io := { s.io with wrBytes := s.io.wrBytes + b } } else s
  if 0x100 ≤ c.opc ∨ c.fromPartner ∨ c.adopted then s
  else s.updDyn (c.slice % 4096) (fun d => { d with changed := true, own := { d.own with
      rdOps := d.own.rdOps + b2n rd, wrOps := d.own.wrOps + b2n (c.opc == oWrite), otOps := d.own.otOps + b2n (!rd && c.opc != oWrite)
      rdB := d.own.rdB + (if rd then b else 0), wrB := d.own.wrB + (if c.opc = oWrite then b else 0)
      hist := abump d.own.hist (latBin (s.now - c.at0)) 1 } })

/-- Post the completion of a command and forget it (R158, R201). -/
def State.complete (s : State) (op sct sc : Nat) (dnr : Bool) : State :=
  match aget s.io.cmds op with
  | none => s
  | some c =>
    let s := if sct = 0 ∧ sc = 0 then s.meterCmd c else s
    let s := s.dropCmd op
    match c.conn with
    | some q => s.answer q c.cid sct sc dnr
    | none => s

/-- The durability a write needs where nothing mirrors it (R68): every grain's segment durable on the Shelf. -/
def State.grainsDurable (s : State) (c : IoCmd) : Bool :=
  c.grains.all (fun g =>
    match g.st with
    | .uniq cid gen _ | .hit cid gen | .copy cid gen _ =>
      let r := s.ctRec cid
      r.gen != gen || s.locDurable r.loc
    | _ => true)

/-- A command is acknowledged by mirroring (R71, R245): where both heads serve, and on the serving head of a join, from the switch OSTAMP
on; what that head stamped below it is acknowledged as in SOLO. -/
def State.mirrored (s : State) (c : IoCmd) : Bool :=
  match s.cpl.switch with
  | some w => s.mirroring && decide (w ≤ c.ostamp)
  | none => s.mode == .paired || s.mode == .handover

/-- Commit wait (R116, R113): local PHYS exceeds s + 2 × EPS_CUR, and in PAIRED EPS_CUR is within its limit. -/
def State.commitPassed (s : State) (o : Nat) : Bool :=
  decide (phys o + 2 * s.epsCur < s.estamp) &&
  !(s.mode == .paired && s.epsOver)

/-- Free the own write cache's copy of grains that no longer need it, and tell the partner (R246). -/
def State.wcRelease (s : State) (p : WcEnt → Bool) : State :=
  let gone := s.io.wc.filter p
  let s := { s with io := { s.io with wc := s.io.wc.filter (fun w => !p w) } }
  let slots := (gone.filter (fun w => w.txn != 0)).map (fun w => w.slot)
  if slots = [] then s else s.sendC (.free slots)

/-- A cache entry is no longer needed (R246): unique and hit grains once their record's segment is durable, zero grains
once their command is acknowledged. -/
def State.wcDone (s : State) (w : WcEnt) : Bool :=
  w.ostamp != 0 &&
  (if w.fp = [] then !s.io.cmds.any (fun e => e.1 == w.op)
   else
     let r := s.ctRec w.cid
     r.gen != w.gen || ctFree r || s.locDurable r.loc || locSeg r.loc == 0)

/-- A stamped command's data is held as R245 and R68 ask: by the partner where it is mirrored, else on the Shelf. -/
def State.ackDurable (s : State) (c : IoCmd) : Bool :=
  c.stage == Stage.stamped &&
  (if c.fwd then !isResv c.opc || c.bound
   else if s.mirrored c && (c.opc == oWrite || c.txn != 0) then c.bound && c.grains.all (fun g => g.rcpt)
   else (s.mirrored c || s.grainsDurable c))

/-- A group of a command's grains is still held, so that a read would not see it yet (R240, R287). -/
def State.heldOf (s : State) (c : IoCmd) : Bool :=
  writes c.opc && s.mpe.held.any (fun g => g.any (fun r => r.typ == tMapSet && r.head == s.head && r.target % 65536 == c.ns && r.ostamp ≤ c.ostamp
    && c.grains.any (fun x => x.gi == r.target / 65536 % 2 ^ 38)))

/-- The completion of a command that changes data may be posted (R245, R68, R116); one without a change group waits for R113 only. -/
def State.mayAck (s : State) (c : IoCmd) : Bool := s.ackDurable c && !s.heldOf c
  && (if c.ostamp = 0 then !(s.mode == .paired && s.epsOver) else s.commitPassed c.ostamp)

/-- A command the partner forwarded is done once its data is held as R245 asks; the partner does the commit wait (R483). -/
def State.tryFwdDone (s : State) (op : Nat) : State :=
  match aget s.io.cmds op with
  | some c =>
    if c.fromPartner && s.ackDurable c then
      ((s.dropCmd op).sendC (.fwdDone c.tok 0 0 false 0 c.ostamp)).wcRelease (s.dropCmd op).wcDone
    else s
  | none => s

/-- The NVT issuer of a queue pair: one per HFX instance (log 17). -/
def State.nvtUnit (s : State) (q : Nat) : Nat := Unit.nvt ((s.connPort q).2 / 16 % 4)

end Sys2Proof.Machine
end

