-- ==== Sys2Proof/Machine/Layout.lean ====
section
/-! DEFINITION. Where a segment's units lie and what they hold: homes (R329), tiles (R337 to R341), the media place of a LOC (R325, R380, R383). -/
namespace Sys2Proof.Machine

/-! ## Homes (R328, R329) -/

/-- One Fisher-Yates exchange. -/
def swapAt (l : List Nat) (i j : Nat) : List Nat := setNth (setNth l i (nthD l j 0)) j (nthD l i 0)

/-- The Fisher-Yates passes from index i down to 1 (R329). -/
def permute (key : Bytes) (basegen row : Nat) : Nat → List Nat → List Nat
  | 0, l => l
  | i + 1, l => permute key basegen row i (swapAt l (i + 1) (sipHash13 key (le (basegen + row * 2 ^ 16 + (i + 1) * 2 ^ 32) 8) % (i + 2)))

/-- Members of a row in order (R329). -/
def rowPerm (b : Base) (row : Nat) : List Nat :=
  let mods := onesBelow b.mask 64
  permute (le b.seed 8 ++ le (2 ^ 64 - 1 - b.seed) 8) b.basegen row (mods.length - 1) mods

/-- One retired module taken out of a row's spares and homes (R329). -/
def retireOne (x : List (Option Nat) × List Nat) (f : Nat) : List (Option Nat) × List Nat :=
  let sp := x.2.filter (fun m => m != f)
  match x.1.findIdx? (fun h => h == some f) with
  | some i => (setNth x.1 i sp.head?, sp.tail)
  | none => (x.1, sp)

/-- Homes of the units of a row; none is NONE (R329). -/
def homesOf (p : Pool) (b : Base) (row : Nat) : List (Option Nat) :=
  let l := rowPerm b row
  (p.retired.foldl retireOne ((l.take (b.d + 2)).map some, l.drop (b.d + 2))).1

/-- The base of a pool with a BASEGEN. -/
def baseOf (p : Pool) (g : Nat) : Option Base :=
  if p.baseNew.basegen = g then some p.baseNew else p.baseOld.filter (fun b => b.basegen == g)

/-- Homes of the units of a segment. -/
def State.segHomes (s : State) (g : Seg) : List (Option Nat) :=
  match aget s.maps.pools g.pool with
  | some p =>
    match baseOf p g.basegen with
    | some b => homesOf p b g.row
    | none => []
  | none => []

/-- The 256 bytes of a layout descriptor (Table 9-1). -/
def layoutBytes (pool : Nat) (p : Pool) : Bytes :=
  let base := fun (b : Base) => le b.basegen 2 ++ le b.d 1 ++ le b.n 1 ++ zeros 4 ++ le b.seed 8 ++ le b.mask 8
  withCrc (le p.laygen 2 ++ le pool 1 ++ le p.ballast 1 ++ le p.members 8 ++ le p.fdom 32 ++ le p.retired.length 1 ++ le p.rebuilt 1
    ++ zeros 2 ++ ((p.retired.map (fun m => BitVec.ofNat 8 m)) ++ List.replicate (64 - p.retired.length) 0xFF#8)
    ++ base p.baseNew ++ base (p.baseOld.getD { basegen := 0xFFFF, d := 0, n := 0, seed := 0, mask := 0 }) ++ zeros 92)

/-! ## Absent modules (R348, R428) -/

/-- The end of this head's link to a position. -/
def State.linkEnd (s : State) (i : Nat) : LinkEnd := agetD s.jlk.ends i {}

/-- A module is absent to this head: its link is DOWN, or the head has not admitted it (R428, R348). -/
def State.absent (s : State) (m : Nat) : Bool :=
  (s.linkEnd m).state == 0 || (match aget s.fmm.mods m with | some x => !x.ready || x.unusable || x.goneAt.isSome | none => true)

/-- Modules present to this head. -/
def State.present (s : State) : List Nat := (s.fmm.mods.map Prod.fst).filter (fun m => !s.absent m)

/-- The die belongs to this head (R384): every die in SOLO, its parity in PAIRED, HANDOVER and JOINING. -/
def State.ownsDie (s : State) (die : Nat) : Bool :=
  if s.mode = .vault ∧ s.bsv.prev = some .solo then true
  else if s.mode = .solo then s.cpl.relStage == 0 || die % 2 == s.head else die % 2 == s.head && !(s.mode == .handover && s.cpl.relStage != 0)

/-! ## Tiles (R337 to R341) -/

/-- The array identity this head knows. -/
def State.arrayId (s : State) : Nat := s.bsv.arrayId.getD 0

/-- A segment header (Table 9-5). -/
def State.segHeader (s : State) (seg : Nat) (g : Seg) (unit d row : Nat) : Bytes :=
  withCrc (le 0x53474D54 4 ++ le 1 1 ++ le g.kind 1 ++ le unit 1 ++ le d 1 ++ le seg 4 ++ le g.gen 1 ++ le (g.pool + g.owner * 128) 1
    ++ le g.basegen 2 ++ le row 2 ++ zeros 2 ++ le g.openStamp 12 ++ le s.arrayId 16 ++ zeros 12)

/-- A segment trailer entry (Table 9-7). -/
def trailerEntry (p : Placed) : Bytes := le (p.cid + p.gen * 2 ^ 38 + p.off * 2 ^ 46) 8 ++ le p.clen 2 ++ zeros 6 ++ padTo 32 p.fp

/-- Put bytes into a run at an offset. -/
def putAt (l : Bytes) (o : Nat) (b : Bytes) : Bytes := l.take o ++ b ++ l.drop (o + b.length)

/-- The 65,536 bytes of a data tile: header, records in ascending offset, padding, and the trailer (R337, R340, R341). -/
def State.dataTile (s : State) (seg : Nat) (g : Seg) (unit : Nat) (recs : List Placed) : Bytes :=
  let mine := recs.filter (fun p => p.off / 4096 == unit)
  let body := mine.foldl (fun l p => putAt l (p.off % 4096 * 16) p.bytes) (padTo 65536 (s.segHeader seg g unit g.d g.row))
  let ents := (mine.reverse.map trailerEntry).flatten
  let foot := le mine.length 2 ++ zeros 10
  let tr := withCrc (ents ++ foot)
  putAt body (65536 - tr.length) tr

/-- The tiles of every unit of a segment: its data units, then P and Q (R326). -/
def State.segTiles (s : State) (seg : Nat) (g : Seg) (recs : List Placed) : List Bytes :=
  let ds := (List.range g.d).map (fun k => s.dataTile seg g k recs)
  ds ++ [parityP ds, parityQ ds]

/-! ## Where a record lies (R306, R325, R380, R383) -/

/-- Codewords a record of CLEN units at a LOC lies in: (unit, tile, codeword, bytes from, bytes to) of each, in order. -/
def cwsOf (qlc : Bool) (off clen : Nat) : List (Nat × Nat × Nat) :=
  let b := off * 16
  let e := b + 16 + clen * 16 - 1
  let at_ := fun (x : Nat) => if qlc then (x / 2 ^ 18, x / 2 ^ 16 % 4, x / 4096 % 16) else (x / 2 ^ 16, 0, x / 4096 % 16)
  if b / 4096 = e / 4096 then [at_ b] else [at_ b, at_ e]

/-- Key of a logical page of a module in the page table (R383). -/
def ptKey (m seg tile plane : Nat) : Nat := m * 2 ^ 29 + seg * 16 + tile * 4 + plane

/-- Fields of a page table entry (Table 10-3). -/
def ptDie (e : Nat) : Nat := fld e 0 6
def ptBlock (e : Nat) : Nat := fld e 6 13
def ptPage (e : Nat) : Nat := fld e 19 8
def ptValid (e : Nat) : Bool := bit e 27
def ptQlc (e : Nat) : Bool := bit e 28
def mkPt (die block page : Nat) (qlc : Bool) : Nat := die + block * 64 + page * 2 ^ 19 + 2 ^ 27 + (if qlc then 2 ^ 28 else 0)

/-- Key of a block in the block table (Table 10-4). -/
def btKey (m die block : Nat) : Nat := (m * 64 + die) * 8192 + block

def State.blk (s : State) (k : Nat) : Blk := agetD s.fmm.bt k {}

def State.setBlk (s : State) (k : Nat) (b : Blk) : State := { s with fmm := { s.fmm with bt := aset s.fmm.bt k b } }

/-- Send page-table changes to the partner, each with the next PTSEQ (R386, R480). -/
def State.ptSend (s : State) (es : List (Nat × Nat)) : State :=
  { s with fmm := { s.fmm with ptSeq := s.fmm.ptSeq + es.length } }.sendC (.pt s.fmm.ptSeq es)

/-- Set page table entries of this head and send them to the partner in PTSEQ order (R386, R480). -/
def State.ptSet (s : State) (es : List (Nat × Nat)) : State :=
  let s := { s with fmm := { s.fmm with pt := es.foldl (fun (t : AMap Nat) (e : Nat × Nat) => sput (fun _ => 0) t e.1 e.2) s.fmm.pt } }
  if s.mirrors then s.ptSend es else s

/-- The module of unit k of a segment, when its home holds a valid copy this head can reach. -/
def State.unitAt (s : State) (seg unit tile plane : Nat) : Option (Nat × Nat) :=
  match (s.segHomes (s.seg seg))[unit]? with
  | some (some m) =>
    let e := agetD s.fmm.pt (ptKey m seg tile plane) 0
    if ptValid e && !s.absent m && (match aget s.fmm.mods m with | some x => !x.failed.contains (ptDie e) | none => false) then some (m, e) else none
  | _ => none

end Sys2Proof.Machine
end

