-- ==== Sys2Proof/Machine/JonanLink.lean ====
section
/-! DEFINITION. Jonan link ends: frames, sequence, retry, credits, requests and the link state machine up to ACTIVE (R422 to R442). -/
namespace Sys2Proof.Machine

/-- Link states (Table 11-3). -/
def lDown : Nat := 0
def lDetect : Nat := 1
def lTrain : Nat := 2
def lAlign : Nat := 3
def lNegotiate : Nat := 4
def lActive : Nat := 5
def lRetrain : Nat := 6

/-- Frame types (Table 11-7). -/
def fReq : Nat := 1
def fRsp : Nat := 2
def fNak : Nat := 3
def fIdle : Nat := 4
def fTrain : Nat := 5
def fEvent : Nat := 6

/-- Operations (Table 11-9). -/
def opRead : Nat := 1
def opProgram : Nat := 2
def opErase : Nat := 3
def opStatus : Nat := 4
def opParam : Nat := 5
def opClaim : Nat := 7
def opWitness : Nat := 8

/-- Index of a Jonan link end. -/
def endKey : LinkSel → Nat
  | .jonan p => p.val
  | .bridge m p => 64 + 2 * m.val + p.val
  | .carid => 192

/-- The end is one of this head's positions. -/
def isHead (i : Nat) : Bool := decide (i < 64)

/-- Register instance and page of a position. -/
def posInst (m : Nat) : Nat := m / 16
def posPage (m : Nat) : Nat := 23 + m / 16

def State.setEnd (s : State) (i : Nat) (e : LinkEnd) : State := { s with jlk := { s.jlk with ends := aset s.jlk.ends i e } }
def State.updEnd (s : State) (i : Nat) (f : LinkEnd → LinkEnd) : State := s.setEnd i (f (s.linkEnd i))

/-- Credits a frame of n payload bytes needs (R438). -/
def credOf (n : Nat) : Nat := cdiv (20 + n) 256

/-- Send a frame with the end's ACK and up to 255 credit returns (R437, Table 11-6). -/
def State.jEmit (s : State) (i lseq : Nat) (f : JFrame) : State :=
  let e := s.linkEnd i
  let c := min 255 e.owed
  (s.setEnd i { e with owed := e.owed - c, rxCred := e.rxCred + c, ackDue := none }).emit
    (.jonan i f.typ (if f.typ = fTrain then 1 else e.ver) lseq ((e.rxNext + 4095) % 4096) c f.tag f.tgen f.die f.op f.flags f.payload)

/-- Send queued sequenced frames while the window and the credits allow (R434, R438). -/
def State.pumpTx (s : State) (i : Nat) : Nat → State
  | 0 => s
  | k + 1 =>
    let e := s.linkEnd i
    match e.queue with
    | [] => s
    | f :: t =>
      let n := credOf f.payload.length
      if e.state = lActive && (decide (64 ≤ i) || s.blockOn (Pg.JLK + i / 16)) && decide (e.unack.length < 1024) && decide (n ≤ e.txCred) then
        let l := e.txNext
        let s := s.setEnd i { e with queue := t, txCred := e.txCred - n, txNext := (l + 1) % 4096, unack := e.unack ++ [(l, f)] }
        (s.jEmit i l f).pumpTx i k
      else s

def State.pumpEnd (s : State) (i : Nat) : State := s.pumpTx i ((s.linkEnd i).queue.length + 1)

/-- Hand a sequenced frame to an end. -/
def State.jSend (s : State) (i : Nat) (f : JFrame) : State := (s.updEnd i (fun e => { e with queue := e.queue ++ [f] })).pumpEnd i

/-- Send an unsequenced frame. -/
def State.jSendU (s : State) (i : Nat) (f : JFrame) : State := s.jEmit i 0 f

/-- Count a NAK of a code at a head position (R436, Table 11-15). -/
def State.nakCount (s : State) (i code : Nat) : State :=
  if !isHead i then s
  else
    let s := s.updEnd i (fun e =>
      if code = 1 then { e with cntCrc := satAdd 32 e.cntCrc 1 }
      else if code = 2 then { e with cntSeq := satAdd 32 e.cntSeq 1 }
      else if code = 3 then { e with cntLen := satAdd 32 e.cntLen 1 }
      else { e with cntCredit := satAdd 32 e.cntCredit 1 })
    s.raise (posPage i) 0

/-- Answer a discarded frame with a NAK, unless one was sent within 10 µs and the expected frame has not come (R436). -/
def State.nak (s : State) (i code : Nat) : State :=
  let e := s.linkEnd i
  let mute := match e.nakAt with | some t => decide (s.now < t + 10000) | none => false
  if mute then s
  else ((s.setEnd i { e with nakAt := some s.now }).jSendU i { typ := fNak, payload := le code 1 ++ zeros 3 }).nakCount i code

/-- The credits of a discarded frame go back to the other end (R438). -/
def State.dropCred (s : State) (i n : Nat) : State :=
  s.updEnd i (fun e => { e with rxCred := e.rxCred - min e.rxCred n, owed := e.owed + min e.rxCred n })

/-- Put every frame after an ACK back in front of the queue, to be sent again under its own LSEQ (R428, R436). -/
def State.rewind (s : State) (i : Nat) : State :=
  s.updEnd i (fun e =>
    match e.unack with
    | [] => e
    | (l, _) :: _ => { e with queue := e.unack.map Prod.snd ++ e.queue, unack := [], txNext := l })

/-- Act on the ACK and CREDITS of a frame that was accepted (R434, R437, R438). -/
def State.ackIn (s : State) (i : Nat) (h : JHdr) : State :=
  let s := s.updEnd i (fun e =>
    let keep := e.unack.filter (fun x => decide ((x.1 + 8192 - h.ack - 1) % 4096 < 1024))
    { e with unack := keep, txCred := e.txCred + h.credits, replays := if keep.length < e.unack.length then 0 else e.replays })
  s.pumpEnd i

/-- A type this end may receive at its version (R431, Table 11-7). -/
def typeOk (head : Bool) (ver typ : Nat) : Bool :=
  typ == fNak || typ == fIdle || (if head then typ == fRsp || (typ == fEvent && decide (5 ≤ ver)) else typ == fReq)

/-- Receive a frame (R426, R435): whether it is accepted, and the state after. Tests go in the order of Table 11-8. -/
def State.jRecv (s : State) (i : Nat) (h : JHdr) : Bool × State :=
  let e := s.linkEnd i
  let n := credOf h.got
  if e.state ≠ lActive then (false, s)
  else if !h.crcOk then (false, (s.dropCred i n).nak i 1)
  else if !typeOk (isHead i) e.ver h.typ || h.ver ≠ e.ver then (false, (s.dropCred i n).nak i 5)
  else if h.len ≠ h.got then (false, (s.dropCred i n).nak i 3)
  else if h.typ = fNak ∨ h.typ = fIdle then (true, s.ackIn i h)
  else if e.rxCred < n then (false, s.nak i 4)
  else if h.lseq = e.rxNext then
    let s := s.setEnd i { e with rxNext := (e.rxNext + 1) % 4096, rxCred := e.rxCred - n, nakAt := none, ackDue := some (e.ackDue.getD s.now) }
    (true, s.ackIn i h)
  else if (e.rxNext + 4096 - h.lseq) % 4096 ≤ 1024 then
    -- a duplicate: discarded and acknowledged again
    (false, ((s.dropCred i n).ackIn i h).updEnd i (fun e => { e with ackDue := some (e.ackDue.getD s.now) }))
  else (false, (s.dropCred i n).nak i 2)

/-- Return the credits of an accepted frame once its buffer is free (R438). -/
def State.freeCred (s : State) (i got : Nat) : State := s.updEnd i (fun e => { e with owed := e.owed + credOf got })

/-! ## Requests (R439 to R442) -/

/-- Programs and erases go out only from a serving mode, and in VAULT for the Gondola alone (R52, Table 2-1); never from a head that has left
serving for a fault (R63). -/
def State.mayWrite (s : State) (why : Why) : Bool :=
  !s.bsv.silent && (match why with | .vault _ _ => s.mode == .vault | _ => serving s.mode)

/-- REQ frames of a request in the table. -/
def State.reqFrames (s : State) (k : Nat) (r : Req) (flags : Nat) (payloads : List Bytes) : State :=
  payloads.foldl (fun s p =>
    s.jSend (k / 4096) { typ := fReq, tag := k % 4096, tgen := r.gen, die := r.die, op := r.op, flags := flags, payload := p }) s

/-- A program or an erase. -/
def dieOp (op : Nat) : Bool := op == opProgram || op == opErase

/-- Programs and erases a die may have queued: one below version 2.0, four from it (Table 11-5). -/
def dieDepth (ver : Nat) : Nat := if ver < 4 then 1 else 4

/-- The queue of a die has no room for another program or erase, or one waits for it (R431). -/
def State.dieFull (s : State) (m die : Nat) : Bool :=
  let out := (s.jlk.reqs.filter (fun e => e.1 / 4096 == m && e.2.die == die && dieOp e.2.op)).length
  decide (dieDepth (s.linkEnd m).ver ≤ out)

/-- The oldest program or erase that waits for a die goes out, once one of the die has ended; its time to answer runs from then (R431, R441). -/
def State.pumpDie (s : State) (m die : Nat) : State :=
  let mine := fun (w : Nat × List Bytes) => (match aget s.jlk.reqs w.1 with | some r => decide (w.1 / 4096 = m ∧ r.die = die) | none => false)
  let out := (s.jlk.reqs.filter (fun e => e.1 / 4096 == m && e.2.die == die && dieOp e.2.op && !s.jlk.wait.any (fun w => w.1 == e.1))).length
  if dieDepth (s.linkEnd m).ver ≤ out then s
  else
    match s.jlk.wait.find? mine with
    | none => s
    | some w =>
      match aget s.jlk.reqs w.1 with
      | none => s
      | some r =>
        let r := { r with at0 := s.now }
        ({ s with jlk := { s.jlk with reqs := aset s.jlk.reqs w.1 r, wait := s.jlk.wait.filter (fun x => x.1 != w.1) } }).reqFrames w.1 r 0 w.2

/-- Issue a request with one or more REQ frames under a tag of the position: the lowest tag not outstanding, its
generation advanced when it is reused (R440). A program or erase beyond the depth of its die's queue waits (R431). -/
def State.jReq (s : State) (m op die addr flags : Nat) (payloads : List Bytes) (why : Why) : State :=
  let e := s.linkEnd m
  if (e.state ≠ lActive ∧ e.state ≠ lRetrain) ∨ ((op = opProgram ∨ op = opErase) ∧ s.mayWrite why = false) then s
  else
    match (List.range 4096).find? (fun t => !ahas s.jlk.reqs (m * 4096 + t)) with
    | none => s
    | some t =>
      let k := m * 4096 + t
      let g := match aget s.jlk.tagGen k with | some g => (g + 1) % 16 | none => 0
      let r : Req := { op := op, die := die, addr := addr, gen := g, at0 := s.now, why := why }
      let full := dieOp op && s.dieFull m die
      let s := { s with jlk := { s.jlk with reqs := aset s.jlk.reqs k r, tagGen := aset s.jlk.tagGen k g
                                            wait := if full then s.jlk.wait ++ [(k, payloads)] else s.jlk.wait } }
      let s := if op = opRead then
          let b := btKey m die (fld addr 0 13)
          s.setBlk b { s.blk b with outRd := (s.blk b).outRd + 1 }
        else s
      if full then s else s.reqFrames k r flags payloads

/-- Address word of Table 11-10. -/
def addrWord (block page plane mask rr : Nat) (qlc : Bool) (offset pidx pcnt : Nat) : Nat :=
  block + page * 2 ^ 13 + plane * 2 ^ 21 + mask * 2 ^ 23 + rr * 2 ^ 27 + (if qlc then 2 ^ 31 else 0) + offset * 2 ^ 32 + pidx * 2 ^ 40
    + pcnt * 2 ^ 44

/-- Read codewords of the page a table entry names, at a read-retry entry and read-level offset (R439, R408). -/
def State.jRead (s : State) (m ent plane mask rr : Nat) (offset : Int) (why : Why) : State :=
  let a := addrWord (ptBlock ent) (ptPage ent) plane mask rr (ptQlc ent) (toTwos 8 offset) 0 0
  s.jReq m opRead (ptDie ent) a 0 [le a 8] why

/-- Program a wordline: 4 pages in SLC mode, 16 in QLC mode, in ascending PIDX (R443). pages holds the payloads of each page. -/
def State.jProgram (s : State) (m die block wl : Nat) (qlc : Bool) (pages : List (List Bytes)) (why : Why) : State :=
  let n := pages.length
  let fr := pages.zipIdx.map (fun p =>
    let page := if qlc then 4 * wl + p.2 / 4 else wl
    le (addrWord block page (p.2 % 4) 0 0 qlc 0 p.2 (n - 1)) 8 ++ pageBytes block page p.1)
  s.jReq m opProgram die (addrWord block (if qlc then 4 * wl else wl) 0 0 0 qlc 0 0 (n - 1)) 0 fr why

/-- Take a request off the table, advancing its tag's generation when it failed (R440, R441). -/
def State.takeReq (s : State) (k : Nat) (failed : Bool) : State :=
  match aget s.jlk.reqs k with
  | none => s
  | some r =>
    let s := { s with jlk := { s.jlk with reqs := adel s.jlk.reqs k
                                          wait := s.jlk.wait.filter (fun w => w.1 != k)
                                          tagGen := if failed then aset s.jlk.tagGen k ((r.gen + 1) % 16) else s.jlk.tagGen } }
    if r.op = opRead then
      let b := btKey (k / 4096) r.die (fld r.addr 0 13)
      s.setBlk b { s.blk b with outRd := (s.blk b).outRd - 1 }
    else s.pumpDie (k / 4096) r.die

/-! ## Training (R423, R427, R429) -/

/-- Lanes of the SerDes may train: PRSNT_N and rails have been good for 50 ms (R707); a bridge's lanes are the module's. -/
def State.lanesOk (s : State) (i : Nat) : Bool := !isHead i || s.pins.lanesEnabled

/-- SIGNAL_DETECT on a Jonan end (R427, R452 step 1): DETECT, and TRAIN at RATE 1 where the position is enabled by fuse. -/
def State.jDetect (s : State) (i : Nat) : State :=
  let e := s.linkEnd i
  if e.state ≠ lDown || !s.lanesOk i then s
  else if isHead i && decide (positionsOf s.fuses.variant ≤ i) then s.setEnd i { e with state := lDetect, reason := 1, since := s.now }
  else s.setEnd i { e with state := lTrain, rate := 1, lanes := 0, reason := 0, since := s.now }

/-- A lane of this head's position is fenced (R40, R42). -/
def State.laneFenced (s : State) (i lane : Nat) : Bool := isHead i && (s.fencedUnits (posPage i)).contains (2 * (i % 16) + lane)

/-- A lane trains (R423, R427): the link goes to ALIGN. -/
def State.jLane (s : State) (i lane : Nat) : State :=
  let e := s.linkEnd i
  if (e.state = lTrain ∨ e.state = lAlign) ∧ s.laneFenced i lane = false then s.setEnd i { e with state := lAlign, lanes := setBit e.lanes lane true } else s

/-- ALIGN flits lock on some lanes (R423, R425, R427): NEGOTIATE, or back to ACTIVE from RETRAIN in time, replaying from
the frame after the last acknowledged. A lane that does not align is fenced. -/
def State.jAlign (s : State) (i lanes retrainMs : Nat) : State :=
  let e := s.linkEnd i
  let lanes := sumL ((List.range 2).map (fun l => if bit lanes l && !s.laneFenced i l then 2 ^ l else 0))
  let miss := (List.range 2).filter (fun l => !bit lanes l && !s.laneFenced i l)
  let fence := fun (s : State) =>
    if isHead i then miss.foldl (fun s l => s.raiseU (posPage i) 2 (2 * (i % 16) + l)) s else s
  if lanes % 4 = 0 then s
  else if e.state = lAlign then
    fence (s.setEnd i { e with state := lNegotiate, lanes := lanes % 4, since := s.now, trainGot := false, trainAt := none })
  else if e.state = lRetrain ∧ s.now < e.since + retrainMs * 1000000 then
    fence (((s.setEnd i { e with state := lActive, lanes := lanes % 4, since := s.now, replays := 0 }).rewind i).pumpEnd i)
  else s

/-- The TRAIN payload of an end (Table 11-4). -/
def State.trainPayload (s : State) (i : Nat) : Bytes :=
  let e := s.linkEnd i
  if isHead i then
    let h := posInst i
    le (s.rf (R.JLK.CFG.MIN_VER h) + 16 * s.rf (R.JLK.CFG.MAX_VER h)) 1 ++ le 0 1 ++ le s.head 1 ++ le e.lanes 1
      ++ le (s.rf (R.JLK.CFG2.RXCRED h)) 2 ++ zeros 26
  else
    let b := agetD s.bridges ((i - 64) / 2) {}
    le (b.verLo + 16 * b.verHi) 1 ++ le 1 1 ++ le ((i - 64) % 2) 1 ++ le e.lanes 1 ++ le 1024 2 ++ zeros 26

/-- Credits an end advertises: JLK.CFG2 RXCRED; a bridge at least 512 (R438), 1,024 in the model (log 18). -/
def State.advertised (s : State) (i : Nat) : Nat := if isHead i then s.rf (R.JLK.CFG2.RXCRED (posInst i)) else 1024

/-- Send TRAIN every 10 µs in NEGOTIATE until one has been received (R429). -/
def State.trainTick (s : State) (i : Nat) : State :=
  let e := s.linkEnd i
  let due := match e.trainAt with | some t => decide (t + 10000 ≤ s.now) | none => true
  if e.state = lNegotiate && !e.trainGot && due then
    (s.setEnd i { e with trainAt := some s.now }).jSendU i { typ := fTrain, payload := s.trainPayload i }
  else s

/-- Version ranges of an end: lowest and highest code. -/
def State.verRange (s : State) (i : Nat) : Nat × Nat :=
  if isHead i then (s.rf (R.JLK.CFG.MIN_VER (posInst i)), s.rf (R.JLK.CFG.MAX_VER (posInst i)))
  else let b := agetD s.bridges ((i - 64) / 2) {}; (b.verLo, b.verHi)

/-- A TRAIN frame arrives (R429, R430): true when the link is ACTIVE after it. The negotiated version is the highest code
within both ranges; with none the link goes DOWN and the position is unusable. -/
def State.jTrain (s : State) (i vers port rxcred : Nat) : Bool × State :=
  let e := s.linkEnd i
  if e.state ≠ lNegotiate then (false, s)
  else
    -- an end that has not sent its own TRAIN yet sends it now
    let s := if e.trainAt.isNone then s.trainTick i else s
    let e := s.linkEnd i
    let (lo, hi) := s.verRange i
    let l := max lo (vers % 16)
    let h := min hi (vers / 16 % 16)
    if h < l then (false, s.setEnd i { e with state := lDown, reason := 2, lanes := 0, rate := 0, since := s.now })
    else
      (true, s.setEnd i { e with state := lActive, ver := h, peer := port, trainGot := true, txCred := rxcred, rxCred := s.advertised i
                                 txNext := 0, rxNext := 0, unack := [], queue := [], owed := 0, nakAt := none, ackDue := none
                                 replays := 0, since := s.now })

/-! ## Frames of no request -/

/-- JONAN_NAK (R436): the sender replays every frame after the NAK's ACK. -/
def execJonanNak (sel : LinkSel) (h : JHdr) (code : Fin 256) (s : State) : Host.Outcome State Fault Refusal :=
  let i := endKey sel
  match s.jRecv i { h with typ := fNak } with
  | (true, s) =>
    let n := (s.linkEnd i).unack.length
    let s := (s.nakCount i code.val).updEnd i (fun e => { e with cntReplay := satAdd 32 e.cntReplay n, replays := if n = 0 then e.replays else e.replays + 1 })
    .next ((s.rewind i).pumpEnd i)
  | (false, s) => .next s

/-- JONAN_IDLE (R437): delivers ACK and credits. -/
def execJonanIdle (sel : LinkSel) (h : JHdr) (s : State) : Host.Outcome State Fault Refusal :=
  .next (s.jRecv (endKey sel) { h with typ := fIdle }).2

/-- JONAN_ACK_TIMER (R437): with no frame to send, IDLE goes out within 1 µs of a frame received. -/
def execJonanAckTimer (sel : LinkSel) (s : State) : Host.Outcome State Fault Refusal :=
  let i := endKey sel
  let e := s.linkEnd i
  if i = 192 then
    (if s.rf R.CPL.LINK_STAT.STATE = 5 && (s.cpl.ackDue.isSome || s.cpl.owed.any (fun o => decide (0 < o.2))) then .next (s.sendLink .idle) else .next s)
  else if e.state = lActive && (e.ackDue.isSome || decide (0 < e.owed)) then .next (s.jSendU i { typ := fIdle }) else .next s

end Sys2Proof.Machine
end

