-- ==== Sys2Proof/Machine/ReadPath.lean ====
section
/-! DEFINITION. The read path: resolution, fetch, decode escalation, verification, reconstruction, transmission and failure (R301 to R322, R408, R409, R418). -/
namespace Sys2Proof.Machine

/-- Opcodes of the device's own reads: a grain read again for retransmission (R319). -/
def oReread : Nat := 0x300

def State.updRead (s : State) (op i : Nat) (f : RdGrain → RdGrain) : State :=
  s.updCmd op (fun c => { c with reads := match c.reads[i]? with | some g => setNth c.reads i (f g) | none => c.reads })

def State.readAt (s : State) (op i : Nat) : Option (IoCmd × RdGrain) :=
  match aget s.io.cmds op with
  | some c => (c.reads[i]?).map (fun g => (c, g))
  | none => none

/-- Read staging buffers in use (R307, NVT.RD_STAT). -/
def State.stagingBufs (s : State) : Nat :=
  sumL (s.io.cmds.map (fun e => (e.2.reads.filter (fun g => g.cws != [] && !g.sent)).length)) + (s.io.unack.filter (fun u => !u.rel && u.g.clen != 0)).length

/-- A grain fails with a status of a status code type, Do Not Retry, and the counter of Table 8-2. -/
def State.failGrain (s : State) (op i status : Nat) (dnr : Bool) (cnt : Option Sys2Proof.Fld) : State :=
  let s := match cnt with | some f => s.inc f | none => s
  s.updRead op i (fun g => { g with done := true, fail := some (status, dnr), cws := [] })

/-- Unrecovered Read Error of status code type 2. -/
def unrecovered : Nat := 2 * 256 + 0x81

/-- A map entry failed its check (R258): counted; in PAIRED the page is asked of the partner, in SOLO it is rebuilt. -/
def State.mapFail (s : State) (ns pix : Nat) : State :=
  let s := (s.inc R.MPE.CNT_CHK.COUNT).raise Pg.MPE 0
  let key := ns + pix * 65536
  if s.mode = .paired ∨ s.mode = .handover then s.ask (.pageReq ns pix)
  else if s.mode ≠ .solo then s
  else { s with mpe := { s.mpe with badPages := if s.mpe.badPages.contains key then s.mpe.badPages else s.mpe.badPages ++ [key] } }

/-! ## Fetch (R305 to R308) -/

/-- The codewords of a record with its copies of the same page joined: unit, tile, first codeword, how many. -/
def joinCws : List (Nat × Nat × Nat) → List (Nat × Nat × Nat × Nat)
  | (u, t, c) :: (u', t', c') :: r =>
    if u = u' ∧ t = t' ∧ c / 4 = c' / 4 then (u, t, c, 2) :: joinCws r else (u, t, c, 1) :: joinCws ((u', t', c') :: r)
  | [(u, t, c)] => [(u, t, c, 1)]
  | [] => []

/-- The codewords a read grain needs. -/
def State.needCws (s : State) (g : RdGrain) : List (Nat × Nat × Nat) := cwsOf (s.foldedOf g.loc) (locOff g.loc) g.clen

/-- Key of a codeword gathered. -/
def cwKey (unit tile cw : Nat) : Nat := unit * 65536 + tile * 16 + cw

/-- A page read counts in the block's READS; at the threshold of its mode the block is marked for refresh (R409). -/
def State.noteRead (s : State) (m ent : Nat) : State :=
  let k := btKey m (ptDie ent) (ptBlock ent)
  let b := s.blk k
  let thr := 1000 * (if ptQlc ent then s.rf R.FMM.DISTURB_CFG.QLC_K else s.rf R.FMM.DISTURB_CFG.SLC_K)
  let n := min (b.reads + 1) 0xFFFFFF
  s.setBlk k { b with reads := n, refresh := b.refresh || decide (thr ≤ n) }

/-- Ask JLK for codewords of a unit for a read grain; false when the unit has no valid copy this head can reach (R324). -/
def State.askCw (s : State) (op i seg unit tile cw n : Nat) : Bool × State :=
  match s.unitAt seg unit tile (cw / 4) with
  | some (m, e) =>
    let rr := (s.blk (btKey m (ptDie e) (ptBlock e))).rr
    let mask := (2 ^ n - 1) * 2 ^ (cw % 4)
    (true, (s.noteRead m e).jRead m e (cw / 4) mask rr 0 (.grain op i unit tile cw n 0 0))
  | none => (false, s)

/-- Mark a codeword of a unit as not to be had. -/
def State.cwLost (s : State) (op i unit tile cw : Nat) : State := s.updRead op i (fun g => { g with cws := aset g.cws (cwKey unit tile cw) [] })

/-- Ask for one codeword of another unit for reconstruction, or mark it lost. -/
def State.askOther (s : State) (op i seg unit tile cw : Nat) : State :=
  match s.askCw op i seg unit tile cw 1 with
  | (true, s) => s
  | (false, s) => s.cwLost op i unit tile cw

/-- Units of a codeword's stripe row that are known to be missing, the one wanted left out. -/
def missOf (g : RdGrain) (d unit tile cw : Nat) : List Nat :=
  (List.range (d + 2)).filter (fun u => u != unit && aget g.cws (cwKey u tile cw) == some [])

/-- Start the reconstruction of a grain (R314): the same range of every other data unit and P, and Q where one of these
is already known to be missing; with two or more missing the grain is unrecoverable. -/
def State.reconLaunch (s : State) (op i : Nat) : State :=
  match s.readAt op i with
  | none => s
  | some (_, g) =>
    let seg := locSeg g.loc
    let d := (s.seg seg).d
    let need := s.needCws g
    let s := s.updRead op i (fun g => { g with recon := true, cws := [] })
    let s := need.foldl (fun s n =>
      let s := ((List.range (d + 1)).filter (fun u => u != n.1)).foldl (fun s u => s.askOther op i seg u n.2.1 n.2.2) s
      match s.readAt op i with
      | some (_, g) => if (missOf g d n.1 n.2.1 n.2.2).length = 1 && n.1 != d + 1 then s.askOther op i seg (d + 1) n.2.1 n.2.2 else s
      | none => s) s
    match s.readAt op i with
    | some (_, g) =>
      if need.any (fun n => decide (2 ≤ (missOf g d n.1 n.2.1 n.2.2).length)) then
        s.failGrain op i unrecovered true (some R.NVT.CNT_UNREC.COUNT)
      else s
    | none => s

/-- Fetch the record of a captured location; where a codeword's unit is not there, reconstruct (R305, R352, R362). -/
def State.launch (s : State) (op i : Nat) : State :=
  match s.readAt op i with
  | none => s
  | some (_, g) =>
    let seg := locSeg g.loc
    let ask := joinCws (s.needCws g)
    if ask.any (fun a => (s.unitAt seg a.1 a.2.1 (a.2.2.1 / 4)).isNone) then s.reconLaunch op i
    else ask.foldl (fun s a => (s.askCw op i seg a.1 a.2.1 a.2.2.1 a.2.2.2).2) s

/-! ## Resolution (R303 to R305, R315) -/

/-- The grain's bytes are known: not from media, or verified. -/
def State.gotGrain (s : State) (op i : Nat) (data : Bytes) (tag : Nat) : State :=
  s.updRead op i (fun g => { g with data := data, tag := tag, done := true })

/-- Read one content record's grain: lost, held in a cache, or on media (R304, R305, R315). cid's record is captured. -/
def State.readRec (s : State) (op i cid : Nat) : State :=
  match s.readAt op i with
  | none => s
  | some (c, x) =>
    let r := s.ctRec cid
    let dom := s.domainOf (s.sliceOfNs c.ns)
    let s := (s.mpcTouch (s.ctAddr cid) false).mpcTouch (s.segAddr (locSeg r.loc)) false
    let s := s.updRead op i (fun g => { g with cid := cid, loc := r.loc, clen := r.clen, gen := r.gen, cws := [], recon := false })
    if ctFree r ∨ r.dom ≠ dom then (s.raise Pg.MPE 0).failGrain op i unrecovered true (some R.NVT.CNT_RECFAIL.COUNT)
    else if r.loc = lostLoc then (s.raise Pg.RBE 1).failGrain op i unrecovered true (some R.NVT.CNT_LOST.COUNT)
    else if s.locPending r.loc then
      match s.cached c.ns x.gi cid r.gen with
      | some w =>
        if crc64 w.1 = w.2.2 then s.gotGrain op i w.1 w.2.1
        else (s.raise Pg.CMP 1).failGrain op i unrecovered true (some R.NVT.CNT_UNREC.COUNT)
      | none => s.launch op i
    else s.launch op i

/-- Resolve a grain of a command and start its read (R303). -/
def State.readGrain (s : State) (op i : Nat) : State :=
  match s.readAt op i with
  | none => s
  | some (c, g) =>
    let s := s.mpcPath g.gi false (s.pathOf c.ns g.gi)
    match s.resolve c.ns g.gi with
    | .bad pix => ((s.mapFail c.ns pix).failGrain op i unrecovered (s.mode == .solo) (some R.NVT.CNT_MAPFAIL.COUNT))
    | .unmapped => s.gotGrain op i (zeros 4096) 0xFFFF
    | .zero => s.gotGrain op i (zeros 4096) 0
    | .ref cid _ => s.readRec op i cid

/-! ## Verification (R310 to R314) -/

/-- What became of a record's bytes. -/
inductive Verdict where
  | ok (data : Bytes) (tag : Nat) (frame : Bytes)
  | noKey
  | bad (src : Nat)          -- the CMP error source

/-- Decrypt, decompress and check a grain record (R310 to R312, R339). -/
def verifyRecord (key : Option Bytes) (cid gen clen : Nat) (rec_ : Bytes) : Verdict :=
  match key with
  | none => .noKey
  | some k =>
    let hdr := leVal (xtsDec k (le (cid + 2 ^ 127) 16) (rec_.take 16))
    let st := xtsDec k (le cid 16) (slice rec_ 16 (clen * 16))
    let pl := if clen = 256 then some (st, [])
      else match zstdDecode st with
        | some (d, n) => if n ≤ clen * 16 ∧ (st.drop n).all (fun b => b == 0#8) = true then some (d, st.take n) else none
        | none => none
    match pl with
    | none => .bad 0
    | some (d, f) =>
      if crc64 d ≠ fld hdr 0 64 then .bad 1
      else if fld hdr 64 38 ≠ cid ∨ fld hdr 102 8 ≠ gen then .bad 2
      else .ok d (fld hdr 110 16) f

/-- A mismatch (R313): read the record again; where it moved, resolve the grain again, at most three times; where it did
not, reconstruct once, then fail. src is the CMP source that was set. -/
def State.mismatch (s : State) (op i : Nat) : State :=
  match s.readAt op i with
  | none => s
  | some (c, g) =>
    let r := s.ctRec g.cid
    if r.loc ≠ g.loc ∨ r.gen ≠ g.gen then
      if 3 ≤ g.tries then s.failGrain op i unrecovered false (some R.NVT.CNT_RECFAIL.COUNT)
      else
        let s := (s.inc R.NVT.CNT_RERES.COUNT).updRead op i (fun g => { g with tries := g.tries + 1 })
        if c.opc = oReread ∨ c.opc = oRplRead then s.readRec op i g.cid else s.readGrain op i
    else if g.recon then s.failGrain op i unrecovered true (some R.NVT.CNT_UNREC.COUNT)
    else s.reconLaunch op i

/-- Verify the gathered bytes of a grain record. -/
def State.verify (s : State) (op i : Nat) (rec_ : Bytes) : State :=
  match s.readAt op i with
  | none => s
  | some (c, g) =>
    let v := verifyRecord (s.xtsKey (s.keyslotOf c.slice)) g.cid g.gen g.clen rec_
    let s := match v with | .noKey => s.cphNoSlot | _ => s.cphRan 2
    match v with
    | .ok d tag f =>
      let s := (s.gotGrain op i d tag).updRead op i (fun g => { g with frame := if c.opc = oRplRead then f else [] })
      if g.recon then
        { s.inc R.NVT.CNT_RECON.COUNT with rbe := { (s.inc R.NVT.CNT_RECON.COUNT).rbe with report := s.rbe.report ++ [g.cid] } }
      else s
    | .noKey => s.failGrain op i 0x06 false none
    | .bad src => (s.raise Pg.CMP src).mismatch op i

/-- The record's bytes out of its codewords in order. -/
def recordOf (off clen : Nat) (cws : List Bytes) : Bytes := slice cws.flatten (off * 16 % 4096) (16 + clen * 16)

/-- Look at what a read grain has gathered (R309, R314): verify when its codewords are there; reconstruct when one cannot
be had; ask for Q when one more unit of a reconstruction is missing. -/
def State.gather (s : State) (op i : Nat) : State :=
  match s.readAt op i with
  | none => s
  | some (_, g) =>
    if g.done then s
    else
      let need := s.needCws g
      let seg := locSeg g.loc
      let d := (s.seg seg).d
      let got := fun (n : Nat × Nat × Nat) => aget g.cws (cwKey n.1 n.2.1 n.2.2)
      if !g.recon then
        if need.any (fun n => got n == some []) then
          let r := s.ctRec g.cid
          if r.loc ≠ g.loc ∨ r.gen ≠ g.gen then s.mismatch op i else s.reconLaunch op i
        else if need.all (fun n => (got n).isSome) then s.verify op i (recordOf (locOff g.loc) g.clen (need.filterMap got))
        else s
      else
        -- Q of the codewords that have just lost one unit
        let s := need.foldl (fun s n =>
          if (missOf g d n.1 n.2.1 n.2.2).length = 1 && (aget g.cws (cwKey (d + 1) n.2.1 n.2.2)).isNone && !(s.jlk.reqs.any (fun e =>
              match e.2.why with | .grain o j u t w _ _ _ => o == op && j == i && u == d + 1 && t == n.2.1 && w == n.2.2 | _ => false))
          then s.askOther op i seg (d + 1) n.2.1 n.2.2 else s) s
        match s.readAt op i with
        | none => s
        | some (_, g) =>
          if need.any (fun n => decide (2 ≤ (missOf g d n.1 n.2.1 n.2.2).length)) then s.failGrain op i unrecovered true (some R.NVT.CNT_UNREC.COUNT)
          else
            let rec_ := need.map (fun n =>
              let have_ := (List.range (d + 2)).filterMap (fun u =>
                match aget g.cws (cwKey u n.2.1 n.2.2) with
                | some (b :: t) => some (u, b :: t)
                | _ => none)
              if have_.length < d then none else recoverUnit d n.1 have_)
            if rec_.all Option.isSome then s.verify op i (recordOf (locOff g.loc) g.clen (rec_.filterMap id)) else s

/-! ## Codewords (R309, R382, R408, R418) -/

/-- A codeword decodes only when the CRC of its metadata checks (R382). -/
def decoded (d : CwDec) : Option Bytes := d.payload.filter (fun p => crcOk 128 (slice p 4096 128))

/-- The metadata of a decoded codeword names what was read and what the page table names (R382). -/
def State.metaOk (s : State) (m seg cw : Nat) (ent : Nat) (payload : Bytes) : Bool :=
  let x := slice payload 4096 128
  leAt x 0x18 16 == s.arrayId && leAt x 0x28 1 % 64 == m
    && leAt x 8 4 % 2 ^ 29 == ptDie ent + ptBlock ent * 64 + ptPage ent * 2 ^ 19 + cw % 4 * 2 ^ 27
    && leAt x 0 4 % 2 ^ 25 == seg && leAt x 4 1 == (s.seg seg).gen

/-- Count a codeword's decode in LDC.BER_HIST: bin k for 32k to 32k + 31 corrected bits at step 1, bin 15 for 480 and above and for a failure of
step 1 (R418). -/
def State.berHist (s : State) (bits : Option Nat) : State :=
  let s := s.inc (R.LDC.BER_HIST.COUNT (match bits with | some b => min 15 (b / 32) | none => 15))
  match bits with
  | some b => { s with ldc := { s.ldc with bits := s.ldc.bits + b, decodes := s.ldc.decodes + 1 } }
  | none => s

/-- Entries of a module's read-retry table. -/
def State.rrCount (s : State) (m : Nat) : Nat := ((aget s.fmm.mods m).map (fun x => x.rrTab)).getD 1

/-- Soft decoding is used for a position: SOFT_EN, and a link at 1.1 or above (R432). -/
def State.softOk (s : State) (m : Nat) : Bool := s.flag R.LDC.CFG.SOFT_EN && decide (2 ≤ (s.linkEnd m).ver)

/-- The answer of a read of codewords for a grain (R309, R408): per codeword, decoded, or escalated by the next step, or lost. -/
def State.readAnswer (s : State) (m : Nat) (r : Req) (op i unit tile cw n phase tried : Nat) (cws : List CwDec) : State :=
  let rr := fld r.addr 27 4
  let k := btKey m r.die (fld r.addr 0 13)
  let seg := match s.readAt op i with | some (_, g) => locSeg g.loc | none => 0
  match s.readAt op i with
  | none => s
  | some (_, g) =>
    if g.done then s
    else
      let ent := mkPt r.die (fld r.addr 0 13) (fld r.addr 13 8) (bit r.addr 31)
      let one := fun (s : State) (j : Nat) =>
        let d := nthD cws j {}
        let first := phase = 0 ∧ tried = 0
        match decoded d with
        | some p =>
          if phase = 1 then s
          else
            let s := (s.incWrap R.LDC.CNT_DEC.COUNT)
            let s := if first then s.berHist (some d.bits) else s
            let b := s.blk k
            let s := s.setBlk k { b with rr := rr, refresh := b.refresh || !decide first || decide (s.rf R.FMM.PATROL_CFG.REFRESH_BITS < d.bits) }
            if s.metaOk m seg (cw + j) ent p then
              s.updRead op i (fun g => { g with cws := aset g.cws (cwKey unit tile (cw + j)) (p.take 4096) })
            else ((s.inc R.LDC.CNT_META.COUNT).raise Pg.LDC 1).cwLost op i unit tile (cw + j)
        | none => if first then s.berHist none else s
      let s := (List.range n).foldl one s
      let left := (List.range n).filter (fun j => phase == 1 || (decoded (nthD cws j {})).isNone)
      let again := fun (s : State) (j rr : Nat) (o : Int) (ph tr : Nat) =>
        s.jRead m ent (cw / 4) (2 ^ ((cw + j) % 4)) rr o (.grain op i unit tile (cw + j) 1 ph tr)
      let delta : Int := s.rf R.FMM.RR_CFG.SOFT_DELTA
      left.foldl (fun s j =>
        if phase = 0 ∧ s.softOk m then again s j rr delta 1 tried
        else if phase = 1 then again (s.inc R.LDC.CNT_SOFT.COUNT) j rr (-delta) 2 tried
        else if tried < min (s.rf R.FMM.RR_CFG.MAX_RETRY) (s.rrCount m - 1) then
          again (s.inc R.LDC.CNT_RETRY.COUNT) j ((rr + 1) % s.rrCount m) 0 0 (tried + 1)
        else ((s.inc R.LDC.CNT_FAIL.COUNT).raise Pg.LDC 0).cwLost op i unit tile (cw + j)) s

/-! ## Transmission and the end of a command (R316, R317, R319, R320) -/

/-- Grains of a command with their sectors: (grain, first sector, sectors) (R212, R302). -/
def grainSpan (lbaf slba nlb : Nat) : List (Nat × Nat × Nat) :=
  if lbaf = 1 then
    let a := slba / 8
    let z := (slba + nlb + 7) / 8
    (List.range (z - a)).map (fun k =>
      let gi := a + k
      let lo := max slba (gi * 8)
      let hi := min (slba + nlb) (gi * 8 + 8)
      (gi, lo % 8, hi - lo))
  else (List.range nlb).map (fun k => (slba + k, 0, 8))

/-- Bytes per block on the wire: with metadata unless PRACT takes it away. -/
def wireBlock (lbaf : Nat) (pract : Bool) : Nat := blockSize lbaf + (if pract then 0 else metaSize lbaf)

/-- What a grain puts on the wire, and its offset within the command (R302, R317). -/
def wireGrain (lbaf slba : Nat) (pract : Bool) (g : RdGrain) : Nat × Bytes :=
  if lbaf = 1 then ((g.gi * 8 + g.sec - slba) * 512, slice g.data (g.sec * 512) (g.nsec * 512))
  else ((g.gi - slba) * wireBlock lbaf pract, g.data ++ (if pract || metaSize lbaf == 0 then [] else piBytes lbaf g.data g.tag g.gi))

/-- The regenerated PI of a read fails PRCHK (R155). -/
def readPi (lbaf : Nat) (c : IoCmd) (g : RdGrain) : Option Nat :=
  if c.pract && metaSize lbaf != 0 then
    piCheck c.prchk (c.lbat % 65536) (c.lbat / 65536) 0 g.tag (refTag lbaf g.gi) 0 (refTag lbaf g.gi)
  else none

/-- Answer a command with a failure: the Error Information entry gives the first failing LBA (R316); a command the
partner forwarded is answered to the partner. -/
def State.failCmd (s : State) (op sct sc : Nat) (dnr : Bool) (lba : Nat) : State :=
  match aget s.io.cmds op with
  | none => s
  | some c =>
    let s := s.dropCmd op
    match c.conn with
    | some q => (s.errInfo q c.cid sc lba c.ns).answer q c.cid sct sc dnr
    | none => if c.fromPartner then s.sendC (.fwdDone c.tok sct sc dnr 0 0) else s

/-- A command that stamped nothing completes. -/
def State.doneCmd (s : State) (op : Nat) : State :=
  match aget s.io.cmds op with
  | none => s
  | some c =>
    match c.conn with
    | some _ => s.complete op 0 0 false
    | none => let s := s.dropCmd op; if c.fromPartner then s.sendC (.fwdDone c.tok 0 0 false 0 0) else s

/-- Release the oldest unacknowledged grains that hold a staging buffer while staging is above RETAIN_PCT (R319). -/
def releaseOld : Nat → List Unack → List Unack
  | 0, l => l
  | _, [] => []
  | k + 1, u :: t => if u.rel || u.g.clen == 0 then u :: releaseOld (k + 1) t else { u with rel := true, g := { u.g with data := [] } } :: releaseOld k t

def State.trimStaging (s : State) : State :=
  let lim := 8192 * s.rf R.NVT.RD_CFG.RETAIN_PCT / 100
  if lim < s.stagingBufs then { s with io := { s.io with unack := releaseOld (s.stagingBufs - lim) s.io.unack } } else s

/-- Transmit one verified grain of a read: to the partner, or to the host, kept for retransmission (R301, R318, R319). -/
def State.sendGrain (s : State) (op i : Nat) : State :=
  match s.readAt op i with
  | none => s
  | some (c, g) =>
    if c.fromPartner then (s.sendC (.rdata c.tok (i * 4096) g.tag g.data)).updRead op i (fun g => { g with sent := true, cws := [] })
    else
      match c.conn with
      | none => s
      | some q =>
        let (o, b) := wireGrain (s.lbafOf c.ns) c.slba c.pract g
        let s := (s.sendData q c.cid o b).updRead op i (fun g => { g with sent := true })
        let keep := (match aget s.io.conns q with | some k => k.xport != 3 | none => false)
        let s := if keep then
            { s with io := { s.io with unack := s.io.unack ++ [{ conn := q, cid := c.cid, ns := c.ns, slice := c.slice, off := o, base := c.slba, pract := c.pract, g := { g with cws := [] } }] } }
          else s
        s.trimStaging

/-- The lowest failing grain of a command: its number, status and DNR. -/
def lowestFail (c : IoCmd) : Option (RdGrain × Nat × Bool) :=
  (c.reads.find? (fun g => g.fail.isSome)).bind (fun g => g.fail.map (fun f => (g, f.1, f.2)))

/-- First LBA of a grain. -/
def lbaOfGrain (lbaf gi : Nat) : Nat := if lbaf = 1 then gi * 8 else gi

/-- Check the regenerated PI of the grains of a Read that have just been verified (R155). -/
def State.piReads (s : State) (op : Nat) : State :=
  match aget s.io.cmds op with
  | none => s
  | some c =>
    if c.fromPartner ∨ c.opc ≠ oRead then s
    else
      (List.range c.reads.length).foldl (fun s i =>
        match s.readAt op i with
        | some (c, g) =>
          if g.done && g.fail.isNone && !g.sent then
            match readPi (s.lbafOf c.ns) c g with
            | some sc => s.failGrain op i (2 * 256 + sc) true (some R.NVT.CNT_PIFAIL.COUNT)
            | none => s
          else s
        | none => s) s

/-- The host's data of a block of a Compare equals the grain (R320). -/
def compareOk (lbaf : Nat) (c : IoCmd) (g : RdGrain) : Bool :=
  let (o, _) := wireGrain lbaf c.slba false g
  if lbaf = 1 then slice c.data o (g.nsec * 512) == slice g.data (g.sec * 512) (g.nsec * 512) else slice c.data o 4096 == g.data

/-- What the reads of a command have come to: grains transmitted, the command completed or failed, a merge continued. -/
def State.afterRead (s : State) (op : Nat) : State :=
  let s := s.piReads op
  match aget s.io.cmds op with
  | none => s
  | some c =>
    let all := c.reads.all (fun g => g.done)
    if c.opc = oRead ∨ c.opc = oCompare then
      match lowestFail c with
      | some (g, st, dnr) => if all then s.failCmd op (st / 256) (st % 256) dnr (lbaOfGrain (s.lbafOf c.ns) g.gi) else s
      | none =>
        if c.opc = oRead then
          let s := (List.range c.reads.length).foldl (fun s i =>
            match s.readAt op i with
            | some (_, g) => if g.done && !g.sent then s.sendGrain op i else s
            | none => s) s
          if all then s.doneCmd op else s
        else if all then
          if c.reads.all (compareOk (s.lbafOf c.ns) c) then s.doneCmd op
          else
            let bad := (c.reads.find? (fun g => !compareOk (s.lbafOf c.ns) c g)).map (fun g => g.gi)
            s.failCmd op 2 0x85 true (lbaOfGrain (s.lbafOf c.ns) (bad.getD 0))
        else s
    else if c.opc = oRplRead then s
    else if c.opc = oReread then
      -- c.src is the queue pair, c.slba the offset
      if !all then s
      else
        let s := s.dropCmd op
        match c.reads with
        | g :: _ =>
          if g.fail.isSome then (s.inc R.NVT.CNT_REREAD_FAIL.COUNT).endWith c.src 0x05 0
          else
            let (_, b) := wireGrain (s.lbafOf c.ns) c.nlb c.pract g
            let s := s.sendData c.src c.cid c.slba b
            { s with io := { s.io with unack := s.io.unack.map (fun u =>
                if u.conn = c.src && u.cid = c.cid && u.off = c.slba then { u with rel := false, g := { u.g with data := g.data } } else u) } }
        | [] => s
    else
      -- merge sources of a write (R216, R217)
      match lowestFail c with
      | some _ => ((s.raise Pg.ING 1).failWrite op 2 0x81 false).pumpGrains
      | none =>
        let done := c.reads.filter (fun g => g.done)
        let s := s.updCmd op (fun c => { c with reads := c.reads.map (fun g => if g.done then { g with sent := true, cws := [] } else g) })
        let s := done.foldl (fun s g =>
          if g.sent then s
          else
            (c.grains.zipIdx.filter (fun x => x.1.gi == g.gi && x.1.st == .merging)).foldl (fun s x =>
              ((s.updGrain op x.2 (fun y => { y with data := mergeSectors y.mask y.data g.data })).incWrap R.ING.CNT_MERGE.COUNT).enterGrain op x.2) s) s
        (s.mirrorCmd op).pumpGrains

/-- Start every read of a command that has not started. -/
def State.startReads (s : State) (op : Nat) : State :=
  match aget s.io.cmds op with
  | none => s
  | some c =>
    ((List.range c.reads.length).foldl (fun s i =>
      match s.readAt op i with
      | some (_, g) => if g.done || g.loc != 0 || g.sent then s else s.readGrain op i
      | none => s) s).afterRead op

/-- Start the merge reads that have been asked for. -/
def State.startMerges (s : State) : State :=
  (s.io.cmds.filter (fun e => writes e.2.opc && e.2.reads.any (fun g => !g.done && g.loc == 0))).foldl (fun s e =>
    ((List.range e.2.reads.length).foldl (fun s i =>
      match s.readAt e.1 i with
      | some (_, g) => if !g.done && g.loc == 0 then s.readGrain e.1 i else s
      | none => s) s).afterRead e.1) s

/-! ## Acknowledgement and retransmission (R319) -/

/-- HOST_DATA_ACK: the host acknowledges transmitted data of a command up to an offset; it leaves read staging. -/
def execHostDataAck (q cid upto : Nat) (s : State) : Host.Outcome State Fault Refusal :=
  .next { s with io := { s.io with unack := s.io.unack.filter (fun u => !(u.conn == q && u.cid == cid && decide (u.off + (if s.lbafOf u.ns = 1 then u.g.nsec * 512 else wireBlock (s.lbafOf u.ns) u.pract) ≤ upto))) } }

/-- TCP_RETRANSMIT: the transport must send a grain again; released data is read again with the CID first captured. A grain that the owner read
was captured there, and RDATA does not name its CID: this head resolves it again from its own replica (log 96). -/
def execTcpRetransmit (q cid off : Nat) (s : State) : Host.Outcome State Fault Refusal :=
  match s.io.unack.find? (fun u => u.conn == q && u.cid == cid && u.off == off) with
  | none => .next s
  | some u =>
    if !u.rel then .next (s.sendData q cid off (wireGrain (s.lbafOf u.ns) u.base u.pract u.g).2)
    else
      let op := s.io.nextOp
      let c : IoCmd := { conn := none, cid := cid, opc := oReread, slice := u.slice, ns := u.ns, slba := off, nlb := u.base, pract := u.pract, src := q
                         stage := .active, at0 := s.now, reads := [{ u.g with done := false, sent := false, cws := [], data := [], tries := 0 }] }
      let s := { s with io := { s.io with cmds := aset s.io.cmds op c, nextOp := op + 1 } }
      .next ((if u.g.loc = 0 then s.readGrain op 0 else s.readRec op 0 u.g.cid).afterRead op)

end Sys2Proof.Machine
end

