-- ==== Sys2Proof/Machine/Rpl.lean ====
section
/-! DEFINITION. RSP records, session ends, and what RPL does on its own as its lookups, reads and writes come to their end (R504 to R526). -/
namespace Sys2Proof
open Sys2Proof.Machine

/-- A session is neither IDLE, DONE nor ABORTED. -/
def RSess.running (x : RSess) : Bool := decide (1 ≤ x.state ∧ x.state ≤ 5)

/-- Direction an end sends in: 0 from the source (R509). -/
def RSess.dir (x : RSess) : Nat := b2n x.inbound

/-- Commands a session works with. -/
def RSess.ops (x : RSess) : List Nat := x.batches.filterMap (fun b => b.op) ++ x.tbs.filterMap (fun b => b.op) ++ x.exts.filterMap (fun e => e.op)

def RSess.setBatch (x : RSess) (b : RBatch) : RSess := { x with batches := x.batches.map (fun y => if y.num = b.num then b else y) }

def RSess.tb (x : RSess) (n : Nat) : Option TBatch := x.tbs.find? (fun b => b.num == n)

def RSess.setTb (x : RSess) (b : TBatch) : RSess := { x with tbs := x.tbs.map (fun y => if y.num = b.num then b else y) }

/-- An offer index is a hit or has arrived. -/
def TBatch.has (b : TBatch) (o : Nat) : Bool := ahas b.got o || ahas b.hit o

/-- Every offer index that an EXTENT names is there (R521). -/
def RExt.ready (x : RSess) (e : RExt) : Bool :=
  match e.batch with
  | none => true
  | some n => e.vals.all (fun v => decide (0xFFFD ≤ v) || (match x.tb n with | some b => b.has v | none => false))

/-- Extents overlap. -/
def RExt.meets (a b : RExt) : Bool := decide (a.start < b.start + b.len ∧ b.start < a.start + a.len)

/-- Value of grain k of an extent. -/
def RExt.val (e : RExt) (k : Nat) : Nat := if e.batch.isNone then nthD e.vals 0 0xFFFF else nthD e.vals k 0xFFFF

end Sys2Proof

namespace Sys2Proof.Machine

/-! ## Sessions -/

def State.updSess (s : State) (i : Nat) (f : RSess → RSess) : State := { s with rpl := { s.rpl with sess := aupd s.rpl.sess i f } }

/-- The running session of a number. -/
def State.sessOf (s : State) (i : Nat) : Option RSess :=
  match aget s.rpl.sess i with
  | some x => if x.running then some x else none
  | none => none

/-- Running sessions, inbound and outbound together (R505). -/
def State.sessCount (s : State) : Nat := (s.rpl.sess.filter (fun e => e.2.running)).length

/-- The lowest session number that is IDLE, DONE or ABORTED. -/
def State.freeSess (s : State) : Option Nat := (List.range 64).find? (fun i => (s.sessOf i).isNone)

/-- An outbound session names a snapshot slot as BASE or NEW (R504). -/
def State.rplNames (s : State) (ns epoch : Nat) : Bool :=
  s.rpl.sess.any (fun e => e.2.running && !e.2.inbound && e.2.ns == ns && (e.2.new_ == epoch || (e.2.kind == 2 && e.2.base == epoch)))

/-! ## The tables firmware writes (Tables 13-1, 13-2) -/

def State.outAddr (s : State) (i : Nat) : Nat := dramBase + s.rf R.RPL.OUT_BASE.ADDR + i * 64
def State.inAddr (s : State) (j : Nat) : Nat := dramBase + s.rf R.RPL.IN_BASE.ADDR + j * 64

/-- k bytes at an offset of a binding. -/
def State.bindFld (s : State) (j o k : Nat) : Nat := leVal (slice (s.entry (s.inAddr j) 64) o k)

/-- Write STATE of a binding. -/
def State.bindState (s : State) (j v : Nat) : State := s.store (s.inAddr j + 0x20) (le v 1)

/-! ## Records (R508 to R513) -/

/-- TYPE of a message (Table 13-5). -/
def rType : RMsg → Nat
  | .hello _ _ _ _ => 1 | .session _ => 2 | .offer _ _ => 3 | .want _ _ _ => 4 | .grain _ _ => 5
  | .ext _ _ _ => 6 | .run _ _ _ => 6 | .seal_ _ _ _ _ _ => 7 | .abort_ _ _ => 8

/-- Eight bits as a byte, the first one lowest. -/
def bitsByte (l : List Bool) : Nat := sumL (l.zipIdx.map (fun p => if p.1 then 2 ^ p.2 else 0))

/-- A bitmap as bytes, padded with zeros to a multiple of 4 (Table 13-5). -/
def bitmap (l : List Bool) : Bytes := le (sumL ((List.range l.length).map (fun i => if nthD l i false then 2 ^ i else 0))) (cdiv l.length 32 * 4)

/-- Body of a message (Table 13-5). -/
def rBody : RMsg → Bytes
  | .hello v r a n => le v 1 ++ le r 1 ++ zeros 2 ++ le a 16 ++ padTo 16 n ++ zeros 28
  | .session b => le b.sid 4 ++ le b.kind 1 ++ le (b2n b.offers) 1 ++ le b.target 2 ++ le b.base 4 ++ le b.new_ 4 ++ le b.size 8 ++ le b.lbaf 1
      ++ zeros 7 ++ padTo 8 b.kcv
  | .offer n fps => le n 4 ++ le fps.length 2 ++ zeros 2 ++ fps.flatMap (padTo 32)
  | .want n f bits => le n 4 ++ le bits.length 2 ++ le (b2n f) 1 ++ zeros 1 ++ bitmap bits
  | .grain n gs => le n 4 ++ le gs.length 2 ++ zeros 2
      ++ gs.flatMap (fun g => le g.oidx 2 ++ le g.form 1 ++ zeros 1 ++ le g.tag 2 ++ le g.data.length 2 ++ le g.crc 8 ++ g.data)
  | .ext n st vals => le n 4 ++ zeros 2 ++ le vals.length 2 ++ le st 8 ++ vals.flatMap (fun v => le v 2)
  | .run st len v => le 0xFFFFFFFF 4 ++ le 1 1 ++ zeros 1 ++ le 0 2 ++ le st 8 ++ le len 8 ++ le v 2 ++ zeros 6
  | .seal_ sid n t b g => le sid 4 ++ zeros 4 ++ le n 4 ++ le t 4 ++ le b 8 ++ le g 8
  | .abort_ c d => le c 2 ++ zeros 2 ++ le d 8

/-- A record on the wire (Table 13-3, R509): the header is the AAD, the nonce is RSEQ, direction and zeros. -/
def rRecord (key : Option Bytes) (dir rseq : Nat) (m : RMsg) : Bytes :=
  let b := rBody m
  let h := [0x52#8, 0x53#8] ++ le (rType m) 1 ++ le (b2n key.isSome) 1 ++ le b.length 4 ++ le rseq 8
  let e := [0x45#8, 0x4E#8, 0x44#8, 0x2E#8]
  match key with
  | none => h ++ b ++ e
  | some k => let c := gcmEnc k (le rseq 8 ++ le dir 1 ++ zeros 3) h b; h ++ c.1 ++ c.2 ++ e

/-- Key of one direction of a session (R509). -/
def rspKey (k : Bytes) (dir : Nat) (src tgt : Bytes) (ver : Nat) : Bytes := hmac k (ascii "RSP" ++ le dir 1 ++ src ++ tgt ++ le ver 1)

/-- Put a record on the wire: sealed once the keys are set. An outbound session counts the bytes it sends. -/
def State.rspEmit (s : State) (i : Nat) (m : RMsg) : State :=
  match aget s.rpl.sess i with
  | none => s
  | some x =>
    let r := rRecord (if x.txKey = [] then none else some x.txKey) x.dir x.txSeq m
    let s := if x.txKey = [] then s else
      { s.cphRan 1 with sec := { s.sec with cph := aupd s.sec.cph ((s.rf R.RPL.CPH_BASE.SLOT + 2 * i + x.dir) % 8192) (fun (k : Key) => { k with inv := k.inv + 1 }) } }
    (s.updSess i (fun x => { x with txSeq := x.txSeq + 1, bytes := if x.inbound then x.bytes else x.bytes + r.length })).emit (.rsp i r)

/-! ## The end of a session (R515, R525) -/

/-- Discard what a session has in hand (R525): reads and lookups, and writes that no group has stamped. -/
def State.rplDrop (s : State) (op : Nat) : State :=
  match aget s.io.cmds op with
  | none => s
  | some c =>
    if c.opc = oRplWrite ∧ (c.stage = .stamped ∨ c.doneN ≠ 0) then
      s.updCmd op (fun c => { c with grains := c.grains.take c.doneN, stage := .stamped })
    else
      let s := if c.txn ≠ 0 then s.sendC (.cancel (c.txn % 2 ^ 32)) else s
      { s.dropCmd op with io := { (s.dropCmd op).io with wc := s.io.wc.filter (fun w => w.op != op || w.ostamp != 0) } }

/-- The root a binding's last seal left: absent while nothing was sealed (R515). -/
def State.sealedRoot (s : State) (j : Nat) : Nat :=
  if s.bindFld j 0x18 4 = 0xFFFFFFFF then 0
  else
    match aget s.maps.nss (s.bindFld j 0x10 2) with
    | some n => agetD n.slots (s.bindFld j 0x1C 4) 0
    | none => 0

/-- Set the live root of a binding's namespace to its last seal (R515): true when it stands there. -/
def State.rootBack (s : State) (j : Nat) : Bool × State :=
  let ns := s.bindFld j 0x10 2
  match s.nsOf ns with
  | none => (true, s)
  | some n =>
    if n.root = s.sealedRoot j then (true, s)
    else if !s.ownsGroup n.desc.group then (true, s)
    else
      match s.journal [rMapPage ns (pageIx (rootLevel n.desc.size) 0) n.root (s.sealedRoot j)] with
      | (true, s) => (true, s.releaseAll)
      | (false, s) => (false, s)

/-- Restore a binding's live root, at once or when its group can be stamped. -/
def State.restoreRoot (s : State) (j : Nat) : State :=
  match s.rootBack j with
  | (true, s) => s
  | (false, s) => { s with rpl := { s.rpl with restore := if s.rpl.restore.contains j then s.rpl.restore else s.rpl.restore ++ [j] } }

/-- End a session with a code (R525, Table 13-8); sent tells that this end sent the ABORT. -/
def State.rplEnd (s : State) (i code : Nat) (sent : Bool) : State :=
  match s.sessOf i with
  | none => s
  | some x =>
    let s := x.ops.foldl (fun s op => s.rplDrop op) s
    let s := s.updSess i (fun x => { x with state := 7, code := code, sentAb := sent, batches := [], tbs := [], exts := [], sealReq := none })
    let s := (s.inc R.RPL.CNT_ABORT.COUNT).raise Pg.RPL 0
    let s := if code = 4 then
        State.raise { s with rpl := { s.rpl with cntLen := aset s.rpl.cntLen i (satAdd 32 (agetD s.rpl.cntLen i 0) 1) } } Pg.RPL 1
      else if code = 2 then s.raise Pg.RPL 2 else s
    let s := if x.inbound && decide (4 ≤ x.state) then (s.bindState x.bind 0).restoreRoot x.bind else s
    s.emit (.rspClose i)

/-- Send ABORT and end a session (R510, R525). -/
def State.rplAbort (s : State) (i code detail : Nat) : State :=
  if (s.sessOf i).isSome then (s.rspEmit i (.abort_ code detail)).rplEnd i code true else s

/-- Send a record; at RSEQ 2^32 the session ends with LIMIT instead (R511). -/
def State.rspSend (s : State) (i : Nat) (m : RMsg) : State :=
  match s.sessOf i with
  | none => s
  | some x => if 2 ^ 32 ≤ x.txSeq then s.rplAbort i 0x0D 0 else s.rspEmit i m

/-- Ownership of groups has moved: their sessions end with ABORT MOVED (R525). -/
def State.rplMoved (s : State) (gs : Nat → Bool) : State :=
  ((s.rpl.sess.filter (fun e => e.2.running && (match s.nsOf e.2.ns with | some n => gs n.desc.group | none => false))).map Prod.fst).foldl
    (fun s i => s.rplAbort i 0x12 0) s

/-- Receive a record of a session (R510): whether it is accepted, and the state after. need tells whether it has to be sealed. -/
def State.rspRecv (s : State) (i : Nat) (h : RHdr) (need : Bool) : Bool × State :=
  match s.sessOf i with
  | none => (false, s)
  | some x =>
    if !h.fmtOk || h.sealed != need || decide (1048576 < h.len) then (false, s.rplAbort i 0x03 0)
    else if !h.trailer then (false, s.rplAbort i 0x04 0)
    else if h.rseq ≠ x.rxSeq then (false, s.rplAbort i 0x05 0)
    else if need && !h.authOk then (false, s.cphAuth.rplAbort i 0x02 0)
    else
      let s := if need then s.cphRan 1 else s
      let n := 20 + h.len + (if need then 16 else 0)
      (true, s.updSess i (fun x => { x with rxSeq := x.rxSeq + 1, lastAt := s.now, bytes := if x.inbound then x.bytes + n else x.bytes }))

/-! ## The source (R516 to R521) -/

/-- Read the grains at some places of a batch (R519). -/
def State.rplRead (s : State) (i : Nat) (b : RBatch) (places : List Nat) : State :=
  match s.sessOf i with
  | none => s
  | some x =>
    let op := s.io.nextOp
    let rs := places.map (fun p => { gi := nthD b.gis p 0, cid := nthD b.cids p 0 : RdGrain })
    let c : IoCmd := { conn := none, cid := 0, opc := oRplRead, slice := ((s.nsOf x.ns).map (fun n => n.desc.slice)).getD 0, ns := x.ns
                       stage := .active, at0 := s.now, reads := rs }
    let s := { s with io := { s.io with cmds := aset s.io.cmds op c, nextOp := op + 1 } }
    let s := s.updSess i (fun x => x.setBatch { b with op := some op })
    places.zipIdx.foldl (fun s p => s.readRec op p.2 (nthD b.cids p.1 0)) s

/-- An entry of a GRAIN record (R519): the frame as FORM 1 from version 1.1, else the plaintext. -/
def rGrainOf (ver oidx : Nat) (g : Bytes × Nat × Bytes) : RGrain :=
  let f := decide (2 ≤ ver) && g.2.2 != []
  { oidx := oidx, form := b2n f, tag := g.2.1, crc := crc64 g.1, data := if f then g.2.2 else g.1 }

/-- Cut entries into records whose bodies stay within the limit of LEN. -/
def cutGrains : List RGrain → List RGrain → Nat → List (List RGrain)
  | [], acc, _ => if acc = [] then [] else [acc]
  | g :: t, acc, n =>
    let k := 16 + g.data.length
    if acc ≠ [] ∧ 1048576 < n + k then acc :: cutGrains t [g] (8 + k) else cutGrains t (acc ++ [g]) (n + k)

/-- Send the wanted grains of a batch that are here, or read those that are not (R516, R519). -/
def State.rplServe (s : State) (i : Nat) (b : RBatch) : State :=
  match s.sessOf i with
  | none => s
  | some x =>
    let places := (b.wants.map (fun o => nthD b.offers o 0)).eraseDups
    let miss := places.filter (fun p => !ahas b.got p)
    if b.wants = [] ∨ b.op.isSome = true then s.updSess i (fun x => x.setBatch b)
    else if miss ≠ [] then s.rplRead i b miss
    else
      let gs := b.wants.filterMap (fun o => (aget b.got (nthD b.offers o 0)).map (rGrainOf x.ver o))
      let s := s.updSess i (fun x => let y := x.setBatch { b with wants := [], got := [] }; { y with datas := x.datas + gs.length })
      (cutGrains gs [] 8).foldl (fun s l => s.rspSend i (.grain b.num l)) s

/-- Send OFFER and EXTENT of a batch whose fingerprints are known (R516); without OFFERS every grain goes out unasked. -/
def State.rplOffer (s : State) (i : Nat) (b : RBatch) : State :=
  match s.sessOf i with
  | none => s
  | some x =>
    let places := List.range b.cids.length
    let offers := if x.offers then places.filter (fun p => (List.range p).all (fun q => nthD b.fps q [] != nthD b.fps p [])) else places
    let ofPlace := fun (p : Nat) => if x.offers then (offers.findIdx? (fun q => nthD b.fps q [] == nthD b.fps p [])).getD 0 else p
    let val := fun (v : Nat) => if v < 0xFFFD then ofPlace v else v
    let first := (b.ents.head?.map Prod.fst).getD 0
    let last := (b.ents.getLast?.map Prod.fst).getD 0
    let vals := (List.range (last + 1 - first)).map (fun k => match b.ents.find? (fun e => e.1 == first + k) with | some e => val e.2 | none => 0xFFFF)
    let s := if x.offers ∧ offers ≠ [] then s.rspSend i (.offer b.num (offers.map (fun p => nthD b.fps p []))) else s
    let s := s.rspSend i (.ext b.num first vals)
    s.rplServe i { b with offers := offers, sent := true, wants := if x.offers then [] else List.range offers.length }

/-- The fingerprint key of the domain a session's grains lie in (R513, R517). -/
def State.rplFpKey (s : State) (dom : Nat) : Option Bytes := (s.fpSlot dom).bind s.fpKey

/-- The domain of a namespace's slice. -/
def State.nsDom (s : State) (ns : Nat) : Nat := s.domainOf (s.sliceOfNs ns)

/-- A batch whose fingerprints are all known goes out; the others' grains are read first (R517). -/
def State.rplReady (s : State) (i : Nat) (b : RBatch) : State :=
  match s.sessOf i with
  | none => s
  | some x =>
    let miss := (List.range b.cids.length).filter (fun p => nthD b.fps p [] = [])
    if x.offers ∧ miss ≠ [] then s.rplRead i b miss else s.rplOffer i b

/-- A read of the source has ended: the batch goes on, or the session ends with SOURCE_LOST (R519). -/
def State.rplReadDone (s : State) (i : Nat) (b : RBatch) (op : Nat) (c : IoCmd) : State :=
  let s := s.dropCmd op
  match c.reads.find? (fun g => g.fail.isSome) with
  | some g => (s.raise Pg.RPL 3).rplAbort i 0x0F g.gi
  | none =>
    match s.sessOf i with
    | none => s
    | some x =>
      let key := if x.offers then s.rplFpKey (s.nsDom x.ns) else none
      let placed := c.reads.filterMap (fun g => (b.cids.findIdx? (fun q => q == g.cid)).map (fun p => (p, g)))
      let fpOf := fun (f : Bytes) (g : RdGrain) => match key with | some k => if f = [] then hmac k (g.data ++ le g.tag 2) else f | none => f
      let s := if key.isSome then s.dgeRan (placed.filter (fun e => nthD b.fps e.1 [] == [])).length else s
      let b := placed.foldl (fun (b : RBatch) e =>
        { b with got := aset b.got e.1 (e.2.data, e.2.tag, e.2.frame), fps := setNth b.fps e.1 (fpOf (nthD b.fps e.1 []) e.2) }) { b with op := none }
      if b.sent then s.rplServe i b else s.rplReady i b

/-- SEAL goes out after the FINAL WANT of the last batch; a MIGRATE session waits for firmware (R523, R526). -/
def State.rplTrySeal (s : State) (i : Nat) : State :=
  match s.sessOf i with
  | none => s
  | some x =>
    if !x.inbound && x.state == 4 && x.walked && x.batches.isEmpty && (x.kind != 3 || x.sealAsked) then
      (s.updSess i (fun x => { x with state := 5 })).rspSend i (.seal_ x.sid x.new_ 0 x.count x.grains)
    else s

/-! ## The target (R518 to R523) -/

/-- A lookup of offers has come to its end (R518): WANT with a 1 for each offer that missed. -/
def State.rplWantOf (s : State) (i : Nat) (b : TBatch) (op : Nat) (c : IoCmd) : State :=
  let s := s.dropCmd op
  let hit := c.grains.zipIdx.filterMap (fun p => match p.1.st with | .hit cid gen => some (p.2, cid, gen, p.1.readAt) | _ => none)
  let want := (List.range c.grains.length).filter (fun k => !ahas hit k)
  (s.updSess i (fun x => x.setTb { b with op := none, hit := hit, want := want })).rspSend i
    (.want b.num false ((List.range c.grains.length).map (fun k => !ahas hit k)))

/-- Grains of a session that have arrived and whose EXTENT is not being written. -/
def RSess.unwritten (x : RSess) : Nat :=
  sumL ((x.tbs.filter (fun b => !x.exts.any (fun e => e.op.isSome && e.batch == some b.num))).map (fun b => b.got.length))

/-- Grains of inbound sessions that wait outside the cache list. -/
def State.rplWaiting (s : State) : Nat := sumL (s.rpl.sess.map (fun e => RSess.unwritten e.2))

/-- Bytes that inbound sessions hold in the write cache: grains that wait for their EXTENT, and dirty grains (R522). -/
def State.rplHeld (s : State) : Nat := 4096 * (s.rplWaiting + (s.io.wc.filter (fun w => w.via.isSome)).length)

/-- Some more replicated grains fit the replication share and the effective write cache (R37, R522). -/
def State.rplRoom (s : State) (n : Nat) : Bool :=
  decide (s.rplHeld + 4096 * n ≤ s.rf R.RPL.CFG2.WCSHARE * 4194304)
    && decide (s.dirtyAll + s.wcOwed (fun _ => true) + 4096 * (s.rplWaiting + n) ≤ s.wcEffective)

/-- A replicated grain enters the own write cache (R520, R522). -/
def State.rplCache (s : State) (op : Nat) (c : IoCmd) (gi : Nat) (data : Bytes) (tag : Nat) : State :=
  let free := ((List.range (s.io.wc.length + 1)).find? (fun n => !s.io.wc.any (fun w => w.slot == n))).getD 0
  let w : WcEnt := { slot := free, op := op, slice := c.slice, ns := c.ns, gi := gi, data := data, tag := tag, crc := crc64 data, via := c.via }
  { s with io := { s.io with wc := s.io.wc ++ [w] } }

/-- The grain an EXTENT value makes (R520, R521): arrived data from its lookup on, a hit as it was looked up, unmapped or zero. -/
def rplGrain (b : Option TBatch) (gi v : Nat) : Option Grain :=
  if v = 0xFFFF then none
  else if v = 0xFFFE then some { gi := gi, st := .zero }
  else if v = 0xFFFD then some { gi := gi, st := .unmap }
  else
    match b with
    | none => none
    | some b =>
      match aget b.got v with
      | some (d, t, fp) => some { gi := gi, data := d, tag := t, crc := crc64 d, fp := fp, st := .bucket }
      | none => (aget b.hit v).map (fun h => { gi := gi, fp := nthD b.fps v [], st := .hit h.1 h.2.1, readAt := h.2.2 })

/-- An EXTENT of a batch has been applied: the batch is final (R521). -/
def State.rplFinal (s : State) (i : Nat) (e : RExt) : State :=
  let n := ((List.range e.len).filter (fun k => e.val k != 0xFFFF)).length
  let s := s.updSess i (fun x => { x with grains := x.grains + n, exts := x.exts.filter (fun y => !(y.start == e.start && y.batch == e.batch && y.op == e.op)) })
  match e.batch with
  | none => s
  | some b => (s.updSess i (fun x => { x with count := x.count + 1, tbs := x.tbs.filter (fun t => t.num != b) })).rspSend i (.want b true [])

/-- Begin to apply an EXTENT (R520, R521). -/
def State.rplApply (s : State) (i : Nat) (e : RExt) : State :=
  match s.sessOf i with
  | none => s
  | some x =>
    let size := ((s.nsOf x.ns).map (fun n => n.desc.size)).getD 0
    let b := e.batch.bind x.tb
    let gs := (List.range (min e.len (size - e.start))).filterMap (fun k => rplGrain b (e.start + k) (e.val k))
    if gs = [] then s.rplFinal i e
    else
      let op := s.io.nextOp
      let c : IoCmd := { conn := none, cid := 0, adm := op, opc := oRplWrite, slice := ((s.nsOf x.ns).map (fun n => n.desc.slice)).getD 0, ns := x.ns
                         stage := .active, at0 := s.now, grains := gs, via := some (s.bindFld x.bind 0x14 2 % 1024, s.bindFld x.bind 0x16 2 % 8192) }
      let s := { s with io := { s.io with cmds := aset s.io.cmds op c, nextOp := op + 1 } }
      let s := s.updSess i (fun x => { x with exts := x.exts.map (fun y => if y == e then { y with op := some op } else y) })
      let s := gs.foldl (fun s g => if g.data = [] then s else s.rplCache op c g.gi g.data g.tag) s
      let s := gs.zipIdx.foldl (fun s p => if p.1.st = .bucket then s.lookup op p.2 else s) s
      s.mirrorCmd op

/-- A hit that cannot be had any more is asked for again (R521). -/
def State.rplAgain (s : State) (i : Nat) (e : RExt) (c : IoCmd) : State :=
  match s.sessOf i, e.batch with
  | some x, some n =>
    match x.tb n with
    | none => s
    | some b =>
      let lost := (c.grains.filter (fun g => g.st == .merging)).map (fun g => g.fp)
      let idx := (List.range b.fps.length).filter (fun o => lost.contains (nthD b.fps o []) && !b.want.contains o)
      if idx = [] then s
      else
        (s.updSess i (fun x => x.setTb { b with want := b.want ++ idx, hit := b.hit.filter (fun h => !idx.contains h.1) })).rspSend i
          (.want n false ((List.range b.fps.length).map (fun o => idx.contains o)))
  | _, _ => s

/-- What becomes of an EXTENT: one not yet begun waits for its grains, for the overlapping ones before it, and for the live root to stand where
R515 has it. -/
def State.rplExtent (s : State) (i : Nat) (e : RExt) : State :=
  match e.op with
  | some op =>
    match aget s.io.cmds op with
    | none => s.rplAbort i 0x0B 0
    | some c => if c.stage = .stamped then s.rplFinal i e else s.rplAgain i e c
  | none =>
    match s.sessOf i with
    | none => s
    | some x => if e.ready x && !s.rpl.restore.contains x.bind && !((x.exts.takeWhile (fun y => y != e)).any (fun y => y.meets e)) then s.rplApply i e else s

/-- SEAL at the target (R277, R279, R523): with every extent applied, SNAP_CREATE, then the seal interrupt. -/
def State.rplSnap (s : State) (i : Nat) : State :=
  match s.sessOf i with
  | none => s
  | some x =>
    if x.inbound && x.state == 5 && x.sealReq.isSome && x.slot.isNone && x.exts.isEmpty then
      match s.nsOf x.ns with
      | none => s
      | some n =>
        if 256 ≤ n.slots.length ∨ 65536 ≤ sumL (s.maps.nss.map (fun e => e.2.slots.length)) then s.rplAbort i 0x0B 0
        else
          match s.journal [rEpoch x.ns n.epoch] with
          | (true, s) => ((s.updSess i (fun x => { x with slot := some n.epoch })).releaseAll).event Pg.RPL
          | (false, s) => s
    else s

/-! ## What follows from a change -/

/-- One session after a change (R506, R525): a head that no longer serves, or a port without link, ends it. -/
def State.rplStep (s : State) (i : Nat) : State :=
  match s.sessOf i with
  | none => s
  | some x =>
    if !s.lportUp x.lport then s.rplEnd i 0x0C false
    else if !serving s.mode then s.rplAbort i 0x12 0
    else
      let s := x.tbs.foldl (fun s b =>
        match b.op with
        | none => s
        | some op =>
          match aget s.io.cmds op with
          | none => s
          | some c => if c.grains.all (fun g => match g.st with | .hit _ _ | .unmap => true | _ => false) then s.rplWantOf i b op c else s) s
      let s := x.batches.foldl (fun s b =>
        match b.op with
        | none => s
        | some op =>
          match aget s.io.cmds op with
          | none => s
          | some c => if c.reads.all (fun g => g.done) then s.rplReadDone i b op c else s) s
      let s := x.exts.foldl (fun s e => if (s.sessOf i).isSome then s.rplExtent i e else s) s
      (s.rplTrySeal i).rplSnap i

/-- Every session after a change, and the roots that wait to be restored. -/
def State.rplSettle (s : State) : State :=
  let s := (s.rpl.sess.map Prod.fst).foldl (fun s i => s.rplStep i) s
  s.rpl.restore.foldl (fun s j => match s.rootBack j with
    | (true, s) => { s with rpl := { s.rpl with restore := s.rpl.restore.filter (fun k => k != j) } }
    | (false, s) => s) s

end Sys2Proof.Machine
end

