-- ==== Sys2Proof/Machine/Resume.lean ====
section
/-! DEFINITION. What follows from a change: merges started, forwarded commands sent, departures completed; and the engine events of the write path. -/
namespace Sys2Proof.Machine

/-- Bytes of write data a FORWARD frame carries (R482, Table 12-6). -/
def fwdChunk : Nat := 32768

/-- The partner owns the group of a namespace, so that a command on it is forwarded (R62). -/
def State.forwards (s : State) (ns : Nat) : Bool :=
  (s.mode == .paired || s.mode == .handover) &&
  (match s.nsOf ns with | some n => !s.ownsGroup n.desc.group | none => false)

/-- Send the CMD of a forwarded command and its WDATA in ascending offset (R482). -/
def State.sendFwd (s : State) (op : Nat) : State :=
  match aget s.io.cmds op with
  | none => s
  | some c =>
    let q := c.conn.getD 0
    let k := (aget s.io.conns q)
    let f : FwdCmd := { opc := c.opc, ns := c.ns, slba := c.slba, nlb := c.nlb, pract := c.pract, lbat := c.lbat, deac := c.deac, ranges := c.ranges }
    let s := (s.updCmd op (fun c => { c with bound := true })).sendC
      (.fwdCmd c.tok c.slice ((k.bind (fun k => k.ctl)).getD 0) ((k.map (fun k => k.qid)).getD 0) ((k.map (fun k => k.lport)).getD 0) f (c.data.take fwdChunk))
    (List.range (cdiv c.data.length fwdChunk - 1)).foldl (fun s i =>
      s.sendC (.wdata c.tok ((i + 1) * fwdChunk) (slice c.data ((i + 1) * fwdChunk) (min fwdChunk (c.data.length - (i + 1) * fwdChunk))))) s

/-- Send the forwarded commands that wait for the link (R482). -/
def State.pumpFwd (s : State) : State :=
  if s.caridUp then
    ((s.io.cmds.filter (fun e => e.2.fwd && !e.2.bound && e.2.stage == Stage.active)).map Prod.fst).foldl (fun s op => s.sendFwd op) s
  else s

/-- Complete the departure from SOLO that waits for admitted commands (R56). -/
def State.leaveIfIdle (s : State) : State :=
  if s.mode = .solo ∧ s.admitted = 0 then
    match s.bsv.leaveCause with
    | some c => s.leave c
    | none => if s.bsv.stopAsked then ({ s with bsv := { s.bsv with stopAsked := false } }.enter .isolated 0x01).stopServing else s
  else s

/-- What follows at once from a change of the commands in flight. -/
def State.settle (s : State) : State := s.startMerges.pumpFwd.leaveIfIdle.rplSettle

/-- PORT_CFG_WRITE (R138). -/
def execPortCfgWrite (port : Fin 16) (v : BitVec 32) (s : State) : Host.Outcome State Fault Refusal :=
  .next (s.portCfgWrite port.val v.toNat).settle

/-- PORT_LINK_DOWN (R137, R161). -/
def execPortLinkDown (port : Fin 16) (k : Fin 4) (s : State) : Host.Outcome State Fault Refusal :=
  .next (s.dropLport (4 * port.val + k.val)).settle

/-- FINGERPRINT (R220 to R222): the digest core finishes a grain's HMAC over its data and application tag. A domain
whose entry is not VALID fails the write and sets ING's error (R221). -/
def execFingerprint (op g : Nat) (s : State) : Host.Outcome State Fault Refusal :=
  match s.grainAt op g with
  | some (c, x) =>
    if x.st = .digest then
      match s.fpSlot (s.domainOf c.slice) with
      | none => .next ((s.raise Pg.ING 0).failWrite op 0 0x06 false).pumpGrains.settle
      | some slot =>
        match s.fpKey slot with
        | some k => .next (((s.dgeRan 1).updGrain op g (fun x => { x with fp := hmac k (x.data ++ le x.tag 2) })).lookup op g).settle
        | none => .next (s.dgeNoSlot.failWrite op 0 0x06 false).pumpGrains.settle
    else .next s
  | none => .next s

/-- The trailer entry of the candidate in turn arrives, or its fetch fails (R225, R226). -/
def State.trailerDone (s : State) (op g : Nat) (fp : Option Bytes) : State :=
  match s.grainAt op g with
  | some (_, x) =>
    match x.st with
    | .confirm (cid :: t) =>
      match fp with
      | none => ((s.inc R.ING.CNT_TFAIL.COUNT).raise Pg.ING 2).confirmHit op g t
      | some f =>
        let s := s.cmpRan.incWrap R.ING.CNT_CAND.COUNT
        if f = x.fp then (s.incWrap R.ING.CNT_HIT.COUNT).updGrain op g (fun x => { x with st := .hit cid (s.ctRec cid).gen })
        else (s.incWrap R.ING.CNT_FALSE.COUNT).confirmHit op g t
    | _ => s
  | none => s

/-- TRAILER_FETCH_DONE (R226). -/
def execTrailerFetchDone (op g : Nat) (fp : Option Bytes) (s : State) : Host.Outcome State Fault Refusal :=
  .next (s.trailerDone op g fp).settle

/-- COMPRESS_DONE (R231, R232): CMP's frame is an RLE frame for a grain of one repeated byte; otherwise blk is the
content of its Compressed block, which the spec leaves to CMP: one that does not decode to the grain (RFC 8878) is nothing CMP produces, and
nothing happens. A frame longer than 3,584 bytes is not kept. -/
def execCompressDone (op g : Nat) (blk : Bytes) (s : State) : Host.Outcome State Fault Refusal :=
  match s.grainAt op g with
  | some (c, x) =>
    if x.st = .compress then
      let f := if constRun x.data then zstdFrame 1 4096 (x.data.take 1) else zstdFrame 2 blk.length blk
      let sl := c.slice % 4096
      if !constRun x.data && zstdDecode f != some (x.data, f.length) then .next s
      else if c.opc = oAdopt then
        -- the record keeps its CLEN (R126): another length is not what CMP gave for these bytes
        .next (if cdiv f.length 16 = (s.ctRec x.cid).clen then s.updGrain op g (fun x => { x with stored := padTo (cdiv f.length 16 * 16) f, raw := false, st := .sealing }) else s)
      else if f.length ≤ 3584 then
        .next ((if c.via.isSome then s else s.predict sl x.probe true).updGrain op g (fun x => { x with stored := padTo (cdiv f.length 16 * 16) f, raw := false, st := .sealing }))
      else
        .next (((if c.via.isSome then s else s.predict sl x.probe false).incWrap R.ING.CNT_RAW.COUNT).updGrain op g (fun x => { x with stored := x.data, raw := true, st := .sealing }))
    else .next s
  | none => .next s

/-- GRAIN_ENCRYPT_DONE (R235, R237, R339): CPH seals the stored bytes and the check field; SGB places the record. A slot
that holds no XTS key fails the write with Internal Error (log 16). -/
def execGrainEncryptDone (op g : Nat) (s : State) : Host.Outcome State Fault Refusal :=
  match s.grainAt op g with
  | some (c, x) =>
    if x.st = .sealing then
      match s.xtsKey (s.cmdKey c) with
      | some k =>
        let rec_ := sealRecord k x.cid (checkField x.crc x.cid x.gen x.tag) x.stored
        .next (((s.cphRan 2).updGrain op g (fun x => { x with hdr := rec_ })).placeGrain op g)
      | none => .next (s.cphNoSlot.failWrite op 0 0x06 false).pumpGrains.settle
    else .next s
  | none => .next s

/-- GROUP_STAMP (R239): a stamped command the partner forwarded is answered once its data is held. -/
def execGroupStamp (op : Nat) (s : State) : Host.Outcome State Fault Refusal := .next ((s.groupStamp op).tryFwdDone op).settle

/-- HIT_EXPIRY (R268): a hit whose group is not stamped within 1 ms of the bucket read repeats its lookup. -/
def execHitExpiry (op : Nat) (s : State) : Host.Outcome State Fault Refusal :=
  match aget s.io.cmds op with
  | some c => if c.stage == .active && s.hitsExpired c then .next (s.retryCmd op).settle else .next s
  | none => .next s

/-- The completion is posted once commit wait has passed (R116, R245, R68), stamped by its NVT issuer and logged (R104, log 83); a command whose
connection has ended completes silently (R161); one the partner forwarded is answered to it (R483). -/
def State.commitWait (s : State) (op : Nat) : State :=
  match aget s.io.cmds op with
  | none => s
  | some c =>
    if c.fromPartner then s.tryFwdDone op
    else if s.mode == .vault || !s.mayAck c then s
    else
      match c.conn with
      | none => (s.dropCmd op).wcRelease (s.dropCmd op).wcDone
      | some q =>
        match s.issue (s.nvtUnit q) with
        | (none, s) => s
        | (some o, s) =>
          let s := { s with io := { s.io with cqLog := s.io.cqLog ++ [(o, q, c.cid)] } }
          let s := s.complete op 0 0 false
          s.wcRelease s.wcDone

/-- COMMIT_WAIT_PASS (R116). -/
def execCommitWaitPass (op : Nat) (s : State) : Host.Outcome State Fault Refusal := .next (s.commitWait op).settle

/-! ## Grains and their data (R151 to R156, R212 to R215) -/

/-- Bytes of a block as a write transfers it: metadata is always interleaved (R151). -/
def wireSize (lbaf : Nat) : Nat := blockSize lbaf + metaSize lbaf

/-- The first block of a write that fails its Protection Information, with the status (R152). -/
def piWrite (lbaf : Nat) (c : IoCmd) : Option (Nat × Nat) :=
  if metaSize lbaf = 0 ∨ c.pract = true then none
  else
    (List.range c.nlb).findSome? (fun i =>
      let d := slice c.data (i * wireSize lbaf) 4096
      let (g, t, r) := piParse lbaf (slice c.data (i * wireSize lbaf + 4096) (metaSize lbaf))
      (piCheck c.prchk (c.lbat % 65536) (c.lbat / 65536) g t r (guardOf lbaf d) (refTag lbaf (c.slba + i))).map (fun sc => (i, sc)))

/-- The grains of a write (R212, R153): sector mask, data and application tag of each. -/
def writeGrains (lbaf : Nat) (c : IoCmd) : List Grain :=
  (grainSpan lbaf c.slba c.nlb).map (fun p =>
    let (gi, sec, n) := p
    if lbaf = 1 then
      { gi := gi, mask := (2 ^ n - 1) * 2 ^ sec, data := padTo 4096 (zeros (sec * 512) ++ slice c.data ((gi * 8 + sec - c.slba) * 512) (n * 512)) }
    else
      let o := (gi - c.slba) * wireSize lbaf
      { gi := gi, data := slice c.data o 4096
        tag := if metaSize lbaf = 0 then 0 else if c.pract then c.lbat % 65536
          else (piParse lbaf (slice c.data (o + 4096) (metaSize lbaf))).2.1 })

/-- The grains of a Write Zeroes (R281): whole grains become zero grains, or are unmapped with DEAC; a grain covered in
part is merged with zeros. -/
def zeroGrains (lbaf : Nat) (c : IoCmd) : List Grain :=
  (grainSpan lbaf c.slba c.nlb).map (fun p =>
    let (gi, sec, n) := p
    if n = 8 then { gi := gi, st := if c.deac then .unmap else .zero }
    else { gi := gi, mask := (2 ^ n - 1) * 2 ^ sec, data := zeros 4096 })

/-- The grains of a Deallocate (R269): those that a range covers whole, each once. -/
def deallocGrains (lbaf : Nat) (c : IoCmd) : List Grain :=
  let gs := c.ranges.flatMap (fun r => ((grainSpan lbaf r.1 r.2).filter (fun p => p.2.2 == 8)).map (fun p => p.1))
  (gs.foldl (fun (l : List Nat) g => if l.contains g then l else l ++ [g]) []).map (fun gi => { gi := gi, st := .unmap })

/-- The grains of a Copy: each takes what its source grain resolves to (R282). -/
def State.copyGrains (s : State) (c : IoCmd) : List Grain :=
  let lbaf := s.lbafOf c.ns
  let k := if lbaf = 1 then 8 else 1
  let r := nthD c.ranges 0 (0, 0)
  (List.range (r.2 / k)).map (fun j =>
    { gi := c.slba / k + j, st := match s.resolve c.ns (r.1 / k + j) with
      | .ref cid b => .copy cid (s.ctRec cid).gen b
      | .zero => .zero
      | _ => .unmap })

/-- A grain of a Copy's source whose map entry failed its check. -/
def State.copyBad (s : State) (c : IoCmd) : Option Nat :=
  let k := if s.lbafOf c.ns = 1 then 8 else 1
  let r := nthD c.ranges 0 (0, 0)
  (List.range (r.2 / k)).findSome? (fun j => match s.resolve c.ns (r.1 / k + j) with | .bad pix => some pix | _ => none)

/-- Put a command's grains to work in order (R218). -/
def State.beginGrains (s : State) (op : Nat) (gs : List Grain) : State :=
  let s := s.updCmd op (fun c => { c with stage := Stage.active, grains := gs, need := if c.opc = oWrite then c.need else 0 })
  let s := (List.range gs.length).foldl (fun s i =>
    match s.grainAt op i with
    | some (_, g) => if g.st = .digest then s.beginGrain op i else s
    | none => s) s
  (s.mirrorCmd op).settle

/-- Room for a write that is already among those in flight. -/
def State.carryRoom (s : State) (op : Nat) (c : IoCmd) : Bool :=
  s.wcNeed c == 0 || ((s.dropCmd op).shareRoom c && decide ((s.dropCmd op).dirtyAll + (s.dropCmd op).wcOwed (fun _ => true) + s.wcNeed c ≤ s.wcEffective))

/-- Carry out a reservation command that came from the other head (R150): the owner makes the change under a stamp of its own, or waits for
one; the head that does not own the group follows what the owner has changed. -/
def State.carryResv (s : State) (op : Nat) (c : IoCmd) : State :=
  let own := match s.nsOf c.ns with | some n => s.ownsGroup n.desc.group | none => false
  match s.resApply c.ns c.opc c.lbat c.data with
  | (0, s1) =>
    if own then
      match s1.issue (Unit.nvt 0) with
      | (none, _) => s.ovfBegin (Unit.nvt 0)
      | (some o, s1) => (s1.dropCmd op).sendC (.fwdDone c.tok 0 0 false 0 o)
    else (s1.dropCmd op).sendC (.fwdDone c.tok 0 0 false 0 0)
  | (sc, s) => (s.dropCmd op).sendC (.fwdDone c.tok 0 sc true 0 0)

/-- The blocks that a command's work goes through, besides NVT and SLM: those of its memory, and of the read or the write path (log 107). -/
def workPath (opc : Nat) : List Nat :=
  if isResv opc || opc == oFlush then [Pg.HBC, Pg.DDC]
  else if opc = oRead ∨ opc = oCompare then [Pg.LDC, Pg.MPE, Pg.MPC, Pg.HBC, Pg.DDC]
  else [Pg.ING, Pg.DGE, Pg.CMP, Pg.CPH, Pg.SGB, Pg.JRN, Pg.MPE, Pg.MPC, Pg.HBC, Pg.DDC]

/-- The HFX instance or ANX that a command came through (R136, R141). -/
def State.portPage (s : State) (c : IoCmd) : Option Nat :=
  match c.conn with
  | some q => (aget s.io.conns q).map (fun k => if k.xport = 3 then Pg.ANX else Pg.HFX + k.lport / 16)
  | none => none

/-- Every block that a command's work goes through takes new work (R675): until then the command waits. -/
def State.pathOn (s : State) (c : IoCmd) : Bool :=
  (workPath c.opc).all s.blockOn && (match s.portPage c with | some p => s.blockOn p | none => true)

/-- Start an admitted command whose data is all here, on the head that carries it out (R62, R150, R482). A write that the partner
forwarded waits while this head's write cache or the slice's share of it has no room (R37, R181, log 93), or a block takes no new
work (R675). -/
def State.carryOut (s : State) (op : Nat) : State :=
  match aget s.io.cmds op with
  | none => s
  | some c =>
    let lbaf := s.lbafOf c.ns
    if c.fromPartner && (s.moveWaits c.ns c.opc || !s.carryRoom op c || !s.pathOn c) then s
    else if isResv c.opc then s.carryResv op c
    else if c.opc = oRead ∨ c.opc = oCompare then
      let rs := (grainSpan lbaf c.slba c.nlb).map (fun p => { gi := p.1, sec := p.2.1, nsec := p.2.2 : RdGrain })
      ((s.updCmd op (fun c => { c with stage := Stage.active, reads := rs })).startReads op).settle
    else if c.opc = oWrite then
      if (s.fpSlot (s.domainOf c.slice)).isNone then ((s.raise Pg.ING 0).failWrite op 0 0x06 false).settle
      else s.beginGrains op (writeGrains lbaf c)
    else if c.opc = oWz then s.beginGrains op (zeroGrains lbaf c)
    else if c.opc = oDsm then
      if deallocGrains lbaf c = [] then (s.updCmd op (fun c => { c with stage := Stage.stamped })).settle
      else s.beginGrains op (deallocGrains lbaf c)
    else if c.opc = oCopy then
      match s.copyBad c with
      | some pix => ((s.mapFail c.ns pix).failWrite op 2 0x81 (s.mode == .solo)).settle
      | none => (s.updCmd op (fun c => { c with src := (nthD c.ranges 0 (0, 0)).1 / (if lbaf = 1 then 8 else 1) })).beginGrains op (s.copyGrains c)
    else s

/-- All data of an admitted command is here (R152, R62): Protection Information is checked; then the command is carried
out or forwarded to the owner. -/
def State.dataHere (s : State) (op : Nat) : State :=
  match aget s.io.cmds op with
  | none => s
  | some c =>
    match (if c.opc = oWrite then piWrite (s.lbafOf c.ns) c else none) with
    | some (i, sc) =>
      let s := s.dropCmd op
      (match c.conn with
        | some q => (s.errInfo q c.cid sc (c.slba + i) c.ns).answer q c.cid 2 sc true
        | none => s).settle
    | none =>
      if !c.fromPartner && s.forwards c.ns then
        (s.updCmd op (fun c => { c with stage := Stage.active, fwd := true, tok := op + 1 })).settle
      else s.carryOut op

/-- Commands the partner forwarded whose data is all here and that have not started. -/
def State.pumpCarry (s : State) : State :=
  ((s.io.cmds.filter (fun e => e.2.fromPartner && e.2.stage == Stage.data && decide (e.2.need ≤ e.2.recvd))).map Prod.fst).foldl (fun s op => s.carryOut op) s

end Sys2Proof.Machine
end

