-- ==== Sys2Proof/Machine/HostIo.lean ====
section
/-! DEFINITION. Host commands on namespaces: arrival, admission, host data, reservations (R30, R141 to R164, R190). -/
namespace Sys2Proof.Machine

/-! ## Host data (R143, Table 4-3) -/

/-- Largest Ready-to-Transfer range, and how many a command may have outstanding. -/
def r2tMax : Nat := 262144
def r2tOut : Nat := 4

/-- Ask for the next ranges of a command's data over NVMe/TCP (R143). -/
def State.grantR2t (s : State) (op : Nat) : Nat → State
  | 0 => s
  | k + 1 =>
    match aget s.io.cmds op with
    | none => s
    | some c =>
      match c.conn.bind (fun q => (aget s.io.conns q).map (fun k => (q, k))) with
      | none => s
      | some (q, kn) =>
        let out := (kn.r2ts.filter (fun r => r.op == op)).length
        if c.need ≤ c.asked ∨ r2tOut ≤ out then s
        else
          match (List.range 4096).find? (fun i => !kn.r2ts.any (fun r => r.idx == i)) with
          | none => s
          | some i =>
            let gen := match aget kn.ttagGen i with | some g => (g + 1) % 16 | none => 0
            let len := min r2tMax (c.need - c.asked)
            let s := s.updConn q (fun kn => { kn with ttagGen := aset kn.ttagGen i gen, r2ts := kn.r2ts ++ [{ idx := i, gen := gen, op := op, off := c.asked, len := len }] })
            let s := s.updCmd op (fun c => { c with asked := c.asked + len })
            (s.hostEmit q (.r2t q c.cid (gen * 4096 + i) c.asked len)).grantR2t op k

/-- Ask for a command's host data over its transport, or take it where it is already here: in the capsule (R141), or in
the memory of the co-located process (Annex). -/
def State.fetchData (s : State) (op : Nat) (inCapsule : Option Bytes) : State :=
  match aget s.io.cmds op with
  | none => s
  | some c =>
    match inCapsule with
    | some d => (s.updCmd op (fun c => { c with data := padTo c.need (d.take c.need), recvd := c.need, asked := c.need })).dataHere op
    | none =>
      let s := s.updCmd op (fun c => { c with stage := Stage.data, data := zeros c.need })
      match c.conn.bind (fun q => (aget s.io.conns q).map (fun k => (q, k))) with
      | some (q, kn) => if kn.xport = 1 then s.grantR2t op 5 else s.hostEmit q (.rdmaRead q c.cid c.need)
      | none => s

/-- Place arriving data of a command; when all of it is here the command goes on. -/
def State.placeData (s : State) (op off : Nat) (d : Bytes) : State :=
  let s := s.updCmd op (fun c => { c with data := (c.data.take off ++ d ++ c.data.drop (off + d.length)).take c.need, recvd := c.recvd + d.length })
  match aget s.io.cmds op with
  | some c => if c.need ≤ c.recvd then s.dataHere op else s
  | none => s

/-! ## Reservations (R150, Table 4-4) -/

/-- Tell the other head of a reservation this head, the owner, has changed: the command goes to it with its host's identifier (log 43);
it completes once that head has it too. -/
def State.resTell (s : State) (op : Nat) : State :=
  if s.mode = .paired ∨ s.mode = .handover then
    ((s.updCmd op (fun c => { c with fwd := true, tok := op + 1 })).sendFwd op).updCmd op (fun c => { c with bound := false })
  else s

/-- Carry out an admitted reservation command (R104, R116, R150): Report is answered at once; a head that does not own the namespace's
group leaves the change to the owner, so that both heads make changes in one order; a change takes a stamp of its NVT issuer and completes
after commit wait. Without a stamp it waits. -/
def State.reserveNow (s : State) (op : Nat) : State :=
  match aget s.io.cmds op with
  | none => s
  | some c =>
    match c.conn with
    | none => s.dropCmd op
    | some q =>
      if c.opc = oResRep then (s.hostEmit q (.adminData q c.cid (resReport (s.resvOf c.ns)))).complete op 0 0 false
      else
        let s := s.updCmd op (fun c => { c with stage := Stage.active, data := resData c.data (s.hostOf q) })
        if s.forwards c.ns then (s.updCmd op (fun c => { c with fwd := true, tok := op + 1 })).settle
        else
          match s.resApply c.ns c.opc c.lbat (resData c.data (s.hostOf q)) with
          | (0, s1) =>
            (match s1.issue (s.nvtUnit q) with
             | (none, _) => s.ovfBegin (s.nvtUnit q)
             | (some o, s1) => ((s1.updCmd op (fun c => { c with stage := Stage.stamped, ostamp := o })).resTell op).settle)
          | (sc, _) => s.failCmd op 0 sc true 0

/-- Reservation commands that wait for their stamp. -/
def State.pumpResv (s : State) : State :=
  ((s.io.cmds.filter (fun e => isResv e.2.opc && e.2.stage == Stage.active && !e.2.fwd && !e.2.fromPartner)).map Prod.fst).foldl (fun s op => s.reserveNow op) s

/-! ## Admission (R30, R181, R189 to R194) -/

/-- A command waits because of its slice's own ceiling or write-cache share (Table 5-5, THROTTLE). -/
def State.selfHeld (s : State) (c : IoCmd) : Bool :=
  let i := c.slice % 4096
  let d := s.dynOf i
  let atCeil := fun (t : Tok) (b : Bool) => match ceilOf (s.sliceDesc i) t b with
    | some k => decide (k ≤ t.grant + 65535)
    | none => false
  (c.opc == oWrite && !s.shareRoom c) || atCeil d.ops false || (decide (s.byteCost c ≠ 0) && atCeil d.byt true)

/-- Why a waiting command cannot be taken any more: its group or its slice changed while it waited (R60, R61, R185). -/
def State.turnedAway (s : State) (c : IoCmd) : Option (Nat × Nat × Bool) :=
  let ana := match s.nsOf c.ns with | some n => s.anaOf n.desc.group | none => 3
  if ana = 0xF then some (3, 0x03, false)
  else if ana = 3 then some (3, 0x02, false)
  else if sdState (s.sliceDesc (c.slice % 4096)) ≠ 1 then some (0, 0x82, false)
  else none

/-- A command is admitted: it takes its place in the order of admission (R218). -/
def State.takeTurn (s : State) (op : Nat) : State :=
  let n := s.io.nextOp
  { (s.updCmd op (fun c => { c with adm := n })) with io := { (s.updCmd op (fun c => { c with adm := n })).io with nextOp := n + 1 } }

/-- Consider one waiting command for admission. -/
def State.tryAdmit (s : State) (op : Nat) : State :=
  match aget s.io.cmds op with
  | none => s
  | some c =>
    if c.stage != .waiting || !s.admitting then s
    else
      match s.turnedAway c with
      | some (sct, sc, dnr) =>
        let s := s.dropCmd op
        (match c.conn with | some q => s.answer q c.cid sct sc dnr | none => s)
      | none =>
        let wait := fun (s : State) => if s.selfHeld c then s.updDyn (c.slice % 4096) (fun d => { d with ceiled := true }) else s
        if s.moveWaits c.ns c.opc || !s.pathOn c then s
        else if s.wcNeed c != 0 && !(s.shareRoom c && s.writeRoom c) then wait s
        else
          match s.bridleTake (c.slice % 4096) (opCost c.opc) (s.byteCost c) with
          | none => wait s
          | some s =>
            let s := s.takeTurn op
            if c.opc = oWrite ∨ c.opc = oCompare then
              s.fetchData op (if c.recvd = 0 then none else some c.data)
            else if c.opc = oFlush then (s.updCmd op (fun c => { c with stage := Stage.stamped, ostamp := s.mpe.top })).settle
            else if isResv c.opc then s.reserveNow op
            else s.dataHere op

/-- Consider every waiting command in order, after the commands the partner forwarded that wait for room and the reservations that wait
for a stamp. -/
def State.admitAll (s : State) : State := s.pumpCarry.pumpResv.admitOrder.foldl (fun s op => s.tryAdmit op) s.pumpCarry.pumpResv

/-! ## Arrival -/

/-- Data of a write or compare that has come with the command: in the capsule, or in the process's memory. -/
def capsuleData (k : Conn) (c : NvmeCmd) (need : Nat) : Option Bytes :=
  if k.xport = 3 then some (padTo need (c.icd.take need))
  else match c.sgls with
    | [g] => if g.typ = 0 then some (slice c.icd g.off g.len) else none
    | _ => none

/-- The command in flight that an accepted arrival becomes: with the bytes it needs from the host, and with data that came along. -/
def State.takenCmd (s : State) (q opc : Nat) (k : Conn) (c : NvmeCmd) : IoCmd :=
  let need := if opc = oWrite ∨ opc = oCompare then s.wireBytes c else 0
  let m := { s.mkCmd q opc c with need := need }
  let m := if isResv opc then { m with lbat := nthD c.cdw 0 0, data := c.icd } else m
  -- Dataset Management acts on its Deallocate attribute only, bit 2 of dword 11 (Table 4-4, log 15)
  let m := if opc = oDsm && !bit (nthD c.cdw 1 0) 2 then { m with ranges := [] } else m
  match (if need = 0 then none else capsuleData k c need) with
  | some d => { m with data := padTo need d, recvd := need, asked := need }
  | none => m

/-- A host command on a namespace arrives (R157, R158, R150): checked in order, then it waits at admission and is admitted
at once where its tokens and room are there; while write staging is full, the waiting commands are considered in the order of R194. -/
def State.arrive (s : State) (q opc : Nat) (c : NvmeCmd) : State :=
  match aget s.io.conns q with
  | none => s
  | some k =>
    if k.ctl.isNone ∨ k.err = true then s
    else if k.qid = 0 then s.answer q c.cid 0 0x01 true
    else
      let s := s.arrived q c
      match s.check q opc k c with
      | some s => s
      | none =>
        if !isResv opc && resConflict (s.resvOf c.nsid) (s.hostOf q) opc then s.answer q c.cid 0 0x83 true
        else
          let (op, s) := s.insertCmd (s.takenCmd q opc k c)
          if s.stagingFull then s.admitAll else s.tryAdmit op

/-- READ (R301). -/
def execReadCmd (q : Nat) (c : NvmeCmd) (s : State) : Host.Outcome State Fault Refusal := .next (s.arrive q oRead c)

/-- WRITE (R245). -/
def execWriteCmd (q : Nat) (c : NvmeCmd) (s : State) : Host.Outcome State Fault Refusal := .next (s.arrive q oWrite c)

/-- FLUSH (R147): no media work; it completes after commit wait for what this head has applied. -/
def execFlushCmd (q : Nat) (c : NvmeCmd) (s : State) : Host.Outcome State Fault Refusal := .next (s.arrive q oFlush c)

/-- WRITE_ZEROES (R281). -/
def execWriteZeroes (q : Nat) (c : NvmeCmd) (s : State) : Host.Outcome State Fault Refusal := .next (s.arrive q oWz c)

/-- DATASET_MANAGEMENT (R269). -/
def execDatasetManagement (q : Nat) (c : NvmeCmd) (s : State) : Host.Outcome State Fault Refusal := .next (s.arrive q oDsm c)

/-- COPY (R282). -/
def execCopyCmd (q : Nat) (c : NvmeCmd) (s : State) : Host.Outcome State Fault Refusal := .next (s.arrive q oCopy c)

/-- COMPARE (R320). -/
def execCompareCmd (q : Nat) (c : NvmeCmd) (s : State) : Host.Outcome State Fault Refusal := .next (s.arrive q oCompare c)

/-- RESERVATION_REGISTER (R150). -/
def execReservationRegister (q : Nat) (c : NvmeCmd) (s : State) : Host.Outcome State Fault Refusal := .next (s.arrive q oResReg c)

/-- RESERVATION_ACQUIRE (R150). -/
def execReservationAcquire (q : Nat) (c : NvmeCmd) (s : State) : Host.Outcome State Fault Refusal := .next (s.arrive q oResAcq c)

/-- RESERVATION_RELEASE (R150). -/
def execReservationRelease (q : Nat) (c : NvmeCmd) (s : State) : Host.Outcome State Fault Refusal := .next (s.arrive q oResRel c)

/-- RESERVATION_REPORT (R150). -/
def execReservationReport (q : Nat) (c : NvmeCmd) (s : State) : Host.Outcome State Fault Refusal := .next (s.arrive q oResRep c)

/-! ## Host data PDUs (R143, R160, R164) -/

/-- Discard a command that has stamped nothing, with its ranges, and answer it as a violation. -/
def State.dropData (s : State) (q op : Nat) : State :=
  (s.dropCmd op).updConn q (fun k => { k with r2ts := k.r2ts.filter (fun r => r.op != op) })

/-- H2C_DATA (R160, R164): a PDU's checks in the order header digest, oversize, TTAG, command length, window, data digest, short; good data
goes into its range. -/
def State.h2cData (s : State) (q ttag off : Nat) (d : Bytes) (last : Bool) (hdgst dgst : Option (Nat × Nat)) : State :=
  match aget s.io.conns q with
  | none => s
  | some k =>
    let n := d.length
    let own := k.r2ts.find? (fun r => r.idx == ttag % 4096)
    let cmdOf := fun (r : R2t) => aget s.io.cmds r.op
    let cid := (own.bind cmdOf).map (fun c => c.cid) |>.getD 0xFFFF
    if k.xport ≠ 1 then s
    else if hdgst.isSome then (s.violate q 0x0A cid (hdgst.getD (0, 0)).1 (hdgst.getD (0, 0)).2).endWith q 0x03 0
    else if 131072 < n then
      (s.violate q 0x09 cid 131072 n).endWith q 0x05 0
    else
      match own.bind (fun r => if r.gen = ttag / 4096 then (cmdOf r).map (fun c => (r, c)) else none) with
      | none => s.violate q 0x08 0xFFFF ttag n
      | some (r, c) =>
        if c.need < off + n then (s.violate q 0x06 c.cid c.need (off + n)).endWith q 0x04 0
        else
          match k.r2ts.find? (fun x => x.op == r.op && decide (x.off ≤ off) && decide (off + n ≤ x.off + x.len)) with
          | none => (s.violate q 0x07 c.cid (r.off + r.len) (off + n)).endWith q 0x05 0
          | some x =>
            match dgst with
            | some (e, g) => (s.dropData q r.op).violAnswer q 0x0B c.cid e g 0x22
            | none =>
              if last && decide (x.got + n < x.len) then (s.dropData q r.op).violAnswer q 0x05 c.cid (x.off + x.len) (off + n) 0x04
              else
                let full := decide (x.len ≤ x.got + n)
                let s := s.updConn q (fun k => { k with r2ts := k.r2ts.filterMap (fun y =>
                  if y.idx = x.idx then (if full then none else some { y with got := y.got + n }) else some y) })
                let s := s.placeData r.op off d
                if full then s.grantR2t r.op 4 else s

def execH2cData (q ttag off : Nat) (d : Bytes) (last : Bool) (dgst : Option (Nat × Nat)) (s : State) (hdgst : Option (Nat × Nat) := none) : Host.Outcome State Fault Refusal :=
  .next (s.h2cData q ttag off d last hdgst dgst)

/-- RDMA_READ_RESPONSE (R141, R164): data of an RDMA READ of host memory arrives, or the host answered an RDMA READ, or an RDMA WRITE of a
Read, with a remote access error on a keyed descriptor. -/
def execRdmaReadResponse (q cid off : Nat) (d : Bytes) (err : Option Nat) (s : State) : Host.Outcome State Fault Refusal :=
  match s.io.cmds.find? (fun e => e.2.conn == some q && e.2.cid == cid && (e.2.stage == Stage.data || err.isSome)) with
  | none => .next s
  | some (op, _) =>
    match err with
    | some i => .next (((s.dropCmd op).violAnswer q 0x22 cid i 0 0x04).endConn q)
    | none => .next (s.placeData op off d)

/-- ROCE_PACKET_OUT_OF_WINDOW (R164): dropped; a packet ahead of the expected PSN gets a sequence-error NAK. -/
def execRocePacketOutOfWindow (q psn : Nat) (s : State) : Host.Outcome State Fault Refusal :=
  match aget s.io.conns q with
  | none => .next s
  | some k =>
    if k.xport ≠ 2 ∨ psn = k.psn then .next s
    else
      let s := s.violate q 0x23 0xFFFF k.psn psn
      .next (if (psn + 16777216 - k.psn) % 16777216 < 8388608 then s.emit (.nak q 0) else s)

end Sys2Proof.Machine
end

