-- ==== Sys2Proof/Machine/HostAdmin.lean ====
section
/-! DEFINITION. Connections, controllers, admin commands and ANA reports (R59 to R62, R141 to R149, R161, R174 to R176). -/
namespace Sys2Proof.Machine

/-! ## Connections (R141, R142) -/

/-- A queue pair that a violation is reported for although none is set up. -/
def State.violateAt (s : State) (q xport lport vcode cid d1 d2 : Nat) : State :=
  if ahas s.io.conns q then s.violate q vcode cid d1 d2
  else
    let s := { s with io := { s.io with conns := aset s.io.conns q { xport := xport, lport := lport } } }
    let s := s.violate q vcode cid d1 d2
    { s with io := { s.io with conns := adel s.io.conns q } }

/-- ICREQ (R141, R142): a TCP connection to the I/O port or the discovery port, on a logical port with link, is set up with the digests it
asks for, or ended. Nothing listens at another port. -/
def execIcreq (q : Nat) (lport : Fin 64) (hd dd : Bool) (s : State) (port : Fin 65536 := 4420) : Host.Outcome State Fault Refusal :=
  let disc := decide (port.val = s.rf R.NVT.DISC_PORT.PORT)
  if !s.flag R.NVT.XPORT_CFG.TCP_EN || !s.lportUp lport.val || !(disc || decide (port.val = s.rf R.NVT.TCP_PORT.PORT)) then .next s
  else if ahas s.io.conns q then .next ((s.violate q 0x0D 0xFFFF 0 0).endWith q 0x02 0)
  else
    let c : Conn := { xport := 1, lport := lport.val, ready := true, disc := disc, hdgst := hd, ddgst := dd, gainAt := s.now }
    let s := { s with io := { s.io with conns := aset s.io.conns q c } }
    if (s.flag R.NVT.XPORT_CFG.HDGST_REQ && !hd) || (s.flag R.NVT.XPORT_CFG.DDGST_REQ && !dd) then
      let reg := s.rf R.NVT.XPORT_CFG.TCP_EN + 2 * s.rf R.NVT.XPORT_CFG.ROCE_EN + 4 * s.rf R.NVT.XPORT_CFG.HDGST_REQ + 8 * s.rf R.NVT.XPORT_CFG.DDGST_REQ
      .next ((s.violate q 0x0E 0xFFFF reg (b2n hd + 2 * b2n dd)).endWith q 0x06 0)
    else .next (s.emit (.icResp q hd dd))

/-- INVALID_PDU (R164): a PDU out of sequence, or one with a malformed header, ends the TCP connection. -/
def execInvalidPdu (q : Nat) (lport : Fin 64) (malformed : Bool) (d1 d2 : Nat) (s : State) : Host.Outcome State Fault Refusal :=
  let s := if ahas s.io.conns q then s
    else { s with io := { s.io with conns := aset s.io.conns q { xport := 1, lport := lport.val, gainAt := s.now } } }
  if malformed then .next ((s.violate q 0x0C 0xFFFF d1 d2).endWith q 0x01 d1)
  else .next ((s.violate q 0x0D 0xFFFF d1 0).endWith q 0x02 0)

/-- RDMA_CM_CONNECT (R141): an RC queue pair is set up; UD and UC are refused. -/
def execRdmaCmConnect (q : Nat) (lport : Fin 64) (rc : Bool) (s : State) : Host.Outcome State Fault Refusal :=
  if !s.flag R.NVT.XPORT_CFG.ROCE_EN || !s.lportUp lport.val || ahas s.io.conns q then .next s
  else if rc then
    .next ({ s with io := { s.io with conns := aset s.io.conns q { xport := 2, lport := lport.val, ready := true, gainAt := s.now } } }.emit (.cmReply q true))
  else .next (s.emit (.cmReply q false))

/-- CONNECTION_END (R161). -/
def execConnectionEnd (q : Nat) (s : State) : Host.Outcome State Fault Refusal := .next (s.endConn q).settle

/-- KEEP_ALIVE_TIMEOUT (R141, R161). -/
def execKeepAliveTimeout (cntlid : Nat) (s : State) : Host.Outcome State Fault Refusal :=
  match aget s.io.ctls cntlid with
  | some k => if k.kato ≠ 0 ∧ k.kaAt + k.kato ≤ s.now then .next (s.endCtl cntlid).settle else .next s
  | none => .next s

/-! ## Connect (R144 to R146, R174, R175) -/

/-- The handle of the first valid entry of the NQN binding table that matches (R174). -/
def State.nqnLookup (s : State) (hostNqn subNqn : Bytes) : Option Nat :=
  let d := sha256 (hostNqn ++ [0#8] ++ subNqn)
  let home := leAt d 0 2 % 16384
  (List.range 8).findSome? (fun i =>
    let e := s.entry (dramBase + s.rf R.SLM.NQN_BASE.ADDR + (home + i) % 16384 * 64) 64
    let w := leAt e 32 4
    if slice e 0 32 = d ∧ bit w 31 = true then some (w % 2 ^ 20) else none)

/-- Queue pairs of a slice on this head. -/
def State.pairsOf (s : State) (h : Nat) : Nat :=
  (s.io.conns.filter (fun e => e.2.pair && (match e.2.ctl with
    | some k => (match aget s.io.ctls k with | some c => c.slice == h | none => false)
    | none => false))).length

/-- The next CNTLID (R146): ascending, wrapping from 0x7FEF to 1, those in use skipped. -/
def State.nextCtl (s : State) : Option Nat :=
  (List.range 0x7FEF).findSome? (fun i =>
    let n := (s.io.lastCtl + i) % 0x7FEF + 1
    if ahas s.io.ctls (s.head * 32768 + n) then none else some n)

/-- Take a queue pair for a queue (R144, R145): refused when the slice's allocation or the pool has none; an empty pool is reported
whatever the allocation. -/
def State.takePair (s : State) (h : Nat) : Option State × State :=
  if sdQueues (s.sliceDesc (h % 4096)) ≤ s.pairsOf h ∧ s.rf R.NVT.QPOOL_FREE.FREE ≠ 0 then (none, s)
  else if s.rf R.NVT.QPOOL_FREE.FREE = 0 then (none, s.raise Pg.NVT 2)
  else (some (s.wf R.NVT.QPOOL_FREE.FREE (s.rf R.NVT.QPOOL_FREE.FREE - 1)), s)

/-- A keep-alive timeout of KATO ms, rounded up to 100 ms (Table 4-3). -/
def katoNs (ms : Nat) : Nat := cdiv ms 100 * 100000000

/-- Set up a new controller with its admin queue for a slice, or refuse it. -/
def State.newCtl (s : State) (q h size kato : Nat) (hostId : Bytes) : State :=
  match s.takePair h with
  | (none, s) => s.emit (.connectRsp q 1 0x81 0 0)
  | (some s, _) =>
    match s.nextCtl with
    | none => s.freePair.emit (.connectRsp q 1 0x81 0 0)
    | some n =>
      let id := s.head * 32768 + n
      let ctl : Ctl := { slice := h, hostId := hostId, ioq := min 1024 (sdQueues (s.sliceDesc (h % 4096)) - 1), kato := katoNs kato, kaAt := s.now }
      let s := { s with io := { s.io with ctls := aset s.io.ctls id ctl, lastCtl := n } }
      (s.updConn q (fun c => { c with ctl := some id, qid := 0, size := size, pair := true })).emit (.connectRsp q 0 0 id 0)

/-- Open an I/O queue of a controller, or refuse it (R145). -/
def State.newQueue (s : State) (q cntlid qid size : Nat) (hostId : Bytes) : State :=
  match aget s.io.ctls cntlid with
  | none => s.emit (.connectRsp q 1 0x82 16 1)
  | some k =>
    if k.hostId ≠ hostId then s.emit (.connectRsp q 1 0x82 0 1)
    else if k.ioq < qid then s.emit (.connectRsp q 1 0x82 42 0)
    else
      match s.takePair k.slice with
      | (none, s) => s.emit (.connectRsp q 1 0x81 0 0)
      | (some s, _) => (s.updConn q (fun c => { c with ctl := some cntlid, qid := qid, size := size, pair := true })).emit (.connectRsp q 0 0 cntlid 0)

/-- FABRICS_CONNECT (R144, R145, R146, R174, R175): an admin Connect binds a new controller to the slice of the host and
subsystem NQNs; an I/O Connect opens a queue of its controller. -/
def execFabricsConnect (q qid size cntlid kato : Nat) (hostId hostNqn subNqn : Bytes) (s : State) : Host.Outcome State Fault Refusal :=
  match aget s.io.conns q with
  | none => .next s
  | some c =>
    if c.ctl.isSome ∨ c.ready = false ∨ c.xport = 3 then .next s
    else if size < 2 ∨ 4096 < size then .next (s.emit (.connectRsp q 1 0x82 44 0))
    else if qid = 0 then
      match s.nqnLookup hostNqn subNqn with
      | none => .next (s.emit (.connectRsp q 1 0x84 0 0))
      | some h =>
        if !s.handleOk h then .next (s.staleHandle.emit (.connectRsp q 1 0x84 0 0))
        else if sdState (s.sliceDesc (h % 4096)) ≠ 1 then .next (s.emit (.connectRsp q 1 0x81 0 0))
        else .next (s.newCtl q h size kato hostId)
    else .next (s.newQueue q cntlid qid size hostId)

/-! ## Annex queues (R176, R164) -/

/-- The handle bound to a PASID (R176). -/
def State.pasidLookup (s : State) (pasid : Nat) : Option Nat :=
  let w := leAt (s.entry (dramBase + s.rf R.SLM.PASID_BASE.ADDR + pasid % 2 ^ 20 * 4) 4) 0 4
  if bit w 31 then some (w % 2 ^ 20) else none

/-- ANNEX_QUEUE_CREATE (R141, R176): a queue of a PASID is bound to the slice the PASID table gives now; queue 0 makes a controller of
that slice, which the other queues join. -/
def execAnnexQueueCreate (q : Nat) (pasid : Fin 1048576) (qid size : Nat) (s : State) : Host.Outcome State Fault Refusal :=
  if ahas s.io.conns q then .next s
  else if size < 2 ∨ 4096 < size then .next (s.emit (.connectRsp q 1 0x82 44 0))
  else
    match s.pasidLookup pasid.val with
    | none => .next (s.emit (.connectRsp q 1 0x84 0 0))
    | some h =>
      if !s.handleOk h then .next (s.staleHandle.emit (.connectRsp q 1 0x84 0 0))
      else if sdState (s.sliceDesc (h % 4096)) ≠ 1 then .next (s.emit (.connectRsp q 1 0x81 0 0))
      else
        let c : Conn := { xport := 3, lport := 0xFF, ready := true, pasid := pasid.val, gainAt := s.now }
        let add := fun (s : State) => { s with io := { s.io with conns := aset s.io.conns q c } }
        let keep := fun (s : State) => if ((aget s.io.conns q).bind (fun k => k.ctl)).isSome then s else { s with io := { s.io with conns := adel s.io.conns q } }
        let own := s.io.conns.find? (fun e => e.2.xport == 3 && e.2.pasid == pasid.val && e.2.qid == 0
          && ((e.2.ctl.bind (aget s.io.ctls)).map (fun k => k.slice)) == some h)
        if qid = 0 then .next (keep ((add s).newCtl q h size 0 []))
        else
          match own.bind (fun e => e.2.ctl) with
          | some k => .next (keep ((add s).newQueue q k qid size []))
          | none => .next (s.emit (.connectRsp q 1 0x82 16 1))

/-- ANNEX_QUEUE_DELETE (R176). -/
def execAnnexQueueDelete (q : Nat) (s : State) : Host.Outcome State Fault Refusal :=
  match aget s.io.conns q with
  | some c => if c.xport = 3 then .next (s.endConn q).settle else .next s
  | none => .next s

/-- ANNEX_DOORBELL (R164): a doorbell of a bound queue starts its fetch; one from another PASID is ignored and logged. -/
def execAnnexDoorbell (q : Nat) (pasid : Fin 1048576) (off tail : Nat) (s : State) : Host.Outcome State Fault Refusal :=
  match aget s.io.conns q with
  | some c =>
    if c.xport = 3 ∧ c.pasid = pasid.val then .next (s.updConn q (fun c => { c with tail := tail % max 1 c.size }))
    else .next (s.violate q 0x30 0xFFFF pasid.val off)
  | none => .next (s.violateAt q 3 0xFF 0x30 0xFFFF pasid.val off)

/-! ## Admin commands (R147, R149, R162) -/

/-- An admin command's checks; none when they answered it. -/
def State.adminIn (s : State) (q opc : Nat) (c : NvmeCmd) : Option (Nat × Ctl) × State :=
  match aget s.io.conns q, s.ctlOf q with
  | some k, some (id, ctl) =>
    if k.qid ≠ 0 then (none, s.answer q c.cid 0 0x01 true)
    else
      let s := s.arrived q c
      match s.checkAdmin q opc k c with
      | some s => (none, s)
      | none => (some (id, ctl), s)
  | _, _ => (none, s)

/-- Overlay the bytes the spec gives on those it does not. -/
def overlay (base : Nat → Byte) (n : Nat) (parts : List (Nat × Bytes)) : Bytes :=
  parts.foldl (fun (l : Bytes) (p : Nat × Bytes) => l.take p.1 ++ p.2 ++ l.drop (p.1 + p.2.length)) ((List.range n).map base)

/-- Identify Controller (Table 4-3, R147, R148): what this chapter gives. -/
def identController (cntlid : Nat) : Bytes :=
  overlay (fun o => Config.identifyByte 1 cntlid o) 4096
    [(77, [8#8]), (78, le cntlid 2), (80, le 0x00020000 4), (320, le 1 2), (342, le 2 1), (344, le 1024 4), (348, le 1024 4), (524, le 0 2), (1792, le 516 4)]

/-- Identify Namespace (Tables 4-4 and 4-5, R148). -/
def identNamespace (ns : Nat) (d : NsDesc) : Bytes :=
  let f := fun (ms ds : Nat) => le ms 2 ++ le ds 1
  let m := mdts / blockSize d.lbaf
  overlay (fun o => Config.identifyByte 0 ns o) 4096
    [(0, le (nsBlocks d) 8), (8, le (nsBlocks d) 8), (25, [3#8]), (26, le (d.lbaf + if metaSize d.lbaf = 0 then 0 else 16) 1)
     , (74, le m 2), (76, le m 4), (80, [0#8]), (92, le (d.group + 1) 4), (99, le (b2n d.view) 1)
     , (128, f 0 12), (132, f 0 9), (136, f 8 12), (140, f 16 12)]

/-- Namespaces of a slice, by rising number. -/
def State.nsOfSlice (s : State) (h : Nat) : List Nat := (s.maps.nss.filter (fun e => e.2.desc.valid && e.2.desc.slice == h)).map Prod.fst

/-- IDENTIFY (R147). -/
def execIdentifyCmd (q : Nat) (c : NvmeCmd) (s : State) : Host.Outcome State Fault Refusal :=
  match s.adminIn q 0x106 c with
  | (none, s) => .next s
  | (some (id, k), s) =>
    let cns := nthD c.cdw 0 0 % 256
    let give := fun (s : State) (d : Bytes) => Host.Outcome.next ((s.hostEmit q (.adminData q c.cid d)).answer q c.cid 0 0 false)
    match cns with
    | 0 =>
      (match s.nsOf c.nsid with
       | some n => if n.desc.slice = k.slice then give s (identNamespace c.nsid n.desc) else .next (s.violAnswer q 0x40 c.cid c.nsid 0 0x0B)
       | none => .next (s.violAnswer q 0x40 c.cid c.nsid 0 0x0B))
    | 1 => give s (identController id)
    | 2 => give s (padTo 4096 ((((s.nsOfSlice k.slice).filter (fun n => decide (c.nsid < n))).take 1024).flatMap (fun n => le n 4)))
    | 6 => give s (overlay (fun o => Config.identifyByte 6 id o) 4096 [(1, [0#8])])
    | _ => give s (overlay (fun o => Config.identifyByte cns c.nsid o) 4096 [])

/-- The ANA log page of this head (R148, R149): the groups of the slice's namespaces. -/
def State.anaLog (s : State) (h : Nat) : Bytes :=
  let ns := s.nsOfSlice h
  let grp := fun (n : Nat) => ((aget s.maps.nss n).map (fun x => x.desc.group)).getD 0
  let gs := (List.range 1024).filter (fun g => ns.any (fun n => grp n == g))
  le s.io.anaCnt 8 ++ le gs.length 2 ++ zeros 6 ++ gs.flatMap (fun g =>
    let l := ns.filter (fun n => grp n == g)
    le (g + 1) 4 ++ le l.length 4 ++ le s.io.anaCnt 8 ++ le (s.anaOf g) 1 ++ zeros 15 ++ l.flatMap (fun n => le n 4))

/-- The Error Information log of a controller (R162), newest first. -/
def errLog (k : Ctl) : Bytes :=
  padTo 4096 (k.errs.flatMap (fun e =>
    le (nthD e 0 0) 8 ++ le (nthD e 1 0) 2 ++ le (nthD e 2 0) 2 ++ le (nthD e 3 0 * 2) 2 ++ le 0xFFFF 2 ++ le (nthD e 4 0) 8 ++ le (nthD e 5 0) 4 ++ zeros 36))

/-- GET_LOG_PAGE (R149, R162): the Error Information and ANA log pages; the content of other pages is open. -/
def execGetLogPage (q : Nat) (c : NvmeCmd) (s : State) : Host.Outcome State Fault Refusal :=
  match s.adminIn q 0x102 c with
  | (none, s) => .next s
  | (some (_, k), s) =>
    let lid := nthD c.cdw 0 0 % 256
    let len := (nthD c.cdw 0 0 / 65536 + nthD c.cdw 1 0 % 65536 * 65536 + 1) * 4
    let off := nthD c.cdw 2 0 + nthD c.cdw 3 0 * 2 ^ 32
    let page := if lid = 0x01 then errLog k else if lid = 0x0C then s.anaLog k.slice else []
    let d := if lid = 0x01 ∨ lid = 0x0C then padTo len ((page.drop off).take len) else (List.range (min len 4096)).map (fun o => Config.logByte lid s.freeCtr o)
    .next (({ s with freeCtr := s.freeCtr + 1 }.hostEmit q (.adminData q c.cid d)).answer q c.cid 0 0 false)

/-- Value of a feature of a controller: what was set, and the ones this chapter governs. -/
def featureOf (k : Ctl) (fid : Nat) : Nat :=
  if fid = 0x07 then (k.ioq - 1) * 65537
  else if fid = 0x0B then k.aenCfg
  else if fid = 0x0F then k.kato / 1000000
  else (aget k.feats fid).getD (Config.featureDefault fid)

/-- GET_FEATURES (R147). -/
def execGetFeatures (q : Nat) (c : NvmeCmd) (s : State) : Host.Outcome State Fault Refusal :=
  match s.adminIn q 0x10A c with
  | (none, s) => .next s
  | (some (_, k), s) => .next (s.hostEmit q (.cqe q c.cid 0 0 false (featureOf k (nthD c.cdw 0 0 % 256))))

/-- SET_FEATURES (R147, Table 4-3): the queue count is granted up to the controller's allocation; KATO is rounded up. -/
def execSetFeatures (q : Nat) (c : NvmeCmd) (s : State) : Host.Outcome State Fault Refusal :=
  match s.adminIn q 0x109 c with
  | (none, s) => .next s
  | (some (id, k), s) =>
    let fid := nthD c.cdw 0 0 % 256
    let v := nthD c.cdw 1 0
    let n := min (min 1024 (sdQueues (s.sliceDesc (k.slice % 4096)) - 1)) (v % 65536 + 1)
    let s := s.updCtl id (fun k =>
      if fid = 0x07 then { k with ioq := n }
      else if fid = 0x0B then { k with aenCfg := v }
      else if fid = 0x0F then { k with kato := katoNs v, kaAt := s.now }
      else { k with feats := aset k.feats fid v })
    .next (s.hostEmit q (.cqe q c.cid 0 0 false (if fid = 0x07 then (n - 1) * 65537 else 0)))

/-- KEEP_ALIVE (R141). -/
def execKeepAlive (q : Nat) (c : NvmeCmd) (s : State) : Host.Outcome State Fault Refusal :=
  match s.adminIn q 0x118 c with
  | (none, s) => .next s
  | (some (id, _), s) => .next ((s.updCtl id (fun k => { k with kaAt := s.now })).answer q c.cid 0 0 false)

/-- ABORT (R147): a command of the controller's named queue ends with Command Abort Requested while its data transfer has
not started; dword 0 bit 0 tells that nothing was aborted. A forwarded command's abort is passed to the owner (R484). -/
def execAbortCmd (q : Nat) (c : NvmeCmd) (s : State) : Host.Outcome State Fault Refusal :=
  match s.adminIn q 0x108 c with
  | (none, s) => .next s
  | (some (id, _), s) =>
    let sq := nthD c.cdw 0 0 % 65536
    let cid := nthD c.cdw 0 0 / 65536 % 65536
    let hit := s.io.cmds.find? (fun e => e.2.cid == cid && (match e.2.conn.bind (fun x => aget s.io.conns x) with
      | some k => k.ctl == some id && k.qid == sq
      | none => false))
    match hit with
    | some (op, m) =>
      if m.stage = .waiting then .next (((s.failCmd op 0 0x07 true 0).hostEmit q (.cqe q c.cid 0 0 false 0)).settle)
      else if m.fwd && m.bound then .next ((s.sendC (.fwdAbort m.tok)).hostEmit q (.cqe q c.cid 0 0 false 1))
      else .next (s.hostEmit q (.cqe q c.cid 0 0 false 1))
    | none => .next (s.hostEmit q (.cqe q c.cid 0 0 false 1))

/-- ASYNC_EVENT_REQUEST (R59): answered with a kept event, or held for the next. -/
def execAsyncEventRequest (q : Nat) (c : NvmeCmd) (s : State) : Host.Outcome State Fault Refusal :=
  match s.adminIn q 0x10C c with
  | (none, s) => .next s
  | (some (id, k), s) =>
    match k.events with
    | e :: t => .next ((s.updCtl id (fun k => { k with events := t })).hostEmit q (.cqe q c.cid 0 0 false e))
    | [] => .next (s.updCtl id (fun k => { k with aers := k.aers ++ [c.cid] }))

/-- UNSUPPORTED_OPCODE (R147): Invalid Command Opcode, after the transport and Command ID checks (R157). -/
def execUnsupportedOpcode (q : Nat) (opc : Fin 256) (c : NvmeCmd) (s : State) : Host.Outcome State Fault Refusal :=
  match aget s.io.conns q with
  | none => .next s
  | some k =>
    if k.ctl.isNone then .next s
    else
      match (s.chkTransport q k c).orElse fun _ => s.chkCid q opc.val c with
      | some s => .next s
      | none => .next (s.answer q c.cid 0 0x01 true)

end Sys2Proof.Machine
end

