-- ==== Sys2Proof/Machine/Slices.lean ====
section
/-! DEFINITION. SLM: the slice lifecycle, migration blobs and Bridle's clock (R170 to R200). -/
namespace Sys2Proof.Machine

/-! ## Commands and results (R173, Table 5-8) -/

/-- Codes of SLM.CMD. -/
def cCreate : Nat := 1
def cReshape : Nat := 2
def cQuiesce : Nat := 3
def cResume : Nat := 4
def cReset : Nat := 5
def cRemove : Nat := 6
def cFreeze : Nat := 7
def cSave : Nat := 8
def cRestore : Nat := 9
def cWglStart : Nat := 10
def cWglStop : Nat := 11

/-- Answer a command: RESULT, HANDLE, PENDING 0, and the resulting descriptor in SLM.DESC. -/
def State.slmDone (s : State) (result h : Nat) : State :=
  let s := ((s.wf R.SLM.CMD_STAT.RESULT result).wf R.SLM.CMD_STAT.PENDING 0).wf R.SLM.CMD_STAT.HANDLE h
  let s := { s with slm := { s.slm with cmd := none } }
  match aget s.maps.slices (h % 4096) with
  | some r => if result = 0 then s.wf R.SLM.DESC.DESC r.desc else s
  | none => s

/-- An accepted command whose record cannot be stamped yet waits with PENDING at 1 (R173). -/
def State.slmWait (s : State) (op h : Nat) : State :=
  { s.wf R.SLM.CMD_STAT.PENDING 1 with slm := { s.slm with cmd := some (op, h) } }

/-- The descriptor of a slice whatever its state. -/
def State.descOf (s : State) (i : Nat) : Nat := ((aget s.maps.slices i).map (fun r => r.desc)).getD 0

/-- Journal a slice's new descriptor; the command ends, or waits for its stamp. -/
def State.slmJournal (s : State) (op h new : Nat) (more : List JRec) (fin : State → State) : State :=
  match s.journal (rSlice h (s.descOf (h % 4096)) new :: more) with
  | (true, s) => (fin s).slmDone 0 h
  | (false, s) => s.slmWait op h

/-- Namespaces attached to a slice. -/
def State.attached (s : State) (h : Nat) : AMap Ns := s.maps.nss.filter (fun e => e.2.desc.valid && e.2.desc.slice == h)

/-- A field lies outside Table 5-1, WEIGHT is 0, or a ceiling is below its floor (R179). -/
def badDesc (d : Nat) : Bool :=
  decide (sdQueues d < 2) || sdWcshare d == 0 || decide (3072 < sdWcshare d) || sdWeight d == 0
    || decide (sdCeilIops d < sdFloorIops d) || decide (sdCeilBw d < sdFloorBw d)

/-- Other slices in use. -/
def State.otherSlices (s : State) (i : Nat) : List Nat :=
  (s.maps.slices.filter (fun e => e.1 != i && sdState e.2.desc != 0)).map (fun e => e.2.desc)

/-- The lesser admission capacity of the heads that serve (R180): in PAIRED and HANDOVER the partner's counts too, as it was when the heads
paired (log 81). -/
def State.capI (s : State) : Nat := if s.mode = .solo then s.rf R.SLM.CAP_IOPS.KIOPS else min (s.rf R.SLM.CAP_IOPS.KIOPS) s.slm.pCapI
def State.capB (s : State) : Nat := if s.mode = .solo then s.rf R.SLM.CAP_BW.UNITS else min (s.rf R.SLM.CAP_BW.UNITS) s.slm.pCapB

/-- A descriptor's resources are not there (R180). -/
def State.noResource (s : State) (i d : Nat) : Bool :=
  let o := s.otherSlices i
  decide (262144 < sumL (o.map sdQueues) + sdQueues d)
  || decide (s.wcEffective < (sumL (o.map sdWcshare) + s.rf R.RPL.CFG2.WCSHARE + sdWcshare d) * 4194304)
  || decide (s.capI < sumL (o.map sdFloorIops) + sdFloorIops d)
  || decide (s.capB < sumL (o.map sdFloorBw) + sdFloorBw d)
  || o.any (fun x => sdKeyslot x == sdKeyslot d && sdDomain x != sdDomain d)

/-- The lowest FREE index with the handle it gets next (R170, R171). -/
def State.nextHandle (s : State) : Option Nat :=
  ((List.range 4096).find? (fun i => sdState (s.descOf i) == 0)).map (fun i =>
    let g := ((aget s.maps.slices i).map (fun r => r.gen)).getD 0
    let n := (g + 1) % 256
    i + 4096 * (if i = 0xFFF ∧ n = 0xFF then 0 else n))

/-- CREATE (R179, R180, Table 5-2). -/
def State.slmCreate (s : State) : State :=
  let d := s.rf R.SLM.DESC.DESC % 2 ^ 126
  if badDesc d then s.slmDone 0x0A 0
  else
    match s.nextHandle with
    | none => s.slmDone 0x03 0
    | some h => if s.noResource (h % 4096) d then s.slmDone 0x03 0 else s.slmJournal cCreate h (sdWith d 1) [] id

/-- RESHAPE (R179, R180, R182). -/
def State.slmReshape (s : State) (h : Nat) : State :=
  let old := s.sliceDesc (h % 4096)
  let d := sdWith (s.rf R.SLM.DESC.DESC % 2 ^ 126) (sdState old)
  if sdState old = 0 then s.slmDone 0x04 h
  else if badDesc d then s.slmDone 0x0A h
  else if sdState old ≠ 3 ∧ (sdQueues d < sdQueues old ∨ sdWcshare d < sdWcshare old) then s.slmDone 0x02 h
  else if (sdDomain d ≠ sdDomain old ∨ sdKeyslot d ≠ sdKeyslot old) ∧ s.attached h ≠ [] then s.slmDone 0x06 h
  else if s.noResource (h % 4096) d then s.slmDone 0x03 h
  else s.slmJournal cReshape h d [] id

/-! ## Meter records (R201 to R208) -/

/-- Bytes 0x20 to 0x47 and 0x60 to 0xA7 of a meter record (Tables 5-5 and 12-8). -/
def meterBytes (m : Meter) : Bytes :=
  le m.rdOps 8 ++ le m.wrOps 8 ++ le m.otOps 8 ++ le m.rdB 8 ++ le m.wrB 8 ++
    ((List.range 16).flatMap (fun k => le (min (agetD m.hist k 0) 0xFFFFFFFF) 4)) ++ le (min m.throt 0xFFFFFFFF) 4 ++ le (min m.short 0xFFFFFFFF) 4

/-- The counters those bytes give. -/
def meterParse (b : Bytes) : Meter :=
  { rdOps := leAt b 0 8, wrOps := leAt b 8 8, otOps := leAt b 16 8, rdB := leAt b 24 8, wrB := leAt b 32 8
    hist := ((List.range 16).map (fun k => (k, leAt b (40 + 4 * k) 4))).filter (fun e => e.2 != 0), throt := leAt b 104 4, short := leAt b 108 4 }

/-- Both heads' counters together (R204). -/
def meterSum (a b : Meter) : Meter :=
  { rdOps := a.rdOps + b.rdOps, wrOps := a.wrOps + b.wrOps, otOps := a.otOps + b.otOps, rdB := a.rdB + b.rdB, wrB := a.wrB + b.wrB
    hist := b.hist.foldl (fun (m : AMap Nat) (e : Nat × Nat) => abump m e.1 e.2) a.hist, throt := a.throt + b.throt, short := a.short + b.short }

/-- Mapped grains other than zero grains below an entry that points to a page at a level. -/
def countRefs (m : Maps) : Nat → Nat → Nat
  | 0, e => if entKind e = 2 then (match aget m.pages (entLpn e) with
      | some p => (p.ents.filter (fun x => entKind x.2 == 2)).length
      | none => 0) else 0
  | l + 1, e => if entKind e = 2 then (match aget m.pages (entLpn e) with
      | some p => sumL (p.ents.map (fun x => countRefs m l x.2))
      | none => 0) else 0

/-- PROV and ALLOC of a slice (Table 5-5). -/
def State.provOf (s : State) (h : Nat) : Nat := sumL ((s.attached h).map (fun e => e.2.desc.size * 4096))
def State.allocOf (s : State) (h : Nat) : Nat :=
  4096 * sumL ((s.attached h).map (fun e => countRefs s.maps (rootLevel e.2.desc.size) e.2.root))

/-- The 256 bytes of a meter record (Table 5-5). -/
def State.meterRecord (s : State) (ostamp h flags minute : Nat) (d : SliceDyn) : Bytes :=
  let c := meterBytes (meterSum d.own d.part)
  le s.slm.seq 8 ++ le ostamp 12 ++ [1#8] ++ le s.head 1 ++ le flags 2 ++ le h 4 ++ le minute 4 ++ c.take 40 ++ le (s.provOf h) 8 ++ le (s.allocOf h) 8
    ++ le (toTwos 64 d.attr) 8 ++ slice c 40 72 ++ le (d.mseq + 1) 4 ++ zeros 4 ++ padTo 32 d.sprev ++ padTo 32 s.slm.chain ++ le (s.rf R.BSV.SECVER.RUN) 4 ++ le d.snap 8 ++ zeros 4

/-- Append an entry to the chain: to the meter log, and to the partner (R206). -/
def State.chainPut (s : State) (b : Bytes) : State :=
  let first := s.slm.unpub.all (fun e => e.sent)
  let s := { s with slm := { s.slm with unpub := s.slm.unpub ++ [{ seq := s.slm.seq, bytes := b }], seq := s.slm.seq + 1, chain := sha256 b
                                        mlog := if first then { s.slm.mlog with firstAt := s.estamp } else s.slm.mlog } }
  if s.mode = .paired ∨ s.mode = .handover then s.sendC (.meterRec (s.slm.seq - 1) b) else s

/-- Flags of the minute that is open, beyond a slice's own (Table 5-6). -/
def State.minuteFlags (s : State) : Nat := s.slm.minFlags + b2n (!s.tbs.rtcValid) + 128 * b2n s.slm.calStep

/-- Close one slice's record with some flags; none where the stamp cannot be issued. A FROZEN slice has no open minute (R208). -/
def State.closeRecord (s : State) (i minute flags : Nat) : Option State :=
  match s.sliceRow i, aget s.slm.dyn i with
  | some r, some d =>
    if sdState r.desc = 4 then some s
    else
      match s.issue Unit.slm with
      | (none, _) => none
      | (some o, s) =>
        let h := i + 4096 * r.gen
        let b := s.meterRecord o h (flags ||| d.flags) minute d
        let s := (s.dgeRan 1).chainPut b
        some (s.updDyn i (fun d => { d with own := {}, part := {}, told := {}, mseq := d.mseq + 1, sprev := sha256 b, flags := 0, changed := false }))
  | _, _ => some s

/-- MINUTE of a record closed now: that of the calendar, the one that ends or is open, or one above the last (R205). -/
def State.minuteNow (s : State) (back : Nat) : Nat × Bool :=
  let m := (if s.tbs.rtcValid then s.utcNs / 60000000000 else s.estamp / 60000000000) - back
  if m ≤ s.slm.minute ∧ s.slm.minute ≠ 0 then (s.slm.minute + 1, s.tbs.rtcValid) else (m, false)

/-! ## Lifecycle (Table 5-2) -/

/-- End every controller and connection of a slice, its burst buckets emptied (R186). -/
def State.resetSlice (s : State) (h : Nat) : State :=
  let s := ((s.io.ctls.filter (fun e => e.2.slice == h)).map Prod.fst).foldl (fun s k => s.endCtl k) s
  s.updDyn (h % 4096) (fun d => { d with ops := { d.ops with bucket := 0 }, byt := { d.byt with bucket := 0 } })

/-- Close a slice's minute early at FREEZE or REMOVE (R208): with FROZEN set; none where the stamp cannot be issued. -/
def State.closeEarly (s : State) (i : Nat) : Option State :=
  let (m, st) := s.minuteNow 0
  s.closeRecord i m (s.minuteFlags ||| 8 ||| (128 * b2n st))

/-- FREEZE and REMOVE (R173, R208): the slice's minute is closed and its new descriptor journalled, both or, while either has to wait for a
stamp, neither. -/
def State.slmClose (s : State) (op h new : Nat) (fin : State → State) : State :=
  match s.closeEarly (h % 4096) with
  | none => (s.ovfBegin Unit.slm).slmWait op h
  | some t =>
    match t.journal [rSlice h (s.descOf (h % 4096)) new] with
    | (true, t) => (fin t).slmDone 0 h
    | (false, _) => (s.journal [rSlice h (s.descOf (h % 4096)) new]).2.slmWait op h

/-- A lifecycle command that changes only the state, from some states. -/
def State.slmMove (s : State) (op h : Nat) (ok : Nat → Bool) (busy : Nat → Bool) (dest : Nat) (fin : State → State) : State :=
  let d := s.sliceDesc (h % 4096)
  if busy (sdState d) then s.slmDone 0x02 h
  else if !ok (sdState d) then s.slmDone 0x04 h
  else s.slmJournal op h (sdWith d dest) [] fin

/-- REMOVE (R187): refused while a namespace is attached. -/
def State.slmRemove (s : State) (h : Nat) : State :=
  let st := sdState (s.sliceDesc (h % 4096))
  if st = 1 ∨ st = 2 then s.slmDone 0x02 h
  else if st ≠ 3 ∧ st ≠ 4 then s.slmDone 0x04 h
  else if s.attached h ≠ [] then s.slmDone 0x06 h
  else s.slmClose cRemove h 0 (fun s => s.resetSlice h)

/-- FREEZE (R208). -/
def State.slmFreeze (s : State) (h : Nat) : State :=
  let d := s.sliceDesc (h % 4096)
  if sdState d ≠ 3 then s.slmDone 0x04 h else s.slmClose cFreeze h (sdWith d 4) id

/-! ## Migration blobs (R199, R200) -/

/-- The key of a CPH slot that holds a GCM key (R537). -/
def State.gcmKey (s : State) (slot : Nat) : Option Key :=
  match aget s.sec.cph slot with
  | some k => if k.kind = 2 && !k.dying then some k else none
  | none => none

/-- Registrants of a slice's namespaces, each once (Table 5-3, RESV). -/
def State.resvBlob (s : State) (h : Nat) : List (Bytes × Nat) :=
  ((s.attached h).flatMap (fun e => (s.resvOf e.1).regs)).foldl (fun (l : List (Bytes × Nat)) x => if l.contains x then l else l ++ [x]) []

/-- NQN binding entries that name a handle (Table 5-3, NQN). -/
def State.nqnBlob (s : State) (h : Nat) : List Bytes :=
  (List.range 16384).filterMap (fun i =>
    let e := s.entry (dramBase + s.rf R.SLM.NQN_BASE.ADDR + i * 64) 64
    if leAt e 32 4 % 2 ^ 20 = h ∧ bit (leAt e 32 4) 31 = true then some e else none)

/-- The body of a blob (Table 5-3, 0x0040 to 0x1FEF). -/
def State.blobBody (s : State) (h : Nat) : Bytes :=
  let d := s.dynOf (h % 4096)
  padTo 16 (le (s.sliceDesc (h % 4096)) 16) ++
  padTo 32 (le (toTwos 64 d.ops.bal) 8 ++ le d.ops.frac 4 ++ le (toTwos 64 d.byt.bal) 8 ++ le d.byt.frac 4) ++
  padTo 256 (le d.mseq 4 ++ padTo 32 d.sprev ++ meterBytes (meterSum d.own d.part)) ++
  padTo 768 (((s.resvBlob h).take 32).flatMap (fun e => padTo 16 e.1 ++ le e.2 8)) ++
  padTo 2048 (((s.nqnBlob h).take 32).flatten) ++
  padTo 4096 (((s.attached h).take 256).flatMap (fun e => le e.1 4 ++ le (nsBlocks e.2.desc) 8 ++ le e.2.desc.lbaf 1 ++ le e.2.desc.group 2 ++ le (b2n e.2.desc.view) 1)) ++
  zeros 896

/-- SAVE (R199): the blob is sealed under the migration key with a fresh nonce. -/
def State.slmSave (s : State) (h : Nat) : State :=
  if sdState (s.sliceDesc (h % 4096)) ≠ 4 then s.slmDone 0x04 h
  else
    match s.gcmKey (s.rf R.SLM.MIG_KEY.KEYSLOT) with
    | none => s.cphNoSlot.slmDone 0x07 h
    | some k =>
      if 2 ^ 32 ≤ k.inv then (s.raise Pg.CPH 0).slmDone 0x07 h
      else if s.rf R.SEC.STAT.RNG = 0 then s.slmDone 0x03 h
      else
      let nonce := le (Config.random64 s.freeCtr) 8 ++ le (Config.random64 (s.freeCtr + 1)) 4
      let hd := le 1 2 ++ le 0 2 ++ le 8192 4 ++ padTo 16 (le s.arrayId 16) ++ le h 4 ++ nonce ++ zeros 24
      let (c, tag) := gcmEnc k.key nonce hd (s.blobBody h)
      let s := { s with freeCtr := s.freeCtr + 2, sec := { s.sec with cph := aset s.sec.cph (s.rf R.SLM.MIG_KEY.KEYSLOT) { k with inv := k.inv + 1 } } }
      let s := if k.inv + 1 = 2 ^ 32 then (s.cphRan 1).raise Pg.CPH 2 else s.cphRan 1
      (s.store (hbmBase + s.rf R.SLM.BLOB_ADDR.ADDR) (hd ++ c ++ tag)).slmDone 0 h

/-- Namespace entries of a blob. -/
def blobNs (body : Bytes) : List (Nat × Nat × Nat × Nat) :=
  ((List.range 256).map (fun i =>
    let e := slice body (0xC30 + 16 * i) 16
    (leAt e 0 4, leAt e 4 8, leAt e 12 1, leAt e 13 2))).filter (fun e => e.1 != 0)

/-- Put a binding entry into the table: its home slot or one of the seven after it that holds none. -/
def State.nqnPut (s : State) (e : Bytes) (h : Nat) : State :=
  let base := dramBase + s.rf R.SLM.NQN_BASE.ADDR
  let home := leAt e 0 2 % 16384
  match (List.range 8).find? (fun i => s.readable (base + (home + i) % 16384 * 64) 64 && !bit (leAt (s.load (base + (home + i) % 16384 * 64) 64) 32 4) 31) with
  | some i => s.store (base + (home + i) % 16384 * 64) (e.take 32 ++ le (h + 2 ^ 31) 4 ++ zeros 28)
  | none => s

/-- RESTORE (R200): the checks of Table 5-4 in order, then the slice in FROZEN with its namespaces, registrants, bindings
and meter continuity. A descriptor outside Table 5-1 after the blob's fields are merged in, which Table 5-4 names no check for, counts among
the resources that are not there (log 95). -/
def State.slmRestore (s : State) : State :=
  let b := s.load (hbmBase + s.rf R.SLM.BLOB_ADDR.ADDR) 8192
  match (s.gcmKey (s.rf R.SLM.MIG_KEY.KEYSLOT)).bind (fun k => gcmDec k.key (slice b 0x1C 12) (b.take 64) (slice b 0x40 0x1FB0) (slice b 0x1FF0 16)) with
  | none => (if (s.gcmKey (s.rf R.SLM.MIG_KEY.KEYSLOT)).isSome then s.cphAuth else s.cphNoSlot).slmDone 0x07 0
  | some body =>
    let s := s.cphRan 1
    let ns := blobNs body
    let okNs := fun (e : Nat × Nat × Nat × Nat) => match s.nsOf e.1 with
      | some n => !s.handleLive n.desc.slice && nsBlocks n.desc == e.2.1 && n.desc.lbaf == e.2.2.1
      | none => false
    if leAt b 0 2 ≠ 1 then s.slmDone 0x09 0
    else if !ns.all okNs then s.slmDone 0x0B 0
    else
      let st := s.rf R.SLM.DESC.DESC
      let d := leAt body 0 16 % 2 ^ 126
      let d := setFld (setFld (setFld (setFld (sdWith d 4) 3 10 (sdDomain st)) 13 13 (sdKeyslot st)) 26 12 (sdQueues st)) 38 12 (sdWcshare st)
      match s.nextHandle with
      | none => s.slmDone 0x03 0
      | some h =>
        if badDesc d || s.noResource (h % 4096) d then s.slmDone 0x03 0
        else
          let recs := ns.zipIdx.map (fun p =>
            let o := ((aget s.maps.nss p.1.1).map (fun n => n.desc)).getD {}
            rNs p.1.1 o { o with slice := h, ord := p.2 % 256, group := p.1.2.2.2 % 1024 })
          let m := slice body 0x30 256
          let regs := ((List.range 32).map (fun i => (slice body (0x130 + 24 * i) 16, leAt body (0x130 + 24 * i + 16) 8))).filter (fun e => !allZero e.1)
          let nqn := ((List.range 32).map (fun i => slice body (0x430 + 64 * i) 64)).filter (fun e => bit (leAt e 32 4) 31)
          s.slmJournal cRestore h d recs (fun s =>
            let s := s.updDyn (h % 4096) (fun y => { y with
              mseq := leAt m 0 4, sprev := slice m 4 32, flags := 16
              ops := { y.ops with bal := floorOf d y.ops false }, byt := { y.byt with bal := floorOf d y.byt true } })
            let s := if regs = [] then s else
              ns.foldl (fun s e => { s with io := { s.io with resv := aset s.io.resv e.1 { s.resvOf e.1 with regs := regs } } }) s
            nqn.foldl (fun s e => s.nqnPut e h) s)

/-! ## The written-grain log (R198) -/

/-- WGL_START: a ring at SLM.WGL_BASE of SLM.WGL_SIZE entries. -/
def State.wglStart (s : State) (h : Nat) : State :=
  let st := sdState (s.sliceDesc (h % 4096))
  if st = 0 ∨ st = 5 then s.slmDone 0x04 h
  else if (s.dynOf (h % 4096)).wgl.isSome then s.slmDone 0x02 h
  else
    (s.updDyn (h % 4096) (fun d => { d with wgl := some { base := dramBase + s.rf R.SLM.WGL_BASE.ADDR, size := s.rf R.SLM.WGL_SIZE.ENTRIES }, wglWr := 0, wglRd := 0, wglOvf := false })).slmDone 0 h

/-- WGL_STOP: stopping a log that is off changes nothing. -/
def State.wglStop (s : State) (h : Nat) : State :=
  let st := sdState (s.sliceDesc (h % 4096))
  if st = 0 ∨ st = 5 then s.slmDone 0x04 h
  else (s.updDyn (h % 4096) (fun d => { d with wgl := none })).slmDone 0 h

/-- A write to SLM.CMD (R172, R173, R183); while SLM takes no new work it waits (R675). -/
def State.slmCmd (s : State) (op h : Nat) : State :=
  if s.slm.cmd.isSome then s.wf R.SLM.CMD_STAT.RESULT 0x02
  else if !s.blockOn Pg.SLM then s.slmWait (heldOp op false) h
  else if op = 0 ∨ 11 < op then s.slmDone 0x01 h
  else if op < 10 ∧ s.lead = false then s.slmDone 0x08 h
  else if (op = cRemove ∨ op = cFreeze) ∧ s.slm.hseal.isSome = true then s.slmWait op h
  else if op ≠ cCreate ∧ op ≠ cRestore ∧ s.handleOk h = false then s.staleHandle.slmDone 0x05 h
  else if op = cCreate then s.slmCreate
  else if op = cReshape then s.slmReshape h
  else if op = cQuiesce then s.slmMove op h (· == 1) (fun _ => false) 2 id
  else if op = cResume then s.slmMove op h (fun x => x == 3 || x == 4) (fun _ => false) 1 id
  else if op = cReset then s.slmMove op h (· == 3) (fun x => x == 1 || x == 2) 5 (fun s => s.resetSlice h)
  else if op = cRemove then s.slmRemove h
  else if op = cFreeze then s.slmFreeze h
  else if op = cSave then s.slmSave h
  else if op = cRestore then s.slmRestore
  else if op = cWglStart then s.wglStart h
  else s.wglStop h

/-- Try again an accepted command whose stamp was not to be had (R173), or one that waited for SLM to take new work (R675). -/
def State.slmRetry (s : State) : State :=
  match s.slm.cmd with
  | some (op, h) => if 16 ≤ op ∧ s.blockOn Pg.SLM = false then s else { s with slm := { s.slm with cmd := none } }.slmCmd (op % 16) h
  | none => s

/-- CREATE (R180). -/
def execCreateCmd (s : State) : Host.Outcome State Fault Refusal := .next (s.slmCmd cCreate 0)

/-- RESHAPE (R182). -/
def execReshape (h : Fin 1048576) (s : State) : Host.Outcome State Fault Refusal := .next (s.slmCmd cReshape h.val)

/-- QUIESCE (R183). -/
def execQuiesce (h : Fin 1048576) (s : State) : Host.Outcome State Fault Refusal := .next (s.slmCmd cQuiesce h.val)

/-- RESUME (R183). -/
def execResumeCmd (h : Fin 1048576) (s : State) : Host.Outcome State Fault Refusal := .next (s.slmCmd cResume h.val)

/-- RESET (R186). -/
def execResetCmd (h : Fin 1048576) (s : State) : Host.Outcome State Fault Refusal := .next (s.slmCmd cReset h.val).settle

/-- REMOVE (R187). -/
def execRemoveCmd (h : Fin 1048576) (s : State) : Host.Outcome State Fault Refusal := .next (s.slmCmd cRemove h.val)

/-- FREEZE (R208). -/
def execFreeze (h : Fin 1048576) (s : State) : Host.Outcome State Fault Refusal := .next (s.slmCmd cFreeze h.val)

/-- SAVE (R199). -/
def execSaveCmd (h : Fin 1048576) (s : State) : Host.Outcome State Fault Refusal := .next (s.slmCmd cSave h.val)

/-- RESTORE (R200). -/
def execRestoreCmd (s : State) : Host.Outcome State Fault Refusal := .next (s.slmCmd cRestore 0)

/-- WGL_START (R198). -/
def execWglStart (h : Fin 1048576) (s : State) : Host.Outcome State Fault Refusal := .next (s.slmCmd cWglStart h.val)

/-- WGL_STOP (R183). -/
def execWglStop (h : Fin 1048576) (s : State) : Host.Outcome State Fault Refusal := .next (s.slmCmd cWglStop h.val)

/-! ## Completions of lifecycle steps (R184, R186, R188) -/

/-- In-flight count of a slice on this head (R184): the commands it has admitted, those it has forwarded among them. -/
def State.inflight (s : State) (i : Nat) : Nat :=
  (s.io.cmds.filter (fun e => e.2.slice % 4096 == i && e.2.stage != Stage.waiting && decide (e.2.opc < 0x100) && !e.2.fromPartner)).length

/-- QUIESCE_COMPLETE (R184, R188): on the lead, once no command of the slice is in flight on either head. -/
def execQuiesceComplete (i : Fin 4096) (s : State) : Host.Outcome State Fault Refusal :=
  match s.sliceRow i.val with
  | none => .next s
  | some r =>
    let partnerIdle := s.mode == .solo || (s.dynOf i.val).pInfl == some 0
    if s.lead && sdState r.desc == 2 && s.inflight i.val == 0 && partnerIdle then
      .next ((s.journal [rSlice (i.val + 4096 * r.gen) r.desc (sdWith r.desc 3)]).2.updDyn i.val (fun d => { d with pInfl := none }))
    else .next s

/-- RESET_COMPLETE (R186): on the lead, once the slice's queue pairs are closed on both heads; partner tells that the partner has closed its
own, for which the spec names no message (log 89). -/
def execResetComplete (i : Fin 4096) (s : State) (partner : Bool := true) : Host.Outcome State Fault Refusal :=
  match s.sliceRow i.val with
  | none => .next s
  | some r =>
    let h := i.val + 4096 * r.gen
    if s.lead && sdState r.desc == 5 && s.pairsOf h == 0 && (partner || s.mode == .solo) then .next (s.journal [rSlice h r.desc (sdWith r.desc 3)]).2
    else .next s

/-- A record of this head's that carries a stamp is shown applied by the partner (R479). -/
def State.partnerHas (s : State) (o : Nat) : Bool :=
  (((s.mpe.hist.find? (fun g => match g with | r :: _ => r.ostamp == o | [] => false)).getD []).map (fun r => r.lane)).all (fun l =>
    decide (o ≤ agetD s.mpe.pApp (s.head * 32 + l) 0))

/-- INFLIGHT (R172, R184): the partner's count for a slice; it counts while the slice is QUIESCING, and the partner knows of it. -/
def execInflight (c : CHdr) (h : Fin 1048576) (n : Nat) (s : State) : Host.Outcome State Fault Refusal :=
  match s.cRecv cAdmin c with
  | (false, s) => .next s
  | (true, s) => 
    if s.handleOk h.val then
      .next (if sdState (s.sliceDesc (h.val % 4096)) = 2 ∧ s.partnerHas (s.dynOf (h.val % 4096)).qStamp = true then
        s.updDyn (h.val % 4096) (fun d => { d with pInfl := some n }) else s)
    else .next s.staleHandle

/-! ## Bridle's clock (R189 to R194) -/

/-- BRIDLE_EPOCH (R189): every 100 µs the grants are made and waiting commands considered. -/
def execBridleEpoch (s : State) : Host.Outcome State Fault Refusal :=
  if !serving s.mode || s.estamp < s.slm.epochAt + 100000 then .next s
  else
    let full := fun (t : Tok) => { t with num := 1, den := 1 }
    let s := if s.mode = .solo then { s with slm := { s.slm with dyn := amap s.slm.dyn (fun _ d => { d with ops := full d.ops, byt := full d.byt }) } } else s
    .next s.epochGrant.admitAll.settle

/-- The share of each kind for the next 1 ms (R193). -/
def dynShare (d : SliceDyn) : SliceDyn := { d with ops := tokShare d.ops, byt := tokShare d.byt }

/-- Handle of a slice index. -/
def State.handleOf (s : State) (i : Nat) : Nat := i + 4096 * ((aget s.maps.slices i).map (fun r => r.gen)).getD 0

/-- PARTNER_1MS_EXCHANGE (R193, R204): DEMAND and METER_CNT of the slices that changed, and the in-flight count of slices
being quiesced, go to the partner; the share is worked out for the next 1 ms. Demand of 1 ms is the cost of what waited as it began and of
what has arrived since (R192). -/
def execPartner1msExchange (s : State) : Host.Outcome State Fault Refusal :=
  if s.mode ≠ .paired ∨ s.estamp < s.slm.exchAt + 1000000 then .next s
  else
    let dem := (s.slm.dyn.filter (fun e => e.2.ops.own != e.2.ops.sent || e.2.byt.own != e.2.byt.sent)).map (fun e => (s.handleOf e.1, e.2.ops.own, e.2.byt.own))
    let cnt := (s.slm.dyn.filter (fun e => e.2.changed)).map (fun e => (s.handleOf e.1, meterBytes e.2.own))
    let qs := (s.slm.dyn.filter (fun e => sdState (s.sliceDesc e.1) == 2)).map Prod.fst
    let s := s.sendC (.demand dem)
    let s := s.sendC (.meterCnt false cnt)
    let s := if s.lead then s else qs.foldl (fun s i => s.sendC (.inflight (s.handleOf i) (s.inflight i))) s
    .next { s with slm := { s.slm with exchAt := s.estamp, dyn := amap s.slm.dyn (fun i d =>
      let roll := fun (t : Tok) (n : Nat) => { t with sent := t.own, own := n }
      let w := s.waitingOf i
      dynShare { d with ops := roll d.ops (sumL (w.map (fun c => opCost c.opc))), byt := roll d.byt (sumL (w.map s.byteCost)), told := d.own, changed := false }) } }

/-- The partner's demand of one slice (R172, R193). -/
def State.demandOne (s : State) (e : Nat × Nat × Nat) : State :=
  if s.handleOk e.1 then
    s.updDyn (e.1 % 4096) (fun d => dynShare { d with ops := { d.ops with other := e.2.1 }, byt := { d.byt with other := e.2.2 } })
  else s.staleHandle

/-- The partner's counters of one slice (R172, R204). -/
def State.meterOne (s : State) (e : Nat × Bytes) : State :=
  if s.handleOk e.1 then s.updDyn (e.1 % 4096) (fun d => { d with part := meterParse e.2 }) else s.staleHandle

/-- DEMAND (R172, R193): the partner's demand of the last 1 ms, entry by entry. -/
def execDemand (c : CHdr) (es : List (Nat × Nat × Nat)) (s : State) : Host.Outcome State Fault Refusal :=
  match s.cRecv cAdmin c with
  | (false, s) => .next s
  | (true, s) =>
    .next (es.foldl (fun s e => s.demandOne e) s)

/-- METER_CNT (R172, R204, R208): the partner's counters of the open minute; a final one from a leaving
head marks the minute HANDOVER. -/
def execMeterCnt (c : CHdr) (final : Bool) (es : List (Nat × Bytes)) (s : State) : Host.Outcome State Fault Refusal :=
  match s.cRecv cAdmin c with
  | (false, s) => .next s
  | (true, s) =>
    let s := es.foldl (fun s e => s.meterOne e) s
    .next (if final then { s with slm := { s.slm with minFlags := s.slm.minFlags ||| 4 } } else s)

/-! ## The meter chain (R204 to R209) -/

/-- Counters less others of the same minute. -/
def meterLess (a b : Meter) : Meter :=
  { rdOps := a.rdOps - b.rdOps, wrOps := a.wrOps - b.wrOps, otOps := a.otOps - b.otOps, rdB := a.rdB - b.rdB, wrB := a.wrB - b.wrB
    hist := (amap a.hist (fun k n => n - agetD b.hist k 0)).filter (fun e => e.2 != 0), throt := a.throt - b.throt, short := a.short - b.short }

/-- The minute ends on a head that is not lead (R204): what the partner has been told of belongs to the minute it closes, the rest to the
next one (log 90). -/
def State.minuteOther (s : State) : State :=
  { s with slm := { s.slm with minuteAt := s.estamp, dyn := amap s.slm.dyn (fun _ d =>
      { d with own := meterLess d.own d.told, part := {}, told := {}, changed := true }) } }

/-- MINUTE_CLOSE (R204, R205): at each minute boundary the lead closes the record of every slice that is not FROZEN. -/
def execMinuteClose (s : State) : Host.Outcome State Fault Refusal :=
  let due := if s.tbs.rtcValid then decide ((s.utcNs - (s.estamp - s.slm.minuteAt)) / 60000000000 < s.utcNs / 60000000000)
    else decide (s.slm.minuteAt + 60000000000 ≤ s.estamp)
  if !due then .next s
  else if s.mode = .paired ∧ s.lead = false then .next s.minuteOther
  else if !s.lead || s.slm.hseal.isSome then .next s
  else
    let (m, st) := s.minuteNow 1
    let flags := s.minuteFlags ||| (128 * b2n st)
    let r := (s.slm.dyn.map Prod.fst).foldl (fun (o : Option State) i => o.bind (fun s => s.closeRecord i m flags)) (some s)
    match r with
    | some s => .next { s with slm := { s.slm with minute := m, minuteAt := s.estamp, minFlags := 0, calStep := false } }
    | none => .next (s.ovfBegin Unit.slm)

/-- Publish the entries that may be, in order (R206, R209). -/
def State.publish (s : State) : Nat → State
  | 0 => s
  | k + 1 =>
    match s.slm.unpub with
    | e :: t =>
      let need := s.mode == .paired || s.mode == .handover
      if e.dur && (e.ack || !need) then
        let wr := s.rf R.SLM.MRING_WR.SEQ
        let rd := s.rf R.SLM.MRING_RD.SEQ
        let s := s.store (dramBase + s.rf R.SLM.MRING_BASE.ADDR + e.seq % 16777216 * 256) e.bytes
        let s := (s.wf R.SLM.MRING_WR.SEQ (e.seq + 1))
        let s := { s with slm := { s.slm with unpub := t, log := s.slm.log ++ [(e.seq, e.bytes)] } }
        let s := if wr ≤ rd + 12582912 ∧ rd + 12582912 < e.seq + 1 then s.event Pg.SLM else s
        let s := if rd + 16777216 < e.seq + 1 then s.raise Pg.SLM 1 else s
        s.publish k
      else s
    | [] => s

/-- METER_PUBLISH (R206): an entry that is durable in two copies of the meter log lets it, and those before it, be published, in order. -/
def execMeterPublish (seq : Nat) (s : State) : Host.Outcome State Fault Refusal :=
  .next (if s.slm.unpub.any (fun e => e.seq == seq && e.dur) then s.publish (s.slm.unpub.length + 1) else s)

/-- METER_ACK (R206): the partner has received an entry. -/
def execMeterAck (c : CHdr) (seq : Nat) (s : State) : Host.Outcome State Fault Refusal :=
  match s.cRecv cAdmin c with
  | (false, s) => .next s
  | (true, s) =>
  let s := { s with slm := { s.slm with unpub := s.slm.unpub.map (fun (e : MetEnt) => if e.seq = seq then { e with ack := true } else e) } }
  .next (s.publish (s.slm.unpub.length + 1))

/-- The chain value after an entry (R206, R207): its SHA-256, or that of a seal's 24 entries once the last is there. -/
def chainAfter (unpub : List MetEnt) (chain : Bytes) (n : Nat) (b : Bytes) : Bytes :=
  let at_ := fun (k : Nat) => (unpub.find? (fun (e : MetEnt) => e.seq == k)).map (fun (e : MetEnt) => e.bytes)
  if leAt b 0x14 1 = 1 ∧ leAt b 0 8 = n then sha256 b
  else
    match (if 23 ≤ n then at_ (n - 23) else none) with
    | some h =>
      if leAt h 0x14 1 = 0x81 then sha256 (((List.range 24).filterMap (fun i => at_ (n - 23 + i))).flatten) else chain
    | none => chain

/-- METER_REC (R172, R206): an entry from the lead is held at its place in the chain, and acknowledged; a record that names a stale handle
is discarded. -/
def execMeterRec (c : CHdr) (n : Nat) (b : Bytes) (s : State) : Host.Outcome State Fault Refusal :=
  match s.cRecv cAdmin c with
  | (false, s) => .next s
  | (true, s) =>
  if leAt b 0x14 1 = 1 ∧ leAt b 0 8 = n ∧ s.handleOk (leAt b 0x18 4 % 2 ^ 20) = false then .next s.staleHandle
  else
  let ent : MetEnt := { seq := n, bytes := b, ack := true }
  let unpub := s.slm.unpub.filter (fun (e : MetEnt) => e.seq != n) ++ [ent]
  let m : Slm := s.slm
  let s := { s with slm := { m with unpub := unpub, seq := n + 1, chain := chainAfter unpub m.chain n b } }
  if leAt b 0x14 1 = 1 ∧ leAt b 0 8 = n then
    let i := leAt b 0x18 4 % 4096
    let s := { s with slm := { s.slm with minute := max s.slm.minute (leAt b 0x1C 4) } }
    .next ((s.updDyn i (fun d => { d with part := {}, mseq := leAt b 0xA8 4, sprev := sha256 b, flags := 0 })).sendC (.meterAck n))
  else .next (s.sendC (.meterAck n))

/-- LPNs reachable below an entry that points to a page at a level, with their levels. -/
def reach (m : Maps) : Nat → Nat → List Nat
  | 0, e => if entKind e = 2 then [entLpn e] else []
  | l + 1, e => if entKind e = 2 then
      entLpn e :: (match aget m.pages (entLpn e) with | some p => p.ents.flatMap (fun x => reach m l x.2) | none => [])
    else []

/-- The CIDs that the leaf pages among some pages reference, once per reference. -/
def State.cidsOf (s : State) (lpns : List Nat) : List Nat :=
  lpns.flatMap (fun l => match aget s.maps.pages l with
    | some p => if p.level = 0 then (p.ents.filter (fun x => entKind x.2 == 2)).map (fun x => entCid x.2) else []
    | none => [])

/-- The exact attribution of references (R203), in 1/65,536 byte. -/
def State.attrCids (s : State) (cids : List Nat) : Nat :=
  sumL (cids.map (fun c => let r := s.ctRec c; attrOf r.clen (max r.ref 1)))

/-- ATTRIBUTION_SWEEP (R203): ATTR and SNAP of every slice are set to their exact sums, SNAP over the records that none of its live leaves
names, and SWEPT in its next record. HOURS of 0 acts as 1, and one above 168 as written (log 94). -/
def execAttributionSweep (s : State) : Host.Outcome State Fault Refusal :=
  if !serving s.mode || s.estamp < s.slm.sweepAt + max 1 (s.rf R.SLM.SWEEP_CFG.HOURS) * 3600000000000 then .next s
  else
    let dyn := amap s.slm.dyn (fun i d =>
      let nss := s.attached (s.handleOf i)
      let live := (nss.flatMap (fun e => reach s.maps (rootLevel e.2.desc.size) e.2.root)).eraseDups
      let all := (live ++ nss.flatMap (fun e => e.2.slots.flatMap (fun x => reach s.maps (rootLevel e.2.desc.size) x.2))).eraseDups
      let held := s.cidsOf live
      { d with attr := s.attrCids (s.cidsOf all), snap := s.attrCids ((s.cidsOf all).filter (fun c => !held.contains c)), flags := d.flags ||| 64 })
    .next { s with slm := { s.slm with dyn := dyn, sweepAt := s.estamp } }

end Sys2Proof.Machine
end

