-- ==== Sys2Proof/Machine/Fmm.lean ====
section
/-! DEFINITION. FMM: dies and blocks, where a unit is programmed, page-table changes, journal tiles (R353 to R359, R378 to R392, R405 to R413). -/
namespace Sys2Proof.Machine

/-! ## Blocks of a die (R379, R384, R389 to R392, R407) -/

/-- Block table entries of a die. -/
def State.dieBt (s : State) (m die : Nat) : AMap Blk :=
  s.fmm.bt.filter (fun e => decide (btKey m die 0 ≤ e.1) && decide (e.1 < btKey m die 0 + 8192))

def State.modBlocks (s : State) (m : Nat) : Nat := ((aget s.fmm.mods m).map (fun x => x.blocks)).getD 0

/-- Blocks of a die in one of some states. -/
def State.blocksIn (s : State) (m die : Nat) (l : List Nat) : Nat := ((s.dieBt m die).filter (fun e => l.contains e.2.state)).length

/-- Erased blocks of a die. -/
def State.erasedCount (s : State) (m die : Nat) : Nat := s.modBlocks m - ((s.dieBt m die).filter (fun e => e.2.state != 0)).length

/-- Weighted wear of a block (R407). -/
def State.wear (s : State) (b : Blk) : Nat := b.qlcE + b.slcE * s.rf R.FMM.WEAR_CFG.SLC_WEIGHT / 256

/-- The lowest-numbered pool. -/
def State.firstPool (s : State) : Option (Nat × Pool) := s.maps.pools.head?

/-- Blocks of a die kept for Ballast and the vault (R332, R391). -/
def State.ballastOf (s : State) (m : Nat) : Nat :=
  match s.maps.pools.find? (fun e => bit e.2.members m) with
  | some (_, p) => s.modBlocks m / 2 ^ p.ballast
  | none => 0
def State.vaultOf (s : State) (m : Nat) : Nat :=
  match s.firstPool with
  | some (_, p) => if bit p.members m then s.rf R.FMM.SHELF_CFG.VAULT_BLK else 0
  | none => 0

/-- Room in a die's Shelf for one more SLC block (R390). -/
def State.shelfRoom (s : State) (m die : Nat) : Bool :=
  decide ((s.blocksIn m die [1, 3] + 1) * 100 ≤ s.rf R.FMM.SHELF_CFG.PCT * (s.modBlocks m - s.blocksIn m die [5]))

/-- A new block may be opened on a die in a mode. -/
def State.canOpen (s : State) (m die : Nat) (qlc ballast : Bool) : Bool :=
  decide (s.vaultOf m + (if ballast then 0 else s.ballastOf m) < s.erasedCount m die) && (qlc || s.shelfRoom m die)

/-- The open block of a die in a mode with a free wordline (R385). -/
def State.openBlk (s : State) (m die : Nat) (qlc : Bool) : Option Nat :=
  ((s.dieBt m die).find? (fun e => e.2.state == (if qlc then 2 else 1) && decide (e.2.wl < 64))).map (fun e => e.1 % 8192)

/-- The erased block of least weighted wear (R407), the lowest-numbered among equals. -/
def State.freshBlk (s : State) (m die : Nat) : Option Nat :=
  ((List.range (s.modBlocks m)).foldl (fun (best : Option (Nat × Nat)) b =>
    let x := s.blk (btKey m die b)
    if x.state ≠ 0 then best
    else match best with
      | some (w, c) => if s.wear x < w then some (s.wear x, b) else some (w, c)
      | none => some (s.wear x, b)) none).map Prod.snd

/-- Programs outstanding on a die. -/
def State.dieQueue (s : State) (m die : Nat) : Nat :=
  (s.jlk.reqs.filter (fun e => e.1 / 4096 == m && e.2.die == die && e.2.op == opProgram)).length

/-- Dies of a module this head may program. -/
def State.ownDies (s : State) (m : Nat) : List Nat :=
  match aget s.fmm.mods m with
  | some x => (List.range x.dies).filter (fun d => s.ownsDie d && !x.failed.contains d)
  | none => []

/-- The die with the shortest program queue among some, the lowest-numbered among equals. -/
def State.shortest (s : State) (m : Nat) : List Nat → Option Nat
  | [] => none
  | d :: t =>
    match s.shortest m t with
    | some k => if s.dieQueue m d ≤ s.dieQueue m k then some d else some k
    | none => some d

/-- Homes of a tile of a mirrored kind, by its copies: the journal pages that name it. -/
def State.copiesOf (s : State) (seg : Nat) : List Nat :=
  match s.mpe.log.find? (fun p => p.seg == seg) with
  | some p => p.homes
  | none =>
    match s.mpe.lanes.find? (fun e => e.2.seg == seg || e.2.pages.any (fun p => p.seg == seg)) with
    | some e => e.2.homes
    | none => s.slm.mlog.homes

/-- The unit of a segment that a module holds; for a mirrored kind, the copy. -/
def State.unitOf (s : State) (seg m : Nat) : Nat :=
  let g := s.seg seg
  if g.kind = 1 ∨ g.kind = 2 then (s.copiesOf seg).findIdx (fun h => h == m) else (s.segHomes g).findIdx (fun h => h == some m)

/-- The 512-byte summary of a block (R387): its wordlines as the page table names them. -/
def State.blockSummary (s : State) (m die block : Nat) (qlc : Bool) : Bytes :=
  (List.range 64).flatMap (fun wl =>
    let page := if qlc then 4 * wl else wl
    match s.fmm.pt.find? (fun e => e.1 / 2 ^ 29 == m && ptDie e.2 == die && ptBlock e.2 == block && ptPage e.2 == page && ptValid e.2 && e.1 % 4 == 0) with
    | some (k, _) =>
      let seg := k % 2 ^ 29 / 16
      let g := s.seg seg
      le (seg + g.gen * 2 ^ 25 + s.unitOf seg m * 2 ^ 33 + (if qlc then 2 ^ 38 else 0)) 8
    | none => zeros 8)

/-- Programs and erases are allowed: in a serving mode (Table 2-1), and not on a head that has left serving for a fault (R63, R648). -/
def State.mayProgram (s : State) : Bool := !s.bsv.silent && serving s.mode

/-- Program one wordline of a die's metadata area (R104, R387, R389), or leave it to wait where no program may start, no metadata block has a
free wordline, or FMM's issuer stalls. The codeword metadata names segment 0 (log 31). -/
def State.metaPut (s : State) (w : Nat × Nat × Bool × Bytes) : State :=
  let wait := fun (s : State) => { s with fmm := { s.fmm with metaWait := s.fmm.metaWait ++ [w] } }
  let m := w.1
  let die := w.2.1
  let free := (s.dieBt m die).filter (fun e => e.2.state == 6 && decide (e.2.wl < 64))
  match (if w.2.2.1 then free.getLast? else free.head?) with
  | none => wait s
  | some (k, x) =>
    if !s.mayProgram || s.absent m then wait s
    else
      match s.issue (Unit.fmm (m / 16)) with
      | (none, s) => wait s
      | (some o, s) =>
        let d := padTo 65536 w.2.2.2
        let pages := (List.range 4).map (fun p => (List.range 4).map (fun j =>
          slice d (p * 16384 + j * 4096) 4096 ++ cwMeta 0 0 0 0 (p * 4 + j) 0 die (k % 8192) x.wl j false o s.arrayId m))
        (s.setBlk k { x with wl := x.wl + 1 }).jProgram m die (k % 8192) x.wl false pages .other

/-- Program what waits for the metadata areas, in order. -/
def State.metaFlush (s : State) : State := s.fmm.metaWait.foldl State.metaPut { s with fmm := { s.fmm with metaWait := [] } }

/-- Append bytes to a die's metadata area (R387, R389), 64 KiB to a wordline, behind what waits. -/
def State.metaProgram (s : State) (m die : Nat) (last : Bool) (b : Bytes) : State :=
  let parts := (List.range (max 1 (cdiv b.length 65536))).map (fun i => (m, die, last, slice b (i * 65536) 65536))
  { s with fmm := { s.fmm with metaWait := s.fmm.metaWait ++ parts } }.metaFlush

/-- A full block whose programs have all been answered is summarised in its die's metadata area (R387). -/
def State.sumBlock (s : State) (m die block : Nat) : State :=
  let k := btKey m die block
  let x := s.blk k
  let busy := s.jlk.reqs.any (fun e => e.1 / 4096 == m && e.2.op == opProgram && e.2.die == die && fld e.2.addr 0 13 == block)
  let filling := fun (pages : Nat) (spots : List (Nat × Nat × Nat × Nat)) =>
    decide (pages < 4) && spots.any (fun p => p.1 == m && p.2.1 == die && p.2.2.1 == block)
  let held := s.mpe.lanes.any (fun e => filling e.2.tilePages e.2.spots) || filling s.slm.mlog.tilePages s.slm.mlog.spots
  if (x.state == 3 || x.state == 4) && !x.summed && !busy && !held && s.ownsDie die then
    (s.setBlk k { x with summed := true }).metaProgram m die false (s.blockSummary m die block (x.state == 4))
  else s

/-- Take the next wordline of a die in a mode; a block whose last wordline is taken is full. -/
def State.takeWl (s : State) (m die : Nat) (qlc : Bool) : Option (Nat × Nat × State) :=
  match (s.openBlk m die qlc).orElse (fun _ => s.freshBlk m die) with
  | none => none
  | some b =>
    let k := btKey m die b
    let x := s.blk k
    let x' := { x with wl := x.wl + 1, state := if x.wl + 1 = 64 then (if qlc then 4 else 3) else (if qlc then 2 else 1) }
    some (b, x.wl, s.setBlk k x')

/-- Where the next unit of a module goes (R385, R332): die, block, wordline and the state after. -/
def State.placeUnit (s : State) (m : Nat) (qlc ballast : Bool) : Option (Nat × Nat × Nat × State) :=
  let ds := (s.ownDies m).filter (fun d => (s.openBlk m d qlc).isSome || s.canOpen m d qlc ballast)
  match s.shortest m ds with
  | none => none
  | some d =>
    match s.takeWl m d qlc with
    | some (b, wl, s) => some (d, b, wl, s)
    | none => none

/-- The pages of a unit: tile data with the metadata of each codeword (R380 to R382). -/
def State.unitPages (s : State) (m seg unit die block wl : Nat) (qlc : Bool) (pstamp : Nat) (tiles : List Bytes) : List (List Bytes) :=
  let g := s.seg seg
  (List.range (4 * tiles.length)).map (fun p =>
    let q := p / 4
    let page := if qlc then 4 * wl + q else wl
    (List.range 4).map (fun j =>
      let c := p % 4 * 4 + j
      slice (nthD tiles q []) (c * 4096) 4096 ++ cwMeta seg g.gen unit q c g.kind die block page j qlc pstamp s.arrayId m))

/-- Program a unit of a segment on its home (R104, R385, R405): none where no die has room, false where no program may start now or FMM's
issuer stalls, so that nothing is placed. -/
def State.progUnit (s : State) (m seg unit : Nat) (tiles : List Bytes) (ballast : Bool) (why : Why) : Option (Bool × State) :=
  let qlc := decide (tiles.length = 4)
  if !s.mayProgram then some (false, s)
  else
    match s.placeUnit m qlc ballast with
    | none => none
    | some (d, b, wl, t) =>
      match t.issue (Unit.fmm (m / 16)) with
      | (none, _) => some (false, s.ovfBegin (Unit.fmm (m / 16)))
      | (some o, t) => some (true, t.jProgram m d b wl qlc (t.unitPages m seg unit d b wl qlc o tiles) why)

/-- Page table changes that place a unit's pages (R383): of a module and segment, at a die, block and wordline. -/
def ptUnit (m seg die block page : Nat) (qlc : Bool) : List (Nat × Nat) :=
  (List.range (if qlc then 16 else 4)).map (fun i => (ptKey m seg (i / 4) (i % 4), mkPt die block (page + (if qlc then i / 4 else 0)) qlc))

/-- Clear VALID of a unit's pages on a module (R397, R410). -/
def State.ptClear (s : State) (m seg : Nat) : State :=
  s.ptSet (((s.fmm.pt.filter (fun e => e.1 / 16 == m * 2 ^ 25 + seg && ptValid e.2)).map (fun e => (e.1, setBit e.2 27 false))))

/-! ## Segments: programs and their end (R343, R344, R349 to R351) -/

/-- A record of a segment's opening is still to become durable (R343). -/
def State.openPending (s : State) (seg : Nat) : Bool :=
  let hit := fun (r : JRec) => (r.typ == tSegState || r.typ == tDirty) && r.target % 2 ^ 25 == seg
  s.mpe.lanes.any (fun e => e.2.queue.any hit || e.2.pages.any (fun p => decide (p.done.length < 2) && p.recs.any hit))

/-- Tiles of every unit of a segment being built: those a fold or a checkpoint gave, else those of its records. -/
def State.openTiles (s : State) (seg : Nat) (o : OpenSeg) : List (List Bytes) :=
  if o.tiles != [] then o.tiles else (s.segTiles seg (s.seg seg) o.recs).map (fun t => [t])

/-- A program of a unit is outstanding. -/
def State.unitOut (s : State) (seg unit : Nat) : Bool := s.jlk.reqs.any (fun e => e.2.why == .unit seg unit)

/-- A unit of a segment being built is absent (R349, R411). -/
def State.unitGone (s : State) (seg unit : Nat) : State :=
  { s with sgb := { s.sgb with opens := aupd s.sgb.opens seg (fun o => { o with absent := if o.absent.contains unit then o.absent else o.absent ++ [unit] }) } }

/-- Issue one unit of a closed segment that is neither durable, absent nor under way: an absent home's unit is left out (R349). -/
def State.issueUnit (s : State) (seg : Nat) (home : Option Nat) (tile : List Bytes) (k : Nat) : State :=
  match aget s.sgb.opens seg with
  | none => s
  | some o =>
    if o.durable.contains k || o.absent.contains k || s.unitOut seg k then s
    else
      match home with
      | some m =>
        if s.absent m then s.unitGone seg k
        else
          match s.progUnit m seg k tile false (.unit seg k) with
          | some (_, s) => s
          | none => s.unitGone seg k
      | none => s.unitGone seg k

/-- Issue the programs of a closed segment that are still to be issued, once its opening is durable (R343). -/
def State.issueUnits (s : State) (seg : Nat) : State :=
  match aget s.sgb.opens seg with
  | none => s
  | some o =>
    let g := s.seg seg
    let todo := (List.range (g.d + 2)).filter (fun k => !(o.durable.contains k || o.absent.contains k || s.unitOut seg k))
    if !o.closed || todo.isEmpty || !s.mayProgram || s.openPending seg then s
    else
      let tiles := s.openTiles seg o
      let homes := s.segHomes g
      let s := { s with sgb := { s.sgb with opens := aupd s.sgb.opens seg (fun o => { o with issued := true, openDur := true }) } }
      todo.foldl (fun s k => s.issueUnit seg (nthD homes k none) (nthD tiles k []) k) s

/-- Issue what can be issued of every closed segment. -/
def State.pumpSegs (s : State) : State := (s.sgb.opens.map Prod.fst).foldl (fun s k => s.issueUnits k) s

/-- A segment is closed to further grains (R238). -/
def State.closeSeg (s : State) (seg : Nat) : State :=
  ({ s with sgb := { s.sgb with opens := aupd s.sgb.opens seg (fun o => { o with closed := true }) } }).issueUnits seg

/-- A free segment number this head may take (R333), the lowest. -/
def State.freeSeg (s : State) : Nat :=
  ((List.range (2 * s.maps.segs.length + 4)).find? (fun n => n != 0 && (s.seg n).state == 0 && !ahas s.sgb.opens n && (s.mode == .solo || n % 2 == s.head))).getD 0

end Sys2Proof.Machine
end

