-- ==== Sys2Proof/Machine/Chunks.lean ====
section
/-! DEFINITION. Checkpoint chunks: their bytes, the segments of checkpoint kind they are written in, and the directory (R285 to R290, R331, R335). -/
namespace Sys2Proof.Machine

/-! ## The bytes of a chunk (R251, R260, R285, R331, R335; log 85) -/

/-- Fold links of a segment table entry (Table 10-6). -/
def foldBytes (g : Seg) : Bytes :=
  if g.isFold then le (sumL (g.sources.zipIdx.map (fun p => p.1 * 2 ^ (25 * p.2))) + 2 ^ 127) 16
  else le (g.tgtSeg + g.tgtGen * 2 ^ 25 + g.q * 2 ^ 33 + (if g.linked then 2 ^ 35 else 0)) 16

/-- A segment table entry (Table 9-2). -/
def segBytes (g : Seg) : Bytes :=
  le (g.state + g.kind * 16) 1 ++ le g.gen 1 ++ le (g.pool + g.owner * 128) 1 ++ le g.d 1 ++ le g.basegen 2 ++ le g.row 2 ++ le g.valid 4
    ++ le g.sealStamp 12 ++ foldBytes g ++ zeros 24

/-- A map page as its 4 KiB (R251). -/
def mapPageBytes (p : Page) : Bytes := (List.range 512).flatMap (fun i => le (agetD p.ents i 0) 8)

/-- Entries of the directory in one of its parts. -/
def dirPart : Nat := 16384

/-- The bytes of a chunk of some maps under a directory (R285, R335); the directory's own layout is the model's (log 85). -/
def chunkBytes (m : Maps) (dir : AMap (Nat × Nat)) (k : Nat) : Bytes :=
  if k < 2 ^ 40 then (List.range 4096).flatMap (fun i => le (ctEnc (agetD m.ct (k * 4096 + i) {})) 16)
  else if k < 2 ^ 41 then mapPageBytes (agetD m.pages (k - 2 ^ 40) { level := 0 })
  else if k < 2 ^ 42 then
    let segs := (List.range 1024).map (fun i => agetD m.segs ((k - 2 ^ 41) * 1024 + i) {})
    segs.flatMap segBytes ++ le (sumL (segs.zipIdx.map (fun p => if p.1.dirty then 2 ^ p.2 else 0))) 128
  else if k < 2 ^ 43 then
    let i := k - 2 ^ 42
    match (match aget m.layNext i with | some p => some p | none => (aget m.pools (i % 4)).filter (fun p => p.laygen == i / 4)) with
    | some p => layoutBytes (i % 4) p
    | none => zeros 256
  else ((dir.drop ((k - 2 ^ 43) * dirPart)).take dirPart).flatMap (fun e => le e.1 8 ++ le e.2.1 8 ++ le e.2.2 8)

/-- Length of a chunk in 16-byte units. -/
def chunkLen (dir : AMap (Nat × Nat)) (k : Nat) : Nat :=
  if k < 2 ^ 40 then 4096 else if k < 2 ^ 41 then 256 else if k < 2 ^ 42 then 4104 else if k < 2 ^ 43 then 16
  else cdiv (3 * ((dir.drop ((k - 2 ^ 43) * dirPart)).take dirPart).length) 2

/-- The maps that the newest checkpoint and the groups applied since, up to a stamp, give (R258, R286, R290). Descriptors written and not yet
current are kept (R331). -/
def State.replica (s : State) (c : Nat) : Maps :=
  let image : Maps := ((s.mpe.ckpt).map (fun k => k.image)).getD {}
  let gs := s.mpe.hist.filter (fun g => decide (maxL (g.map (fun r => r.ostamp)) ≤ c))
  let lay := (s.maps.pools.map (fun e => (e.2.laygen * 4 + e.1, e.2))).foldl (fun (m : AMap Pool) e => aset m e.1 e.2) s.maps.layNext
  (gs.foldl (fun (t : State) g => (applyRecs (t.groupSlice g) g t).getD t) { s with maps := { image with layNext := lay } }).maps

/-- The maps that a chunk written now is cut from: those at the cut of the running checkpoint, else the live ones. -/
def State.chunkSource (s : State) : Maps :=
  match s.mpe.ckRun with
  | some k => s.replica k.covered
  | none => s.maps

/-! ## Segments of checkpoint kind (R288, R337, R340, R343, R347, R348) -/

/-- Units of 16 bytes of a tile between its header and the footer of its trailer, which has no entries (R337, R340). -/
def tileUnits : Nat := 4091

/-- Chunks that fit in a room, in their order: those taken with the unit each begins at. -/
def fitChunks (len : Nat → Nat) (room : Nat) : Nat → List Nat → List (Nat × Nat)
  | _, [] => []
  | at_, k :: t => if at_ + len k ≤ room then (k, at_) :: fitChunks len room (at_ + len k) t else []

/-- The tiles of the units of a checkpoint segment whose data units hold a run of bytes. -/
def State.chunkTiles (s : State) (seg : Nat) (body : Bytes) : List Bytes :=
  let g := s.seg seg
  let ds := (List.range g.d).map (fun k =>
    s.segHeader seg g k g.d g.row ++ padTo (tileUnits * 16) (slice body (k * (tileUnits * 16)) (tileUnits * 16)) ++ withCrc (zeros 12))
  ds ++ [parityP ds, parityQ ds]

/-- A row of a pool's new base all of whose homes are present to both heads and have room for one more SLC unit (R348, R392). -/
def State.rowOpen (s : State) (p : Pool) (row : Nat) : Bool :=
  (homesOf p p.baseNew row).all (fun h => match h with
    | some m => !s.absent m && !(s.mode == .paired && bit s.fmm.pAway m) && (s.ownDies m).any (fun d => (s.openBlk m d false).isSome || s.canOpen m d false false)
    | none => false)

/-- What opening a segment of a striped kind asks besides its row (R264, R333, R343, R347). -/
def State.mayOpen (s : State) (seg : Nat) : Bool :=
  (s.mode == .solo || s.mode == .paired) && s.blockOn Pg.SGB && s.mayProgram && (s.seg seg).state == 0 && seg != 0
    && (s.mode == .solo || seg % 2 == s.head) && decide (s.dirtySegs < s.rf R.SGB.CFG.MAX_DIRTY)

/-- Open a segment of checkpoint kind for chunks of a pool that wait, those the checkpoint has shadowed first (R287, R288), and close it: its
programs follow once the group that opens it is durable (R343). -/
def State.chunkSeg (s : State) (seg pool row : Nat) : State :=
  match aget s.maps.pools pool with
  | none => s
  | some p =>
    let b := p.baseNew
    let wait := (s.mpe.ckTodo.filter (fun c => c.1 == pool)).map Prod.snd
    let dark := fun (k : Nat) => match s.mpe.ckRun with | some c => c.shadow.contains k | none => false
    let take_ := fitChunks (chunkLen s.mpe.dir) (b.d * tileUnits) 0 (wait.filter dark ++ wait.filter (fun k => !dark k))
    if take_ = [] then s
    else
      match s.journal [rSegState seg (s.seg seg).gen 4 0 1, rDirty seg false true] with
      | (false, s) => s
      | (true, s) =>
        let s := s.setSeg seg { s.seg seg with pool := pool, d := b.d, basegen := b.basegen, row := row }
        let m := s.chunkSource
        let body := take_.flatMap (fun c => padTo (chunkLen s.mpe.dir c.1 * 16) (chunkBytes m s.mpe.dir c.1))
        let at_ := fun (u : Nat) => seg * 2 ^ 18 + u / tileUnits * 4096 + 4 + u % tileUnits
        let keys := take_.map Prod.fst
        ({ s with sgb := { s.sgb with opens := aset s.sgb.opens seg { closed := true, tiles := (s.chunkTiles seg body).map (fun t => [t]) } }
                  mpe := { s.mpe with ckTodo := s.mpe.ckTodo.filter (fun c => !(c.1 == pool && keys.contains c.2))
                                      ckSegs := aset s.mpe.ckSegs seg (take_.map (fun (c : Nat × Nat) => (c.1, at_ c.2, chunkLen s.mpe.dir c.1))) } }).issueUnits seg

/-- The directory of the running checkpoint is due: every other chunk of it is durable (R288). -/
def State.dirDue (s : State) : Bool :=
  s.mpe.ckRun.isSome && s.mpe.ckTodo.isEmpty && s.mpe.ckSegs.isEmpty && !s.mpe.ckDir && !s.maps.pools.isEmpty

/-- Give the directory out to be written, in parts, without the copies of pages that are no longer in use. -/
def State.dirQueue (s : State) : State :=
  if !s.dirDue then s
  else
    let m := s.chunkSource
    let dir := s.mpe.dir.filter (fun e => decide (e.1 < 2 ^ 43) && (!decide (2 ^ 40 ≤ e.1 ∧ e.1 < 2 ^ 41) || ahas m.pages (e.1 - 2 ^ 40)))
    let pool := ((s.maps.pools.head?).map Prod.fst).getD 0
    { s with mpe := { s.mpe with dir := dir, ckDir := true, ckTodo := (List.range (max 1 (cdiv dir.length dirPart))).map (fun i => (pool, 2 ^ 43 + i)) } }

/-- Write chunks that wait, one segment to a pool (R288). -/
def State.ckptPump (s : State) : State :=
  let s := s.dirQueue
  s.maps.pools.foldl (fun s e =>
    let n := s.freeSeg
    if s.mpe.ckTodo.any (fun c => c.1 == e.1) && s.mayOpen n then
      match (List.range 4096).find? (fun r => s.rowOpen e.2 r) with
      | some row => s.chunkSeg n e.1 row
      | none => s
    else s) s

/-- Live chunk copies of a checkpoint segment, and what they take in 16-byte units with their heading, as VALID counts records (log 85). -/
def State.chunksIn (s : State) (seg : Nat) : List (Nat × Nat × Nat) := s.mpe.dir.filter (fun e => locSeg e.2.1 == seg)
def State.chunkValid (s : State) (seg : Nat) : State := s.setSeg seg { s.seg seg with valid := sumL ((s.chunksIn seg).map (fun e => e.2.2)) }

/-- A checkpoint segment has left OPEN: its chunks are durable, or are written again elsewhere (R286, Table 7-7). -/
def State.chunksDone (s : State) (seg : Nat) (ok : Bool) : State :=
  match aget s.mpe.ckSegs seg with
  | none => s
  | some cs =>
    let s := { s with mpe := { s.mpe with ckSegs := adel s.mpe.ckSegs seg } }
    if ok then
      let again := fun (k : Nat) => s.mpe.ckTodo.any (fun c => c.2 == k)
      let dir := cs.foldl (fun (d : AMap (Nat × Nat)) c => aset d c.1 c.2) s.mpe.dir
      let run := s.mpe.ckRun.map (fun (k : Ckpt) => { k with shadow := k.shadow.filter (fun x => again x || !cs.any (fun c => c.1 == x)) })
      ({ s with mpe := { s.mpe with dir := dir, ckRun := run } }).chunkValid seg
    else
      let pool := (s.seg seg).pool
      (s.chunkQueue (cs.map (fun c => (pool, c.1)))).raise Pg.MPE 3

/-- The copies of chunks that newer ones supersede are released (R289): a checkpoint segment of this head without a live copy retires. -/
def State.chunkRelease (s : State) : State :=
  let old := (s.mpe.ckpt.map (fun k => k.dir)).getD []
  let live := fun (n : Nat) => s.mpe.dir.any (fun e => locSeg e.2.1 == n) || old.any (fun e => locSeg e.2.1 == n)
  ((s.maps.segs.filter (fun e => e.2.kind == 4 && (e.2.state == 2 || e.2.state == 3) && (s.mode == .solo || e.2.owner == s.head))).map Prod.fst).foldl (fun s n =>
    let s := s.chunkValid n
    if live n || (s.seg n).linked then s else (s.journal [rSegState n (s.seg n).gen 4 (s.seg n).state 7]).2) s

/-- The chunks of a segment move with it to a QLC segment (R396). -/
def State.chunkMove (s : State) (seg : Nat) (f : Nat → Nat) : State :=
  { s with mpe := { s.mpe with dir := amap s.mpe.dir (fun _ e => if locSeg e.1 = seg then (f (locOff e.1), e.2) else e) } }

end Sys2Proof.Machine
end

