-- ==== Sys2Proof/Machine/Segments.lean ====
section
/-! DEFINITION. Segments as they open and are sealed, journal lanes, and the meter log (R206, R238, R343 to R358, R132). -/
namespace Sys2Proof.Machine

/-! ## Segments (R238, R343, R347, R348, R350, R392) -/

/-- A record placed in a segment is live (R272): its content record names it. -/
def State.liveAt (s : State) (seg : Nat) (p : Placed) : Bool :=
  let r := s.ctRec p.cid
  !ctFree r && r.gen == p.gen && r.loc == locOf seg p.off

/-- Place records of a segment again elsewhere in its pool (R350, R351, R401); each waits for its CT_LOC until its new
segment is SEALED. Records for which no segment is open wait for one. -/
def State.replace (s : State) (seg : Nat) (recs : List Placed) : State :=
  let g := s.seg seg
  (recs.filter (fun p => s.liveAt seg p && !s.sgb.reloc.any (fun r => r.cid == p.cid && r.src == locOf seg p.off))).foldl (fun s p =>
    let src := locOf seg p.off
    match s.placePool g.pool { p with srcLoc := src } with
    | some (dst, s) => { s with sgb := { s.sgb with reloc := s.sgb.reloc ++ [{ cid := p.cid, gen := p.gen, src := src, dst := dst }] } }
    | none => { s with sgb := { s.sgb with stray := s.sgb.stray.filter (fun x => !(x.1 == seg && x.2.off == p.off)) ++ [(seg, p)] } }) s

/-- Place again the records that waited for an open segment. -/
def State.replaceStray (s : State) : State :=
  s.sgb.stray.foldl (fun (s : State) x => s.replace x.1 [x.2]) { s with sgb := { s.sgb with stray := [] } }

/-- SEGMENT_OPEN (R288, R343, R347, R348, R392): the owner opens a segment of a pool on a row of BASE_NEW, all of whose homes
are present and have Shelf room, up to MAX_DIRTY in all: one of checkpoint kind where chunks wait for the pool, else one of kind data, up to
PREOPEN ahead of need. away gives the positions absent to the partner (log 98). -/
def execSegmentOpen (seg : Fin 33554432) (pool : Fin 4) (row : Fin 4096) (s : State) (away : BitVec 64 := 0) : Host.Outcome State Fault Refusal :=
  let s := { s with fmm := { s.fmm with pAway := away.toNat } }
  match aget s.maps.pools pool.val with
  | none => .next s
  | some p =>
    let b := p.baseNew
    let homes := homesOf p b row.val
    let g := s.seg seg.val
    let ahead := (s.sgb.opens.filter (fun e => !e.2.closed && e.2.recs.isEmpty)).length
    if s.mayOpen seg.val && s.rowOpen p row.val && s.mpe.ckTodo.any (fun c => c.1 == pool.val) then .next (s.chunkSeg seg.val pool.val row.val)
    else if s.mayOpen seg.val && decide (ahead < max 1 (s.rf R.SGB.CFG.PREOPEN)) && s.rowOpen p row.val then
      match s.journal [rSegState seg.val g.gen 0 0 1, rDirty seg.val false true] with
      | (true, s) =>
        let s := s.setSeg seg.val { s.seg seg.val with pool := pool.val, d := b.d, basegen := b.basegen, row := row.val }
        .next ({ s with sgb := { s.sgb with opens := aset s.sgb.opens seg.val {} } }).replaceStray.pumpPlace
      | (false, s) => .next s
    else
      let full := homes.filterMap (fun h => match h with
        | some m => if !s.absent m && (s.ownDies m).all (fun d => (s.openBlk m d false).isNone && !s.shelfRoom m d) then some m else none
        | none => none)
      let free := g.state == 0 && seg.val != 0 && (s.mode == .solo || seg.val % 2 == s.head)
      .next (if free && full != [] then s.raise Pg.FMM 5 else s)

/-- SEGMENT_SEAL (R238): an open segment that is full, or whose oldest grain has waited 1 ms (20 µs in SOLO), is closed. -/
def execSegmentSeal (seg : Fin 33554432) (s : State) : Host.Outcome State Fault Refusal :=
  match aget s.sgb.opens seg.val with
  | none => .next s
  | some o =>
    let wait := if s.mode = .solo then 20000 else 1000000
    let due := match o.oldest with | some t => decide (t + wait ≤ s.now) | none => false
    if !o.closed && !o.recs.isEmpty && (due || (s.roomIn seg.val o 32).isNone) then .next (s.closeSeg seg.val) else .next s

/-- Forget the relocations into a segment that did not become SEALED (R402): they are made again from their sources. -/
def State.dropReloc (s : State) (seg : Nat) : State :=
  { s with sgb := { s.sgb with reloc := s.sgb.reloc.filter (fun r => locSeg r.dst != seg) } }

/-! ## Journal lanes (R353 to R357, R132) -/

/-- Lane copies a module holds. -/
def State.laneCopies (s : State) (m : Nat) : Nat := (s.mpe.lanes.filter (fun e => e.2.homes.contains m)).length

/-- Failure domain of a module in a pool (Table 9-1). -/
def fdomOf (p : Pool) (m : Nat) : Nat := fld p.fdom (4 * m) 4

/-- Pick homes one by one: the module with the fewest lane copies, lowest number first, outside the domains taken. -/
def State.pickHomes (s : State) (p : Pool) (distinct : Bool) : Nat → List Nat → List Nat
  | 0, acc => acc
  | k + 1, acc =>
    let cand := s.present.filter (fun m => bit p.members m && !acc.contains m && (!distinct || acc.all (fun h => fdomOf p h != fdomOf p m)))
    match (sortKey (fun m => s.laneCopies m) cand).head? with
    | some m => s.pickHomes p distinct k (acc ++ [m])
    | none => acc

/-- Three homes under R355, and whether the domains are reduced. -/
def State.laneHomes (s : State) : List Nat × Bool :=
  match s.firstPool with
  | none => ([], false)
  | some (_, p) =>
    let h := s.pickHomes p true 3 []
    if h.length = 3 then (h, false) else (s.pickHomes p false 3 [], true)

/-- Take a place on each of some modules for a tile (R353). -/
def State.tileSpots (s : State) (h : List Nat) : List (Nat × Nat × Nat × Nat) × State :=
  h.foldl (fun (a : List (Nat × Nat × Nat × Nat) × State) m =>
    match a.2.placeUnit m false false with
    | some (d, b, wl, s') => (a.1 ++ [(m, d, b, wl)], s')
    | none => a) ([], s)

/-- Full blocks that a tile gives up are summarised (R387). -/
def State.sumSpots (s : State) (l : List (Nat × Nat × Nat × Nat)) : State := l.foldl (fun s p => s.sumBlock p.1 p.2.1 p.2.2.1) s

/-- The homes a tile begins on: the lane's own while all of them are there, else new ones; and whether domains are reduced (R355, R356). -/
def State.tileHomes (s : State) (x : Lane) : Bool × List Nat × Bool :=
  if x.homes.length == 3 && !x.rehome && x.homes.all (fun m => !s.absent m) then (true, x.homes, false) else (false, s.laneHomes)

/-- Begin a tile of a lane (R353, R355, R356): homes where it has none or one has gone, a segment number of kind journal,
a place on each home; a lane that moves issues LANE_HOME, which goes into the lane in its order (R121, log 82). -/
def State.beginTile (s : State) (l : Nat) : State :=
  let x := s.lane l
  let (stay, h, red) := s.tileHomes x
  let n := s.freeSeg
  match s.journal [rSegState n (s.seg n).gen 1 0 1] with
  | (false, s) => s
  | (true, s) =>
    let (spots, s) := s.tileSpots h
    let s := s.setSeg n { s.seg n with d := 1, row := s.head * 128 + l, pool := ((s.firstPool).map Prod.fst).getD 0 }
    let s := if red then s.raise Pg.JRN 1 else s
    let word := fun (hs : List Nat) => sumL (hs.zipIdx.map (fun p => p.1 * 256 ^ p.2))
    let s := (s.setLane l { s.lane l with homes := h, seg := n, tilePages := 0, spots := spots, rehome := false }).sumSpots x.spots
    if stay then s
    else
      let s := if x.homes = [] then s else (s.inc R.JRN.CNT_REHOME.COUNT).raise Pg.JRN 0
      match s.issueAbove l (s.lane l).horizon with
      | (some o, s) =>
        let r0 := rLaneHome s.head l (word x.homes) (word h)
        let r : JRec := { r0 with ostamp := o, cnt := 1, head := s.head, lane := l }
        let s := match s.applyRec 4096 r with | some s => s | none => s
        s.enqueue r
      | (none, s) => s

/-- The header of a journal tile (Table 9-5). -/
def State.journalHeader (s : State) (n copy : Nat) : Bytes :=
  let g := s.seg n
  s.segHeader n g copy 1 g.row

/-- PAD record (R353). -/
def padRec : Bytes := jrBytes { typ := tPad, target := 0 }

/-- Program one 16 KiB page of a mirrored tile on one home (R353, R381): slot p of the tile, copy c. -/
def State.progTilePage (s : State) (seg kind p c : Nat) (spot : Nat × Nat × Nat × Nat) (o : Ostamp) (body : Bytes) (why : Why) : State :=
  let (m, d, b, wl) := spot
  let cws := (List.range 4).map (fun j => slice body (j * 4096) 4096 ++ cwMeta seg (s.seg seg).gen c 0 (p * 4 + j) kind d b wl j false o s.arrayId m)
  let a := addrWord b wl p 0 0 false 0 p 0
  s.jReq m opProgram d a 0 [le a 8 ++ pageBytes b wl cws] why

/-- The 16 KiB page of a journal tile (R353): the first page holds the segment header in slot 0, and unused slots hold PAD. -/
def State.lanePageBytes (s : State) (seg slot copy : Nat) (recs : List JRec) : Bytes :=
  padTo 16384 ((if slot = 0 then s.journalHeader seg copy else []) ++ (recs.map jrBytes).flatten
    ++ (List.replicate ((if slot = 0 then 255 else 256) - recs.length) padRec).flatten)

/-- Program the next page of a lane's tile on the homes that are there (R104, R353); nothing happens while an FMM issuer stalls. -/
def State.programLanePage (s : State) (l : Nat) : State :=
  let x := s.lane l
  let spots := x.spots.filter (fun p => !s.absent p.1)
  match s.issueAll (spots.map (fun p => Unit.fmm (p.1 / 16))) with
  | (none, s) => s
  | (some os, s) =>
    let room := if x.tilePages = 0 then 255 else 256
    let recs := x.queue.take room
    let page : LanePage := { seg := x.seg, slot := x.tilePages, num := x.num, recs := recs, homes := spots.map (fun p => p.1) }
    let s := s.setLane l { x with queue := x.queue.drop room, firstAt := s.estamp, pages := x.pages ++ [page], tilePages := x.tilePages + 1, num := x.num + 1 }
    (spots.zip os).zipIdx.foldl (fun s p =>
      s.progTilePage x.seg 1 x.tilePages p.2 p.1.1 p.1.2 (s.lanePageBytes x.seg x.tilePages p.2 recs) (.lane l x.num p.1.1.1)) s

/-- The page a lane fills is to be programmed: it is full, or FLUSH_NS have passed since its first record (R353). -/
def State.laneDue (s : State) (l : Nat) : Bool :=
  let x := s.lane l
  let room := if x.tilePages % 4 = 0 ∨ x.seg = 0 then 255 else 256
  !x.queue.isEmpty && (decide (room ≤ x.queue.length) || decide (x.firstAt + s.rf R.JRN.CFG.FLUSH_NS ≤ s.estamp))

/-! ## The meter log (R206, R358) -/

def State.setMlog (s : State) (x : MLog) : State := { s with slm := { s.slm with mlog := x } }

/-- Entries of the meter chain that wait for a page of the meter log. -/
def State.meterQueue (s : State) : List MetEnt := s.slm.unpub.filter (fun e => !e.sent)

/-- Entries of 256 bytes that a page of a meter-log tile takes: the first page holds the segment header in its first 64 bytes, and
unused slots hold PAD (DESIGN CHOICE, log 84). -/
def meterRoom (slot : Nat) : Nat := if slot = 0 then 63 else 64

/-- The 16 KiB page of a meter-log tile. -/
def State.meterPageBytes (s : State) (seg slot copy : Nat) (es : List Bytes) : Bytes :=
  let head := (if slot = 0 then s.segHeader seg (s.seg seg) copy 1 (s.seg seg).row else []) ++ es.flatten
  padTo 16384 (head ++ (List.replicate ((16384 - head.length) / 64) padRec).flatten)

/-- Begin a tile of kind meter log on the homes of lane 31, or on homes R355 gives where that lane has none (R358). -/
def State.beginMeterTile (s : State) : State :=
  let l := s.lane 31
  let (_, h, red) := if l.homes.length == 3 then (true, l.homes.filter (fun m => !s.absent m), false) else s.tileHomes l
  let n := s.freeSeg
  match s.journal [rSegState n (s.seg n).gen 2 0 1] with
  | (false, s) => s
  | (true, s) =>
    let (spots, s) := s.tileSpots h
    let s := s.setSeg n { s.seg n with d := 1, row := s.head * 128 + 31, pool := ((s.firstPool).map Prod.fst).getD 0 }
    let s := if red then s.raise Pg.JRN 1 else s
    let x := s.slm.mlog
    (s.setMlog { x with homes := h, seg := n, tilePages := 0, spots := spots, rehome := false }).sumSpots x.spots

/-- Program the next page of the meter log's tile on the homes that are there (R206, R353). -/
def State.programMeterPage (s : State) : State :=
  let x := s.slm.mlog
  let spots := x.spots.filter (fun p => !s.absent p.1)
  match s.issueAll (spots.map (fun p => Unit.fmm (p.1 / 16))) with
  | (none, s) => s
  | (some os, s) =>
    let es := s.meterQueue.take (meterRoom x.tilePages)
    let seqs := es.map (fun e => e.seq)
    let page : MPage := { seg := x.seg, slot := x.tilePages, num := x.num, seqs := seqs, homes := spots.map (fun p => p.1) }
    let s := { s with slm := { s.slm with unpub := s.slm.unpub.map (fun (e : MetEnt) => if seqs.contains e.seq then { e with sent := true } else e)
                                          mlog := { x with firstAt := s.estamp, pages := x.pages ++ [page], tilePages := x.tilePages + 1, num := x.num + 1 } } }
    (spots.zip os).zipIdx.foldl (fun s p =>
      s.progTilePage x.seg 2 x.tilePages p.2 p.1.1 p.1.2 (s.meterPageBytes x.seg x.tilePages p.2 (es.map (fun e => e.bytes))) (.lane 32 x.num p.1.1.1)) s

/-- Write the meter log on: its page is programmed when it is full, or FLUSH_NS after its first entry (R206, R353, R358). -/
def State.meterFlush (s : State) : State :=
  let x := s.slm.mlog
  let q := s.meterQueue
  let l := (s.lane 31).homes
  let lost := x.rehome || x.homes.any (fun m => s.absent m || (l != [] && !l.contains m))
  let due := fun (s : State) => !q.isEmpty && (decide (meterRoom s.slm.mlog.tilePages ≤ q.length) || decide (x.firstAt + s.rf R.JRN.CFG.FLUSH_NS ≤ s.estamp))
  if x.seg ≠ 0 ∧ x.tilePages < 4 ∧ lost = false then (if due s then s.programMeterPage else s)
  else if due s then
    let s := s.beginMeterTile
    if s.slm.mlog.seg ≠ 0 ∧ s.slm.mlog.tilePages < 4 ∧ due s then s.programMeterPage else s
  else s

/-- A page of the meter log has been programmed on a home, or not. With two homes its entries are durable (R206, R354), and a full durable
tile is SEALED; entries of a page that can no longer have two copies are written again. -/
def State.meterAnswer (s : State) (m num : Nat) (ok : Bool) : State :=
  let x := s.slm.mlog
  match x.pages.find? (fun p => p.num == num) with
  | none => s
  | some p =>
    if ok then
      let done := p.done ++ [m]
      if done.length < 2 then s.setMlog { x with pages := x.pages.map (fun (q : MPage) => if q.num = num then { q with done := done } else q) }
      else
        let s := { s with slm := { s.slm with unpub := s.slm.unpub.map (fun (e : MetEnt) => if p.seqs.contains e.seq then { e with dur := true } else e)
                                              mlog := { x with pages := x.pages.filter (fun q => q.num != num) } } }
        if p.slot = 3 then (s.journal [rSegState p.seg (s.seg p.seg).gen 2 1 2]).2 else s
    else
      let left := (s.jlk.reqs.filter (fun e => match e.2.why with | .lane 32 k _ => k == num | _ => false)).length
      let x := { x with rehome := true }
      if 2 ≤ p.done.length + left then s.setMlog x
      else { s with slm := { s.slm with unpub := s.slm.unpub.map (fun (e : MetEnt) => if p.seqs.contains e.seq && !e.dur then { e with sent := false } else e)
                                        mlog := { x with pages := x.pages.filter (fun q => q.num != num) } } }

/-! ## The lanes' pages (R353, R356) -/

/-- LANE_PAGE_FLUSH (R353, R356): a lane's page is programmed on its homes when it is full, or FLUSH_NS after its first record. A lane that
has lost a home first writes the page it is filling where its tile is, so that LANE_HOME, which opens the next tile, is its first record.
Lane 31, whose homes the meter log shares (R358), writes the meter log on too (DESIGN CHOICE, log 84). -/
def execLanePageFlush (lane : Fin 32) (s : State) : Host.Outcome State Fault Refusal :=
  let l := lane.val
  let s := if l = 31 && serving s.mode && s.mayProgram && s.firstPool.isSome then s.meterFlush else s
  let x := s.lane l
  let lost := x.rehome || x.homes.any (fun m => s.absent m)
  let due := s.laneDue l
  if !serving s.mode || !s.mayProgram || s.firstPool.isNone then .next s
  else if x.seg ≠ 0 ∧ x.tilePages < 4 ∧ (lost = false ∨ x.queue.isEmpty = false) then .next (if due then s.programLanePage l else s)
  else if due || (lost && x.seg != 0) then
    let s := s.beginTile l
    let y := s.lane l
    .next (if s.laneDue l && y.seg != 0 && decide (y.tilePages < 4) then s.programLanePage l else s)
  else .next s

/-- Records of a lane up to which every record is durable in two copies (R403). -/
def State.durHorizon (s : State) (l : Nat) : Nat :=
  let x := s.lane l
  let open_ := x.pages.flatMap (fun p => p.recs) ++ x.queue
  match open_.map (fun r => r.ostamp) with
  | [] => x.horizon
  | o :: t => minL o (o :: t) - 1

/-- A page of a lane is durable, so its records are kept until a checkpoint releases them (R289, R354). -/
def State.pageDurable (s : State) (l : Nat) : Nat → State
  | 0 => s
  | k + 1 =>
    let x := s.lane l
    match x.pages with
    | p :: t =>
      if p.done.length < 2 then s
      else
        let s := s.setLane l { x with pages := t }
        let s := { s with mpe := { s.mpe with log := s.mpe.log ++ [({ seg := p.seg, head := s.head, lane := l, recs := p.recs, homes := p.done } : JPage)] } }
        let g := s.seg p.seg
        let s := if p.slot = 3 then (s.journal [rSegState p.seg g.gen 1 1 2]).2 else s
        s.pageDurable l k
    | [] => s

/-- LANE_PAGE_DURABLE (R354): a page programmed on two homes is durable; a full durable tile is SEALED, and segments whose
opening has become durable are programmed. -/
def execLanePageDurable (lane : Fin 32) (s : State) : Host.Outcome State Fault Refusal :=
  .next (s.pageDurable lane.val ((s.lane lane.val).pages.length + 1)).pumpSegs

/-- LANE_HORIZON_ADVANCE (R132): a lane that has issued nothing for 10 µs gives the partner its current PHYS with LOGICAL 0 as its horizon. -/
def execLaneHorizonAdvance (lane : Fin 32) (s : State) : Host.Outcome State Fault Refusal :=
  let l := lane.val
  let x := s.lane l
  if !s.mirrors || s.estamp < x.lastAt + 10000 then .next s
  else
    let o := mkStamp s.estamp 0 (s.origin l)
    -- no stamp of the lane may come at or below the horizon it has given (log 76)
    let s := if s.issueBase l < physLog o then s.issued l o else s
    .next ((s.setLane l { s.lane l with horizon := max (s.lane l).horizon o, lastAt := s.estamp }).sendC (.horizon [(l, o)]))

end Sys2Proof.Machine
end

