-- ==== Sys2Proof/Machine/Relocate.lean ====
section
/-! DEFINITION. Relocation, folding, garbage collection, erasure, page moves, patrol and die records (R389 to R413). -/
namespace Sys2Proof.Machine

/-- Data capacity of a segment in 16-byte units. -/
def segCap (g : Seg) : Nat := g.d * 4096 * (if g.isFold then 4 else 1)

/-- This head owns a segment. -/
def State.ownsSeg (s : State) (n : Nat) : Bool := s.mode == .solo || ((s.mode == .paired || s.mode == .handover) && (s.seg n).owner == s.head)

/-- Change a segment's state in a group of its own (R336). -/
def State.segTo (s : State) (n st : Nat) : State :=
  let g := s.seg n
  (s.journal [rSegState n g.gen g.kind g.state st]).2

/-- DRAINING, and SUPERSEDED after its fold, end in RETIRED once nothing is live (R395, R401); so does a segment that a crash left
open (R345). -/
def State.retireIfDrained (s : State) (n : Nat) : State :=
  let g := s.seg n
  if g.state = 1 ∧ g.dirty = true ∧ ahas s.sgb.opens n = false ∧ g.valid = 0 ∧ s.ownsSeg n = true then
    match s.journal [rSegState n g.gen g.kind 1 7, rDirty n true false] with
    | (true, s) => (s.inc R.SGB.CNT_ABANDON.COUNT).raise Pg.SGB 1
    | (false, s) => s
  else
  if g.state = 6 ∧ g.valid = 0 ∧ s.ownsSeg n = true then s.segTo n 7 else s

/-! ## Garbage collection (R399 to R402) -/

/-- A die of a member has too few free blocks (R400). -/
def State.freeLow (s : State) (m : Nat) : Bool :=
  (s.ownDies m).any (fun d =>
    decide ((s.erasedCount m d - s.ballastOf m - s.vaultOf m) * 100 < s.rf R.FMM.GC_CFG.FREE_LOW * (s.modBlocks m - s.blocksIn m d [5])))

/-- A segment that a fold quad may take (R393). -/
def foldable (g : Seg) : Bool := g.state == 2 && !g.isFold && !g.linked && (g.kind == 0 || g.kind == 4)

/-- The fold quad of a segment: the four foldable segments of its kind, owner, pool, base, row and D with the lowest SEALSTAMPs (R393). -/
def State.quadOf (s : State) (n : Nat) : List Nat :=
  let g := s.seg n
  ((sortKey (fun (e : Nat × Seg) => e.2.sealStamp) (s.maps.segs.filter (fun e => foldable e.2 && e.2.kind == g.kind && e.2.owner == g.owner
    && e.2.pool == g.pool && e.2.basegen == g.basegen && e.2.row == g.row && e.2.d == g.d))).take 4).map Prod.fst

/-- The four segments of a quad hold too little to be folded (R394). -/
def State.thinQuad (s : State) (n : Nat) : Bool :=
  let q := s.quadOf n
  q.length == 4 && q.contains n && decide (sumL (q.map (fun k => (s.seg k).valid)) * 100 < s.rf R.FMM.GC_CFG.FOLD_MIN * (4 * (s.seg n).d * 4096))

/-- Free blocks run low on a home of a segment of which little is live (R400). -/
def State.sparse (s : State) (n : Nat) : Bool :=
  let g := s.seg n
  (g.state == 2 || g.state == 3 || g.state == 5) && decide (g.valid * 100 < s.rf R.FMM.GC_CFG.VALID_PCT * segCap g)
    && (s.segHomes g).any (fun h => match h with | some m => s.freeLow m | none => false)

/-- A segment may be collected (R371, R394, R399, R400): little of it is live, less than of any other such, and free blocks run low; its base is
being retired; its quad holds too little; or it is DEGRADED or already DRAINING. -/
def State.collectable (s : State) (n : Nat) : Bool :=
  let g := s.seg n
  let pool := aget s.maps.pools g.pool
  let oldBase := match pool.bind (fun p => p.baseOld) with | some b => b.basegen == g.basegen | none => false
  let heldSeg := fun (g : Seg) => (g.state == 2 && g.linked) || (g.state == 3 && g.sources.any (fun q => (s.seg q).state == 4))
  let held := heldSeg g
  let least := s.sparse n && s.maps.segs.all (fun e => heldSeg e.2 || !s.ownsSeg e.1 || decide (g.valid ≤ e.2.valid) || !s.sparse e.1)
  s.ownsSeg n && (g.state == 6 || ((g.state == 2 || g.state == 3 || g.state == 5) && !held && (oldBase || g.state == 5 || s.thinQuad n || least)))

/-- The live chunks of a DRAINING checkpoint segment are written again elsewhere; it has drained once newer copies are durable (log 85). -/
def State.chunkAgain (s : State) (n : Nat) : State :=
  let pool := (s.seg n).pool
  let owed := (s.chunksIn n).filter (fun e => !s.chunkOwed e.1)
  ((s.chunkQueue (owed.map (fun e => (pool, e.1)))).chunkValid n).ckptPump

/-- GC_START (R400, R401): a segment goes to DRAINING, and the records read from it that are live are placed again in its
pool; recs are the records its trailers and codewords gave. -/
def execGcStart (seg : Fin 33554432) (recs : List Placed) (s : State) : Host.Outcome State Fault Refusal :=
  let n := seg.val
  if !s.collectable n || !s.blockOn Pg.FMM then .next s
  else
    let s := if (s.seg n).state = 6 then s else s.segTo n 6
    if (s.seg n).kind = 4 then .next ((s.chunkAgain n).retireIfDrained n)
    else if (s.seg n).state = 6 then .next ((s.replace n recs).retireIfDrained n) else .next s

/-- GC_RELOCATE_COMMIT (R401, R402): once a destination is SEALED, the CT_LOC of each record relocated into it is issued; a
copy whose source has moved on is garbage; drained sources retire. -/
def execGcRelocateCommit (seg : Fin 33554432) (s : State) : Host.Outcome State Fault Refusal :=
  if (s.seg seg.val).state ≠ 2 then .next s
  else
    let mine := s.sgb.reloc.filter (fun r => locSeg r.dst == seg.val)
    let s := mine.foldl (fun s r =>
      let c := s.ctRec r.cid
      let drop := fun (s : State) => { s with sgb := { s.sgb with reloc := s.sgb.reloc.filter (fun x => x != r) } }
      if !ctFree c && c.gen == r.gen && c.loc == r.src then
        match s.journal [rCtLoc r.cid r.src r.dst] with
        | (true, s) => drop (s.incWrap R.FMM.CNT_RELOC.COUNT)
        | (false, s) => s
      else drop (s.inc R.FMM.CNT_RELOC_STALE.COUNT)) s
    .next (((mine.map (fun r => locSeg r.src)).eraseDups.foldl (fun s n => s.retireIfDrained n) s).wcRelease s.wcDone).settle

/-! ## Folding (R393 to R398) -/

/-- Four segments form a fold quad (R367, R393, R394), in ascending SEALSTAMP. -/
def State.quadOk (s : State) (q : List Nat) : Bool :=
  let gs := q.map s.seg
  match gs with
  | g :: _ =>
    q.length == 4 && q.eraseDups.length == 4 && q.all s.ownsSeg
      && gs.all (fun x => x.state == 2 && !x.isFold && !x.linked && (x.kind == 0 || x.kind == 4) && x.pool == g.pool && x.basegen == g.basegen && x.row == g.row && x.d == g.d && x.owner == g.owner && x.kind == g.kind)
      && rising (gs.map (fun x => x.sealStamp))
      && decide (s.rf R.FMM.GC_CFG.FOLD_MIN * (4 * g.d * 4096) ≤ sumL (gs.map (fun x => x.valid)) * 100)
      && q.all (fun n => (List.range (g.d + 2)).all (fun k => (List.range 4).all (fun pl => (s.unitAt n k 0 pl).isSome)))
  | [] => false

/-- FOLD_START (R393, R395): the owner opens a QLC segment for a quad and each home folds its unit; got holds the decoded
codewords of the sources' units, by unit × 65,536 + tile × 16 + codeword. A source codeword that fails every step abandons
the fold before any program (R397): its unit is no longer valid. -/
def execFoldStart (q0 q1 q2 q3 new : Fin 33554432) (got : List (Nat × Bytes)) (s : State) : Host.Outcome State Fault Refusal :=
  let q := [q0.val, q1.val, q2.val, q3.val]
  let n := new.val
  let g0 := s.seg q0.val
  if !(s.quadOk q && (s.seg n).state == 0 && n != 0 && (s.mode == .solo || n % 2 == s.head) && s.mayProgram && s.blockOn Pg.FMM
      && decide (s.dirtySegs < s.rf R.SGB.CFG.MAX_DIRTY)) then .next s
  else
    let cw := fun (k t c : Nat) => aget got (cwKey k t c)
    let bad := (List.range (g0.d + 2)).flatMap (fun k => ((List.range 4).filter (fun t => (List.range 16).any (fun c => (cw k t c).isNone))).map (fun t => (k, t)))
    if bad != [] then
      let s := bad.foldl (fun s b => match (s.segHomes g0)[b.1]? with
        | some (some m) => s.ptClear m (nthD q b.2 0)
        | _ => s) s
      .next (s.inc R.FMM.CNT_FOLD_ABORT.COUNT)
    else
      match s.journal [rSegState n (s.seg n).gen g0.kind 0 1, rDirty n false true] with
      | (false, s) => .next s
      | (true, s) =>
        let gen := (s.seg n).gen
        let s := s.setSeg n { s.seg n with pool := g0.pool, d := g0.d, basegen := g0.basegen, row := g0.row, isFold := true, sources := q }
        let s := q.zipIdx.foldl (fun s p => s.setSeg p.1 { s.seg p.1 with linked := true, tgtSeg := n, tgtGen := gen, q := p.2 }) s
        let tiles := (List.range (g0.d + 2)).map (fun k => (List.range 4).map (fun t => (List.range 16).flatMap (fun c => (cw k t c).getD [])))
        .next ({ s with sgb := { s.sgb with opens := aset s.sgb.opens n { fold := true, closed := true, tiles := tiles } } }).pumpSegs

/-- A LOC in a Shelf segment of a fold, translated to the QLC segment (R396). -/
def foldLoc (n q off : Nat) : Nat := locOf n (off / 4096 * 16384 + q * 4096 + off % 4096)

/-- Abandon a fold (R397): its segment leaves OPEN, the links of its sources are cleared. -/
def State.foldAbort (s : State) (n : Nat) (absent : Nat) : State :=
  let g := s.seg n
  let st := if absent ≤ 2 then 5 else 7
  match s.journal [rSegState n g.gen g.kind 1 st, rDirty n true false] with
  | (false, s) => s
  | (true, s) =>
    let s := { s with sgb := { s.sgb with opens := adel s.sgb.opens n } }
    let s := g.sources.foldl (fun s q => s.setSeg q { s.seg q with linked := false }) s
    let s := s.inc R.FMM.CNT_FOLD_ABORT.COUNT
    if st = 5 then (s.segTo n 6).retireIfDrained n else s

/-- Move every live grain of a source of a fold to its QLC location (R395 step 4). -/
def State.foldMoves (s : State) (n src q : Nat) : State :=
  (s.maps.ct.filter (fun e => locSeg e.2.loc == src && !ctFree e.2)).foldl (fun s e =>
    match s.journal [rCtLoc e.1 e.2.loc (foldLoc n q (locOff e.2.loc))] with
    | (true, s) => s.incWrap R.FMM.CNT_RELOC.COUNT
    | (false, s) => s) s

/-- Steps 3 and 4 of a fold (R395, R396): the segment becomes QLC and its sources SUPERSEDED in one group, and what they hold moves with it. -/
def State.foldSeal (s : State) (n : Nat) : State :=
  let g := s.seg n
  match s.journal ([rSegState n g.gen g.kind 1 3, rDirty n true false] ++ g.sources.map (fun q => rSegState q (s.seg q).gen (s.seg q).kind 2 4)) with
  | (false, s) => s
  | (true, s) =>
    let s := ({ s with sgb := { s.sgb with opens := adel s.sgb.opens n } }).incWrap R.FMM.CNT_FOLD.COUNT
    let s := g.sources.zipIdx.foldl (fun s p => s.chunkMove p.1 (foldLoc n p.2)) s
    let s := if g.kind = 4 then (g.sources ++ [n]).foldl (fun s q => s.chunkValid q) s else s
    g.sources.zipIdx.foldl (fun s p => s.foldMoves n p.1 p.2) s

/-- FOLD_UNITS_DURABLE (R386, R395, R397): with every unit durable and acknowledged, the segment becomes QLC and its
sources SUPERSEDED in one group, and each live grain is moved to its QLC location; with a unit lost, the fold is abandoned. -/
def execFoldUnitsDurable (seg : Fin 33554432) (s : State) : Host.Outcome State Fault Refusal :=
  let n := seg.val
  match aget s.sgb.opens n with
  | none => .next s
  | some o =>
    let g := s.seg n
    let all := (List.range (g.d + 2)).all (fun k => o.durable.contains k || o.absent.contains k)
    let acked := !s.mirrors || decide (o.ptSeq ≤ s.fmm.ptAck)
    if !(o.fold && o.issued && all && acked) then .next s
    else if o.absent ≠ [] then .next (s.foldAbort n o.absent.length)
    else
      .next (s.foldSeal n)

/-- FOLD_RETIRE_SOURCE (R395, R398): live grains of a SUPERSEDED segment are moved, and one without any retires. -/
def execFoldRetireSource (seg : Fin 33554432) (s : State) : Host.Outcome State Fault Refusal :=
  let n := seg.val
  let g := s.seg n
  if g.state ≠ 4 ∨ s.ownsSeg n = false then .next s
  else
    let s := s.foldMoves g.tgtSeg n g.q
    let s := if (s.seg n).kind = 4 then s.chunkValid n else s
    .next (if (s.seg n).valid = 0 then s.segTo n 7 else s)

/-! ## Erasure (R404, R412) -/

/-- Units that a block holds, by the page table: (segment, key). -/
def State.unitsIn (s : State) (m die block : Nat) : List Nat :=
  ((s.fmm.pt.filter (fun e => e.1 / 2 ^ 29 == m && ptValid e.2 && ptDie e.2 == die && ptBlock e.2 == block)).map (fun e => e.1 % 2 ^ 29 / 16)).eraseDups

/-- Every journal lane's durable horizon has passed a stamp (R403, R404): of both heads, or of the serving one in SOLO. -/
def State.allDurable (s : State) (o : Nat) : Bool :=
  let own := (List.range 32).all (fun l => (s.lane l).pages.isEmpty && (s.lane l).queue.isEmpty || decide (o < s.durHorizon l))
  let part := (List.range 32).all (fun l => decide (o < agetD s.mpe.pDur l 0))
  own && (s.mode == .solo || part)

/-- The partner has applied a record of this head (R404): its applied horizon has passed the stamp on every lane. -/
def State.partnerApplied (s : State) (o : Nat) : Bool :=
  s.mode == .solo || (List.range 32).all (fun l => decide (o ≤ agetD s.mpe.pApp (s.head * 32 + l) 0))

/-- BLOCK_ERASE_ISSUE (R104, R384, R404): the owner of the die erases a block that holds no unit still needed, once every lane's
durable horizon and the partner have passed what that rests on and no read of it is outstanding. -/
def execBlockEraseIssue (m : Fin 64) (die : Fin 64) (block : Fin 8192) (s : State) : Host.Outcome State Fault Refusal :=
  let k := btKey m.val die.val block.val
  let b := s.blk k
  let segs := s.unitsIn m.val die.val block.val
  let free := segs.all (fun n => let g := s.seg n; g.state == 0 || (g.state == 7 && g.valid == 0 && s.allDurable g.retStamp && s.partnerApplied g.retStamp))
  let used := (b.state == 7 && b.wl != 0 && !s.bsv.gondolaValid) || b.state == 3 || b.state == 4 || ((b.state == 1 || b.state == 2) && b.wl == 64)
  let acked := !s.mirrors || decide (s.fmm.ptSeq ≤ s.fmm.ptAck)
  if s.mayProgram && serving s.mode && (s.ownDies m.val).contains die.val && used && free && acked && b.outRd == 0 && !b.erasing && !s.absent m.val then
    match s.issue (Unit.fmm (m.val / 16)) with
    | (none, s) => .next s
    | (some _, s) =>
      let s := s.setBlk k { b with erasing := true }
      let a := addrWord block.val 0 0 0 0 false 0 0 0
      .next (s.jReq m.val opErase die.val a 0 [le a 8] (.erase die.val block.val))
  else .next s

/-- A block has been erased (R379, R404, R409, Table 10-4): its units are gone; a RETIRED segment none of whose units is left
becomes FREE. -/
def State.erasedBlk (s : State) (m die block : Nat) : State :=
  let k := btKey m die block
  let b := s.blk k
  let segs := s.unitsIn m die block
  let qlc := b.state == 2 || b.state == 4
  let s := s.setBlk k { b with state := 0, wl := 0, reads := 0, refresh := false, erasing := false, summed := false
                               qlcE := if qlc then min 65535 (b.qlcE + 1) else b.qlcE, slcE := if qlc then b.slcE else min 65535 (b.slcE + 1) }
  let s := s.ptSet ((s.fmm.pt.filter (fun e => e.1 / 2 ^ 29 == m && ptDie e.2 == die && ptBlock e.2 == block)).map (fun e => (e.1, 0)))
  let s := s.incWrap R.FMM.CNT_ERASE.COUNT
  let s := if b.refresh then s.inc R.FMM.CNT_REFRESH.COUNT else s
  segs.foldl (fun s n =>
    let g := s.seg n
    if g.state = 7 ∧ g.valid = 0 ∧ s.ownsSeg n = true ∧ s.fmm.pt.all (fun e => !(ptValid e.2 && e.1 % 2 ^ 29 / 16 == n)) = true then s.segTo n 0 else s) s

/-! ## Moves (R405 to R409) -/

/-- Why a block's units are to move (Table 10-8): a bad or marked block, reclaim, or wear. -/
def State.moveCause (s : State) (m die block : Nat) : Bool :=
  let b := s.blk (btKey m die block)
  let full := b.state == 3 || b.state == 4
  let wears := (s.dieBt m die).map (fun e => s.wear e.2)
  let cold := (s.dieBt m die).filter (fun e => e.2.state == 3 || e.2.state == 4) |>.map (fun e => s.wear e.2)
  b.state == 5 || b.refresh || (full && s.freeLow m)
    || (full && s.wear b == minL (s.wear b) cold && decide (s.wear b + s.rf R.FMM.WEAR_CFG.SPREAD < maxL wears))

/-- The module's place among the homes of a segment: its unit, or its copy of a mirrored tile that is full (R353, R405). -/
def State.unitOn (s : State) (seg m : Nat) : Option Nat :=
  let g := s.seg seg
  if g.kind = 1 ∨ g.kind = 2 then (if g.state = 1 then none else (s.copiesOf seg).findIdx? (fun h => h == m))
  else (s.segHomes g).findIdx? (fun h => h == some m)

/-- PAGE_MOVE (R405, R406): a unit is copied to another block of the same mode of its module; got holds its decoded
codewords by tile × 16 + codeword. One that cannot be decoded leaves the unit where it is. -/
def execPageMove (m : Fin 64) (seg : Fin 33554432) (got : List (Nat × Bytes)) (s : State) : Host.Outcome State Fault Refusal :=
  let n := seg.val
  let g := s.seg n
  let e := agetD s.fmm.pt (ptKey m.val n 0 0) 0
  let tiles := if g.isFold then 4 else 1
  let whole := (List.range (tiles * 16)).all (fun i => (aget got i).isSome)
  match s.unitOn n m.val with
  | none => .next s
  | some unit =>
    if ptValid e && (s.ownDies m.val).contains (ptDie e) && !s.absent m.val && s.moveCause m.val (ptDie e) (ptBlock e) && whole
        && !s.jlk.reqs.any (fun r => match r.2.why with | .move k _ => k == ptKey m.val n 0 0 | _ => false) then
      let data := (List.range tiles).map (fun t => (List.range 16).flatMap (fun c => (aget got (t * 16 + c)).getD []))
      .next (match s.progUnit m.val n unit data false (.move (ptKey m.val n 0 0) 0) with | some (_, s) => s | none => s)
    else .next s

/-- PATROL_READ (R410): the owner of a die reads a page that holds a valid unit with full escalation; ok tells whether every
codeword was decoded. Otherwise the unit is no longer valid and RBE rebuilds it. -/
def execPatrolRead (m : Fin 64) (seg : Fin 33554432) (tile plane : Fin 4) (ok : Bool) (s : State) : Host.Outcome State Fault Refusal :=
  let e := agetD s.fmm.pt (ptKey m.val seg.val tile.val plane.val) 0
  let x := agetD s.fmm.mods m.val { dies := 0 }
  let last := agetD x.patrol (ptKey 0 seg.val tile.val plane.val) 0
  let due := last == 0 || decide (last + s.rf R.FMM.PATROL_CFG.DAYS * 86400000000000 ≤ s.now + 1)
  if ptValid e && !s.absent m.val && (s.ownDies m.val).contains (ptDie e) && due then
    let s := s.noteRead m.val e
    let s := { s with fmm := { s.fmm with mods := aupd s.fmm.mods m.val (fun x => { x with patrol := aset x.patrol (ptKey 0 seg.val tile.val plane.val) (s.now + 1) }) } }
    .next (if ok then s else ((s.inc R.FMM.CNT_PATROL_UNREC.COUNT).ptClear m.val seg.val).raise Pg.FMM 2)
  else .next s

/-- What the record of a die holds (R389, R452). -/
structure DieRec where
  array  : Nat
  phase  : Nat
  failed : Nat
  rrTab  : Nat
  bad    : List Nat
  /-- block, QLC erases, SLC erases, READS, RR of every block with a history -/
  blocks : List (Nat × Nat × Nat × Nat × Nat)
  patrol : List (Nat × Nat)
  deriving DecidableEq, Repr

/-- The bytes of a die record in the model's layout (log 31): a length, the fields, a CRC. -/
def dieRecBytes (r : DieRec) : Bytes :=
  let body := le r.array 16 ++ le r.phase 2 ++ le r.failed 8 ++ le r.rrTab 1 ++ le r.bad.length 2 ++ le r.blocks.length 2 ++ le r.patrol.length 4
    ++ r.bad.flatMap (fun b => le b 2) ++ r.blocks.flatMap (fun b => le b.1 2 ++ le b.2.1 2 ++ le b.2.2.1 2 ++ le b.2.2.2.1 3 ++ le b.2.2.2.2 1)
    ++ r.patrol.flatMap (fun p => le p.1 4 ++ le p.2 8)
  le body.length 4 ++ withCrc body

/-- Read a die record; none where its CRC fails or nothing is written. -/
def dieRecParse (l : Bytes) : Option DieRec :=
  let n := leAt l 0 4
  let b := slice l 4 (n + 4)
  if n < 35 ∨ b.length < n + 4 ∨ crcOk (n + 4) b = false then none
  else
    let nb := leAt b 27 2
    let nk := leAt b 29 2
    let np := leAt b 31 4
    let o := 35 + 2 * nb
    let q := o + 10 * nk
    some { array := leAt b 0 16, phase := leAt b 16 2, failed := leAt b 18 8, rrTab := leAt b 26 1
           bad := (List.range nb).map (fun i => leAt b (35 + 2 * i) 2)
           blocks := (List.range nk).map (fun i => (leAt b (o + 10 * i) 2, leAt b (o + 10 * i + 2) 2, leAt b (o + 10 * i + 4) 2, leAt b (o + 10 * i + 6) 3, leAt b (o + 10 * i + 9) 1))
           patrol := (List.range np).map (fun i => (leAt b (q + 12 * i) 4, leAt b (q + 12 * i + 4) 8)) }

/-- The die record (R389): bad blocks, counts and RR of every block, patrol positions and the module's failed dies. -/
def State.dieRecord (s : State) (m die : Nat) : Bytes :=
  let x := agetD s.fmm.mods m { dies := 0 }
  dieRecBytes { array := s.arrayId, phase := x.phase, failed := sumL (x.failed.map (fun d => 2 ^ d)), rrTab := x.rrTab
                bad := ((s.dieBt m die).filter (fun e => e.2.state == 5)).map (fun e => e.1 % 8192)
                blocks := (s.dieBt m die).map (fun e => (e.1 % 8192, e.2.qlcE, e.2.slcE, e.2.reads, e.2.rr))
                patrol := x.patrol.filter (fun p => ptDie (agetD s.fmm.pt (m * 2 ^ 29 + p.1) 0) == die) }

/-- Write both copies of the record of a die (R389). -/
def State.writeDieRecord (s : State) (m die : Nat) : State :=
  let r := s.dieRecord m die
  let s := (s.metaProgram m die false r).metaProgram m die true r
  { s with fmm := { s.fmm with mods := aupd s.fmm.mods m (fun x => { x with recAt := aset x.recAt die s.now }) } }

/-- DIE_RECORD_WRITE (R389): the owner of a die writes its record. -/
def execDieRecordWrite (m : Fin 64) (die : Fin 64) (s : State) : Host.Outcome State Fault Refusal :=
  if (s.ownDies m.val).contains die.val && !s.absent m.val && s.mayProgram then .next (s.writeDieRecord m.val die.val) else .next s

/-- A die is FAILED (R413): its units have no valid copy, and the records of the module's other dies say so; above DIE_MAX the module is
degraded. -/
def State.dieFailed (s : State) (m die : Nat) : State :=
  match aget s.fmm.mods m with
  | none => s
  | some x =>
    if x.failed.contains die then s
    else
      let s := { s with fmm := { s.fmm with mods := aset s.fmm.mods m { x with failed := x.failed ++ [die] } } }
      let s := s.raise Pg.FMM 3
      let s := (s.ownDies m).foldl (fun s d => s.writeDieRecord m d) s
      if s.rf R.FMM.CFG.DIE_MAX < x.failed.length + 1 then s.raise Pg.FMM 4 else s

/-- A block is BAD (R411 to R413). -/
def State.badBlock (s : State) (m die block : Nat) : State :=
  let k := btKey m die block
  let s := s.setBlk k { s.blk k with state := 5, erasing := false }
  if s.rf R.FMM.CFG.BAD_MAX * s.modBlocks m < s.blocksIn m die [5] * 100 then s.dieFailed m die else s

end Sys2Proof.Machine
end

