-- ==== Sys2Proof/Machine/Snapshots.lean ====
section
/-! DEFINITION. Checkpoints, snapshots, pins and frees, map page repair, namespaces (R258, R270, R271, R277 to R290, R716). -/
namespace Sys2Proof.Machine

/-! ## Pins and frees (R270, R271) -/

/-- PIN_RECORD (R270): the owner issues the pin record of a record whose REF has reached the threshold. -/
def execPinRecord (cid : Fin 274877906944) (s : State) : Host.Outcome State Fault Refusal :=
  let c := s.ctRec cid.val
  let drop := fun (s : State) => { s with mpe := { s.mpe with pins := s.mpe.pins.filter (fun x => x != cid.val) } }
  if !s.mpe.pins.contains cid.val then .next s
  else if ctFree c || c.pinned then .next (drop s)
  else if !s.ownsRec c then .next s
  else
    match s.journal [rCtLoc cid.val c.loc c.loc] with
    | (true, s) => .next (drop s)
    | (false, s) => .next s

/-- Every lane of both heads has passed a PHYS at the partner, as its last LACK shows (R271, R479). -/
def State.partnerPast (s : State) (p : Nat) : Bool := (List.range 64).all (fun l => decide (mkStamp p 0 0 < agetD s.mpe.pApp l 0))

/-- CT_FREE_ISSUE (R265, R271). -/
def execCtFreeIssue (cid : Fin 274877906944) (s : State) : Host.Outcome State Fault Refusal :=
  let c := s.ctRec cid.val
  match s.mpe.frees.find? (fun w => w.cid == cid.val) with
  | none => .next s
  | some w =>
    let partner := s.mode == .solo || (match w.a with | some a => s.partnerPast (a + 1000000) | none => false)
    if !serving s.mode || ctFree c || c.ref ≠ 0 || c.pinned || !s.ownsRec c || !decide (phys w.z + 1000000 < s.estamp) || !partner then .next s
    else
      match s.journal [rCtFree cid.val c.gen] with
      | (true, s) => .next (s.incWrap R.MPE.CNT_FREE.COUNT)
      | (false, s) => .next s

/-! ## Snapshots (R277 to R280) -/

/-- Result of a snapshot command that is refused (R279, R504): 0 when it may run. -/
def State.snapCheck (s : State) (op ns epoch : Nat) : Nat :=
  match s.nsOf ns with
  | none => 0x06
  | some n =>
    if n.desc.view then 0x07
    else if !(s.mode == .paired || s.mode == .solo) || !s.ownsGroup n.desc.group then 0x01
    else if op = 1 then
      (if 256 ≤ n.slots.length ∨ 65536 ≤ sumL (s.maps.nss.map (fun e => e.2.slots.length)) then 0x02 else 0)
    else if !ahas n.slots epoch then 0x03
    else if s.maps.nss.any (fun e => e.2.desc.valid && e.2.desc.view && e.2.desc.source == ns && e.2.viewEpoch == epoch) || s.rplNames ns epoch then 0x04
    else 0

/-- End a snapshot command with its result (R277). -/
def State.snapDone (s : State) (result : Nat) : State :=
  { ((s.wf R.MPE.SNAP_STAT.RESULT result).wf R.MPE.SNAP_STAT.PENDING 0) with mpe := { s.mpe with snap := none } }

/-- Carry an accepted snapshot command out; it waits while its issuer stalls, or while a move bars its group (R119, R277). -/
def State.snapGo (s : State) (op ns epoch : Nat) : State :=
  let why := s.snapCheck op ns epoch
  if why ≠ 0 then s.snapDone why
  else
    match s.nsOf ns with
    | none => s
    | some n =>
      let rec_ := if op = 1 then rEpoch ns n.epoch else rMapPage ns (pageIx 0xF epoch) (agetD n.slots epoch 0) 0
      let wait := { (s.wf R.MPE.SNAP_STAT.PENDING 1) with mpe := { s.mpe with snap := some (op, ns, epoch) } }
      if s.moveHolds ns then wait
      else
        match s.journal [rec_] with
        | (true, s) => (s.snapDone 0).releaseAll
        | (false, s) => { (s.wf R.MPE.SNAP_STAT.PENDING 1) with mpe := { s.mpe with snap := some (op, ns, epoch) } }

/-- A write of MPE.SNAP_CMD (R277): ignored with BUSY while one runs; it waits while MPE takes no new work (R675). -/
def State.snapCmd (s : State) (op ns : Nat) : State :=
  if s.flag R.MPE.SNAP_STAT.PENDING then s.wf R.MPE.SNAP_STAT.RESULT 0x05
  else if op = 1 ∨ op = 2 then
    let e := s.rf R.MPE.SNAP_ARG.EPOCH
    if s.blockOn Pg.MPE then s.snapGo op ns e
    else { s.wf R.MPE.SNAP_STAT.PENDING 1 with mpe := { s.mpe with snap := some (heldOp op false, ns, e) } }
  else s

/-- A snapshot command that waits is tried again. -/
def State.snapRetry (s : State) : State :=
  match s.mpe.snap with
  | some (op, ns, e) => if 16 ≤ op ∧ s.blockOn Pg.MPE = false then s else s.snapGo (op % 16) ns e
  | none => s

/-- SNAP_CREATE (R277 to R279). -/
def execSnapCreate (ns : Fin 65536) (s : State) : Host.Outcome State Fault Refusal := .next (s.snapCmd 1 ns.val)

/-- SNAP_DELETE (R277, R279): the slot MPE.SNAP_ARG names. -/
def execSnapDelete (ns : Fin 65536) (s : State) : Host.Outcome State Fault Refusal := .next (s.snapCmd 2 ns.val)

/-! ## Map page repair (R258) -/

/-- The LPN of a namespace's map page (R252, R258). -/
def pageLpn (m : Maps) (ns pix : Nat) : Option Nat :=
  match treeOf m ns with
  | none => none
  | some (_, top, root) =>
    let level := pix / 2 ^ 44
    let e := entryAt m (pix % 2 ^ 44 * 512 ^ (level + 1)) level top root
    if level ≤ top ∧ entKind e = 2 then some (entLpn e) else none

/-- The entries of a page as one head holds them; the root entry alone where the page index lies above the top level. -/
def pageEnts (m : Maps) (ns pix : Nat) : AMap Nat :=
  match pageLpn m ns pix, treeOf m ns with
  | some l, _ => ((aget m.pages l).map (fun p => p.ents)).getD []
  | none, some (_, top, root) => if top < pix / 2 ^ 44 then [(0, root)] else []
  | none, none => []

/-- Replace the root entry a namespace reads through: its live root, or the slot of a view's source. -/
def State.replaceRoot (s : State) (ns e : Nat) : State :=
  match aget s.maps.nss ns with
  | none => s
  | some n =>
    let src := n.desc.source
    let nss := if n.desc.view then aupd s.maps.nss src (fun x => { x with slots := aset x.slots n.viewEpoch e }) else aset s.maps.nss ns { n with root := e }
    { s with maps := { s.maps with nss := nss } }

/-- Replace a page's entries, or the root entry. -/
def State.replacePage (s : State) (ns pix : Nat) (ents : AMap Nat) : State :=
  match pageLpn s.maps ns pix, treeOf s.maps ns with
  | some l, _ =>
    (match aget s.maps.pages l with
     | some p => s.putPage l { p with ents := ents }
     | none => s)
  | none, some (_, top, _) => if top < pix / 2 ^ 44 then s.replaceRoot ns (agetD ents 0 0) else s
  | none, none => s

/-- PAGE_REQ (R258): the partner answers from its replica. -/
def execPageReq (h : CHdr) (ns : Fin 65536) (pix : Fin 281474976710656) (s : State) : Host.Outcome State Fault Refusal :=
  match s.cRecv cAdmin h with
  | (false, s) => .next s
  | (true, s) => .next (s.sendC (.admin h.atag (.pageRsp ns.val pix.val (pageEnts s.maps ns.val pix.val))))

/-- PAGE_RSP (R258): a good answer replaces this head's failed copy. -/
def execPageRsp (h : CHdr) (ns : Fin 65536) (pix : Fin 281474976710656) (status : Fin 256) (ents : List (Nat × Nat)) (s : State) :
    Host.Outcome State Fault Refusal :=
  match s.cAnswer h with
  | (false, s) => .next s
  | (true, s) => .next (if status.val = 0 then s.replacePage ns.val pix.val (ents.foldl (fun (m : AMap Nat) e => sput (fun _ => 0) m (e.1 % 512) e.2) []) else s)

/-- A failed page is as its checkpoint copy and the journal give it: one taken since starts from the record that took it, a copied one from its
source, which is rebuilt too (R258). -/
def State.rebuiltEnts (s : State) (ns pix : Nat) : AMap Nat := pageEnts (s.replica s.mpe.top) ns pix

/-- MAP_PAGE_REBUILD_DONE (R258): in SOLO, a failed page is rebuilt from its checkpoint copy and the journal. -/
def execMapPageRebuildDone (ns : Fin 65536) (pix : Fin 281474976710656) (s : State) : Host.Outcome State Fault Refusal :=
  let key := ns.val + pix.val * 65536
  if s.mode = .solo ∧ s.mpe.badPages.contains key = true then
    .next ({ s with mpe := { s.mpe with badPages := s.mpe.badPages.filter (fun k => k != key) } }.replacePage ns.val pix.val (s.rebuiltEnts ns.val pix.val))
  else .next s

/-! ## Checkpoints (R285 to R290, R357) -/

/-- MPE may act on the maps (R299). -/
def State.ctBitsOk (s : State) : Bool := decide (20 ≤ s.rf R.MPE.CT_BITS.BITS ∧ s.rf R.MPE.CT_BITS.BITS ≤ 33)

/-- An unreleased journal tile has fewer than three copies on present members (R357). -/
def State.tileShort (s : State) : Bool := s.mpe.log.any (fun p => decide ((p.homes.filter (fun m => !s.absent m)).length < 3))

/-- Journal use (R289): the share of unreleased tiles. -/
def State.jrnUse (s : State) : Nat := min 100 (Config.journalUse ((s.mpe.log.map (fun p => p.seg)).eraseDups.length))

/-- Begin a checkpoint at the highest OSTAMP applied (R285): every chunk changed since the previous cut is to be written (R286). -/
def State.ckptStart (s : State) : State :=
  if s.mpe.ckRun.isSome || !s.ctBitsOk then s
  else
    let n := s.rf R.MPE.CKPT_STAT.NUMBER + 1
    let cs := if s.maps.pools.isEmpty then [] else (s.chunksFor s.mpe.hist.flatten).filter (fun c => !decide (2 ^ 40 ≤ c.2 ∧ c.2 < 2 ^ 41) || ahas s.maps.pages (c.2 - 2 ^ 40))
    let s := s.chunkQueue cs
    ({ (s.wf R.MPE.CKPT_STAT.RUNNING 1) with mpe := { s.mpe with ckRun := some { number := n, covered := s.mpe.top }, ckDir := false, ckAt := s.estamp } }).ckptPump

/-- CHECKPOINT_START (R285, R288, R289, R357): by the lead, every PERIOD seconds, above JRN_PCT, or when a journal tile lacks copies; while one
runs, chunks that wait go on being written. -/
def execCheckpointStart (s : State) : Host.Outcome State Fault Refusal :=
  let due := decide (s.mpe.ckAt + s.rf R.MPE.CKPT_CFG.PERIOD * 1000000000 ≤ s.estamp) || decide (s.rf R.MPE.CKPT_CFG.JRN_PCT < s.jrnUse) || s.tileShort
  if s.lead && serving s.mode && s.mpe.ckRun.isSome then .next s.ckptPump
  else if s.lead && serving s.mode && due && s.blockOn Pg.MPE then .next s.ckptStart else .next s

/-- Applied horizon of each journal lane at this head (R132): its own lanes apply as they issue, but for groups that are held (R287). -/
def State.coveredNow (s : State) : Nat :=
  let wait := fun (l h : Nat) (top : Nat) =>
    match ((s.mpe.delta ++ s.mpe.held.flatten).filter (fun r => r.lane == l && r.head == h)).map (fun r => r.ostamp) with
    | [] => top
    | o :: t => minL o (o :: t) - 1
  let own := (List.range 32).map (fun l => wait l s.head (match s.nextStamp l with
    | some _ => mkStamp s.estamp 0 0
    | none => max (s.lane l).horizon (agetD s.tbs.issuers l 0)))
  let part := (List.range 32).map (fun l => wait l (1 - s.head) (agetD s.mpe.pHor l 0))
  let all := if s.mode = .solo then own else own ++ part
  minL (all.headD 0) all

/-- A checkpoint with some directory is complete at a cut (R286, R289): it becomes the newest; chunk copies that newer ones supersede are
released, and so are this head's journal segments whose records all lie at or below the cut, but not while a join needs them (R496). -/
def State.ckptAdopt (s : State) (n c : Nat) (dir : AMap (Nat × Nat)) : State :=
  let k : Ckpt := { number := n, covered := c, image := s.replica c, dir := dir }
  let joining := s.cpl.role == 2 && decide (4 ≤ s.rf R.CPL.JOIN_STAT.PHASE ∧ s.rf R.CPL.JOIN_STAT.PHASE ≤ 7)
  let segs := (s.mpe.log.map (fun p => p.seg)).eraseDups
  let busy := (List.range 32).flatMap (fun l => (s.lane l).seg :: (s.lane l).pages.map (fun p => p.seg))
  let gone := if joining then [] else segs.filter (fun g =>
    !busy.contains g && (s.mpe.log.filter (fun p => p.seg == g)).all (fun p => p.recs.all (fun (r : JRec) => decide (r.ostamp ≤ c))))
  let s := { (s.wf R.MPE.CKPT_STAT.NUMBER (n % 2 ^ 31)) with mpe := { s.mpe with
    ckpt := some k, dir := dir, hist := s.mpe.hist.filter (fun g => decide (c < maxL (g.map (fun r => r.ostamp)))), log := s.mpe.log.filter (fun p => !gone.contains p.seg) } }
  (gone.foldl (fun (s : State) g => if (s.seg g).state = 2 then s.segTo g 7 else s) s).chunkRelease

/-- Apply the groups that a full shadow held back, in their order; one whose condition has come to fail counts as failed (R124, R287). -/
def State.unholdGroups (s : State) : State :=
  s.mpe.held.foldl (fun s g =>
    match s.applyGroup g with
    | some s => s
    | none => { s with mpe := { s.mpe with cntFail := s.mpe.cntFail + 1 } }) { s with mpe := { s.mpe with held := [] } }

/-- Every chunk of the running checkpoint, and its directory, are durable (R286, R288); without a pool nothing can be written. -/
def State.ckptWritten (s : State) : Bool :=
  s.maps.pools.isEmpty || (s.mpe.ckTodo.isEmpty && s.mpe.ckSegs.isEmpty && s.mpe.ckDir)

/-- CHECKPOINT_COMPLETE (R286, R288, R289): every chunk is durable and the least applied horizon has reached the cut; the CHECKPOINT record is
written. Chunks still to be written go on being written; ok is false where MPE only looks after them (log 111). -/
def execCheckpointComplete (ok : Bool) (s : State) : Host.Outcome State Fault Refusal :=
  match s.mpe.ckRun with
  | none => .next s
  | some k =>
    if !ok || !s.ckptWritten then .next s.ckptPump
    else if s.coveredNow < k.covered then .next s
    else
      match s.journal [rCheckpoint k.number k.covered] with
      | (false, s) => .next s
      | (true, s) =>
        let s := { (s.wf R.MPE.CKPT_STAT.RUNNING 0) with mpe := { s.mpe with ckRun := none } }
        .next (s.unholdGroups.ckptAdopt k.number k.covered s.mpe.dir)

/-! ## Namespaces (R259, R716) -/

/-- NAMESPACE_MANAGEMENT (R173, R259, R716): the lead issues the NS record with the descriptor firmware gives; a view's epoch goes
to the snapshot table. -/
def execNamespaceManagement (ns : Fin 65536) (desc : BitVec 128) (viewEpoch : Fin 4294967296) (s : State) : Host.Outcome State Fault Refusal :=
  let old := agetD s.maps.nss ns.val {}
  let new_ := nsDec desc.toNat
  if !s.lead then .next s
  else
    match s.journal [rNs ns.val old.desc new_] with
    | (false, s) => .next s
    | (true, s) =>
      let s := if new_.valid && new_.view then
          { s with maps := { s.maps with nss := aupd s.maps.nss ns.val (fun n => { n with viewEpoch := viewEpoch.val }) } }
        else s
      .next s.releaseAll

end Sys2Proof.Machine
end

