-- ==== Sys2Proof/Machine/Rebuild.lean ====
section
/-! DEFINITION. Layout commands, retirement, reshape, rebuild and lost grains (R327 to R332, R360 to R375). -/
namespace Sys2Proof.Machine

/-! ## Bases (R329, R330) -/

/-- Whether two amounts differ by at most 1/k of the second. -/
def within (a b k : Nat) : Bool := decide ((if a ≤ b then b - a else a - b) * k ≤ b)

/-- The balance a base must have (R330): units per module within ±10 %, shared rows per pair within ±25 %. -/
def balanced (b : Base) : Bool :=
  let mods := onesBelow b.mask 64
  let w := b.d + 2
  let rows := (List.range 4096).map (fun r => sumL (((rowPerm b r).take w).map (fun m => 2 ^ m)))
  mods.all (fun m => within ((rows.filter (fun x => bit x m)).length * b.n) (4096 * w) 10)
    && mods.all (fun m => mods.all (fun k => m == k || within ((rows.filter (fun x => bit x m && bit x k)).length * (b.n * (b.n - 1))) (4096 * w * (w - 1)) 4))

/-- Build a base with seeds of SEC's random source, in at most k tries (R330). -/
def State.buildBase (s : State) (gen d mask : Nat) : Nat → Option Base × State
  | 0 => (none, s)
  | k + 1 =>
    let b : Base := { basegen := gen, d := d, n := popcount mask 64, seed := Config.random64 s.freeCtr % 2 ^ 64, mask := mask }
    if balanced b then (some b, s.draw) else s.draw.buildBase gen d mask k

/-! ## Descriptors (R331, R372) -/

/-- Chunk of a layout descriptor. -/
def layChunk (pool laygen : Nat) : Nat := 2 ^ 42 + laygen * 4 + pool

/-- The chunk of a descriptor is durable (R331). Before the first pool exists there is nowhere to write it: it follows once the pool is there
(DEDUCED, log 87). -/
def State.layDurable (s : State) (j : LayJob) : Bool :=
  s.maps.pools.isEmpty || (ahas s.mpe.dir (layChunk j.pool j.desc.laygen) && !s.chunkOwed (layChunk j.pool j.desc.laygen))

/-- Dies of the members of a pool. -/
def State.poolDies (s : State) (p : Pool) : Nat :=
  sumL ((onesBelow p.members 64).map (fun m => ((aget s.fmm.mods m).map (fun x => x.dies)).getD 0))

/-- VAULT_BLK of the lowest-numbered pool (R391). -/
def State.setVaultBlk (s : State) : State :=
  match s.firstPool with
  | some (_, p) =>
    let d := match p.baseOld with | some b => min b.d p.baseNew.d | none => p.baseNew.d
    if d * s.poolDies p = 0 then s else s.wf R.FMM.SHELF_CFG.VAULT_BLK (cdiv (26624 * (d + 2)) (d * 4 * s.poolDies p))
  | none => s

/-- FDOM with the domains of some modules taken from the SGB.FDOM registers. -/
def State.fdomWith (s : State) (old mask : Nat) : Nat :=
  (onesBelow mask 64).foldl (fun f m => setFld f (4 * m) 4 (fld (s.rf (R.SGB.FDOM.DOM (m / 8))) (4 * (m % 8)) 4)) old

/-- The midpoint of the largest gap between patrol phases, in 1/65,536 of the period (R410). -/
def midGap (ps : List Nat) : Nat :=
  match sortKey id ps with
  | [] => 0
  | p :: t =>
    let gaps := ((p :: t).zip (t ++ [p + 65536])).map (fun x => (x.1, x.2 - x.1))
    let g := maxL (gaps.map Prod.snd)
    match gaps.find? (fun x => x.2 == g) with
    | some (a, w) => (a + w / 2) % 65536
    | none => 0

/-- Modules newly admitted to a pool take their patrol phases and start with zero read-disturb counters (R84, R410). -/
def State.newMembers (s : State) (members new_ : Nat) : State :=
  (onesBelow new_ 64).foldl (fun s m =>
    let others := (onesBelow members 64).filter (fun k => !bit new_ k || decide (k < m))
    let ph := midGap (others.filterMap (fun k => (aget s.fmm.mods k).map (fun x => x.phase)))
    { s with fmm := { s.fmm with mods := aupd s.fmm.mods m (fun x => { x with phase := ph })
                                 bt := amap s.fmm.bt (fun k b => if k / 524288 = m then { b with reads := 0 } else b) } }) s

/-! ## Layout commands (R360, R370, R373) -/

/-- A position is READY on this head (Table 11-14). -/
def State.ready (s : State) (m : Nat) : Bool :=
  decide (m < positionsOf s.fuses.variant) && (match aget s.fmm.mods m with | some x => x.ready && !x.unusable | none => false)

/-- The lead for layout commands (R173): without a pool, head 0 for CREATE_POOL in ISOLATED and JOINING. -/
def State.layLead (s : State) (op : Nat) : Bool :=
  s.lead || (op == 1 && s.maps.pools.isEmpty && s.head == 0 && (s.mode == .isolated || s.mode == .joining))

/-- A homes function lacks a module for some row (R329, R368): fewer than D + 2 of a base's modules are not retired. -/
def reducedBase (p : Pool) (b : Base) : Bool := decide (b.n - (p.retired.filter (fun m => bit b.mask m)).length < b.d + 2)
def reduced (p : Pool) : Bool := reducedBase p p.baseNew || (match p.baseOld with | some b => reducedBase p b | none => false)

/-- The checks a layout command passes before it runs (R327, R370, R373), in the order BAD_OP, NOT_LEAD, EXISTS or NO_POOL,
BUSY, NOT_READY, NOT_MEMBER, TOO_FEW, BAD_D, LIST_FULL; 0 when all pass. peer: positions READY on the partner. -/
def State.layCheck (s : State) (op pool module peer : Nat) : Nat :=
  let mask := s.rf R.SGB.LAY_MASK.MASK
  let d := s.rf R.SGB.LAY_ARG.D
  let n := popcount mask 64
  let p := aget s.maps.pools pool
  if op < 1 ∨ 3 < op ∨ (op = 1 ∧ (s.rf R.SGB.LAY_ARG.BALLAST < 3 ∨ 6 < s.rf R.SGB.LAY_ARG.BALLAST)) then 0x01
  else if !s.layLead op then 0x03
  else if op = 1 ∧ p.isSome then 0x09
  else if op ≠ 1 ∧ p.isNone then 0x0A
  else if op = 3 then
    (match p with
     | some p => if !bit p.members module then 0x08 else if 63 ≤ p.retired.length then 0x07 else 0
     | none => 0)
  else if op = 2 ∧ (match p with | some p => p.baseOld.isSome | none => false) = true then 0x02
  else if (onesBelow mask 64).any (fun m => !s.ready m || (s.mode == .paired && !bit peer m)) then 0x0B
  else if s.maps.pools.any (fun e => e.1 != pool && decide (e.2.members &&& mask ≠ 0)) then 0x08
  else if n < 12 then 0x06
  else if d < 8 ∨ 16 < d ∨ n < d + 4 then 0x04
  else 0

/-- The job that retires a module of a pool (R360): it goes to RETIRED and leaves MEMBERS. -/
def retireJob (op pool module : Nat) (p : Pool) : LayJob :=
  { op := op, pool := pool, module := module, old := p.laygen
    desc := { p with laygen := (p.laygen + 1) % 65536, retired := p.retired ++ [module], members := setBit p.members module false } }

/-- Lanes with a home on a retired module move at the next page, and rebuild starts (R356, R360, R368). -/
def State.retireEnd (s : State) (module : Nat) (was now_ : Pool) : State :=
  let s := { s with mpe := { s.mpe with lanes := amap s.mpe.lanes (fun _ x => if x.homes.contains module then { x with rehome := true } else x) } }
  let s := s.raise Pg.RBE 0
  if reduced now_ && !reduced was then s.raise Pg.RBE 2 else s

/-- What follows a LAYOUT record (R360, R372, R391, R410), by the kind of job. -/
def State.layAfter (s : State) (j : LayJob) (was : Option Pool) : State :=
  let members := (was.map (fun (p : Pool) => p.members)).getD 0
  if j.op = 1 then
    let s := (s.setVaultBlk).newMembers j.desc.members j.desc.members
    { s with bsv := { s.bsv with mapsLoaded := true } }
  else if j.op = 2 then (s.setVaultBlk).newMembers j.desc.members (j.desc.members &&& (2 ^ 64 - 1 - members))
  else if j.op = 3 ∨ j.op = 4 then (match was with | some p => s.retireEnd j.module p j.desc | none => s)
  else if j.op = 5 then s.setVaultBlk
  else s

/-- Issue the LAYOUT record of a job whose chunk is durable (R331), with what follows it; none while the stamp stalls. -/
def State.layEnd (s : State) (j : LayJob) : Option State :=
  let was := aget s.maps.pools j.pool
  match ({ s with maps := { s.maps with layNext := aset s.maps.layNext (j.desc.laygen * 4 + j.pool) j.desc } }).journal [rLayout j.pool j.old j.desc.laygen] with
  | (true, s) =>
    let s := { s.layAfter j was with sgb := { (s.layAfter j was).sgb with job := none } }
    some (if was.isNone then s.chunkQueue [(j.pool, layChunk j.pool j.desc.laygen)] else s)
  | (false, _) => none

/-- The result of a layout command (Table 9-10): other than OK it changes nothing and sets SGB's error. -/
def State.layResult (s : State) (code : Nat) : State :=
  let s := (s.wf R.SGB.LAY_STAT.RESULT code).wf R.SGB.LAY_STAT.PENDING 0
  let s := { s with sgb := { s.sgb with cmd := none } }
  if code = 0 then s else s.raise Pg.SGB 3

/-- A job goes on (R331): its LAYOUT record is issued once its chunk is durable and the stamp is to be had; a layout command then ends with OK. -/
def State.layStep (s : State) : State :=
  match s.sgb.job with
  | none => s
  | some j =>
    if !s.layDurable j then s
    else
      match s.layEnd j with
      | some s => if j.op ≤ 3 then s.layResult 0 else s
      | none => s

/-- Begin a job (R331): its descriptor is written as a chunk into the lowest-numbered pool. -/
def State.layStart (s : State) (j : LayJob) : State :=
  let key := layChunk j.pool j.desc.laygen
  let s := { s with maps := { s.maps with layNext := aset s.maps.layNext (j.desc.laygen * 4 + j.pool) j.desc },
                    mpe := { s.mpe with dir := adel s.mpe.dir key }, sgb := { s.sgb with job := some j } }
  let s := match s.maps.pools.head? with
    | some (pool, _) => (s.chunkQueue [(pool, key)]).ckptPump
    | none => s
  s.layStep

/-- The descriptor that a layout command whose checks have passed leads to, or its result code (R330, R370, R373). -/
def State.layPrep (s : State) (op pool module : Nat) : (Nat ⊕ LayJob) × State :=
  let mask := s.rf R.SGB.LAY_MASK.MASK
  let d := s.rf R.SGB.LAY_ARG.D
  match op, aget s.maps.pools pool with
  | 1, _ =>
    match s.buildBase 1 d mask 64 with
    | (none, s) => (.inl 0x05, s)
    | (some b, s) =>
      (.inr { op := 1, pool := pool, old := 0
              desc := { laygen := 1, ballast := s.rf R.SGB.LAY_ARG.BALLAST, members := mask, fdom := s.fdomWith 0 mask, baseNew := b } }, s)
  | 2, some p =>
    let g := (p.laygen + 1) % 65536
    match s.buildBase g d mask 64 with
    | (none, s) => (.inl 0x05, s)
    | (some b, s) =>
      (.inr { op := 2, pool := pool, old := p.laygen
              desc := { p with laygen := g, members := p.members ||| mask, fdom := s.fdomWith p.fdom mask, baseNew := b, baseOld := some p.baseNew } }, s)
  | 3, some p => (.inr (retireJob 3 pool module p), s)
  | _, _ => (.inl 0x0A, s)

/-- A layout command is pending (R173, R331). -/
def State.layPend (s : State) (op pool module : Nat) : State :=
  { s.wf R.SGB.LAY_STAT.PENDING 1 with sgb := { s.sgb with cmd := some (op, pool, module) } }

/-- Run a layout command: it is pending until its LAYOUT record is issued, and behind a job of the lead's own; it waits
while SGB takes no new work (R675). -/
def State.layGo (s : State) (op pool module : Nat) : State :=
  if s.sgb.job.isSome || !s.blockOn Pg.SGB then s.layPend (heldOp op (s.blockOn Pg.SGB)) pool module
  else
    match s.layPrep op pool module with
    | (.inl code, s) => s.layResult code
    | (.inr j, s) => (s.layPend op pool module).layStart j

/-- A write of SGB.LAY_CMD (R373). -/
def State.layCmd (s : State) (op pool module peer : Nat) : State :=
  if s.sgb.cmd.isSome then s.wf R.SGB.LAY_STAT.RESULT 0x02
  else
    let code := s.layCheck op pool module peer
    if code = 0 then s.layGo op pool module else s.layResult code

/-- What waits of layout jobs and commands goes on. -/
def State.layRetry (s : State) : State :=
  let s := s.layStep
  match s.sgb.job, s.sgb.cmd with
  | none, some (op, pool, module) => if 16 ≤ op ∧ s.blockOn Pg.SGB = false then s else s.layGo (op % 16) pool module
  | _, _ => s

/-- CREATE_POOL (R327, R330, R373): peer gives the positions READY on the partner. -/
def execCreatePool (pool : Fin 4) (peer : BitVec 64) (s : State) : Host.Outcome State Fault Refusal := .next (s.layCmd 1 pool.val 0 peer.toNat)

/-- LAYOUT_RESHAPE (R370, R373). -/
def execLayoutReshape (pool : Fin 4) (peer : BitVec 64) (s : State) : Host.Outcome State Fault Refusal := .next (s.layCmd 2 pool.val 0 peer.toNat)

/-- RETIRE (R360, R373). -/
def execRetire (pool : Fin 4) (module : Fin 64) (s : State) : Host.Outcome State Fault Refusal := .next (s.layCmd 3 pool.val module.val 0)

/-- A member has been absent to this head for GRACE seconds (R360). -/
def State.graceOver (s : State) (m : Nat) : Bool :=
  let g := s.rf R.RBE.CFG.GRACE * 1000000000
  match aget s.fmm.mods m with
  | some x => match x.goneAt with | some t => decide (t + g ≤ s.now) | none => s.absent m && decide (g ≤ s.now)
  | none => decide (g ≤ s.now)

/-- RETIRE_GRACE_EXPIRY (R360): the lead retires a member absent to both heads for GRACE seconds (peerAbsent: to the partner
too), or one that reports FATAL. -/
def execRetireGraceExpiry (module : Fin 64) (peerAbsent : Bool) (s : State) : Host.Outcome State Fault Refusal :=
  let m := module.val
  let fatal := match aget s.fmm.mods m with | some x => x.fatal | none => false
  match s.maps.pools.find? (fun e => bit e.2.members m) with
  | none => .next s
  | some (pool, p) =>
    if s.lead && (fatal || (s.graceOver m && (s.mode == .solo || peerAbsent))) then
      if 63 ≤ p.retired.length then .next (s.raise Pg.SGB 3)
      else .next (if s.sgb.job.isSome then s else s.layStart (retireJob 4 pool m p))
    else .next s

/-- RESHAPE_COMPLETE (R372): with the last BASE_OLD segment FREE, the lead writes a descriptor without BASE_OLD. -/
def execReshapeComplete (pool : Fin 4) (s : State) : Host.Outcome State Fault Refusal :=
  match aget s.maps.pools pool.val with
  | none => .next s
  | some p =>
    match p.baseOld with
    | none => .next s
    | some b =>
      let used := s.maps.segs.any (fun e => e.2.state != 0 && e.2.pool == pool.val && e.2.basegen == b.basegen && e.2.kind != 1 && e.2.kind != 2)
      if !s.lead || used then .next s
      else
        let keep := fun (m : Nat) => bit p.baseNew.mask m
        let below := ((p.retired.take p.rebuilt).filter (fun m => !keep m)).length
        let p' := { p with laygen := (p.laygen + 1) % 65536, baseOld := none, retired := p.retired.filter keep, rebuilt := p.rebuilt - below
                           members := p.members &&& p.baseNew.mask }
        .next (if s.sgb.job.isSome then s else s.layStart { op := 5, pool := pool.val, old := p.laygen, desc := p' })

/-! ## Lost grains (R365, R366, R375) -/

/-- A lost-grain log entry (Table 9-9). -/
def State.lostEntry (s : State) (typ pool : Nat) (snap : Bool) (ns ref where2 : Nat) : Bytes :=
  withCrc (le s.estamp 8 ++ le typ 1 ++ le (pool + (if snap then 128 else 0)) 1 ++ le ns 2 ++ le ref 8 ++ le where2 8)

/-- Write an entry to the lost-grain log (R375): none is written over one not consumed. -/
def State.lostLog (s : State) (e : Bytes) : State :=
  let n := s.rf R.RBE.LOST_SIZE.ENTRIES
  if s.rbe.full || decide (n = 0) then s
  else if n ≤ s.rbe.pend then { s with rbe := { s.rbe with full := true } }.raise Pg.RBE 3
  else
    let w := s.rf R.RBE.LOST_WR.INDEX
    let s := (s.store (dramBase + s.rf R.RBE.LOST_BASE.ADDR + w * 32) e).wf R.RBE.LOST_WR.INDEX (if w + 1 < n then w + 1 else 0)
    { s with rbe := { s.rbe with pend := s.rbe.pend + 1 } }

/-- Firmware's read position of the lost-grain log moves. -/
def State.lostRd (s : State) (v : Nat) : State :=
  let n := s.rf R.RBE.LOST_SIZE.ENTRIES
  let s := s.wf R.RBE.LOST_RD.INDEX v
  let p := (s.rf R.RBE.LOST_WR.INDEX + n - s.rf R.RBE.LOST_RD.INDEX) % (max n 1)
  { s with rbe := { s.rbe with pend := p, full := false } }

/-- A live grain is lost (R365). -/
def State.loseGrain (s : State) (cid : Nat) : State :=
  let c := s.ctRec cid
  let pool := (s.seg (locSeg c.loc)).pool
  match s.journal [rCtLoc cid c.loc lostLoc] with
  | (false, s) => s
  | (true, s) =>
    let s := s.lostLog (s.lostEntry 1 pool false 0 (cid + c.gen * 2 ^ 38) (locSeg c.loc + locOff c.loc * 2 ^ 25))
    let s := { s with rbe := { s.rbe with walks := s.rbe.walks ++ [(cid, pool)] } }
    (s.inc R.RBE.CNT_LOST.COUNT).raise Pg.RBE 1

/-- Leaf entries under an entry that points to the page of a level: (LPN, grain index, entry), in ascending order. -/
def leavesOf (m : Maps) : Nat → Nat → Nat → List (Nat × Nat × Nat)
  | level, index, e =>
    if entKind e ≠ 2 then []
    else
      match aget m.pages (entLpn e) with
      | none => []
      | some p =>
        match level with
        | 0 => p.ents.map (fun x => (entLpn e, index * 512 + x.1, x.2))
        | l + 1 => p.ents.flatMap (fun x => leavesOf m l (index * 512 + x.1) x.2)

/-- LBA entries of a lost CID in one namespace (R366): the live tree's leaf pages, then those only a snapshot reaches. -/
def State.walkNs (s : State) (ns : Nat) (n : Ns) (pool cid : Nat) : State :=
  let top := rootLevel n.desc.size
  let live := leavesOf s.maps top 0 n.root
  let seen := live.map (fun x => x.1)
  let snaps := (n.slots.foldl (fun (a : List (Nat × Nat × Nat)) e =>
    a ++ (leavesOf s.maps top 0 e.2).filter (fun x => !seen.contains x.1 && !a.any (fun y => y == x))) [])
  let hit := fun (l : List (Nat × Nat × Nat)) => l.filter (fun x => entKind x.2.2 == 2 && entCid x.2.2 == cid)
  let put := fun (snap : Bool) (s : State) (x : Nat × Nat × Nat) =>
    s.lostLog (s.lostEntry 2 pool snap ns (cid + (s.ctRec cid).gen * 2 ^ 38) (lbaOfGrain n.desc.lbaf x.2.1))
  (hit snaps).foldl (put true) ((hit live).foldl (put false) s)

/-- LOST_GRAIN_WALK (R366): MPE walks the leaf pages of the pool's namespaces for each lost CID that waits. -/
def execLostGrainWalk (s : State) : Host.Outcome State Fault Refusal :=
  let ws := s.rbe.walks
  let s := { s with rbe := { s.rbe with walks := [] } }
  .next (ws.foldl (fun s w =>
    (s.maps.nss.filter (fun e => e.2.desc.valid && !e.2.desc.view && e.2.desc.pool == w.2)).foldl (fun s e => s.walkNs e.1 e.2 w.2 w.1) s) s)

/-! ## Rebuild (R361 to R364, R367) -/

/-- Segments of a striped kind. -/
def striped (g : Seg) : Bool := g.kind != 1 && g.kind != 2

/-- A unit has a valid copy at its home (R324, R413). -/
def State.unitValid (s : State) (n : Nat) (g : Seg) (unit : Nat) : Bool :=
  match (s.segHomes g)[unit]? with
  | some (some m) =>
    (List.range (if g.isFold then 4 else 1)).all (fun t => (List.range 4).all (fun pl =>
      let e := agetD s.fmm.pt (ptKey m n t pl) 0
      ptValid e && (match aget s.fmm.mods m with | some x => !x.failed.contains (ptDie e) | none => true)))
  | _ => false

/-- Units of a segment that need rebuilding (R361). -/
def State.missing (s : State) (n : Nat) : List Nat :=
  let g := s.seg n
  if striped g && decide (2 ≤ g.state ∧ g.state ≤ 6) then (List.range (g.d + 2)).filter (fun k => !s.unitValid n g k) else []

/-- A rebuild or move of a unit of a segment on a module is under way. -/
def State.moving (s : State) (m n : Nat) : Bool :=
  s.jlk.reqs.any (fun r => match r.2.why with | .move k _ => k == ptKey m n 0 0 | _ => false)

/-- Class of a segment in the order of R361. -/
def State.rebuildClass (s : State) (n : Nat) : Nat :=
  if (s.seg n).state = 6 then 3 else if 2 ≤ (s.missing n).length then 1 else 2

/-- Units of this head that can be rebuilt now, in the order of R361: a present home and no program under way. -/
def State.rebuildList (s : State) : List (Nat × Nat) :=
  let segs := (s.maps.segs.map Prod.fst).filter (fun n => s.ownsSeg n)
  (sortKey (fun n => s.rebuildClass n) segs).flatMap (fun n =>
    ((s.missing n).filter (fun k => match (s.segHomes (s.seg n))[k]? with | some (some m) => !s.absent m && !s.moving m n | _ => false)).map (fun k => (n, k)))

/-- Units still to rebuild on this head, shown as RBE.REMAIN. -/
def State.rebuildLeft (s : State) : Nat := sumL (((s.maps.segs.map Prod.fst).filter (fun n => s.ownsSeg n)).map (fun n => (s.missing n).length))

/-- Unit k of a stripe from the units at hand; a parity unit with one data unit missing comes from the other one. -/
def rebuildUnit (d k : Nat) (have_ : AMap Bytes) : Option Bytes :=
  if k < d then recoverUnit d k have_
  else
    match (List.range d).filter (fun i => !ahas have_ i) with
    | [j] => (recoverUnit d j have_).bind (fun b => recoverUnit d k (aset have_ j b))
    | _ => recoverUnit d k have_

/-- One stripe of a unit's rebuild: what it read, what became of it, and which data codewords are lost. -/
structure Stripe where
  tile : Nat
  cw   : Nat
  unread : Nat
  useQ : Bool
  data : Option Bytes
  lost : List Nat

/-- Rebuild one stripe (R362, R364, R365) from the decoded codewords got, by unit × 65,536 + tile × 16 + codeword. -/
def State.stripeOf (s : State) (n unit : Nat) (got : AMap Bytes) (t c : Nat) : Stripe :=
  let g := s.seg n
  let there := (List.range (g.d + 2)).filter (fun k => k != unit && (s.unitAt n k t (c / 4)).isSome)
  let have_ := there.filterMap (fun k => (aget got (cwKey k t c)).map (fun b => (k, b)))
  let miss := (List.range (g.d + 2)).filter (fun k => !ahas have_ k)
  { tile := t, cw := c, unread := there.length - have_.length, useQ := decide (2 ≤ miss.length), data := rebuildUnit g.d unit have_
    lost := if 3 ≤ miss.length then miss.filter (fun k => decide (k < g.d)) else [] }

/-- Live grains of a segment with a byte in one of some data codewords (R365). -/
def State.grainsIn (s : State) (n : Nat) (cws : List (Nat × Nat × Nat)) : List Nat :=
  (s.maps.ct.filter (fun e => !ctFree e.2 && locSeg e.2.loc == n && (cwsOf (s.seg n).isFold (locOff e.2.loc) e.2.clen).any (fun x => cws.contains x))).map Prod.fst

/-- UNIT_REBUILD (R361 to R365): the next unit in RBE's order is computed stripe by stripe from the decoded codewords got and
programmed at its home, Ballast first; grains of stripes with three missing units are lost. -/
def execUnitRebuild (seg : Fin 33554432) (unit : Fin 18) (got : List (Nat × Bytes)) (s : State) : Host.Outcome State Fault Refusal :=
  let n := seg.val
  let g := s.seg n
  match s.rebuildList.head?, (s.segHomes g)[unit.val]? with
  | some (n', k'), some (some m) =>
    if n' ≠ n ∨ k' ≠ unit.val ∨ s.mayProgram = false ∨ s.blockOn Pg.RBE = false then .next s
    else
      let tiles := if g.isFold then 4 else 1
      let st := (List.range tiles).flatMap (fun t => (List.range 16).map (fun c => s.stripeOf n unit.val got t c))
      let s := (s.incBy R.RBE.CNT_UNREAD.COUNT (sumL (st.map (fun x => x.unread)))).incBy R.RBE.CNT_Q.COUNT (st.filter (fun x => x.useQ)).length
      let lost := st.flatMap (fun x => x.lost.map (fun k => (k, x.tile, x.cw)))
      let s := (s.grainsIn n lost).foldl (fun s c => s.loseGrain c) s
      let s := if lost != [] && (g.state == 2 || g.state == 3 || g.state == 5) then s.segTo n 6 else s
      let cw := fun (t c : Nat) => ((st.find? (fun x => x.tile == t && x.cw == c)).bind (fun x => x.data)).getD
        ((List.range 4096).map (fun i => Config.lostByte n unit.val ((t * 16 + c) * 4096 + i)))
      let data := (List.range tiles).map (fun t => (List.range 16).flatMap (fun c => cw t c))
      .next (match s.progUnit m n unit.val data true (.move (ptKey m n 0 0) 1) with | some (_, s) => s | none => s)
  | _, _ => .next s

/-- Units of a row whose home one more retirement changes (R363). -/
def affected (p : Pool) (b : Base) (row i : Nat) : List Nat :=
  let before := homesOf { p with retired := p.retired.take i } b row
  let after := homesOf { p with retired := p.retired.take (i + 1) } b row
  (List.range (b.d + 2)).filter (fun k => nthD before k none != nthD after k none)

/-- REBUILT_ADVANCE (R363): when no segment that the next retirement entry affects has a missing unit of it, the lead
advances REBUILT. -/
def execRebuiltAdvance (pool : Fin 4) (s : State) : Host.Outcome State Fault Refusal :=
  match aget s.maps.pools pool.val with
  | none => .next s
  | some p =>
    let i := p.rebuilt
    let left := s.maps.segs.any (fun e => e.2.pool == pool.val &&
      (match baseOf p e.2.basegen with
       | some b => (affected p b e.2.row i).any (fun k => (s.missing e.1).contains k)
       | none => false))
    if s.lead && decide (i < p.retired.length) && !left then
      .next (if s.sgb.job.isSome then s
        else s.layStart { op := 6, pool := pool.val, old := p.laygen, desc := { p with laygen := (p.laygen + 1) % 65536, rebuilt := i + 1 } })
    else .next s

/-- SGB.POOL_STAT of a pool (Table 9-10, R368). -/
def State.poolStat (s : State) (pool : Nat) : Nat :=
  match aget s.maps.pools pool with
  | none => 0
  | some p =>
    let miss := (s.maps.segs.filter (fun e => e.2.pool == pool)).map (fun e => (s.missing e.1).length)
    let st := if reduced p then 3 else if miss.any (fun n => decide (2 ≤ n)) then 2 else if miss.any (fun n => decide (0 < n)) then 1 else 0
    st + (if p.baseOld.isSome then 4 else 0) + 8 + p.retired.length * 16 + p.rebuilt * 1024 + p.laygen * 65536

/-! ## The end of a segment's programs (R344, R349 to R351) -/

/-- SEGMENT_DURABLE (R286, R331, R344, R349 to R351, R386): every present unit is durable and the partner has acknowledged the page
table entries; the segment leaves OPEN as SEALED, DEGRADED or RETIRED, and the grains of a segment that lost units are
placed again from the write cache, the chunks of a checkpoint segment that lost units are written again. A descriptor whose chunk is now durable
is made current (R331). -/
def execSegmentDurable (seg : Fin 33554432) (s : State) : Host.Outcome State Fault Refusal :=
  match aget s.sgb.opens seg.val with
  | none => .next s
  | some o =>
    let g := s.seg seg.val
    let all := (List.range (g.d + 2)).all (fun k => o.durable.contains k || o.absent.contains k)
    let acked := !s.mirrors || decide (o.ptSeq ≤ s.fmm.ptAck)
    if !(o.issued && !o.fold && all && acked) then .next s
    else
      let n := o.absent.length
      let st := if n = 0 then 2 else if n ≤ 2 then 5 else 7
      match s.journal [rSegState seg.val g.gen g.kind 1 st, rDirty seg.val true false] with
      | (false, s) => .next s
      | (true, s) =>
        let s := ({ s with sgb := { s.sgb with opens := adel s.sgb.opens seg.val } }).chunksDone seg.val (n == 0)
        if g.kind = 4 ∧ n = 0 then .next (s.unholdGroups.layRetry.ckptPump).settle
        else
        if n = 0 then .next (s.wcRelease s.wcDone).settle
        else
          let s := if n ≤ 2 then (s.inc R.SGB.CNT_DEGRADED.COUNT).raise Pg.SGB 0 else (s.inc R.SGB.CNT_ABANDON.COUNT).raise Pg.SGB 1
          let s := (s.dropReloc seg.val).replace seg.val o.recs
          let s := if n ≤ 2 then (s.journal [rSegState seg.val g.gen g.kind 5 6]).2 else s
          .next (if g.kind = 4 then s.ckptPump else s)

end Sys2Proof.Machine
end

