-- ==== Sys2Proof/Machine/Vault.lean ====
section
/-! DEFINITION. The Gondola: what VAULT saves and how its vault segments are written (R75 to R80, R391). -/
namespace Sys2Proof.Machine

/-- Stamp a saved grain has: its own, or the original one of an adopted grain that is being written again (R77, R126). -/
def gonStamp (w : WcEnt) : Nat := if w.ostamp = 0 then w.orig else w.ostamp

/-- Own dirty grains: acknowledged and not yet durable on the Shelf (R77). -/
def State.gonGrains (s : State) : List WcEnt := s.io.wc.filter (fun w => gonStamp w != 0 && !s.wcDone w)

/-- The journal tail: records of this head's lanes that are not durable in two copies (R77). -/
def State.gonTail (s : State) : List JRec :=
  s.mpe.lanes.flatMap (fun e => (e.2.pages.filter (fun p => decide (p.done.length < 2))).flatMap (fun p => p.recs) ++ e.2.queue)

/-- First block of a grain in its namespace's format. -/
def gonLba (lbaf gi : Nat) : Nat := if lbaf = 1 then gi * 8 else gi

/-- A saved grain: slice handle, namespace, application tag, LBA and OSTAMP, and its data under the key of its domain (R77); none
where the slot holds no key. The layout is the model's (log 60). -/
def State.gonRecord (s : State) (w : WcEnt) : Option Bytes :=
  (s.xtsKey (match w.via with | some v => v.2 | none => s.keyslotOf w.slice)).map (fun k =>
    le w.slice 4 ++ le w.ns 2 ++ le w.tag 2 ++ le (gonLba (s.lbafOf w.ns) w.gi) 8 ++ le (gonStamp w) 12 ++ zeros 4
      ++ xtsEnc k (le (Config.gondolaUnit (gonStamp w) w.gi) 16) w.data)

/-- The seal: claim generation and the highest OSTAMP saved (R77). -/
def State.gonSeal (s : State) : Bytes :=
  withCrc (le 0x4C414553 4 ++ le s.jlk.gen 4 ++ le (maxL (s.gonGrains.map gonStamp ++ s.gonTail.map (fun r => r.ostamp))) 12)

/-- Cut bytes into the payloads of data tiles, 65,472 bytes each. -/
def tilePayloads (b : Bytes) : List Bytes := (List.range (cdiv b.length 65472)).map (fun i => padTo 65472 (slice b (i * 65472) 65472))

/-- Cut a list into groups of d. -/
def groupsBy (d : Nat) (l : List Bytes) : List (List Bytes) := (List.range (cdiv l.length (max d 1))).map (fun i => (l.drop (i * max d 1)).take (max d 1))

/-- A block of the vault reserve of a die with a free wordline: one in use, else an erased one while the reserve has room (R391). -/
def State.vaultBlk (s : State) (m d : Nat) : Option Nat :=
  match (s.dieBt m d).find? (fun e => e.2.state == 7 && decide (e.2.wl < 64) && !e.2.erasing) with
  | some e => some (e.1 % 8192)
  | none => if s.blocksIn m d [7] < s.rf R.FMM.SHELF_CFG.VAULT_BLK then s.freshBlk m d else none

/-- Take the next wordline of the vault reserve of a module. -/
def State.vaultWl (s : State) (m : Nat) : Option (Nat × Nat × Nat × State) :=
  match s.shortest m ((s.ownDies m).filter (fun d => (s.vaultBlk m d).isSome)) with
  | none => none
  | some d =>
    (s.vaultBlk m d).map (fun b =>
      let k := btKey m d b
      let x := s.blk k
      (d, b, x.wl, s.setBlk k { x with state := 7, wl := x.wl + 1 }))

/-- A row of a pool all of whose homes are present and have room in the vault reserve (R348, R80), the i-th first. -/
def State.vaultRow (s : State) (p : Pool) (i : Nat) : Option Nat :=
  ((List.range 4096).map (fun r => (r + i) % 4096)).find? (fun r => (homesOf p p.baseNew r).all (fun h => match h with
    | some m => !s.absent m && (s.vaultWl m).isSome
    | none => false))

def State.updVault (s : State) (seg : Nat) (f : VSeg → VSeg) : State :=
  { s with sgb := { s.sgb with vault := s.sgb.vault.map (fun v => if v.seg = seg then f v else v) } }

/-- A unit of a vault segment has been written, or is lost (R80, R349). -/
def State.vaultUnit (s : State) (seg unit : Nat) (ok : Bool) : State :=
  s.updVault seg (fun v => { v with wait := v.wait.filter (fun u => u != unit), absent := if ok || v.absent.contains unit then v.absent else v.absent ++ [unit] })

/-- The Gondola has no room or no row (R80). -/
def State.vaultStick (s : State) : State := { s with sgb := { s.sgb with vaultStuck := true } }

/-- Issue one unit of a vault segment that waits and is not under way (R77, R104); it waits on while FMM's issuer stalls. -/
def State.vaultOut (s : State) (seg : Nat) (home : Option Nat) (tile : Bytes) (u : Nat) : State :=
  if s.jlk.reqs.any (fun e => e.2.why == .vault seg u) then s
  else
    match home with
    | none => s.vaultUnit seg u false
    | some m =>
      if s.absent m then s.vaultUnit seg u false
      else
        match s.vaultWl m with
        | none => s.vaultStick
        | some (d, blk, wl, t) =>
          match t.issue (Unit.fmm (m / 16)) with
          | (none, _) => s.ovfBegin (Unit.fmm (m / 16))
          | (some o, t) => t.jProgram m d blk wl false (t.unitPages m seg u d blk wl false o [tile]) (.vault seg u)

/-- Issue what waits of one vault segment: data tiles with their headers, P and Q (R77, R326, R337). -/
def State.vaultIssue (s : State) (v : VSeg) : State :=
  let g := s.seg v.seg
  let ds := (List.range g.d).map (fun i => s.segHeader v.seg g i g.d g.row ++ nthD v.data i (zeros 65472))
  let tiles := ds ++ [parityP ds, parityQ ds]
  let homes := s.segHomes g
  v.wait.foldl (fun s u => s.vaultOut v.seg (nthD homes u none) (nthD tiles u []) u) s

/-- Write one vault segment of some data payloads: a segment number, a row, P and Q, and the programs of its units (R77, R80). -/
def State.vaultSeg (s : State) (data : List Bytes) : State :=
  match s.firstPool with
  | none => s.vaultStick
  | some (k, p) =>
    let b := p.baseNew
    match s.vaultRow p s.sgb.vault.length with
    | none => s.vaultStick
    | some row =>
      let n := s.freeSeg
      let g : Seg := { s.seg n with state := 1, kind := 3, pool := k, owner := s.head, d := b.d, basegen := b.basegen, row := row }
      let v : VSeg := { seg := n, data := data, wait := List.range (b.d + 2) }
      ({ s.setSeg n g with sgb := { s.sgb with vault := s.sgb.vault ++ [v] } }).vaultIssue v

/-- Go on with every vault segment whose units wait for a stamp. -/
def State.vaultPump (s : State) : State :=
  if s.mode = .vault ∧ s.bsv.vaultDone = false then s.sgb.vault.foldl (fun s v => if v.wait.isEmpty then s else s.vaultIssue v) s else s

/-- Start the Gondola (R77): the journal tail and the dirty grains, in vault segments of the lowest-numbered pool. -/
def State.vaultStart (s : State) : State :=
  let gs := s.gonGrains.map s.gonRecord
  let s := s.cphRan (gs.filter (fun r => r.isSome)).length
  if gs.any (fun g => g.isNone) then s.vaultStick
  else
    let tail := s.gonTail
    let body := le gs.length 4 ++ le tail.length 4 ++ zeros 8 ++ (tail.map jrBytes).flatten ++ (gs.filterMap id).flatten
    let d := ((s.firstPool).map (fun p => p.2.baseNew.d)).getD 16
    (groupsBy d (tilePayloads body)).foldl (fun s g => if s.sgb.vaultStuck then s else s.vaultSeg g) s

/-- Every vault segment is written: complete, or degraded by at most two units (R80). -/
def State.vaultWritten (s : State) : Bool := s.sgb.vault.all (fun v => v.wait.isEmpty && decide (v.absent.length ≤ 2))

/-- Write the seal in a vault segment of its own (R77). -/
def State.vaultSealed (s : State) : State :=
  let s := s.vaultSeg [padTo 65472 s.gonSeal]
  if s.sgb.vaultStuck then s else { s with sgb := { s.sgb with sealing := (s.sgb.vault.getLast?).map (fun v => v.seg) } }

/-- A vault segment that has lost three units is written again while room remains (R80, R351); the seal's segment stays the seal's. -/
def State.vaultAgain (s : State) (v : VSeg) : State :=
  if v.absent.length ≤ 2 then s
  else
    let s := { s with sgb := { s.sgb with vault := s.sgb.vault.filter (fun x => x.seg != v.seg) } }
    let was := s.sgb.sealing
    let s := s.vaultSeg v.data
    if was = some v.seg then { s with sgb := { s.sgb with sealing := (s.sgb.vault.getLast?).map (fun x => x.seg) } } else s

/-- What follows once units of vault segments have been answered: lost segments are written again; when the seal's segment is written within
the second R80 gives, the Gondola is sealed, and the DDR channels go to self-refresh (R77, R79, R704). -/
def State.vaultCheck (s : State) : State :=
  if s.mode ≠ .vault ∨ s.bsv.vaultDone = true then s
  else
    let s := s.sgb.vault.foldl State.vaultAgain s
    if s.sgb.sealing.isSome && s.vaultWritten && decide (s.now < s.bsv.vaultAt + 1000000000) then
      { s.ddcPower 2 with bsv := { s.bsv with vaultDone := true, silent := true }, sgb := { s.sgb with sealing := none } }
    else s

end Sys2Proof.Machine
end

