-- ==== Sys2Proof/Machine/JonanRsp.lean ====
section
/-! DEFINITION. What JLK does with an answer, by what its request was for; admission, claims and witnesses (R307, R411 to R413, R439 to R454). -/
namespace Sys2Proof.Machine

/-- Status codes (Table 11-11), and the one a request that timed out or lost its link has here. -/
def stOk : Nat := 0x00
def stOwner : Nat := 0x10
def stStale : Nat := 0x11
def stBadDie : Nat := 0x12
def stBadAddr : Nat := 0x13
def stBadOp : Nat := 0x14
def stDieFail : Nat := 0x15
def stProgFail : Nat := 0x16
def stEraseFail : Nat := 0x17
def stProgOrder : Nat := 0x18
def stTagBusy : Nat := 0x19
def stPower : Nat := 0x1A
def stTimeout : Nat := 0x100

/-- Block and page of a request's address word. -/
def addrBlock (a : Nat) : Nat := fld a 0 13
def addrPage (a : Nat) : Nat := fld a 13 8
def addrQlc (a : Nat) : Bool := bit a 31

/-! ## Array claim generation (R449) -/

/-- The highest CGEN read or written, shown in JLK.MAXGEN. -/
def State.noteGen (s : State) (g : Nat) : State :=
  let g := max g s.jlk.gen
  (List.range (jlksOf s.fuses.variant)).foldl (fun s i => s.wf (R.JLK.MAXGEN.GEN i) g) { s with jlk := { s.jlk with gen := g } }

/-- Send a CLAIM, or a release, of dies of a module (Table 11-9, R447). -/
def State.jClaim (s : State) (m gen mask : Nat) (rel : Bool) (kind : Nat) : State :=
  s.jReq m opClaim 0xFFF 0 (if rel then 2 else 0) [le gen 4 ++ le mask 8] (.claim kind)

/-! ## Modules (R360, R413, R452 to R454) -/

def State.updMod (s : State) (m : Nat) (f : Mod → Mod) : State := { s with fmm := { s.fmm with mods := aupd s.fmm.mods m f } }

/-- A module reports FATAL (R439, R360). -/
def State.modFatal (s : State) (m : Nat) : State :=
  match aget s.fmm.mods m with
  | some x => if x.fatal then s else (s.updMod m (fun x => { x with fatal := true })).raise (posPage m) 7
  | none => s.raise (posPage m) 7

/-- Module STATUS (Table 11-12): failed dies and FATAL. -/
def State.modStatus (s : State) (m : Nat) (p : Bytes) : State :=
  let failed := leAt p 8 8
  let s := (onesBelow failed 64).foldl (fun s d => s.dieFailed m d) s
  if bit (leAt p 16 1) 0 then s.modFatal m else s

/-- A step of admission fails (R452): the position stays present and unusable with the reason. -/
def State.admFail (s : State) (m reason : Nat) : State :=
  (s.updMod m (fun x => { x with unusable := true, ready := false, step := 0 })).updEnd m (fun e => { e with reason := reason })

/-- Admission begins once the link is ACTIVE (R452 step 2). -/
def State.admStart (s : State) (m : Nat) : State :=
  let old := aget s.fmm.mods m
  let x : Mod := match old with
    | some x => { x with step := 2, ready := false, unusable := false, waits := 1 }
    | none => { dies := 0, step := 2, waits := 1 }
  let s := { s with fmm := { s.fmm with mods := aset s.fmm.mods m x } }
  s.jReq m opParam 0xFFF 0 0 [le 0 4] (.adm 2 0)

/-- Dies of a module this head owns under R384. -/
def State.ownMask (s : State) (m : Nat) : Nat := sumL ((s.ownDies m).map (fun d => 2 ^ d))

/-- Step 7 (R452): READY; a module that is new to this array starts without history (R360, R453). -/
def State.admReady (s : State) (m : Nat) : State :=
  let known := match aget s.fmm.mods m with | some x => x.arrayId == some s.arrayId | none => false
  let retired := s.maps.pools.any (fun e => e.2.retired.contains m)
  let isNew := !known || retired
  let s := s.updMod m (fun x => { x with step := 7, ready := true, goneAt := none, isNew := isNew })
  let dies := ((aget s.fmm.mods m).map (fun x => x.dies)).getD 0
  let s := if isNew then
      { s with fmm := { s.fmm with pt := s.fmm.pt.filter (fun e => e.1 / 2 ^ 29 != m)
                                   bt := amap s.fmm.bt (fun k b => if k / 524288 = m then { b with reads := 0, state := if b.state = 5 then 5 else 0, wl := 0 } else b) } }
    else s
  -- the first four good blocks of each die are its metadata area (R389)
  (List.range dies).foldl (fun s d =>
    if (s.blocksIn m d [6]) ≠ 0 then s
    else (((List.range 8192).filter (fun b => (s.blk (btKey m d b)).state != 5)).take 4).foldl (fun s b =>
      let k := btKey m d b
      s.setBlk k { s.blk k with state := 6 }) s) s

/-- Step 5: the metadata area of each owned die is read (R384, R389, R452). -/
def State.admMeta (s : State) (m : Nat) : State :=
  let ds := s.ownDies m
  let s := s.updMod m (fun x => { x with step := 5, waits := ds.length })
  if ds = [] then s.admReady m
  else ds.foldl (fun s d => s.jRead m (mkPt d 0 0 false) 0 15 0 0 (.adm 5 d)) s

/-- Step 4: the dies this head owns are claimed when the module is not yet claimed in this array; a mode that may only read
claims none (Table 2-1). -/
def State.admClaim (s : State) (m unclaimed : Nat) : State :=
  if serving s.mode && decide (unclaimed ≠ 0) then
    let s := s.updMod m (fun x => { x with step := 4, waits := 1 })
    (s.sendC (.claimGen s.jlk.gen)).jClaim m (s.jlk.gen + 1) (s.ownMask m) false 5
  else s.admMeta m

/-- One more answer of the current step; true when it was the last. -/
def State.admDone (s : State) (m : Nat) : Bool × State :=
  let w := ((aget s.fmm.mods m).map (fun x => x.waits)).getD 0
  (decide (w ≤ 1), s.updMod m (fun x => { x with waits := x.waits - 1 }))

/-- The read-retry entries of PARAM page 1 that are valid: byte 15 of an entry tells (R439). -/
def rrEntries (p : Bytes) : Nat := max 1 ((List.range 8).filter (fun e => leAt p (e * 8 + 7) 1 != 0)).length

/-- Load a die record (R389, R409, R410, R413): wear, RR, bad blocks, patrol positions, failed dies; READS takes its saved
value and a quarter of its threshold. -/
def State.loadDie (s : State) (m d : Nat) (r : DieRec) : State :=
  let thr := 1000 * s.rf R.FMM.DISTURB_CFG.QLC_K
  let s := r.blocks.foldl (fun s b =>
    let k := btKey m d b.1
    s.setBlk k { s.blk k with qlcE := b.2.1, slcE := b.2.2.1, reads := min 0xFFFFFF (b.2.2.2.1 + thr / 4), rr := b.2.2.2.2 }) s
  let s := r.bad.foldl (fun s b => let k := btKey m d b; s.setBlk k { s.blk k with state := 5 }) s
  let s := s.updMod m (fun x => { x with phase := r.phase, rrTab := max 1 r.rrTab, arrayId := some r.array, failed := onesBelow r.failed 64
                                         patrol := r.patrol.foldl (fun a p => aset a p.1 p.2) x.patrol })
  s

/-- An answer of admission (R452, Table 11-14). cgen: CGEN of the die a STATUS named; own: its owner. -/
def State.admAnswer (s : State) (m step die status : Nat) (p : Bytes) (cws : List CwDec) : State :=
  let cur := ((aget s.fmm.mods m).map (fun x => x.step)).getD 0
  if cur ≠ step ∧ !(cur = 5 ∧ step = 6) then s
  else if step = 2 then
    if status ≠ 0 then s.admFail m 3
    else
      let dies := leAt p 25 1
      let s := s.updMod m (fun x => { x with serial := slice p 4 16, dies := dies, blocks := leAt p 27 2 })
      if leAt p 26 1 = 4 ∧ 4096 ≤ leAt p 27 2 ∧ leAt p 27 2 ≤ 8192 ∧ leAt p 29 1 = 64 ∧ leAt p 38 1 ≤ 20 ∧ 1 ≤ dies ∧ dies ≤ 64 then
        (s.updMod m (fun x => { x with step := 3, waits := 1 })).jReq m opStatus 0xFFF 0 0 [[]] (.adm 3 0xFFF)
      else s.admFail m 3
  else if step = 3 then
    if status ≠ 0 then s.admFail m 4
    else if die = 0xFFF then
      let s := s.modStatus m p
      if bit (leAt p 16 1) 0 then s.admFail m 4
      else
        let n := ((aget s.fmm.mods m).map (fun x => x.dies)).getD 0
        let s := s.updMod m (fun x => { x with waits := n, phase := x.phase })
        (List.range n).foldl (fun s d => s.jReq m opStatus d 0 0 [[]] (.adm 3 d)) s
    else
      let s := s.noteGen (leAt p 0 4)
      let s := s.updMod m (fun x => { x with claimed := setBit x.claimed die (leAt p 4 1 % 4 == s.head) })
      match s.admDone m with
      | (false, s) => s
      | (true, s) =>
        let cl := ((aget s.fmm.mods m).map (fun x => x.claimed)).getD 0
        s.admClaim m (sumL ((s.ownDies m).map (fun d => if bit cl d then 0 else 2 ^ d)))
  else if step = 5 then
    match (cws.head?).bind (fun c => c.payload) with
    | some b =>
      match dieRecParse (((cws.map (fun c => ((c.payload).getD []).take 4096)).flatten)) with
      | some r =>
        let s := s.loadDie m die r
        let (last, s) := s.admDone m
        if last then s.admReady m else s
      | none => if b = [] then s else s.jReq m opParam die 0 0 [le 1 4] (.adm 6 die)
    | none => s.jReq m opParam die 0 0 [le 1 4] (.adm 6 die)
  else
    let s := s.updMod m (fun x => { x with rrTab := if status = 0 then rrEntries p else x.rrTab })
    let (last, s) := s.admDone m
    if last then s.admReady m else s

/-! ## Programs and erases (R344, R354, R404, R405, R411 to R413) -/

/-- A program failed (R411): its block is BAD; a die that stopped answering is FAILED (R413). -/
def State.progFailed (s : State) (m die block status : Nat) : State :=
  let s := ((s.inc R.FMM.CNT_PFAIL.COUNT).raise Pg.FMM 0).badBlock m die block
  if status = stDieFail then s.dieFailed m die else s

/-- An answer that stands for a failed program or erase rather than a refused one. -/
def mediaFail (status : Nat) : Bool := status == stProgFail || status == stEraseFail || status == stDieFail || status == stTimeout

/-- A unit of a segment being built has been programmed, or not (R344, R349, R386, R411): a failed one is programmed again on another block. -/
def State.unitAnswer (s : State) (m : Nat) (r : Req) (seg unit status : Nat) : State :=
  let blk := addrBlock r.addr
  let upd := fun (s : State) (f : OpenSeg → OpenSeg) => { s with sgb := { s.sgb with opens := aupd s.sgb.opens seg f } }
  if status = 0 then
    let s := s.ptSet (ptUnit m seg r.die blk (addrPage r.addr) (addrQlc r.addr))
    upd s (fun o => { o with durable := if o.durable.contains unit then o.durable else o.durable ++ [unit], ptSeq := s.fmm.ptSeq })
  else
    let s := if mediaFail status then s.progFailed m r.die blk status else s
    match aget s.sgb.opens seg with
    | none => s
    | some o =>
      let n := agetD o.tries unit 0 + 1
      let s := upd s (fun o => { o with tries := aset o.tries unit n })
      if mediaFail status && !s.absent m && decide (n ≤ s.rf R.FMM.CFG.PFAIL_RETRY) then s.issueUnits seg else s.unitGone seg unit

/-- A unit of a vault segment has been programmed, or not (R80, R349, R411). -/
def State.vaultAnswer (s : State) (m : Nat) (r : Req) (seg unit status : Nat) : State :=
  let s := if mediaFail status then s.progFailed m r.die (addrBlock r.addr) status else s
  (s.vaultUnit seg unit (decide (status = 0))).vaultCheck

/-- A journal page has been programmed on a home, or not (R354, R356). The records of a page that can no longer have two copies are written
again, in the lane's next page (log 82). -/
def State.laneAnswer (s : State) (m : Nat) (r : Req) (l num status : Nat) : State :=
  let s := if mediaFail status then s.progFailed m r.die (addrBlock r.addr) status else s
  let place := fun (s : State) (seg slot : Nat) => if status = 0 then s.ptSet [(ptKey m seg 0 (slot % 4), mkPt r.die (addrBlock r.addr) (addrPage r.addr) false)] else s
  if l = 32 then
    let s := match s.slm.mlog.pages.find? (fun p => p.num == num) with | some p => place s p.seg p.slot | none => s
    s.meterAnswer m num (decide (status = 0))
  else
    let x := s.lane l
    match x.pages.find? (fun p => p.num == num) with
    | none => if status = 0 then s else s.setLane l { x with rehome := true }
    | some p =>
      if status = 0 then
        (place s p.seg p.slot).setLane l { x with copies := p.done.length + 1, pages := x.pages.map (fun (q : LanePage) => if q.num = num then { q with done := q.done ++ [m] } else q) }
      else
        let left := (s.jlk.reqs.filter (fun e => match e.2.why with | .lane k n _ => k == l && n == num | _ => false)).length
        if 2 ≤ p.done.length + left then s.setLane l { x with rehome := true }
        else s.setLane l { x with rehome := true, queue := p.recs ++ x.queue, pages := x.pages.filter (fun q => q.num != num) }

/-- A block erase has ended (R404, R412). -/
def State.eraseAnswer (s : State) (m : Nat) (r : Req) (die block status : Nat) : State :=
  if status = 0 then s.erasedBlk m die block
  else if mediaFail status then
    let s := ((s.inc R.FMM.CNT_EFAIL.COUNT).raise Pg.FMM 1).badBlock m die block
    if status = stDieFail then s.dieFailed m r.die else s
  else s.setBlk (btKey m die block) { s.blk (btKey m die block) with erasing := false }

/-- A moved or rebuilt unit has been programmed, or not (R367, R405, R362, R411). -/
def State.moveAnswer (s : State) (m : Nat) (r : Req) (key built status : Nat) : State :=
  let seg := key % 2 ^ 29 / 16
  if status = 0 then
    if (s.seg seg).state = 7 ∨ (s.seg seg).state = 0 then s
    else
      let s := s.ptSet (ptUnit m seg r.die (addrBlock r.addr) (addrPage r.addr) (addrQlc r.addr))
      if built = 1 then { s with rbe := { s.rbe with unitsBuilt := s.rbe.unitsBuilt + 1 } } else s.inc R.FMM.CNT_MOVE.COUNT
  else if mediaFail status then s.progFailed m r.die (addrBlock r.addr) status
  else s

/-! ## Claims and witnesses (R447 to R451) -/

/-- A claim has been answered (R65, R447, R449, R455): kind 0 and 1 are the commands of JLK.CLAIM_CMD, 2 a takeover, 3 a join,
4 the partner's dies at HANDOVER, 5 admission, 6 a release to a joiner. -/
def State.claimAnswer (s : State) (m kind status info : Nat) : State :=
  let ok := decide (status = 0)
  let s := if ok then s.noteGen info else s
  let i := posInst m
  let s := if kind ≤ 1 then
      let f := if ok then R.JLK.CLAIM_STAT.DONE i else R.JLK.CLAIM_STAT.FAIL i
      s.wf f (setBit (s.rf f) (m % 16) true)
    else s
  let s := if 2 ≤ kind ∧ kind ≤ 4 ∧ ok = true then
      { s with jlk := { s.jlk with won := if s.jlk.won.contains m then s.jlk.won else s.jlk.won ++ [m] } }
    else s
  let s := if kind = 3 then
      (if !ok then s.joinRefuse 0x0D
       else if s.jlk.asked.all (fun a => s.jlk.won.contains a) then (s.wf R.CPL.JOIN_STAT.PHASE 7).updCpl (fun c => { c with diesOk := true }) else s)
    else s
  if kind = 5 then (if ok then s.admMeta m else s.admFail m 5) else s

/-- A WITNESS read has been answered (R451): the partner's SEQ counts as changed when it differs from the last value read. -/
def State.witAnswer (s : State) (m : Nat) (p : Bytes) : State :=
  let q := leAt p (32 * (1 - s.head)) 8
  let seen := s.jlk.witSeen
  { s with jlk := { s.jlk with witSeen := match aget seen m with
      | some (q', t) => aset seen m (q, if q = q' then t else s.now)
      | none => aset seen m (q, 0) } }

/-! ## Answers (R307, R439 to R441) -/

/-- The READ answer of a grain goes through LDC, and the grain on (R307, R309). -/
def State.stageRead (s : State) (m : Nat) (r : Req) (cws : List CwDec) : State :=
  match r.why with
  | .grain op i unit tile cw n phase tried =>
    let s := s.readAnswer m r op i unit tile cw n phase tried cws
    (s.gather op i).afterRead op
  | _ => s

/-- A free read staging buffer exists for a grain, or the grain holds one (R307). -/
def State.stagingFor (s : State) (why : Why) : Bool :=
  decide (s.stagingBufs < 8192) || (match why with
    | .grain op i _ _ _ _ _ _ => (match s.readAt op i with | some (_, g) => g.cws != [] || g.done | none => true)
    | _ => true)

/-- A head whose dies are being released: the joiner's, at the serving head of a join; this head's own, in HANDOVER. -/
def State.relHead (s : State) : Nat := if s.mode = .handover then s.head else 1 - s.head

/-- One step of a release of dies (R384, R389, R449): their programs and erases finish, their die records are written, and
they are released; in HANDOVER the partner's claim takes them. -/
def State.relStep (s : State) : State :=
  let h := s.relHead
  let busy := s.jlk.reqs.any (fun e => (e.2.op == opProgram || e.2.op == opErase) && e.2.die < 64 && e.2.die % 2 == h)
    || s.fmm.metaWait.any (fun w => !s.absent w.1 && w.2.1 % 2 == h)
  let dies := fun (m : Nat) => ((List.range (((aget s.fmm.mods m).map (fun x => x.dies)).getD 0)).filter (fun d => d % 2 == h))
  if s.cpl.relStage = 1 ∧ busy = false then
    (s.present.foldl (fun s m => (dies m).foldl (fun s d => s.writeDieRecord m d) s) s).updCpl (fun c => { c with relStage := 2 })
  else if s.cpl.relStage = 2 ∧ busy = false then
    if s.mode = .handover then (s.updCpl (fun c => { c with relStage := 4 })).sendC (.admin s.cpl.relTag (.released s.jlk.gen))
    else (s.present.foldl (fun s m => s.jClaim m s.jlk.gen (sumL ((dies m).map (fun d => 2 ^ d))) true 6) s).updCpl (fun c => { c with relStage := 3 })
  else if s.cpl.relStage = 3 ∧ !s.jlk.reqs.any (fun e => e.2.why == .claim 6) then
    (s.updCpl (fun c => { c with relStage := 4 })).sendC (.admin s.cpl.relTag (.released s.jlk.gen))
  else s

/-- A release goes as far as it can. -/
def State.relPump (s : State) : State := s.relStep.relStep.relStep

/-- A program that has been done may have been the last of a full block (R387). -/
def State.progDone (s : State) (m : Nat) (r : Req) (status : Nat) : State :=
  if r.op = opProgram ∧ status = 0 then s.sumBlock m r.die (addrBlock r.addr) else s

/-- What a request's answer, or its failure, does, by what it was for (R441). -/
def State.finish (s : State) (m : Nat) (r : Req) (status info : Nat) (payload : Bytes) (cws : List CwDec) : State :=
  match r.why with
  | .grain op i unit tile cw n _ _ =>
    if status = 0 then s.stageRead m r cws
    else
      let s := if status = stDieFail then s.dieFailed m r.die else s
      let s := (List.range n).foldl (fun s j => s.cwLost op i unit tile (cw + j)) s
      (s.gather op i).afterRead op
  | .unit seg unit => (s.unitAnswer m r seg unit status).progDone m r status
  | .lane l num _ => (s.laneAnswer m r l num status).progDone m r status
  | .erase die block => s.eraseAnswer m r die block status
  | .move key built => (s.moveAnswer m r key built status).progDone m r status
  | .vault seg unit => s.vaultAnswer m r seg unit status
  | .other => if mediaFail status then s.progFailed m r.die (addrBlock r.addr) status else s
  | .adm step die => s.admAnswer m step die status payload cws
  | .claim kind => s.claimAnswer m kind status info
  | .wit write => if status = 0 && !write then s.witAnswer m payload else s
  | .poll => if status = 0 then s.modStatus m payload else s

/-- JONAN_RSP (R439 to R441): the answer completes its request, or is stale. A codeword without a staging buffer is held with
its credits (R307). -/
def execJonanRsp (pos : Fin 64) (h : JHdr) (tag : Fin 4096) (tgen : Fin 16) (status : Fin 256) (info : Nat) (payload : Bytes) (cws : List CwDec)
    (s : State) : Host.Outcome State Fault Refusal :=
  let m := pos.val
  match s.jRecv m { h with typ := fRsp } with
  | (false, s) => .next s
  | (true, s) =>
    let k := m * 4096 + tag.val
    let stale := fun (s : State) => ((s.freeCred m h.got).updEnd m (fun e => { e with cntStale := satAdd 32 e.cntStale 1 })).raise (posPage m) 6
    match aget s.jlk.reqs k with
    | none => .next (stale s)
    | some r =>
      if r.gen ≠ tgen.val then .next (stale s)
      else if status.val = stTagBusy then .next (s.freeCred m h.got)
      else
        let s := s.takeReq k (decide (status.val ≠ 0))
        let s := if status.val = stOwner then (s.updEnd m (fun e => { e with cntOwner := satAdd 32 e.cntOwner 1 })).raise (posPage m) 5 else s
        if status.val = 0 && r.op == opRead && !s.stagingFor r.why then
          let s := (List.range (max 1 cws.length)).foldl (fun (s : State) _ => s.inc R.NVT.CNT_CWSTALL.COUNT) s
          .next { s with jlk := { s.jlk with held := s.jlk.held ++ [{ pos := m, cred := h.got, req := r, cws := cws }] } }
        else .next (((s.freeCred m h.got).finish m r status.val info payload cws).relPump.settle)

/-- A request fails without an answer (R428, R441). -/
def State.failReq (s : State) (k : Nat) : State :=
  match aget s.jlk.reqs k with
  | none => s
  | some r =>
    let m := k / 4096
    let s := (s.takeReq k true).updEnd m (fun e => { e with cntTimeout := satAdd 32 e.cntTimeout 1 })
    ((s.raise (posPage m) 4).finish m r stTimeout 0 [] []).relPump

/-- REQUEST_TIMEOUT (R441): no answer within TIMEOUT_MS. -/
def execRequestTimeout (pos : Fin 64) (tag : Fin 4096) (s : State) : Host.Outcome State Fault Refusal :=
  let k := pos.val * 4096 + tag.val
  match aget s.jlk.reqs k with
  | some r => if !s.jlk.wait.any (fun w => w.1 == k) && decide (r.at0 + s.rf (R.JLK.CFG.TIMEOUT_MS (posInst pos.val)) * 1000000 ≤ s.now) then .next ((s.failReq k).settle) else .next s
  | none => .next s

/-- STAGING_BUFFER_FREE (R307): held codewords go on in their order while a buffer is free, and their credits return. -/
def State.unhold (s : State) : Nat → State
  | 0 => s
  | k + 1 =>
    match s.jlk.held with
    | [] => s
    | h :: t =>
      if s.stagingFor h.req.why then
        let s := { s with jlk := { s.jlk with held := t } }
        ((s.freeCred h.pos h.cred).stageRead h.pos h.req h.cws).unhold k
      else s

def execStagingBufferFree (s : State) : Host.Outcome State Fault Refusal := .next (s.unhold (s.jlk.held.length + 1)).settle

end Sys2Proof.Machine
end

