-- ==== Sys2Proof/Machine/LinkState.lean ====
section
/-! DEFINITION. The link state machine of Jonan positions, bridge ports and Carid: training, negotiation, retraining, loss; events, polls, claims and witnesses (R422 to R432, R449 to R466, R472). -/
namespace Sys2Proof.Machine

/-! ## Absent members (R349 to R357) -/

/-- Copy the durable pages of a journal tile to a new home (R357): the module, its place and the stamp of each page. -/
def State.copyTo (s : State) (seg : Nat) (pages : List JPage) (spot : Nat × Nat × Nat × Nat) (os : List Ostamp) : State :=
  (pages.zip os).zipIdx.foldl (fun s q => s.progTilePage seg 1 q.2 2 spot q.1.2 (s.lanePageBytes seg q.2 2 q.1.1.recs) .other) s

/-- A journal tile with one copy left is copied to two new homes (R357), once no FMM issuer stalls. -/
def State.copyUp (s : State) (seg : Nat) : State :=
  let pages := s.mpe.log.filter (fun p => p.seg == seg)
  match pages, s.firstPool with
  | p :: _, some (_, pool) =>
    let here := p.homes.filter (fun m => !s.absent m)
    if here.length ≠ 1 || !s.mayProgram then s
    else
      let new_ := ((s.pickHomes pool true 2 here).drop 1)
      let new_ := if new_.length = 2 then new_ else (s.pickHomes pool false 2 here).drop 1
      let (spots, t) := s.tileSpots new_
      let n := pages.length
      match t.issueAll (spots.flatMap (fun (q : Nat × Nat × Nat × Nat) => List.replicate n (Unit.fmm (q.1 / 16)))) with
      | (none, _) => s
      | (some os, s) =>
        let s := spots.zipIdx.foldl (fun (s : State) (q : (Nat × Nat × Nat × Nat) × Nat) => s.copyTo seg pages q.1 ((os.drop (q.2 * n)).take n)) s
        let s := { s with mpe := { s.mpe with log := s.mpe.log.map (fun (x : JPage) => if x.seg = seg then { x with homes := here ++ spots.map (fun (q : Nat × Nat × Nat × Nat) => q.1) } else x) } }
        (s.inc R.JRN.CNT_COPYUP.COUNT).raise Pg.JRN 2
  | _, _ => s

/-- Copy up every journal tile that has come down to one copy. -/
def State.copyUpAll (s : State) : State := ((s.mpe.log.map (fun p => p.seg)).eraseDups).foldl (fun s seg => s.copyUp seg) s

/-- A member has become absent to this head: lanes move at the next page, segments go on without it, tiles are copied up. -/
def State.memberAbsent (s : State) (m : Nat) : State :=
  let s := { s with mpe := { s.mpe with lanes := amap s.mpe.lanes (fun _ x => if x.homes.contains m then { x with rehome := true } else x) } }
  s.pumpSegs.copyUpAll

/-- A Jonan end enters DOWN (R427, R428): a head position fails its requests as timeouts; a port drops what has not started. -/
def State.linkDown (s : State) (i : Nat) : State :=
  let e := s.linkEnd i
  if e.state = lDown then s
  else
    let s := s.setEnd i { e with state := lDown, rate := 0, lanes := 0, ver := 0, since := s.now, queue := [], unack := [], trainGot := false, trainAt := none
                                 nakAt := none, ackDue := none, owed := 0, txCred := 0, rxCred := 0, replays := 0 }
    if isHead i then
      let s := s.raise (posPage i) 3
      let s := { s with jlk := { s.jlk with held := s.jlk.held.filter (fun h => h.pos != i) } }
      let s := s.updMod i (fun x => { x with goneAt := some (x.goneAt.getD s.now), ready := false, step := 0 })
      let s := ((s.jlk.reqs.map Prod.fst).filter (fun k => k / 4096 == i)).foldl (fun s k => s.failReq k) s
      s.memberAbsent i
    else
      let m := (i - 64) / 2
      let p := (i - 64) % 2
      { s with bridges := aset s.bridges m { (agetD s.bridges m ({} : Bridge)) with ops := (agetD s.bridges m ({} : Bridge)).ops.filter (fun o => !(o.port == p && !o.started)) } }

/-! ## Carid (R457 to R466) -/

/-- Highest and lowest minor version this head offers (R462, R638). -/
def State.cMax (s : State) : Nat :=
  let m := min (s.rf R.CPL.CFG.MAX_VER) 4
  if s.runsTrial && decide (s.bootRecord.confirmed ≠ 0xFF) then min m (s.bootRecord.confCarid / 16 % 16) else m
def State.cMin (s : State) : Nat := min (s.rf R.CPL.CFG.MIN_VER) s.cMax

/-- The pairing key, where it is provisioned (R466). -/
def State.pairKey (s : State) : Option Bytes :=
  if s.flag R.CPL.KEY.VALID then s.macKey (s.rf R.CPL.KEY.SLOT) else none

/-- The key a head transmits with (R466). -/
def linkKey (pk : Bytes) (head : Nat) (n0 n1 : Bytes) (ver : Nat) : Bytes := hmac pk (ascii "CARID" ++ le head 1 ++ n0 ++ n1 ++ le ver 1)

/-- Usable lanes: aligned and not fenced (R459). -/
def State.usableLanes (s : State) (lanes : Nat) : List Nat := (onesBelow lanes 32).filter (fun l => !(s.fencedUnits Pg.CPL).contains l)

/-- Receive credits this head gives in HELLO for MIRROR, DELTA, FORWARD and ADMIN (log 33). -/
def cCredits : List Nat := [16384, 16384, 16384, 4096]

/-- The bytes of a HELLO that its MAC covers (Table 12-1). -/
def helloBody (h : Hello) : Bytes :=
  le h.vers 1 ++ le h.head 1 ++ le h.lanes 1 ++ le h.flags 1 ++ le h.array 16 ++ h.nonce ++ h.creds.flatMap (fun c => le c 2) ++ zeros 4

/-- A nonce of 16 bytes from SEC's random source. -/
def State.newNonce (s : State) : Bytes × State := (le (Config.random64 s.freeCtr) 8 ++ le (Config.random64 (s.freeCtr + 1)) 8, s.draw.draw)

/-- This head's HELLO (R461). -/
def State.ownHello (s : State) : Hello :=
  let h : Hello := { vers := s.cMin + 16 * s.cMax, head := s.head, lanes := (s.usableLanes s.cpl.lanes).length
                     flags := b2n (s.flag R.CPL.CFG.GCM_REQ) + 2 * b2n s.pairKey.isSome, array := s.arrayId, nonce := s.cpl.nonce, creds := cCredits, mac := [] }
  { h with mac := match s.pairKey with | some k => (hmac k (helloBody h)).take 16 | none => zeros 16 }

/-- Send HELLO, with a fresh nonce at the first of a negotiation. Without random data none goes out (R555, log 102). -/
def State.sendHello (s : State) : State :=
  if s.cpl.nonce = [] ∧ s.rf R.SEC.STAT.RNG = 0 then s else
  let s := if s.cpl.nonce = [] then
      let (n, s) := s.newNonce
      s.updCpl (fun c => { c with nonce := n })
    else s
  let h := s.ownHello
  let s := if s.pairKey.isSome then s.dgeRan 1 else s
  (s.updCpl (fun c => { c with helloAt := some s.now })).sendLink (.hello (helloBody h ++ h.mac))

/-- Lanes lock (R459, R460): at least 16 usable lanes bring the link to NEGOTIATE, or back from RETRAIN; fewer take it DOWN. -/
def State.caridAlign (s : State) (lanes : Nat) : State :=
  let st := s.rf R.CPL.LINK_STAT.STATE
  if st ≠ lAlign ∧ st ≠ lRetrain then s
  else
    let us := s.usableLanes lanes
    let n := us.length
    if n < 16 then s.cplDown
    else
      let s := ((s.wf R.CPL.LINK_STAT.LANES n).wf R.CPL.LINK_STAT.HALF (b2n (decide (n < 32)))).updCpl (fun c => { c with lanes := lanes })
      if st = lAlign ∨ s.cpl.rehello = true then
        (s.wf R.CPL.LINK_STAT.STATE lNegotiate).updCpl (fun c => { c with since := s.now, nonce := [], pNonce := [], helloAt := none })
      else if s.now < s.cpl.since + s.rf R.CPL.CFG.RETRAIN_MS * 1000000 then
        (((s.wf R.CPL.LINK_STAT.STATE lActive).updCpl (fun c => { c with since := s.now, replays := 0 })).cReplay).pumpCarid.pumpFwd
      else s.cplDown

/-- Enter RETRAIN on Carid (R460). -/
def State.caridRetrain (s : State) (rehello : Bool) : State :=
  if s.rf R.CPL.LINK_STAT.STATE ≠ lActive then s
  else
    (((s.wf R.CPL.LINK_STAT.STATE lRetrain).updCpl (fun c => { c with since := s.now, rehello := rehello })).inc R.CPL.CNT_RETRAIN.COUNT).raise Pg.CPL 1

/-- A negotiation fails (R462): the link goes DOWN with a reason; PHASE shows it only for a join it refuses. -/
def State.helloFail (s : State) (reason : Nat) : State :=
  let ph := s.rf R.CPL.JOIN_STAT.PHASE
  let s := s.cplDown
  if 1 ≤ ph ∧ ph ≤ 7 then s.joinRefuse reason else s.wf R.CPL.JOIN_STAT.REASON reason

/-- Why two HELLOs do not agree, by the checks of R462 in order; 0 when they do. -/
def State.helloCheck (s : State) (h : Hello) : Nat :=
  let own := s.ownHello
  let bothKeys := bit own.flags 1 && bit h.flags 1
  let macOk := match s.pairKey with | some k => (hmac k (helloBody h)).take 16 == h.mac | none => false
  if bothKeys && !macOk then 0x05
  else if own.array ≠ h.array then 0x02
  else if own.head = h.head then 0x03
  else if h.vers / 16 < s.cMin ∨ s.cMax < h.vers % 16 then 0x04
  else if (bit own.flags 0 || bit h.flags 0) && !bothKeys then 0x05
  else 0

/-- HELLO_SEND_TICK (R461): in NEGOTIATE, HELLO goes out every 10 µs until the other end's has come. -/
def execHelloSendTick (s : State) : Host.Outcome State Fault Refusal :=
  let due := match s.cpl.helloAt with | some t => decide (t + 10000 ≤ s.now) | none => true
  if s.rf R.CPL.LINK_STAT.STATE = lNegotiate && s.mode != .boot && s.cpl.pNonce.isEmpty && due then .next s.sendHello else .next s

/-- HELLO (R461 to R466, R480): checked in the order of R462; the link is ACTIVE with version, keys and credits, or DOWN. -/
def execHello (h : Hello) (s : State) : Host.Outcome State Fault Refusal :=
  if s.rf R.CPL.LINK_STAT.STATE ≠ lNegotiate ∨ s.mode = .boot then .next s
  else
    let s := if s.cpl.helloAt.isNone then s.sendHello else s
    if s.cpl.nonce = [] then .next s else
    let why := s.helloCheck h
    let s := if s.pairKey.isSome && bit h.flags 1 then (s.dgeRan 1).cmpRan else s
    let ver := min s.cMax (h.vers / 16)
    if why ≠ 0 then .next (s.helloFail why)
    else if s.cpl.rehello ∧ ver ≠ s.rf R.CPL.LINK_STAT.VER then .next (s.helloFail 0x04)
    else
      let gcm := s.flag R.CPL.CFG.GCM_REQ || bit h.flags 0
      let n0 := if s.head = 0 then s.cpl.nonce else h.nonce
      let n1 := if s.head = 0 then h.nonce else s.cpl.nonce
      let key := fun (hd : Nat) => match s.pairKey with | some k => if gcm then linkKey k hd n0 n1 ver else [] | none => []
      let chans := [cMirror, cDelta, cForward, cAdmin]
      let again := s.cpl.rehello
      let s := if gcm then s.dgeRan 2 else s
      let s := (((s.wf R.CPL.LINK_STAT.STATE lActive).wf R.CPL.LINK_STAT.VER ver).wf R.CPL.LINK_STAT.GCM (b2n gcm))
      let s := s.updCpl (fun c => { c with
        since := s.now, keyAt := s.now, pNonce := h.nonce, pLanes := h.lanes, txKey := key s.head, rxKey := key (1 - s.head), rehello := false
        xseq := 0, rxNext := 0, uctr := 0, queue := if again then c.unack.map (fun x => x.2.1) ++ c.queue else [], unack := [], rxNew := none, txNew := none
        txCred := chans.zip h.creds, rxCred := chans.zip cCredits, owed := [], nakAt := none, ackDue := none, replays := 0 })
      let s := if again then s else { s with fmm := { s.fmm with ptSeq := 0, ptAck := 0, ptIn := 0 } }
      .next s.pumpCarid.pumpFwd

/-- CARID_RETRAIN (R459, R460, R472): a change of width, or a rekey below 3.2. -/
def execCaridRetrain (rekey : Bool) (s : State) : Host.Outcome State Fault Refusal :=
  if rekey && decide (2 ≤ s.rf R.CPL.LINK_STAT.VER) then .next s else .next (s.caridRetrain rekey)

/-- CARID_NAK (R436, R469): counted under the channel of the first frame after its ACK, and every frame after it goes again. -/
def execCaridNak (h : CHdr) (code : Fin 256) (s : State) : Host.Outcome State Fault Refusal :=
  match s.cRecv cLink h with
  | (true, s) =>
    match s.cpl.unack with
    | [] => .next s
    | (_, m, _) :: _ => .next (((s.cNakCount (chanOf m) code.val).updCpl (fun c => { c with replays := c.replays + 1 })).cReplay)
  | (false, s) => .next s

/-- CARID_IDLE (R437, R469): delivers ACK and credits. -/
def execCaridIdle (h : CHdr) (s : State) : Host.Outcome State Fault Refusal := .next (s.cRecv cLink h).2

/-- REKEY_TIMER (R472): before a counter reaches 2^32, or after REKEY_H hours, the end rekeys: with REKEY from 3.2, else
through RETRAIN. -/
def execRekeyTimer (s : State) : Host.Outcome State Fault Refusal :=
  let c := s.cpl
  let near := decide (2 ^ 32 ≤ c.xseq + 65536) || decide (2 ^ 32 ≤ c.uctr + 65536)
  let old := decide (c.keyAt + s.rf R.CPL.CFG2.REKEY_H * 3600 * 1000000000 ≤ s.now)
  if s.rf R.CPL.LINK_STAT.STATE ≠ lActive || !s.flag R.CPL.LINK_STAT.GCM || !(near || old) || c.txNew.isSome then .next s
  else if s.rf R.SEC.STAT.RNG = 0 then .next s
  else if s.rf R.CPL.LINK_STAT.VER < 2 then .next (s.caridRetrain true)
  else
    match s.pairKey with
    | none => .next s
    | some k =>
      let (n, s) := s.newNonce
      let at_ := s.cpl.xseq + s.cpl.queue.length + 1
      let n0 := if s.head = 0 then n else s.cpl.pNonce
      let n1 := if s.head = 0 then s.cpl.pNonce else n
      let s := s.updCpl (fun c => { c with nonce := n, keyAt := s.now, txNew := some (at_, linkKey k s.head n0 n1 (s.rf R.CPL.LINK_STAT.VER)) })
      .next ((s.dgeRan 1).sendC (.rekey n at_))

/-- REKEY (R472): from the XSEQ it names, the other end's frames come under the key with its new nonce. -/
def execRekey (h : CHdr) (nonce : Bytes) (xseq : Nat) (s : State) : Host.Outcome State Fault Refusal :=
  match s.cRecv cAdmin h, s.pairKey with
  | (true, s), some k =>
    let n0 := if s.head = 0 then s.cpl.nonce else nonce
    let n1 := if s.head = 0 then nonce else s.cpl.nonce
    .next ((s.dgeRan 1).updCpl (fun c => { c with pNonce := nonce, rxNew := some (xseq, linkKey k (1 - s.head) n0 n1 (s.rf R.CPL.LINK_STAT.VER)) }))
  | (_, s), _ => .next s

/-! ## The state machine (Table 11-3, R460) -/

/-- SIGNAL_DETECT (R427, R460, R622): signal on a lane of an idle end. Carid trains in BOOT as Table 16-7 says and negotiates from
ISOLATED on (log 68). -/
def execSignalDetect (sel : LinkSel) (s : State) : Host.Outcome State Fault Refusal :=
  match sel with
  | .carid =>
    let m := s.mode
    if s.rf R.CPL.LINK_STAT.STATE = lDown && s.pins.lanesEnabled && m != .service && m != .vault then
      .next ((s.wf R.CPL.LINK_STAT.STATE lTrain).updCpl (fun c => { c with since := s.now, lanes := 0 }))
    else .next s
  | sel => .next (s.jDetect (endKey sel))

/-- TRAIN_RATE_TIMEOUT (R423, R457): no lane reached ALIGN within 200 ms; a Jonan end tries the next rate, Carid has no other. -/
def execTrainRateTimeout (sel : LinkSel) (s : State) : Host.Outcome State Fault Refusal :=
  match sel with
  | .carid => if s.rf R.CPL.LINK_STAT.STATE = lTrain ∧ s.cpl.since + 200000000 ≤ s.now then .next s.cplDown else .next s
  | sel =>
    let i := endKey sel
    let e := s.linkEnd i
    if e.state = lTrain ∧ e.since + 200000000 ≤ s.now then
      (if e.rate < 3 then .next (s.setEnd i { e with rate := e.rate + 1, since := s.now }) else .next (s.linkDown i))
    else .next s

/-- LANE_TRAINED (R423, R427). -/
def execLaneTrained (sel : LinkSel) (lane : Fin 32) (s : State) : Host.Outcome State Fault Refusal :=
  match sel with
  | .carid =>
    let st := s.rf R.CPL.LINK_STAT.STATE
    if (st = lTrain ∨ st = lAlign) ∧ !(s.fencedUnits Pg.CPL).contains lane.val then
      .next ((s.wf R.CPL.LINK_STAT.STATE lAlign).updCpl (fun c => { c with lanes := setBit c.lanes lane.val true }))
    else .next s
  | sel => if lane.val < 2 then .next (s.jLane (endKey sel) lane.val) else .next s

/-- ALIGN_LOCK (R423, R427, R458, R459): the lanes that lock; `bad` are Carid lanes that fail their own loopback self-test. -/
def execAlignLock (sel : LinkSel) (lanes bad : BitVec 32) (s : State) : Host.Outcome State Fault Refusal :=
  match sel with
  | .carid =>
    let st := s.rf R.CPL.LINK_STAT.STATE
    let s := if st = lAlign then
        ((onesBelow bad.toNat 32).filter (fun l => !(s.fencedUnits Pg.CPL).contains l)).foldl (fun s l => s.raiseU Pg.CPL 2 l) s
      else s
    .next (s.caridAlign lanes.toNat)
  | sel =>
    let i := endKey sel
    let ms := if isHead i then s.rf (R.JLK.CFG2.RETRAIN_MS (posInst i)) else 100
    .next (s.jAlign i lanes.toNat ms)

/-- TRAIN_SEND_TICK (R429). -/
def execTrainSendTick (sel : LinkSel) (s : State) : Host.Outcome State Fault Refusal :=
  match sel with
  | .carid => .next s
  | sel => .next (s.trainTick (endKey sel))

/-- TRAIN (R429, R430, R452): the link is ACTIVE and admission begins, or DOWN without a common version. -/
def execTrain (sel : LinkSel) (vers role port lanes rxcred : Nat) (s : State) : Host.Outcome State Fault Refusal :=
  match sel with
  | .carid => .next s
  | sel =>
    let i := endKey sel
    if role % 2 ≠ (if isHead i then 1 else 0) ∨ lanes % 4 = 0 then .next s
    else
      match s.jTrain i vers port rxcred with
      | (true, s) =>
        if isHead i then .next (s.admStart i)
        else
          let m := (i - 64) / 2
          let b := agetD s.bridges m ({} : Bridge)
          .next { s with bridges := aset s.bridges m { b with flags := if port % 2 = (i - 64) % 2 then b.flags else setBit b.flags 5 true } }
      | (false, s) => if isHead i && (s.linkEnd i).reason == 2 then .next ((s.raise (posPage i) 3).admFail i 2) else .next s

/-- RETRAIN_ENTRY (R427, R460): RETRY_MAX consecutive replays (loss 0), loss of alignment (1) or of a lane (2). -/
def execRetrainEntry (sel : LinkSel) (loss : Fin 3) (s : State) : Host.Outcome State Fault Refusal :=
  match sel with
  | .carid => if loss.val = 0 ∧ s.cpl.replays < 16 then .next s else .next (s.caridRetrain false)
  | sel =>
    let i := endKey sel
    let e := s.linkEnd i
    let lim := if isHead i then s.rf (R.JLK.CFG.RETRY_MAX (posInst i)) else 16
    if e.state ≠ lActive ∨ (loss.val = 0 ∧ e.replays < lim) then .next s
    else
      let s := s.setEnd i { e with state := lRetrain, since := s.now, cntRetrain := satAdd 32 e.cntRetrain 1 }
      .next (if isHead i then s.raise (posPage i) 1 else s)

/-- RETRAIN_TIMEOUT (R427, R460): not realigned within RETRAIN_MS, the link goes DOWN. -/
def execRetrainTimeout (sel : LinkSel) (s : State) : Host.Outcome State Fault Refusal :=
  match sel with
  | .carid =>
    if s.rf R.CPL.LINK_STAT.STATE = lRetrain ∧ s.cpl.since + s.rf R.CPL.CFG.RETRAIN_MS * 1000000 ≤ s.now then .next s.cplDown else .next s
  | sel =>
    let i := endKey sel
    let e := s.linkEnd i
    let ms := if isHead i then s.rf (R.JLK.CFG2.RETRAIN_MS (posInst i)) else 100
    if e.state = lRetrain ∧ e.since + ms * 1000000 ≤ s.now then .next ((s.linkDown i).settle) else .next s

/-- SIGNAL_LOST (R427, R454): signal lost on every lane for 1 ms. -/
def execSignalLost (sel : LinkSel) (s : State) : Host.Outcome State Fault Refusal :=
  match sel with
  | .carid => if s.rf R.CPL.LINK_STAT.STATE = lDown then .next s else .next s.cplDown
  | sel => .next ((s.linkDown (endKey sel)).settle)

/-- EVENT (R413, R431, R439, R454): a module event, answered only by ACK: 1 FATAL, 2 die failed; the others change nothing here. -/
def execEventCmd (pos : Fin 64) (h : JHdr) (code die : Fin 256) (s : State) : Host.Outcome State Fault Refusal :=
  let m := pos.val
  match s.jRecv m { h with typ := fEvent } with
  | (false, s) => .next s
  | (true, s) =>
    let s := s.freeCred m h.got
    if code.val = 1 then .next (s.modFatal m)
    else if code.val = 2 ∧ die.val < 64 then .next (s.dieFailed m die.val)
    else .next s

/-- STATUS_POLL (R432): below 2.1, module STATUS is asked every POLL_MS. -/
def execStatusPoll (pos : Fin 64) (s : State) : Host.Outcome State Fault Refusal :=
  let m := pos.val
  let e := s.linkEnd m
  let due := match aget s.jlk.pollAt m with | some t => decide (t + s.rf (R.JLK.CFG.POLL_MS (posInst m)) * 1000000 ≤ s.now) | none => true
  if e.state = lActive && decide (e.ver < 5) && due then
    .next (({ s with jlk := { s.jlk with pollAt := aset s.jlk.pollAt m s.now } }).jReq m opStatus 0xFFF 0 0 [[]] .poll)
  else .next s

/-! ## Claims and witnesses (R449 to R451, R455) -/

/-- A mode in which the head may change the owner of dies (Table 2-1). -/
def mayClaim : Sys2Proof.Mode → Bool
  | .paired | .solo | .handover | .vault => true
  | _ => false

/-- A write of JLK.CLAIM_CMD: OP 1 CLAIM, 2 RELEASE, on positions of an instance (R447, R449, R455). -/
def State.claimCmd (s : State) (inst op mask : Nat) : State :=
  if op ≠ 1 ∧ op ≠ 2 then s
  else
    let s := (s.wf (R.JLK.CLAIM_STAT.DONE inst) 0).wf (R.JLK.CLAIM_STAT.FAIL inst) 0
    let gen := s.rf (R.JLK.CLAIM_GEN.GEN inst)
    let s := if op = 1 then (s.sendC (.claimGen s.jlk.gen)) else s
    (onesBelow mask 16).foldl (fun s p =>
      let m := 16 * inst + p
      if (s.linkEnd m).state = lActive && mayClaim s.mode then s.jClaim m gen (s.rf (R.JLK.CLAIM_DIES.MASK inst)) (decide (op = 2)) (op - 1)
      else s.wf (R.JLK.CLAIM_STAT.FAIL inst) (setBit (s.rf (R.JLK.CLAIM_STAT.FAIL inst)) p true)) s

/-- JLK_CLAIM (R449, R455). -/
def execJlkClaim (inst : Fin 4) (mask : BitVec 16) (s : State) : Host.Outcome State Fault Refusal := .next (s.claimCmd inst.val 1 mask.toNat)

/-- JLK_RELEASE (R447, R455). -/
def execJlkRelease (inst : Fin 4) (mask : BitVec 16) (s : State) : Host.Outcome State Fault Refusal := .next (s.claimCmd inst.val 2 mask.toNat)

/-- The head writes its witness (R64, R75, R451): in JOINING, PAIRED, SOLO and HANDOVER, unless R63 or R498 stopped it. -/
def State.writesWitness (s : State) : Bool :=
  (s.mode == .joining || s.mode == .paired || s.mode == .solo || s.mode == .handover) && !s.bsv.silent

/-- WITNESS_TICK (R450, R451): every PERIOD_MS, on every ACTIVE position of an instance with EN, the own register is written and
both are read. -/
def execWitnessTick (inst : Fin 4) (s : State) : Host.Outcome State Fault Refusal :=
  let i := inst.val
  let due := match aget s.jlk.witAt i with
    | some t => decide (t + s.rf (R.JLK.WIT_CFG.PERIOD_MS i) * 1000000 ≤ s.now)
    | none => true
  if !s.flag (R.JLK.WIT_CFG.EN i) || !due then .next s
  else
    let s := { s with jlk := { s.jlk with witAt := aset s.jlk.witAt i s.now, witSeq := s.jlk.witSeq + 1 } }
    let w := le s.jlk.witSeq 8 ++ le s.estamp 8 ++ le s.jlk.gen 4 ++ le (modeCode s.mode) 1 ++ zeros 3
    .next (((List.range 16).map (fun p => 16 * i + p)).foldl (fun s m =>
      if (s.linkEnd m).state ≠ lActive then s
      else
        let s := if s.writesWitness then s.jReq m opWitness 0xFFF 0 1 [w] (.wit true) else s
        s.jReq m opWitness 0xFFF 0 0 [[]] (.wit false)) s)

end Sys2Proof.Machine
end

