-- ==== Sys2Proof/Machine/Bridge.lean ====
section
/-! DEFINITION. The ILV-0216 bridge of a module: requests from its two ports, ownership of dies, claims and witness registers (R430, R432, R439 to R450). -/
namespace Sys2Proof.Machine

def State.bridge (s : State) (m : Nat) : Bridge := agetD s.bridges m {}
def State.setBridge (s : State) (m : Nat) (b : Bridge) : State := { s with bridges := aset s.bridges m b }
def State.updBridge (s : State) (m : Nat) (f : Bridge → Bridge) : State := s.setBridge m (f (s.bridge m))

/-- Link end of a bridge's port. -/
def portEnd (m p : Nat) : Nat := 64 + 2 * m + p

/-- Answer a request (R439): status word, then the payload; the request's credits return. -/
def State.bAnswer (s : State) (m p tag tgen die op status info : Nat) (payload : Bytes) : State :=
  s.jSend (portEnd m p) { typ := fRsp, tag := tag, tgen := tgen, die := die, op := op, payload := le (status + 256 * info) 8 ++ payload }

/-- The head a port serves: the one named in its TRAIN frame (R430). -/
def State.portHead (s : State) (m p : Nat) : Nat := (s.linkEnd (portEnd m p)).peer % 2

/-- Owner of a die: 0, 1, or 3 for none (Table 11-12); CGEN. -/
def ownerOf (b : Bridge) (die : Nat) : Nat := agetD b.owner die 3
def cgenOf (b : Bridge) (die : Nat) : Nat := agetD b.cgen die 0

/-- A request arrives at a port: accepted in sequence and its TAG free there (R435, R442); true when the bridge goes on with it. -/
def State.bTake (s : State) (m p : Nat) (h : JHdr) (tag tgen die op : Nat) : Bool × State :=
  match s.jRecv (portEnd m p) { h with typ := fReq } with
  | (false, s) => (false, s)
  | (true, s) =>
    if (s.bridge m).ops.any (fun o => o.port == p && o.tag == tag) then (false, (s.freeCred (portEnd m p) h.got).bAnswer m p tag tgen die op stTagBusy 0 [])
    else (true, s)

/-- A die a request may name: present and not failed. -/
def dieOk (b : Bridge) (die : Nat) : Bool := decide (die < b.dies) && !b.failed.contains die

/-- JONAN_READ (R432, R439): the request waits for the die, whatever its owner. -/
def execJonanRead (m : Fin 64) (port : Fin 2) (h : JHdr) (tag : Fin 4096) (tgen : Fin 16) (die : Fin 4096) (addr : BitVec 64) (s : State) :
    Host.Outcome State Fault Refusal :=
  match s.bTake m.val port.val h tag.val tgen.val die.val opRead with
  | (false, s) => .next s
  | (true, s) =>
    let b := s.bridge m.val
    let a := addr.toNat
    let ver := (s.linkEnd (portEnd m.val port.val)).ver
    let no := fun (st : Nat) => (s.freeCred (portEnd m.val port.val) h.got).bAnswer m.val port.val tag.val tgen.val die.val opRead st 0 []
    if !dieOk b die.val then .next (no stBadDie)
    else if b.blocks ≤ addrBlock a ∨ (!addrQlc a ∧ 64 ≤ addrPage a) then .next (no stBadAddr)
    else if ver < 2 ∧ fld a 32 8 ≠ 0 then .next (no stBadOp)
    else
      -- from 2.0 an erase in progress on the die is suspended (R432)
      let susp := fun (o : BOp) => if o.op = opErase && o.started && o.die == die.val && decide (4 ≤ ver) then { o with susp := true } else o
      let busy := b.ops.any (fun o => o.die == die.val && o.started && (o.op == opProgram || (o.op == opErase && decide (ver < 4))))
      .next (s.setBridge m.val { b with ops := b.ops.map susp ++ [({ port := port.val, tag := tag.val, tgen := tgen.val, op := opRead, die := die.val
                                                                     addr := a, started := !busy, cred := h.got } : BOp)] })

/-- JONAN_PROGRAM (R443, R444): one page of a PROGRAM; the wordline is programmed once all PCNT + 1 pages have arrived. -/
def execJonanProgram (m : Fin 64) (port : Fin 2) (h : JHdr) (tag : Fin 4096) (tgen : Fin 16) (die : Fin 4096) (addr : BitVec 64) (page : Bytes) (s : State) :
    Host.Outcome State Fault Refusal :=
  let a := addr.toNat
  let pidx := fld a 40 4
  let pcnt := fld a 44 4
  let i := portEnd m.val port.val
  let cont := (s.bridge m.val).ops.find? (fun o => o.port == port.val && o.tag == tag.val && o.tgen == tgen.val && o.op == opProgram && !o.started && decide (o.pages < o.want))
  match cont with
  | some o =>
    -- a further page of the same operation
    match s.jRecv i { h with typ := fReq } with
    | (false, s) => .next s
    | (true, s) =>
      let s := s.freeCred i h.got
      let inPlace := fld a 21 2 == pidx % 4 && addrQlc a == addrQlc o.addr && addrPage a == addrPage o.addr + (if addrQlc o.addr then pidx / 4 else 0)
      if pidx ≠ o.pages ∨ pcnt + 1 ≠ o.want ∨ addrBlock a ≠ addrBlock o.addr ∨ inPlace = false ∨ page.length ≠ 18560 then
        .next ((s.updBridge m.val (fun b => { b with ops := b.ops.filter (fun x => x != o) })).bAnswer m.val port.val tag.val tgen.val die.val opProgram stBadAddr 0 [])
      else .next (s.updBridge m.val (fun b => { b with ops := b.ops.map (fun x => if x == o then { x with pages := x.pages + 1 } else x) }))
  | none =>
    match s.bTake m.val port.val h tag.val tgen.val die.val opProgram with
    | (false, s) => .next s
    | (true, s) =>
      let s := s.freeCred i h.got
      let b := s.bridge m.val
      let no := fun (st : Nat) => s.bAnswer m.val port.val tag.val tgen.val die.val opProgram st 0 []
      let shape := (pcnt == 0 && pidx == fld a 21 2 && !addrQlc a) || (pidx == 0 && fld a 21 2 == 0 && ((pcnt == 3 && !addrQlc a) || (pcnt == 15 && addrQlc a && addrPage a % 4 == 0)))
      if bit b.flags 2 then .next (no stPower)
      else if !dieOk b die.val then .next (no stBadDie)
      else if b.blocks ≤ addrBlock a ∨ shape = false ∨ page.length ≠ 18560 ∨ (!addrQlc a ∧ 64 ≤ addrPage a) then .next (no stBadAddr)
      else .next (s.setBridge m.val { b with ops := b.ops ++ [({ port := port.val, tag := tag.val, tgen := tgen.val, op := opProgram, die := die.val, addr := a, want := pcnt + 1 } : BOp)] })

/-- JONAN_ERASE (R446): queued; its ownership is looked at when it starts. -/
def execJonanErase (m : Fin 64) (port : Fin 2) (h : JHdr) (tag : Fin 4096) (tgen : Fin 16) (die : Fin 4096) (addr : BitVec 64) (s : State) :
    Host.Outcome State Fault Refusal :=
  match s.bTake m.val port.val h tag.val tgen.val die.val opErase with
  | (false, s) => .next s
  | (true, s) =>
    let s := s.freeCred (portEnd m.val port.val) h.got
    let b := s.bridge m.val
    let no := fun (st : Nat) => s.bAnswer m.val port.val tag.val tgen.val die.val opErase st 0 []
    if bit b.flags 2 then .next (no stPower)
    else if !dieOk b die.val then .next (no stBadDie)
    else if b.blocks ≤ addrBlock addr.toNat then .next (no stBadAddr)
    else .next (s.setBridge m.val { b with ops := b.ops ++ [({ port := port.val, tag := tag.val, tgen := tgen.val, op := opErase, die := die.val, addr := addr.toNat } : BOp)] })

/-- Module STATUS (Table 11-12). -/
def State.bStatus (s : State) (m p : Nat) : Bytes :=
  let b := s.bridge m
  let ver := (s.linkEnd (portEnd m p)).ver
  let other := (s.linkEnd (portEnd m (1 - p))).state == lActive
  le (2 ^ b.dies - 1) 8 ++ le (sumL (b.failed.map (fun d => 2 ^ d))) 8 ++ le (setBit b.flags 4 other) 1 ++ le (if 3 ≤ ver then b.temp else 0) 1
    ++ le (if 3 ≤ ver then b.life else 0) 2 ++ zeros 12

/-- JONAN_STATUS (R439, Table 11-12): die or module status. -/
def execJonanStatus (m : Fin 64) (port : Fin 2) (h : JHdr) (tag : Fin 4096) (tgen : Fin 16) (die : Fin 4096) (s : State) : Host.Outcome State Fault Refusal :=
  match s.bTake m.val port.val h tag.val tgen.val die.val opStatus with
  | (false, s) => .next s
  | (true, s) =>
    let s := s.freeCred (portEnd m.val port.val) h.got
    let b := s.bridge m.val
    let ans := fun (st : Nat) (p : Bytes) => s.bAnswer m.val port.val tag.val tgen.val die.val opStatus st 0 p
    if die.val = 0xFFF then .next (ans stOk (s.bStatus m.val port.val))
    else if die.val < b.dies then
      let busy := b.ops.any (fun o => o.die == die.val && o.started)
      .next (ans stOk (le (cgenOf b die.val) 4 ++ le (ownerOf b die.val + 4 * b2n busy + 8 * b2n (b.failed.contains die.val)) 1 ++ zeros 3))
    else .next (ans stBadDie [])

/-- A parameter page (R439): page 0 with the version range, die count, planes, block addresses and wordlines; the other bytes
are the bridge's own. -/
def State.paramPage (s : State) (m die page : Nat) : Bytes :=
  let b := s.bridge m
  let raw := fun (n : Nat) (pg : Nat) => (List.range n).map (fun i => Config.paramByte m pg i)
  if page = 0 then putAt (raw 47 0 ++ zeros 209) 24 (le (b.verLo + 16 * b.verHi) 1 ++ le b.dies 1 ++ le 4 1 ++ le b.blocks 2 ++ le 64 1)
  else if page = 1 then raw 128 (1 + 256 * die)
  else raw 256 2

/-- PARAM (R431, R439). -/
def execParamCmd (m : Fin 64) (port : Fin 2) (h : JHdr) (tag : Fin 4096) (tgen : Fin 16) (die : Fin 4096) (page : BitVec 32) (s : State) :
    Host.Outcome State Fault Refusal :=
  match s.bTake m.val port.val h tag.val tgen.val die.val opParam with
  | (false, s) => .next s
  | (true, s) =>
    let s := s.freeCred (portEnd m.val port.val) h.got
    let ver := (s.linkEnd (portEnd m.val port.val)).ver
    let pg := page.toNat
    let ans := fun (st : Nat) (p : Bytes) => s.bAnswer m.val port.val tag.val tgen.val die.val opParam st 0 p
    if 2 < pg ∨ (pg = 2 ∧ ver < 3) then .next (ans stBadOp [])
    else if pg = 1 ∧ (s.bridge m.val).dies ≤ die.val then .next (ans stBadDie [])
    else .next (ans stOk (s.paramPage m.val die.val pg))

/-! ## Claims (R445 to R448) -/

/-- Dies a CLAIM names: the mask bits below the die count. -/
def namedDies (b : Bridge) (mask : Nat) : List Nat := onesBelow mask (min b.dies 64)

/-- A claim, or a release, is accepted for every named die (R447). -/
def claimOk (b : Bridge) (head gen : Nat) (rel : Bool) (ds : List Nat) : Bool :=
  if rel then ds.all (fun d => ownerOf b d == head || ownerOf b d == 3)
  else ds.all (fun d => decide (cgenOf b d < gen) || (cgenOf b d == gen && ownerOf b d == head))

/-- An accepted claim changes owner and CGEN of every named die; a release changes the owner alone (R447). -/
def claimSet (b : Bridge) (head gen : Nat) (rel : Bool) (ds : List Nat) : Bridge :=
  if rel then { b with owner := ds.foldl (fun o d => adel o d) b.owner }
  else { b with owner := ds.foldl (fun o d => aset o d head) b.owner, cgen := ds.foldl (fun c d => aset c d gen) b.cgen }

/-- CLAIM and its release form: changed at once for every named die, or refused at once with STALE_CLAIM; the answer to an
accepted one waits for started operations (R447, R448). -/
def State.bClaim (s : State) (m p : Nat) (h : JHdr) (tag tgen gen mask : Nat) (rel : Bool) : State :=
  match s.bTake m p h tag tgen 0xFFF opClaim with
  | (false, s) => s
  | (true, s) =>
    let s := s.freeCred (portEnd m p) h.got
    let b := s.bridge m
    let ds := namedDies b mask
    let top := fun (b : Bridge) => maxL (ds.map (fun d => cgenOf b d))
    if claimOk b (s.portHead m p) gen rel ds then
      let b := claimSet b (s.portHead m p) gen rel ds
      s.setBridge m { b with ops := b.ops ++ [({ port := p, tag := tag, tgen := tgen, op := opClaim, die := 0xFFF, mask := sumL (ds.map (fun d => 2 ^ d)), gen := top b } : BOp)] }
    else s.bAnswer m p tag tgen 0xFFF opClaim stStale (top b) []

/-- CLAIM (R447, R448). -/
def execClaim (m : Fin 64) (port : Fin 2) (h : JHdr) (tag : Fin 4096) (tgen : Fin 16) (gen : BitVec 32) (mask : BitVec 64) (s : State) :
    Host.Outcome State Fault Refusal := .next (s.bClaim m.val port.val h tag.val tgen.val gen.toNat mask.toNat false)

/-- CLAIM_RELEASE (R447, R448). -/
def execClaimRelease (m : Fin 64) (port : Fin 2) (h : JHdr) (tag : Fin 4096) (tgen : Fin 16) (gen : BitVec 32) (mask : BitVec 64) (s : State) :
    Host.Outcome State Fault Refusal := .next (s.bClaim m.val port.val h tag.val tgen.val gen.toNat mask.toNat true)

/-- A started program or erase acts on a die of a claim (R448). -/
def claimWaits (b : Bridge) (o : BOp) : Bool := b.ops.any (fun x => x.started && (x.op == opProgram || x.op == opErase) && bit o.mask x.die)

/-- Answer the accepted claims that nothing started holds up (R448). -/
def State.answerClaims (s : State) (m : Nat) : State :=
  let b := s.bridge m
  let go := b.ops.filter (fun o => o.op == opClaim && !claimWaits b o)
  go.foldl (fun s o => s.bAnswer m o.port o.tag o.tgen 0xFFF opClaim stOk o.gen []) (s.setBridge m { b with ops := b.ops.filter (fun o => !(o.op == opClaim && !claimWaits b o)) })

/-- CLAIM_ANSWER (R448). -/
def execClaimAnswer (m : Fin 64) (s : State) : Host.Outcome State Fault Refusal := .next (s.answerClaims m.val)

/-! ## Dies (R432, R443 to R446) -/

/-- BRIDGE_OP_START (R432, R443, R444, R446): a complete program or an erase starts on its free die, or is answered OWNER or
PROG_ORDER without touching it. -/
def execBridgeOpStart (m : Fin 64) (port : Fin 2) (tag : Fin 4096) (s : State) : Host.Outcome State Fault Refusal :=
  let b := s.bridge m.val
  match b.ops.find? (fun o => o.port == port.val && o.tag == tag.val && !o.started && (o.op == opProgram || o.op == opErase)) with
  | none => .next s
  | some o =>
    let free := !b.ops.any (fun x => x.started && x.die == o.die && x != o && x.op != opClaim)
    if o.pages < o.want ∨ free = false then .next s
    else
      let drop := { b with ops := b.ops.filter (fun x => x != o) }
      let wl := if addrQlc o.addr then addrPage o.addr / 4 else addrPage o.addr
      let k := o.die * 8192 + addrBlock o.addr
      if ownerOf b o.die ≠ s.portHead m.val port.val then .next ((s.setBridge m.val drop).bAnswer m.val o.port o.tag o.tgen o.die o.op stOwner 0 [])
      else if o.op = opProgram ∧ wl + 1 < agetD b.wl k 0 then .next ((s.setBridge m.val drop).bAnswer m.val o.port o.tag o.tgen o.die o.op stProgOrder 0 [])
      else
        .next (s.setBridge m.val { b with ops := b.ops.map (fun x => if x == o then { x with started := true } else x)
                                          wl := if o.op = opProgram then aset b.wl k (wl + 1) else adel b.wl k })

/-- DIE_OPERATION_DONE (R432, R443, R448): a read, program or erase ends on its die; the bridge answers it, an erase it had
suspended goes on, a waiting read starts, and claims nothing holds up any more are answered. data: a read's codewords. -/
def execDieOperationDone (m : Fin 64) (port : Fin 2) (tag : Fin 4096) (status : Fin 256) (data : Bytes) (s : State) : Host.Outcome State Fault Refusal :=
  let b := s.bridge m.val
  match b.ops.find? (fun o => o.port == port.val && o.tag == tag.val && o.started && o.op != opClaim) with
  | none => .next s
  | some o =>
    let rest := b.ops.filter (fun x => x != o)
    let reads := rest.any (fun x => x.op == opRead && x.die == o.die && x.started)
    let next_ := rest.map (fun x =>
      if x.die = o.die ∧ x.op = opErase ∧ x.susp = true ∧ reads = false then { x with susp := false }
      else if x.die = o.die ∧ x.op = opRead ∧ x.started = false then { x with started := true }
      else x)
    let b' := { b with ops := next_, failed := if status.val = stDieFail ∧ !b.failed.contains o.die then b.failed ++ [o.die] else b.failed }
    let s := s.setBridge m.val b'
    let s := if o.op = opRead then s.freeCred (portEnd m.val o.port) o.cred else s
    let s := s.bAnswer m.val o.port o.tag o.tgen o.die o.op status.val 0 (if o.op = opRead ∧ status.val = 0 then data else [])
    .next (s.answerClaims m.val)

/-! ## Witness registers (R450) -/

/-- The 32 bytes of a witness register with its AGE (Table 11-13). -/
def witBytes (w : Witness) (now : Nat) : Bytes :=
  w.bytes ++ le (match w.at0 with | some t => min 0xFFFFFFFF ((now - t) / 1000000) | none => 0xFFFFFFFF) 4 ++ zeros 4

/-- WITNESS_WRITE (R450): the port's own register takes the 24 bytes at once. -/
def execWitnessWrite (m : Fin 64) (port : Fin 2) (h : JHdr) (tag : Fin 4096) (tgen : Fin 16) (data : Bytes) (s : State) : Host.Outcome State Fault Refusal :=
  match s.bTake m.val port.val h tag.val tgen.val 0xFFF opWitness with
  | (false, s) => .next s
  | (true, s) =>
    let s := s.freeCred (portEnd m.val port.val) h.got
    let w : Witness := { bytes := padTo 24 data, at0 := some s.now }
    let s := s.updBridge m.val (fun b => if port.val = 0 then { b with wit0 := w } else { b with wit1 := w })
    .next (s.bAnswer m.val port.val tag.val tgen.val 0xFFF opWitness stOk 0 [])

/-- WITNESS_READ (R450): both registers, register 0 first. -/
def execWitnessRead (m : Fin 64) (port : Fin 2) (h : JHdr) (tag : Fin 4096) (tgen : Fin 16) (s : State) : Host.Outcome State Fault Refusal :=
  match s.bTake m.val port.val h tag.val tgen.val 0xFFF opWitness with
  | (false, s) => .next s
  | (true, s) =>
    let s := s.freeCred (portEnd m.val port.val) h.got
    let b := s.bridge m.val
    .next (s.bAnswer m.val port.val tag.val tgen.val 0xFFF opWitness stOk 0 (witBytes b.wit0 s.now ++ witBytes b.wit1 s.now))

end Sys2Proof.Machine
end

