-- ==== Sys2Proof/Machine/Carid.lean ====
section
/-! DEFINITION. Carid messages of the MIRROR, DELTA, HEARTBEAT and FORWARD channels, and the application of the partner's groups (R132, R242 to R245, R271, R283, R473 to R488). -/
namespace Sys2Proof.Machine

/-! ## Tokens (R477) -/

/-- Index and generation of a token. -/
def tokIdx (t : Nat) : Nat := t % 16777216
def tokGen (t : Nat) : Nat := t / 16777216 % 256

/-- This head's tokens count up with its commands, so the generation last given to an index is that of the highest
token below the next one (R477). -/
def State.ownTokCurrent (s : State) (t : Nat) : Bool :=
  decide (tokIdx t ≤ s.io.nextOp) && tokGen t == (s.io.nextOp - tokIdx t) / 16777216 % 256

/-- The command of this head that a mirror token of the partner's answer names. -/
def State.byTxn (s : State) (t : Nat) : Option (Nat × IoCmd) := s.io.cmds.find? (fun e => e.2.txn != 0 && e.2.txn % 2 ^ 32 == t)

/-- The command that a FORWARD token names: this head's own, or one the partner forwarded. -/
def State.byTok (s : State) (t : Nat) (mine : Bool) : Option (Nat × IoCmd) :=
  s.io.cmds.find? (fun e => e.2.tok % 2 ^ 32 == t && (if mine then e.2.fwd else e.2.fromPartner))

/-- A stamp received from the partner raises the floor (R102, R125). -/
def State.heard (s : State) (o : Nat) : State := { s.raiseFloor o with mpe := { s.mpe with pTop := max s.mpe.pTop o } }

/-- A mode in which the partner's MIRROR and DELTA traffic is taken (Table 2-1, R497). -/
def takesMirror (m : Sys2Proof.Mode) : Bool := m == .paired || m == .joining || m == .handover

/-! ## MIRROR (R242, R243, R475, R476) -/

/-- Bytes of the Sideboard that are usable (R43). -/
def State.sbSize (s : State) : Nat := nthD s.dram.regions 1 0

/-- A token of the partner may carry grains: its generation is current, or is the next one of its index (R477). -/
def State.tokFresh (s : State) (t : Nat) : Bool :=
  match aget s.cpl.mGen (tokIdx t) with
  | some g => tokGen t == g || tokGen t == (g + 1) % 256
  | none => true

/-- The generation of a token of the partner is current. -/
def State.tokKnown (s : State) (t : Nat) : Bool := aget s.cpl.mGen (tokIdx t) == some (tokGen t)

/-- Write the grains of a GRAIN frame into the Sideboard, and answer RCPT once all of the command's grains are there; a slot
at or beyond the usable size is answered with RANGE, and nothing of the token is written (R475). -/
def State.takeGrains (s : State) (t gcnt : Nat) (gs : List MGrain) : State :=
  let s := s.updCpl (fun c => { c with mGen := aset c.mGen (tokIdx t) (tokGen t), mBad := if aget c.mGen (tokIdx t) = some (tokGen t) then c.mBad else c.mBad.filter (fun x => tokIdx x != tokIdx t) })
  if s.cpl.mBad.contains t then s
  else if gs.any (fun g => decide (s.sbSize < (g.slot + 1) * 4096)) then
    let s := { s with io := { s.io with sb := s.io.sb.filter (fun e => e.txn != t) } }
    ((s.updCpl (fun c => { c with mBad := c.mBad ++ [t] })).raise Pg.CPL 8).sendC (.rcpt t true)
  else
    let was := (s.io.sb.filter (fun e => e.txn == t)).length
    let new_ := gs.map (fun g => ({ txn := t, slot := g.slot, slice := g.slice, ns := g.ns, gi := g.gi, data := if g.zero then zeros 4096 else g.data, tag := g.tag } : SbEnt))
    let s := { s with io := { s.io with sb := s.io.sb.filter (fun e => !gs.any (fun g => g.slot == e.slot)) ++ new_ } }
    let now_ := (s.io.sb.filter (fun e => e.txn == t)).length
    if was < gcnt ∧ gcnt ≤ now_ then s.sendC (.rcpt t false) else s

/-- The grains of a frame whose slice handles are current are taken; each of the others is discarded and counted (R172). -/
def State.takeLive (s : State) (t gcnt : Nat) (gs : List MGrain) : State :=
  let stale := gs.filter (fun g => g.slice != 0xFFFFF && !s.handleOk g.slice)
  stale.foldl (fun s _ => s.staleHandle) (s.takeGrains t gcnt (gs.filter (fun g => g.slice == 0xFFFFF || s.handleOk g.slice)))

/-- GRAIN (R172, R242, R473 to R475, R477). -/
def execGrain (h : CHdr) (mtok gcnt : Nat) (gs : List MGrain) (s : State) : Host.Outcome State Fault Refusal :=
  match s.cRecv cMirror h with
  | (false, s) => .next s
  | (true, s) =>
    if !takesMirror s.mode then .next s
    else if s.tokFresh mtok then .next (s.takeLive mtok gcnt gs)
    else .next s.staleTok

/-- One receipt: the partner holds the grains of a command, or RANGE fails it (R242, R475). -/
def State.rcptOne (s : State) (e : Nat × Bool) : State :=
  match s.byTxn e.1 with
  | some (op, _) =>
    if e.2 then (s.failWrite op 0 0x06 false).pumpGrains
    else (s.updCmd op (fun c => { c with grains := c.grains.map (fun g => { g with rcpt := true }) })).commitWait op
  | none => if s.ownTokCurrent e.1 then s else s.staleTok

/-- RCPT (R242, R245, R475): the partner holds the grains of a command; RANGE fails the command with Internal Error. -/
def execRcpt (h : CHdr) (es : List (Nat × Bool)) (s : State) : Host.Outcome State Fault Refusal :=
  match s.cRecv cMirror h with
  | (false, s) => .next s
  | (true, s) =>
    .next (es.foldl (fun s e => s.rcptOne e) s).settle

/-- BIND (R243, R476): the group's OSTAMP is recorded against the grains, in place of an earlier one, and acknowledged. -/
def execBind (h : CHdr) (mtok ostamp : Nat) (s : State) : Host.Outcome State Fault Refusal :=
  match s.cRecv cMirror h with
  | (false, s) => .next s
  | (true, s) =>
    if !takesMirror s.mode then .next s
    else if s.tokKnown mtok then
      .next (({ s.heard ostamp with io := { s.io with sb := s.io.sb.map (fun (e : SbEnt) => if e.txn = mtok then { e with ostamp := some ostamp } else e) } }).sendC (.bindAck mtok))
    else .next s.staleTok

/-- BIND_ACK (R245). -/
def execBindAck (h : CHdr) (mtok : Nat) (s : State) : Host.Outcome State Fault Refusal :=
  match s.cRecv cMirror h with
  | (false, s) => .next s
  | (true, s) =>
    match s.byTxn mtok with
    | some (op, _) => .next (((s.updCmd op (fun c => { c with bound := true })).commitWait op).settle)
    | none => .next (if s.ownTokCurrent mtok then s else s.staleTok)

/-- FREE (R246, R476): Sideboard slots are released. -/
def execFreeCmd (h : CHdr) (slots : List Nat) (s : State) : Host.Outcome State Fault Refusal :=
  match s.cRecv cMirror h with
  | (false, s) => .next s
  | (true, s) => if takesMirror s.mode then .next { s with io := { s.io with sb := s.io.sb.filter (fun e => !slots.contains e.slot) } } else .next s

/-- CANCEL (R476): the slots of a command that failed before its group was stamped are released. -/
def execCancelCmd (h : CHdr) (mtok : Nat) (s : State) : Host.Outcome State Fault Refusal :=
  match s.cRecv cMirror h with
  | (false, s) => .next s
  | (true, s) =>
    if !takesMirror s.mode then .next s
    else if s.tokKnown mtok then .next { s with io := { s.io with sb := s.io.sb.filter (fun e => e.txn != mtok) } }
    else .next s.staleTok

/-! ## DELTA: records and horizons (R102, R122, R132, R283, R478) -/

/-- RECS (R122, R478): records of one lane, in enqueue order, into the journal delta buffer. -/
def execRecs (h : CHdr) (lane : Fin 32) (rs : List JRec) (s : State) : Host.Outcome State Fault Refusal :=
  match s.cRecv cDelta h with
  | (false, s) => .next s
  | (true, s) =>
    if !takesMirror s.mode then .next s
    else
      let top := maxL (rs.map (fun r => r.ostamp))
      let s := { s with mpe := { s.mpe with delta := s.mpe.delta ++ rs, pHor := aset s.mpe.pHor lane.val (max top (agetD s.mpe.pHor lane.val 0)) } }
      .next (s.heard top)

/-- One idle lane of the partner advances (R478). -/
def State.horizonOne (s : State) (l : Nat × Nat) : State :=
  { s with mpe := { s.mpe with pHor := aset s.mpe.pHor (l.1 % 32) (max l.2 (agetD s.mpe.pHor (l.1 % 32) 0)) } }.heard l.2

/-- HORIZON (R132, R478): idle lanes of the partner advance. -/
def execHorizon (h : CHdr) (ls : List (Nat × Nat)) (s : State) : Host.Outcome State Fault Refusal :=
  match s.cRecv cDelta h with
  | (false, s) => .next s
  | (true, s) =>
    if !takesMirror s.mode then .next s
    else .next (ls.foldl (fun s l => s.horizonOne l) s)

/-- The records of a group held in the delta buffer, in GRPIDX order. -/
def State.deltaGroup (s : State) (o : Nat) : List JRec := sortKey (fun r => r.idx) (s.mpe.delta.filter (fun r => r.ostamp == o))

/-- Every record of a group is there (R122). -/
def groupWhole (g : List JRec) : Bool :=
  match g with
  | r :: _ => g.map (fun x => x.idx) == List.range r.cnt
  | [] => false

/-- A group that must apply in OSTAMP order (R283): it carries MAP_SET, MAP_PAGE, EPOCH or NS. -/
def orderedGroup (g : List JRec) : Bool := g.any (fun r => r.typ == tMapSet || r.typ == tMapPage || r.typ == tEpoch || r.typ == tNs)

/-- Types of class SET (Table 3-8). -/
def setType (t : Nat) : Bool := t == tMapSet || decide (tSegState ≤ t ∧ t ≤ tMove)

/-- A whole group may apply now (R117, R283): a map group only after every lower one, and once every lane of the partner has
passed it; a SET record only after every lower one of its target. -/
def State.mayApply (s : State) (o : Nat) : Bool :=
  let g := s.deltaGroup o
  groupWhole g &&
  (!orderedGroup g ||
    ((List.range 32).all (fun l => decide (o ≤ agetD s.mpe.pHor l 0)) &&
      s.mpe.delta.all (fun r => decide (o ≤ r.ostamp) || !orderedGroup (s.deltaGroup r.ostamp)))) &&
  s.mpe.delta.all (fun r => decide (o ≤ r.ostamp) || !setType r.typ || !g.any (fun x => x.typ == r.typ && x.target == r.target))

/-- Where a segment that the partner opened lies, as its first tile header gives it (R335): segment, pool, D, BASEGEN, row. -/
abbrev SegGeo := Nat × Nat × Nat × Nat × Nat

/-- Take the geometry of segments from their tile headers. -/
def State.takeGeo (s : State) (geo : List SegGeo) : State :=
  geo.foldl (fun s g => s.setSeg g.1 { s.seg g.1 with pool := g.2.1, d := g.2.2.1, basegen := g.2.2.2.1, row := g.2.2.2.2 }) s

/-- Take layout descriptors as their chunks on media give them (R331): LAYGEN × 4 + pool. -/
def State.takeLay (s : State) (lay : List (Nat × Pool)) : State :=
  lay.foldl (fun s l => { s with maps := { s.maps with layNext := aset s.maps.layNext l.1 l.2 } }) s

/-- Slices that a group has put into RESET, or removed: this head closes their queue pairs too (R186, R187). -/
def State.resetByPartner (s : State) (g : List JRec) : State :=
  (g.filter (fun r => r.typ == tSlice && (sdState r.new == 5 || sdState r.new == 0))).foldl (fun s r => s.resetSlice (r.target % 2 ^ 20)) s

/-- Apply a group of the delta buffer, and forget its records. -/
def State.applyDelta (s : State) (o : Nat) (geo : List SegGeo) (lay : List (Nat × Pool)) (dir : List (Nat × Nat × Nat)) : State :=
  let g := s.deltaGroup o
  let s := { s with mpe := { s.mpe with delta := s.mpe.delta.filter (fun r => r.ostamp != o) } }
  match (s.takeLay lay).applyGroup g with
  | some s =>
    let s := (((s.takeGeo geo).resetByPartner g).wcRelease s.wcDone).releaseAll
    (g.filter (fun r => r.typ == tCheckpoint)).foldl (fun s r => s.ckptAdopt r.target r.new dir) s
  | none => { s with mpe := { s.mpe with cntFail := s.mpe.cntFail + 1 } }

/-- PARTNER_GROUP_APPLY (R122 to R124, R283): geo, lay and dir are what the tile headers, the layout chunks and the checkpoint directory the
group names hold on media. -/
def execPartnerGroupApply (ostamp : Nat) (geo : List (Nat × Nat × Nat × Nat × Nat)) (lay : List (Nat × Pool)) (s : State)
    (dir : List (Nat × Nat × Nat) := []) : Host.Outcome State Fault Refusal :=
  if takesMirror s.mode && (s.mode != .joining || s.cpl.loaded) && s.mayApply ostamp then .next (s.applyDelta ostamp geo lay dir).settle else .next s

/-- Applied horizon of a lane of the partner at this head (R132): below the first record of it not yet applied, one of a held group among
them (R287). -/
def State.appHorizon (s : State) (l : Nat) : Nat :=
  match ((s.mpe.delta ++ s.mpe.held.flatten).filter (fun r => r.lane == l && r.head != s.head)).map (fun r => r.ostamp) with
  | [] => agetD s.mpe.pHor l 0
  | o :: t => minL o (o :: t) - 1

/-- LACK_TICK (R479): every LACK_US µs. PTSEQ is the number of the last change applied, and 2⁶⁴ − 1 where none is (log 99). -/
def execLackTick (s : State) : Host.Outcome State Fault Refusal :=
  if !s.caridUp || !(takesMirror s.mode || s.mirrors) || s.now < s.cpl.lackAt + s.rf R.CPL.CFG2.LACK_US * 1000 then .next s
  else
    let s := s.updCpl (fun c => { c with lackAt := s.now })
    .next (s.sendC (.lack s.estamp ((s.fmm.ptIn + 2 ^ 64 - 1) % 2 ^ 64) ((List.range 32).map s.appHorizon) ((List.range 32).map s.durHorizon)))

/-- The partner shows a group of this head as applied: every lane that carries one of its records has passed it (R479). -/
def State.shownApplied (s : State) (o : Nat) (lanes : List Nat) : Bool :=
  lanes.all (fun l => decide (o ≤ agetD s.mpe.pApp (s.head * 32 + l) 0))

/-- Lanes that carry records of a group this head issued. -/
def State.lanesOf (s : State) (o : Nat) : List Nat :=
  ((s.mpe.hist.find? (fun g => match g with | r :: _ => r.ostamp == o | [] => false)).getD []).map (fun r => r.lane)

/-- Give the a of R271 to the records that wait for it. -/
def State.noteA (s : State) (p : Nat) : State :=
  { s with mpe := { s.mpe with frees := s.mpe.frees.map (fun (w : FreeWait) =>
      if w.a.isSome then w
      else if w.ownZ then (if s.shownApplied w.z (s.lanesOf w.z) then { w with a := some p } else w)
      else if phys w.z < p then { w with a := some p } else w) } }

/-- LACK (R271, R386, R403, R404, R479). -/
def execLack (h : CHdr) (physAt ptSeq : Nat) (applied durable : List Nat) (s : State) : Host.Outcome State Fault Refusal :=
  match s.cRecv cDelta h with
  | (false, s) => .next s
  | (true, s) =>
    let app := applied.zipIdx.foldl (fun (m : AMap Nat) p => aset m (s.head * 32 + p.2 % 32) p.1) s.mpe.pApp
    let dur := durable.zipIdx.foldl (fun (m : AMap Nat) p => aset m (p.2 % 32) p.1) s.mpe.pDur
    let s := { s with mpe := { s.mpe with pApp := app, pDur := dur }, fmm := { s.fmm with ptAck := max s.fmm.ptAck ((ptSeq + 1) % 2 ^ 64) } }
    .next (s.noteA physAt)

/-- PT (R386, R480): page-table changes apply in PTSEQ order; seq is the number of the frame's first change (log 99). -/
def execPt (h : CHdr) (seq : Nat) (es : List (Nat × Nat)) (s : State) : Host.Outcome State Fault Refusal :=
  match s.cRecv cDelta h with
  | (false, s) => .next s
  | (true, s) =>
    if !takesMirror s.mode then .next s
    else .next { s with fmm := { s.fmm with pt := es.foldl (fun (m : AMap Nat) e => sput (fun _ => 0) m e.1 e.2) s.fmm.pt, ptIn := max s.fmm.ptIn (seq + es.length) } }

/-- HFC_HINT (R227, R481). -/
def execHfcHint (h : CHdr) (es : List HfcEnt) (s : State) : Host.Outcome State Fault Refusal :=
  match s.cRecv cDelta h with
  | (false, s) => .next s
  | (true, s) => if s.rf R.CPL.LINK_STAT.VER < 4 then .next s else .next (es.foldl (fun s e => s.hfcPut e.cid e.gen e.fp) s)

/-! ## Heartbeat (R63, R64, R487, R488) -/

/-- A head sends HEARTBEAT in every mode but BOOT, SERVICE, ISOLATED and VAULT, unless R63 or R498 has stopped it. -/
def State.beats (s : State) : Bool :=
  !(s.mode == .boot || s.mode == .service || s.mode == .isolated || s.mode == .vault) && !s.bsv.silent

/-- FLAGS of a HEARTBEAT: lead, Tether reference, yielding. -/
def State.hbFlagsNow (s : State) : Nat := b2n s.lead + 2 * b2n (!s.flag R.TBS.STAT.ROLE) + 4 * b2n s.bsv.silent

/-- HEARTBEAT_TICK (R487): every HB_US µs while Carid is ACTIVE. -/
def execHeartbeatTick (s : State) : Host.Outcome State Fault Refusal :=
  if s.rf R.CPL.LINK_STAT.STATE = lActive ∧ s.beats = true ∧ s.cpl.hbSent + s.rf R.CPL.CFG2.HB_US * 1000 ≤ s.now then
    let s := s.updCpl (fun c => { c with hbSeq := c.hbSeq + 1, hbSent := s.now })
    .next (s.sendC (.heartbeat s.cpl.hbSeq s.estamp (modeCode s.mode) s.hbFlagsNow s.jlk.gen))
  else .next s

/-- HEARTBEAT (R64, R449, R487): a valid one records the partner's liveness, mode and generation. A head in HANDOVER sees the
partner's claim of its dies by the generation it names. -/
def execHeartbeat (h : CHdr) (seq _estamp mode flags gen : Nat) (s : State) : Host.Outcome State Fault Refusal :=
  match s.cRecv cHeart h with
  | (false, s) => .next s
  | (true, s) =>
    let claimed := s.mode == .handover && decide (s.jlk.gen < gen)
    let s := s.updCpl (fun c => { c with hbAt := some s.now, hbMode := mode % 256, hbFlags := flags % 256, hbPSeq := max seq c.hbPSeq, hoClaimed := c.hoClaimed || claimed })
    .next (s.noteGen gen)

/-- A valid HEARTBEAT arrived within the last 10 ms. -/
def State.hbRecent (s : State) : Bool := match s.cpl.hbAt with | some t => decide (s.now < t + 10000000) | none => false

/-- The partner's witness changed on some present module within a time (R64, R451). -/
def State.witRecent (s : State) (ns : Nat) : Bool :=
  s.jlk.witSeen.any (fun e => !s.absent e.1 && decide (0 < e.2.2) && decide (s.now < e.2.2 + ns))

/-- SPLIT_YIELD (R63, R488): Carid is down or silent while the partner's witness has kept changing for SPLIT_MS; the head with
fewer usable lanes, or head 1 among equals, yields. -/
def execSplitYield (s : State) : Host.Outcome State Fault Refusal :=
  let split := s.mode == .paired && (decide (s.rf R.CPL.LINK_STAT.STATE ≠ lActive) || !s.hbRecent) && s.witRecent 20000000
  if !split then .next (s.updCpl (fun c => { c with splitAt := none }))
  else
    match s.cpl.splitAt with
    | none => .next (s.updCpl (fun c => { c with splitAt := some s.now }))
    | some t =>
      let mine := s.ownHello.lanes
      let yields := decide (mine < s.cpl.pLanes) || (mine == s.cpl.pLanes && s.head == 1)
      if t + s.rf R.CPL.CFG.SPLIT_MS * 1000000 ≤ s.now ∧ yields = true ∧ s.bsv.silent = false then .next (s.raise Pg.CPL 5).settle else .next s

/-! ## FORWARD (R482 to R485) -/

/-- Bytes of host data a forwarded command brings. -/
def State.fwdBytes (s : State) (f : FwdCmd) : Nat :=
  if f.opc = oWrite ∨ f.opc = oCompare then f.nlb * wireSize (s.lbafOf f.ns) else if isResv f.opc then 32 else 0

/-- FORWARD_CMD (R172, R482): the owner carries the command out without the checks of R157 and without tokens. -/
def execForwardCmd (h : CHdr) (tok slice : Nat) (f : FwdCmd) (data : Bytes) (s : State) : Host.Outcome State Fault Refusal :=
  match s.cRecv cForward h with
  | (false, s) => .next s
  | (true, s) =>
    if !serving s.mode then .next s
    else if !s.handleOk slice then .next s.staleHandle
    else
      let need := s.fwdBytes f
      let c : IoCmd := { conn := none, cid := 0, opc := f.opc, slice := slice, ns := f.ns, slba := f.slba, nlb := f.nlb, pract := f.pract, lbat := f.lbat
                         stage := .data, at0 := s.now, need := need, asked := need, recvd := data.length, data := padTo need (data.take need)
                         tok := tok, fromPartner := true, ranges := f.ranges, deac := f.deac }
      let (op, s) := s.insertCmd c
      if need ≤ data.length then .next (s.carryOut op) else .next s

/-- WDATA (R482): write data at an offset; with all of it here the command is carried out. -/
def execWdata (h : CHdr) (tok off : Nat) (data : Bytes) (s : State) : Host.Outcome State Fault Refusal :=
  match s.cRecv cForward h with
  | (false, s) => .next s
  | (true, s) =>
    match s.byTok tok false with
    | none => .next s.staleTok
    | some (op, _) =>
      let s := s.updCmd op (fun c => { c with data := (c.data.take off ++ data ++ c.data.drop (off + data.length)).take c.need, recvd := c.recvd + data.length })
      match aget s.io.cmds op with
      | some c => if c.stage = .data ∧ c.need ≤ c.recvd then .next (s.carryOut op) else .next s
      | none => .next s

/-- RDATA (R155, R301, R483): a verified grain of a forwarded Read goes to the host. -/
def execRdata (h : CHdr) (tok off tag : Nat) (data : Bytes) (s : State) : Host.Outcome State Fault Refusal :=
  match s.cRecv cForward h with
  | (false, s) => .next s
  | (true, s) =>
    match s.byTok tok true with
    | none => .next s.staleTok
    | some (op, c) =>
      match (grainSpan (s.lbafOf c.ns) c.slba c.nlb)[off / 4096]? with
      | none => .next s
      | some p =>
        let i := c.reads.length
        let g : RdGrain := { gi := p.1, sec := p.2.1, nsec := p.2.2, clen := 256, data := data, tag := tag, done := true }
        let s := (s.updCmd op (fun c => { c with reads := c.reads ++ [g] })).piReads op
        match s.readAt op i with
        | some (_, g) => .next (if g.fail.isNone then s.sendGrain op i else s)
        | none => .next s

/-- DONE (R116, R150, R483): a reservation is changed here as the owner has changed it, or the other head has followed; a forwarded command that changed something completes after commit wait for the owner's OSTAMP. -/
def execDone (h : CHdr) (tok sct sc : Nat) (dnr : Bool) (ostamp : Nat) (s : State) : Host.Outcome State Fault Refusal :=
  match s.cRecv cForward h with
  | (false, s) => .next s
  | (true, s) =>
    match s.byTok tok true with
    | none => .next s.staleTok
    | some (op, c) =>
      let s := if ostamp = 0 then s else s.heard ostamp
      if isResv c.opc && c.stage == Stage.stamped then .next (((s.updCmd op (fun c => { c with bound := true })).commitWait op).settle)
      else if sct ≠ 0 ∨ sc ≠ 0 then .next (s.failCmd op sct sc dnr c.slba).settle
      else
        match lowestFail c with
        | some (g, st, d) => .next (s.failCmd op (st / 256) (st % 256) d (lbaOfGrain (s.lbafOf c.ns) g.gi)).settle
        | none =>
          let s := if isResv c.opc then (s.resApply c.ns c.opc c.lbat c.data).2 else s
          if ostamp = 0 then .next (s.doneCmd op).settle
          else .next (((s.updCmd op (fun c => { c with stage := Stage.stamped, ostamp := ostamp })).commitWait op).settle)

/-- FORWARD_ABORT (R484): honoured only before the command's data transfer has begun; the owner then answers DONE with
Command Abort Requested. -/
def execForwardAbort (h : CHdr) (tok : Nat) (s : State) : Host.Outcome State Fault Refusal :=
  match s.cRecv cForward h with
  | (false, s) => .next s
  | (true, s) =>
    match s.byTok tok false with
    | none => .next s.staleTok
    | some (op, c) =>
      let begun := decide (c.recvd ≠ 0) || c.reads.any (fun g => g.sent) || c.stage == .stamped || decide (c.doneN ≠ 0)
        || (c.stage == .active && writes c.opc)
      if begun then .next s else .next ((s.dropCmd op).sendC (.fwdDone tok 0 0x07 false 0 0)).settle

end Sys2Proof.Machine
end

