-- ==== Sys2Proof/Machine/SecBoot.lean ====
section
/-! DEFINITION. Key blobs, the device root key and the identity key as SEC finds them at BOOT (R548, R549, R561, R564). -/
namespace Sys2Proof.Machine

/-- Bytes from SEC's random source (R554). -/
def State.randomBytes : Nat → State → Bytes × State
  | 0, s => ([], s)
  | k + 1, s => let r := State.randomBytes k s.draw; (le (Config.random64 s.freeCtr) 8 ++ r.1, r.2)

/-- Header of a key blob (Table 14-5). -/
def blobHdr (kind eng wrap tslot klen : Nat) (kid : Bytes) : Bytes := le 1 2 ++ le (kind + 4 * eng) 1 ++ le wrap 1 ++ le tslot 2 ++ le klen 2 ++ padTo 8 kid

/-- The wrapping key of a header under an HMAC key (R549). -/
def blobWk (hk hdr : Bytes) : Bytes := hmac hk (ascii "ILVKW" ++ hdr)

/-- A key blob (R549). -/
def keyBlob (hk hdr key : Bytes) : Bytes := hdr ++ padTo 72 (kwWrap (blobWk hk hdr) key) ++ zeros 8

/-- The key in a blob, where KW's integrity check passes (R549). -/
def blobKey (hk blob : Bytes) : Option Bytes := kwUnwrap (blobWk hk (blob.take 16)) (slice blob 16 (leAt blob 6 2 + 8))

/-- Flash address of a copy of the identity seed blob (Tables 16-1, 16-2). -/
def seedAddr (copy : Nat) : Nat := 0x0F000000 + copy * 0x10000

/-- Header of the identity seed blob (R561). -/
def seedHdr : Bytes := blobHdr 0 1 0 0 64 (ascii "IDSEED")

/-- SEED and I of a copy of the seed blob. -/
def State.seedCopy (s : State) (drk : Bytes) (copy : Nat) : Option (Bytes × Bytes) :=
  let b := s.flLoad (seedAddr copy) 96
  if b.take 16 = seedHdr then (blobKey drk b).map (fun k => (k.take 32, slice k 32 16)) else none

/-- NEXT_Q and RESV as fuses and SRAM count give them (R563, R571). -/
def State.secShow (s : State) : State :=
  let n := if s.sec.block && decide (s.sec.used < 1024) then (s.fuses.reservation - 1) * 1024 + s.sec.used else s.fuses.reservation * 1024
  ((s.wf R.SEC.RESV.FUSES s.fuses.reservation).wf R.SEC.NEXT_Q.INDEX n).wf R.SEC.STAT.IDENTITY (b2n s.sec.ident.isSome)

/-- SEC at BOOT, once the fuses are loaded (R548, R564): DRK is derived and the identity seeds unwrapped. -/
def State.secBoot (s : State) : State :=
  let drk := hmac (le s.fuses.root 32) (ascii "ILV-DRK")
  let id := match s.seedCopy drk 0 with | some x => some x | none => s.seedCopy drk 1
  { s with sec := { s.sec with drk := some drk, ident := id } }.secShow

end Sys2Proof.Machine
end

