-- ==== Sys2Proof/Machine/Recover.lean ====
section
/-! DEFINITION. Recovery: page tables, journal and meter-log tiles as they are found on media, the checkpoint, and replay (R83, R131 to R135, R206, R270,
R290, R331, R335, R359, R388). -/
namespace Sys2Proof.Machine

/-! ## Page tables (R388) -/

/-- A copy of a logical page that recovery has found: its place in the page table, the generation it was written in, its entry, whether it
decodes, and its PSTAMP. -/
structure PageCopy where
  key    : Nat
  gen    : Nat
  ent    : Nat
  ok     : Bool
  pstamp : Nat

/-- Metadata of a codeword that decodes (R382). -/
def metaGood (b : Bytes) : Bool := b.length == 128 && crcOk 128 b

/-- What a wordline holds: segment, generation and mode, by its block's summary or else by its first codeword that decodes (R387, R388). -/
def wlHolds (w : FoundWl) : Option (Nat × Nat × Bool) :=
  match w.sum with
  | some e => if e % 2 ^ 25 = 0 then none else some (e % 2 ^ 25, fld e 25 8, bit e 38)
  | none => (w.cws.find? metaGood).map (fun b => (leAt b 0 4 % 2 ^ 25, leAt b 4 1, bit (leAt b 7 1) 0))

/-- The copies of pages a wordline gives (R380, R388). -/
def wlCopies (w : FoundWl) : List PageCopy :=
  match wlHolds w with
  | none => []
  | some (seg, gen, qlc) =>
    (List.range (if qlc then 16 else 4)).filterMap (fun p =>
      let cs := (w.cws.drop (p * 4)).take 4
      let ok := cs.length == 4 && cs.all metaGood
      if w.sum.isNone && !cs.any metaGood then none
      else some { key := ptKey w.m seg (p / 4) (p % 4), gen := gen, ent := mkPt w.die w.block (if qlc then 4 * w.wl + p / 4 else w.wl) qlc, ok := ok
                  pstamp := leAt (nthD cs 0 []) 0x0C 12 })

/-- The copy that is kept of two: the one that decodes, and of those the one with the higher PSTAMP (R388). -/
def betterCopy (a b : PageCopy) : PageCopy :=
  if a.ok && !b.ok then a else if b.ok && !a.ok then b else if a.pstamp < b.pstamp then b else a

/-- The page table that some copies give (R388). -/
def tableOf (l : List PageCopy) : AMap Nat :=
  (l.foldl (fun (m : AMap PageCopy) c => match aget m c.key with | some x => aset m c.key (betterCopy x c) | none => aset m c.key c) []).map
    (fun e => (e.1, e.2.ent))

/-! ## Tiles (R335, R337, R353, R358, R359) -/

/-- A tile read through a page table: module, segment of its wordline, tile position, its header, and its pages in order. -/
structure FoundTile where
  m     : Nat
  seg   : Nat
  q     : Nat
  head  : Bytes
  pages : List (Nat × Bytes)

/-- The tiles of a wordline whose header reads and which the page table names. -/
def wlTiles (pt : AMap Nat) (w : FoundWl) : List FoundTile :=
  match wlHolds w with
  | none => []
  | some (seg, _, qlc) =>
    (List.range (if qlc then 4 else 1)).filterMap (fun q =>
      let named := fun (p : Nat) => aget pt (ptKey w.m seg q p) == some (mkPt w.die w.block (if qlc then 4 * w.wl + q else w.wl) qlc)
      let ps := (List.range 4).filterMap (fun p => if named p then (aget w.pages (q * 4 + p)).map (fun b => (p, b)) else none)
      match aget ps 0 with
      | some b =>
        let h := b.take 64
        if b.length < 64 ∨ leAt h 0 4 ≠ 0x53474D54 ∨ crcOk 64 h = false then none else some { m := w.m, seg := seg, q := q, head := h, pages := ps }
      | none => none)

def tileKind (t : FoundTile) : Nat := leAt t.head 5 1

/-- The 64-byte slots of the pages of a journal tile after its header (R353). -/
def tileSlots (t : FoundTile) : List Bytes :=
  t.pages.flatMap (fun p => ((List.range (p.2.length / 64)).filter (fun i => p.1 != 0 || i != 0)).map (fun i => slice p.2 (i * 64) 64))

/-- The records of a journal tile whose CRC checks, on the lane its header gives (R133, R359). -/
def tileRecs (t : FoundTile) : List JRec :=
  let row := leAt t.head 0x10 2
  ((tileSlots t).filterMap jrParse).map (fun r => if r.typ = tPad then r else { r with head := row / 128 % 2, lane := row % 32 })

/-- Slots of a journal tile whose CRC fails (R133). -/
def tileBad (t : FoundTile) : Nat := ((tileSlots t).filter (fun b => (jrParse b).isNone)).length

/-- The 256-byte entries of a page of a meter-log tile, up to its padding (log 84). -/
def pageEntries (p : Nat × Bytes) : List Bytes :=
  let o := if p.1 = 0 then 64 else 0
  ((List.range (meterRoom p.1)).map (fun i => slice p.2 (o + i * 256) 256)).takeWhile (fun b => b.length == 256 && b.take 64 != padRec)

/-- SEQ of each entry of a run of the meter chain: a record and a seal's header carry it, the 23 entries after a header follow it (R201, R207). -/
def numberEntries : Nat → Nat → List Bytes → List (Nat × Bytes)
  | _, _, [] => []
  | n, sig, b :: t =>
    if sig = 0 then (leAt b 0 8, b) :: numberEntries (leAt b 0 8 + 1) (if leAt b 0x14 1 = 0x81 then 23 else 0) t
    else (n, b) :: numberEntries (n + 1) (sig - 1) t

/-- The entries of the meter chain that some tiles hold, once each, in order of SEQ (R206, R359). -/
def meterEntries (ts : List FoundTile) : List (Nat × Bytes) :=
  let order := sortKey (fun (t : FoundTile) => leAt t.head 0x14 12) (ts.filter (fun t => tileKind t == 2))
  let heads := [0, 1].map (fun h => order.filter (fun t => leAt t.head 0x0D 1 / 128 == h))
  let run := fun (l : List FoundTile) =>
    let segs := (l.map (fun t => t.seg)).eraseDups
    numberEntries 0 0 (segs.flatMap (fun n => (List.range 4).flatMap (fun p =>
      match (l.filter (fun t => t.seg == n)).findSome? (fun t => aget t.pages p) with | some b => pageEntries (p, b) | none => [])))
  (heads.flatMap run).foldl (fun (m : AMap Bytes) e => if ahas m e.1 then m else aset m e.1 e.2) []

/-! ## Replay (R131 to R135) -/

/-- Record types this head implements (Table 3-8, R131). -/
def knownType (t : Nat) : Bool := decide (1 ≤ t ∧ t ≤ 0x0F) || t == tPad

/-- Remove later copies of a record: the same OSTAMP and index in the group (R133). -/
def firstCopies (l : List JRec) : List JRec :=
  l.foldl (fun (k : List JRec) r => if k.any (fun x => x.ostamp == r.ostamp && x.idx == r.idx) then k else k ++ [r]) []

/-- Cut records sorted by OSTAMP into groups. -/
def groupsOf : List JRec → List (List JRec)
  | [] => []
  | r :: t =>
    match groupsOf t with
    | g :: rest => if g.any (fun x => x.ostamp == r.ostamp) then (r :: g) :: rest else [r] :: g :: rest
    | [] => [[r]]

/-- Apply complete groups in ascending OSTAMP; an incomplete one is counted and discarded, and so is one that fails (R134). -/
def State.replayGroups (s : State) (gs : List (List JRec)) : State :=
  gs.foldl (fun s g =>
    let g := sortKey (fun r => r.idx) g
    if groupWhole g then
      (match s.applyGroup g with
       | some s => s
       | none => { s with mpe := { s.mpe with cntFail := s.mpe.cntFail + 1 } })
    else { s with mpe := { s.mpe with cntPartial := s.mpe.cntPartial + 1 } }) s

/-- VALID of every segment, from the content table, and for checkpoint segments from the directory (R335). -/
def State.validFrom (s : State) : State :=
  let live := (s.maps.ct.filter (fun e => !ctFree e.2)).foldl (fun (m : AMap Nat) e => abump m (locSeg e.2.loc) (e.2.clen + 1)) []
  let live := s.mpe.dir.foldl (fun (m : AMap Nat) e => abump m (locSeg e.2.1) e.2.2) live
  { s with maps := { s.maps with segs := amap s.maps.segs (fun n g => { g with valid := agetD live n 0 }) } }

/-- Work that follows from the maps alone: pages whose count is 0, records whose REF is 0 or at the pin threshold (R270, R271, R276, R335). -/
def State.derived (s : State) : State :=
  let rels := (s.maps.pages.filter (fun p => p.2.cnt == 0)).map (fun p => ((65535 : Nat), p.1, mkInt 2 p.1 0 0 65535 0))
  let frees := (s.maps.ct.filter (fun e => !ctFree e.2 && e.2.ref == 0)).map (fun e => ({ cid := e.1, z := s.mpe.top, ownZ := false } : FreeWait))
  let pins := (s.maps.ct.filter (fun e => !ctFree e.2 && !e.2.pinned && decide (0xF0000 * 16 ≤ e.2.ref))).map Prod.fst
  let fill := fun (lo : Bool) => (s.maps.ct.filter (fun e => !ctFree e.2 && decide (e.1 % 32 < 16) == lo)).length
  { ((s.wf R.MPE.CT_FILL0.COUNT (fill true)).wf R.MPE.CT_FILL1.COUNT (fill false)).validFrom with mpe := { s.mpe with rels := rels, frees := frees, pins := pins } }

/-! ## What headers give (R335, R396) -/

/-- Where a segment lies, from a tile header: pool, D, BASEGEN and row. -/
def geoOf (g : Seg) (h : Bytes) : Seg :=
  { g with pool := leAt h 0x0D 1 % 4, d := leAt h 7 1, basegen := leAt h 0x0E 2, row := leAt h 0x10 2 }

/-- Take the geometry of the segments opened after the checkpoint from the first readable header of each, and the fold links of QLC segments
from the headers of their tiles (R335, Table 10-6). -/
def State.headersTo (s : State) (old : Maps) (ts : List FoundTile) : State :=
  let fresh := fun (n : Nat) => (agetD old.segs n {}).gen != (s.seg n).gen || (agetD old.segs n {}).state == 0
  let s := (s.maps.segs.filter (fun e => e.2.state != 0 && fresh e.1)).foldl (fun s e =>
    match ts.find? (fun t => t.seg == e.1 && (e.2.isFold || leAt t.head 8 4 % 2 ^ 25 != e.1 || leAt t.head 0x0C 1 == e.2.gen)) with
    | some t => s.setSeg e.1 (geoOf (s.seg e.1) t.head)
    | none => s) s
  let qlc := fun (e : Nat × Seg) => e.2.state == 3 || (e.2.state == 1 && ts.any (fun t => t.seg == e.1 && t.q != 0))
  (s.maps.segs.filter qlc).foldl (fun s e =>
    let src := (List.range 4).map (fun q => ((ts.find? (fun t => t.seg == e.1 && t.q == q)).map (fun t => leAt t.head 8 4 % 2 ^ 25)).getD 0)
    let s := s.setSeg e.1 { s.seg e.1 with sources := src, isFold := true }
    src.zipIdx.foldl (fun s p => if (s.seg p.1).state = 4 ∨ e.2.state = 1 then s.setSeg p.1 { s.seg p.1 with linked := true, tgtSeg := e.1, tgtGen := e.2.gen, q := p.2 } else s) s) s

/-! ## Slices and the meter chain (R83, R201, R205, R206, R208) -/

/-- Value of CHAIN after the newest entries of the chain (R201, R207): SHA-256 of the last record, or of the 24 entries of a seal. -/
def chainOf (log : List (Nat × Bytes)) : Bytes :=
  match log.getLast? with
  | none => []
  | some (n, b) =>
    if leAt b 0x14 1 = 1 ∧ leAt b 0 8 = n then sha256 b else sha256 (((log.drop (log.length - 24)).map Prod.snd).flatten)

/-- A slice's dynamic part after BOOT (R83, R201): Bridle at its floors, and the continuity and attribution of its last meter record. -/
def dynFrom (log : List (Nat × Bytes)) (h desc : Nat) : SliceDyn :=
  let d : SliceDyn := {}
  let d := { d with ops := { d.ops with bal := floorOf desc d.ops false }, byt := { d.byt with bal := floorOf desc d.byt true } }
  match (log.filter (fun e => leAt e.2 0x14 1 == 1 && leAt e.2 0 8 == e.1 && leAt e.2 0x18 4 % 2 ^ 20 == h)).getLast? with
  | some (_, b) => { d with mseq := leAt b 0xA8 4, sprev := sha256 b, attr := leAt b 0x58 8, snap := leAt b 0xF4 8 }
  | none => d

/-- Slices and the meter chain as the slice table and the meter log give them. -/
def State.slicesFrom (s : State) (found : List (Nat × Bytes)) : State :=
  let log := found.foldl (fun (m : AMap Bytes) e => if ahas m e.1 then m else aset m e.1 e.2) s.slm.log
  let dyn := (s.maps.slices.filter (fun e => sdState e.2.desc != 0)).map (fun e => (e.1, dynFrom log (e.1 + 4096 * e.2.gen) e.2.desc))
  let minute := maxL (log.map (fun e => if leAt e.2 0x14 1 = 1 ∧ leAt e.2 0 8 = e.1 then leAt e.2 0x1C 4 else 0))
  { s with slm := { s.slm with dyn := dyn, log := log, seq := (log.getLast?.map (fun e => e.1 + 1)).getD 0, chain := chainOf log, minute := max minute s.slm.minute } }

/-! ## Loading the maps (R83, R131 to R135, R290, R388) -/

/-- A Gondola with a valid seal (R77, R82). -/
def sealedGon (g : FoundGon) : Bool := g.sealB.length == 24 && crcOk 24 g.sealB && leAt g.sealB 0 4 == 0x4C414553

/-- The checkpoint that recovery starts from (R290): the newest whose CHECKPOINT record is durable. -/
def newestCkpt (own : Option Ckpt) (found : List Ckpt) (recs : List JRec) : Option Ckpt :=
  (found.filter (fun k => recs.any (fun r => r.typ == tCheckpoint && r.target % 2 ^ 32 == k.number && r.new == k.covered))).foldl (fun (b : Option Ckpt) k =>
    match b with | some x => if x.number < k.number then some k else some x | none => some k) own

/-- Load the maps (R131, R133 to R135, R290, R331, R335, R359, R388): page tables first, with which journal and meter-log tiles are found; the
newest checkpoint; then every journal source above its cut, up to a cut where one is given, in OSTAMP order. None when a record that replay
does not ignore has a TYPE that is not implemented. The floor rises to the highest OSTAMP read. Copies of another generation than the
segment table's fall out of the page table once it is known (DEDUCED, log 88). -/
def State.loadMaps (s : State) (f : Found) (upTo : Option Nat) : Option State :=
  let copies := f.wls.flatMap wlCopies
  let tiles := f.wls.flatMap (wlTiles (tableOf copies))
  let js := tiles.filter (fun t => tileKind t == 1)
  let gons := f.gons.filter sealedGon
  let tails := gons.flatMap (fun g => g.tail)
  let all : List JRec := firstCopies (s.mpe.log.flatMap (fun p => p.recs) ++ js.flatMap tileRecs ++ tails.filterMap jrParse ++ s.mpe.delta)
  let ck := newestCkpt s.mpe.ckpt f.ckpts all
  let cov : Nat := (ck.map (fun (k : Ckpt) => k.covered)).getD 0
  let recs := all.filter (fun r => decide (cov < r.ostamp) && r.typ != tPad)
  if recs.any (fun r => !knownType r.typ) then none
  else
    let image : Maps := (ck.map (fun k => k.image)).getD {}
    let lay := f.chunks.foldl (fun (m : AMap Pool) e => aset m e.1 e.2) (s.maps.layNext.foldl (fun (m : AMap Pool) e => aset m e.1 e.2) image.layNext)
    let bad := sumL (js.map tileBad) + (tails.filter (fun b => (jrParse b).isNone)).length
    let s := { s with maps := { image with layNext := lay }
                      mpe := { s.mpe with ckpt := ck, dir := (ck.map (fun (k : Ckpt) => k.dir)).getD [], hist := [], ckRun := none, ckTodo := [], ckSegs := [], held := [], seen := recs
                                          delta := s.mpe.delta.filter (fun r => match upTo with | some j => decide (j < r.ostamp) | none => false)
                                          top := cov, cntCrc := s.mpe.cntCrc + bad } }
    let s := s.raiseFloor (maxL (all.map (fun (r : JRec) => r.ostamp) ++ (gons.flatMap (fun g => g.grains)).map (fun (g : GonGrain) => g.ostamp)))
    let s := s.replayGroups (groupsOf (sortKey (fun r => r.ostamp) (recs.filter (fun r => match upTo with | some j => decide (r.ostamp ≤ j) | none => true))))
    let s := s.headersTo image tiles
    let pt := tableOf (copies.filter (fun c => c.gen == (s.seg (c.key % 2 ^ 29 / 16)).gen))
    let s := { s with fmm := { s.fmm with pt := pt } }
    let s := (s.slicesFrom (meterEntries tiles)).derived
    some { s with bsv := { s.bsv with mapsLoaded := true } }

end Sys2Proof.Machine
end

