-- ==== Sys2Proof/Machine/Pairing.lean ====
section
/-! DEFINITION. Ownership moves, joining and handover on Carid (R71 to R73, R119, R462 to R465, R489 to R498). -/
namespace Sys2Proof.Machine

/-! ## Ownership moves (R119, R490) -/

/-- The groups a move names: one, or all with 0xFFFF. -/
def moveGroups (g : Nat) : List Nat := if g = 0xFFFF then allGroups else [g]

/-- Head a group goes to: for one group the head that does not own it; for all groups the head that does not leave (R492), or,
at the switch of a join, the serving head, which goes on owning them (R494). -/
def State.moveTo (s : State) (g : Nat) (mine : Bool) : Nat :=
  if g = 0xFFFF then
    (match s.mode with
     | .solo => s.head
     | .joining => 1 - s.head
     | _ => if mine then 1 - s.head else s.head)
  else 1 - agetD s.maps.owner g 0

/-- A move's proposal: PHYS plus 2 × EPS_CUR (R490). -/
def State.moveStamp (s : State) : Nat := mkStamp (s.estamp + 2 * s.epsCur) 0 0

/-- Propose a move (R490). -/
def State.moveOffer (s : State) (g : Nat) : State :=
  let p := s.moveStamp
  (s.updCpl (fun c => { c with props := aset c.props g (p, s.moveTo g true) })).ask (.movePropose g p)

/-- Commands of groups this head has given up that no stamp has bound go to the new owner (R62, R482); one the partner had
forwarded here goes back to it as an access transition. -/
def State.handCmds (s : State) (gs : List Nat) : State :=
  let sel := s.io.cmds.filter (fun e => writes e.2.opc && e.2.stage == .active && !e.2.fwd &&
    (match s.nsOf e.2.ns with | some n => gs.contains n.desc.group | none => false))
  sel.foldl (fun s e =>
    let s := if e.2.txn ≠ 0 then s.sendC (.cancel (e.2.txn % 2 ^ 32)) else s
    let s := { s with io := { s.io with wc := s.io.wc.filter (fun w => w.op != e.1 || w.ostamp != 0) } }
    if e.2.fromPartner then (s.dropCmd e.1).sendC (.fwdDone e.2.tok 3 0x03 false 0 0)
    else s.updCmd e.1 (fun c => { c with grains := [], reads := [], txn := 0, doneN := 0, fwd := true, bound := false, tok := e.1 + 1 })) s

/-- The groups of a move whose ownership this head still holds. -/
def State.moveOwned (s : State) (g : Nat) : List Nat := (moveGroups g).filter (fun x => agetD s.maps.owner x 2 == s.head)

/-- The old owner of a move journals it (R119), unless the lane stalls; true when no group of the move is left with it. -/
def State.moveJournal (s : State) (g o dest : Nat) : Bool × State :=
  if s.moveOwned g = [] then (true, s) else s.journal [rMove g s.head dest o]

/-- A move is agreed at an OSTAMP (R119, R490, R525), whichever head proposed it: the old owner journals the move, reports its groups in ANA
change, and hands on what it has not stamped; the new owner waits for MOVE_DONE. -/
def State.moveSet (s : State) (g o dest : Nat) : State :=
  let s := s.updCpl (fun c => { c with moves := aset c.moves g (o, dest) })
  if dest = s.head then s
  else
    let gs := (moveGroups g).filter s.ownsGroup
    let s := (s.anaChange gs).rplMoved (fun x => gs.contains x)
    (s.moveJournal g o dest).2.handCmds gs

/-- MOVE_PROPOSE (R102, R119, R490): the responder answers with the later of P and its own PHYS + 2 × EPS_CUR, which is the move OSTAMP; at
the switch of a join it only fixes the switch OSTAMP. -/
def execMovePropose (h : CHdr) (g : Fin 65536) (p : Nat) (s : State) : Host.Outcome State Fault Refusal :=
  match s.cRecv cAdmin h with
  | (false, s) => .next s
  | (true, s) =>
    let o := max p s.moveStamp
    let dest := s.moveTo g.val false
    let s := (s.heard p).sendC (.admin h.atag (.moveAgree g.val o))
    .next (if s.mode = .joining then s.updCpl (fun c => { c with switch := some o }) else s.moveSet g.val o dest).settle

/-- MOVE_AGREE (R71, R102, R119, R490): the agreed stamp is the move OSTAMP here too; at the switch of a join the server journals it and
fixes the switch OSTAMP, and proposes again where its lane stalls. -/
def execMoveAgree (h : CHdr) (g : Fin 65536) (o : Nat) (s : State) : Host.Outcome State Fault Refusal :=
  match s.cAnswer h with
  | (false, s) => .next s
  | (true, s) =>
    match aget s.cpl.props g.val with
    | none => .next s.staleTok
    | some (_, dest) =>
      let s := (s.heard o).updCpl (fun c => { c with props := adel c.props g.val })
      if s.mode = .solo then
        match s.journal [rMove g.val s.head s.head o] with
        | (true, s) => .next ((s.updCpl (fun c => { c with switch := some o })).sendC (.moveDone g.val o)).settle
        | (false, s) => .next s
      else .next (s.moveSet g.val o dest).settle

/-- Every group this head issued below a stamp is complete at both heads (R119): applied here, and shown by LACK. -/
def State.movedOver (s : State) (o : Nat) : Bool :=
  (List.range 32).all (fun l => decide (min (s.lane l).horizon o ≤ agetD s.mpe.pApp (s.head * 32 + l) 0))

/-- MOVE_COMPLETE (R119, R490): when the move is journalled, no command of the groups is left unstamped here and the partner has applied
everything below the move OSTAMP, the old owner sends MOVE_DONE and reports the groups non-optimized. -/
def execMoveComplete (g : Fin 65536) (s : State) : Host.Outcome State Fault Refusal :=
  match aget s.cpl.moves g.val with
  | some (o, dest) =>
    let gs := moveGroups g.val
    let busy := s.io.cmds.any (fun e => writes e.2.opc && e.2.stage == .active && !e.2.fwd && (match s.nsOf e.2.ns with | some n => gs.contains n.desc.group | none => false))
    if dest = s.head then .next s
    else
    match s.moveJournal g.val o dest with
    | (false, s) => .next s
    | (true, s) =>
    if busy ∨ !s.movedOver o then .next s
    else
      let s := (s.updCpl (fun c => { c with moves := adel c.moves g.val })).sendC (.moveDone g.val o)
      .next (if s.mode = .paired then s.anaReport (gs.map (fun x => (x, 2))) else s).settle
  | none => .next s

/-- MOVE_DONE (R71, R119, R490): the new owner stamps above the move OSTAMP and admits writes to the groups; a joiner that has
learnt the switch goes on to DIES (Table 12-10). -/
def execMoveDone (h : CHdr) (g : Fin 65536) (o : Nat) (s : State) : Host.Outcome State Fault Refusal :=
  match s.cRecv cAdmin h with
  | (false, s) => .next s
  | (true, s) =>
    let s := s.heard o
    if s.mode = .joining then
      if s.cpl.switch = some o then .next ((s.wf R.CPL.JOIN_STAT.PHASE 6).ask (.releaseReq s.head)) else .next s
    else
      match aget s.cpl.moves g.val with
      | some (o', _) =>
        if o' ≠ o then .next s.staleTok
        else
          let gs := moveGroups g.val
          let s := s.updCpl (fun c => { c with moves := adel c.moves g.val })
          let s := { s with maps := { s.maps with owner := gs.foldl (fun (m : AMap Nat) x => aset m x s.head) s.maps.owner } }
          let s := s.anaMove (gs.map (fun x => (x, 1)))
          let held := (s.io.cmds.filter (fun e => e.2.fromPartner && e.2.stage == .data && decide (e.2.need ≤ e.2.recvd))).map Prod.fst
          .next ((held.foldl (fun s op => s.carryOut op) s).admitAll).settle
      | none => .next s.staleTok

/-- OWNERSHIP_MOVE (R119, R463): firmware moves one group to the other head, from Carid 3.3. Below 3.3 the request is BAD_VERSION:
the spec names no register that shows it (log 58). -/
def execOwnershipMove (g : Fin 1024) (s : State) : Host.Outcome State Fault Refusal :=
  if s.mode ≠ .paired ∨ s.rf R.CPL.LINK_STAT.STATE ≠ lActive then .next s
  else if s.rf R.CPL.LINK_STAT.VER < 3 then .next (s.emit (.badVersion g.val))
  else if ahas s.cpl.moves g.val || ahas s.cpl.props g.val || ahas s.cpl.moves 0xFFFF || ahas s.cpl.props 0xFFFF then .next s
  else .next (s.moveOffer g.val).settle

/-! ## Joining, the joiner's side (R57, R290, R388, R493 to R496) -/

/-- DRAM the maps need beyond the fixed footprint, for the map pages only snapshots reach, in GiB (R35). -/
def State.snapGib (s : State) : Nat :=
  let live := (s.maps.nss.flatMap (fun e => reach s.maps (rootLevel e.2.desc.size) e.2.root)).eraseDups
  cdiv (4096 * (s.maps.pages.filter (fun p => !live.contains p.1)).length) (2 ^ 30)

/-- GiB by which usable DRAM falls short of the footprint of R35. -/
def State.shortGib (s : State) (gib : Nat) : Nat := s.dram.fixedGib + s.snapGib - gib

/-- Send JOIN_REQ and begin the exchanges as follower (R108, R489, R493). -/
def State.joinStart (s : State) : State :=
  let s := (((s.wf R.CPL.JOIN_STAT.PHASE 1).wf R.CPL.JOIN_STAT.REASON 0).wf R.CPL.JOIN_STAT.SHORT 0)
  let s := ((s.wf R.TBS.STAT.ROLE 1).wf R.TBS.STAT.LOCK 0).wf R.TBS.STAT.RUN 0
  let s := { s with bsv := { s.bsv with silent := false, mapsLoaded := false, soloAsked := false }, io := { s.io with sb := [] },
                    tbs := { s.tbs with stepDone := false, goodSeen := false, lastGood := s.tbs.phys, theta2 := 0, badRun := 0, exch := [] } }
  let s := s.updCpl (fun c => { c with role := 1, cut := 0, switch := none, loaded := false, relStage := 0, diesOk := false, moves := [], props := [] })
  s.ask (.joinReq (positionsOf s.fuses.variant) (s.rf R.MPE.CT_BITS.BITS) s.cMax s.usableGib)

/-- CPL.JOIN_STAT shows by how much this head's DRAM falls short (R35). -/
def State.shortShow (s : State) : State := s.wf R.CPL.JOIN_STAT.SHORT (s.shortGib s.usableGib)

/-- JOIN_RSP (R57, R102, R131, R134, R290, R388, R493): a refusal takes the joiner to ISOLATED; else it loads its replica up to the cut. -/
def execJoinRsp (h : CHdr) (reason cut : Nat) (found : Found) (s : State) : Host.Outcome State Fault Refusal :=
  match s.cAnswer h with
  | (false, s) => .next s
  | (true, s) =>
    if s.mode ≠ .joining ∨ s.cpl.role ≠ 1 then .next s.staleTok
    else if reason ≠ 0 then .next ((if reason = 0x07 then s.shortShow else s).joinRefuse reason)
    else
      let s := (s.heard cut).wf R.CPL.JOIN_STAT.PHASE 3
      match s.loadMaps found (some cut) with
      | none => .next (s.joinRefuse 0x0A)
      | some s => .next (s.updCpl (fun c => { c with cut := cut, loaded := true }))

/-- One entry of the meter ring is copied in after those held (R493). -/
def State.ringOne (s : State) (e : Bytes) : State :=
  let n := s.rf R.SLM.MRING_WR.SEQ
  let s := (s.store (dramBase + s.rf R.SLM.MRING_BASE.ADDR + n % 16777216 * 256) e).wf R.SLM.MRING_WR.SEQ (n + 1)
  { s with slm := { s.slm with seq := n + 1, log := s.slm.log ++ [(n, e)] } }

/-- RING (R493): entries of the meter ring are copied in after those the joiner holds. -/
def execRingCmd (h : CHdr) (es : List Bytes) (s : State) : Host.Outcome State Fault Refusal :=
  match s.cRecv cAdmin h with
  | (false, s) => .next s
  | (true, s) =>
    if s.mode ≠ .joining then .next s
    else
      .next (es.foldl (fun s e => s.ringOne e) s)

/-- RELEASED (R384, R449): the joiner claims its dies, and at a HANDOVER the partner the leaving head's, with the array claim
generation + 1, which CLAIMGEN shares first. -/
def execReleased (h : CHdr) (gen : Nat) (s : State) : Host.Outcome State Fault Refusal :=
  match (if s.mode = .joining then s.cAnswer h else s.cRecv cAdmin h) with
  | (false, s) => .next s
  | (true, s) =>
    let s := s.noteGen gen
    let kind := if s.mode = .joining ∧ s.rf R.CPL.JOIN_STAT.PHASE = 6 then 3 else if s.mode = .paired ∧ s.cpl.hoFrom = true then 4 else 0
    if kind = 0 then .next s
    else
      let h := if kind = 3 then s.head else 1 - s.head
      let ms := s.present
      let s := { s with jlk := { s.jlk with asked := ms, won := [] } }
      let s := s.sendC (.claimGen s.jlk.gen)
      let s := ms.foldl (fun s m => s.jClaim m (s.jlk.gen + 1) (sumL (((List.range 64).filter (fun d => d % 2 == h)).map (fun d => 2 ^ d))) false kind) s
      .next (if ms = [] ∧ kind = 3 then (s.wf R.CPL.JOIN_STAT.PHASE 7).updCpl (fun c => { c with diesOk := true })
        else if ms = [] then { s with jlk := { s.jlk with gen := s.jlk.gen + 1 } } else s)

/-- CLAIMGEN (R449): the lead's view of the array claim generation. -/
def execClaimgen (h : CHdr) (gen : Nat) (s : State) : Host.Outcome State Fault Refusal :=
  match s.cRecv cAdmin h with
  | (false, s) => .next s
  | (true, s) => .next (s.noteGen gen)

/-! ## Joining, the serving head's side -/

/-- Refuse a join with a reason (R493). -/
def State.refuseJoin (s : State) (reason : Nat) : State := (s.joinRefuse reason).sendC (.admin s.cpl.jTag (.joinRsp reason 0))

/-- The least durable horizon of this head's lanes (R403). -/
def State.leastDurable (s : State) : Nat := minL (s.durHorizon 0) ((List.range 32).map s.durHorizon)

/-- Stream what a joiner needs above the cut (Table 12-10): records of every lane, the page table, and the meter ring. -/
def State.streamTo (s : State) (j : Nat) : State :=
  let recs := (s.mpe.hist.flatten).filter (fun r => decide (j < r.ostamp))
  let s := (List.range 32).foldl (fun s l =>
    let rs := recs.filter (fun r => r.lane == l && r.head == s.head)
    if rs = [] then s else s.sendC (.recs l rs)) s
  let s := s.ptSend s.fmm.pt
  let rd := s.rf R.SLM.MRING_RD.SEQ
  let es := (s.slm.log.filter (fun e => decide (rd ≤ e.1))).map Prod.snd
  if es = [] then s else s.sendC (.ring es)

/-- The server accepts: it becomes the reference, takes the cut and streams (R108, R493, Table 12-10). -/
def State.acceptJoin (s : State) : State :=
  let j := s.leastDurable
  let s := ((s.wf R.CPL.JOIN_STAT.PHASE 3).wf R.TBS.STAT.ROLE 0).wf R.TBS.STAT.RUN 0
  let s := { s with tbs := { s.tbs with stepDone := false, goodSeen := false, lastGood := s.tbs.phys, theta2 := 0, badRun := 0 } }
  let s := s.updCpl (fun c => { c with role := 2, cut := j, switch := none, opM := none, relStage := 0, moves := [], props := [] })
  let s := { s with mpe := { s.mpe with pApp := [], pDur := [], pHor := [], delta := [] } }
  (s.sendC (.admin s.cpl.jTag (.joinRsp 0 j))).streamTo j

/-- The last record of the retained journal that a version below 3.3 does not enable: a MOVE of one group (Table 12-2, R463). -/
def State.lastNewRec (s : State) (minor : Nat) : Nat :=
  if 3 ≤ minor then 0
  else maxL ((s.mpe.hist.flatten ++ s.mpe.log.flatMap (fun p => p.recs)).map (fun r => if r.typ = tMove ∧ r.target % 65536 ≠ 0xFFFF then r.ostamp else 0))

/-- Modules admitted to the array (R5): members of its pools that have not been retired, present or not. -/
def State.poolModules (s : State) : Nat :=
  ((List.range 64).filter (fun m => s.maps.pools.any (fun e => bit e.2.members m && !e.2.retired.contains m))).length

/-- JOIN_REQ (R5, R35, R299, R465, R493): the serving head checks the request in the order of Table 12-10. -/
def execJoinReq (h : CHdr) (limit ctBits minor gib : Nat) (s : State) : Host.Outcome State Fault Refusal :=
  match s.cRecv cAdmin h with
  | (false, s) => .next s
  | (true, s) =>
    let ph := s.rf R.CPL.JOIN_STAT.PHASE
    let s1 := ((s.updCpl (fun c => { c with jTag := h.atag })).wf R.CPL.JOIN_STAT.REASON 0).wf R.CPL.JOIN_STAT.SHORT 0
    if s.mode = .paired ∨ s.mode = .handover ∨ s.cpl.role ≠ 0 ∨ (s.mode = .solo ∧ s.bsv.leaveCause.isSome) then .next (s.sendC (.admin h.atag (.joinRsp 0x0C 0)))
    else if s.mode ≠ .solo then .next (s.sendC (.admin h.atag (.joinRsp 0x01 0)))
    else if limit < s.poolModules then .next (s1.refuseJoin 0x06)
    else if 0 < s.shortGib gib then .next ((s1.wf R.CPL.JOIN_STAT.SHORT (s.shortGib gib)).refuseJoin 0x07)
    else if ctBits ≠ s.rf R.MPE.CT_BITS.BITS then .next (s1.refuseJoin 0x08)
    else if minor < s.bsv.acver ∧ s.cpl.jMinor ≤ s.bsv.acver ∧ ph ≠ 2 then
      let s := (s1.wf R.CPL.ACVER.MINOR minor).wf R.CPL.JOIN_STAT.PHASE 2
      let s := { s with bsv := { s.bsv with acver := minor } }.putIdent
      let w := s.lastNewRec minor
      .next ((s.updCpl (fun c => { c with role := 2, jMinor := minor, waitFor := w })).ckptStart)
    else .next s1.acceptJoin

/-- JOIN_VERSION_WAIT_END (R465): a checkpoint whose cut lies above the last record with a disabled value has completed. -/
def execJoinVersionWaitEnd (s : State) : Host.Outcome State Fault Refusal :=
  let done := match s.mpe.ckpt with | some k => decide (s.cpl.waitFor < k.covered) | none => false
  if s.cpl.role = 2 ∧ s.rf R.CPL.JOIN_STAT.PHASE = 2 ∧ done = true then .next s.acceptJoin else .next s

/-- JOIN_SWITCH (R494): from instant m the server mirrors what it admits; once every write admitted before m is stamped, it
proposes the switch OSTAMP for all groups. -/
def execJoinSwitch (s : State) : Host.Outcome State Fault Refusal :=
  let ph := s.rf R.CPL.JOIN_STAT.PHASE
  if s.mode ≠ .solo ∨ s.cpl.role ≠ 2 then .next s
  else
    let s := if ph = 4 then (s.wf R.CPL.JOIN_STAT.PHASE 5).updCpl (fun c => { c with opM := some s.io.nextOp }) else s
    let m := s.cpl.opM.getD 0
    let early := s.io.cmds.any (fun e => decide (e.1 < m) && writes e.2.opc && (e.2.stage == .active || e.2.stage == .data))
    if s.rf R.CPL.JOIN_STAT.PHASE = 5 ∧ early = false ∧ s.cpl.switch.isNone = true ∧ ahas s.cpl.props 0xFFFF = false then .next (s.moveOffer 0xFFFF).settle
    else .next s.settle

/-- RELEASE_REQ (R384, R389, R449): the server finishes its work on the joiner's dies, writes their records and releases them. -/
def execReleaseReq (h : CHdr) (_head : Fin 2) (s : State) : Host.Outcome State Fault Refusal :=
  match s.cRecv cAdmin h with
  | (false, s) => .next s
  | (true, s) =>
    if s.mode = .solo ∧ s.cpl.role = 2 ∧ s.rf R.CPL.JOIN_STAT.PHASE = 5 then
      .next (((s.wf R.CPL.JOIN_STAT.PHASE 6).updCpl (fun c => { c with relStage := 1, relTag := h.atag })).relPump).settle
    else .next s

/-- The joiner is ready for PAIRED (R35, R71, R85, R495): its DRAM holds the footprint, Tether is locked, the replica current and the dies
claimed. -/
def State.joinerReady (s : State) : Bool :=
  s.shortGib s.usableGib == 0 && s.flag R.TBS.STAT.LOCK && s.cpl.loaded && s.cpl.diesOk && s.cpl.switch.isSome && s.mpe.delta.isEmpty

/-- The server is ready (R71, R85, R495): locked, dies released, no own dirty data that is not mirrored, and the partner has
applied every record. -/
def State.serverReady (s : State) : Bool :=
  s.rf R.TBS.STAT.RUN == 16 && s.cpl.relStage == 4 && s.cpl.switch.isSome &&
  s.io.wc.all (fun w => w.ostamp == 0 || w.txn != 0) && s.io.sb.isEmpty &&
  (List.range 32).all (fun l => decide ((s.lane l).horizon ≤ agetD s.mpe.pApp (s.head * 32 + l) 0))

/-- JOIN_DONE (R35, R37, R42, R55, R59, R62, R71, R85, R464, R495): with the conditions met here and, as the partner tells, there, the head
enters PAIRED; ACVER becomes the negotiated version and the groups go to their preferred owners. info is what each head learns of the other,
for which the spec gives no message: the partner's Sideboard and capacities, and, at the joiner, the reservations (DESIGN CHOICE, log 81). A joiner whose DRAM has come to fall short shows it and stays. -/
def execJoinDone (peer : Bool) (s : State) (info : PeerInfo := {}) : Host.Outcome State Fault Refusal :=
  let s := if s.mode == .joining && s.cpl.role == 1 then s.shortShow else s
  let joiner := s.mode == .joining && s.cpl.role == 1
  let server := s.mode == .solo && s.cpl.role == 2
  if !(peer && s.rf R.CPL.LINK_STAT.STATE == lActive && ((joiner && s.joinerReady) || (server && s.serverReady))) then .next s
  else
    let ver := s.rf R.CPL.LINK_STAT.VER
    let s := ((s.wf R.CPL.ACVER.MINOR ver).wf R.CPL.JOIN_STAT.PHASE 0).wf R.TBS.STAT.LOCK 1
    let s := if ver = s.bsv.acver then s else { s with bsv := { s.bsv with acver := ver } }.putIdent
    let s := { s with bsv := { s.bsv with silent := false, served := true, soloAsked := false, stopAsked := false },
                      slm := { s.slm with minuteAt := if joiner then s.estamp else s.slm.minuteAt } }
    let s := s.updCpl (fun c => { c with role := 0, switch := if c.role = 2 then c.switch else none, opM := none, loaded := false, relStage := 0, diesOk := false, jMinor := 0, hoSent := false, hoFrom := false, hoClaimed := false, hoFinal := false })
    let s := s.enter .paired (if joiner then 0x01 else 0x07)
    let owner := fun (g : Nat) => agetD s.bsv.pref g 0
    let s := { s with maps := { s.maps with owner := allGroups.map (fun g => (g, owner g)) }, io := { s.io with pSb := info.sb, resv := if joiner then info.resv else s.io.resv }
                      slm := { s.slm with pCapI := info.capI, pCapB := info.capB } }
    let s := s.anaMove (allGroups.map (fun g => (g, if owner g = s.head then 1 else 2)))
    .next ((s.handCmds (allGroups.filter (fun g => owner g != s.head))).settle).minCheck

/-! ## HANDOVER (R72, R73, R492, R497, R498) -/

/-- HANDOVER begins (R59, R72, R492, R497): groups go to ANA change, the reference role and the lead pass, HO_REQ and the move of
every group are sent. -/
def State.handoverStart (s : State) (cause : Nat) : State :=
  let s := s.enter .handover cause
  let gs := allGroups.filter s.ownsGroup
  let s := (s.anaChange gs).rplMoved (fun g => gs.contains g)
  let s := { (s.wf R.TBS.STAT.ROLE 1) with tbs := { s.tbs with exch := [] } }
  let s := s.updCpl (fun c => { c with hoSent := true, hoClaimed := false, hoFinal := false, relStage := 0 })
  ((s.ask .hoReq).moveOffer 0xFFFF).settle

/-- HO_REQ (R72, R492, R497): the partner becomes the reference and acknowledges; it then reports the leaving head's groups
optimized. -/
def execHoReq (h : CHdr) (s : State) : Host.Outcome State Fault Refusal :=
  match s.cRecv cAdmin h with
  | (false, s) => .next s
  | (true, s) =>
    if s.mode ≠ .paired then .next s
    else
      let s := { (s.wf R.TBS.STAT.ROLE 0) with tbs := { s.tbs with rate := 0 } }
      let s := (s.updCpl (fun c => { c with hoFrom := true })).sendC (.admin h.atag .hoAck)
      .next (s.anaMove ((allGroups.filter (fun g => !s.ownsGroup g)).map (fun g => (g, 1)))).settle

/-- HO_ACK (R72): the partner has acknowledged the handover. -/
def execHoAck (h : CHdr) (s : State) : Host.Outcome State Fault Refusal :=
  match s.cAnswer h with
  | (false, s) => .next s
  | (true, s) => .next (if s.mode = .handover then s.updCpl (fun c => { c with hoSent := false }) else s)

/-- A final METER_CNT has been acknowledged on the link, in HEARTBEAT SEQ order (R497). -/
def State.finalAcked (s : State) : Bool :=
  let isFinal := fun (m : CMsg) => match m with | .meterCnt true _ => true | _ => false
  s.cpl.hoFinal && !s.cpl.queue.any isFinal && !s.cpl.unack.any (fun x => isFinal x.2.1) && decide (s.cpl.hoMeters < s.cpl.hbPSeq)

/-- The first three drain conditions of Table 2-8: commands completed, own dirty grains durable, and journal records durable and
received by the partner. -/
def State.drained (s : State) : Bool :=
  let c1 := s.admitted == 0 && !s.cpl.hoSent && !ahas s.cpl.moves 0xFFFF && !ahas s.cpl.props 0xFFFF
  let c2 := s.io.wc.isEmpty && s.sgb.opens.isEmpty
  let c3 := (List.range 32).all (fun l => (s.lane l).queue.isEmpty && (s.lane l).pages.isEmpty && decide ((s.lane l).horizon ≤ agetD s.mpe.pApp (s.head * 32 + l) 0))
  c1 && c2 && c3

/-- HANDOVER_DRAIN_COMPLETE (Table 2-8, R72 to R74, R208, R497, R498): each condition in its order; the drain goes on to the release of
the dies once the first three hold, and to the final meter counts once the dies are claimed. With all five, the head enters ISOLATED. -/
def execHandoverDrainComplete (s : State) : Host.Outcome State Fault Refusal :=
  if s.mode ≠ .handover then .next s
  else
    if !s.drained then .next s
    else if !s.cpl.hoClaimed then
      .next (if s.cpl.relStage = 0 then ((s.updCpl (fun c => { c with relStage := 1 })).relPump).settle else s)
    else if !s.cpl.hoFinal then
      let es := s.slm.dyn.map (fun e => (s.handleOf e.1, meterBytes e.2.own))
      let s := s.sendC (.meterCnt true es)
      .next (s.updCpl (fun c => { c with hoFinal := true, hoMeters := c.hbPSeq }))
    else if !s.finalAcked then .next s
    else
      let s := s.enter .isolated 0x0B
      let s := { s with bsv := { s.bsv with silent := true }, pins := { s.pins with readyRemoveN := false } }
      .next ((List.range 64).foldl (fun s l => if s.lportUp l then s.dropLport l else s) (s.stopServing)).settle

end Sys2Proof.Machine
end

