-- ==== Sys2Proof/Machine/Takeover.lean ====
section
/-! DEFINITION. Partner loss, quorum and takeover, adoption of the Sideboard and of Gondolas, and dirty segments (R64 to R70, R125, R126, R345, R346, R491). -/
namespace Sys2Proof.Machine

/-! ## Claims (R65) -/

/-- Claim every die of every present module with the array claim generation + 1 (R65). -/
def State.claimAll (s : State) : State :=
  let ms := s.present
  let s := { s with jlk := { s.jlk with asked := ms, won := [] } }
  ms.foldl (fun s m => s.jClaim m (s.jlk.gen + 1) (sumL ((List.range (((aget s.fmm.mods m).map (fun x => x.dies)).getD 0)).map (fun d => 2 ^ d))) false 2) s

/-- A majority of the present modules have acknowledged the claim (R65). -/
def State.quorum (s : State) : Bool := decide (s.jlk.asked.length < 2 * s.jlk.won.length)

/-- Commands forwarded to a lost partner end with Asymmetric Access Transition (R485); a reservation this head has changed itself needs the
partner no more. -/
def State.failForwarded (s : State) : State :=
  let s := { s with io := { s.io with cmds := amap s.io.cmds (fun _ c => if isResv c.opc && c.stage == Stage.stamped && !c.bound then { c with fwd := false } else c) } }
  ((s.io.cmds.filter (fun e => e.2.fwd)).map (fun e => (e.1, e.2.slba))).foldl (fun s p => s.failCmd p.1 3 0x03 false p.2) s

/-- What CPL does once partner loss is declared (R491): the replay buffer and what waits on its channels are discarded; records
received are kept. -/
def State.stopChannels (s : State) : State := s.updCpl (fun c => { c with unack := [], queue := [], rxNew := none, txNew := none })

/-- PARTNER_LOSS (R57, R64, R65, R485, R491, R496): no HEARTBEAT for 10 ms and no change of the partner's witness for 20 ms. -/
def execPartnerLoss (s : State) : Host.Outcome State Fault Refusal :=
  if s.hbRecent || s.witRecent 20000000 || s.bsv.lossAt.isSome then .next s
  else
    let lost := fun (s : State) => { s.stopChannels with bsv := { s.bsv with lossAt := some s.now } }
    match s.mode with
    | .paired => .next ((lost s).claimAll)
    | .handover => .next ((lost s).failForwarded.claimAll).settle
    | .joining => .next (s.joinRefuse 0x0B)
    | .solo => if s.cpl.role = 2 then .next ((s.stopChannels).joinRefuse 0x0B).settle else .next s
    | _ => .next s

/-- QUORUM_TIMEOUT (R57, R65): 40 ms after the declaration without quorum, the head enters ISOLATED, or SERVE_SOLO is refused. -/
def execQuorumTimeout (s : State) : Host.Outcome State Fault Refusal :=
  match s.bsv.lossAt with
  | none => .next s
  | some t =>
    if s.now < t + 40000000 ∨ s.quorum = true then .next s
    else if s.mode = .paired then .next (s.enter .isolated 0x0D).stopServing
    else if s.mode = .isolated ∧ s.bsv.soloAsked = true then
      .next { s.wf R.BSV.MODE_RESULT.RESULT 5 with bsv := { s.bsv with soloAsked := false, pending := false, lossAt := none } }
    else .next s

/-! ## Adoption (R126, R135, R244) -/

/-- MAP_SET records of a grain among some groups. -/
def setsOf (ns gi : Nat) (rs : List JRec) : List JRec :=
  rs.filter (fun r => r.typ == tMapSet && r.target % 65536 == ns && r.target / 65536 % 2 ^ 38 == gi)

/-- The leaf entry that a grain's own group gave it: that of the last MAP_SET of the grain up to its OSTAMP, else what the map holds. -/
def State.leafOf (s : State) (ns gi o : Nat) : Nat :=
  match ((setsOf ns gi s.mpe.hist.flatten).filter (fun r => decide (r.ostamp ≤ o))).foldl
      (fun (b : Option JRec) r => match b with | none => some r | some x => if x.ostamp ≤ r.ostamp then some r else b) none with
  | some r => r.new
  | none => s.leafEntry ns gi

/-- A grain's group has been applied: its stamp lies at or below the checkpoint's cut, or the group is among those applied since. -/
def State.groupApplied (s : State) (o : Nat) : Bool :=
  decide (o ≤ ((s.mpe.ckpt).map (fun (k : Ckpt) => k.covered)).getD 0) || s.mpe.hist.any (fun g => g.any (fun r => r.ostamp == o))

/-- The write-cache entry of an adopted grain. -/
def State.adoptEntry (s : State) (op : Nat) (e : SbEnt) (o cid gen clen : Nat) (fp : Bytes) : State :=
  let free := ((List.range (s.io.wc.length + 1)).find? (fun n => !s.io.wc.any (fun w => w.slot == n))).getD 0
  let w : WcEnt := { slot := free, op := op, slice := e.slice, ns := e.ns, gi := e.gi, data := e.data, tag := e.tag, crc := crc64 e.data
                     ostamp := o, cid := cid, gen := gen, fp := fp, clen := clen, adopted := true }
  { s with io := { s.io with wc := s.io.wc ++ [w] } }

/-- Adopt a grain whose group has been applied (R126): its record is compressed and sealed as it was, placed again, and moved with
a CT_LOC; one that is already durable, or no longer named, needs nothing. -/
def State.adoptGrain (s : State) (e : SbEnt) (o : Nat) : State :=
  let leaf := s.leafOf e.ns e.gi o
  let cid := entCid leaf
  let c := s.ctRec cid
  if entKind leaf ≠ 2 ∨ ctFree c = true ∨ c.ref = 0 ∨ s.locPending c.loc = false ∨ ahas s.sgb.opens (locSeg c.loc) = true
      ∨ s.io.cmds.any (fun x => x.2.opc == oAdopt && x.2.src == c.loc) = true then s
  else
    let key := (s.fpSlot (s.domainOf e.slice)).bind s.fpKey
    let s := if key.isSome then s.dgeRan 1 else s.dgeNoSlot
    let fp := match key with
      | some k => hmac k (e.data ++ le e.tag 2)
      | none => zeros 32
    let raw := c.clen == 256
    let g : Grain := { gi := e.gi, data := e.data, tag := e.tag, crc := crc64 e.data, fp := fp, cid := cid, gen := c.gen
                       stored := if raw then e.data else [], raw := raw, st := if raw then .sealing else .compress }
    let op := s.io.nextOp
    let k : IoCmd := { conn := none, cid := 0, adm := op, opc := oAdopt, slice := e.slice, ns := e.ns, stage := .active, at0 := s.now, grains := [g], src := c.loc, adopted := true }
    ({ s with io := { s.io with cmds := aset s.io.cmds op k, nextOp := op + 1 } }).adoptEntry op e o cid c.gen c.clen fp

/-- Write a grain again under a new stamp, with ADOPTED (R126). -/
def State.rewriteGrain (s : State) (e : SbEnt) : State :=
  let op := s.io.nextOp
  let k : IoCmd := { conn := none, cid := 0, adm := op, opc := 0x01, slice := e.slice, ns := e.ns, stage := .active, at0 := s.now
                     grains := [{ gi := e.gi, data := e.data, tag := e.tag }], adopted := true }
  let s := ({ s with io := { s.io with cmds := aset s.io.cmds op k, nextOp := op + 1 } }).beginGrain op 0
  { s with io := { s.io with wc := s.io.wc.map (fun w => if w.op = op then { w with adopted := true, orig := e.ostamp.getD 0 } else w) } }

/-- Handle one bound grain (R126); got: every record received. -/
def State.handleGrain (s : State) (got : List JRec) (e : SbEnt) : State :=
  match e.ostamp with
  | none => s
  | some o =>
    if (s.nsOf e.ns).isNone then s
    else if s.groupApplied o then s.adoptGrain e o
    else if (setsOf e.ns e.gi got).any (fun r => decide (o < r.ostamp)) then s
    else s.rewriteGrain e

/-- Handle the Sideboard in ascending order of OSTAMP; grains without a binding are discarded (R126, R244). -/
def State.adoptAll (s : State) (got : List JRec) : State :=
  let es := sortKey (fun (e : SbEnt) => e.ostamp.getD 0) s.io.sb
  let s := { s with io := { s.io with sb := [], adopted := true } }
  es.foldl (fun s e => s.handleGrain got e) s

/-! ## Dirty segments (R345, R346) -/

/-- A record of a dirty segment that reads and verifies is placed again (R345). -/
def State.placeAgain (s : State) (seg : Nat) (p : Placed) : State :=
  let src := locOf seg p.off
  if !s.liveAt seg p || s.io.cmds.any (fun x => x.2.opc == oAdopt && x.2.src == src) then s
  else
    let g : Grain := { gi := 0, fp := p.fp, cid := p.cid, gen := p.gen, stored := zeros (p.clen * 16), hdr := p.bytes, st := .place }
    let op := s.io.nextOp
    let k : IoCmd := { conn := none, cid := 0, adm := op, opc := oAdopt, slice := 0, ns := 0, stage := .active, at0 := s.now, grains := [g], src := src, adopted := true }
    { s with io := { s.io with cmds := aset s.io.cmds op k, nextOp := op + 1 } }

/-- Examine one segment whose dirty-region bit is set (R345): ok when all of it is there and agrees; else the live records that
read, and the CIDs that cannot be recovered. -/
def State.resync (s : State) (x : Nat × Bool × List Placed × List Nat) : State :=
  let n := x.1
  let g := s.seg n
  if g.state ≠ 1 ∨ g.dirty = false ∨ ahas s.sgb.opens n = true then s
  else
    let s := s.inc R.SGB.CNT_RESYNC.COUNT
    if x.2.1 && g.isFold then s.foldSeal n
    else if x.2.1 then (s.journal [rSegState n g.gen g.kind 1 2, rDirty n true false]).2
    else
      let s := x.2.2.1.foldl (fun s p => s.placeAgain n p) s
      let s := x.2.2.2.foldl (fun s c => if locSeg (s.ctRec c).loc = n ∧ ctFree (s.ctRec c) = false then s.loseGrain c else s) s
      s.retireIfDrained n

/-! ## Quorum (R66 to R70) -/

/-- Re-home the partner's journal lanes (R66, R355). -/
def State.rehomeLanes (s : State) : State :=
  match s.firstPool with
  | none => s
  | some (_, p) =>
    (List.range 32).foldl (fun s l =>
      let h := s.pickHomes p true 3 []
      let h := if h.length = 3 then h else s.pickHomes p false 3 []
      let old := agetD s.maps.laneHome ((1 - s.head) * 32 + l) 0
      (s.journal [rLaneHome (1 - s.head) l old (sumL (h.zipIdx.map (fun q => q.1 * 256 ^ q.2)))]).2) s

/-- A command the partner forwarded here completes without an answer; one whose data has not all come is dropped (R485). -/
def State.keepForwarded (s : State) : State :=
  let cmds := amap (s.io.cmds.filter (fun e => !(e.2.fromPartner && e.2.stage == Stage.data))) (fun _ c => { c with fromPartner := false })
  { s with io := { s.io with cmds := cmds } }

/-- The floor of a takeover (R125): the highest OSTAMP received from the partner with PHYS raised by EPS_CUR. -/
def State.takeoverFloor (s : State) : State := s.raiseFloor (s.mpe.pTop + s.epsCur * 2 ^ 32)

/-- The head enters SOLO (R38, R59, R66 to R70, R85, R114, R125, R126, R208, R485). -/
def State.enterSolo (s : State) (resync : List (Nat × Bool × List Placed × List Nat)) : State :=
  let fresh := s.mode == .isolated
  let led := s.lead
  let s := if fresh then s else s.takeoverFloor
  let got := s.mpe.hist.flatten ++ s.mpe.delta ++ s.mpe.seen
  let gs := groupsOf (sortKey (fun r => r.ostamp) s.mpe.delta)
  let s := ({ s with mpe := { s.mpe with delta := [], pHor := [], seen := [] } }).replayGroups gs
  let s := s.stopChannels.updCpl (fun c => { c with role := 0, switch := none, opM := none, relStage := 0, moves := [], props := [], hoFrom := false, hoSent := false })
  let s := s.enter .solo (if fresh then 0x01 else 0x02)
  let s := { s with bsv := { s.bsv with lossAt := none, soloAsked := false, served := true, silent := false, gondolaValid := false },
                    jlk := { s.jlk with asked := [], won := [] } }
  let s := ((s.wf R.TBS.STAT.ROLE 0).wf R.TBS.STAT.LOCK 1).wf R.TBS.STAT.RUN 0
  let s := { s with tbs := { s.tbs with exch := [], rate := 0, soloSet := true } }
  let s := if fresh then
      { s with slm := { s.slm with minuteAt := s.estamp, dyn := amap s.slm.dyn (fun _ d => { d with flags := d.flags ||| 32 }) } }
    else { s with slm := { s.slm with minFlags := if led then s.slm.minFlags else s.slm.minFlags ||| 2 } }
  let s := s.keepForwarded
  let s := (s.adoptAll got).rehomeLanes
  let theirs := allGroups.filter (fun g => s.anaOf g != 1)
  let s := s.anaChange theirs
  let s := s.failForwarded
  let s := s.anaReport (theirs.map (fun g => (g, 1)))
  let s := resync.foldl (fun s x => s.resync x) s
  let ops := (s.io.cmds.filter (fun e => e.2.stage == .stamped)).map Prod.fst
  ((((ops.foldl (fun s op => s.commitWait op) s).pumpGrains).releaseAll.admitAll).settle).minCheck

/-- What SOLO requires of a head in ISOLATED besides quorum (R35, R82, R85, Table 2-5): the counter runs, the maps are loaded, and the
footprint fits. -/
def State.soloReady (s : State) : Bool := s.bsv.soloAsked && s.tbs.started && s.bsv.mapsLoaded && s.shortGib s.usableGib == 0

/-- QUORUM_REACHED (R66): resync gives what the examination of each dirty segment found (R345, R346). -/
def execQuorumReached (resync : List (Nat × Bool × List Placed × List Nat)) (s : State) : Host.Outcome State Fault Refusal :=
  if s.bsv.lossAt.isSome && s.quorum && (s.mode == .paired || (s.mode == .isolated && s.soloReady)) then .next (s.enterSolo resync)
  else .next s

end Sys2Proof.Machine
end

