-- ==== Sys2Proof/Machine/Modes.lean ====
section
/-! DEFINITION. Mode commands, BOOT and reset, VAULT, and the pins that change modes (R52 to R86, R621 to R623, R693 to R709). -/
namespace Sys2Proof.Machine

/-! ## Stalled issuers go on (R91, R103) -/

/-- Commands that waited for a stamp are tried again. -/
def State.stampRetry (s : State) : State :=
  let s := s.stampFlush.slmRetry.layRetry.snapRetry.metaFlush.vaultPump.vaultCheck.pumpSegs.copyUpAll
  ((s.io.cmds.map Prod.fst).foldl (fun s op => s.commitWait op) s).settle

/-- CEILING_WRITE_DONE (R90 to R92): the entry is durable; stalled issuers pass. -/
def execCeilingWriteDone (s : State) : Host.Outcome State Fault Refusal :=
  match s.tbs.ceilWrite with
  | none => .next s
  | some c => if s.tbs.ceilWaits then .next s else .next (s.ceilDone c).stampRetry

/-- LOGICAL_OVF_RESUME (R103): a stalled issuer goes on once its PHYS copy exceeds the PHYS it stalled at. -/
def execLogicalOvfResume (unit : Fin 128) (s : State) : Host.Outcome State Fault Refusal :=
  match aget s.tbs.ovfStalls unit.val with
  | some b =>
    if b < s.tbs.phys then .next ({ s with tbs := { s.tbs with ovfStalls := adel s.tbs.ovfStalls unit.val } }).stampRetry else .next s
  | none => .next s

/-! ## Mode commands (R53, R54, R57, R58, Table 2-11) -/

/-- Answer a write of BSV.MODE_CMD. -/
def State.modeResult (s : State) (r : Nat) : State := s.wf R.BSV.MODE_RESULT.RESULT r

/-- Every enabled JLK instance writes witnesses (R58). -/
def State.witOn (s : State) : Bool := (List.range (jlksOf s.fuses.variant)).all (fun i => s.flag (R.JLK.WIT_CFG.EN i))

/-- The refusal of a JOIN allowed from ISOLATED, 0 when its requirements hold (Table 2-11). -/
def State.joinCheck (s : State) : Nat :=
  if !s.witOn then 8
  else if s.rf R.CPL.LINK_STAT.STATE ≠ lActive ∨ s.hbRecent = false then 3
  else if s.cpl.hbMode ≠ 4 ∧ s.cpl.hbMode ≠ 5 then 7
  else 0

/-- A sealed Gondola that the serving partner has not overtaken has to be replayed before the head leaves ISOLATED (R81): the array
claim generation is not above the one in its seal. -/
def State.gondolaKept (s : State) : Bool := s.bsv.gondolaValid && decide (s.jlk.gen ≤ s.bsv.gondolaGen)

/-- JOIN from BSV or the device itself (R53, R54, R57, R81). A sealed Gondola below the generation the partner serves with is discarded,
as the partner has adopted its grains; one that is not would be lost, so the head does not join (DEDUCED, log 78). -/
def State.joinCmd (s : State) : State :=
  if s.bsv.pending then s.modeResult 6
  else if s.mode ≠ .isolated then s.modeResult 2
  else if s.joinCheck ≠ 0 then s.modeResult s.joinCheck
  else if s.gondolaKept then s.modeResult 8
  else
    let s := { s.modeResult 0 with bsv := { s.bsv with gondolaValid := false, autoJoinArmed := false } }
    (s.enter .joining 0x01).joinStart

/-- JOIN: BSV.MODE_CMD 0x01. -/
def execJoin (s : State) : Host.Outcome State Fault Refusal := .next s.joinCmd

/-- AUTO_JOIN (R44, R57): with MODE_CFG.AUTO_JOIN, on entry to ISOLATED from BOOT and once the footprint fits after a channel fence. -/
def execAutoJoin (s : State) : Host.Outcome State Fault Refusal :=
  if s.mode = .isolated ∧ s.bsv.autoJoinArmed = true ∧ s.flag R.BSV.MODE_CFG.AUTO_JOIN = true ∧ s.shortGib s.usableGib = 0 then
    .next ({ s with bsv := { s.bsv with autoJoinArmed := false } }).joinCmd
  else .next s

/-- The bound entries a Gondola's grains make (R135). -/
def gonEntry (i : Nat) (g : GonGrain) : SbEnt :=
  { txn := 0, slot := i, slice := g.slice, ns := g.ns, gi := g.gi, data := g.data, tag := g.tag, ostamp := some g.ostamp }

/-- A Gondola without a valid seal is reported in EVR as VAULT_INCOMPLETE (R82, Table 17-10): head and claim generation. -/
def State.vaultIncomplete (s : State) (head gen : Nat) : State := s.evrEvent 4 Unit.bsv (head % 256 + 256 * (gen % 2 ^ 32))

/-- Load the maps for SERVE_SOLO from every source, with the grains of every sealed Gondola, and report those without a seal (R82, R131,
R133 to R135, R388). They count as replayed once the head is in SOLO. -/
def State.soloLoad (s : State) (f : Found) : Option State :=
  (s.loadMaps f none).map (fun s =>
    let gs := (f.gons.filter sealedGon).flatMap (fun g => g.grains)
    (f.gons.filter (fun g => !sealedGon g)).foldl (fun s g => s.vaultIncomplete g.head g.gen) { s with io := { s.io with sb := gs.zipIdx.map (fun p => gonEntry p.2 p.1) } })

/-- SERVE_SOLO (R57, R65, R70, R82, Table 2-11): the maps are loaded, then every die is claimed; quorum is waited for. -/
def State.serveSolo (s : State) (f : Found) : State :=
  if s.bsv.pending then s.modeResult 6
  else if s.mode ≠ .isolated then s.modeResult 2
  else if !s.witOn then s.modeResult 8
  else if s.hbRecent || s.witRecent 20000000 then s.modeResult 4
  else
    match s.soloLoad f with
    | none => (s.wf R.CPL.JOIN_STAT.REASON 0x0A).modeResult 8
    | some t =>
      if t.shortGib t.usableGib ≠ 0 ∨ t.ctBitsOk = false then s.modeResult 8
      else ({ t.modeResult 0 with bsv := { t.bsv with pending := true, soloAsked := true, lossAt := some t.now, autoJoinArmed := false } }).claimAll

/-- SERVE_SOLO: BSV.MODE_CMD 0x02. -/
def execServeSolo (found : Found) (s : State) : Host.Outcome State Fault Refusal := .next (s.serveSolo found)

/-- The partner is in PAIRED, as its HEARTBEAT shows. -/
def State.partnerPaired (s : State) : Bool := s.hbRecent && s.cpl.hbMode == 4

/-- HANDOVER (R53, R54, R57, R72). -/
def State.handoverCmd (s : State) : State :=
  if s.bsv.pending then s.modeResult 6
  else if s.mode ≠ .paired then s.modeResult 2
  else if !s.partnerPaired then s.modeResult 3
  else (s.modeResult 0).handoverStart 0x01

/-- HANDOVER: BSV.MODE_CMD 0x03. -/
def execHandover (s : State) : Host.Outcome State Fault Refusal := .next s.handoverCmd

/-- STOP (R53, R54, R56): the head leaves SOLO once admitted commands have completed. -/
def State.stopCmd (s : State) : State :=
  if s.bsv.pending then s.modeResult 6
  else if s.mode ≠ .solo then s.modeResult 2
  else ({ s.modeResult 0 with bsv := { s.bsv with pending := true, stopAsked := true } }).settle

/-- STOP: BSV.MODE_CMD 0x04. -/
def execStop (s : State) : Host.Outcome State Fault Refusal := .next s.stopCmd

/-- Every host port that is up loses its link. -/
def State.portsDown (s : State) : State := (List.range 64).foldl (fun s l => if s.lportUp l then s.dropLport l else s) s

/-- ENTER_SERVICE (R53, R54, R56): host ports go to electrical idle and Carid down. -/
def State.serviceCmd (s : State) : State :=
  if s.bsv.pending then s.modeResult 6
  else if s.mode ≠ .isolated then s.modeResult 2
  else (((s.modeResult 0).enter .service 0x01).portsDown).cplDown

/-- ENTER_SERVICE: BSV.MODE_CMD 0x05. -/
def execEnterService (s : State) : Host.Outcome State Fault Refusal := .next s.serviceCmd

/-- A write of BSV.MODE_CMD (R52 to R57); found is what a SERVE_SOLO reads on the Shelf. -/
def State.modeCmd (s : State) (v : Nat) (found : Found) : State :=
  if v = 1 then s.joinCmd
  else if v = 2 then s.serveSolo found
  else if v = 3 then s.handoverCmd
  else if v = 4 then s.stopCmd
  else if v = 5 then s.serviceCmd
  else if s.bsv.pending then s.modeResult 6
  else s.modeResult 1

/-! ## VAULT (R75 to R80, R708) -/

/-- Enter VAULT (R75): admission and completions stop, CPL goes DOWN, host lanes go idle; the Gondola is started. -/
def State.enterVault (s : State) (cause : Nat) (save : Bool) : State :=
  let s := s.enter .vault cause
  let s := { s with bsv := { s.bsv with vaultAt := s.now, vaultDone := false, lossAt := none, leaveCause := none, stopAsked := false },
                    sgb := { s.sgb with vault := [], vaultStuck := false, sealing := none } }
  let s := s.ddcPower 0
  let s := (s.cplDown).portsDown.rplSettle.muteDies
  let s := { s with io := { s.io with cmds := [], unack := [], ana := [], anaChg := [] } }
  if save then s.vaultStart else { s with bsv := { s.bsv with vaultDone := true, silent := true } }

/-- EVR writes nothing more, and its open periods are lost (R659). -/
def State.evrStop (s : State) : State :=
  { s with evr := { s.evr with queue := [], hour := {}, day := {}, month := {}, gap := [true, true, true] } }

/-- PWR_FAIL_FALL (R75, R76, R623, R659, R702): a low level of 0.5 µs or longer. -/
def execPwrFailFall (lowNs : Nat) (s : State) : Host.Outcome State Fault Refusal :=
  if lowNs < 500 ∨ s.pins.pwrFailN = false then .next s
  else
    let s := { s with pins := { s.pins with pwrFailN := false, pwrFallAt := s.now } }
    let s := if serving s.mode then s.enterVault 0x03 true else s
    .next s.evrStop

/-- PWR_FAIL_RISE (R79, R91, R700). -/
def execPwrFailRise (s : State) : Host.Outcome State Fault Refusal :=
  if s.pins.pwrFailN then .next s
  else .next { s with pins := { s.pins with pwrFailN := true, pwrRiseAt := some s.now } }

/-- GONDOLA_SEAL (R77, R80): once every vault segment is written, within the second that R80 gives, the seal is programmed. The Gondola is
sealed when the seal's own units have been answered. -/
def execGondolaSeal (s : State) : Host.Outcome State Fault Refusal :=
  if s.mode = .vault ∧ s.bsv.vaultDone = false ∧ s.sgb.vaultStuck = false ∧ s.sgb.sealing.isNone ∧ s.now < s.bsv.vaultAt + oneS then
    let s := s.vaultPump.vaultCheck
    .next (if s.vaultWritten then s.vaultSealed.vaultCheck else s)
  else .next s

/-- GONDOLA_ABANDON (R80): after 1 s, without room or without a row, no seal is written and no flash operation starts. -/
def execGondolaAbandon (s : State) : Host.Outcome State Fault Refusal :=
  if s.mode = .vault ∧ s.bsv.vaultDone = false ∧ (s.sgb.vaultStuck = true ∨ s.bsv.vaultAt + oneS ≤ s.now) then
    .next { s.muteDies with bsv := { s.bsv with vaultDone := true, silent := true }, sgb := { s.sgb with vault := [], sealing := none } }
  else .next s

/-! ## Reset (R698, Table 18-6) -/

/-- What a reset keeps: what lies outside the die, the fuses, the boot flash with what it holds, the RTC on VBAT, pins and the
fences of pseudo-channels that wait for BOOT (R49, R94, Table 18-6). Journal pages, checkpoints and the meter log lie on the Shelf. -/
def State.resetTo (s : State) : State :=
  let was := s.mode
  let pcp := s.rf R.HBC.PC_PENDING.PC
  let last := s.slm.log.getLast?
  let t : State := { pending := s.pending, now := s.now, freeCtr := s.freeCtr, out := s.out, flash := s.flash, bridges := s.bridges, fuses := s.fuses, straps := s.straps }
  let t := { t with
    pins := { s.pins with readyRemoveN := true, ejectReported := false }
    tbs := { rtc := s.tbs.rtc, rtcFrac := s.tbs.rtcFrac, rtcValid := s.tbs.rtcValid, rtcLost := s.tbs.rtcLost, ceilSeq := s.tbs.ceilSeq, epochUtc := s.tbs.epochUtc }
    bsv := { arrayId := s.bsv.arrayId, pref := s.bsv.pref, acver := s.bsv.acver, cab := s.bsv.cab, cabSeq := s.bsv.cabSeq, cabSectorSeq := s.bsv.cabSectorSeq
             bootRec := s.bsv.bootRec, incomplete := s.bsv.incomplete }
    evr := { lastEnd := s.evr.lastEnd, seqs := s.evr.seqs, pos := s.evr.pos, spare := s.evr.spare }
    dram := { fitted := s.dram.fitted, dpc2 := s.dram.dpc2, fixedGib := s.dram.fixedGib }
    io := { resv := s.io.resv }
    mpe := { ckpt := s.mpe.ckpt, log := s.mpe.log }
    slm := { log := s.slm.log, seq := (last.map (fun (e : Nat × Bytes) => e.1 + 1)).getD 0, chain := (last.map (fun (e : Nat × Bytes) => sha256 e.2)).getD [] }
    jlk := { ends := s.jlk.ends.filter (fun e => decide (64 ≤ e.1)) }
    sec := s.sec.kept }
  let t := ((t.wf R.HBC.PC_PENDING.PC pcp).wf R.CPL.ACVER.MINOR t.bsv.acver).wf R.BSV.CAB_FREE.SECTORS t.cabFreeSectors
  t.evrEvent 1 Unit.bsv (modeCode .boot + 256 * modeCode was)

/-- RESET_ASSERT (R56, R698): a low level of 1 µs or longer takes the device to BOOT. -/
def execResetAssert (lowNs : Nat) (s : State) : Host.Outcome State Fault Refusal :=
  if lowNs < 1000 ∨ s.pins.resetN = false then .next s
  else
    let t := s.resetTo
    .next { t with pins := { t.pins with resetN := false, resetFallAt := s.now } }

/-! ## The boot sequence (R92, R621, R622, R627, R659, R699, R700, Table 16-7) -/

/-- Pseudo-channel fences that waited for BOOT take effect, and the regions shrink with them (R43, R49). -/
def State.hbmFences (s : State) : State :=
  let ps := onesBelow (s.rf R.HBC.PC_PENDING.PC) 64
  (ps.foldl (fun s p => s.markFenced Pg.HBC p) s).wf R.HBC.PC_PENDING.PC 0

/-- Usable size of each HBM region: its full size by the enabled pseudo-channels, in 2 MiB steps (R43). -/
def State.hbmRegions (s : State) : State :=
  let full : List Nat := [12884901888, 12884901888, 17179869184, 4294967296, 4294967296]
  { s with dram := { s.dram with regions := full.map (fun r => r * s.rf R.HBC.STAT.ENABLED / 64 / 2097152 * 2097152) } }

/-- The service address from Cabinet: 4 bytes of address and 1 of prefix length (R627; layout log 61), else 192.168.254.20 + SLOT_ID. -/
def State.svcAddress (s : State) : State :=
  match s.cabValue 2 0 0 with
  | some b => (s.wf R.BSV.SVC_IP.ADDR (leAt b 0 4)).wf R.BSV.SVC_MASK.PREFIX (leAt b 4 1)
  | none => s.wf R.BSV.SVC_IP.ADDR (0xC0A8FE14 + s.pins.slotId)

/-- The boot sequence from the ceiling log on (R92, R621, R659): bad are the slots that do not read back. -/
def State.bootGo (s : State) (bad : List Nat) : State :=
  let c := s.ceilRead
  let utc := if s.tbs.rtcValid then some (rtcNs s.tbs.rtc) else none
  let ceil := (c.map Prod.fst).getD 0
  let low := match c with | some p => p.1 + oneS | none => 0
  let rtc := match s.tbs.epochUtc, utc with | some e, some t => t - e | _, _ => 0
  let start := max low rtc
  let s := { s with bsv := { s.bsv with bootHeld := false, bootBad := [] }
                    tbs := { s.tbs with startS := start, rtcRead := utc, bootCeiling := ceil, ceilSeq := match c with | some p => p.2 | none => s.tbs.ceilSeq } }
  let s := (s.wf R.TBS.CEILING.CEIL ceil).ceilBegin (start + 20 * oneS)
  let s := s.svcAddress.slotChoice start bad
  let s := s.evrEvent 5 Unit.bsv ceil
  let s := { s with evr := { s.evr with gap := [true, true, true] } }
  if s.bsv.imageLoaded then s else s.enter .service 0x09

/-- RESET_RELEASE (R49, R33, R621, R698 to R701): straps are sampled, fuses loaded and the boot sequence begins; at power-up the
rails have been good for 10 ms (R698). A low PWR_FAIL_N holds it after the fuses (R700). -/
def execResetRelease (bad : List Nat) (s : State) : Host.Outcome State Fault Refusal :=
  if s.pins.resetN = true ∧ s.fcl.fusesLoaded = true then .next s
  else
    let low := if s.pins.railsGood then s.pins.prsntLowAt else s.now - 10000000
    let s := { s with pins := { s.pins with resetN := true, railsGood := true, vbat := true, prsntLowAt := low }
                      straps := { head := s.pins.slotId % 2, serviceEn := s.pins.serviceEn }
                      fcl := { s.fcl with fusesLoaded := true }
                      dram := { s.dram with salt := Config.random64 s.freeCtr % 2 ^ 64 } }
    let s := ((s.draw).wf R.BSV.SECVER.FUSES s.fuses.antiRollback).hbmFences.hbmRegions.secBoot.evrBoot
    if !s.straps.serviceEn then .next (s.enter .service 0x08)
    else if !s.flashOk then .next { s with bsv := { s.bsv with bootHeld := true, bootBad := bad } }
    else .next (s.bootGo bad)

/-- The boot sequence goes on once PWR_FAIL_N has been high for 100 ms (R700). -/
def State.bootResume (s : State) : State := if s.bsv.bootHeld && s.flashOk then s.bootGo s.bsv.bootBad else s

/-- Every enabled JLK position and CPL have left TRAIN (R622, R701). -/
def State.trained (s : State) : Bool :=
  (List.range (positionsOf s.fuses.variant)).all (fun m => (s.linkEnd m).state != lTrain) && s.rf R.CPL.LINK_STAT.STATE != lTrain

/-- Pseudo-channels that fail training are fenced at once, and channels under R44 (R49, Table 1-12). -/
def State.trainDone (s : State) (badPc : List (Fin 64)) (badCh : List (Fin 16)) : State :=
  let s := (badPc.map Fin.val).foldl (fun s p =>
    let s := (s.raiseU Pg.HBC 4 p).markFenced Pg.HBC p
    s.wf R.HBC.PC_PENDING.PC (setBit (s.rf R.HBC.PC_PENDING.PC) p false)) s
  let s := s.hbmRegions
  let s := (s.wf R.DDC.STAT.CH_EN 0xFFFF).wf R.DDC.STAT.DPC2 (b2n s.dram.dpc2)
  let s := s.wf R.DDC.STAT.SPEED (if s.dram.dpc2 then 1 else 2)
  let s := (badCh.map Fin.val).foldl (fun s c => s.raiseU Pg.DDC 3 c) s
  s.wf R.DDC.USABLE.GIB s.usableGib

/-- A Gondola of this head found at boot (R81, R82): sealed with its claim generation, or without a valid seal. It is discarded when
the partner serves with a higher generation. -/
def State.gondolaFound (s : State) (gon : Option (Bool × Nat)) : State :=
  match gon with
  | none => s
  | some (false, gen) => s.vaultIncomplete s.head gen
  | some (true, gen) =>
    let theirs := (s.hbRecent || s.witRecent 20000000) && decide (gen < s.jlk.gen)
    { s with bsv := { s.bsv with gondolaValid := !theirs, gondolaGen := gen } }

/-- BOOT_COMPLETE (R44, R56, R81, R82, R622): badPc and badCh failed training; gon tells of a Gondola of this head. -/
def execBootComplete (badPc : List (Fin 64)) (badCh : List (Fin 16)) (gon : Option (Bool × Nat)) (s : State) : Host.Outcome State Fault Refusal :=
  if s.mode ≠ .boot ∨ s.bsv.imageLoaded = false ∨ s.trained = false then .next s
  else
    let s := (s.trainDone badPc badCh).gondolaFound gon
    .next { s.enter .isolated 0x00 with bsv := { (s.enter .isolated 0x00).bsv with autoJoinArmed := true } }

/-- VAULT_EXIT (R55, R79, R80): the Gondola is sealed or abandoned and PWR_FAIL_N has been high for 100 ms. The change to BOOT shows the
mode it left and its ESTAMP, and raises the mode-change interrupt. -/
def execVaultExit (bad : List Nat) (s : State) : Host.Outcome State Fault Refusal :=
  if s.mode = .vault ∧ s.bsv.vaultDone = true ∧ s.flashOk = true then
    let at_ := s.estamp
    let s := s.resetTo
    let s := ({ s with bsv := { s.bsv with prev := some .vault } }.wf R.BSV.MODE_STAMP.ESTAMP at_).event Pg.BSV
    let s := { s with fcl := { s.fcl with fusesLoaded := true }, dram := { s.dram with salt := Config.random64 s.freeCtr % 2 ^ 64 } }
    .next ((((s.draw).wf R.BSV.SECVER.FUSES s.fuses.antiRollback).hbmFences.hbmRegions.secBoot.evrBoot).bootGo bad)
  else .next s

/-! ## Presence, lanes and the latch (R706 to R709) -/

/-- Every lane goes idle: host ports, the Annex port, Jonan positions and Carid (R708). -/
def State.lanesIdle (s : State) : State :=
  let s := (s.portsDown).cplDown
  let s := ((s.io.conns.filter (fun e => e.2.xport == 3)).map Prod.fst).foldl (fun s q => s.endConn q) s
  (List.range 64).foldl (fun s m => s.linkDown m) { s with pins := { s.pins with lanesEnabled := false } }

/-- PRSNT_RISE (R80, R708): lanes go idle; a serving head enters VAULT and abandons its Gondola at once. -/
def execPrsntRise (s : State) : Host.Outcome State Fault Refusal :=
  if s.pins.prsntN then .next s
  else
    let s := { s with pins := { s.pins with prsntN := true } }
    let s := if serving s.mode then s.enterVault 0x0E false else s
    .next s.lanesIdle

/-- PRSNT_FALL (R707). -/
def execPrsntFall (s : State) : Host.Outcome State Fault Refusal :=
  if s.pins.prsntN then .next { s with pins := { s.pins with prsntN := false, prsntLowAt := s.now } } else .next s

/-- LANE_ENABLE (R707): PRSNT_N has been low with rails good for 50 ms. -/
def execLaneEnable (s : State) : Host.Outcome State Fault Refusal :=
  if !s.pins.prsntN && s.pins.railsGood && decide (s.pins.prsntLowAt + 50000000 ≤ s.now) then
    .next { s with pins := { s.pins with lanesEnabled := true } }
  else .next s

/-- EJECT_REQ (R56, R709): a fall that outlasted its debounce starts HANDOVER in PAIRED, or is reported to firmware. -/
def execEjectReq (s : State) : Host.Outcome State Fault Refusal :=
  let s := { s with pins := { s.pins with ejectReqN := false } }
  if s.mode = .paired ∧ s.flag R.BSV.MODE_CFG.EJECT_HANDOVER = true ∧ s.partnerPaired = true then .next (s.handoverStart 0x04)
  else .next ({ s with pins := { s.pins with ejectReported := true } }.event Pg.BSV)

/-! ## Power (R94, R693, R697) -/

/-- POWER_DOWN (R49, R693): the rails fall once RESET_N has been low for 10 µs or PWR_FAIL_N for the hold-up of R78. Pending fences
go with the last rail. -/
def execPowerDown (s : State) : Host.Outcome State Fault Refusal :=
  let reset := !s.pins.resetN && decide (s.pins.resetFallAt + 10000 ≤ s.now)
  let fail := !s.pins.pwrFailN && decide (s.pins.pwrFallAt + 1200000000 ≤ s.now)
  if !s.pins.railsGood ∨ !(reset || fail) then .next s
  else
    let t := s.resetTo
    .next { t.wf R.HBC.PC_PENDING.PC 0 with pins := { t.pins with resetN := false, railsGood := false, lanesEnabled := false } }

/-- VBAT_LOSS (R94): VBAT is lost while every other rail is off: the RTC stops until the rails return
(VBAT then counts as present again, log 3). The count it restarts from is 0 (DESIGN CHOICE, log 79: the spec gives VALID and RTC_LOST only). -/
def execVbatLoss (s : State) : Host.Outcome State Fault Refusal :=
  if s.pins.railsGood then .next s
  else .next { s with pins := { s.pins with vbat := false }
                      tbs := { s.tbs with rtc := 0, rtcFrac := 0, rtcValid := false, rtcLost := true } }

/-- REFCLK_PCIE_CHANGE (R697): without REFCLK_PCIE the Annex port is in reset, and what was connected there ends. -/
def execRefclkPcieChange (present : Bool) (s : State) : Host.Outcome State Fault Refusal :=
  let s := { s with pins := { s.pins with refclkPcie := present } }
  if present then .next s
  else
    let s := ((s.io.conns.filter (fun e => e.2.xport == 3)).map Prod.fst).foldl (fun s q => s.endConn q) s
    .next ({ s with irq := { s.irq with msixEnabled := false } }).settle

end Sys2Proof.Machine
end

