-- ==== Sys2Proof/Machine/Memctl.lean ====
section
/-! DEFINITION. HBC and DDC, occurrences of error sources, and what a fence does to ports and links (R40 to R49, R643, R648, R712, R715). -/
namespace Sys2Proof.Machine

/-! ## What fenced lanes take down (R42, Table 1-8) -/

/-- A logical port uses a fenced lane. -/
def State.lportFenced (s : State) (l : Nat) : Bool :=
  let p := l / 4
  (lportLanes (s.portMode p) (l % 4)).any (fun j => bit (s.rf (R.HFX.PORT_STAT.FENCED (portH p) (portN p))) j)

/-- Both lanes of a module position are fenced. -/
def State.posFenced (s : State) (m : Nat) : Bool := s.laneFenced m 0 && s.laneFenced m 1

/-! ## What becomes of the work of a fenced DGE or CPH core (R40) -/

/-- The lowest enabled core of an engine with n cores that none of the given ones is. -/
def State.freeCore (s : State) (page n : Nat) (used : List Nat) : Option Nat :=
  (List.range n).find? (fun u => !(s.fencedUnits page).contains u && !used.contains u)

/-- Free core of DGE, and of CPH. -/
def State.dgeFree (s : State) : Option Nat := s.freeCore Pg.DGE 96 (s.sec.dreq.filterMap (fun e => e.2.core))
def State.cphFree (s : State) : Option Nat :=
  s.freeCore Pg.CPH 48 (s.sec.creq.filterMap (fun e => if e.2.core.isSome then some e.2.unit else none))

/-- BUSY of DGE.STAT and CPH.STAT: firmware requests on cores. -/
def State.engineShow (s : State) : State :=
  (s.wf R.DGE.STAT.BUSY ((s.sec.dreq.filter (fun e => e.2.core.isSome)).length)).wf R.CPH.STAT.BUSY ((s.sec.creq.filter (fun e => e.2.core.isSome)).length)

/-- Write STATUS of a descriptor (Table 14-4). -/
def State.dStatus (s : State) (a v : Nat) : State := s.store (hbmBase + a + 0x38) (le v 1)

/-- Give a free core to a message that lost its own: it starts again from its first byte (R40, R531). -/
def State.dgeAgain (s : State) : State :=
  match s.sec.dreq.find? (fun e => e.2.core.isNone), s.dgeFree with
  | some (k, _), some u =>
    { s with sec := { s.sec with dreq := aupd s.sec.dreq k (fun (r : DgeReq) => { r with core := some u, at0 := s.now, last := s.now }) } }
  | _, _ => s

/-- DGE messages on fenced cores go to others or wait; with every core fenced they end NO_CORE (R40, R547). -/
def State.dgeFenced (s : State) : State :=
  let f := s.fencedUnits Pg.DGE
  let hit := s.sec.dreq.filter (fun e => match e.2.core with | some u => f.contains u | none => false)
  let s := { s with sec := { s.sec with dreq := amap s.sec.dreq (fun _ (r : DgeReq) => { r with core := r.core.filter (fun u => !f.contains u) }) } }
  if s.unitsLeft Pg.DGE 0 96 = 0 then
    let s := s.sec.dreq.foldl (fun s e => (s.dStatus e.2.desc 10).inc R.DGE.CNT_FAIL.COUNT) s
    { s with sec := { s.sec with dreq := [] } }
  else hit.foldl (fun s _ => s.dgeAgain) s

/-- CPH requests on fenced cores go to others or back into their queue; with every core fenced all end NO_CORE (R40, R547). -/
def State.cphFenced (s : State) : State :=
  let f := s.fencedUnits Pg.CPH
  let hit := s.sec.creq.filter (fun e => e.2.core.isSome && f.contains e.2.unit)
  let s := { s with sec := { s.sec with creq := amap s.sec.creq (fun _ (r : CphReq) => if f.contains r.unit then { r with core := none } else r) } }
  if s.unitsLeft Pg.CPH 0 48 = 0 then
    let s := s.sec.creq.foldl (fun s e => (s.dStatus e.2.desc 10).raise Pg.CPH 0) s
    { s with sec := { s.sec with creq := [] } }
  else hit.foldl (fun s e =>
    match s.cphFree with
    | some u => { s with sec := { s.sec with creq := aupd s.sec.creq e.1 (fun (r : CphReq) => { r with core := some s.now, unit := u }) } }
    | none => s) s

/-- After a fence: work of fenced DGE and CPH cores is dispatched again, logical ports on fenced lanes go down, a module without a lane is
absent, and Carid below 16 lanes is down. -/
def State.fenceSync (s : State) : State :=
  let s := s.dgeFenced.cphFenced.engineShow
  let s := (List.range 64).foldl (fun s l => if s.lportUp l && s.lportFenced l then s.dropLport l else s) s
  let s := (List.range 64).foldl (fun s m => if (s.linkEnd m).state != lDown && s.posFenced m then s.linkDown m else s) s
  let s := if s.rf R.CPL.LINK_STAT.STATE ≠ lDown ∧ s.unitsLeft Pg.CPL 0 32 < 16 then s.cplDown else s
  s.rplSettle

/-- CTL_FENCE_WRITE (R42, R678): CTL.FENCE written 1. -/
def execCtlFenceWrite (page : Fin 64) (s : State) : Host.Outcome State Fault Refusal :=
  .next (if s.pageLive page.val then (s.fenceBlock page.val).fenceSync else s)

/-- ERR_INJ_WRITE (R646): a write to a page's ERR_INJ. -/
def execErrInjWrite (page : Fin 64) (v : BitVec 32) (s : State) : Host.Outcome State Fault Refusal :=
  .next (if s.pageLive page.val then (s.errInj page.val v.toNat).fenceSync else s)

/-! ## Corrected errors (R48) -/

/-- Corrected errors of this window above the threshold, reported once in a window: HBC source 3 or DDC source 2. -/
def State.ceCheck (s : State) (hbm : Bool) (u : Nat) : State :=
  let key := if hbm then u else 64 + u
  let n := if hbm then agetD s.dram.hbmCe u 0 else agetD s.dram.ddrCe u 0
  let thr := if hbm then s.rf R.HBC.CE_THR.COUNT else s.rf R.DDC.CE_THR.COUNT
  if n ≤ thr ∨ s.dram.ceOver.contains key = true then s
  else
    let s := { s with dram := { s.dram with ceOver := s.dram.ceOver ++ [key] } }
    if hbm then s.raiseU Pg.HBC 3 u else s.raiseU Pg.DDC 2 u

/-- One corrected error of a pseudo-channel or a channel. -/
def State.ceCount (s : State) (hbm : Bool) (u : Nat) : State :=
  let s := if hbm then { s.inc R.HBC.CNT_CE.COUNT with dram := { s.dram with hbmCe := abump s.dram.hbmCe u 1 } }
    else { s.inc R.DDC.CNT_CE.COUNT with dram := { s.dram with ddrCe := abump s.dram.ddrCe u 1 } }
  s.ceCheck hbm u

/-- CE_WINDOW_END (R48): an hour of ESTAMP has passed. The first window begins at ESTAMP 0 and each later one at the ESTAMP of the row that
ends the one before (DESIGN CHOICE, log 80: the spec gives no origin). -/
def execCeWindowEnd (s : State) : Host.Outcome State Fault Refusal :=
  if s.estamp < s.dram.windowAt + hourNs then .next s
  else
    let s := (List.range 64).foldl (fun s u => s.ceCheck true u) s
    let s := (List.range 16).foldl (fun s u => s.ceCheck false u) s
    .next { s with dram := { s.dram with hbmCe := [], ddrCe := [], ceOver := [], windowAt := s.estamp } }

/-! ## Fences of channels (R44, R49) -/

/-- HBC_FENCE (R49): HBC.FENCE_CMD written with FENCE 1: the fence waits for the next BOOT. -/
def State.hbcFence (s : State) (pc : Nat) : State := if (s.fencedUnits Pg.HBC).contains pc then s else s.fence Pg.HBC pc

/-- HBC_FENCE: a write of HBC.FENCE_CMD. -/
def execHbcFence (pc : Fin 64) (s : State) : Host.Outcome State Fault Refusal := .next (s.hbcFence pc.val)

/-- DDC_FENCE (R44): DDC.FENCE_CMD written with FENCE 1 fences the channel at once. -/
def State.ddcFence (s : State) (ch : Nat) : State :=
  if (s.fencedUnits Pg.DDC).contains ch then s else s.fence Pg.DDC ch

/-- DDC_FENCE: a write of DDC.FENCE_CMD. -/
def execDdcFence (ch : Fin 16) (s : State) : Host.Outcome State Fault Refusal := .next (s.ddcFence ch.val)

/-- DDR_CHANNEL_LOSS (R44, Table 1-12): a channel has lost a DIMM. -/
def execDdrChannelLoss (ch : Fin 16) (s : State) : Host.Outcome State Fault Refusal := .next (s.raiseU Pg.DDC 3 ch.val)

/-! ## The scrub and the refresh rate (R45, R712) -/

/-- Scrub period in ns; a value outside 1 to 168 hours acts as the nearer limit (log 62). -/
def State.scrubPeriod (s : State) : Nat := min 168 (max 1 (s.rf R.DDC.SCRUB_CFG.HOURS)) * hourNs

/-- An uncorrectable error of DRAM (R47). -/
def State.ddcUe (s : State) (addr ch : Nat) : State :=
  ((s.inc R.DDC.CNT_UE.COUNT).wf R.DDC.UE_ADDR.ADDR addr).raiseU Pg.DDC 1 ch

/-- The channel a DRAM line lies on: R33's hash of the address under the salt of this BOOT, over the channels in use. -/
def State.dramChan (s : State) (line : Nat) : Nat :=
  let up := onesBelow (s.rf R.DDC.STAT.CH_EN) 16
  nthD up (Config.dramHash s.dram.salt line % up.length) 0

/-- HBM_REFRESH_DOUBLE (R712): a stack's sensor exceeds 85 °C. -/
def execHbmRefreshDouble (stack : Fin 2) (temp : Int) (s : State) : Host.Outcome State Fault Refusal :=
  let f := if stack.val = 0 then R.HBC.STAT.HOT0 else R.HBC.STAT.HOT1
  if temp ≤ 85 ∨ s.flag f = true then .next s else .next ((s.wf f 1).raise Pg.HBC 5)

/-- HBM_REFRESH_NORMAL (R712): the sensor is below 82 °C. -/
def execHbmRefreshNormal (stack : Fin 2) (temp : Int) (s : State) : Host.Outcome State Fault Refusal :=
  if 82 ≤ temp then .next s else .next (s.wf (if stack.val = 0 then R.HBC.STAT.HOT0 else R.HBC.STAT.HOT1) 0)

/-! ## Occurrences (R47, R297, R643) -/

/-- A host command whose data an uncorrectable HBM error has hit fails with Internal Error (R47); stamped work goes on. -/
def State.hitCmd (s : State) (op : Nat) : State :=
  match aget s.io.cmds op with
  | none => s
  | some c =>
    if c.stage == .stamped || 0x300 ≤ c.opc then s
    else if writes c.opc then (s.failWrite op 0 0x06 false).settle
    else (s.failCmd op 0 0x06 false c.slba).settle

/-- A map page that a command reads is unreadable (R47, R258). -/
def State.hitMap (s : State) (op gi : Nat) : State :=
  match aget s.io.cmds op with
  | none => s
  | some c =>
    let s := s.mapFail c.ns (pageIx 0 (pageOf 0 gi))
    if c.stage == .stamped || 0x300 ≤ c.opc then s
    else if writes c.opc then (s.failWrite op 2 0x81 (s.mode == .solo)).settle
    else (s.failCmd op 2 0x81 (s.mode == .solo) c.slba).settle

/-- A content-table line is unreadable (R47, R258): in SOLO its record is rebuilt from the newest checkpoint and the journal. In PAIRED MPE takes
the partner's copy, which is the record as it stands: the spec gives no frame for it (log 86). -/
def State.hitCt (s : State) (cid : Nat) : State :=
  if s.mode = .solo then s.ctPut cid (agetD (s.replica s.mpe.top).ct cid {}) else s

/-- What an uncorrectable error hit (R47): a host command fails, a hot-fingerprint entry reads as absent, a core's read takes an access
fault, a map page or content-table line is MPE's to replace, and any other DRAM entry stays unreadable until it is written. -/
def State.strike (s : State) (v : Struck) : State :=
  match v with
  | .nothing => s
  | .cmd op => s.hitCmd op
  | .hot cid => { s with mpe := { s.mpe with hfc := adel s.mpe.hfc cid } }
  | .map op gi => s.hitMap op gi
  | .ct cid => s.hitCt cid
  | .line n => { s with dram := { s.dram with bad := if s.dram.bad.contains n then s.dram.bad else s.dram.bad ++ [n] } }
  | .core c addr => s.emit (.accessFault c addr)

/-- DDC_SCRUB (R33, R45, R47): one DRAM line of 64 bytes is read when its period is over; finding 0 clean, 1 corrected and written back,
2 uncorrectable, with what lies in the line. -/
def execDdcScrub (line : Nat) (finding : Fin 3) (hit : Struck) (s : State) : Host.Outcome State Fault Refusal :=
  let ch := s.dramChan line
  let due := match aget s.dram.scrub line with
    | some t => decide (t + s.scrubPeriod ≤ s.estamp)
    | none => true
  if !due then .next s
  else
    let s := { s with dram := { s.dram with scrub := aset s.dram.scrub line s.estamp } }
    if finding.val = 1 then .next ((s.raiseU Pg.DDC 0 ch).ceCount false ch)
    else if finding.val = 2 then .next (((s.ddcUe (line * 64) ch).strike hit).fenceSync)
    else .next s

/-- The source of an uncorrectable MPC line error: the line at this address is clean (0) or dirty (1) (R297). -/
def State.mpcSrc (s : State) (addr src : Nat) : Nat :=
  let set := s.mpcSet (addr / 64 * 64)
  match s.mpcWay set (addr / 64 * 64) with
  | some w => if (agetD s.mpc.lines (set * 12 + w) (0, false)).2 then 1 else 0
  | none => src

/-- An occurrence with what HBC, DDC and MPC do of their own (R45 to R48, R297); the channel of a DRAM error follows from its address (R33). -/
def State.occurrence (s : State) (page src : Nat) (unit : Option Nat) (detail : Nat) (hit : Struck) : State :=
  let src := if page = Pg.MPC ∧ src < 2 then s.mpcSrc detail src else src
  let unit := if page = Pg.DDC ∧ src < 2 then some (s.dramChan (detail / 64)) else unit
  let o : Occ := { page := page, src := src, unit := if namesUnit (blockOf page) src then unit else none, detail := detail }
  let u := unit.getD 0
  if page = Pg.HBC ∧ src = 0 then (s.occur o).ceCount true u
  else if page = Pg.DDC ∧ src = 0 then (s.occur o).ceCount false u
  else if page = Pg.HBC ∧ (src = 1 ∨ src = 2) then
    (((s.inc R.HBC.CNT_UE.COUNT).wf R.HBC.UE_ADDR.ADDR detail).occur o).strike hit
  else if page = Pg.DDC ∧ src = 1 then
    (((s.inc R.DDC.CNT_UE.COUNT).wf R.DDC.UE_ADDR.ADDR detail).occur o).strike hit
  else if page = Pg.CCL ∧ src = 3 then (s.occur o).strike hit
  else s.occur o

/-- ERROR_OCCURRENCE (R643, R648, R715): a source of a page, the unit it concerns where it names one, its detail (an address
for HBC, DDC and MPC), and what an uncorrectable error of HBC or DDC hit. -/
def execErrorOccurrence (page : Fin 64) (src : Fin 32) (unit : Option Nat) (detail : Nat) (hit : Struck) (s : State) :
    Host.Outcome State Fault Refusal :=
  let ok := s.pageLive page.val && decide (src.val < errSources (blockOf page.val))
    && (match unit with | some u => decide (u < unitsMax (blockOf page.val)) | none => true)
  if ok then
    .next (s.occurrence page.val src.val unit detail hit).fenceSync
  else .next s

end Sys2Proof.Machine
end

