-- ==== Sys2Proof/Machine/Replicate.lean ====
section
/-! DEFINITION. The commands of RPL and the events of its sessions, and the diff walk (R501 to R527). -/
namespace Sys2Proof.Machine

/-! ## Commands (R505, R523, R526, Table 13-7) -/

/-- Answer a command of RPL. -/
def State.rplDone (s : State) (r : Nat) : State := s.wf R.RPL.CMD_STAT.RESULT r

/-- START (R505): the checks in the order the rule names them; then the connection is asked for. -/
def State.rplStart (s : State) (i : Nat) : State :=
  let d := s.entry (s.outAddr i) 64
  let ns := leAt d 0x14 2
  let kind := leAt d 0x13 1
  let base := leAt d 0x18 4
  let new := leAt d 0x1C 4
  if 64 ≤ i ∨ kind = 0 ∨ 3 < kind ∨ 63 < leAt d 0x12 1 then s.rplDone 1
  else
    match s.nsOf ns with
    | none => s.rplDone 4
    | some n =>
      if !s.ownsGroup n.desc.group then s.rplDone 3
      else if !ahas n.slots new || (kind == 2 && !ahas n.slots base) then s.rplDone 4
      else if !s.flag R.RPL.KEY.VALID then s.rplDone 5
      else if (s.sessOf i).isSome then s.rplDone 2
      else
        let x : RSess := { state := 1, lport := leAt d 0x12 1, kind := kind, ns := ns, target := leAt d 0x16 2, base := base, new_ := new
                           sid := leAt d 0x20 4, rate := leAt d 0x24 4, array := leAt d 0x28 16, startAt := s.now, lastAt := s.now }
        let s := { s with rpl := { s.rpl with sess := aset s.rpl.sess i x } }
        (s.emit (.rspConnect i (leAt d 0 16) (leAt d 0x10 2) (leAt d 0x12 1))).rplDone 0

/-- CANCEL: a running session ends with ABORT CANCELLED. -/
def State.rplCancel (s : State) (i : Nat) : State := (s.rplAbort i 0x0E 0).rplDone 0

/-- The inbound session that waits for SEAL_ACK on a binding (R523). -/
def State.sealWait (s : State) (j : Nat) : Option (Nat × RSess) :=
  s.rpl.sess.find? (fun e => e.2.inbound && e.2.bind == j && e.2.state == 5 && e.2.slot.isSome)

/-- SEAL_ACK (R523): the target answers SEAL and closes the binding. -/
def State.rplSealAck (s : State) (j : Nat) : State :=
  match s.sealWait j with
  | none => s.rplDone 1
  | some (i, x) =>
    let q := x.sealReq.getD (0, 0, 0)
    let s := s.rspSend i (.seal_ x.sid q.1 (x.slot.getD 0) q.2.1 q.2.2)
    let s := s.updSess i (fun x => if x.state = 5 then { x with state := 6, tbs := [], exts := [] } else x)
    (s.bindState j 0).rplDone 0

/-- SEAL of a MIGRATE session (R526). -/
def State.rplSealCmd (s : State) (i : Nat) : State :=
  match s.sessOf i with
  | some x => if !x.inbound && x.kind == 3 && x.state == 4 then (s.updSess i (fun x => { x with sealAsked := true })).rplDone 0 else s.rplDone 1
  | none => s.rplDone 1

/-- START waits while RPL takes no new work (R675). -/
def State.rplStartCmd (s : State) (i : Nat) : State :=
  if s.blockOn Pg.RPL then s.rplStart i else { s with rpl := { s.rpl with held := s.rpl.held ++ [i] } }

/-- The STARTs that waited for RPL to take new work (R675). -/
def State.rplRestart (s : State) : State :=
  if s.blockOn Pg.RPL then s.rpl.held.foldl (fun s i => s.rplStart i) { s with rpl := { s.rpl with held := [] } } else s

/-- A write of RPL.CMD (Table 13-7). -/
def State.rplCmd (s : State) (op ix : Nat) : State :=
  (if op = 1 then s.rplStartCmd ix else if op = 2 then s.rplCancel ix else if op = 3 then s.rplSealAck ix
   else if op = 4 then s.rplSealCmd ix else s.rplDone 1).settle

/-- START (R505). -/
def execStartCmd (ix : Fin 1024) (s : State) : Host.Outcome State Fault Refusal := .next (s.rplCmd 1 ix.val)

/-- RPL_CANCEL (Table 13-7). -/
def execRplCancel (ix : Fin 1024) (s : State) : Host.Outcome State Fault Refusal := .next (s.rplCmd 2 ix.val)

/-- SEAL_ACK (R523). -/
def execSealAck (ix : Fin 1024) (s : State) : Host.Outcome State Fault Refusal := .next (s.rplCmd 3 ix.val)

/-- RPL_SEAL (R526). -/
def execRplSeal (ix : Fin 1024) (s : State) : Host.Outcome State Fault Refusal := .next (s.rplCmd 4 ix.val)

/-! ## Connections and HELLO (R506 to R509) -/

/-- The highest version this build knows (Table 13-4). -/
def State.rplMax (s : State) : Nat := min 3 (s.rf R.RPL.CFG.MAX_VER)

/-- Send HELLO, with a fresh nonce; the session waits for the peer's (R508). Without random data it ends with RESOURCE (R555, log 102). -/
def State.rspHello (s : State) (i : Nat) : State :=
  if s.rf R.SEC.STAT.RNG = 0 then s.rplEnd i 0x0B false else
  let p := s.newNonce
  let s := p.2.updSess i (fun x => { x with state := 2, nonce := p.1, lastAt := s.now })
  match s.sessOf i with
  | none => s
  | some x => s.rspSend i (.hello (s.rf R.RPL.CFG.MIN_VER + 16 * s.rplMax) (b2n x.inbound) s.arrayId p.1)

/-- RSP_CONNECT_ACCEPT (R506): a connection to RPL.CFG.PORT is accepted in PAIRED and SOLO, or reset while 64 sessions run; out
names the outbound session whose connection the target array has accepted. -/
def execRspConnectAccept (lport : Fin 64) (out : Option (Fin 64)) (s : State) (port : Fin 65536 := 7447) : Host.Outcome State Fault Refusal :=
  match out with
  | some i =>
    match s.sessOf i.val with
    | some x => .next (if !x.inbound && x.state == 1 then s.rspHello i.val else s)
    | none => .next s
  | none =>
    if (s.mode = .paired ∨ s.mode = .solo) ∧ s.blockOn Pg.RPL = true ∧ port.val = s.rf R.RPL.CFG.PORT ∧ s.lportUp lport.val = true then
      match s.freeSess with
      | some i =>
        let x : RSess := { state := 2, inbound := true, lport := lport.val, startAt := s.now, lastAt := s.now }
        .next ({ s with rpl := { s.rpl with sess := aset s.rpl.sess i x } }.rspHello i)
      | none => .next (s.emit (.rspReset lport.val))
    else .next s

/-- First 8 bytes of the key check value of a domain, zeros where it has no fingerprint key (R513). -/
def State.rplKcv (s : State) (dom : Nat) : Bytes :=
  match s.rplFpKey dom with
  | some k => (hmac k (ascii "RSP-KCV")).take 8
  | none => zeros 8

/-- Load the two keys of a session, here and in its CPH slots (R509). -/
def State.rplKeys (s : State) (i : Nat) (k : Bytes) (ver : Nat) (peer : Bytes) : State :=
  match s.sessOf i with
  | none => s
  | some x =>
    let src := if x.inbound then peer else x.nonce
    let tgt := if x.inbound then x.nonce else peer
    let k0 := rspKey k 0 src tgt ver
    let k1 := rspKey k 1 src tgt ver
    let n := s.rf R.RPL.CPH_BASE.SLOT + 2 * i
    let s := { s with sec := { s.sec with cph := aset (aset s.sec.cph (n % 8192) { kind := 2, key := k0 }) ((n + 1) % 8192) { kind := 2, key := k1 } } }
    s.updSess i (fun x => { x with ver := ver, txKey := if x.inbound then k1 else k0, rxKey := if x.inbound then k0 else k1, state := 3 })

/-- What follows the peer's HELLO (R508, R509, R512): version, keys, and at the source the array's identity and SESSION. -/
def State.rplHello (s : State) (i : Nat) (vers role array : Nat) (nonce : Bytes) : State :=
  match s.sessOf i with
  | none => s
  | some x =>
    let lo := max (s.rf R.RPL.CFG.MIN_VER) (vers % 16)
    let hi := min s.rplMax (vers / 16)
    if role ≠ b2n (!x.inbound) then s.rplAbort i 0x03 0
    else if hi < lo ∨ hi = 0 then s.rplAbort i 0x01 0
    else if x.kind = 3 ∧ !x.inbound ∧ hi < 3 then s.rplAbort i 0x01 0
    else
      match (if s.flag R.RPL.KEY.VALID then s.macKey (s.rf R.RPL.KEY.SLOT) else none) with
      | none => s.rplEnd i 0x02 false
      | some k =>
        let s := (s.rplKeys i k hi (padTo 16 nonce)).dgeRan 2
        if x.inbound then s.updSess i (fun x => { x with array := array })
        else if array ≠ x.array then s.rplAbort i 0x06 0
        else
          match s.nsOf x.ns with
          | none => s.rplAbort i 0x12 0
          | some n =>
            let dom := s.nsDom x.ns
            let s := if (s.rplFpKey dom).isSome then s.dgeRan 1 else s
            s.rspSend i (.session { sid := x.sid, kind := x.kind, offers := (s.rplFpKey dom).isSome, target := x.target, base := x.base
                                    new_ := x.new_, size := n.desc.size, lbaf := n.desc.lbaf, kcv := s.rplKcv dom })

/-- RSP_HELLO (R508). -/
def execRspHello (ix : Fin 64) (h : RHdr) (vers : Fin 256) (role : Fin 256) (array : BitVec 128) (nonce : Bytes) (s : State) :
    Host.Outcome State Fault Refusal :=
  match s.rspRecv ix.val h false with
  | (false, s) => .next s.settle
  | (true, s) =>
    match s.sessOf ix.val with
    | some x => .next (if x.state = 2 then s.rplHello ix.val vers.val role.val array.toNat nonce else s.rplAbort ix.val 0x03 0).settle
    | none => .next s

/-! ## SESSION (R507, R514, R515) -/

/-- The VALID binding of a source array and a target namespace (R514). -/
def State.bindingOf (s : State) (array target : Nat) : Option Nat :=
  (List.range 1024).find? (fun j => bit (s.bindFld j 0x12 2) 0 && s.bindFld j 0 16 == array && s.bindFld j 0x10 2 == target)

/-- Code of the first check of a SESSION that fails at the target, or its binding (R507, R514). -/
def State.sessionCheck (s : State) (i : Nat) (array ver : Nat) (b : RSession) : Nat ⊕ Nat :=
  if (match s.nsOf b.target with | some n => !s.ownsGroup n.desc.group | none => false) then .inl 0x11
  else if b.kind = 0 ∨ 3 < b.kind ∨ (b.kind = 3 ∧ ver < 3) then .inl 0x03
  else
    match s.bindingOf array b.target with
    | none => .inl 0x06
    | some j =>
      if s.rpl.sess.any (fun e => e.1 != i && e.2.running && e.2.inbound && decide (4 ≤ e.2.state) && e.2.bind == j) then .inl 0x10
      else
        match s.nsOf b.target with
        | none => .inl 0x07
        | some n =>
          if s.handleLive n.desc.slice || n.desc.view || n.desc.size != b.size || n.desc.lbaf != b.lbaf then .inl 0x07
          else if b.kind = 2 ∧ b.base ≠ s.bindFld j 0x18 4 then .inl 0x08
          else if b.kind = 3 ∧ bit (s.bindFld j 0x12 2) 1 = false then .inl 0x08
          else .inr j

/-- A SESSION that passed is accepted: the live root back to the last seal, STATE open, and the answer (R514, R515). -/
def State.sessionAccept (s : State) (i j : Nat) (b : RSession) : State :=
  let dom := s.bindFld j 0x14 2 % 1024
  let off := b.offers && (s.rplFpKey dom).isSome && s.rplKcv dom == padTo 8 b.kcv
  let s := if (s.rplFpKey dom).isSome then s.dgeRan 1 else s
  let s := (s.restoreRoot j).bindState j 1
  let s := s.updSess i (fun x => { x with state := 4, bind := j, ns := b.target, target := b.target, base := b.base, new_ := b.new_, sid := b.sid
                                          kind := b.kind, offers := off })
  s.rspSend i (.session { b with offers := off, base := s.bindFld j 0x18 4, kcv := s.rplKcv dom })

/-- SESSION (R513 to R515): at the target a request, at the source its answer. -/
def execSession (ix : Fin 64) (h : RHdr) (b : RSession) (s : State) : Host.Outcome State Fault Refusal :=
  match s.rspRecv ix.val h true with
  | (false, s) => .next s.settle
  | (true, s) =>
    match s.sessOf ix.val with
    | none => .next s
    | some x =>
      if x.state ≠ 3 then .next (s.rplAbort ix.val 0x03 0).settle
      else if x.inbound then
        match s.sessionCheck ix.val x.array x.ver b with
        | .inl c => .next (s.rplAbort ix.val c 0).settle
        | .inr j => .next (s.sessionAccept ix.val j b).settle
      else .next (s.updSess ix.val (fun x => { x with state := 4, offers := b.offers })).settle

/-! ## Records of a transfer (R516 to R521) -/

/-- A record of a transfer at the right end: accepted under R510 in state TRANSFER, with the session; FORMAT otherwise. -/
def State.rspIn (s : State) (i : Nat) (h : RHdr) (inbound : Bool) : Option RSess × State :=
  match s.rspRecv i h true with
  | (false, s) => (none, s)
  | (true, s) =>
    match s.sessOf i with
    | none => (none, s)
    | some x => if x.inbound = inbound ∧ x.state = 4 then (some x, s) else (none, s.rplAbort i 0x03 0)

/-- The lookup of a batch of offers (R518). -/
def State.rplOffers (s : State) (i batch : Nat) (x : RSess) (fps : List Bytes) : State :=
  let op := s.io.nextOp
  let c : IoCmd := { conn := none, cid := 0, adm := op, opc := oOffer, slice := ((s.nsOf x.ns).map (fun n => n.desc.slice)).getD 0, ns := x.ns
                     stage := .active, at0 := s.now, via := some (s.bindFld x.bind 0x14 2 % 1024, s.bindFld x.bind 0x16 2 % 8192)
                     grains := fps.zipIdx.map (fun p => { gi := p.2, fp := p.1, st := .bucket }) }
  let s := { s with io := { s.io with cmds := aset s.io.cmds op c, nextOp := op + 1 } }
  let s := s.updSess i (fun x => { x with tbs := x.tbs ++ [{ num := batch, fps := fps, op := some op }] })
  (List.range fps.length).foldl (fun s k => s.lookup op k) s

/-- OFFER (R518). -/
def execOffer (ix : Fin 64) (h : RHdr) (batch : Fin 4294967296) (fps : List Bytes) (s : State) : Host.Outcome State Fault Refusal :=
  match s.rspIn ix.val h true with
  | (none, s) => .next s.settle
  | (some x, s) =>
    if fps = [] ∨ 1024 < fps.length ∨ x.offers = false ∨ (x.tb batch.val).isSome = true then .next (s.rplAbort ix.val 0x03 0).settle
    else .next (s.rplOffers ix.val batch.val x (fps.map (padTo 32))).settle

/-- WANT (R516, R521): the source sends the grains whose bits are set; FINAL frees the batch. -/
def execWant (ix : Fin 64) (h : RHdr) (batch : Fin 4294967296) (final : Bool) (bits : List Bool) (s : State) : Host.Outcome State Fault Refusal :=
  match s.rspIn ix.val h false with
  | (none, s) => .next s.settle
  | (some x, s) =>
    match x.batches.find? (fun b => b.num == batch.val) with
    | none => .next (s.rplAbort ix.val 0x03 0).settle
    | some b =>
      if final then .next (s.updSess ix.val (fun x => { x with batches := x.batches.filter (fun y => y.num != batch.val) })).settle
      else if bits.length ≠ b.offers.length then .next (s.rplAbort ix.val 0x03 0).settle
      else
        let want := (List.range bits.length).filter (fun k => nthD bits k false)
        .next (s.rplServe ix.val { b with wants := b.wants ++ want.filter (fun k => !b.wants.contains k) }).settle

/-- One entry of a GRAIN record at the target (R520): the abort code, or the plaintext and its fingerprint. -/
def State.rplEntry (s : State) (x : RSess) (b : Option TBatch) (g : RGrain) : Nat ⊕ (Bytes × Bytes) :=
  let plain := if g.form = 1 then (match zstdDecode g.data with | some (d, n) => if n = g.data.length then d else [] | none => []) else g.data
  if 1 < g.form ∨ (g.form = 1 ∧ x.ver < 2) then .inl 0x03
  else if plain.length ≠ 4096 ∨ crc64 plain ≠ g.crc then .inl 0x09
  else
    match s.rplFpKey (s.bindFld x.bind 0x14 2 % 1024) with
    | none => .inl 0x0B
    | some k =>
      let fp := hmac k (plain ++ le g.tag 2)
      if x.offers then
        match b with
        | none => .inl 0x03
        | some b =>
          if nthD b.fps g.oidx [] ≠ fp then .inl 0x0A
          else if !b.want.contains g.oidx then .inl 0x03
          else .inr (plain, fp)
      else .inr (plain, fp)

/-- What DGE did for an entry (R520, R536): its fingerprint, and the comparison with the one offered. Code 0x0B had no key and 0x09 no bytes. -/
def State.rplRan (s : State) (x : RSess) (code : Nat) : State :=
  if code = 0x0B then s.dgeNoSlot
  else if code = 0x09 then s
  else if code = 0x03 then s
  else if x.offers then (s.dgeRan 1).cmpRan else s.dgeRan 1

/-- An arrived grain enters the batch, and every grain being written that waits for its fingerprint (R521). -/
def State.rplArrive (s : State) (i batch : Nat) (g : RGrain) (plain fp : Bytes) : State :=
  let s := s.updSess i (fun x =>
    let x : RSess := if (x.tb batch).isSome then x else { x with tbs := x.tbs ++ [{ num := batch }] }
    match x.tb batch with
    | some b => { x.setTb { b with got := aset b.got g.oidx (plain, g.tag, fp) } with datas := x.datas + 1 }
    | none => x)
  match s.sessOf i with
  | none => s
  | some x =>
    (x.exts.filterMap (fun e => if e.batch = some batch then e.op else none)).foldl (fun s op =>
      match aget s.io.cmds op with
      | none => s
      | some c =>
        let ks := (List.range c.grains.length).filter (fun k => match c.grains[k]? with | some y => y.st == .merging && y.fp == fp | none => false)
        if c.stage = .stamped ∨ ks = [] then s
        else
          let s := if c.txn ≠ 0 then s.sendC (.cancel (c.txn % 2 ^ 32)) else s
          let s := s.updCmd op (fun c => { c with txn := 0 })
          let s := { s with io := { s.io with wc := s.io.wc.map (fun (w : WcEnt) => if w.op = op then { w with txn := 0 } else w) } }
          let s := ks.foldl (fun s k =>
            let s := s.updGrain op k (fun y => { y with data := plain, tag := g.tag, crc := crc64 plain, rcpt := false, st := .bucket })
            let s := s.rplCache op c (((c.grains[k]?).map (fun (y : Grain) => y.gi)).getD 0) plain g.tag
            s.lookup op k) s
          s.mirrorCmd op) s

/-- The entries of a GRAIN record in order; the first that fails ends the session. -/
def State.rplEntries (s : State) (i batch : Nat) : List RGrain → State
  | [] => s
  | g :: t =>
    match s.sessOf i with
    | none => s
    | some x =>
      match s.rplEntry x (x.tb batch) g with
      | .inl c => (s.rplRan x c).rplAbort i c 0
      | .inr (d, fp) => ((s.rplRan x 0).rplArrive i batch g d fp).rplEntries i batch t

/-- RSP_GRAIN (R37, R520, R522): a record whose grains have no room in the write cache or its replication share stays unread. -/
def execRspGrain (ix : Fin 64) (h : RHdr) (batch : Fin 4294967296) (gs : List RGrain) (s : State) : Host.Outcome State Fault Refusal :=
  if s.rplRoom gs.length = false then .next s
  else
    match s.rspIn ix.val h true with
    | (none, s) => .next s.settle
    | (some _, s) => .next (s.rplEntries ix.val batch.val gs).settle

/-- The values of an EXTENT are ones its form allows (R513). -/
def extentOk (x : RSess) (batch : Nat) (run : Option Nat) (vals : List Nat) : Bool :=
  match run with
  | some _ => batch == 0xFFFFFFFF && vals.length == 1 && vals.all (fun v => v == 0xFFFD || v == 0xFFFE)
  | none =>
    let n := if x.offers then ((x.tb batch).map (fun b => b.fps.length)).getD 0 else 1024
    vals.all (fun v => decide (0xFFFD ≤ v ∨ v < n))

/-- EXTENT (R521): run is RLEN of a RUN extent. -/
def execExtent (ix : Fin 64) (h : RHdr) (batch : Fin 4294967296) (run : Option Nat) (start : Fin 274877906944) (vals : List Nat) (s : State) :
    Host.Outcome State Fault Refusal :=
  match s.rspIn ix.val h true with
  | (none, s) => .next s.settle
  | (some x, s) =>
    if extentOk x batch.val run vals then
      let e : RExt := { batch := if run.isSome then none else some batch.val, start := start.val, len := run.getD vals.length, vals := vals }
      .next (s.updSess ix.val (fun x => { x with exts := x.exts ++ [e] })).settle
    else .next (s.rplAbort ix.val 0x03 0).settle

/-! ## Sealing and ending (R523, R525) -/

/-- RSP_SEAL (R523): at the target a request, checked against the batches finalised; at the source its answer. -/
def execRspSeal (ix : Fin 64) (h : RHdr) (sid : Nat) (new_ : Nat) (tepoch : Nat) (batches : Nat) (grains : Nat) (s : State) :
    Host.Outcome State Fault Refusal :=
  match s.rspRecv ix.val h true with
  | (false, s) => .next s.settle
  | (true, s) =>
    match s.sessOf ix.val with
    | none => .next s
    | some x =>
      if x.inbound && x.state == 4 then
        if batches ≠ x.count then .next (s.rplAbort ix.val 0x05 0).settle
        else .next (s.updSess ix.val (fun x => { x with state := 5, sid := sid, sealReq := some (new_, batches, grains) })).settle
      else if !x.inbound && x.state == 5 then
        .next ((s.updSess ix.val (fun x => { x with state := 6, slot := some tepoch })).emit (.rspClose ix.val)).settle
      else .next (s.rplAbort ix.val 0x03 0).settle

/-- RSP_ABORT (R525): the peer's code is kept. -/
def execRspAbort (ix : Fin 64) (h : RHdr) (code : Fin 65536) (s : State) : Host.Outcome State Fault Refusal :=
  match s.sessOf ix.val with
  | none => .next s
  | some x =>
    match s.rspRecv ix.val h (decide (3 ≤ x.state)) with
    | (false, s) => .next s.settle
    | (true, s) => .next (s.rplEnd ix.val code.val false).settle

/-- RSP_IDLE_TIMEOUT (R525): no record for RPL.CFG.IDLE_S seconds. -/
def execRspIdleTimeout (ix : Fin 64) (s : State) : Host.Outcome State Fault Refusal :=
  match s.sessOf ix.val with
  | some x => if x.lastAt + s.rf R.RPL.CFG.IDLE_S * 1000000000 ≤ s.now then .next (s.rplEnd ix.val 0x0C false).settle else .next s
  | none => .next s

/-- RSP_CONNECTION_LOSS (R525). -/
def execRspConnectionLoss (ix : Fin 64) (s : State) : Host.Outcome State Fault Refusal := .next (s.rplEnd ix.val 0x0C false).settle

/-! ## The diff walk (R501 to R503, R516) -/

/-- What the walk emits: a run of unmapped or zero grains, a changed grain with its value (a CID above 2^16), or a page whose check
failed. -/
inductive DItem where
  | run (start len val : Nat)
  | ent (gi val : Nat)
  | bad (pix : Nat)
  deriving DecidableEq, Repr

/-- Value of a changed leaf entry: unmapped, zero, or 2^16 + CID. -/
def diffVal (e : Nat) : Nat := if entKind e = 1 then 0xFFFE else if entKind e = 2 then 65536 + entCid e else 0xFFFD

/-- A changed entry of a leaf (R502): full compares KIND and CID, else BIRTH decides; an absent base entry differs from KIND 00. -/
def diffChanged (full : Bool) (base span e : Nat) (b : Option Nat) : Bool :=
  if full then (match b with | some y => entKind e != entKind y || (entKind e == 2 && entCid e != entCid y) | none => true)
  else if entKind e = 0 then (match b with | some y => y != 0 | none => true)
  else
    let d := (entBirth e + 65536 - base % 65536) % 65536
    decide (1 ≤ d ∧ d ≤ span)

/-- The walk from two entries that point to the pages of a level and index (R501). The base entry is none where its tree has no page. -/
def diffWalk (m : Maps) (ns : Nat) (chg : Nat → Option Nat → Bool) : Nat → Nat → Nat → Option Nat → List DItem
  | level, ix, e, b =>
    if !intOk e ns (pageIx level ix) || !intOk (b.getD 0) ns (pageIx level ix) then [.bad (pageIx (level + 1) (ix / 512))]
    else if entKind e ≠ 2 then
      if (match b with | some y => entKind y == entKind e | none => false) then []
      else [.run (ix * 512 ^ (level + 1)) (512 ^ (level + 1)) (if entKind e = 1 then 0xFFFE else 0xFFFD)]
    else if (match b with | some y => entKind y == 2 && entLpn y == entLpn e | none => false) then []
    else
      match aget m.pages (entLpn e) with
      | none => [.bad (pageIx level ix)]
      | some p =>
        let q : Option Page := match b with | some y => if entKind y = 2 then aget m.pages (entLpn y) else none | none => none
        let below := fun (k : Nat) => q.map (fun q => agetD q.ents k 0)
        match level with
        | 0 =>
          (List.range 512).flatMap (fun k =>
            let x := agetD p.ents k 0
            let gi := ix * 512 + k
            if !leafOk x ns gi || !leafOk ((below k).getD 0) ns gi then [.bad (pageIx 0 ix)]
            else if chg x (below k) then [.ent gi (diffVal x)]
            else [])
        | l + 1 => (List.range 512).flatMap (fun k => diffWalk m ns chg l (ix * 512 + k) (agetD p.ents k 0) (below k))

/-- First and last grain of an item. -/
def DItem.at_ : DItem → Nat
  | .run st _ _ => st
  | .ent gi _ => gi
  | .bad _ => 0

/-- The changes of a session from a grain on, within the namespace. A full copy has an empty tree as its base. -/
def State.diffOf (s : State) (x : RSess) (n : Ns) : List DItem :=
  let span := x.new_ - x.base
  let full := x.kind != 2 || decide (32768 ≤ span)
  let base : Option Nat := if x.kind = 2 then some (agetD n.slots x.base 0) else some 0
  let m : Maps := s.maps
  let empty := x.kind != 2
  let chg := fun (e : Nat) (b : Option Nat) => if empty && b.isNone then e != 0 else diffChanged full x.base span e b
  let items := diffWalk m x.ns chg (rootLevel n.desc.size) 0 (agetD n.slots x.new_ 0) base
  items.filterMap (fun t =>
    match t with
    | .run st len v =>
      if n.desc.size ≤ st ∨ (empty = true ∧ v = 0xFFFD) then none
      else
        let e := min (st + len) n.desc.size
        if e ≤ x.walkAt then none else some (.run (max st x.walkAt) (e - max st x.walkAt) v)
    | .ent gi v => if gi < x.walkAt ∨ n.desc.size ≤ gi then none else some (.ent gi v)
    | .bad p => some (.bad p))

/-- The runs an item list begins with. -/
def leadRuns : List DItem → List (Nat × Nat × Nat)
  | .run a b c :: t => (a, b, c) :: leadRuns t
  | _ => []

/-- The entries an item list begins with that lie within 1,024 consecutive indices (R516). -/
def leadEnts (last : Nat) : List DItem → List (Nat × Nat)
  | .ent gi v :: t => if gi < last then (gi, v) :: leadEnts last t else []
  | _ => []

/-- Begin a batch of changed grains (R516, R517): its distinct content records, and the fingerprints found without a read. -/
def State.rplBatch (s : State) (i : Nat) (ents : List (Nat × Nat)) (trailers : List (Nat × Bytes)) : State :=
  match s.sessOf i with
  | none => s
  | some x =>
    let cids := ((ents.filter (fun e => decide (65536 ≤ e.2))).map (fun e => e.2 - 65536)).eraseDups
    let place := fun (v : Nat) => if 65536 ≤ v then (cids.findIdx? (fun c => c == v - 65536)).getD 0 else v
    let fps := cids.map (fun c => match s.hfcOf c with | some f => f | none => ((trailers.find? (fun t => t.1 == c)).map Prod.snd).getD [])
    let b : RBatch := { num := x.count % 4294967296, cids := cids, fps := fps
                        gis := cids.map (fun c => ((ents.find? (fun e => e.2 == 65536 + c)).map Prod.fst).getD 0)
                        ents := ents.map (fun e => (e.1, place e.2)) }
    let s := s.updSess i (fun x => { x with count := x.count + 1, grains := x.grains + ents.length, batches := x.batches ++ [b] })
    s.rplReady i b

/-- Send the runs a walk has come to. -/
def State.rplRuns (s : State) (i : Nat) (runs : List (Nat × Nat × Nat)) : State :=
  runs.foldl (fun s r => (s.updSess i (fun x => { x with grains := x.grains + r.2.1, walkAt := r.1 + r.2.1 })).rspSend i (.run r.1 r.2.1 r.2.2)) s

/-- One step of the walk of a session: runs, then a batch; a page that fails its check is repaired once (R503). -/
def State.rplWalk (s : State) (i : Nat) (trailers : List (Nat × Bytes)) : State :=
  match s.sessOf i with
  | none => s
  | some x =>
    match s.nsOf x.ns with
    | none => s.rplAbort i 0x12 0
    | some n =>
      let items := s.diffOf x n
      match items with
      | .bad p :: _ =>
        if x.badPix = some p then s.rplAbort i 0x0F 0
        else (s.updSess i (fun x => { x with badPix := some p })).mapFail x.ns p
      | _ =>
        let runs := leadRuns items
        let rest := items.drop runs.length
        let s := s.rplRuns i runs
        match rest with
        | .ent g v :: t =>
          let ents := (g, v) :: leadEnts (g + 1024) t
          let s := s.updSess i (fun x => { x with badPix := none, walkAt := ((ents.getLast?).map Prod.fst).getD g + 1, walked := ents.length == rest.length })
          s.rplBatch i ents trailers
        | .bad _ :: _ => s
        | _ => s.updSess i (fun x => { x with walked := true })

/-- The written-grain log of a namespace's slice lists a grain (R198, R526): in the ring, or where the ring lay. -/
def State.wglLists (s : State) (n : Ns) (gi : Nat) : Bool :=
  let w : Wgl := ((s.dynOf (n.desc.slice % 4096)).wgl).getD { base := dramBase + s.rf R.SLM.WGL_BASE.ADDR, size := s.rf R.SLM.WGL_SIZE.ENTRIES }
  (List.range w.size).any (fun k =>
    let e := leVal (s.load (w.base + 8 * k) 8)
    fld e 0 38 == gi && fld e 38 8 == n.desc.ord)

/-- A further batch of a MIGRATE session, read from the live tree (R526). -/
def State.rplExtra (s : State) (i : Nat) (extra : List Nat) (trailers : List (Nat × Bytes)) : State :=
  match s.sessOf i with
  | none => s
  | some x =>
    match s.nsOf x.ns with
    | none => s.rplAbort i 0x12 0
    | some n =>
      let g0 := extra.headD 0
      let gs := extra.filter (fun g => decide (g0 ≤ g ∧ g < g0 + 1024 ∧ g < n.desc.size) && s.wglLists n g)
      if gs = [] then s else s.rplBatch i (gs.map (fun g => (g, diffVal (s.leafEntry x.ns g)))) trailers

/-- The bytes a session has sent stay within its RATE in MB/s (Table 13-1). -/
def State.rateOk (s : State) (x : RSess) : Bool := x.rate == 0 || decide (x.bytes * 1000 ≤ x.rate * (s.now - x.startAt))

/-- DIFF_WALK_BATCH (R501 to R503, R516, R526): the walk of an outbound session goes on by a batch, within WINDOW and RATE.
trailers are the fingerprints segment trailers gave for CIDs; extra are grain indices of the written-grain log, in ascending order. -/
def execDiffWalkBatch (ix : Fin 64) (trailers : List (Nat × Bytes)) (extra : List Nat) (s : State) : Host.Outcome State Fault Refusal :=
  match s.sessOf ix.val with
  | none => .next s
  | some x =>
    let win := max 1 (min 256 (s.rf R.RPL.CFG2.WINDOW))
    if x.inbound || x.state != 4 || decide (win ≤ x.batches.length) || !s.rateOk x then .next s
    else if !x.walked then .next (s.rplWalk ix.val trailers).settle
    else if x.kind = 3 then .next (s.rplExtra ix.val extra trailers).settle
    else .next s

/-! ## CTL (R675 to R680) -/

/-- What waited for a block to take new work goes on (R675): frames at a Jonan instance or Carid, commands in a block's registers, and host
commands at admission. -/
def State.enSync (s : State) (page : Nat) : State :=
  if !s.blockOn page then s
  else
    let s := if 23 ≤ page ∧ page ≤ 26 then (List.range 16).foldl (fun s m => s.pumpEnd ((page - 23) * 16 + m)) s else s
    s.pumpCarid.rplRestart.stampRetry.admitAll.settle

/-- A write of the whole CTL word with what follows it (R675 to R680). -/
def State.ctlCommit (s : State) (page v : Nat) : State := ((s.ctlWrite page v).fenceSync).enSync page

/-- CTL_EN_WRITE (R675): the page's block stops or restarts taking new work; the mode is unchanged. -/
def execCtlEnWrite (page : Fin 64) (v : Bool) (s : State) : Host.Outcome State Fault Refusal :=
  .next (if s.pageLive page.val then (s.setEn page.val v).enSync page.val else s)

/-- CTL_LOCK_WRITE (R679, R680): a write of CTL that sets LOCK; `v` is the rest of the word written. -/
def execCtlLockWrite (page : Fin 64) (v : BitVec 31) (s : State) : Host.Outcome State Fault Refusal :=
  .next (if s.pageLive page.val then s.ctlCommit page.val (v.toNat + 2147483648) else s)

end Sys2Proof.Machine
end

