-- ==== Sys2Proof/Machine/Crypto.lean ====
section
/-! DEFINITION. Firmware requests of DGE and CPH (R530 to R547, Tables 14-2 to 14-4). -/
namespace Sys2Proof.Machine

/-! ## Descriptor rings (R546) -/

/-- Registers of an engine's ring: base, size, write and read index. -/
structure RingRegs where
  base : Fld
  size : Fld
  wr   : Fld
  rd   : Fld

def dgeRing : RingRegs := ⟨R.DGE.FWQ_BASE.ADDR, R.DGE.FWQ_SIZE.ENTRIES, R.DGE.FWQ_WR.INDEX, R.DGE.FWQ_RD.INDEX⟩
def cphRing : RingRegs := ⟨R.CPH.FWQ_BASE.ADDR, R.CPH.FWQ_SIZE.ENTRIES, R.CPH.FWQ_WR.INDEX, R.CPH.FWQ_RD.INDEX⟩

/-- Descriptors posted and not taken. -/
def State.ringPosted (s : State) (q : RingRegs) : Nat :=
  let n := s.rf q.size
  if n = 0 then 0 else (s.rf q.wr % n + n - s.rf q.rd % n) % n

/-- Address of the next descriptor the device takes. -/
def State.ringFront (s : State) (q : RingRegs) : Option Nat :=
  let a := s.rf q.base + s.rf q.rd % max 1 (s.rf q.size) * 64
  if s.ringPosted q = 0 ∨ s.inFw a 64 = false then none else some a

/-- The device takes the descriptor at the front. -/
def State.ringTake (s : State) (q : RingRegs) : State := s.wf q.rd ((s.rf q.rd + 1) % max 1 (s.rf q.size))

/-- k bytes at an offset of a descriptor (Table 14-3). -/
def State.dFld (s : State) (a o k : Nat) : Nat := leVal (s.load (hbmBase + a + o) k)

/-- The lowest code of the conditions that hold, 0 when none does (R547). -/
def lowCode (l : List (Bool × Nat)) : Nat := (l.filter (fun p => p.1)).foldl (fun m p => if m = 0 then p.2 else min m p.2) 0

/-! ## DGE (R530 to R536) -/

/-- Blocks a message takes on a core, 16 ns each (R530, R533): an HMAC starts from its precomputed state and adds the outer block. -/
def digestBlocks (op len : Nat) : Nat := cdiv (len + 9) 64 + (if op = 2 then 1 else 0)

/-- Messages longer than 64 KiB on cores (R532). -/
def State.dgeLong (s : State) : Nat := (s.sec.dreq.filter (fun e => e.2.core.isSome && decide (65536 < e.2.data.length))).length

/-- A DGE request ends with a status (R547, R569, R572). -/
def State.dgeEnd (s : State) (desc st : Nat) : State :=
  let s := s.dStatus desc st
  let s := if st ≠ 0 ∧ st ≠ 4 then s.inc R.DGE.CNT_FAIL.COUNT else s
  if st = 1 ∨ st = 2 ∨ st = 7 ∨ st = 9 then s.raise Pg.DGE 0 else s

/-- Release the core of a message; one that lost its core to a fence takes it. -/
def State.dgeDrop (s : State) (k : Nat) : State := ({ s with sec := { s.sec with dreq := adel s.sec.dreq k } }.dgeAgain).engineShow

/-- The message whose chain goes on in the next descriptor (R534). -/
def State.dgeChain (s : State) : Option (Nat × DgeReq) := s.sec.dreq.find? (fun e => e.2.chain)

/-- A descriptor was posted before an alarm (R557). -/
def State.dgeZeroed (s : State) : Bool := decide (0 < s.sec.dzero)

/-- DGE takes the descriptor at the front. -/
def State.dgeAdv (s : State) : State := { (s.ringTake dgeRing) with sec := { s.sec with dzero := s.sec.dzero - 1 } }

/-- Take the front descriptor as the next part of a chained message (R534). -/
def State.dgeNext (s : State) (k : Nat) (r : DgeReq) (a : Nat) : State :=
  let len := s.dFld a 4 4
  let src := s.dFld a 8 8
  let dst := s.dFld a 0x10 8
  let more := bit (s.dFld a 1 1) 0
  let c := lowCode [(decide (2 ^ 32 ≤ r.data.length + len), 2), (s.dFld a 0 1 != r.op, 6), (!s.inFw src len || (!more && !s.inFw dst 32), 7)]
  let s := s.dgeAdv
  if c ≠ 0 then (s.dgeDrop k).dgeEnd a c
  else
    let s := s.dStatus r.desc 0
    let d := s.load (hbmBase + src) len
    { s with sec := { s.sec with dreq := aupd s.sec.dreq k (fun (r : DgeReq) => { r with desc := a, data := r.data ++ d, dst := dst, chain := more, last := s.now }) } }

/-- Take the front descriptor as a new request: it ends at once on an error, COMPARE ends at once with its result (R535), and a message
takes a core or waits (R531, R532). -/
def State.dgeNew (s : State) (a : Nat) : State :=
  let op := s.dFld a 0 1
  let slot := s.dFld a 2 2
  let len := s.dFld a 4 4
  let src := s.dFld a 8 8
  let dst := s.dFld a 0x10 8
  let aux := s.dFld a 0x18 8
  let more := bit (s.dFld a 1 1) 0 && op != 3
  let key := s.macKey slot
  let addr := !s.inFw src len || (if op = 3 then !s.inFw aux len else !more && !s.inFw dst 32)
  let c := lowCode [(op == 2 && key.isNone && !s.dgeZeroed, 1), (op == 3 && decide (32 < len), 2), (op == 2 && s.dgeZeroed, 5), (addr, 7)
                    , (op != 3 && s.rf R.DGE.STAT.CORES == 0, 10)]
  let wait := s.dgeFree.isNone || (decide (65536 < len) && decide (s.rf R.DGE.CFG.LONG_CORES ≤ s.dgeLong))
  if c ≠ 0 then (s.dgeAdv).dgeEnd a c
  else if op = 3 then
    let x := padTo 32 (s.load (hbmBase + src) len)
    let y := padTo 32 (s.load (hbmBase + aux) len)
    ((s.dgeAdv).inc R.DGE.CNT_CMP.COUNT).dgeEnd a (if x = y then 0 else 4)
  else if wait then s
  else
    let r : DgeReq := { desc := a, op := op, slot := slot, key := if op = 2 then key.getD [] else [], data := s.load (hbmBase + src) len, dst := dst
                        chain := more, at0 := s.now, last := s.now, core := s.dgeFree }
    let s := s.dgeAdv
    { s with sec := { s.sec with dreq := aset s.sec.dreq s.sec.next r, next := s.sec.next + 1 } }.engineShow

/-- Descriptors at the front whose OP DGE does not know end with BAD_OP (R547). -/
def State.dgeBad : Nat → State → State
  | 0, s => s
  | k + 1, s =>
    match s.ringFront dgeRing with
    | some a =>
      if s.dgeChain.isNone ∧ (s.dFld a 0 1 = 0 ∨ 3 < s.dFld a 0 1) then
        State.dgeBad k (s.dgeAdv.dgeEnd a 6)
      else s
    | none => s

/-- Take the front descriptor when its OP is the one given; within a chain its place in the ring makes it the message's next part. -/
def State.dgeTake (s : State) (op : Nat) : State :=
  match s.ringFront dgeRing with
  | none => s
  | some a =>
    match s.dgeChain with
    | some (k, r) => if r.op = op then (s.dgeNext k r a).dgeBad 65536 else s
    | none => if s.dFld a 0 1 = op ∧ s.blockOn Pg.DGE = true then (s.dgeNew a).dgeBad 65536 else s

/-- DGE_FWQ_POST (R546): a write of DGE.FWQ_WR. -/
def State.dgePost (s : State) (ix : Nat) : State := (s.wf R.DGE.FWQ_WR.INDEX ix).dgeBad 65536

/-- DGE_FWQ_POST (R546). -/
def execDgeFwqPost (ix : Fin 65536) (s : State) : Host.Outcome State Fault Refusal := .next (s.dgePost ix.val)

/-- SHA256 (R530, R534): the descriptor at the front goes to a core. -/
def execSha256 (s : State) : Host.Outcome State Fault Refusal := .next (s.dgeTake 1)

/-- HMAC (R530, R538). -/
def execHmac (s : State) : Host.Outcome State Fault Refusal := .next (s.dgeTake 2)

/-- COMPARE_DIGEST (R535). -/
def execCompareDigest (s : State) : Host.Outcome State Fault Refusal := .next (s.dgeTake 3)

/-- DIGEST_COMPLETE (R531, R533, R547): the core finishes its message after the time its length takes. -/
def execDigestComplete (r : Nat) (s : State) : Host.Outcome State Fault Refusal :=
  match aget s.sec.dreq r with
  | none => .next s
  | some x =>
    if x.chain = true ∨ x.core.isNone = true ∨ s.now < x.at0 + 16 * digestBlocks x.op x.data.length then .next s
    else
      let d := if x.op = 2 then hmac x.key x.data else sha256 x.data
      .next ((((s.dgeDrop r).store (hbmBase + x.dst) d).incWrap R.DGE.CNT_MSG.COUNT).dgeEnd x.desc 0)

/-- CHAIN_TIMEOUT (R534): the next descriptor of a chain was not posted in time. -/
def execChainTimeout (r : Nat) (s : State) : Host.Outcome State Fault Refusal :=
  match aget s.sec.dreq r with
  | none => .next s
  | some x =>
    if x.chain = true ∧ s.ringPosted dgeRing = 0 ∧ x.last + s.rf R.DGE.CFG.CHAIN_US * 1000 ≤ s.now then .next ((s.dgeDrop r).dgeEnd x.desc 9)
    else .next s

/-! ## CPH (R540 to R545) -/

/-- The key of a CPH slot for an operation: XTS below 3, GCM from 3 on (R538). -/
def State.cphKey (s : State) (op slot : Nat) : Option Key :=
  match aget s.sec.cph slot with
  | some k => if k.kind = (if op < 3 then 1 else 2) && !k.dying then some k else none
  | none => none

/-- A CPH request ends with a status (R547, R570, R572). -/
def State.cphEnd (s : State) (desc st : Nat) : State :=
  let s := s.dStatus desc st
  let s := if st = 0 ∨ st = 3 then s.incWrap R.CPH.CNT_REQ.COUNT else s.raise Pg.CPH 0
  if st = 3 then (s.inc R.CPH.CNT_AUTH.COUNT).raise Pg.CPH 1 else s

/-- Drop a request. -/
def State.cphDrop (s : State) (k : Nat) : State := { s with sec := { s.sec with creq := adel s.sec.creq k } }.engineShow

/-- A GCM request longer than 64 KiB (R541). -/
def cphLong (r : CphReq) : Bool := decide (3 ≤ r.op) && decide (65536 < r.len)

/-- Give a core to a queued request, or end it where its slot is gone or refuses (R545, R552). One that a fence put back into the queue was
dispatched before: it keeps its key, and its slot counts it once (R40). -/
def State.cphStart (s : State) (k : Nat) (r : CphReq) : State :=
  let u := s.cphFree.getD 0
  if r.key ≠ [] then { s with sec := { s.sec with creq := aupd s.sec.creq k (fun (r : CphReq) => { r with core := some s.now, unit := u }) } }.engineShow
  else match s.cphKey r.op r.slot with
  | none => (s.cphDrop k).cphEnd r.desc 1
  | some y =>
    if r.op = 3 ∧ 2 ^ 32 ≤ y.inv then (s.cphDrop k).cphEnd r.desc 8
    else
      let s := { s with sec := { s.sec with creq := aupd s.sec.creq k (fun (r : CphReq) => { r with core := some s.now, key := y.key, unit := u }) } }.engineShow
      if r.op = 3 then
        let s := { s with sec := { s.sec with cph := aset s.sec.cph r.slot { y with inv := y.inv + 1 } } }
        if y.inv + 1 = 2 ^ 32 then s.raise Pg.CPH 2 else s
      else s

/-- The request the scheduler dispatches next (R541): the oldest of the highest class that may take a core. -/
def State.cphPick (s : State) : Option (Nat × CphReq) :=
  let long := (s.sec.creq.filter (fun e => e.2.core.isSome && cphLong e.2)).length
  let cls := fun (r : CphReq) => if r.aged then 0 else s.rf R.CPH.CLASS_MAP.FW
  if s.cphFree.isNone then none
  else
    let ok := s.sec.creq.filter (fun e => e.2.core.isNone && !(cphLong e.2 && decide (s.rf R.CPH.CFG.LONG_CORES ≤ long)))
    ok.foldl (fun (m : Option (Nat × CphReq)) e =>
      match m with
      | none => some e
      | some b => if cls e.2 < cls b.2 ∨ (cls e.2 = cls b.2 ∧ e.2.at0 < b.2.at0) then some e else some b) none

/-- Dispatch while a request may take a core. -/
def State.cphPump : Nat → State → State
  | 0, s => s
  | k + 1, s => match s.cphPick with | some (i, r) => State.cphPump k (s.cphStart i r) | none => s

/-- Dispatch every request that may take a core. -/
def State.cphGo (s : State) : State := s.cphPump (s.sec.creq.length + 1)

/-- Data, AAD and output of a request outside the limits of Table 14-2 (R542). -/
def cphLenBad (op len auxLen : Nat) : Bool :=
  if op < 3 then decide (len % 16 ≠ 0 ∨ len < 16 ∨ 16384 < len ∨ auxLen ≠ 0) else decide (1048576 < len ∨ 4096 < auxLen)

/-- Take the front descriptor: it ends at once on an error, or is queued in its class (R540, R546, R547). -/
def State.cphNew (s : State) (a : Nat) : State :=
  let op := s.dFld a 0 1
  let slot := s.dFld a 2 2
  let len := s.dFld a 4 4
  let src := s.dFld a 8 8
  let dst := s.dFld a 0x10 8
  let aux := s.dFld a 0x18 8
  let auxLen := s.dFld a 0x20 4
  let key := s.cphKey op slot
  let zero := decide (0 < s.sec.czero)
  let addr := !s.inFw src (len + (if op = 4 then 16 else 0)) || !s.inFw dst (len + (if op = 3 then 16 else 0)) || (decide (3 ≤ op) && !s.inFw aux auxLen)
  let c := lowCode [(key.isNone && !zero, 1), (cphLenBad op len auxLen, 2), (zero, 5), (addr, 7)
                    , (op == 3 && decide (2 ^ 32 ≤ (key.map (fun (k : Key) => k.inv)).getD 0), 8), (s.rf R.CPH.STAT.CORES == 0, 10)]
  let s := { (s.ringTake cphRing) with sec := { s.sec with czero := s.sec.czero - 1 } }
  if c ≠ 0 then s.cphEnd a c
  else
    let r : CphReq := { desc := a, op := op, slot := slot, src := src, dst := dst, len := len, aux := aux, auxLen := auxLen
                        iv := s.load (hbmBase + a + 0x28) 16, at0 := s.now }
    { s with sec := { s.sec with creq := aset s.sec.creq s.sec.next r, next := s.sec.next + 1 } }.cphGo

/-- Descriptors at the front whose OP CPH does not know end with BAD_OP (R547). -/
def State.cphBad : Nat → State → State
  | 0, s => s
  | k + 1, s =>
    match s.ringFront cphRing with
    | some a =>
      if s.dFld a 0 1 = 0 ∨ 4 < s.dFld a 0 1 then
        State.cphBad k ({ (s.ringTake cphRing) with sec := { s.sec with czero := s.sec.czero - 1 } }.cphEnd a 6)
      else s
    | none => s

/-- Take the front descriptor when its OP is the one given. -/
def State.cphTake (s : State) (op : Nat) : State :=
  match s.ringFront cphRing with
  | none => s
  | some a => if s.dFld a 0 1 = op ∧ s.blockOn Pg.CPH = true then (s.cphNew a).cphBad 65536 else s

/-- A write of CPH.FWQ_WR (R546). -/
def State.cphPost (s : State) (ix : Nat) : State := (s.wf R.CPH.FWQ_WR.INDEX ix).cphBad 65536

/-- CPH_FWQ_POST (R546). -/
def execCphFwqPost (ix : Fin 65536) (s : State) : Host.Outcome State Fault Refusal := .next (s.cphPost ix.val)

/-- XTS_ENC (R542, R543). -/
def execXtsEnc (s : State) : Host.Outcome State Fault Refusal := .next (s.cphTake 1)

/-- XTS_DEC (R542, R543). -/
def execXtsDec (s : State) : Host.Outcome State Fault Refusal := .next (s.cphTake 2)

/-- GCM_ENC (R544, R545). -/
def execGcmEnc (s : State) : Host.Outcome State Fault Refusal := .next (s.cphTake 3)

/-- GCM_DEC (R544). -/
def execGcmDec (s : State) : Host.Outcome State Fault Refusal := .next (s.cphTake 4)

/-- Output and status of a request (R543, R544): an unverified GCM output is zeros. -/
def State.cphOutput (s : State) (r : CphReq) : Bytes × Nat :=
  let d := s.load (hbmBase + r.src) r.len
  let aad := s.load (hbmBase + r.aux) r.auxLen
  let nonce := r.iv.take 12
  if r.op = 1 then (xtsEnc r.key r.iv d, 0)
  else if r.op = 2 then (xtsDec r.key r.iv d, 0)
  else if r.op = 3 then (let c := gcmEnc r.key nonce aad d; (c.1 ++ c.2, 0))
  else
    match gcmDec r.key nonce aad d (s.load (hbmBase + r.src + r.len) 16) with
    | some p => (p, 0)
    | none => (zeros r.len, 3)

/-- CIPHER_COMPLETE (R540, R544, R547): a core finishes after 16 bytes per cycle of 0.625 ns, and the scheduler dispatches again. -/
def execCipherComplete (r : Nat) (s : State) : Host.Outcome State Fault Refusal :=
  match aget s.sec.creq r with
  | none => .next s
  | some x =>
    match x.core with
    | none => .next s
    | some t =>
      if 8 * s.now < 8 * t + 5 * cdiv (x.len + x.auxLen) 16 then .next s
      else
        let o := s.cphOutput x
        .next (((s.cphDrop r).store (hbmBase + x.dst) o.1).cphEnd x.desc o.2).cphGo

/-- CPH_REQUEST_AGED (R541): a queued request waited longer than AGE_US. -/
def execCphRequestAged (r : Nat) (s : State) : Host.Outcome State Fault Refusal :=
  match aget s.sec.creq r with
  | none => .next s
  | some x =>
    if x.core.isNone ∧ x.aged = false ∧ x.at0 + s.rf R.CPH.CFG.AGE_US * 1000 < s.now then
      .next ({ s with sec := { s.sec with creq := aupd s.sec.creq r (fun (x : CphReq) => { x with aged := true }) } }.inc R.CPH.CNT_AGED.COUNT).cphGo
    else .next s

end Sys2Proof.Machine
end

