-- ==== Sys2Proof/Machine/Sec.lean ====
section
/-! DEFINITION. SEC: key commands, signatures, quotes and measurements, the hourly seal, alarms and noise sources (R207, R548 to R568). -/
namespace Sys2Proof.Machine

/-! ## Key commands (R549 to R552) -/

/-- Answer a key command. -/
def State.keyDone (s : State) (r : Nat) : State := (s.wf R.SEC.KEY_STAT.RESULT r).wf R.SEC.KEY_STAT.PENDING 0

/-- The key in a slot of an engine, 1 for DGE. -/
def State.keyAt (s : State) (eng slot : Nat) : Option Key := if eng = 1 then aget s.sec.dge slot else aget s.sec.cph slot

/-- Put a key into a slot. -/
def State.keyPut (s : State) (eng slot : Nat) (k : Key) : State :=
  if eng = 1 then { s with sec := { s.sec with dge := aset s.sec.dge slot k } } else { s with sec := { s.sec with cph := aset s.sec.cph slot k } }

/-- Clear a slot. -/
def State.keyClear (s : State) (eng slot : Nat) : State :=
  if eng = 1 then { s with sec := { s.sec with dge := adel s.sec.dge slot } } else { s with sec := { s.sec with cph := adel s.sec.cph slot } }

/-- KLEN of a kind (Table 14-1). -/
def klenOf (eng kind : Nat) : Nat := if eng = 0 ∧ kind = 1 then 64 else 32

/-- A kind an engine's slots have, and a slot the engine has (Table 14-1). -/
def kindOk (eng kind slot : Nat) : Bool := if eng = 1 then decide (1 ≤ kind ∧ kind ≤ 3 ∧ slot < 4096) else decide (1 ≤ kind ∧ kind ≤ 2 ∧ slot < 8192)

/-- The transport key of a DGE WRAP slot (R549). -/
def State.wrapKey (s : State) (slot : Nat) : Option Bytes :=
  match aget s.sec.dge slot with
  | some k => if k.kind = 3 && !k.dying then some k.key else none
  | none => none

/-- An XTS key whose halves are equal (R543, R551). -/
def weakKey (eng kind : Nat) (key : Bytes) : Bool := eng == 0 && kind == 1 && key.take 32 == slice key 32 32

/-- Load a key and write its blobs at SEC.KEY_OUT (Table 14-6). -/
def State.keyFinish (s : State) (eng slot : Nat) (key : Bytes) : State :=
  let kind := s.rf R.SEC.KEY_ARG.KIND
  let ts := s.rf R.SEC.KEY_ARG.TSLOT
  let kid := s.rf R.SEC.KEY_KID.KID
  let out := hbmBase + s.rf R.SEC.KEY_OUT.ADDR
  let hdr := fun (w t : Nat) => blobHdr kind eng w t (klenOf eng kind) (le kid 8)
  if weakKey eng kind key then s.keyDone 6
  else
    let s := s.keyPut eng slot { kind := kind, key := key, kid := kid }
    let s := s.store out (keyBlob (s.sec.drk.getD []) (hdr 0 0) key)
    let s := if s.flag R.SEC.KEY_ARG.TVALID then s.store (out + 96) (keyBlob ((s.wrapKey ts).getD []) (hdr 1 ts) key) else s
    s.keyDone 0

/-- Arguments of IMPORT and GENERATE fit Tables 14-1 and 14-5 (R551). -/
def State.keyArgOk (s : State) (eng slot : Nat) : Bool :=
  let tv := s.flag R.SEC.KEY_ARG.TVALID
  kindOk eng (s.rf R.SEC.KEY_ARG.KIND) slot && (!tv || (s.wrapKey (s.rf R.SEC.KEY_ARG.TSLOT)).isSome)
    && s.inFw (s.rf R.SEC.KEY_OUT.ADDR) (if tv then 192 else 96)

/-- IMPORT (R550, R551). -/
def State.keyImport (s : State) (eng slot : Nat) : State :=
  let a := s.rf R.SEC.KEY_IN.ADDR
  let k := klenOf eng (s.rf R.SEC.KEY_ARG.KIND)
  if !s.flag R.SEC.CFG.CLEAR_IMPORT then s.keyDone 3
  else if !s.keyArgOk eng slot || !s.inFw a k then s.keyDone 9
  else if (s.keyAt eng slot).isSome then s.keyDone 4
  else s.keyFinish eng slot (s.load (hbmBase + a) k)

/-- GENERATE (R550, R554). -/
def State.keyGenerate (s : State) (eng slot : Nat) : State :=
  if !s.keyArgOk eng slot then s.keyDone 9
  else if (s.keyAt eng slot).isSome then s.keyDone 4
  else if s.rf R.SEC.STAT.RNG = 0 then s.keyDone 8
  else
    let r := State.randomBytes (klenOf eng (s.rf R.SEC.KEY_ARG.KIND) / 8) s
    r.2.keyFinish eng slot r.1

/-- LOAD (R549, R551): the blob names its kind, engine and length, and unwraps under DRK or a transport key. -/
def State.keyLoad (s : State) (eng slot : Nat) : State :=
  let a := s.rf R.SEC.KEY_IN.ADDR
  let b := s.load (hbmBase + a) 96
  let kb := leAt b 2 1
  let wrap := leAt b 3 1
  let ts := leAt b 4 2
  let hk := if wrap = 0 then s.sec.drk else s.wrapKey ts
  if !s.inFw a 96 || leAt b 0 2 != 1 || kb / 4 != eng || !kindOk eng (kb % 4) slot || leAt b 6 2 != klenOf eng (kb % 4)
      || decide (1 < wrap) || (wrap == 0 && ts != 0) || hk.isNone then s.keyDone 9
  else if (s.keyAt eng slot).isSome then s.keyDone 4
  else
    match blobKey (hk.getD []) b with
    | none => s.keyDone 5
    | some key => if weakKey eng (kb % 4) key then s.keyDone 6 else (s.keyPut eng slot { kind := kb % 4, key := key, kid := leAt b 8 8 }).keyDone 0

/-- ERASE (R552): the slot is EMPTY for whatever is dispatched from now on. -/
def State.keyErase (s : State) (eng slot : Nat) : State :=
  let s := match s.keyAt eng slot with | some k => s.keyPut eng slot { k with dying := true } | none => s
  { s.wf R.SEC.KEY_STAT.PENDING 1 with sec := { s.sec with erase := some (eng, slot) } }

/-- A write of SEC.KEY_CMD (R550, R558). -/
def State.keyCmd (s : State) (op eng slot : Nat) : State :=
  if s.flag R.SEC.KEY_STAT.PENDING then s.wf R.SEC.KEY_STAT.RESULT 2
  else if s.flag R.SEC.STAT.ZEROISED then s.keyDone 7
  else if op = 1 then s.keyImport eng slot
  else if op = 2 then s.keyGenerate eng slot
  else if op = 3 then s.keyLoad eng slot
  else if op = 4 then s.keyErase eng slot
  else s.keyDone 1

/-- IMPORT (R550). -/
def execImportCmd (eng : Fin 2) (slot : Fin 8192) (s : State) : Host.Outcome State Fault Refusal := .next (s.keyCmd 1 eng.val slot.val)

/-- GENERATE (R550). -/
def execGenerate (eng : Fin 2) (slot : Fin 8192) (s : State) : Host.Outcome State Fault Refusal := .next (s.keyCmd 2 eng.val slot.val)

/-- LOAD (R550). -/
def execLoadCmd (eng : Fin 2) (slot : Fin 8192) (s : State) : Host.Outcome State Fault Refusal := .next (s.keyCmd 3 eng.val slot.val)

/-- ERASE (R552). -/
def execErase (eng : Fin 2) (slot : Fin 8192) (s : State) : Host.Outcome State Fault Refusal := .next (s.keyCmd 4 eng.val slot.val)

/-- A dispatched firmware request runs under a slot. -/
def State.slotBusy (s : State) (eng slot : Nat) : Bool :=
  if eng = 1 then s.sec.dreq.any (fun e => e.2.op == 2 && e.2.slot == slot) else s.sec.creq.any (fun e => (e.2.core.isSome || e.2.key != []) && e.2.slot == slot)

/-- KEY_ERASE_DONE (R552): the requests dispatched under the slot have finished. -/
def execKeyEraseDone (s : State) : Host.Outcome State Fault Refusal :=
  match s.sec.erase with
  | none => .next s
  | some (eng, slot) =>
    if s.slotBusy eng slot then .next s
    else .next ({ s.keyClear eng slot with sec := { (s.keyClear eng slot).sec with erase := none } }.keyDone 0)

/-! ## Signatures (R562 to R566) -/

/-- The next index, where the fuses still give one (R563): a fuse is blown for the first index after BOOT and of each block. -/
def State.takeIndex (s : State) : Option (Nat × State) :=
  let k := s.fuses.reservation
  if s.sec.block = true ∧ s.sec.used < 1024 then some ((k - 1) * 1024 + s.sec.used, { s with sec := { s.sec with used := s.sec.used + 1 } }.secShow)
  else if k < 8192 then
    let s := { s with fuses := { s.fuses with reservation := k + 1 }, sec := { s.sec with block := true, used := 1 } }.secShow
    some (k * 1024, if k = 7168 then s.raise Pg.SEC 4 else s)
  else none

/-- Answer a signing command. -/
def State.signDone (s : State) (r : Nat) : State := (s.wf R.SEC.SIGN_STAT.RESULT r).wf R.SEC.SIGN_STAT.PENDING 0

/-- Refuse a signature (R566): of a seal, SLM's seal error is set. -/
def State.signRefuse (s : State) (forSeal : Bool) (code : Nat) : State :=
  let s := if code = 7 then s else s.raise Pg.SEC 3
  if forSeal then ({ s with slm := { s.slm with hseal := none } }.raise Pg.SLM 3).slmRetry else s.signDone code

/-- What refuses a signature before an index is taken (R566): 5 ZEROISED, 3 NOT_READY. -/
def State.signCheck (s : State) : Nat := if s.flag R.SEC.STAT.ZEROISED then 5 else if s.sec.ident.isNone then 3 else 0

/-- Begin a signature with the next index. -/
def State.signBegin (s : State) (forSeal : Bool) (msg : Bytes) : State :=
  match s.takeIndex with
  | some (q, s) => { s with sec := { s.sec with job := some { forSeal := forSeal, msg := msg, q := q } } }
  | none => s.signRefuse forSeal 4

/-- Begin the signature that waits, the hourly seal before a quote (R565). -/
def State.signNext (s : State) : State :=
  if s.sec.job.isSome then s
  else
    match s.slm.hseal, s.sec.quote with
    | some (_, h), _ => s.signBegin true h
    | none, some b => { s with sec := { s.sec with quote := none } }.signBegin false b
    | none, none => s

/-- The randomiser of a leaf, 32 bytes (R562; RFC 8554 draws it at random). -/
def lmsC (tree : Bytes) (leaf : Nat) : Bytes := (List.range 4).flatMap (fun i => le (Config.lmsRandom (leVal tree) leaf i) 8)

/-- The identity signature of a message with an index (R562). -/
def State.identSig (s : State) (q : Nat) (msg : Bytes) : Bytes :=
  match s.sec.ident with
  | some (seed, I) => identSign I seed q (lmsC I (q / 32768)) (lmsC (botI I seed (q / 32768)) (q % 32768)) msg
  | none => []

/-- The 24 entries of a seal enter the chain, whose next CHAIN is the SHA-256 of them all (R207). -/
def State.sealPut (s : State) (hdr sig : Bytes) : State :=
  let all := hdr ++ padTo 5888 sig
  let es := (List.range 24).map (fun k => slice all (256 * k) 256)
  let s := es.foldl (fun (s : State) b => s.chainPut b) (s.dgeRan 1)
  { s with slm := { s.slm with chain := sha256 all, hseal := none } }

/-- A verified signature is released (R207, R565, R567). -/
def State.signRelease (s : State) (j : SignJob) : State :=
  let sig := s.identSig j.q j.msg
  let s := { s.inc R.SEC.CNT_SIGN.COUNT with sec := { s.sec with job := none } }
  if j.forSeal then (if s.lead then s.sealPut j.msg sig else { s with slm := { s.slm with hseal := none } }).slmRetry
  else (s.store (hbmBase + s.rf R.SEC.SIGN_OUT.ADDR) (j.msg ++ le 5396 4 ++ sig)).signDone 0

/-- SIGNATURE_RELEASE (R565): ok tells whether the finished signature verifies against the identity public key. A signature waits for
its bottom tree; after one failure the tables are rebuilt and the next index signs. -/
def execSignatureRelease (ok : Bool) (s : State) : Host.Outcome State Fault Refusal :=
  match s.sec.job with
  | none => .next s
  | some j =>
    if s.flag R.SEC.STAT.READY = false ∨ s.sec.trees.contains (j.q / 32768) = false then .next s
    else if ok then .next (s.signRelease j).signNext
    else
      let s := { s with sec := { s.sec with job := none } }
      if j.again then .next (s.signRefuse j.forSeal 7).signNext
      else
        let s := s.raise Pg.SEC 5
        match s.takeIndex with
        | some (q, s) => .next { s with sec := { s.sec with job := some { j with q := q, again := true } } }
        | none => .next (s.signRefuse j.forSeal 4).signNext

/-- Bottom tree of the next index. -/
def State.nextTree (s : State) : Nat := s.rf R.SEC.NEXT_Q.INDEX / 32768

/-- GEN_IDENTITY (R561): only in SERVICE; two copies of the seed blob go to the boot flash. While PWR_FAIL_N holds the flash
the command waits (R76, log 105). -/
def State.genIdentity (s : State) : State :=
  if s.mode ≠ .service then s.signDone 8
  else
    match s.sec.drk with
    | none => s.signDone 3
    | some drk =>
      if s.rf R.SEC.STAT.RNG = 0 then s.signDone 3
      else if !s.flashOk then { s.wf R.SEC.SIGN_STAT.PENDING 1 with sec := { s.sec with genWait := true } }
      else
        let r := State.randomBytes 6 s
        let seed := r.1.take 32
        let I := slice r.1 32 16
        let b := keyBlob drk seedHdr (seed ++ I ++ zeros 16)
        let s := (((r.2.flErase (seedAddr 0) 0x10000).flErase (seedAddr 1) 0x10000).flStore (seedAddr 0) b).flStore (seedAddr 1) b
        let s := { s with sec := { s.sec with ident := some (seed, I), trees := [], genWait := false } }
        (s.wf R.SEC.STAT.READY 0).secShow.signDone 0

/-- NODE_TABLES_READY (R564): the top tree and the bottom tree of the next index are built, after the identity that
GEN_IDENTITY still has to make. -/
def execNodeTablesReady (s : State) : Host.Outcome State Fault Refusal :=
  if s.sec.genWait && s.flashOk then .next s.genIdentity
  else if s.sec.ident.isSome then .next { s.wf R.SEC.STAT.READY 1 with sec := { s.sec with trees := [s.nextTree] } } else .next s

/-- NEXT_TREE_BUILD (R564): half of the current tree's leaves are used, or a signature waits for a tree. -/
def execNextTreeBuild (s : State) : Host.Outcome State Fault Refusal :=
  if s.flag R.SEC.STAT.READY = false ∨ s.sec.ident.isNone = true then .next s
  else
    let b := s.nextTree
    let want := match s.sec.job with
      | some j => if s.sec.trees.contains (j.q / 32768) then (if 16384 ≤ s.rf R.SEC.NEXT_Q.INDEX % 32768 then b + 1 else b) else j.q / 32768
      | none => if 16384 ≤ s.rf R.SEC.NEXT_Q.INDEX % 32768 then b + 1 else b
    .next (if s.sec.trees.contains want then s else { s with sec := { s.sec with trees := s.sec.trees ++ [want] } })

/-! ## The hourly seal (R207) -/

/-- SEQ and bytes of the last meter record of the chain. -/
def State.lastRecord (s : State) : Option (Nat × Bytes) :=
  ((s.slm.log ++ s.slm.unpub.map (fun (e : MetEnt) => (e.seq, e.bytes))).filter (fun e => leAt e.2 0x14 1 == 1 && leAt e.2 0 8 == e.1)).getLast?

/-- The header of a seal. -/
def State.sealHeader (s : State) (ostamp : Nat) (last : Nat × Bytes) : Bytes :=
  le s.slm.seq 8 ++ le ostamp 12 ++ [0x81#8] ++ le s.head 1 ++ zeros 2 ++ le 0xFFFFF 4 ++ le s.slm.minute 4 ++ le last.1 8 ++ sha256 last.2
    ++ le s.arrayId 16 ++ le 5396 4 ++ zeros 116 ++ padTo 32 s.slm.chain ++ zeros 16

/-- HOURLY_SEAL (R207, R565, R566): after the minute that ends at a whole hour the lead asks SEC to sign the seal's header. -/
def execHourlySeal (s : State) : Host.Outcome State Fault Refusal :=
  if !s.lead || s.slm.hseal.isSome || decide ((s.slm.minute + 1) % 60 ≠ 0) || decide (s.slm.minute ≤ s.slm.sealed) then .next s
  else
    match s.lastRecord with
    | none => .next s
    | some last =>
      match s.issue Unit.slm with
      | (none, _) => .next (s.ovfBegin Unit.slm)
      | (some o, s) =>
        let s := { s with slm := { s.slm with sealed := s.slm.minute } }
        let c := s.signCheck
        if c ≠ 0 then .next (s.signRefuse true c)
        else .next { s.dgeRan 1 with slm := { s.slm with hseal := some (s.slm.seq, s.sealHeader o last) } }.signNext

/-! ## Signing commands (R561, R567, R568) -/

/-- FLAGS and SLOT of a quote (Table 14-8). -/
def State.quoteFlags (s : State) : Nat :=
  b2n (!s.tbs.rtcValid) + 2 * b2n (s.flag R.SEC.CFG.CLEAR_IMPORT) + 4 * b2n (!s.flag (R.HDR.CTL.LOCK Pg.SEC)) + 8 * b2n (!s.flag R.SEC.CFG.TAMPER_EN)
def State.quoteSlot (s : State) : Nat := s.bsv.running.getD 0 % 2 + 2 * b2n s.runsTrial

/-- The quote body (Table 14-8). -/
def State.quoteBody (s : State) (I seed challenge : Bytes) : Bytes :=
  [0x51#8, 0x55#8, 0x4F#8, 0x54#8] ++ le 1 2 ++ le s.head 1 ++ le (modeCode s.mode) 1 ++ le s.estamp 8 ++ le (if s.tbs.rtcValid then s.utcNs else 0) 8
    ++ le (s.rf R.BSV.SECVER.RUN) 4 ++ le s.fuses.antiRollback 2 ++ le s.quoteSlot 1 ++ le s.quoteFlags 1 ++ le s.arrayId 16
    ++ (sha256 (identPub I seed)).take 16 ++ padTo 32 s.sec.image ++ padTo 32 challenge ++ s.sec.meas.flatMap (padTo 32)

/-- QUOTE (R565 to R567). -/
def State.signQuote (s : State) : State :=
  let a := s.rf R.SEC.SIGN_IN.ADDR
  let h := s.estamp / hourNs
  let n := if s.sec.qHour = h then s.sec.qCnt else 0
  match s.sec.ident with
  | none => s.signRefuse false 3
  | some (seed, I) =>
    if !s.inFw a 32 || !s.inFw (s.rf R.SEC.SIGN_OUT.ADDR) 8192 then s.signDone 1
    else if s.rf R.SEC.CFG.QUOTE_PER_H ≤ n then s.signDone 6
    else
      let b := s.quoteBody I seed (s.load (hbmBase + a) 32)
      { s.wf R.SEC.SIGN_STAT.PENDING 1 with sec := { s.sec with quote := some b, qHour := h, qCnt := n + 1 } }.signNext

/-- PUBKEY (R562, R568). -/
def State.signPubkey (s : State) : State :=
  match s.sec.ident with
  | none => s.signDone 3
  | some (seed, I) =>
    let o := s.rf R.SEC.SIGN_OUT.ADDR
    if s.inFw o 8192 then (s.store (hbmBase + o) (identPub I seed)).signDone 0 else s.signDone 1

/-- MEAS_EXTEND (R568). -/
def State.measExtend (s : State) (r : Nat) : State :=
  let a := s.rf R.SEC.SIGN_IN.ADDR
  if s.inFw a 32 then
    let v := sha256 (padTo 32 (nthD s.sec.meas r []) ++ s.load (hbmBase + a) 32)
    { s with sec := { s.sec with meas := setNth s.sec.meas r v } }.signDone 0
  else s.signDone 1

/-- A write of SEC.SIGN_CMD (R558, R571). -/
def State.signCmd (s : State) (op mreg : Nat) : State :=
  if s.flag R.SEC.SIGN_STAT.PENDING then s.wf R.SEC.SIGN_STAT.RESULT 2
  else if s.flag R.SEC.STAT.ZEROISED then (if op = 1 then s.signRefuse false 5 else s.signDone 5)
  else if op = 1 then s.signQuote
  else if op = 2 then s.signPubkey
  else if op = 3 then s.measExtend mreg
  else if op = 4 then s.genIdentity
  else s.signDone 1

/-- QUOTE (R567). -/
def execQuote (s : State) : Host.Outcome State Fault Refusal := .next (s.signCmd 1 0)

/-- PUBKEY (R568). -/
def execPubkey (s : State) : Host.Outcome State Fault Refusal := .next (s.signCmd 2 0)

/-- MEAS_EXTEND (R568). -/
def execMeasExtend (mreg : Fin 4) (s : State) : Host.Outcome State Fault Refusal := .next (s.signCmd 3 mreg.val)

/-- GEN_IDENTITY (R561). -/
def execGenIdentity (s : State) : Host.Outcome State Fault Refusal := .next (s.signCmd 4 0)

/-! ## Alarms and noise sources (R555 to R558) -/

/-- Firmware requests that need a key fail with ZEROISED, running, queued or posted (R557). -/
def State.zeroRequests (s : State) : State :=
  let s := (s.sec.dreq.filter (fun e => e.2.op == 2)).foldl (fun s e => (s.dgeDrop e.1).dgeEnd e.2.desc 5) s
  let s := s.sec.creq.foldl (fun s e => (s.cphDrop e.1).cphEnd e.2.desc 5) s
  { s with sec := { s.sec with dzero := s.ringPosted dgeRing, czero := s.ringPosted cphRing } }

/-- Every key goes (R557): slots, DRK, the identity seeds, the link keys with the link, and the sessions' keys with the sessions. -/
def State.zeroKeys (s : State) : State :=
  let s := s.zeroRequests
  let s := (s.rpl.sess.map Prod.fst).foldl (fun s i => s.rplEnd i 0x12 false) s
  let s := s.updCpl (fun c => { c with txKey := [], rxKey := [] })
  let s := if s.rf R.CPL.LINK_STAT.STATE = lDown then s else s.cplDown
  { s with sec := { s.sec with dge := [], cph := [], drk := none, ident := none, erase := none } }

/-- Key and signing commands in progress end with ZEROISED (R558, R566). -/
def State.zeroCommands (s : State) : State :=
  let quote := s.sec.quote.isSome || (match s.sec.job with | some j => !j.forSeal | none => false)
  let s := if s.flag R.SEC.KEY_STAT.PENDING then s.keyDone 7 else s
  let s := { s with sec := { s.sec with quote := none, job := none } }
  let s := if s.sec.genWait then { s with sec := { s.sec with genWait := false } }.signDone 5 else s
  let s := if quote then s.signRefuse false 5 else s
  if s.slm.hseal.isSome then s.signRefuse true 5 else s

/-- ALARM (R556 to R558, Table 14-7): only TAMPER_N can be masked. In VAULT the Gondola stays without a seal. -/
def execAlarm (src : Fin 5) (s : State) : Host.Outcome State Fault Refusal :=
  if src.val = 4 ∧ s.flag R.SEC.CFG.TAMPER_EN = false then .next s
  else
    let s := (s.wf R.SEC.ALARM.SRC (setBit (s.rf R.SEC.ALARM.SRC) src.val true)).wf R.SEC.STAT.ZEROISED 1
    let s := s.zeroKeys.zeroCommands
    let s := if s.mode = .vault then { s with sgb := { s.sgb with vaultStuck := true } } else s
    let s := s.evrEvent 3 Unit.sec (s.rf R.SEC.ALARM.SRC)
    .next ((s.raise Pg.SEC 0).settle)

/-- NOISE_SOURCE_FAIL (R555). -/
def execNoiseSourceFail (n : Fin 2) (s : State) : Host.Outcome State Fault Refusal :=
  let r := s.rf R.SEC.STAT.RNG
  if !bit r n.val then .next s
  else
    let s := s.wf R.SEC.STAT.RNG (setBit r n.val false)
    .next ((if s.rf R.SEC.STAT.RNG = 0 then s.raise Pg.SEC 2 else s.raise Pg.SEC 1).settle)

end Sys2Proof.Machine
end

