-- ==== Sys2Proof/Machine/Cluster.lean ====
section
/-! DEFINITION. The control cluster: cores, timers, L2 and its commands, and interrupt delivery (R573 to R608). -/
namespace Sys2Proof.Machine

/-! ## Cores (R575 to R578) -/

/-- A core's own state. -/
def State.core (s : State) (c : Nat) : Core := agetD s.ccl.cores c {}

def State.updCore (s : State) (c : Nat) (f : Core → Core) : State := { s with ccl := { s.ccl with cores := aset s.ccl.cores c (f (s.core c)) } }

/-- A write of CCL.CORE_RUN (R575): bits are set, and clearing one that is set does nothing. -/
def State.coreRunWrite (s : State) (v : Nat) : State := s.wf R.CCL.CORE_RUN.RUN (s.rf R.CCL.CORE_RUN.RUN ||| v % 2 ^ 24)

/-- CORE_RUN_WRITE (R575). -/
def execCoreRunWrite (v : BitVec 32) (s : State) : Host.Outcome State Fault Refusal := .next (s.coreRunWrite v.toNat)

/-- STAMP_CSR_READ (R577): CSR 0xCC0 issues a stamp and returns bits 63..0 of it, 0xCC1 (hi) bits 95..64 of the core's last one. In U
mode the read is an illegal instruction. A core whose stamp cannot be issued waits (R91, R103). -/
def execStampCsrRead (core : Fin 24) (hi user : Bool) (s : State) : Host.Outcome State Fault Refusal :=
  let c := core.val
  if !s.coreRuns c then .next s
  else if user then .next (s.emit (.illegal c (if hi then 0xCC1 else 0xCC0)))
  else if hi then .next (s.emit (.readData c 0xCC1 (agetD s.tbs.issuers (Unit.core c) 0 / 2 ^ 64)))
  else
    match s.issue (Unit.core c) with
    | (some o, s) => .next (s.emit (.readData c 0xCC0 (o % 2 ^ 64)))
    | (none, _) => .next (s.ovfBegin (Unit.core c))

/-- The timer interrupts of a core as its compare values stand against the counter (R578). -/
def State.timerSet (s : State) (c : Nat) : State :=
  s.updCore c (fun k => { k with mtip := decide (s.rf (R.CCL.LOC_MTIMECMP.CMP c) ≤ s.tbs.phys), stip := decide (k.stimecmp ≤ s.tbs.phys) })

/-- TIMER_COMPARE_MATCH (R578): a core's counter passes mtimecmp, or the stimecmp given. -/
def execTimerCompareMatch (core : Fin 24) (stime : Option (BitVec 64)) (s : State) : Host.Outcome State Fault Refusal :=
  let s := match stime with
    | some v => s.updCore core.val (fun k => { k with stimecmp := v.toNat })
    | none => s
  .next (s.timerSet core.val)

/-! ## L2 lines (R589, R590) -/

/-- Slice and set of a line (R589). -/
def l2Slice (line : Nat) : Nat := Nat.xor (line % 4) (line / 2 ^ 14 % 4)
def l2Set (line : Nat) : Nat := line / 4 % 4096

/-- STATE of L2: 0 OFF, 1 ON, 2 DRAINING, 3 INVALIDATING. -/
def State.l2State (s : State) : Nat := s.rf R.CCL.L2_STATE.STATE

def State.l2Has (s : State) (line : Nat) : Bool := s.ccl.l2.any (fun x => x.line == line)

/-- Mark a line of L2 dirty. -/
def State.l2Dirty (s : State) (line : Nat) : State :=
  { s with ccl := { s.ccl with l2 := s.ccl.l2.map (fun x => if x.line = line then { x with dirty := true } else x) } }

/-- A line of L2 becomes the most recently used. -/
def State.l2Touch (s : State) (line : Nat) : State :=
  { s with ccl := { s.ccl with l2 := s.ccl.l2.filter (fun x => x.line != line) ++ s.ccl.l2.filter (fun x => x.line == line) } }

/-- Take a line out of every L1 but a core's own data cache; a dirty copy makes the L2 line dirty. -/
def State.l1Drop (s : State) (line keep : Nat) (instr : Bool) : State :=
  let d := s.ccl.cores.any (fun e => e.1 != keep && e.2.l1d.any (fun x => x.1 == line && x.2))
  let s := { s with ccl := { s.ccl with cores := amap s.ccl.cores (fun c (k : Core) =>
    { k with l1d := if c = keep then k.l1d else k.l1d.filter (fun x => x.1 != line), l1i := if instr then k.l1i.filter (fun x => x != line) else k.l1i }) } }
  if d then s.l2Dirty line else s

/-- Other cores' copies of a line become clean, their data being in L2. -/
def State.l1Clean (s : State) (line : Nat) : State :=
  let d := s.ccl.cores.any (fun e => e.2.l1d.any (fun x => x.1 == line && x.2))
  let s := { s with ccl := { s.ccl with cores := amap s.ccl.cores (fun _ (k : Core) => { k with l1d := k.l1d.map (fun x => if x.1 = line then (x.1, false) else x) }) } }
  if d then s.l2Dirty line else s

/-- Remove a line from L2 and, as L2 is inclusive, from every L1. -/
def State.l2Evict (s : State) (line : Nat) : State :=
  let s := s.l1Drop line 24 true
  { s with ccl := { s.ccl with l2 := s.ccl.l2.filter (fun x => x.line != line) } }

/-- Lines of a set in their order of use. -/
def State.l2InSet (s : State) (line : Nat) : List L2Line :=
  s.ccl.l2.filter (fun x => l2Slice x.line == l2Slice line && l2Set x.line == l2Set line)

/-- Put a line into L2: in a free way, else in that of the least recently used line whose way is not locked (R589, R600). -/
def State.l2Insert (s : State) (line : Nat) : State :=
  if s.l2Has line then s.l2Touch line
  else
    let here := s.l2InSet line
    match (List.range 16).find? (fun w => !here.any (fun x => x.way == w)) with
    | some w => { s with ccl := { s.ccl with l2 := s.ccl.l2 ++ [{ line := line, way := w }] } }
    | none =>
      match here.find? (fun x => !bit (s.rf R.CCL.L2_LOCK.WAYS) x.way) with
      | some v => let s := s.l2Evict v.line; { s with ccl := { s.ccl with l2 := s.ccl.l2 ++ [{ line := line, way := v.way }] } }
      | none => s

/-- Put a line into a core's L1 data cache (8 ways of 128 sets); a dirty line that leaves makes its L2 line dirty. -/
def State.l1dInsert (s : State) (c line : Nat) (dirty : Bool) : State :=
  let k := s.core c
  let was := k.l1d.any (fun x => x.1 == line && x.2)
  let rest := k.l1d.filter (fun x => x.1 != line)
  let set := rest.filter (fun x => x.1 % 128 == line % 128)
  match (if 8 ≤ set.length then set.head? else none) with
  | some v =>
    let s := s.updCore c (fun k => { k with l1d := rest.filter (fun x => x.1 != v.1) ++ [(line, was || dirty)] })
    if v.2 then s.l2Dirty v.1 else s
  | none => s.updCore c (fun k => { k with l1d := rest ++ [(line, was || dirty)] })

/-- Put a line into a core's L1 instruction cache (4 ways of 256 sets). -/
def State.l1iInsert (s : State) (c line : Nat) : State :=
  s.updCore c (fun k =>
    let rest := k.l1i.filter (fun x => x != line)
    let set := rest.filter (fun x => x % 256 == line % 256)
    match (if 4 ≤ set.length then set.head? else none) with
    | some v => { k with l1i := rest.filter (fun x => x != v) ++ [line] }
    | none => { k with l1i := rest ++ [line] })

/-! ## Requests to L2 (R590 to R593) -/

/-- The requester restarts: a load's value is delivered. -/
def State.restart (s : State) (r : CacheReq) : State :=
  match r.val with
  | some v => if r.answered then s else s.emit (.readData r.who r.addr v)
  | none => s

/-- Serve a request from its line in L2. -/
def State.l2Serve (s : State) (r : CacheReq) : State :=
  let line := r.addr / 64
  let s := s.l2Touch line
  let s := if r.l1 = 1 then (if r.store then s.l1Drop line r.who false else s.l1Clean line).l1dInsert r.who line r.store
    else if r.l1 = 2 then s.l1iInsert r.who line
    else s.l1Clean line
  s.restart r

/-- Miss registers of a slice. -/
def State.sliceRegs (s : State) (line : Nat) : List MissReg := s.ccl.regs.filter (fun m => l2Slice m.line == l2Slice line)

/-- A demand request at its slice (R591, R593): a hit, a line of the side buffer, a secondary miss, a new miss, or a wait. -/
def State.l2Demand (s : State) (r : CacheReq) : State :=
  let line := r.addr / 64
  let wait := { s with ccl := { s.ccl with queue := s.ccl.queue ++ [r] } }
  if s.ccl.queue.any (fun q => q.addr / 64 == line) then wait
  else if s.l2Has line then (s.incWrap R.CCL.CNT_L2_HIT.COUNT).l2Serve r
  else if s.ccl.side.contains line then
    let s := (s.inc R.CCL.CNT_SB_USED.COUNT)
    ({ s with ccl := { s.ccl with side := s.ccl.side.filter (fun l => l != line) } }.l2Insert line).l2Serve r
  else
    match s.ccl.regs.find? (fun m => m.line == line) with
    | some m =>
      if m.reqs.length + b2n m.prefetched < 8 then
        let s := (s.incWrap R.CCL.CNT_L2_MISS.COUNT).inc R.CCL.CNT_MERGE.COUNT
        { s with ccl := { s.ccl with regs := s.ccl.regs.map (fun (x : MissReg) => if x.line = line then { x with reqs := x.reqs ++ [r] } else x) } }
      else wait
    | none =>
      if (s.sliceRegs line).length < 32 then
        let s := s.incWrap R.CCL.CNT_L2_MISS.COUNT
        { s with ccl := { s.ccl with regs := s.ccl.regs ++ [{ line := line, reqs := [r] }] } }
      else wait

/-- A prefetch of a line (R587, R588): copied from L2 into the L1 data cache, or fetched for the side buffer. -/
def State.l2Prefetch (s : State) (c line : Nat) (store : Bool) : State :=
  if (s.core c).l1d.any (fun x => x.1 == line) || s.ccl.side.contains line || s.ccl.regs.any (fun m => m.line == line) then s
  else if s.l2Has line then ((if store then s.l1Drop line c false else s.l1Clean line).l2Touch line).l1dInsert c line false
  else if s.flag R.CCL.PF_CFG.SB_EN ∧ ((s.sliceRegs line).filter (fun m => m.prefetched)).length < 24 ∧ (s.sliceRegs line).length < 32 then
    { s with ccl := { s.ccl with regs := s.ccl.regs ++ [{ line := line, prefetched := true }] } }
  else s

/-- A prefetched line enters the side buffer of its slice, first in, first out (R593). -/
def State.sidePush (s : State) (line : Nat) : State :=
  let mine := s.ccl.side.filter (fun l => l2Slice l == l2Slice line)
  match (if 64 ≤ mine.length then mine.head? else none) with
  | some v => { s with ccl := { s.ccl with side := s.ccl.side.filter (fun l => l != v) ++ [line], drops := satAdd 32 s.ccl.drops 1 } }
  | none => { s with ccl := { s.ccl with side := s.ccl.side ++ [line] } }

/-- CRITICAL_CHUNK (R592): the chunk of a privileged primary miss arrives, and its requester restarts. -/
def execCriticalChunk (line : Nat) (s : State) : Host.Outcome State Fault Refusal :=
  match s.ccl.regs.find? (fun m => m.line == line) with
  | none => .next s
  | some m =>
    match m.reqs with
    | r :: t =>
      if r.priv && !m.prefetched && !r.answered then
        let s := s.restart r
        .next { s with ccl := { s.ccl with regs := s.ccl.regs.map (fun (x : MissReg) => if x.line = line then { x with reqs := { r with answered := true } :: t } else x) } }
      else .next s
    | [] => .next s

/-- A fill is complete (R588, R590, R591): the register is free, its requests restart in order, and the slice's queue goes on. -/
def State.l2Fill (s : State) (m : MissReg) : State :=
  let s := { s with ccl := { s.ccl with regs := s.ccl.regs.filter (fun x => x.line != m.line) } }
  let s := if s.l2State ≠ 1 then m.reqs.foldl (fun s r => s.restart r) s
    else if m.reqs = [] then s.sidePush m.line
    else m.reqs.foldl (fun s r => s.l2Serve r) (s.l2Insert m.line)
  let mine := s.ccl.queue.filter (fun r => l2Slice (r.addr / 64) == l2Slice m.line)
  let s := { s with ccl := { s.ccl with queue := s.ccl.queue.filter (fun r => l2Slice (r.addr / 64) != l2Slice m.line) } }
  mine.foldl (fun s r => if s.l2State = 1 then s.l2Demand r else s.restart r) s

/-- L2_LINE_FILL (R591). -/
def execL2LineFill (line : Nat) (s : State) : Host.Outcome State Fault Refusal :=
  match s.ccl.regs.find? (fun m => m.line == line) with
  | some m => .next (s.l2Fill m)
  | none => .next s

/-! ## Commands of L2 (R595 to R600) -/

/-- ENABLE_NO_INV, LOCK_NO_PRELOAD or PRELOAD_BAD is set (Table 15-5). -/
def State.l2Bad (s : State) (f : Fld) : State := (s.wf f 1).raise Pg.CCL 4

/-- L2, L1s and side buffers hold nothing; no way is preloaded or locked. -/
def State.l2Empty (s : State) : State :=
  let s := (s.wf R.CCL.L2_PRELOADED.WAYS 0).wf R.CCL.L2_LOCK.WAYS 0
  { s with ccl := { s.ccl with l2 := [], side := [], preload := none, cores := amap s.ccl.cores (fun _ (k : Core) => { k with l1d := [], l1i := [] }) } }

/-- INVALIDATE (R597): accepted only while L2 is OFF. -/
def State.l2Invalidate (s : State) : State :=
  if s.flag R.CCL.L2_STATE.BUSY = false ∧ s.l2State = 0 then (s.wf R.CCL.L2_STATE.STATE 3).wf R.CCL.L2_STATE.BUSY 1 else s

/-- L2_INVALIDATE: CCL.L2_CMD 0x1. -/
def execL2Invalidate (s : State) : Host.Outcome State Fault Refusal := .next s.l2Invalidate

/-- L2_INVALIDATE_DONE (R597). -/
def execL2InvalidateDone (s : State) : Host.Outcome State Fault Refusal :=
  if s.l2State = 3 then .next (((s.l2Empty.wf R.CCL.L2_STATE.STATE 0).wf R.CCL.L2_STATE.BUSY 0).wf R.CCL.L2_STATE.INV_DONE 1) else .next s

/-- EN written 1 (R596). -/
def State.l2Enable (s : State) : State :=
  if s.l2State ≠ 0 then s
  else if s.flag R.CCL.L2_STATE.INV_DONE then (s.wf R.CCL.L2_STATE.STATE 1).wf R.CCL.L2_CTL.EN 1
  else s.l2Bad R.CCL.L2_STATE.ENABLE_NO_INV

/-- L2_ENABLE: CCL.L2_CTL.EN written 1. -/
def execL2Enable (s : State) : Host.Outcome State Fault Refusal := .next s.l2Enable

/-- EN written 0 (R594, R598): from ON to DRAINING. The L1 data caches write back and stop; prefetches wait no longer. -/
def State.l2Disable (s : State) : State :=
  if s.l2State ≠ 1 then s
  else
    let dirty := s.ccl.cores.flatMap (fun e => (e.2.l1d.filter (fun x => x.2)).map Prod.fst)
    let s := dirty.foldl (fun s l => s.l2Dirty l) s
    let side := s.ccl.side.length
    let s := { s with ccl := { s.ccl with side := [], drops := satAdd 32 s.ccl.drops side, drained := dirty.length
                                          regs := s.ccl.regs.filter (fun m => m.reqs != [])
                                          cores := amap s.ccl.cores (fun _ (k : Core) => { k with l1d := [], l1i := [] }) } }
    (s.wf R.CCL.L2_STATE.STATE 2).wf R.CCL.L2_CTL.EN 0

/-- L2_DISABLE: CCL.L2_CTL.EN written 0. -/
def execL2Disable (s : State) : Host.Outcome State Fault Refusal := .next s.l2Disable

/-- L2_DRAIN_COMPLETE (R598): the last dirty line has been written back. -/
def execL2DrainComplete (s : State) : Host.Outcome State Fault Refusal :=
  if s.l2State = 2 then
    let n := s.ccl.drained + (s.ccl.l2.filter (fun x => x.dirty)).length
    .next (((s.l2Empty.wf R.CCL.L2_STATE.STATE 0).wf R.CCL.L2_STATE.BUSY 0).wf R.CCL.L2_DRAIN_COUNT.LINES (min n 0xFFFFFFFF))
  else .next s

/-- Regions a cache may hold (Table 15-1, R579, R582): boot ROM, the firmware region of HBM, and the coherent windows of DRAM. -/
def State.inWindow (s : State) (d : Nat) : Bool :=
  (List.range 8).any (fun k => s.flag (R.CCL.COH_WIN_LO.VALID k) &&
    decide (s.rf (R.CCL.COH_WIN_LO.BASE k) * 1073741824 ≤ d ∧ d < (s.rf (R.CCL.COH_WIN_LO.BASE k) + s.rf (R.CCL.COH_WIN_HI.SIZE k)) * 1073741824))

/-- Bytes of DRAM the head has (Tables 1-11, 15-1). -/
def State.dramBytes (s : State) : Nat := s.usableGib * 1073741824

/-- A physical address lies in a cacheable region. -/
def State.cacheable (s : State) (a : Nat) : Bool :=
  decide (a < 65536) || (decide (hbmBase ≤ a) && s.inFw (a - hbmBase) 1)
    || (decide (dramBase ≤ a ∧ a < dramBase + s.dramBytes) && s.inWindow (a - dramBase))

/-- PRELOAD (R599). -/
def State.l2Preload (s : State) (way : Nat) : State :=
  let a := s.rf R.CCL.L2_PRELOAD_ADDR.ADDR
  let n := s.rf R.CCL.L2_PRELOAD_LEN.BYTES
  let ok := decide (s.l2State = 1 ∧ a % 64 = 0 ∧ n % 64 = 0 ∧ 0 < n ∧ a / 1048576 = (a + n - 1) / 1048576) && s.cacheable a && s.cacheable (a + n - 1)
    && !bit (s.rf R.CCL.L2_LOCK.WAYS) way
  if s.flag R.CCL.L2_STATE.BUSY then s
  else if ok then { s.wf R.CCL.L2_STATE.BUSY 1 with ccl := { s.ccl with preload := some way } }
  else s.l2Bad R.CCL.L2_STATE.PRELOAD_BAD

/-- L2_PRELOAD: CCL.L2_CMD 0x2. -/
def execL2Preload (way : Fin 16) (s : State) : Host.Outcome State Fault Refusal := .next (s.l2Preload way.val)

/-- One line of a preload into a way: a line there is displaced, and the line itself moves if another way has it. -/
def State.preloadLine (s : State) (way line : Nat) : State :=
  match (s.l2InSet line).find? (fun x => x.line == line) with
  | some x =>
    if x.way = way then s
    else
      let s := match (s.l2InSet line).find? (fun y => y.way == way) with | some v => s.l2Evict v.line | none => s
      { s with ccl := { s.ccl with l2 := s.ccl.l2.map (fun (y : L2Line) => if y.line = line then { y with way := way } else y) } }
  | none =>
    let s := match (s.l2InSet line).find? (fun y => y.way == way) with | some v => s.l2Evict v.line | none => s
    { s with ccl := { s.ccl with l2 := s.ccl.l2 ++ [{ line := line, way := way }], side := s.ccl.side.filter (fun l => l != line) } }

/-- L2_PRELOAD_DONE (R599): every line of the range lies in its way. -/
def execL2PreloadDone (s : State) : Host.Outcome State Fault Refusal :=
  match s.ccl.preload with
  | none => .next s
  | some w =>
    let s := { s.wf R.CCL.L2_STATE.BUSY 0 with ccl := { s.ccl with preload := none } }
    if s.l2State ≠ 1 then .next s
    else
      let a := s.rf R.CCL.L2_PRELOAD_ADDR.ADDR / 64
      let s := (List.range (s.rf R.CCL.L2_PRELOAD_LEN.BYTES / 64)).foldl (fun s k => s.preloadLine w (a + k)) s
      .next (s.wf R.CCL.L2_PRELOADED.WAYS (setBit (s.rf R.CCL.L2_PRELOADED.WAYS) w true))

/-- A write of CCL.L2_LOCK (R600). -/
def State.l2LockWrite (s : State) (v : Nat) : State :=
  let can := (onesBelow (s.rf R.CCL.L2_PRELOADED.WAYS) 16).take 12
  let new := sumL (can.map (fun w => if bit v w then 2 ^ w else 0))
  let s := s.wf R.CCL.L2_LOCK.WAYS new
  if v % 65536 = new then s else s.l2Bad R.CCL.L2_STATE.LOCK_NO_PRELOAD

/-- L2_LOCK_WRITE (R600). -/
def execL2LockWrite (v : BitVec 32) (s : State) : Host.Outcome State Fault Refusal := .next (s.l2LockWrite v.toNat)

/-! ## Interrupts (R602 to R608) -/

/-- Priority threshold of a core and privilege. -/
def State.irqThr (s : State) (c p : Nat) : Nat := if p = 0 then s.rf (R.CCL.LOC_M_THRESH.THR c) else s.rf (R.CCL.LOC_S_THRESH.THR c)

/-- PRIO of a source. -/
def State.irqPrio (s : State) (src : Nat) : Nat := fld (s.irqCfgOf src) 6 3

/-- A source is eligible for a core in a mode (R603, R605, R606). -/
def State.eligible (s : State) (c p src : Nat) : Bool :=
  s.irq.asserted.contains src && s.irqDest src == some (c, p) && decide (s.irqThr c p < s.irqPrio src) && !ahas s.irq.inService src

/-- MEIP (p = 0) or SEIP (p = 1) of a core (R603). -/
def State.extPending (s : State) (c p : Nat) : Bool := (List.range 66).any (s.eligible c p)

/-- The source a claim takes: the highest PRIO, among equals the lowest number (R604). -/
def State.claimSource (s : State) (c p : Nat) : Nat :=
  ((List.range 66).filter (s.eligible c p)).foldl (fun m k => if m = 0 ∨ s.irqPrio m < s.irqPrio k then k else m) 0

/-- Claim (R604): the source is in service under the configuration it has now. An event line has no cause beyond the event and falls
with the claim (log 65). -/
def State.irqClaim (s : State) (c p : Nat) : Nat × State :=
  let k := s.claimSource c p
  if k = 0 then (0, s)
  else
    let s := { s with irq := { s.irq with inService := aset s.irq.inService k (c * 2 + p), held := aset s.irq.held k (agetD s.irq.cfg k 0) } }
    (k, if k % 2 = 0 then s.deassert k else s)

/-- Complete (R604): only by the core that claimed the source. -/
def State.irqComplete (s : State) (c p k : Nat) : State :=
  if aget s.irq.inService k = some (c * 2 + p) then { s with irq := { s.irq with inService := adel s.irq.inService k, held := adel s.irq.held k } } else s

/-- INTERRUPT_ASSERT (R602, R605, R606): the event line of a block rises, or its error line while an unmasked error is set. -/
def execInterruptAssert (src : Fin 128) (s : State) : Host.Outcome State Fault Refusal :=
  if src.val < 2 ∨ 65 < src.val ∨ (src.val % 2 = 1 ∧ s.errLine (src.val / 2) = false) then .next s
  else .next (s.assertWith (fun o s => s.occur o) src.val)

/-- INTERRUPT_CLAIM (R604): a read of CCL.LOC_M_CLAIM (sup false) or CCL.LOC_S_CLAIM of a core's page. -/
def execInterruptClaim (core : Fin 24) (sup : Bool) (by_ : Fin 24) (s : State) : Host.Outcome State Fault Refusal :=
  let r := s.irqClaim core.val (b2n sup)
  .next (r.2.emit (.readData by_.val (0x02000000 + core.val * 4096 + (if sup then 0x2C else 0x24)) r.1))

/-- INTERRUPT_COMPLETE (R604). -/
def execInterruptComplete (core : Fin 24) (sup : Bool) (src : Fin 128) (s : State) : Host.Outcome State Fault Refusal :=
  .next (s.irqComplete core.val (b2n sup) src.val)

/-- SOFTWARE_INTERRUPT_WRITE (R608): CCL.LOC_MSIP or CCL.LOC_SSIP of a core's page, by any core. -/
def execSoftwareInterruptWrite (core : Fin 24) (sup v : Bool) (s : State) : Host.Outcome State Fault Refusal :=
  .next (s.wf (if sup then R.CCL.LOC_SSIP.SSIP core.val else R.CCL.LOC_MSIP.MSIP core.val) (b2n v))

end Sys2Proof.Machine
end

