-- ==== Sys2Proof/Machine/RegView.lean ====
section
/-! DEFINITION. What a 32-bit read of the control space shows: stored fields, the state a block reports, and fused-off pages (R13, R17, R670, R681). -/
namespace Sys2Proof.Machine

/-! ## Where a word lies (R20, R667, R670) -/

/-- First key of the core-local pages in the model's one register key space; page p of the control space begins at p × 4096. -/
def localBase : Nat := 0x4000000

/-- The rows of the page a key lies in: its header and its block's registers, or a core-local page's (R609, R674). -/
def rowsAt (key : Nat) : List FRow :=
  if localBase ≤ key then rowsLocal else hdrRows ++ blockRows (blockOf (key / 4096))

/-- Words one copy of a register row takes. -/
def rowWords (r : FRow) : Nat := (r.lo + r.w + 31) / 32

/-- The part of a row's field that lies in k words from an offset on: its lowest bit and width there. -/
def partOf (r : FRow) (off k : Nat) : Option (Nat × Nat) :=
  let n := rowWords r
  let span := max r.stride (4 * n)
  if r.off ≤ off ∧ (off - r.off) / span < r.count ∧ (off - r.off) % span / 4 < n then
    some (if n = 1 then (r.lo, r.w) else (0, 32 * k))
  else none

/-- The 64-bit register a key belongs to: the key of its lower offset, and whether the key is the upper one (R20). -/
def reg64 (key : Nat) : Option (Nat × Bool) :=
  ((rowsAt key).find? (fun r => r.w == 64 && (r.off == key % 4096 || r.off + 4 == key % 4096))).map
    (fun r => (key / 4096 * 4096 + r.off, r.off + 4 == key % 4096))

/-- Bits of a word that a readable field covers; the others read 0 (R17). -/
def readMask (key : Nat) : Nat :=
  (rowsAt key).foldl (fun m r =>
    match partOf r (key % 4096) 1 with
    | some (lo, w) => if r.acc = .wo then m else m ||| ((2 ^ w - 1) * 2 ^ lo)
    | none => m) 0

/-- Half h of a 64-bit or wider value. -/
def wordOf (v h : Nat) : Nat := v / 4294967296 ^ h % 4294967296

/-! ## Pages of fused-off instances (R681) -/

/-- A read of a fused-off page: R681 gives each offset, and every other one reads 0. R51 and R452, which have a module at a fused-off position
reported with REASON 1 in JLK.LINK_STAT, hold for a position of an instance that has its page (DEDUCED, log 110). -/
def fusedView (page off : Nat) : Nat :=
  match off with
  | 0x000 => idReset page + 2147483648
  | 0x004 => capReset (blockOf page) - unitsMax (blockOf page)
  | 0x008 => 4
  | 0x00C => 4 + 65536 * unitsMax (blockOf page)
  | 0x034 => 4
  | _ => 0

/-! ## The header (Table 18-5, R644, R665) -/

/-- Version codes of the ACTIVE links of a JLK instance. -/
def State.jlkVers (s : State) (inst : Nat) : List Nat :=
  ((List.range 16).map (fun p => s.linkEnd (16 * inst + p))).filterMap (fun e => if e.state = lActive then some e.ver else none)

/-- The Annex port's PCIe link is up: its clock runs and lanes may train (R697, R707). -/
def State.anxUp (s : State) : Bool := s.pins.refclkPcie && s.pins.lanesEnabled

/-- IFVER (Table 18-5). -/
def State.ifver (s : State) (page : Nat) : Nat :=
  if 23 ≤ page ∧ page ≤ 26 then
    match s.jlkVers (page - 23) with
    | [] => 0
    | v :: l => minL v (v :: l) + 256 * maxL (v :: l) + 65536
  else if page = Pg.CPL then
    (if s.rf R.CPL.LINK_STAT.STATE = lActive then s.rf R.CPL.LINK_STAT.VER * 257 + 65536 else 0)
  else if page = Pg.ANX then (if s.anxUp then (1 + Config.pcieGen s.now % 6) * 257 + 65536 else 0)
  else 0

/-- A header word of a live page. -/
def State.hdrView (s : State) (page off : Nat) : Nat :=
  let w := (s.word (page * 4096 + off)).toNat
  match off with
  | 0x00C => setFld w 0 1 (b2n (s.busy page))
  | 0x014 => s.maskEff page
  | 0x034 => s.pwrState page + 256 * s.activeUnits page
  | 0x040 => s.ifver page
  | _ => w

/-! ## Blocks -/

/-- Words of BSV, FCL, EVR, SEC and TBS that show more than what is stored. -/
def State.svcView (s : State) (page off w : Nat) : Nat :=
  match page, off with
  | 1, 0x100 => s.modeWord
  | 1, 0x140 => setFld w 1 1 (b2n s.pins.serviceEn)
  | 2, 0x118 => setFld w 1 1 (b2n (!s.faultNLow))
  | 3, 0x100 => setFld w 0 1 (b2n (!s.tbs.rtcValid))
  | 3, 0x118 => toTwos 16 (nthD s.evr.now (s.rf R.EVR.Q_SEL.Q) 0)
  | 5, 0x100 => wordOf s.tbs.phys 0
  | 5, 0x104 => wordOf s.tbs.phys 1
  | 5, 0x108 => setFld w 2 1 (b2n (decide (epsilon < s.epsCur)))
  | 5, 0x10C => s.epsCur
  | 5, 0x154 => b2n s.tbs.rtcValid + 2 * b2n s.tbs.rtcLost
  | _, _ => w

/-- Words of NVT, SLM, ING, DGE and CPH. -/
def State.ioView (s : State) (page off w : Nat) : Nat :=
  let i := s.rf R.SLM.SEL.INDEX
  match page, off with
  | 10, 0x114 => agetD s.io.vcnt s.vcntKey 0
  | 10, 0x144 => s.stagingBufs
  | 11, 0x12C => b2n s.lead + 2 * (s.maps.slices.filter (fun e => sdState e.2.desc != 0)).length
  | 11, 0x134 =>
    (match s.sliceRow i with | some r => sdState r.desc | none => 0) + 8 * b2n (s.dynOf i).wgl.isSome + 16 * b2n (s.dynOf i).wglOvf
      + 4096 * min 1048575 (s.inflight i)
  | 11, 0x144 => (s.dynOf i).wglWr
  | 11, 0x148 => (s.dynOf i).wglRd
  | 12, 0x108 => agetD s.ing.dom (s.rf R.ING.DOM_SEL.DOMAIN) 0
  | 13, 0x120 => match aget s.sec.dge (s.rf R.DGE.SLOT_SEL.SLOT) with | some k => k.kind | none => 0
  | 15, 0x128 => match aget s.sec.cph (s.rf R.CPH.SLOT_SEL.SLOT) with | some k => k.kind | none => 0
  | 15, 0x12C => match aget s.sec.cph (s.rf R.CPH.SLOT_SEL.SLOT) with | some k => min 0xFFFFFFFF k.inv | none => 0
  | _, _ => w

/-- Words of SGB, RBE, JRN and FMM. -/
def State.mediaView (s : State) (page off w : Nat) : Nat :=
  let m := s.rf R.FMM.DIE_SEL.MODULE
  let d := s.rf R.FMM.DIE_SEL.DIE
  let lane := s.lane (s.rf R.JRN.LANE_SEL.LANE)
  let mod_ := aget s.fmm.mods m
  match page, off with
  | 16, 0x158 => s.poolStat (s.rf R.SGB.POOL_SEL.POOL)
  | 16, 0x15C => min 1023 s.dirtySegs
  | 17, 0x104 => b2n (decide (0 < s.rebuildLeft))
  | 17, 0x108 => wordOf s.rebuildLeft 0
  | 17, 0x10C => wordOf s.rebuildLeft 1
  | 18, 0x108 => sumL (lane.homes.zipIdx.map (fun (q : Nat × Nat) => q.1 % 256 * 256 ^ q.2)) % 16777216 + 16777216 * min 3 lane.copies
  | 18, 0x10C => min 127 s.jrnUse
  | 21, 0x134 =>
    min 16383 (s.blocksIn m d [5]) + 16384 * b2n (match mod_ with | some x => x.failed.contains d | none => false)
      + 32768 * b2n (mod_.isSome && s.ownsDie d) + 65536 * min 4095 (s.blocksIn m d [1, 3])
  | 21, 0x138 => s.foldBacklog
  | 21, 0x13C => match mod_ with | some x => x.phase | none => 0
  | _, _ => w

/-- Words of a JLK page: the position in POS_SEL (R455). -/
def State.jlkView (s : State) (page off w : Nat) : Nat :=
  let m := 16 * (page - 23) + s.rf (R.JLK.POS_SEL.POS (page - 23))
  let e := s.linkEnd m
  match off with
  | 0x104 =>
    e.state + 8 * e.rate + 32 * popcount e.lanes 2 + 128 * b2n (decide (1 ≤ e.state)) + 256 * e.ver
      + 4096 * b2n (match aget s.fmm.mods m with | some x => x.ready | none => false) + 8192 * e.reason
  | 0x128 => match aget s.jlk.witSeen m with | some (_, t) => if t = 0 then 0 else min 65535 ((s.now - t) / 1000000) | none => 0
  | 0x130 => e.cntCrc
  | 0x134 => e.cntSeq
  | 0x138 => e.cntLen
  | 0x13C => e.cntCredit
  | 0x140 => e.cntReplay
  | 0x144 => e.cntStale
  | 0x148 => e.cntTimeout
  | 0x14C => e.cntOwner
  | 0x150 => e.cntRetrain
  | 0x154 => (s.jlk.reqs.filter (fun r => r.1 / 4096 == m)).length
  | _ => w

/-- Words of CPL, with the channel in CH_SEL, and of RPL, with the session in SEL (R499, R528). -/
def State.linkView (s : State) (page off w : Nat) : Nat :=
  let ch := s.rf R.CPL.CH_SEL.CHAN
  let x := agetD s.rpl.sess (s.rf R.RPL.SEL.SESSION) {}
  match page, off with
  | 27, 0x11C => agetD s.cpl.cnt (ch * 8 + 1) 0
  | 27, 0x120 => agetD s.cpl.cnt (ch * 8 + 2) 0
  | 27, 0x124 => agetD s.cpl.cnt (ch * 8 + 3) 0
  | 27, 0x128 => agetD s.cpl.cnt (ch * 8 + 4) 0
  | 27, 0x12C => agetD s.cpl.cnt (ch * 8 + 6) 0
  | 27, 0x13C => match s.cpl.hbAt with | some t => min 0xFFFFFF ((s.now - t) / 1000) | none => 0xFFFFFF
  | 28, 0x12C => x.state + 16 * b2n x.inbound + 256 * x.ver
  | 28, 0x130 => x.code % 65536 + 65536 * b2n x.sentAb
  | 28, 0x134 => wordOf x.grains 0
  | 28, 0x138 => wordOf x.grains 1
  | 28, 0x13C => wordOf x.datas 0
  | 28, 0x140 => wordOf x.datas 1
  | 28, 0x144 => wordOf x.bytes 0
  | 28, 0x148 => wordOf x.bytes 1
  | 28, 0x14C => agetD s.rpl.cntLen (s.rf R.RPL.SEL.SESSION) 0
  | _, _ => w

/-- Words of CCL: the source in IRQ_SEL (R603, R610). -/
def State.cclView (s : State) (off w : Nat) : Nat :=
  match off with
  | 0x184 => agetD s.irq.cfg (s.rf R.CCL.IRQ_SEL.SOURCE) 0
  | 0x188 => sumL ((s.irq.asserted.filter (fun i => i / 32 == 0)).map (fun i => 2 ^ (i % 32)))
  | 0x18C => sumL ((s.irq.asserted.filter (fun i => i / 32 == 1)).map (fun i => 2 ^ (i % 32)))
  | 0x190 => sumL ((s.irq.asserted.filter (fun i => i / 32 == 2)).map (fun i => 2 ^ (i % 32)))
  | 0x194 => sumL ((s.irq.asserted.filter (fun i => i / 32 == 3)).map (fun i => 2 ^ (i % 32)))
  | 0x1B8 => s.ccl.drops
  | _ => w

/-- A block word of a live page. -/
def State.blockView (s : State) (page off : Nat) : Nat :=
  let w := (s.word (page * 4096 + off)).toNat
  if page ≤ 5 then s.svcView page off w
  else if page ≤ 15 then s.ioView page off w
  else if page ≤ 22 then s.mediaView page off w
  else if page ≤ 26 then s.jlkView page off w
  else if page ≤ 28 then s.linkView page off w
  else if page = 32 then s.cclView off w
  else w

/-- A core-local word (Table 15-3). -/
def State.localView (s : State) (key : Nat) : Nat :=
  match key % 4096 with
  | 0x008 => wordOf s.tbs.phys 0
  | 0x00C => wordOf s.tbs.phys 1
  | _ => (s.word key).toNat

/-- What a 32-bit read of a word shows, without the effects of the access (R13, R17, R670, R681). -/
def State.view (s : State) (key : Nat) : Nat :=
  if localBase ≤ key then s.localView key &&& readMask key
  else if fusedOff s.fuses.variant (key / 4096) then fusedView (key / 4096) (key % 4096)
  else (if key % 4096 < 256 then s.hdrView (key / 4096) (key % 4096) else s.blockView (key / 4096) (key % 4096)) &&& readMask key

end Sys2Proof.Machine
end

