-- ==== Sys2Proof/Machine/ControlSpace.lean ====
section
/-! DEFINITION. Accesses to the control space and the core-local pages: access codes, captures and shadows, and what writes of command registers start (R13 to R23, R667 to R685). -/
namespace Sys2Proof.Machine

/-! ## Access codes (R13 to R17) -/

/-- Write one row's part of k words from a key on, by its access code. -/
def putRow (locked : Bool) (key k v : Nat) (r : FRow) (s : State) : State :=
  match partOf r (key % 4096) k with
  | none => s
  | some (lo, w) =>
    let f : Sys2Proof.Fld := ⟨key, lo, w⟩
    let x := fld v lo w
    match r.acc with
    | .rw => s.wf f x
    | .rwl => if locked then s else s.wf f x
    | .w1c => s.wf f (s.rf f - (s.rf f &&& x))
    | .w1s => s.wf f (s.rf f ||| x)
    | .ro | .wo => s

/-- Write k words from a key on, each field by its access code. -/
def State.putRows (s : State) (locked : Bool) (key k v : Nat) : State := (rowsAt key).foldl (fun t r => putRow locked key k v r t) s

/-! ## Registers whose writes do more -/

/-- Header registers (R644 to R646, R675 to R680). -/
def State.hdrCommit (s : State) (page off k v : Nat) : State :=
  let locked := s.flag (R.HDR.CTL.LOCK page)
  match off with
  | 0x008 => s.ctlCommit page v
  | 0x010 => s.errStatWrite page v
  | 0x014 => s.errMaskWrite page v
  | 0x018 => if locked then s else s.errClassWrite page v
  | 0x020 => (s.errInj page v).fenceSync
  | _ => s.putRows locked (page * 4096 + off) k v

/-- BSV (R57, R613 to R641), FCL (R650), SEC (R549, R565) and TBS (R95). -/
def State.svcCommit (s : State) (env : WriteEnv) (locked : Bool) (page off k v : Nat) : State :=
  let op := v % 16
  match page, off with
  | 1, 0x104 => s.modeCmd (v % 256) env.found
  | 1, 0x12C => if op = 1 then s.bootOk else if op = 2 then s.confirm env.badFuse else if op = 3 then s.revert else s.updResult 1
  | 1, 0x154 => if op = 1 then s.flCmdRead else if op = 2 then s.cabAppend else if op = 3 then s.cabFind else s.flResult 1
  | 2, 0x100 => s.faultClear v
  | 2, 0x104 => s.faultClear (v * 4294967296)
  | 4, 0x10C => s.keyCmd op (fld v 4 1) (fld v 5 13)
  | 4, 0x134 => s.signCmd op (fld v 4 2)
  | 5, 0x150 => if bit v 0 then s.calSet else s
  | _, _ => s.putRows locked (page * 4096 + off) k v

/-- Move firmware's read position of the violation log (R167, R168). -/
def State.vlogRd (s : State) (v : Nat) : State :=
  let s := s.wf R.NVT.VLOG_RD.INDEX v
  { s with io := { s.io with vpend := (s.rf R.NVT.VLOG_WR.INDEX + 4096 - s.rf R.NVT.VLOG_RD.INDEX) % 4096 } }

/-- Move firmware's read position of the selected slice's written-grain log (R198). -/
def State.wglRd (s : State) (v : Nat) : State :=
  s.updDyn (s.rf R.SLM.SEL.INDEX) (fun d => { d with wglRd := v % 16777216, wgl := d.wgl.map (fun g =>
    { g with pend := (d.wglWr + g.size - v % 16777216 % max 1 g.size) % max 1 g.size }) })

/-- HFX (R137), NVT (R166), SLM (R173), ING (R221), DGE and CPH (R546). -/
def State.ioCommit (s : State) (locked : Bool) (page off k v : Nat) : State :=
  let s0 := s.putRows locked (page * 4096 + off) k v
  if page ≤ 9 then (if 0x100 ≤ off ∧ off < 0x110 then (s.portCfgWrite (4 * (page - 6) + (off - 0x100) / 4) v).settle else s0)
  else
    match page, off with
    | 10, 0x110 => if bit v 16 then { s0 with io := { s0.io with vcnt := adel s0.io.vcnt s0.vcntKey } } else s0
    | 10, 0x128 => s.vlogRd v
    | 11, 0x100 => (s.slmCmd (v % 16) (fld v 4 20)).settle
    | 11, 0x148 => s.wglRd v
    | 12, 0x108 => { s with ing := { s.ing with dom := aset s.ing.dom (s.rf R.ING.DOM_SEL.DOMAIN) (fld v 0 12 + 2147483648 * fld v 31 1) } }
    | 13, 0x114 => s.dgePost (v % 65536)
    | 15, 0x11C => s.cphPost (v % 65536)
    | _, _ => s0

/-- SGB (R373), RBE (R375), MPE (R277) and MPC (R294 to R296). -/
def State.mediaCommit (s : State) (env : WriteEnv) (locked : Bool) (page off k v : Nat) : State :=
  match page, off with
  | 16, 0x100 => s.layCmd (v % 16) (fld v 4 2) (fld v 6 6) env.peer
  | 17, 0x120 => s.lostRd v
  | 19, 0x128 => s.snapCmd (v % 4) (fld v 2 16)
  | 20, 0x100 => if v % 16 = 1 then s.mpcInvalidate else if v % 16 = 2 then s.mpcPreload (fld v 4 4) else s
  | 20, 0x110 => s.mpcLockWrite (v % 4096)
  | 20, 0x114 => if bit v 0 then s.mpcEnable else s.mpcDisable
  | _, _ => s.putRows locked (page * 4096 + off) k v

/-- JLK (R449, R455), RPL (R505, R528), HBC and DDC (R44, R49). -/
def State.linkCommit (s : State) (locked : Bool) (page off k v : Nat) : State :=
  if page ≤ 26 ∧ off = 0x110 then s.claimCmd (page - 23) (v % 4) (fld v 2 16)
  else
    match page, off with
    | 28, 0x100 => s.rplCmd (v % 16) (fld v 4 10)
    | 29, 0x110 => if bit v 8 then s.hbcFence (v % 64) else s
    | 30, 0x108 => if bit v 8 then s.ddcFence (v % 16) else s
    | _, _ => s.putRows locked (page * 4096 + off) k v

/-- CCL (R575, R595 to R604). -/
def State.cclCommit (s : State) (locked : Bool) (off k v : Nat) : State :=
  match off with
  | 0x100 => s.coreRunWrite v
  | 0x110 => if bit v 0 then s.l2Enable else s.l2Disable
  | 0x114 => if v % 16 = 1 then s.l2Invalidate else if v % 16 = 2 then s.l2Preload (fld v 4 4) else s
  | 0x124 => s.l2LockWrite v
  | 0x184 =>
    let c := fld v 0 9 + 65536 * fld v 16 11
    { s with irq := { s.irq with cfg := aset s.irq.cfg (s.rf R.CCL.IRQ_SEL.SOURCE) c } }
  | _ => s.putRows locked (32 * 4096 + off) k v

/-- A core-local register (R578, R604, R608, R609), written by core r. -/
def State.localCommit (s : State) (r key k v : Nat) : State :=
  let c := (key - localBase) / 4096
  match key % 4096 with
  | 0x000 => (s.putRows false key k v).timerSet c
  | 0x024 => s.irqComplete r 0 (v % 128)
  | 0x02C => s.irqComplete r 1 (v % 128)
  | _ => s.putRows false key k v

/-- A write of k words that takes effect: 1 for one word, 2 for both halves of a 64-bit register (R13, R21, R22). -/
def State.commit (s : State) (env : WriteEnv) (r key k v : Nat) : State :=
  let page := key / 4096
  let off := key % 4096
  let locked := s.flag (R.HDR.CTL.LOCK page)
  if localBase ≤ key then s.localCommit r key k v
  else if off < 256 then s.hdrCommit page off k v
  else if page ≤ 5 then s.svcCommit env locked page off k v
  else if page ≤ 15 then s.ioCommit locked page off k v
  else if page ≤ 20 then s.mediaCommit env locked page off k v
  else if page = 32 then s.cclCommit locked off k v
  else if page = 21 ∨ page = 22 ∨ page = 27 ∨ page = 31 then s.putRows locked key k v
  else s.linkCommit locked page off k v

/-! ## 64-bit registers (R20 to R22, R683) -/

/-- Where a page keeps a requester's capture and shadow. -/
def capKey (r key : Nat) : Nat := r * 64 + (if localBase ≤ key then 33 + (key - localBase) / 4096 else key / 4096)

/-- A 64-bit register that holds the upper half of a write in a shadow: one with RW or RWL fields (R21). -/
def shadowed (base : Nat) : Bool := (rowsAt base).any (fun r => r.w == 64 && r.off == base % 4096 && (r.acc == .rw || r.acc == .rwl))

/-- An access to a 64-bit register discards the requester's unused capture and shadow of another one of the page (R683). -/
def State.dropOther (s : State) (r base : Nat) : State :=
  let k := capKey r base
  let s := match aget s.caps k with | some (b, _) => if b = base then s else { s with caps := adel s.caps k } | none => s
  match aget s.shadows k with
  | some (b, _) => if b = base then s else { s with shadows := adel s.shadows k }
  | none => s

/-- A 32-bit read of a live page (R13, R20): the value and the state after it. -/
def State.read32 (s : State) (r key : Nat) : Nat × State :=
  if localBase ≤ key ∧ (key % 4096 = 0x024 ∨ key % 4096 = 0x02C) then s.irqClaim r (if key % 4096 = 0x024 then 0 else 1)
  else
    match reg64 key with
    | none => (s.view key, s)
    | some (base, false) =>
      let s := s.dropOther r base
      (s.view key, { s with caps := aset s.caps (capKey r base) (base, BitVec.ofNat 32 (s.view (base + 4))) })
    | some (base, true) =>
      let s := s.dropOther r base
      match aget s.caps (capKey r base) with
      | some (_, u) => (u.toNat, { s with caps := adel s.caps (capKey r base) })
      | none => (s.view key, s)

/-- A 32-bit write of a live page (R13, R21). A write of the lower half while no upper half is held commits the register's current upper
half (DESIGN CHOICE, log 109: R21 does not say which). -/
def State.write32 (s : State) (env : WriteEnv) (r key v : Nat) : State :=
  match reg64 key with
  | none => s.commit env r key 1 v
  | some (base, upper) =>
    let s := s.dropOther r base
    if !shadowed base then s.commit env r key 1 v
    else if upper then { s with shadows := aset s.shadows (capKey r base) (base, BitVec.ofNat 32 v) }
    else
      let hi := match aget s.shadows (capKey r base) with | some (_, u) => u.toNat | none => s.view (base + 4)
      State.commit { s with shadows := adel s.shadows (capKey r base) } env r base 2 (v % 4294967296 + 4294967296 * hi)

/-- An aligned 64-bit access of the Annex port (R22): one 64-bit register at once, else the two words in turn. The access reads both halves,
so a capture of the same register that the port has not used is dropped (DESIGN CHOICE, log 109: R22 and R683 name none). -/
def State.read64 (s : State) (r key : Nat) : Nat × State :=
  if reg64 key = some (key, false) then
    let s := s.dropOther r key
    (s.view key + 4294967296 * s.view (key + 4), { s with caps := adel s.caps (capKey r key) })
  else
    let a := s.read32 r key
    let b := a.2.read32 r (key + 4)
    (a.1 + 4294967296 * b.1, b.2)

/-- The write of an aligned 64-bit access (R22). It commits both halves, so an upper half of the same register that the port holds in a shadow
is dropped (DESIGN CHOICE, log 109: R22 and R683 name none). -/
def State.write64 (s : State) (env : WriteEnv) (r key v : Nat) : State :=
  if reg64 key = some (key, false) then
    let s := s.dropOther r key
    State.commit { s with shadows := adel s.shadows (capKey r key) } env r key 2 v
  else (s.write32 env r key (v % 4294967296)).write32 env r (key + 4) (v / 4294967296)

/-! ## The access (R19, R23, R580, R667 to R672, R681) -/

/-- Address of a key as its requester names it: a core's physical address (Table 15-1), the Annex port's BAR0 offset (R671). -/
def physOf (r key : Nat) : Nat :=
  if r = 24 then key else if localBase ≤ key then 0x02000000 + (key - localBase) else 0x40000000 + key

/-- A read completes with a value. -/
def State.answerRead (s : State) (r key v : Nat) : State := s.emit (.readData r (physOf r key) v)

/-- An access to an unassigned page, or to one hidden from the Annex port (R669, R672). -/
def State.unassigned (s : State) (r key : Nat) (isWrite : Bool) : State :=
  if r = 24 then ((if isWrite then s else s.answerRead r key 0)).raise Pg.ANX 0
  else (s.emit (.accessFault r (physOf r key))).raise Pg.CCL 7

/-- A misaligned or narrow access (R23): nothing written, 0 read, and the page's access error; a core-local page reports it in CCL. A
misaligned 64-bit access of the Annex port and one of 5 to 7 bytes are handled in the same way (DESIGN CHOICE, log 109: R23 names misaligned
32-bit and narrower accesses). -/
def State.badAccess (s : State) (r key : Nat) (isWrite : Bool) : State :=
  let page := if localBase ≤ key then Pg.CCL else key / 4096
  ((if isWrite then s else s.answerRead r key 0)).raise page (accessErrBit (blockOf page))

/-- Serve an access of 4 or 8 aligned bytes at a live page. -/
def State.serveAccess (s : State) (env : WriteEnv) (r key size : Nat) (wr : Option Nat) : State :=
  match wr with
  | some v => if size = 8 then s.write64 env r key v else s.write32 env r key (v % 4294967296)
  | none =>
    let x := if size = 8 then s.read64 r key else s.read32 r key
    x.2.answerRead r key x.1

/-- An access by a requester (0 to 23 cores, 24 the Annex port) of `size` bytes at a key; `wr` is the value of a write. A core that does
not run makes none, and the Annex port does not reach core-local pages (R608). -/
def State.csAccess (s : State) (env : WriteEnv) (r key size : Nat) (wr : Option Nat) : State :=
  let page := key / 4096
  let ok := decide (size = 4 ∨ (size = 8 ∧ r = 24)) && decide (key % size = 0)
  if r < 24 ∧ s.coreRuns r = false then s
  else if r < 24 ∧ 4 < size then s.emit (.accessFault r (physOf r key))
  else if localBase ≤ key then
    if r = 24 then s else if ok then s.serveAccess env r key size wr else s.badAccess r key wr.isSome
  else if blockOf page = 0 ∨ (r = 24 ∧ 1 ≤ page ∧ page ≤ 4 ∧ s.flag R.ANX.CS_CFG.SVC_HIDE = true) then s.unassigned r key wr.isSome
  else if r = 24 ∧ wr.isSome = true ∧ s.flag R.ANX.CS_CFG.WR_EN = false then (s.inc R.ANX.CNT_CS_DROP.COUNT).raise Pg.ANX 1
  else if fusedOff s.fuses.variant page then
    (if wr.isSome then s
     else s.answerRead r key (if ok then s.view key + (if size = 8 then 4294967296 * s.view (key + 4) else 0) else 0))
  else if ok then s.serveAccess env r key size wr
  else s.badAccess r key wr.isSome

/-! ## The commands -/

/-- REGISTER_WRITE (R13): a 32-bit write by a requester. -/
def execRegisterWrite (r : Requester) (key : Fin 67207168) (v : BitVec 32) (env : WriteEnv) (s : State) : Host.Outcome State Fault Refusal :=
  .next (s.csAccess env r.val key.val 4 (some v.toNat))

/-- READ_CAPTURE_64 (R20): a 32-bit read; at the lower offset of a 64-bit register it captures the upper half. -/
def execReadCapture64 (r : Requester) (key : Fin 67207168) (s : State) : Host.Outcome State Fault Refusal :=
  .next (s.csAccess {} r.val key.val 4 none)

/-- WRITE_UPPER_SHADOW (R21): a 32-bit write at the upper offset of a 64-bit register. -/
def execWriteUpperShadow (r : Requester) (key : Fin 67207168) (v : BitVec 32) (s : State) : Host.Outcome State Fault Refusal :=
  .next (s.csAccess {} r.val key.val 4 (some v.toNat))

/-- WRITE_LOWER_COMMIT (R21): a 32-bit write at the lower offset of a 64-bit register. -/
def execWriteLowerCommit (r : Requester) (key : Fin 67207168) (v : BitVec 32) (s : State) : Host.Outcome State Fault Refusal :=
  .next (s.csAccess {} r.val key.val 4 (some v.toNat))

/-- ANNEX_64BIT_ACCESS (R22): a read, or a write of a value. -/
def execAnnex64bitAccess (key : Fin 67207168) (wr : Option (BitVec 64)) (env : WriteEnv) (s : State) : Host.Outcome State Fault Refusal :=
  .next (s.csAccess env 24 key.val 8 (wr.map (fun v => v.toNat)))

/-- MISALIGNED_ACCESS (R23, R580): an access of up to 8 bytes at any byte. One that is not an aligned access of 4 bytes, nor for the Annex of 8, is
R23's access error, one of no bytes with it (DESIGN CHOICE, log 103). -/
def execMisalignedAccess (r : Requester) (key : Fin 67207168) (size : Fin 9) (wr : Option (BitVec 64)) (s : State) : Host.Outcome State Fault Refusal :=
  .next (s.csAccess {} r.val key.val size.val (wr.map (fun v => v.toNat)))

/-- UNASSIGNED_PAGE_ACCESS (R669, R672). -/
def execUnassignedPageAccess (r : Requester) (key : Fin 67207168) (wr : Option (BitVec 32)) (s : State) : Host.Outcome State Fault Refusal :=
  .next (s.csAccess {} r.val key.val 4 (wr.map (fun v => v.toNat)))

end Sys2Proof.Machine
end

