-- ==== Sys2Proof/Machine/Tables.lean ====
section
/-! DEFINITION. The tables the device keeps in DRAM, as the bytes a read of DRAM finds there (R10, R47, R251, R260, R335, R373, R383). -/
namespace Sys2Proof.Machine

/-- A block table entry (Table 10-4). -/
def blkBytes (b : Blk) : Bytes :=
  le (b.qlcE + b.slcE * 2 ^ 16 + b.reads * 2 ^ 32 + b.state * 2 ^ 56 + b.rr * 2 ^ 59) 8

/-- The descriptor of a pool (Table 9-1); zeros where the pool does not exist. -/
def State.descBytes (s : State) (p : Nat) : Bytes :=
  match aget s.maps.pools p with
  | some x => layoutBytes p x
  | none => zeros 256

/-- An offset lies in a table of some bytes at a base. A base of 0 places no table (log 97). -/
def inTable (base size o : Nat) : Bool := base != 0 && decide (base ≤ o) && decide (o < base + size)

/-- The table entry that holds a DRAM offset: where it begins, and its bytes. -/
def State.tableEntry (s : State) (o : Nat) : Option (Nat × Bytes) :=
  let ct := s.rf R.MPE.CT_BASE.ADDR
  let sg := s.rf R.SGB.SEGTAB_BASE.ADDR
  let ds := s.rf R.SGB.DESC_BASE.ADDR
  let pt := s.rf R.FMM.PT_BASE.ADDR
  let bt := s.rf R.FMM.BT_BASE.ADDR
  if inTable ct (2 ^ s.rf R.MPE.CT_BITS.BITS * 512) o then
    let i := (o - ct) / 16
    some (ct + i * 16, le (ctEnc (s.ctRec i)) 16)
  else if inTable sg (2 ^ 25 * 64) o then
    let i := (o - sg) / 64
    some (sg + i * 64, segBytes (s.seg i))
  else if inTable ds 1024 o then
    let i := (o - ds) / 256
    some (ds + i * 256, s.descBytes i)
  else if inTable pt (2 ^ 37) o then
    let i := (o - pt) / 4
    some (pt + i * 4, le (agetD s.fmm.pt i 0) 4)
  else if inTable bt (2 ^ 28) o then
    let i := (o - bt) / 8
    some (bt + i * 8, blkBytes (agetD s.fmm.bt i {}))
  else
    (s.maps.pages.find? (fun p => decide (Config.lpnFrame p.1 * 4096 ≤ o ∧ o < Config.lpnFrame p.1 * 4096 + 4096))).map
      (fun p => (Config.lpnFrame p.1 * 4096, mapPageBytes p.2))

/-- The byte a read of an address finds: one of a table the device keeps in DRAM, or what was last written there. -/
def State.physByte (s : State) (a : Nat) : Byte :=
  match (if dramBase ≤ a then s.tableEntry (a - dramBase) else none) with
  | some (b, l) => l.getD (a - dramBase - b) 0#8
  | none => (s.load a 1).getD 0 0#8

/-- Read k bytes, tables included. -/
def State.physBytes (s : State) (a k : Nat) : Bytes := (List.range k).map (fun i => s.physByte (a + i))

end Sys2Proof.Machine
end

