-- ==== Sys2Proof/Machine/CoreAccess.lean ====
section
/-! DEFINITION. Accesses of the cores and of the MPE walker port to physical memory: regions, L1 caches and the stride prefetcher (R574, R579 to R588, R592, R595). -/
namespace Sys2Proof.Machine

/-! ## The stride prefetcher (R586, R587) -/

/-- What an access at an address makes of a stream entry. -/
def streamNext (e : Stream) (addr : Nat) : Stream :=
  let st : Int := (addr : Int) - (e.last : Int)
  if st = e.stride ∧ st ≠ 0 ∧ st.natAbs ≤ 2048 then { e with last := addr, cnt := min 3 (e.cnt + 1) }
  else { e with last := addr, stride := st, cnt := 0 }

/-- Train the entry of an instruction, taking the least recently used one for a new instruction: the streams after it, and the entry. -/
def streamTrain (l : List Stream) (pc addr : Nat) : List Stream × Stream :=
  let idx := pc / 2 % 4096
  match l.find? (fun e => e.idx == idx) with
  | some e => (l.filter (fun x => x.idx != idx) ++ [streamNext e addr], streamNext e addr)
  | none =>
    let e : Stream := { idx := idx, last := addr }
    ((if 16 ≤ l.length then l.drop 1 else l) ++ [e], e)

/-- The lines a trained entry asks for: those within the access's 4 KiB page and a cacheable region. -/
def State.streamLines (s : State) (e : Stream) (addr : Nat) : List Nat :=
  if e.cnt < 3 then []
  else
    ((List.range (s.rf R.CCL.PF_CFG.DEPTH)).map (fun k => (addr : Int) + ((k + 1 : Nat) : Int) * e.stride)).filterMap (fun t =>
      if 0 ≤ t ∧ t.toNat / 4096 = addr / 4096 ∧ s.cacheable t.toNat = true then some (t.toNat / 64) else none)

/-- Train and prefetch for a data access while L2 is ON and the prefetcher enabled (R586 to R588, R594). -/
def State.prefetch (s : State) (c pc addr : Nat) (store : Bool) : State :=
  if s.flag R.CCL.PF_CFG.L1_EN then
    let x := streamTrain (s.core c).streams pc addr
    let s := s.updCore c (fun k => { k with streams := x.1 })
    (s.streamLines x.2 addr).foldl (fun s l => s.l2Prefetch c l store) s
  else s

/-! ## Memory -/

/-- Bytes a core access covers. -/
def accLen : CoreAcc → Nat
  | .load n | .lr n | .fetch n _ | .walk n => n
  | .store d | .sc d | .amo d => d.length

/-- The access may write. -/
def accWrites : CoreAcc → Bool
  | .store _ | .sc _ | .amo _ => true
  | _ => false

/-- The access returns data. -/
def accReads : CoreAcc → Bool
  | .load _ | .lr _ | .fetch _ _ | .walk _ | .amo _ => true
  | _ => false

/-- Atomics are supported in cacheable memory only (R574). -/
def accAtomic : CoreAcc → Bool
  | .lr _ | .sc _ | .amo _ => true
  | _ => false

/-- Bytes of memory or of the boot ROM at a physical address. -/
def State.physLoad (s : State) (a n : Nat) : Bytes :=
  if a < 65536 then (List.range n).map (fun i => Config.romByte (a + i)) else s.physBytes a n

/-- What an access does to memory and what it returns: a store-conditional writes only under the core's reservation and returns 0 or 1,
and an LR reserves its line (R574). -/
def State.memAct (s : State) (c a : Nat) (acc : CoreAcc) : Option Nat × State :=
  let v := leVal (s.physLoad a (accLen acc))
  match acc with
  | .load _ | .fetch _ _ | .walk _ => (some v, s)
  | .lr _ => (some v, s.updCore c (fun k => { k with resv := some (a / 64) }))
  | .store d => (none, s.store a d)
  | .amo d => (some v, s.store a d)
  | .sc d =>
    let hit := (s.core c).resv = some (a / 64)
    let s := if hit then s.store a d else s
    (some (if hit then 0 else 1), s.updCore c (fun k => { k with resv := none }))

/-- An access that no cache serves (R580, R584, R595): at once from memory. While L2 drains, a write takes the line out of L2, which
writes it back first if it is dirty (R598). -/
def State.bypass (s : State) (c a : Nat) (acc : CoreAcc) : State :=
  let x := s.memAct c a acc
  let s := x.2
  let line := a / 64
  let s := if accWrites acc ∧ s.l2State = 2 ∧ s.l2Has line = true then
      let d := s.ccl.l2.any (fun y => y.line == line && y.dirty)
      { s with ccl := { s.ccl with l2 := s.ccl.l2.filter (fun y => y.line != line), drained := s.ccl.drained + b2n d } }
    else s
  match x.1 with
  | some v => s.emit (.readData c a v)
  | none => s

/-- A data access to cacheable memory while L2 is ON: the L1 data cache, then L2 (R583, R586 to R593). -/
def State.cachedData (s : State) (c pc a : Nat) (acc : CoreAcc) : State :=
  let x := s.memAct c a acc
  let s := x.2
  let line := a / 64
  let w := accWrites acc
  let s :=
    if (s.core c).l1d.any (fun y => y.1 == line) then
      let s := ((if w then s.l1Drop line c true else s).l1dInsert c line w)
      match x.1 with
      | some v => s.emit (.readData c a v)
      | none => s
    else s.l2Demand { who := c, addr := a, store := w, l1 := 1, val := x.1 }
  s.prefetch c pc a w

/-- An instruction fetch from cacheable memory while L2 is ON; the fetch that follows a trap is privileged (R583, R592). -/
def State.cachedFetch (s : State) (c a n : Nat) (trap : Bool) : State :=
  let v := leVal (s.physLoad a n)
  if (s.core c).l1i.contains (a / 64) then (s.l1iInsert c (a / 64)).emit (.readData c a v)
  else s.l2Demand { who := c, addr := a, priv := trap, l1 := 2, val := some v }

/-- A core access to memory whose region is known. -/
def State.coreMem (s : State) (c pc a : Nat) (acc : CoreAcc) (cached : Bool) : State :=
  if cached = false ∧ accAtomic acc = true then s.emit (.accessFault c a)
  else if accReads acc = true ∧ s.readable a (accLen acc) = false then s.emit (.accessFault c a)
  else if cached = false ∨ s.l2State ≠ 1 then s.bypass c a acc
  else
    match acc with
    | .fetch n trap => s.cachedFetch c a n trap
    | _ => s.cachedData c pc a acc

/-- The walker port reads a line of a table, privileged (R592). -/
def State.walkRead (s : State) (a n : Nat) : State :=
  let v := leVal (s.physBytes a n)
  if s.l2State = 1 ∧ s.cacheable a = true then s.l2Demand { who := 24, addr := a, priv := true, val := some v }
  else s.emit (.readData 24 a v)

/-- A core access to a device page: 32 bits or less, no fetch and no atomic (R574, R580). -/
def State.coreDevice (s : State) (env : WriteEnv) (c key a : Nat) (acc : CoreAcc) : State :=
  match acc with
  | .load n => s.csAccess env c key n none
  | .store d => s.csAccess env c key d.length (some (leVal d))
  | _ => s.emit (.accessFault c a)

/-- An access of a core at a physical address, by the regions of Table 15-1 (R579). -/
def State.coreAccess (s : State) (env : WriteEnv) (c pc a : Nat) (acc : CoreAcc) : State :=
  let n := accLen acc
  if a + n ≤ 65536 then (if accWrites acc then s.emit (.accessFault c a) else s.coreMem c pc a acc true)
  else if 0x02000000 ≤ a ∧ a + n ≤ 0x02018000 then s.coreDevice env c (localBase + (a - 0x02000000)) a acc
  else if 0x40000000 ≤ a ∧ a + n ≤ 0x44000000 then s.coreDevice env c (a - 0x40000000) a acc
  else if hbmBase ≤ a ∧ a + n ≤ hbmBase + 51539607552 then
    if s.inFw (a - hbmBase) n then s.coreMem c pc a acc true
    else if s.mode = .service then s.coreMem c pc a acc false
    else s.emit (.accessFault c a)
  else if dramBase ≤ a ∧ a + n ≤ dramBase + s.dramBytes then s.coreMem c pc a acc (s.inWindow (a - dramBase))
  else (s.emit (.accessFault c a)).raise Pg.CCL 7

/-- CORE_DATA_ACCESS (R579 to R594): an access of a core that runs, by the instruction at pc, or of the walker port. -/
def execCoreDataAccess (core : Fin 24) (pc addr : Nat) (acc : CoreAcc) (env : WriteEnv) (s : State) : Host.Outcome State Fault Refusal :=
  match acc with
  | .walk n => .next (s.walkRead addr n)
  | _ =>
    .next (if s.coreRuns core.val then s.coreAccess env core.val pc addr acc else s)

end Sys2Proof.Machine
end

