-- ==== Sys2Proof/Machine/Dispatch.lean ====
section
/-! DEFINITION. The effect of each command on everything but the queue: one arm per constructor, one call per arm. -/
namespace Sys2Proof.Machine

/-- What a command does to the head (R13 to R716; each arm calls the meaning of its row). -/
def exec (i : Instr) (s : State) : Host.Outcome State Fault Refusal :=
  match i with
  | .registerWrite r key v env => Sys2Proof.Machine.execRegisterWrite r key v env s
  | .readCapture64 r key => Sys2Proof.Machine.execReadCapture64 r key s
  | .writeUpperShadow r key v => Sys2Proof.Machine.execWriteUpperShadow r key v s
  | .writeLowerCommit r key v => Sys2Proof.Machine.execWriteLowerCommit r key v s
  | .annex64bitAccess key wr env => Sys2Proof.Machine.execAnnex64bitAccess key wr env s
  | .misalignedAccess r key size wr => Sys2Proof.Machine.execMisalignedAccess r key size wr s
  | .unassignedPageAccess r key wr => Sys2Proof.Machine.execUnassignedPageAccess r key wr s
  | .hbcFence pc => Sys2Proof.Machine.execHbcFence pc s
  | .ddcFence ch => Sys2Proof.Machine.execDdcFence ch s
  | .ddrChannelLoss ch => Sys2Proof.Machine.execDdrChannelLoss ch s
  | .ddcScrub line finding hit => Sys2Proof.Machine.execDdcScrub line finding hit s
  | .ceWindowEnd => Sys2Proof.Machine.execCeWindowEnd s
  | .autoJoin => Sys2Proof.Machine.execAutoJoin s
  | .hbmRefreshDouble stack temp => Sys2Proof.Machine.execHbmRefreshDouble stack temp s
  | .hbmRefreshNormal stack temp => Sys2Proof.Machine.execHbmRefreshNormal stack temp s
  | .join => Sys2Proof.Machine.execJoin s
  | .serveSolo found => Sys2Proof.Machine.execServeSolo found s
  | .handover => Sys2Proof.Machine.execHandover s
  | .stop => Sys2Proof.Machine.execStop s
  | .enterService => Sys2Proof.Machine.execEnterService s
  | .partnerLoss => Sys2Proof.Machine.execPartnerLoss s
  | .quorumReached resync => Sys2Proof.Machine.execQuorumReached resync s
  | .quorumTimeout => Sys2Proof.Machine.execQuorumTimeout s
  | .handoverDrainComplete => Sys2Proof.Machine.execHandoverDrainComplete s
  | .pwrFailFall lowNs => Sys2Proof.Machine.execPwrFailFall lowNs s
  | .pwrFailRise => Sys2Proof.Machine.execPwrFailRise s
  | .gondolaSeal => Sys2Proof.Machine.execGondolaSeal s
  | .gondolaAbandon => Sys2Proof.Machine.execGondolaAbandon s
  | .vaultExit bad => Sys2Proof.Machine.execVaultExit bad s
  | .resetAssert lowNs => Sys2Proof.Machine.execResetAssert lowNs s
  | .resetRelease bad => Sys2Proof.Machine.execResetRelease bad s
  | .bootComplete badPc badCh gon => Sys2Proof.Machine.execBootComplete badPc badCh gon s
  | .ceilingWrite => Sys2Proof.Machine.execCeilingWrite s
  | .ceilingWriteDone => Sys2Proof.Machine.execCeilingWriteDone s
  | .ceilingStall => Sys2Proof.Machine.execCeilingStall s
  | .calSet => Sys2Proof.Machine.execCalSet s
  | .rtcHourlyUpdate => Sys2Proof.Machine.execRtcHourlyUpdate s
  | .logicalOvfResume unit => Sys2Proof.Machine.execLogicalOvfResume unit s
  | .tetherExchangeStart => Sys2Proof.Machine.execTetherExchangeStart s
  | .tetherReq ex lag => Sys2Proof.Machine.execTetherReq ex lag s
  | .tetherRsp ex t2 t3 => Sys2Proof.Machine.execTetherRsp ex t2 t3 s
  | .tetherExchangeLost ex => Sys2Proof.Machine.execTetherExchangeLost ex s
  | .tetherLockLoss => Sys2Proof.Machine.execTetherLockLoss s
  | .commitWaitPass op => Sys2Proof.Machine.execCommitWaitPass op s
  | .groupStamp op => Sys2Proof.Machine.execGroupStamp op s
  | .lanePageFlush lane => Sys2Proof.Machine.execLanePageFlush lane s
  | .lanePageDurable lane => Sys2Proof.Machine.execLanePageDurable lane s
  | .laneHorizonAdvance lane => Sys2Proof.Machine.execLaneHorizonAdvance lane s
  | .partnerGroupApply ostamp geo lay dir => Sys2Proof.Machine.execPartnerGroupApply ostamp geo lay s dir
  | .portCfgWrite port v => Sys2Proof.Machine.execPortCfgWrite port v s
  | .portLinkUp port k => Sys2Proof.Machine.execPortLinkUp port k s
  | .portLinkDown port k => Sys2Proof.Machine.execPortLinkDown port k s
  | .ecnMarkedPacket q => Sys2Proof.Machine.execEcnMarkedPacket q s
  | .cnpReceived q => Sys2Proof.Machine.execCnpReceived q s
  | .rateRegain q => Sys2Proof.Machine.execRateRegain q s
  | .icreq q lport hd dd port => Sys2Proof.Machine.execIcreq q lport hd dd s port
  | .fabricsConnect q qid size cntlid kato hostId hostNqn subNqn => Sys2Proof.Machine.execFabricsConnect q qid size cntlid kato hostId hostNqn subNqn s
  | .readCmd q c => Sys2Proof.Machine.execReadCmd q c s
  | .writeCmd q c => Sys2Proof.Machine.execWriteCmd q c s
  | .flushCmd q c => Sys2Proof.Machine.execFlushCmd q c s
  | .writeZeroes q c => Sys2Proof.Machine.execWriteZeroes q c s
  | .datasetManagement q c => Sys2Proof.Machine.execDatasetManagement q c s
  | .copyCmd q c => Sys2Proof.Machine.execCopyCmd q c s
  | .compareCmd q c => Sys2Proof.Machine.execCompareCmd q c s
  | .reservationRegister q c => Sys2Proof.Machine.execReservationRegister q c s
  | .reservationReport q c => Sys2Proof.Machine.execReservationReport q c s
  | .reservationAcquire q c => Sys2Proof.Machine.execReservationAcquire q c s
  | .reservationRelease q c => Sys2Proof.Machine.execReservationRelease q c s
  | .identifyCmd q c => Sys2Proof.Machine.execIdentifyCmd q c s
  | .getLogPage q c => Sys2Proof.Machine.execGetLogPage q c s
  | .getFeatures q c => Sys2Proof.Machine.execGetFeatures q c s
  | .setFeatures q c => Sys2Proof.Machine.execSetFeatures q c s
  | .keepAlive q c => Sys2Proof.Machine.execKeepAlive q c s
  | .abortCmd q c => Sys2Proof.Machine.execAbortCmd q c s
  | .asyncEventRequest q c => Sys2Proof.Machine.execAsyncEventRequest q c s
  | .h2cData q ttag off d last dgst hdgst => Sys2Proof.Machine.execH2cData q ttag off d last dgst s hdgst
  | .rdmaReadResponse q cid off d err => Sys2Proof.Machine.execRdmaReadResponse q cid off d err s
  | .rocePacketOutOfWindow q psn => Sys2Proof.Machine.execRocePacketOutOfWindow q psn s
  | .annexDoorbell q pasid off tail => Sys2Proof.Machine.execAnnexDoorbell q pasid off tail s
  | .annexQueueCreate q pasid qid size => Sys2Proof.Machine.execAnnexQueueCreate q pasid qid size s
  | .annexQueueDelete q => Sys2Proof.Machine.execAnnexQueueDelete q s
  | .keepAliveTimeout cntlid => Sys2Proof.Machine.execKeepAliveTimeout cntlid s
  | .connectionEnd q => Sys2Proof.Machine.execConnectionEnd q s
  | .vcntClear => Sys2Proof.Machine.execVcntClear s
  | .tcpRetransmit q cid off => Sys2Proof.Machine.execTcpRetransmit q cid off s
  | .hostDataAck q cid upto => Sys2Proof.Machine.execHostDataAck q cid upto s
  | .createCmd => Sys2Proof.Machine.execCreateCmd s
  | .reshape h => Sys2Proof.Machine.execReshape h s
  | .quiesce h => Sys2Proof.Machine.execQuiesce h s
  | .resumeCmd h => Sys2Proof.Machine.execResumeCmd h s
  | .resetCmd h => Sys2Proof.Machine.execResetCmd h s
  | .removeCmd h => Sys2Proof.Machine.execRemoveCmd h s
  | .freeze h => Sys2Proof.Machine.execFreeze h s
  | .saveCmd h => Sys2Proof.Machine.execSaveCmd h s
  | .restoreCmd => Sys2Proof.Machine.execRestoreCmd s
  | .wglStart h => Sys2Proof.Machine.execWglStart h s
  | .wglStop h => Sys2Proof.Machine.execWglStop h s
  | .quiesceComplete ix => Sys2Proof.Machine.execQuiesceComplete ix s
  | .resetComplete ix partner => Sys2Proof.Machine.execResetComplete ix s partner
  | .bridleEpoch => Sys2Proof.Machine.execBridleEpoch s
  | .partner1msExchange => Sys2Proof.Machine.execPartner1msExchange s
  | .demand c es => Sys2Proof.Machine.execDemand c es s
  | .meterCnt c final es => Sys2Proof.Machine.execMeterCnt c final es s
  | .meterRec c n b => Sys2Proof.Machine.execMeterRec c n b s
  | .meterAck c seq => Sys2Proof.Machine.execMeterAck c seq s
  | .inflight c h n => Sys2Proof.Machine.execInflight c h n s
  | .minuteClose => Sys2Proof.Machine.execMinuteClose s
  | .meterPublish seq => Sys2Proof.Machine.execMeterPublish seq s
  | .hourlySeal => Sys2Proof.Machine.execHourlySeal s
  | .attributionSweep => Sys2Proof.Machine.execAttributionSweep s
  | .fingerprint op g => Sys2Proof.Machine.execFingerprint op g s
  | .trailerFetchDone op g fp => Sys2Proof.Machine.execTrailerFetchDone op g fp s
  | .compressDone op g blk => Sys2Proof.Machine.execCompressDone op g blk s
  | .grainEncryptDone op g => Sys2Proof.Machine.execGrainEncryptDone op g s
  | .segmentSeal seg => Sys2Proof.Machine.execSegmentSeal seg s
  | .segmentDurable seg => Sys2Proof.Machine.execSegmentDurable seg s
  | .hitExpiry op => Sys2Proof.Machine.execHitExpiry op s
  | .pinRecord cid => Sys2Proof.Machine.execPinRecord cid s
  | .ctFreeIssue cid => Sys2Proof.Machine.execCtFreeIssue cid s
  | .snapCreate ns => Sys2Proof.Machine.execSnapCreate ns s
  | .snapDelete ns => Sys2Proof.Machine.execSnapDelete ns s
  | .pageReq h ns pix => Sys2Proof.Machine.execPageReq h ns pix s
  | .pageRsp h ns pix status ents => Sys2Proof.Machine.execPageRsp h ns pix status ents s
  | .checkpointStart => Sys2Proof.Machine.execCheckpointStart s
  | .checkpointComplete ok => Sys2Proof.Machine.execCheckpointComplete ok s
  | .mpcInvalidate => Sys2Proof.Machine.execMpcInvalidate s
  | .mpcInvalidateDone => Sys2Proof.Machine.execMpcInvalidateDone s
  | .mpcPreload way => Sys2Proof.Machine.execMpcPreload way s
  | .mpcPreloadDone => Sys2Proof.Machine.execMpcPreloadDone s
  | .mpcEnable => Sys2Proof.Machine.execMpcEnable s
  | .mpcDisable => Sys2Proof.Machine.execMpcDisable s
  | .mpcDrainComplete => Sys2Proof.Machine.execMpcDrainComplete s
  | .mpcLockWrite v => Sys2Proof.Machine.execMpcLockWrite v s
  | .mpcHotWindow => Sys2Proof.Machine.execMpcHotWindow s
  | .stagingBufferFree => Sys2Proof.Machine.execStagingBufferFree s
  | .createPool pool peer => Sys2Proof.Machine.execCreatePool pool peer s
  | .layoutReshape pool peer => Sys2Proof.Machine.execLayoutReshape pool peer s
  | .retire pool module => Sys2Proof.Machine.execRetire pool module s
  | .retireGraceExpiry module peerAbsent => Sys2Proof.Machine.execRetireGraceExpiry module peerAbsent s
  | .reshapeComplete pool => Sys2Proof.Machine.execReshapeComplete pool s
  | .segmentOpen seg pool row away => Sys2Proof.Machine.execSegmentOpen seg pool row s away
  | .unitRebuild seg unit got => Sys2Proof.Machine.execUnitRebuild seg unit got s
  | .rebuiltAdvance pool => Sys2Proof.Machine.execRebuiltAdvance pool s
  | .lostGrainWalk => Sys2Proof.Machine.execLostGrainWalk s
  | .foldStart q0 q1 q2 q3 new got => Sys2Proof.Machine.execFoldStart q0 q1 q2 q3 new got s
  | .foldUnitsDurable seg => Sys2Proof.Machine.execFoldUnitsDurable seg s
  | .foldRetireSource seg => Sys2Proof.Machine.execFoldRetireSource seg s
  | .gcStart seg recs => Sys2Proof.Machine.execGcStart seg recs s
  | .gcRelocateCommit seg => Sys2Proof.Machine.execGcRelocateCommit seg s
  | .blockEraseIssue m die block => Sys2Proof.Machine.execBlockEraseIssue m die block s
  | .pageMove m seg got => Sys2Proof.Machine.execPageMove m seg got s
  | .patrolRead m seg tile plane ok => Sys2Proof.Machine.execPatrolRead m seg tile plane ok s
  | .dieRecordWrite m die => Sys2Proof.Machine.execDieRecordWrite m die s
  | .signalDetect sel => Sys2Proof.Machine.execSignalDetect sel s
  | .trainRateTimeout sel => Sys2Proof.Machine.execTrainRateTimeout sel s
  | .laneTrained sel lane => Sys2Proof.Machine.execLaneTrained sel lane s
  | .alignLock sel lanes bad => Sys2Proof.Machine.execAlignLock sel lanes bad s
  | .trainSendTick sel => Sys2Proof.Machine.execTrainSendTick sel s
  | .train sel vers role port lanes rxcred => Sys2Proof.Machine.execTrain sel vers role port lanes rxcred s
  | .retrainEntry sel loss => Sys2Proof.Machine.execRetrainEntry sel loss s
  | .retrainTimeout sel => Sys2Proof.Machine.execRetrainTimeout sel s
  | .signalLost sel => Sys2Proof.Machine.execSignalLost sel s
  | .jonanNak sel h code => Sys2Proof.Machine.execJonanNak sel h code s
  | .jonanIdle sel h => Sys2Proof.Machine.execJonanIdle sel h s
  | .jonanAckTimer sel => Sys2Proof.Machine.execJonanAckTimer sel s
  | .eventCmd pos h code die => Sys2Proof.Machine.execEventCmd pos h code die s
  | .jonanRead m port h tag tgen die addr => Sys2Proof.Machine.execJonanRead m port h tag tgen die addr s
  | .jonanProgram m port h tag tgen die addr page => Sys2Proof.Machine.execJonanProgram m port h tag tgen die addr page s
  | .jonanErase m port h tag tgen die addr => Sys2Proof.Machine.execJonanErase m port h tag tgen die addr s
  | .jonanStatus m port h tag tgen die => Sys2Proof.Machine.execJonanStatus m port h tag tgen die s
  | .paramCmd m port h tag tgen die page => Sys2Proof.Machine.execParamCmd m port h tag tgen die page s
  | .claim m port h tag tgen gen mask => Sys2Proof.Machine.execClaim m port h tag tgen gen mask s
  | .claimRelease m port h tag tgen gen mask => Sys2Proof.Machine.execClaimRelease m port h tag tgen gen mask s
  | .witnessWrite m port h tag tgen data => Sys2Proof.Machine.execWitnessWrite m port h tag tgen data s
  | .witnessRead m port h tag tgen => Sys2Proof.Machine.execWitnessRead m port h tag tgen s
  | .bridgeOpStart m port tag => Sys2Proof.Machine.execBridgeOpStart m port tag s
  | .claimAnswer m => Sys2Proof.Machine.execClaimAnswer m s
  | .jonanRsp pos h tag tgen status info payload cws => Sys2Proof.Machine.execJonanRsp pos h tag tgen status info payload cws s
  | .requestTimeout pos tag => Sys2Proof.Machine.execRequestTimeout pos tag s
  | .jlkClaim inst mask => Sys2Proof.Machine.execJlkClaim inst mask s
  | .jlkRelease inst mask => Sys2Proof.Machine.execJlkRelease inst mask s
  | .witnessTick inst => Sys2Proof.Machine.execWitnessTick inst s
  | .statusPoll pos => Sys2Proof.Machine.execStatusPoll pos s
  | .helloSendTick => Sys2Proof.Machine.execHelloSendTick s
  | .hello h => Sys2Proof.Machine.execHello h s
  | .caridRetrain rekey => Sys2Proof.Machine.execCaridRetrain rekey s
  | .caridNak h code => Sys2Proof.Machine.execCaridNak h code s
  | .caridIdle h => Sys2Proof.Machine.execCaridIdle h s
  | .rekeyTimer => Sys2Proof.Machine.execRekeyTimer s
  | .rekey h nonce xseq => Sys2Proof.Machine.execRekey h nonce xseq s
  | .grain h mtok gcnt gs => Sys2Proof.Machine.execGrain h mtok gcnt gs s
  | .rcpt h es => Sys2Proof.Machine.execRcpt h es s
  | .bind h mtok ostamp => Sys2Proof.Machine.execBind h mtok ostamp s
  | .bindAck h mtok => Sys2Proof.Machine.execBindAck h mtok s
  | .freeCmd h slots => Sys2Proof.Machine.execFreeCmd h slots s
  | .cancelCmd h mtok => Sys2Proof.Machine.execCancelCmd h mtok s
  | .recs h lane rs => Sys2Proof.Machine.execRecs h lane rs s
  | .horizon h ls => Sys2Proof.Machine.execHorizon h ls s
  | .lackTick => Sys2Proof.Machine.execLackTick s
  | .lack h physAt ptSeq applied durable => Sys2Proof.Machine.execLack h physAt ptSeq applied durable s
  | .pt h seq es => Sys2Proof.Machine.execPt h seq es s
  | .hfcHint h es => Sys2Proof.Machine.execHfcHint h es s
  | .heartbeatTick => Sys2Proof.Machine.execHeartbeatTick s
  | .heartbeat h seq _estamp mode flags gen => Sys2Proof.Machine.execHeartbeat h seq _estamp mode flags gen s
  | .splitYield => Sys2Proof.Machine.execSplitYield s
  | .forwardCmd h tok slice f data => Sys2Proof.Machine.execForwardCmd h tok slice f data s
  | .wdata h tok off data => Sys2Proof.Machine.execWdata h tok off data s
  | .rdata h tok off tag data => Sys2Proof.Machine.execRdata h tok off tag data s
  | .done h tok sct sc dnr ostamp => Sys2Proof.Machine.execDone h tok sct sc dnr ostamp s
  | .forwardAbort h tok => Sys2Proof.Machine.execForwardAbort h tok s
  | .movePropose h g p => Sys2Proof.Machine.execMovePropose h g p s
  | .moveAgree h g o => Sys2Proof.Machine.execMoveAgree h g o s
  | .moveComplete g => Sys2Proof.Machine.execMoveComplete g s
  | .moveDone h g o => Sys2Proof.Machine.execMoveDone h g o s
  | .joinReq h limit ctBits minor gib => Sys2Proof.Machine.execJoinReq h limit ctBits minor gib s
  | .joinRsp h reason cut found => Sys2Proof.Machine.execJoinRsp h reason cut found s
  | .joinVersionWaitEnd => Sys2Proof.Machine.execJoinVersionWaitEnd s
  | .joinSwitch => Sys2Proof.Machine.execJoinSwitch s
  | .releaseReq h _head => Sys2Proof.Machine.execReleaseReq h _head s
  | .released h gen => Sys2Proof.Machine.execReleased h gen s
  | .ringCmd h es => Sys2Proof.Machine.execRingCmd h es s
  | .joinDone peer info => Sys2Proof.Machine.execJoinDone peer s info
  | .hoReq h => Sys2Proof.Machine.execHoReq h s
  | .hoAck h => Sys2Proof.Machine.execHoAck h s
  | .claimgen h gen => Sys2Proof.Machine.execClaimgen h gen s
  | .startCmd ix => Sys2Proof.Machine.execStartCmd ix s
  | .rplCancel ix => Sys2Proof.Machine.execRplCancel ix s
  | .sealAck ix => Sys2Proof.Machine.execSealAck ix s
  | .rplSeal ix => Sys2Proof.Machine.execRplSeal ix s
  | .rspConnectAccept lport out port => Sys2Proof.Machine.execRspConnectAccept lport out s port
  | .rspHello ix h vers role array nonce => Sys2Proof.Machine.execRspHello ix h vers role array nonce s
  | .session ix h b => Sys2Proof.Machine.execSession ix h b s
  | .offer ix h batch fps => Sys2Proof.Machine.execOffer ix h batch fps s
  | .want ix h batch final bits => Sys2Proof.Machine.execWant ix h batch final bits s
  | .rspGrain ix h batch gs => Sys2Proof.Machine.execRspGrain ix h batch gs s
  | .extent ix h batch run start vals => Sys2Proof.Machine.execExtent ix h batch run start vals s
  | .rspSeal ix h sid new_ tepoch batches grains => Sys2Proof.Machine.execRspSeal ix h sid new_ tepoch batches grains s
  | .rspAbort ix h code => Sys2Proof.Machine.execRspAbort ix h code s
  | .rspIdleTimeout ix => Sys2Proof.Machine.execRspIdleTimeout ix s
  | .rspConnectionLoss ix => Sys2Proof.Machine.execRspConnectionLoss ix s
  | .diffWalkBatch ix trailers extra => Sys2Proof.Machine.execDiffWalkBatch ix trailers extra s
  | .dgeFwqPost ix => Sys2Proof.Machine.execDgeFwqPost ix s
  | .cphFwqPost ix => Sys2Proof.Machine.execCphFwqPost ix s
  | .sha256 => Sys2Proof.Machine.execSha256 s
  | .hmac => Sys2Proof.Machine.execHmac s
  | .compareDigest => Sys2Proof.Machine.execCompareDigest s
  | .xtsEnc => Sys2Proof.Machine.execXtsEnc s
  | .xtsDec => Sys2Proof.Machine.execXtsDec s
  | .gcmEnc => Sys2Proof.Machine.execGcmEnc s
  | .gcmDec => Sys2Proof.Machine.execGcmDec s
  | .digestComplete r => Sys2Proof.Machine.execDigestComplete r s
  | .cipherComplete r => Sys2Proof.Machine.execCipherComplete r s
  | .chainTimeout r => Sys2Proof.Machine.execChainTimeout r s
  | .cphRequestAged r => Sys2Proof.Machine.execCphRequestAged r s
  | .importCmd eng slot => Sys2Proof.Machine.execImportCmd eng slot s
  | .generate eng slot => Sys2Proof.Machine.execGenerate eng slot s
  | .loadCmd eng slot => Sys2Proof.Machine.execLoadCmd eng slot s
  | .erase eng slot => Sys2Proof.Machine.execErase eng slot s
  | .keyEraseDone => Sys2Proof.Machine.execKeyEraseDone s
  | .quote => Sys2Proof.Machine.execQuote s
  | .pubkey => Sys2Proof.Machine.execPubkey s
  | .measExtend mreg => Sys2Proof.Machine.execMeasExtend mreg s
  | .genIdentity => Sys2Proof.Machine.execGenIdentity s
  | .signatureRelease ok => Sys2Proof.Machine.execSignatureRelease ok s
  | .nodeTablesReady => Sys2Proof.Machine.execNodeTablesReady s
  | .nextTreeBuild => Sys2Proof.Machine.execNextTreeBuild s
  | .alarm src => Sys2Proof.Machine.execAlarm src s
  | .noiseSourceFail n => Sys2Proof.Machine.execNoiseSourceFail n s
  | .coreRunWrite v => Sys2Proof.Machine.execCoreRunWrite v s
  | .stampCsrRead core hi user => Sys2Proof.Machine.execStampCsrRead core hi user s
  | .timerCompareMatch core stime => Sys2Proof.Machine.execTimerCompareMatch core stime s
  | .coreDataAccess core pc addr acc env => Sys2Proof.Machine.execCoreDataAccess core pc addr acc env s
  | .criticalChunk line => Sys2Proof.Machine.execCriticalChunk line s
  | .l2LineFill line => Sys2Proof.Machine.execL2LineFill line s
  | .l2Invalidate => Sys2Proof.Machine.execL2Invalidate s
  | .l2InvalidateDone => Sys2Proof.Machine.execL2InvalidateDone s
  | .l2Preload way => Sys2Proof.Machine.execL2Preload way s
  | .l2PreloadDone => Sys2Proof.Machine.execL2PreloadDone s
  | .l2Enable => Sys2Proof.Machine.execL2Enable s
  | .l2Disable => Sys2Proof.Machine.execL2Disable s
  | .l2DrainComplete => Sys2Proof.Machine.execL2DrainComplete s
  | .l2LockWrite v => Sys2Proof.Machine.execL2LockWrite v s
  | .interruptAssert src => Sys2Proof.Machine.execInterruptAssert src s
  | .interruptClaim core sup by_ => Sys2Proof.Machine.execInterruptClaim core sup by_ s
  | .interruptComplete core sup src => Sys2Proof.Machine.execInterruptComplete core sup src s
  | .softwareInterruptWrite core sup v => Sys2Proof.Machine.execSoftwareInterruptWrite core sup v s
  | .bootOk => Sys2Proof.Machine.execBootOk s
  | .confirm badFuse => Sys2Proof.Machine.execConfirm badFuse s
  | .revert => Sys2Proof.Machine.execRevert s
  | .probationExpiry => Sys2Proof.Machine.execProbationExpiry s
  | .flRead => Sys2Proof.Machine.execFlRead s
  | .cabAppend => Sys2Proof.Machine.execCabAppend s
  | .cabFind => Sys2Proof.Machine.execCabFind s
  | .cabinetCompact => Sys2Proof.Machine.execCabinetCompact s
  | .tftpWrq tid name mode blk => Sys2Proof.Machine.execTftpWrq tid name mode blk s
  | .tftpRrq tid name mode blk => Sys2Proof.Machine.execTftpRrq tid name mode blk s
  | .tftpData tid block data => Sys2Proof.Machine.execTftpData tid block data s
  | .tftpAck tid block => Sys2Proof.Machine.execTftpAck tid block s
  | .tftpRetransmit => Sys2Proof.Machine.execTftpRetransmit s
  | .errorOccurrence page src unit detail hit => Sys2Proof.Machine.execErrorOccurrence page src unit detail hit s
  | .errInjWrite page v => Sys2Proof.Machine.execErrInjWrite page v s
  | .fclFaultClear v => Sys2Proof.Machine.execFclFaultClear v s
  | .fclLogRdWrite ix => Sys2Proof.Machine.execFclLogRdWrite ix s
  | .pinHoldWrite v => Sys2Proof.Machine.execPinHoldWrite v s
  | .faultNPulseEnd => Sys2Proof.Machine.execFaultNPulseEnd s
  | .evrSample temps rails => Sys2Proof.Machine.execEvrSample temps rails s
  | .evrPeriodClose tier ok => Sys2Proof.Machine.execEvrPeriodClose tier ok s
  | .evrEventProgram ok => Sys2Proof.Machine.execEvrEventProgram ok s
  | .powerStateEntry page unit idleNs => Sys2Proof.Machine.execPowerStateEntry page unit idleNs s
  | .powerStateExit page unit => Sys2Proof.Machine.execPowerStateExit page unit s
  | .ctlEnWrite page v => Sys2Proof.Machine.execCtlEnWrite page v s
  | .blockStopped page => Sys2Proof.Machine.execBlockStopped page s
  | .softReset page => Sys2Proof.Machine.execSoftReset page s
  | .softResetDone page => Sys2Proof.Machine.execSoftResetDone page s
  | .ctlFenceWrite page => Sys2Proof.Machine.execCtlFenceWrite page s
  | .ctlLockWrite page v => Sys2Proof.Machine.execCtlLockWrite page v s
  | .prsntRise => Sys2Proof.Machine.execPrsntRise s
  | .prsntFall => Sys2Proof.Machine.execPrsntFall s
  | .laneEnable => Sys2Proof.Machine.execLaneEnable s
  | .ejectReq => Sys2Proof.Machine.execEjectReq s
  | .powerDown => Sys2Proof.Machine.execPowerDown s
  | .vbatLoss => Sys2Proof.Machine.execVbatLoss s
  | .refclkPcieChange present => Sys2Proof.Machine.execRefclkPcieChange present s
  | .unsupportedOpcode q opc c => Sys2Proof.Machine.execUnsupportedOpcode q opc c s
  | .invalidPdu q lport malformed d1 d2 => Sys2Proof.Machine.execInvalidPdu q lport malformed d1 d2 s
  | .rdmaCmConnect q lport rc => Sys2Proof.Machine.execRdmaCmConnect q lport rc s
  | .priorityFlowControl lport classes pauseMask => Sys2Proof.Machine.execPriorityFlowControl lport classes pauseMask s
  | .servicePortFrame f => Sys2Proof.Machine.execServicePortFrame f s
  | .namespaceManagement ns desc viewEpoch => Sys2Proof.Machine.execNamespaceManagement ns desc viewEpoch s
  | .ownershipMove g => Sys2Proof.Machine.execOwnershipMove g s
  | .dieOperationDone m port tag status data => Sys2Proof.Machine.execDieOperationDone m port tag status data s
  | .bootFlashProgramDone ok => Sys2Proof.Machine.execBootFlashProgramDone ok s
  | .mapPageRebuildDone ns pix => Sys2Proof.Machine.execMapPageRebuildDone ns pix s

end Sys2Proof.Machine
end

