-- ==== Sys2Proof/Machine/Tick.lean ====
section
/-! DEFINITION. What one nanosecond without a command does: the counters that run by themselves, and no more. Every other
effect of time has a row of the table, whose command comes when it is due (log 2). -/
namespace Sys2Proof.Machine

/-- The nanoseconds the counter gains in one nanosecond of REFCLK_HS at the follower's rate correction, with the fraction
left over (R87, R109). The spec does not say what becomes of the correction when the follower leaves PAIRED or JOINING for ISOLATED: the last
one stays in force (DESIGN CHOICE, log 77). -/
def State.physGain (s : State) : Nat × Int :=
  let t := s.tbs.frac + 1000000 + s.tbs.rate
  ((t / 1000000).toNat, t % 1000000)

/-- PHYS after a gain of `g`: never less than before (R88) and never past the stored ceiling (R90). -/
def State.physAfter (s : State) (g : Nat) : Nat :=
  max s.tbs.phys (min (s.rf R.TBS.CEILING.CEIL) (s.tbs.phys + g))

/-- TBS's counter, while it runs (R87, R90, R92, R109). -/
def State.physTick (s : State) : State :=
  if s.tbs.started then { s with tbs := { s.tbs with phys := s.physAfter s.physGain.1, frac := s.physGain.2 } } else s

/-- The RTC counts units of 1/32,768 s while VBAT or the rails hold (R94). -/
def State.rtcTick (s : State) : State :=
  if s.pins.vbat || s.pins.railsGood then
    let f := s.tbs.rtcFrac + 32768
    { s with tbs := { s.tbs with rtc := s.tbs.rtc + f / 1000000000, rtcFrac := f % 1000000000 } }
  else s

/-- TBS records EPS_LIMIT when the bound comes to exceed EPS_MAX (R113, Table 3-5); its ERR_STAT bit marks it recorded. -/
def State.epsTick (s : State) : State :=
  if s.epsOver && !(s.rf (R.HDR.ERR_STAT.SRC Pg.TBS)).testBit 1 then s.raise Pg.TBS 1 else s

/-- One nanosecond of local time (log 2). -/
def State.tick (s : State) : State := { s with now := s.now + 1 }.physTick.rtcTick.epsTick.bootResume

end Sys2Proof.Machine
end

