-- ==== Sys2Proof/Safety.lean ====
section
/-! DEFINITION. What a safe run of the block is, and the conditions of a normal access that statements use. -/
namespace Sys2Proof.Machine

/-- The registers are in canonical form: keys strictly rising and no word equal to its reset value. -/
def State.regsWf (s : State) : Bool := swf resetWord s.regs

/-- The memory and the boot flash are in canonical form. -/
def State.memWf (s : State) : Bool := Memory.wf s.mem && Flash.wf s.flash

/-- The invariant of every run: registers, memory and boot flash are in their canonical forms, so that equal contents are equal data. -/
def State.Inv (s : State) : Prop := s.regsWf = true ∧ s.memWf = true

/-- An aligned 32-bit access of requester r (24: the Annex port) at a control-space or core-local key reaches a live register page: the
core runs (R575), the page is assigned and not hidden (R669, R672), the Annex port may write (R671) and the page is not fused off (R681). -/
def State.reaches (s : State) (r key : Nat) (isWrite : Bool) : Prop :=
  (r < 24 → s.coreRuns r = true) ∧ key % 4 = 0 ∧ (localBase ≤ key → r < 24) ∧
  (key < localBase →
    blockOf (key / 4096) ≠ 0 ∧ fusedOff s.fuses.variant (key / 4096) = false ∧
    (24 ≤ r → ¬(1 ≤ key / 4096 ∧ key / 4096 ≤ 4 ∧ s.flag R.ANX.CS_CFG.SVC_HIDE = true)) ∧
    (24 ≤ r → isWrite = true → s.flag R.ANX.CS_CFG.WR_EN = true))

/-- A host command on an I/O queue passes every check of R157: its queue is bound and open and no check answers it. -/
def State.accepts (s : State) (q opc : Nat) (k : Conn) (c : NvmeCmd) : Prop :=
  aget s.io.conns q = some k ∧ k.ctl.isSome = true ∧ k.err = false ∧ k.qid ≠ 0 ∧ (s.arrived q c).check q opc k c = none ∧
  (isResv opc = false → resConflict ((s.arrived q c).resvOf c.nsid) ((s.arrived q c).hostOf q) opc = false)

/-- An admin command arrives on the admin queue of controller id and passes the checks of R157. -/
def State.acceptsAdmin (s : State) (q opc : Nat) (c : NvmeCmd) (k : Conn) (id : Nat) (ctl : Ctl) : Prop :=
  aget s.io.conns q = some k ∧ s.ctlOf q = some (id, ctl) ∧ k.qid = 0 ∧ (s.arrived q c).checkAdmin q opc k c = none

end Sys2Proof.Machine
end

