-- ==== Sys2Proof/Certificates/Slice0/Obligations.lean ====
section
/-! DEFINITION. The statements for the provers, chapter by chapter. -/
open Sys2Proof Sys2Proof.Machine

/-! ## Control space -/

/-- A write reaches its register, and in the pages whose registers start nothing each field takes the effect of its access code; a read
of the lower half of a 64-bit register captures the upper half, which the same requester's next read of the upper half returns; a
write of an upper half waits for the lower half, which commits both (R13, R20, R21). -/
def Obligations.RegisterAccessCompletes : Prop :=
  (∀ (r : Requester) (key : Fin 67207168) (v : BitVec 32) (env : WriteEnv) (s : State), s.reaches r key true →
    exec (.registerWrite r key v env) s = .next (s.write32 env r key v.toNat) ∧
    (reg64 key = none → 256 ≤ key.val % 4096 → key.val / 4096 ∈ [21, 22, 27, 31] →
      exec (.registerWrite r key v env) s = .next (s.putRows (s.flag (R.HDR.CTL.LOCK (key / 4096))) key 1 v.toNat))) ∧
  (∀ (r : Requester) (key : Fin 67207168) (base : Nat) (s : State), s.reaches r key false → key.val < localBase →
    (reg64 key = some (base, false) →
      ∃ t, exec (.readCapture64 r key) s = .next t ∧ t.out = s.out ++ [.readData r (physOf r key) (s.view key)] ∧
        aget t.caps (capKey r base) = some (base, BitVec.ofNat 32 (s.view (base + 4))) ∧ t.regs = s.regs) ∧
    (∀ u, reg64 key = some (base, true) → aget s.caps (capKey r base) = some (base, u) →
      ∃ t, exec (.readCapture64 r key) s = .next t ∧ t.out = s.out ++ [.readData r (physOf r key) u.toNat] ∧
        aget t.caps (capKey r base) = none ∧ t.regs = s.regs)) ∧
  (∀ (r : Requester) (key : Fin 67207168) (base : Nat) (v : BitVec 32) (s : State), s.reaches r key true →
    reg64 key = some (base, true) → shadowed base = true →
      ∃ t, exec (.writeUpperShadow r key v) s = .next t ∧ aget t.shadows (capKey r base) = some (base, v) ∧
        t.regs = s.regs ∧ t.mem = s.mem ∧ t.out = s.out) ∧
  (∀ (r : Requester) (key : Fin 67207168) (v u : BitVec 32) (s : State), s.reaches r key true →
    reg64 key = some (key.val, false) → shadowed key = true → aget s.shadows (capKey r key) = some (key.val, u) →
      exec (.writeLowerCommit r key v) s =
        .next (State.commit { s.dropOther r key with shadows := adel (s.dropOther r key).shadows (capKey r key) } {} r key 2
          (v.toNat + 4294967296 * u.toNat)))

/-- Access codes: after a write, a field of an RW register holds the written bits, a locked RWL field and an RO or WO field hold what
they held, a W1C field loses and a W1S field gains the bits written 1, and every field that shares no bit with it is unchanged (R13, R16). -/
def Obligations.AccessCodes : Prop :=
  ∀ (locked : Bool) (key k v lo w : Nat) (row : FRow) (s : State), s.regsWf = true → partOf row (key % 4096) k = some (lo, w) →
    (putRow locked key k v row s).rf ⟨key, lo, w⟩ =
      (match row.acc with
        | .rw => fld v lo w
        | .rwl => if locked then s.rf ⟨key, lo, w⟩ else fld v lo w
        | .w1c => s.rf ⟨key, lo, w⟩ - (s.rf ⟨key, lo, w⟩ &&& fld v lo w)
        | .w1s => s.rf ⟨key, lo, w⟩ ||| fld v lo w
        | .ro | .wo => s.rf ⟨key, lo, w⟩) ∧
    ∀ g : Fld, apart ⟨key, lo, w⟩ g = true → (putRow locked key k v row s).rf g = s.rf g

/-- An aligned 64-bit Annex access takes both halves of a 64-bit register at once; a misaligned or narrow access reads 0, writes nothing and
reports the page's access error; an access to an unassigned page reports its own source, and a core takes an access fault (R22, R23, R669, R672). -/
def Obligations.OddAccessesComplete : Prop :=
  (∀ (key : Fin 67207168) (env : WriteEnv) (s : State), s.reaches 24 key true → key.val % 8 = 0 → reg64 key = some (key.val, false) →
    (∃ t, exec (.annex64bitAccess key none env) s = .next t ∧ t.regs = s.regs ∧
      t.out = s.out ++ [.readData 24 (physOf 24 key) (s.view key + 4294967296 * s.view (key + 4))]) ∧
    (∀ v, ∃ u, u.regs = s.regs ∧ u.mem = s.mem ∧ exec (.annex64bitAccess key (some v) env) s = .next (State.commit u env 24 key 2 v.toNat))) ∧
  (∀ (r : Requester) (key : Fin 67207168) (size : Fin 9) (wr : Option (BitVec 64)) (s : State),
    (r.val < 24 → s.coreRuns r = true ∧ size.val ≤ 4) → key.val < localBase →
    blockOf (key / 4096) ≠ 0 → fusedOff s.fuses.variant (key / 4096) = false →
    ¬(r.val = 24 ∧ 1 ≤ key.val / 4096 ∧ key.val / 4096 ≤ 4 ∧ s.flag R.ANX.CS_CFG.SVC_HIDE = true) →
    (r.val = 24 → wr.isSome = true → s.flag R.ANX.CS_CFG.WR_EN = true) →
    (size.val < 4 ∨ (size.val ≠ 4 ∧ size.val ≠ 8) ∨ key.val % size.val ≠ 0) →
      exec (.misalignedAccess r key size wr) s =
        .next ((if wr.isSome then s else s.answerRead r key 0).raise (key / 4096) (accessErrBit (blockOf (key / 4096))))) ∧
  (∀ (r : Requester) (key : Fin 67207168) (wr : Option (BitVec 32)) (s : State), (r.val < 24 → s.coreRuns r = true) →
    key.val < localBase → blockOf (key / 4096) = 0 →
      exec (.unassignedPageAccess r key wr) s =
        .next (if r.val = 24 then (if wr.isSome then s else s.answerRead r key 0).raise Pg.ANX 0
          else (s.emit (.accessFault r (physOf r key))).raise Pg.CCL 7))

/-! ## Memory controllers -/

/-- A pseudo-channel's fence only becomes pending; a channel's fence takes effect at once, takes a PAIRED head to ISOLATED with CAUSE 0x0A and, in
ISOLATED, unloads the maps; a stack above 85 °C goes to doubled refresh and reports it, below 82 °C it goes back (R44, R49, R712). A due line is read by the scrub, its finding counted and reported, its next reading a period later; at the end of an hour of ESTAMP the
corrected errors of every unit start from 0 again; an occurrence that concerns none of HBC, DDC, MPC and CCL does just what its class brings
(R45, R47, R48, R643). -/
def Obligations.MemoryControllersComplete : Prop :=
  ((∀ (pc : Fin 64) (s : State), pc.val ∉ s.fencedUnits Pg.HBC →
    exec (.hbcFence pc) s = .next (s.wf R.HBC.PC_PENDING.PC (setBit (s.rf R.HBC.PC_PENDING.PC) pc true))) ∧
  (∀ (ch : Fin 16) (s : State), ch.val ∉ s.fencedUnits Pg.DDC → s.mode = .isolated →
    ∃ t, exec (.ddcFence ch) s = .next t ∧ ch.val ∈ t.fencedUnits Pg.DDC ∧ t.mode = .isolated ∧ t.bsv.mapsLoaded = false ∧ t.bsv.autoJoinArmed = true ∧
      t.bsv.soloAsked = false ∧ (s.bsv.soloAsked = true → t.bsv.pending = false ∧ t.bsv.lossAt = none)) ∧
  (∀ (ch : Fin 16) (s : State), ch.val ∉ s.fencedUnits Pg.DDC → s.mode = .paired →
    ∃ t, exec (.ddcFence ch) s = .next t ∧ t.mode = .isolated ∧ t.bsv.cause = 0x0A ∧ t.bsv.silent = true ∧ t.bsv.mapsLoaded = false) ∧
  (∀ (ch : Fin 16) (s : State), exec (.ddrChannelLoss ch) s = .next (s.raiseU Pg.DDC 3 ch)) ∧
  (∀ (stack : Fin 2) (temp : Int) (s : State), 85 < temp →
    s.flag (if stack = 0 then R.HBC.STAT.HOT0 else R.HBC.STAT.HOT1) = false →
    exec (.hbmRefreshDouble stack temp) s = .next ((s.wf (if stack = 0 then R.HBC.STAT.HOT0 else R.HBC.STAT.HOT1) 1).raise Pg.HBC 5)) ∧
  (∀ (stack : Fin 2) (temp : Int) (s : State), temp < 82 →
    exec (.hbmRefreshNormal stack temp) s = .next (s.wf (if stack = 0 then R.HBC.STAT.HOT0 else R.HBC.STAT.HOT1) 0)))
  ∧ ((∀ (line : Nat) (hit : Struck) (s u : State), (∀ t, aget s.dram.scrub line = some t → t + s.scrubPeriod ≤ s.estamp) →
    u = { s with dram := { s.dram with scrub := aset s.dram.scrub line s.estamp } } →
    exec (.ddcScrub line 0 hit) s = .next u ∧
    (∃ t, exec (.ddcScrub line 1 hit) s = .next t ∧ aget t.dram.scrub line = some s.estamp ∧
      agetD t.dram.ddrCe (s.dramChan line) 0 = agetD s.dram.ddrCe (s.dramChan line) 0 + 1) ∧
    exec (.ddcScrub line 2 hit) s = .next (((u.ddcUe (line * 64) (s.dramChan line)).strike hit).fenceSync)) ∧
  (∀ s : State, s.dram.windowAt + hourNs ≤ s.estamp →
    ∃ t, exec .ceWindowEnd s = .next t ∧ t.dram.hbmCe = [] ∧ t.dram.ddrCe = [] ∧ t.dram.windowAt = t.estamp ∧ t.maps = s.maps ∧ t.mem = s.mem) ∧
  (∀ (page : Fin 64) (src : Fin 32) (unit : Option Nat) (detail : Nat) (hit : Struck) (s : State),
    s.pageLive page = true → src.val < errSources (blockOf page) → (∀ u, unit = some u → u < unitsMax (blockOf page)) →
    page.val ∉ [Pg.HBC, Pg.DDC, Pg.MPC, Pg.CCL] →
    exec (.errorOccurrence page src unit detail hit) s =
      .next ((s.occur { page := page, src := src, unit := if namesUnit (blockOf page) src then unit else none, detail := detail }).fenceSync)))

/-! ## Operating modes -/

/-- Every mode change writes the mode, the mode before it, the cause and the ESTAMP and puts one entry in the event recorder, where it waits if
its issuer stalls, in one update (R55, R91). -/
def Obligations.ModeChangeIsOneUpdate : Prop :=
  ∀ (m : Sys2Proof.Mode) (cause : Nat) (s : State), s.regsWf = true → (m = .paired → s.errClass Pg.CCL 6 ≠ 3 ∧ s.errClass Pg.FCL 0 ≠ 3) →
    (s.enter m cause).mode = m ∧ (s.enter m cause).bsv.prev = some s.mode ∧ (s.enter m cause).bsv.cause = cause ∧
    (s.enter m cause).bsv.pending = false ∧ (s.enter m cause).rf R.BSV.MODE_STAMP.ESTAMP = s.estamp % 2 ^ 64 ∧
    s.evr.queue.length + s.evr.wait.length < (s.enter m cause).evr.queue.length + (s.enter m cause).evr.wait.length

/-- A mode command that Table 2-5 allows and whose requirements hold is carried out and reads ACCEPTED: JOIN enters JOINING and asks the partner
where no sealed Gondola would be lost (log 78), SERVE_SOLO loads the maps, claims every die and waits for quorum, HANDOVER starts the drain,
STOP waits for admitted commands, ENTER_SERVICE takes ports and Carid down; AUTO_JOIN issues JOIN once (R53, R54, R57, R65, R72, R81). -/
def Obligations.ModeCommandsComplete : Prop :=
  (∀ s : State, s.bsv.pending = false → s.mode = .isolated → s.joinCheck = 0 → s.gondolaKept = false →
    ∃ t, exec .join s = .next t ∧ t.mode = .joining ∧ t.bsv.prev = some .isolated ∧ t.bsv.cause = 0x01 ∧ t.bsv.gondolaValid = false ∧ t.cpl.role = 1) ∧
  (∀ (f : Found) (s t : State), s.bsv.pending = false → s.mode = .isolated → s.witOn = true → s.hbRecent = false → s.witRecent 20000000 = false →
    s.soloLoad f = some t → t.shortGib t.usableGib = 0 → t.ctBitsOk = true →
    exec (.serveSolo f) s =
      .next (State.claimAll { t.modeResult 0 with bsv := { t.bsv with pending := true, soloAsked := true, lossAt := some t.now, autoJoinArmed := false } })) ∧
  (∀ s : State, s.bsv.pending = false → s.mode = .paired → s.partnerPaired = true →
    exec .handover s = .next ((s.modeResult 0).handoverStart 0x01)) ∧
  (∀ s : State, s.bsv.pending = false → s.mode = .solo →
    exec .stop s = .next (State.settle { s.modeResult 0 with bsv := { s.bsv with pending := true, stopAsked := true } })) ∧
  (∀ s : State, s.bsv.pending = false → s.mode = .isolated →
    exec .enterService s = .next (((s.modeResult 0).enter .service 0x01).portsDown).cplDown) ∧
  (∀ s : State, s.mode = .isolated → s.bsv.autoJoinArmed = true → s.flag R.BSV.MODE_CFG.AUTO_JOIN = true → s.shortGib s.usableGib = 0 →
    s.bsv.pending = false → s.joinCheck = 0 → s.gondolaKept = false →
    ∃ t, exec .autoJoin s = .next t ∧ t.mode = .joining ∧ t.bsv.prev = some .isolated ∧ t.bsv.cause = 0x01 ∧ t.bsv.autoJoinArmed = false ∧ t.cpl.role = 1)

/-- Partner loss in PAIRED stops the channels and claims every die; a quorum takes the head to SOLO; 40 ms without one take it to ISOLATED with CAUSE 0x0D,
where it serves nothing; a drained HANDOVER ends in ISOLATED with CAUSE 0x0B and READY_REMOVE_N low (R64 to R66, R73, R74). A fall of PWR_FAIL_N of 0.5 µs or longer takes a serving head to VAULT and no other head; its rise is noted; the seal is programmed when every
segment is written and the Gondola is sealed when the seal's own segment is, or it is abandoned after 1 s; then, PWR_FAIL_N high for 100 ms, the head boots again (R75, R76, R79, R80, R700). -/
def Obligations.TakeoverAndVaultComplete : Prop :=
  ((∀ s : State, s.mode = .paired → s.hbRecent = false → s.witRecent 20000000 = false → s.bsv.lossAt = none →
    exec .partnerLoss s = .next (State.claimAll { s.stopChannels with bsv := { s.bsv with lossAt := some s.now } })) ∧
  (∀ (r : List (Nat × Bool × List Placed × List Nat)) (s : State), s.bsv.lossAt.isSome = true → s.quorum = true → s.mode = .paired →
    exec (.quorumReached r) s = .next (s.enterSolo r)) ∧
  (∀ (t0 : Nat) (s : State), s.bsv.lossAt = some t0 → t0 + 40000000 ≤ s.now → s.quorum = false → s.mode = .paired →
    ∃ t, exec .quorumTimeout s = .next t ∧ t.mode = .isolated ∧ t.bsv.cause = 0x0D ∧ t.io.cmds = [] ∧ t.io.wc = [] ∧ t.bsv.mapsLoaded = false) ∧
  (∀ s : State, s.mode = .handover → s.drained = true → s.cpl.hoClaimed = true → s.cpl.hoFinal = true → s.finalAcked = true →
    ∃ t, exec .handoverDrainComplete s = .next t ∧ t.mode = .isolated ∧ t.bsv.cause = 0x0B ∧ t.pins.readyRemoveN = false))
  ∧ ((∀ (lowNs : Nat) (s : State), 500 ≤ lowNs → s.pins.pwrFailN = true → serving s.mode = true →
    exec (.pwrFailFall lowNs) s = .next ((State.enterVault { s with pins := { s.pins with pwrFailN := false, pwrFallAt := s.now } } 0x03 true).evrStop)) ∧
  (∀ (lowNs : Nat) (s : State), 500 ≤ lowNs → s.pins.pwrFailN = true → serving s.mode = false →
    ∃ t, exec (.pwrFailFall lowNs) s = .next t ∧ t.mode = s.mode ∧ t.pins.pwrFailN = false ∧ t.pins.pwrFallAt = s.now ∧ t.evr.queue = [] ∧ t.regs = s.regs ∧ t.mem = s.mem) ∧
  (∀ s : State, s.pins.pwrFailN = false →
    exec .pwrFailRise s = .next { s with pins := { s.pins with pwrFailN := true, pwrRiseAt := some s.now } }) ∧
  (∀ s : State, s.mode = .vault → s.bsv.vaultDone = false → s.sgb.vaultStuck = false → s.sgb.sealing = none → s.vaultWritten = true →
    s.now < s.bsv.vaultAt + oneS → exec .gondolaSeal s = .next s.vaultSealed.vaultCheck) ∧
  (∀ (seg : Nat) (s : State), s.mode = .vault → s.bsv.vaultDone = false → s.sgb.sealing = some seg → s.vaultWritten = true → s.now < s.bsv.vaultAt + oneS →
    s.vaultCheck.bsv.vaultDone = true ∧ s.vaultCheck.bsv.silent = true ∧ s.vaultCheck.sgb.sealing = none) ∧
  (∀ s : State, s.mode = .vault → s.bsv.vaultDone = false → (s.sgb.vaultStuck = true ∨ s.bsv.vaultAt + oneS ≤ s.now) →
    exec .gondolaAbandon s = .next { s.muteDies with bsv := { s.bsv with vaultDone := true, silent := true }, sgb := { s.sgb with vault := [], sealing := none } }) ∧
  (∀ (bad : List Nat) (s : State), s.mode = .vault → s.bsv.vaultDone = true → s.flashOk = true →
    ∃ t, exec (.vaultExit bad) s = .next t ∧ t.mode ∈ [Sys2Proof.Mode.boot, .service] ∧ t.io.cmds = [] ∧ t.bridges = s.bridges))

/-- RESET_N low for 1 µs takes the head to BOOT from any mode and keeps only what Table 18-6 says; its release samples the straps and loads the fuses, and
with SERVICE_EN low leads to SERVICE with CAUSE 0x08; with the image loaded and links trained the head enters ISOLATED (R56, R622, R698, R699). -/
def Obligations.ResetAndBootComplete : Prop :=
  (∀ (lowNs : Nat) (s : State), 1000 ≤ lowNs → s.pins.resetN = true →
    ∃ t, exec (.resetAssert lowNs) s = .next t ∧ t.mode = .boot ∧ t.pins.resetN = false ∧ t.pins.resetFallAt = s.now ∧ t.fuses = s.fuses ∧
      t.bridges = s.bridges ∧ t.flash = s.flash ∧ t.mem = [] ∧ t.io.cmds = [] ∧ t.maps = {} ∧ t.cpl = {} ∧
      t.tbs.rtc = s.tbs.rtc ∧ t.tbs.rtcValid = s.tbs.rtcValid) ∧
  (∀ (bad : List Nat) (s : State), s.pins.resetN = false → s.pins.serviceEn = false →
    ∃ t, exec (.resetRelease bad) s = .next t ∧ t.mode = .service ∧ t.bsv.cause = 0x08 ∧ t.pins.resetN = true ∧ t.straps.head = s.pins.slotId % 2 ∧
      t.fcl.fusesLoaded = true) ∧
  (∀ (badPc : List (Fin 64)) (badCh : List (Fin 16)) (s : State), s.mode = .boot → s.bsv.imageLoaded = true → s.trained = true →
    ∃ t, exec (.bootComplete badPc badCh none) s = .next t ∧ t.mode = .isolated ∧ t.bsv.cause = 0x00 ∧ t.bsv.prev = some .boot ∧ t.bsv.autoJoinArmed = true)

/-- A rise of PRSNT_N takes a serving head to VAULT with nothing saved and every lane idle; a fall starts the 50 ms after which lanes are enabled; a fall of
EJECT_REQ_N starts HANDOVER where MODE_CFG says so and is otherwise reported to firmware (R707 to R709). The rails fall after RESET_N or PWR_FAIL_N has been low long enough, and what waits only in the SVC island is lost; without VBAT the calendar is lost;
without REFCLK_PCIE the Annex port's connections end (R49, R94, R693, R697). -/
def Obligations.PinsAndPowerComplete : Prop :=
  ((∀ s : State, s.pins.prsntN = false → serving s.mode = true →
    exec .prsntRise s = .next ((State.enterVault { s with pins := { s.pins with prsntN := true } } 0x0E false).lanesIdle)) ∧
  (∀ s : State, s.pins.prsntN = false → serving s.mode = false →
    exec .prsntRise s = .next (State.lanesIdle { s with pins := { s.pins with prsntN := true } })) ∧
  (∀ s : State, s.pins.prsntN = true →
    exec .prsntFall s = .next { s with pins := { s.pins with prsntN := false, prsntLowAt := s.now } }) ∧
  (∀ s : State, s.pins.prsntN = false → s.pins.railsGood = true → s.pins.prsntLowAt + 50000000 ≤ s.now →
    exec .laneEnable s = .next { s with pins := { s.pins with lanesEnabled := true } }) ∧
  (∀ s : State, s.mode = .paired → s.flag R.BSV.MODE_CFG.EJECT_HANDOVER = true → s.partnerPaired = true →
    exec .ejectReq s = .next (State.handoverStart { s with pins := { s.pins with ejectReqN := false } } 0x04)) ∧
  (∀ s : State, (s.mode ≠ .paired ∨ s.flag R.BSV.MODE_CFG.EJECT_HANDOVER = false ∨ s.partnerPaired = false) →
    exec .ejectReq s = .next (State.event { s with pins := { s.pins with ejectReqN := false, ejectReported := true } } Pg.BSV)))
  ∧ ((∀ s : State, s.regsWf = true → s.pins.railsGood = true → s.pins.resetN = false → s.pins.resetFallAt + 10000 ≤ s.now →
    ∃ t, exec .powerDown s = .next t ∧ t.pins.railsGood = false ∧ t.pins.lanesEnabled = false ∧ t.mode = .boot ∧ t.rf R.HBC.PC_PENDING.PC = 0 ∧
      t.fuses = s.fuses ∧ t.flash = s.flash) ∧
  (∀ s : State, s.pins.railsGood = false →
    exec .vbatLoss s = .next { s with pins := { s.pins with vbat := false },
                                      tbs := { s.tbs with rtc := 0, rtcFrac := 0, rtcValid := false, rtcLost := true } }) ∧
  (∀ s : State, exec (.refclkPcieChange true) s = .next { s with pins := { s.pins with refclkPcie := true } }) ∧
  (∀ s : State, ∃ t, exec (.refclkPcieChange false) s = .next t ∧ t.pins.refclkPcie = false))

/-! ## Stamps, Tether and the journal -/

/-- A stamp an issuer issues is later than its last stamp and than the head's floor, never runs behind the counter, and carries the head and the
unit; issuers of different heads or units never issue equal stamps (R97 to R102). -/
def Obligations.StampsIncrease : Prop :=
  (∀ (s : State) (unit : Nat) (o : Ostamp), s.straps.head ≤ 1 → unit < 128 → s.nextStamp unit = some o →
    agetD s.tbs.issuers unit 0 < o ∧ s.tbs.floor < o ∧ s.tbs.phys ≤ phys o ∧ origin o = s.straps.head * 128 + unit ∧
    s.issue unit = (some o, s.issued unit o) ∧ agetD (s.issued unit o).tbs.issuers unit 0 = o) ∧
  (∀ (s t : State) (u v : Nat) (o p : Ostamp), s.straps.head ≤ 1 → t.straps.head ≤ 1 → u < 128 → v < 128 → s.nextStamp u = some o → t.nextStamp v = some p →
    s.straps.head ≠ t.straps.head ∨ u ≠ v → o ≠ p)

/-- R101's choice: PHYS of the counter with LOGICAL 0 where the counter is past the later of last stamp and floor, else that PHYS with LOGICAL plus 1;
none at the ceiling, before PHYS has started, or where LOGICAL would pass 0xFF_FFFF (R91, R92, R101, R103). -/
def Obligations.StampRule : Prop :=
  ∀ (s : State) (unit : Nat), s.straps.head ≤ 1 → unit < 128 →
    (s.tbs.started = false ∨ s.rf R.TBS.CEILING.CEIL ≤ s.tbs.phys → s.nextStamp unit = none) ∧
    (s.tbs.started = true → s.tbs.phys < s.rf R.TBS.CEILING.CEIL →
      ∀ b, b = max (physLog (agetD s.tbs.issuers unit 0)) (physLog s.tbs.floor) →
        (b / 2 ^ 24 < s.tbs.phys → ∃ o, s.nextStamp unit = some o ∧ phys o = s.tbs.phys ∧ logical o = 0) ∧
        (s.tbs.phys ≤ b / 2 ^ 24 → b % 2 ^ 24 ≠ 0xFFFFFF → ∃ o, s.nextStamp unit = some o ∧ phys o = b / 2 ^ 24 ∧ logical o = b % 2 ^ 24 + 1) ∧
        (s.tbs.phys ≤ b / 2 ^ 24 → b % 2 ^ 24 = 0xFFFFFF → s.nextStamp unit = none))

/-- A new ceiling of PHYS + 20 s is begun when PHYS has reached the stored one less 10 s; once durable it is the ceiling and no unit stalls below it; at the
ceiling CEIL_STALL is set and reported; setting the calendar sets the RTC and the anchor; each hour the RTC follows (R90 to R95, R103). -/
def Obligations.TimebaseCompletes : Prop :=
  (∀ s : State, s.tbs.ceilWrite = none → s.tbs.started = true → s.rf R.TBS.CEILING.CEIL ≤ s.tbs.phys + 10 * oneS → s.bsv.jobs = [] → s.flashOk = true →
    exec .ceilingWrite s = .next { s with tbs := { s.tbs with ceilWrite := some (s.tbs.phys + 20 * oneS), ceilWaits := false } }) ∧
  (∀ (c : Nat) (s : State), s.tbs.ceilWrite = some c → s.tbs.ceilWaits = false →
    exec .ceilingWriteDone s = .next (s.ceilDone c).stampRetry) ∧
  (∀ (c : Nat) (s : State), s.regsWf = true → s.tbs.started = true → s.tbs.stepAfterCeil = none → s.tbs.phys < c → c < 2 ^ 64 →
    (s.ceilDone c).rf R.TBS.CEILING.CEIL = c ∧ (s.ceilDone c).rf R.TBS.STAT.CEIL_STALL = 0 ∧ (s.ceilDone c).tbs.phys = s.tbs.phys ∧
    (s.ceilDone c).tbs.ceilWrite = none) ∧
  (∀ s : State, s.tbs.started = true → s.rf R.TBS.CEILING.CEIL ≤ s.tbs.phys → s.flag R.TBS.STAT.CEIL_STALL = false →
    exec .ceilingStall s = .next ((s.wf R.TBS.STAT.CEIL_STALL 1).raise Pg.TBS 2)) ∧
  (∀ s : State, ∃ t, exec .calSet s = .next t ∧ t.tbs.rtc = rtcOf (s.rf R.TBS.CAL_VALUE.UTC) ∧ t.tbs.rtcValid = true ∧ t.tbs.rtcLost = false ∧
    t.tbs.phys = s.tbs.phys ∧ t.slm.calStep = true) ∧
  (∀ s : State, s.tbs.rtcValid = true → s.tbs.rtcUpdAt + 3600 * oneS ≤ s.tbs.phys →
    exec .rtcHourlyUpdate s = .next { s with tbs := { s.tbs with rtc := rtcOf s.utcNs, rtcFrac := 0, rtcUpdAt := s.tbs.phys } }) ∧
  (∀ (u : Fin 128) (b : Nat) (s : State), aget s.tbs.ovfStalls u = some b → b < s.tbs.phys →
    exec (.logicalOvfResume u) s = .next (State.stampRetry { s with tbs := { s.tbs with ovfStalls := adel s.tbs.ovfStalls u } }))

/-- The follower starts an exchange each microsecond and keeps t1; the reference answers with t2 and t3; the follower computes the offset and the round
trip; sixteen exchanges within ε lock; four that are not, or 4 µs without one, lose the lock (R105, R106, R111, R486). -/
def Obligations.TetherCompletes : Prop :=
  (∀ s : State, s.tetherRuns = true → s.flag R.TBS.STAT.ROLE = true → s.tbs.exAt + 1000 ≤ s.tbs.phys →
    ∃ t, exec .tetherExchangeStart s = .next t ∧ aget t.tbs.exch s.tbs.exNext = some s.tbs.phys ∧
      t.out = s.out ++ [.carid (s.cHead 0 (.tetherReq s.tbs.exNext)) (.tetherReq s.tbs.exNext)] ∧
      t.tbs.exAt = s.tbs.phys ∧ t.regs = s.regs) ∧
  (∀ (ex : Fin 4294967296) (s : State), s.regsWf = true → s.tetherRuns = true → s.flag R.TBS.STAT.ROLE = false → s.mode = .paired →
    ∃ t, exec (.tetherReq ex 0) s = .next t ∧ 
      t.out = s.out ++ [.carid (s.cHead 0 (.tetherRsp ex s.tbs.phys s.tbs.phys)) (.tetherRsp ex s.tbs.phys s.tbs.phys)] ∧
      t.rf R.TBS.STAT.RUN = min 16 (s.rf R.TBS.STAT.RUN + 1) ∧ t.tbs.lastGood = s.tbs.phys) ∧
  (∀ (ex : Fin 4294967296) (t1 t2 t3 : Nat) (s : State), s.regsWf = true → aget s.tbs.exch ex = some t1 → s.tetherRuns = true →
    s.flag R.TBS.STAT.ROLE = true → s.stepPhase = false →
    ∃ t, exec (.tetherRsp ex t2 t3) s = .next t ∧
      t.rf R.TBS.OFFSET.THETA = toTwos 32 (halveInt (((t2 : Int) - t1) - ((s.tbs.phys : Int) - t3))) ∧
      t.rf R.TBS.RTT.DELTA = toTwos 16 (((s.tbs.phys : Int) - t1) - ((t3 : Int) - t2)) ∧ t.tbs.phys = s.tbs.phys ∧
      -100 ≤ t.tbs.rate ∧ t.tbs.rate ≤ 100) ∧
  (∀ (ex : Fin 4294967296) (t1 : Nat) (s : State), aget s.tbs.exch ex = some t1 → t1 + 2000 ≤ s.tbs.phys →
    exec (.tetherExchangeLost ex) s = .next { s.inc R.TBS.CNT_LOST.COUNT with tbs := { s.tbs with exch := adel s.tbs.exch ex } }) ∧
  (∀ s : State, (s.mode = .paired ∨ s.mode = .joining) → s.flag R.TBS.STAT.LOCK = true → s.tbs.lastDone + 4000 ≤ s.tbs.phys →
    exec .tetherLockLoss s = .next (if s.mode = .paired then ((s.wf R.TBS.STAT.LOCK 0).wf R.TBS.STAT.RUN 0).raise Pg.TBS 0
      else (s.wf R.TBS.STAT.LOCK 0).wf R.TBS.STAT.RUN 0))

/-- Commit wait: a command whose stamp PHYS has passed by more than twice EPS_CUR and whose data is held is completed to its host; one whose
stamp it has not passed gets no completion (R113, R116). -/
def Obligations.CommitWait : Prop :=
  (∀ (op q : Nat) (c : IoCmd) (s u v : State) (o : Ostamp), aget s.io.cmds op = some c → c.fromPartner = false → s.mode ≠ .vault →
    s.ackDurable c = true → s.heldOf c = false → s.commitPassed c.ostamp = true → c.conn = some q → s.issue (s.nvtUnit q) = (some o, u) →
    v = State.complete { u with io := { u.io with cqLog := u.io.cqLog ++ [(o, q, c.cid)] } } op 0 0 false →
    exec (.commitWaitPass op) s = .next (v.wcRelease v.wcDone).settle) ∧
  (∀ (op : Nat) (c : IoCmd) (s : State), aget s.io.cmds op = some c → c.fromPartner = false → c.ostamp ≠ 0 → s.commitPassed c.ostamp = false →
    exec (.commitWaitPass op) s = .next s.settle) ∧
  (∀ (o : Ostamp) (s : State), s.commitPassed o = true → phys o + 2 * s.epsCur < s.tbs.phys)

/-- A command all of whose next grains are ready is stamped, its records applied as one group and enqueued on their lanes in order; a lane's page is
programmed when full or old, and released to the log once durable in two copies; an idle lane advances its horizon; a partner's complete group is applied,
and one whose condition fails has no effect but its count (R120, R122, R124, R132, R239, R353, R354). -/
def Obligations.JournalCompletes : Prop :=
  (∀ (op : Nat) (c : IoCmd) (o : Ostamp) (s u : State), aget s.io.cmds op = some c → c.stage = .active → c.grains ≠ [] → c.doneN < c.grains.length →
    (∀ g ∈ leftGrains c, grainReady g = true ∧ s.grainHeld op c.ns g.gi = false) → s.moveHolds c.ns = false → s.hitsExpired c = false →
    s.prepPaths c.ns (((s.nextGrains c).filter (fun g => !(s.grainRecs c g).isEmpty)).filter (fun g => g.st != .unmap || s.leafEntry c.ns g.gi != 0) |>.map (fun g => g.gi)) = [] →
    groupOrder ((s.nextGrains c).flatMap (s.grainRecs c)) ≠ [] → s.stampGroup (b2n c.adopted) (groupOrder ((s.nextGrains c).flatMap (s.grainRecs c))) = .done o u →
    exec (.groupStamp op) s = .next ((u.groupDone op (s.nextGrains c) o).tryFwdDone op).settle) ∧
  (∀ (r : JRec) (s : State), s.mirrors = false →
    ((s.enqueue r).lane r.lane).queue = (s.lane r.lane).queue ++ [r] ∧ ∀ l, l ≠ r.lane → (s.enqueue r).lane l = s.lane l) ∧
  (∀ (lane : Fin 32) (s : State), lane ≠ 31 → (s.lane lane).queue ≠ [] → (s.lane lane).firstAt + s.rf R.JRN.CFG.FLUSH_NS ≤ s.estamp → serving s.mode = true →
    s.mayProgram = true → s.firstPool ≠ none → (s.lane lane).seg ≠ 0 → (s.lane lane).tilePages < 4 →
    exec (.lanePageFlush lane) s = .next (s.programLanePage lane)) ∧
  (∀ s u : State, serving s.mode = true → s.mayProgram = true → s.firstPool ≠ none → u = s.meterFlush → serving u.mode = true → u.mayProgram = true →
    u.firstPool ≠ none → u.laneDue 31 = true → (u.lane 31).seg ≠ 0 → (u.lane 31).tilePages < 4 →
    exec (.lanePageFlush 31) s = .next (u.programLanePage 31)) ∧
  (∀ (lane : Fin 32) (s : State), exec (.lanePageDurable lane) s = .next (s.pageDurable lane ((s.lane lane).pages.length + 1)).pumpSegs) ∧
  (∀ (lane : Fin 32) (o : Ostamp) (s u : State), s.mirrors = true → (s.lane lane).lastAt + 10000 ≤ s.estamp → o = mkStamp s.estamp 0 (s.origin lane) →
    u = (if s.issueBase lane < physLog o then s.issued lane o else s) →
    exec (.laneHorizonAdvance lane) s =
      .next ((u.setLane lane { u.lane lane with horizon := max (u.lane lane).horizon o, lastAt := u.estamp }).sendC (.horizon [(lane.val, o)]))) ∧
  (∀ (o : Nat) (geo : List (Nat × Nat × Nat × Nat × Nat)) (lay : List (Nat × Pool)) (dir : List (Nat × Nat × Nat)) (s : State), takesMirror s.mode = true →
    (s.mode = .joining → s.cpl.loaded = true) → s.mayApply o = true →
    exec (.partnerGroupApply o geo lay dir) s = .next (s.applyDelta o geo lay dir).settle) ∧
  (∀ (slice : Nat) (a b : List JRec) (r : JRec) (s u : State), applyRecs slice a s = some u → u.applyRec slice r = none →
    applyRecs slice (a ++ r :: b) s = none)

/-! ## Host interface -/

/-- Port commands complete: a port takes a MODE from or to disabled only, and another change is dropped and reported; a port of the mode gains link; marked
packets, notifications and the regain of rate act on RoCEv2 queue pairs; a pause frame acts on the priorities of PFC_MASK that it names; CLR clears the
selected violation counter (R136 to R138, R140, R166). -/
def Obligations.PortsComplete : Prop :=
  (∀ (port : Fin 16) (v : BitVec 32) (s : State), s.regsWf = true →
    exec (.portCfgWrite port v) s = .next (s.portCfgWrite port v.toNat).settle ∧
    (s.portMode port = fld v.toNat 0 2 ∨ s.portMode port = 3 ∨ fld v.toNat 0 2 = 3 → (s.portCfgWrite port v.toNat).portMode port = fld v.toNat 0 2) ∧
    (s.portMode port ≠ fld v.toNat 0 2 → s.portMode port ≠ 3 → fld v.toNat 0 2 ≠ 3 → ∃ u : State, u.portMode port = s.portMode port ∧
      u.io = s.io ∧ s.portCfgWrite port v.toNat = u.raise (6 + port.val / 4) 0)) ∧
  (∀ (port : Fin 16) (k : Fin 4) (s : State), lportIn (s.portMode port) k = true → fusedOff s.fuses.variant (6 + portH port) = false →
    s.mode ∉ [Sys2Proof.Mode.boot, .vault, .service] →
    (∀ j ∈ lportLanes (s.portMode port) k, bit (s.rf (R.HFX.PORT_STAT.FENCED (portH port) (portN port))) j = false) →
    exec (.portLinkUp port k) s = .next (s.setUp (4 * port.val + k.val) true)) ∧
  (∀ (port : Fin 16) (k : Fin 4) (s : State), exec (.portLinkDown port k) s = .next (s.dropLport (4 * port.val + k.val)).settle) ∧
  (∀ (q : Nat) (c : Conn) (s : State), aget s.io.conns q = some c → c.xport = 2 →
    ((∀ t, c.cnpAt = some t → t + 50000 ≤ s.now) →
      exec (.ecnMarkedPacket q) s = .next ((s.updConn q (fun c => { c with cnpAt := some s.now })).emit (.cnp q))) ∧
    (∃ t, exec (.cnpReceived q) s = .next t ∧ aget t.io.conns q = some { c with rate := c.rate / 2, gainAt := s.now } ∧ t.regs = s.regs ∧ t.out = s.out) ∧
    (c.rate < 4294967296 → c.gainAt + 55000 ≤ s.now → ∃ t, exec (.rateRegain q) s = .next t ∧ t.regs = s.regs ∧ t.out = s.out ∧
      aget t.io.conns q = some { c with rate := min 4294967296 (c.rate + 268435456), gainAt := s.now })) ∧
  (∀ (lp : Fin 64) (classes pause : BitVec 8) (s : State), s.flag (R.HFX.PORT_CFG.PFC_EN (lp.val / 16) (lp.val / 4 % 4)) = true → s.lportUp lp = true →
    ∃ t, exec (.priorityFlowControl lp classes pause) s = .next t ∧ t.regs = s.regs ∧ (s.io.held = [] → t.out = s.out) ∧
      (∀ e ∈ t.io.held, bit (t.pausedAt e.1) (Config.connPrio e.1 % 8) = true) ∧
      (∀ l, l ≠ lp.val → aget t.io.paused l = aget s.io.paused l) ∧
      ∀ i < 8, bit (agetD t.io.paused lp 0) i =
        (if bit (s.rf (R.HFX.PORT_CFG.PFC_MASK (lp.val / 16) (lp.val / 4 % 4))) i && classes.getLsbD i then pause.getLsbD i else bit (agetD s.io.paused lp 0) i)) ∧
  (∀ s : State, exec .vcntClear s = .next { s with io := { s.io with vcnt := adel s.io.vcnt s.vcntKey } })

/-- Transport connections are set up, refused and ended: ICReq with the digests it asks for, an RC queue pair and no other kind, invalid PDUs, lost
connections, silent hosts, packets outside the window (R141, R142, R161, R164). -/
def Obligations.ConnectionsComplete : Prop :=
  (∀ (q : Nat) (lp : Fin 64) (port : Fin 65536) (hd dd : Bool) (s : State), s.flag R.NVT.XPORT_CFG.TCP_EN = true → s.lportUp lp = true → aget s.io.conns q = none →
    (port.val = s.rf R.NVT.TCP_PORT.PORT ∨ port.val = s.rf R.NVT.DISC_PORT.PORT) →
    (s.flag R.NVT.XPORT_CFG.HDGST_REQ = true → hd = true) → (s.flag R.NVT.XPORT_CFG.DDGST_REQ = true → dd = true) →
    ∃ t, exec (.icreq q lp hd dd port) s = .next t ∧ t.out = s.out ++ [.icResp q hd dd] ∧ t.regs = s.regs ∧
      aget t.io.conns q = some { xport := 1, lport := lp, ready := true, disc := decide (port.val = s.rf R.NVT.DISC_PORT.PORT), hdgst := hd, ddgst := dd, gainAt := s.now }) ∧
  (∀ (q : Nat) (c : Conn) (lp : Fin 64) (malformed : Bool) (d1 d2 : Nat) (s : State), aget s.io.conns q = some c →
    exec (.invalidPdu q lp malformed d1 d2) s =
      .next (if malformed then (s.violate q 0x0C 0xFFFF d1 d2).endWith q 0x01 d1 else (s.violate q 0x0D 0xFFFF d1 0).endWith q 0x02 0)) ∧
  (∀ (q : Nat) (lp : Fin 64) (rc : Bool) (s : State), s.flag R.NVT.XPORT_CFG.ROCE_EN = true → s.lportUp lp = true → aget s.io.conns q = none →
    ∃ t, exec (.rdmaCmConnect q lp rc) s = .next t ∧ t.out = s.out ++ [.cmReply q rc] ∧ t.regs = s.regs ∧
      aget t.io.conns q = (if rc then some { xport := 2, lport := lp, ready := true, gainAt := s.now } else none)) ∧
  (∀ (q : Nat) (s : State), exec (.connectionEnd q) s = .next (s.endConn q).settle) ∧
  (∀ (id : Nat) (k : Ctl) (s : State), aget s.io.ctls id = some k → k.kato ≠ 0 → k.kaAt + k.kato ≤ s.now →
    exec (.keepAliveTimeout id) s = .next (s.endCtl id).settle ∧ (s.endCtl id).io.ctls = adel ((s.queuesOf id).foldl (fun s q => s.closeQueue q) s).io.ctls id) ∧
  (∀ (q psn : Nat) (k : Conn) (s : State), aget s.io.conns q = some k → k.xport = 2 → psn ≠ k.psn →
    exec (.rocePacketOutOfWindow q psn) s = .next (if (psn + 16777216 - k.psn) % 16777216 < 8388608
      then (s.violate q 0x23 0xFFFF k.psn psn).emit (.nak q 0) else s.violate q 0x23 0xFFFF k.psn psn)) ∧
  (∀ (q cid off : Nat) (d : Bytes) (err : Option Nat) (op : Nat) (c : IoCmd) (s : State),
    s.io.cmds.find? (fun e => e.2.conn == some q && e.2.cid == cid && (e.2.stage == Stage.data || err.isSome)) = some (op, c) →
    exec (.rdmaReadResponse q cid off d err) s = .next (match err with
      | some i => ((s.dropCmd op).violAnswer q 0x22 cid i 0 0x04).endConn q
      | none => s.placeData op off d)) ∧
  (∀ (q ttag off : Nat) (d : Bytes) (last : Bool) (s : State) (k : Conn) (r x : R2t) (c : IoCmd), aget s.io.conns q = some k → k.xport = 1 → d.length ≤ 131072 →
    k.r2ts.find? (fun r => r.idx == ttag % 4096) = some r → r.gen = ttag / 4096 → aget s.io.cmds r.op = some c → off + d.length ≤ c.need →
    k.r2ts.find? (fun x => x.op == r.op && decide (x.off ≤ off) && decide (off + d.length ≤ x.off + x.len)) = some x →
    (last = true → x.len ≤ x.got + d.length) → x.got + d.length < x.len →
    exec (.h2cData q ttag off d last none none) s = .next ((s.updConn q (fun k => { k with r2ts := k.r2ts.filterMap (fun y =>
      if y.idx = x.idx then some { y with got := y.got + d.length } else some y) })).placeData r.op off d))

/-- A queue of a slice is opened and closed: an admin Connect whose NQNs are bound makes the next controller, an I/O Connect opens a queue of it, and the
Annex port's queues are bound by PASID; a doorbell of another process is ignored and logged (R144 to R146, R164, R174 to R176). -/
def Obligations.QueuesComplete : Prop :=
  (∀ (q size cntlid kato h : Nat) (hostId hostNqn subNqn : Bytes) (c : Conn) (s : State), aget s.io.conns q = some c → c.ctl = none → c.ready = true → c.xport ≠ 3 →
    2 ≤ size → size ≤ 4096 → s.nqnLookup hostNqn subNqn = some h → s.handleOk h = true → sdState (s.sliceDesc (h % 4096)) = 1 →
    exec (.fabricsConnect q 0 size cntlid kato hostId hostNqn subNqn) s = .next (s.newCtl q h size kato hostId)) ∧
  (∀ (q qid size cntlid kato : Nat) (hostId hostNqn subNqn : Bytes) (c : Conn) (s : State), aget s.io.conns q = some c → c.ctl = none → c.ready = true → c.xport ≠ 3 →
    2 ≤ size → size ≤ 4096 → qid ≠ 0 →
    exec (.fabricsConnect q qid size cntlid kato hostId hostNqn subNqn) s = .next (s.newQueue q cntlid qid size hostId)) ∧
  (∀ (q h size kato n : Nat) (hostId : Bytes) (c : Conn) (s : State), s.pairsOf h < sdQueues (s.sliceDesc (h % 4096)) → s.rf R.NVT.QPOOL_FREE.FREE ≠ 0 → s.regsWf = true →
    s.nextCtl = some n → aget s.io.conns q = some c →
    (s.newCtl q h size kato hostId).out = s.out ++ [.connectRsp q 0 0 (s.head * 32768 + n) 0] ∧
    (s.newCtl q h size kato hostId).rf R.NVT.QPOOL_FREE.FREE + 1 = s.rf R.NVT.QPOOL_FREE.FREE ∧
    aget (s.newCtl q h size kato hostId).io.conns q = some { c with ctl := some (s.head * 32768 + n), qid := 0, size := size, pair := true } ∧
    1 ≤ n ∧ n ≤ 0x7FEF ∧ ahas s.io.ctls (s.head * 32768 + n) = false) ∧
  (∀ (q qid size cntlid : Nat) (hostId : Bytes) (k : Ctl) (c : Conn) (s : State), aget s.io.ctls cntlid = some k → k.hostId = hostId → qid ≤ k.ioq →
    s.pairsOf k.slice < sdQueues (s.sliceDesc (k.slice % 4096)) → s.rf R.NVT.QPOOL_FREE.FREE ≠ 0 → s.regsWf = true → aget s.io.conns q = some c →
    (s.newQueue q cntlid qid size hostId).out = s.out ++ [.connectRsp q 0 0 cntlid 0] ∧
    (s.newQueue q cntlid qid size hostId).rf R.NVT.QPOOL_FREE.FREE + 1 = s.rf R.NVT.QPOOL_FREE.FREE ∧
    aget (s.newQueue q cntlid qid size hostId).io.conns q = some { c with ctl := some cntlid, qid := qid, size := size, pair := true }) ∧
  (∀ (q : Nat) (pasid : Fin 1048576) (size h : Nat) (s u : State), aget s.io.conns q = none → s.pasidLookup pasid = some h → s.handleOk h = true →
    sdState (s.sliceDesc (h % 4096)) = 1 → 2 ≤ size → size ≤ 4096 →
    u = ({ s with io := { s.io with conns := aset s.io.conns q { xport := 3, lport := 0xFF, ready := true, pasid := pasid, gainAt := s.now } } }.newCtl q h size 0 []) →
    ((aget u.io.conns q).bind (fun k => k.ctl)).isSome = true → exec (.annexQueueCreate q pasid 0 size) s = .next u) ∧
  (∀ (q : Nat) (c : Conn) (s : State), aget s.io.conns q = some c → c.xport = 3 → exec (.annexQueueDelete q) s = .next (s.endConn q).settle) ∧
  (∀ (q : Nat) (pasid : Fin 1048576) (off tail : Nat) (c : Conn) (s : State), aget s.io.conns q = some c → c.xport = 3 →
    (c.pasid = pasid → exec (.annexDoorbell q pasid off tail) s = .next (s.updConn q (fun c => { c with tail := tail % max 1 c.size }))) ∧
    (c.pasid ≠ pasid → exec (.annexDoorbell q pasid off tail) s = .next (s.violate q 0x30 0xFFFF pasid off)))

/-- An admin command that passes the checks of R157 has its effect and is answered (R59, R147, R149, R157, R162). -/
def Obligations.AdminCommandsComplete : Prop :=
  (∀ (q : Nat) (c : NvmeCmd) (k : Conn) (id : Nat) (ctl : Ctl) (s u : State), u = s.arrived q c →
    (s.acceptsAdmin q 0x106 c k id ctl → nthD c.cdw 0 0 % 256 = 1 →
      exec (.identifyCmd q c) s = .next ((u.hostEmit q (.adminData q c.cid (identController id))).answer q c.cid 0 0 false)) ∧
    (∀ n, s.acceptsAdmin q 0x106 c k id ctl → nthD c.cdw 0 0 % 256 = 0 → u.nsOf c.nsid = some n → n.desc.slice = ctl.slice →
      exec (.identifyCmd q c) s = .next ((u.hostEmit q (.adminData q c.cid (identNamespace c.nsid n.desc))).answer q c.cid 0 0 false)) ∧
    (s.acceptsAdmin q 0x106 c k id ctl → nthD c.cdw 0 0 % 256 = 0 → u.nsOf c.nsid = none →
      exec (.identifyCmd q c) s = .next (u.violAnswer q 0x40 c.cid c.nsid 0 0x0B)) ∧
    (s.acceptsAdmin q 0x102 c k id ctl → nthD c.cdw 0 0 % 256 = 0x0C → ∀ len off : Nat,
      len = (nthD c.cdw 0 0 / 65536 + nthD c.cdw 1 0 % 65536 * 65536 + 1) * 4 → off = nthD c.cdw 2 0 + nthD c.cdw 3 0 * 2 ^ 32 →
      exec (.getLogPage q c) s = .next (({ u with freeCtr := u.freeCtr + 1 }.hostEmit q
        (.adminData q c.cid (padTo len (((u.anaLog ctl.slice).drop off).take len)))).answer q c.cid 0 0 false)) ∧
    (s.acceptsAdmin q 0x10A c k id ctl →
      exec (.getFeatures q c) s = .next (u.hostEmit q (.cqe q c.cid 0 0 false (featureOf ctl (nthD c.cdw 0 0 % 256))))) ∧
    (s.acceptsAdmin q 0x109 c k id ctl → nthD c.cdw 0 0 % 256 = 0x0F →
      exec (.setFeatures q c) s = .next ((u.updCtl id (fun k => { k with kato := katoNs (nthD c.cdw 1 0), kaAt := u.now })).hostEmit q (.cqe q c.cid 0 0 false 0))) ∧
    (s.acceptsAdmin q 0x109 c k id ctl → nthD c.cdw 0 0 % 256 = 0x07 → ∀ n : Nat,
      n = min (min 1024 (sdQueues (u.sliceDesc (ctl.slice % 4096)) - 1)) (nthD c.cdw 1 0 % 65536 + 1) →
      exec (.setFeatures q c) s = .next ((u.updCtl id (fun k => { k with ioq := n })).hostEmit q (.cqe q c.cid 0 0 false ((n - 1) * 65537)))) ∧
    (s.acceptsAdmin q 0x118 c k id ctl →
      exec (.keepAlive q c) s = .next ((u.updCtl id (fun k => { k with kaAt := u.now })).answer q c.cid 0 0 false)) ∧
    (∀ (op : Nat) (m : IoCmd), s.acceptsAdmin q 0x108 c k id ctl →
      u.io.cmds.find? (fun e => e.2.cid == nthD c.cdw 0 0 / 65536 % 65536 && (match e.2.conn.bind (fun x => aget u.io.conns x) with
        | some k => k.ctl == some id && k.qid == nthD c.cdw 0 0 % 65536
        | none => false)) = some (op, m) → m.stage = .waiting →
      exec (.abortCmd q c) s = .next (((u.failCmd op 0 0x07 true 0).hostEmit q (.cqe q c.cid 0 0 false 0)).settle)) ∧
    (∀ (e : Nat) (l : List Nat), s.acceptsAdmin q 0x10C c k id ctl → ctl.events = e :: l →
      exec (.asyncEventRequest q c) s = .next ((u.updCtl id (fun k => { k with events := l })).hostEmit q (.cqe q c.cid 0 0 false e))) ∧
    (s.acceptsAdmin q 0x10C c k id ctl → ctl.events = [] →
      exec (.asyncEventRequest q c) s = .next (u.updCtl id (fun k => { k with aers := k.aers ++ [c.cid] })))) ∧
  (∀ (q : Nat) (opc : Fin 256) (c : NvmeCmd) (k : Conn) (s : State), aget s.io.conns q = some k → k.ctl.isSome = true →
    s.chkTransport q k c = none → s.cidBusy q c.cid = false → exec (.unsupportedOpcode q opc c) s = .next (s.answer q c.cid 0 0x01 true))

/-- A command on a namespace that passes the checks of R157 is taken in at admission; with its tokens and its room there it is admitted: a Write or
Compare fetches its data, a Flush takes the highest applied stamp, a reservation command is carried out and answered, another goes on at once; the first
check that fails answers it (R30, R141, R147, R150, R157, R190). -/
def Obligations.HostCommandsComplete : Prop :=
  (∀ (q : Nat) (c : NvmeCmd) (k : Conn) (s u : State) (row : Instr × Nat),
    row ∈ [(Instr.readCmd q c, oRead), (.writeCmd q c, oWrite), (.flushCmd q c, oFlush), (.writeZeroes q c, oWz), (.datasetManagement q c, oDsm), (.copyCmd q c, oCopy),
      (.compareCmd q c, oCompare), (.reservationRegister q c, oResReg), (.reservationAcquire q c, oResAcq), (.reservationRelease q c, oResRel), (.reservationReport q c, oResRep)] →
    s.accepts q row.2 k c → u = ((s.arrived q c).insertCmd ((s.arrived q c).takenCmd q row.2 k c)).2 →
      exec row.1 s = .next (if u.stagingFull then u.admitAll else u.tryAdmit (s.arrived q c).io.nextOp)) ∧
  (∀ (q : Nat) (c : NvmeCmd) (k : Conn) (s u : State) (row : Instr × Nat),
    row ∈ [(Instr.readCmd q c, oRead), (.writeCmd q c, oWrite), (.flushCmd q c, oFlush), (.writeZeroes q c, oWz), (.datasetManagement q c, oDsm), (.copyCmd q c, oCopy),
      (.compareCmd q c, oCompare), (.reservationRegister q c, oResReg), (.reservationAcquire q c, oResAcq), (.reservationRelease q c, oResRel), (.reservationReport q c, oResRep)] →
    aget s.io.conns q = some k → k.ctl.isSome = true → k.err = false → k.qid ≠ 0 → (s.arrived q c).check q row.2 k c = some u → exec row.1 s = .next u) ∧
  (∀ (op : Nat) (c : IoCmd) (s u v : State), aget s.io.cmds op = some c → c.stage = .waiting → s.admitting = true → s.turnedAway c = none →
    s.moveWaits c.ns c.opc = false → s.pathOn c = true → (s.wcNeed c ≠ 0 → s.shareRoom c = true ∧ s.writeRoom c = true) →
    s.bridleTake (c.slice % 4096) (opCost c.opc) (s.byteCost c) = some v → u = v.takeTurn op →
    s.tryAdmit op =
      (if c.opc = oWrite ∨ c.opc = oCompare then u.fetchData op (if c.recvd = 0 then none else some c.data)
       else if c.opc = oFlush then (u.updCmd op (fun c => { c with stage := Stage.stamped, ostamp := u.mpe.top })).settle
       else if isResv c.opc then u.reserveNow op else u.dataHere op)) ∧
  (∀ (op : Nat) (c : IoCmd) (s : State) (sct sc : Nat) (dnr : Bool) (q : Nat), aget s.io.cmds op = some c → c.stage = .waiting → s.admitting = true →
    s.turnedAway c = some (sct, sc, dnr) → c.conn = some q → s.tryAdmit op = (s.dropCmd op).answer q c.cid sct sc dnr)

/-- Commands of hosts and processes, and what is sent to them, change no register that R13's classes give software except through an error, and no
command of a port or a connection stores to memory when it reports no violation: the frame of the commands above (R136 to R142, R166). -/
def Obligations.PortFrame : Prop :=
  ∀ (i : Instr) (s t : State),
    (∃ q, i = .ecnMarkedPacket q ∨ i = .cnpReceived q ∨ i = .rateRegain q) ∨ (∃ l a b, i = Instr.priorityFlowControl l a b) ∨ i = .vcntClear ∨
      (∃ q l rc, i = Instr.rdmaCmConnect q l rc) →
    exec i s = .next t →
    t.regs = s.regs ∧ t.mem = s.mem ∧ t.flash = s.flash ∧ t.mode = s.mode ∧ t.fuses = s.fuses ∧ t.pins = s.pins ∧ t.tbs = s.tbs ∧ t.bsv = s.bsv ∧
    t.maps = s.maps ∧ t.slm = s.slm ∧ t.sec = s.sec ∧ t.bridges = s.bridges ∧ t.cpl = s.cpl ∧ t.jlk = s.jlk ∧ t.rpl = s.rpl ∧
    t.io.cmds = s.io.cmds ∧ t.io.ctls = s.io.ctls ∧ t.io.wc = s.io.wc ∧ t.io.sb = s.io.sb

/-! ## Virtual arrays and metering -/

/-- A lifecycle command of the lead that Table 5-2 allows from the slice's state, with its record journalled, moves the slice to the table's state and ends
with RESULT 0; QUIESCED follows once nothing is in flight on either head, and once the queue pairs are closed (R171, R173, R180, R182 to R188, R208). -/
def Obligations.LifecycleCompletes : Prop :=
  (∀ (h : Fin 1048576) (s u : State) (i d : Nat), s.slm.cmd = none → s.blockOn Pg.SLM = true → s.lead = true → s.slm.hseal = none → s.handleOk h = true →
    i = h.val % 4096 → d = s.sliceDesc i →
    (sdState d = 1 → s.journal [rSlice h (s.descOf i) (sdWith d 2)] = (true, u) → exec (.quiesce h) s = .next (u.slmDone 0 h)) ∧
    (sdState d = 3 ∨ sdState d = 4 → s.journal [rSlice h (s.descOf i) (sdWith d 1)] = (true, u) →
      exec (.resumeCmd h) s = .next (u.slmDone 0 h)) ∧
    (sdState d = 3 → s.journal [rSlice h (s.descOf i) (sdWith d 5)] = (true, u) → exec (.resetCmd h) s = .next ((u.resetSlice h).slmDone 0 h).settle) ∧
    (∀ t : State, sdState d = 3 → s.closeEarly i = some t → t.journal [rSlice h (s.descOf i) (sdWith d 4)] = (true, u) →
      exec (.freeze h) s = .next (u.slmDone 0 h)) ∧
    (∀ t : State, sdState d = 3 ∨ sdState d = 4 → s.attached h = [] → s.closeEarly i = some t → t.journal [rSlice h (s.descOf i) 0] = (true, u) →
      exec (.removeCmd h) s = .next ((u.resetSlice h).slmDone 0 h)) ∧
    (∀ n : Nat, n = sdWith (s.rf R.SLM.DESC.DESC % 2 ^ 126) (sdState d) → sdState d = 3 → badDesc n = false →
      s.attached h = [] → s.noResource i n = false → s.journal [rSlice h (s.descOf i) n] = (true, u) → exec (.reshape h) s = .next (u.slmDone 0 h))) ∧
  (∀ (h : Nat) (s u : State) (d : Nat), s.slm.cmd = none → s.blockOn Pg.SLM = true → s.lead = true → d = s.rf R.SLM.DESC.DESC % 2 ^ 126 → badDesc d = false → s.nextHandle = some h →
    s.noResource (h % 4096) d = false → s.journal [rSlice h (s.descOf (h % 4096)) (sdWith d 1)] = (true, u) → exec .createCmd s = .next (u.slmDone 0 h)) ∧
  (∀ (i : Fin 4096) (r : SliceRow) (s : State), s.sliceRow i = some r → s.lead = true →
    (sdState r.desc = 2 → s.inflight i = 0 → (s.mode = .solo ∨ (s.dynOf i).pInfl = some 0) →
      exec (.quiesceComplete i) s =
        .next ((s.journal [rSlice (i.val + 4096 * r.gen) r.desc (sdWith r.desc 3)]).2.updDyn i (fun d => { d with pInfl := none }))) ∧
    (∀ partner : Bool, sdState r.desc = 5 → s.pairsOf (i.val + 4096 * r.gen) = 0 → (s.mode = .solo ∨ partner = true) →
      exec (.resetComplete i partner) s = .next (s.journal [rSlice (i.val + 4096 * r.gen) r.desc (sdWith r.desc 3)]).2)) ∧
  (∀ (result h : Nat) (s : State), s.regsWf = true → result < 256 → h < 1048576 →
    (s.slmDone result h).rf R.SLM.CMD_STAT.RESULT = result ∧ (s.slmDone result h).rf R.SLM.CMD_STAT.PENDING = 0 ∧
    (s.slmDone result h).rf R.SLM.CMD_STAT.HANDLE = h ∧ (s.slmDone result h).slm.cmd = none ∧ (s.slmDone result h).maps = s.maps)

/-- While a requested change is in progress, every mode command reads BUSY and changes nothing else; a command that Table 2-5 does not allow from
the current mode reads BAD_MODE and changes nothing else; a failed requirement reads as Table 2-11 gives (R53, R54, R57). A lifecycle command that may not run answers with its result of Table 5-8 and changes no slice: while one runs, BUSY; on a head that does not lead,
NOT_LEAD; with a stale handle, STALE, counted and reported; from another state, BAD_STATE (R172, R173, Table 5-2). -/
def Obligations.CommandRefusals : Prop :=
  ((∀ (c : Instr) (s : State), s.bsv.pending = true → c ∈ [Instr.join, .handover, .stop, .enterService] → exec c s = .next (s.wf R.BSV.MODE_RESULT.RESULT 6)) ∧
  (∀ (f : Found) (s : State), s.bsv.pending = true → exec (.serveSolo f) s = .next (s.wf R.BSV.MODE_RESULT.RESULT 6)) ∧
  (∀ (s : State), s.bsv.pending = false →
    (s.mode ≠ .isolated → exec .join s = .next (s.wf R.BSV.MODE_RESULT.RESULT 2) ∧ (∀ f, exec (.serveSolo f) s = .next (s.wf R.BSV.MODE_RESULT.RESULT 2)) ∧
      exec .enterService s = .next (s.wf R.BSV.MODE_RESULT.RESULT 2)) ∧
    (s.mode ≠ .paired → exec .handover s = .next (s.wf R.BSV.MODE_RESULT.RESULT 2)) ∧
    (s.mode ≠ .solo → exec .stop s = .next (s.wf R.BSV.MODE_RESULT.RESULT 2))) ∧
  (∀ (s : State), s.bsv.pending = false → s.mode = .isolated →
    (s.witOn = false → exec .join s = .next (s.wf R.BSV.MODE_RESULT.RESULT 8) ∧ ∀ f, exec (.serveSolo f) s = .next (s.wf R.BSV.MODE_RESULT.RESULT 8)) ∧
    (s.witOn = true → s.hbRecent = false → exec .join s = .next (s.wf R.BSV.MODE_RESULT.RESULT 3)) ∧
    (s.witOn = true → s.hbRecent = true → ∀ f, exec (.serveSolo f) s = .next (s.wf R.BSV.MODE_RESULT.RESULT 4))) ∧
  (∀ (s : State), s.bsv.pending = false → s.mode = .paired → s.partnerPaired = false →
    exec .handover s = .next (s.wf R.BSV.MODE_RESULT.RESULT 3)))
  ∧ ((∀ (h : Fin 1048576) (c : Instr) (s : State), s.slm.cmd.isSome = true →
    c ∈ [Instr.createCmd, .reshape h, .quiesce h, .resumeCmd h, .removeCmd h, .freeze h, .saveCmd h, .restoreCmd, .wglStart h, .wglStop h] →
    exec c s = .next (s.wf R.SLM.CMD_STAT.RESULT 2)) ∧
  (∀ (h : Fin 1048576) (s : State), s.slm.cmd = none → s.blockOn Pg.SLM = false →
    exec (.quiesce h) s = .next (s.slmWait 19 h) ∧ exec (.wglStop h) s = .next (s.slmWait 27 h)) ∧
  (∀ (h : Fin 1048576) (s : State), s.slm.cmd = none → s.blockOn Pg.SLM = true → s.lead = false →
    (∀ c ∈ [Instr.reshape h, .quiesce h, .resumeCmd h, .removeCmd h, .freeze h, .saveCmd h], exec c s = .next (s.slmDone 8 h)) ∧
    (∀ c ∈ [Instr.createCmd, .restoreCmd], exec c s = .next (s.slmDone 8 0))) ∧
  (∀ (h : Fin 1048576) (s : State), s.slm.cmd = none → s.blockOn Pg.SLM = true → s.lead = true → s.slm.hseal = none → s.handleOk h = false →
    ∀ c ∈ [Instr.reshape h, .quiesce h, .resumeCmd h, .removeCmd h, .freeze h, .saveCmd h, .wglStart h, .wglStop h], exec c s = .next (s.staleHandle.slmDone 5 h)) ∧
  (∀ (h : Fin 1048576) (s : State), s.slm.cmd = none → s.blockOn Pg.SLM = true → s.lead = true → s.slm.hseal = none → s.handleOk h = true →
    (sdState (s.sliceDesc (h.val % 4096)) ≠ 1 → exec (.quiesce h) s = .next (s.slmDone 4 h)) ∧
    (sdState (s.sliceDesc (h.val % 4096)) ∉ [3, 4] → exec (.resumeCmd h) s = .next (s.slmDone 4 h)) ∧
    (sdState (s.sliceDesc (h.val % 4096)) ∈ [1, 2] → exec (.resetCmd h) s = .next (s.slmDone 2 h).settle) ∧
    (sdState (s.sliceDesc (h.val % 4096)) ≠ 3 → exec (.freeze h) s = .next (s.slmDone 4 h)) ∧
    (sdState (s.sliceDesc (h.val % 4096)) ≠ 4 → exec (.saveCmd h) s = .next (s.slmDone 4 h)) ∧
    (sdState (s.sliceDesc (h.val % 4096)) ∈ [3, 4] → s.attached h ≠ [] → exec (.removeCmd h) s = .next (s.slmDone 6 h))))

/-- SAVE writes the sealed blob and RESTORE journals what an intact one holds; the written-grain log is set up and stopped (R183, R198 to R200). -/
def Obligations.MigrationCompletes : Prop :=
  (∀ (h : Fin 1048576) (k : Key) (s : State), s.slm.cmd = none → s.blockOn Pg.SLM = true → s.lead = true → s.handleOk h = true →
    sdState (s.sliceDesc (h.val % 4096)) = 4 → s.gcmKey (s.rf R.SLM.MIG_KEY.KEYSLOT) = some k → k.inv + 1 < 2 ^ 32 → s.rf R.SEC.STAT.RNG ≠ 0 →
    ∃ (u : State) (blob : Bytes), exec (.saveCmd h) s = .next ((u.store (hbmBase + s.rf R.SLM.BLOB_ADDR.ADDR) blob).slmDone 0 h) ∧ u.mem = s.mem ∧
      u.maps = s.maps ∧ u.slm = s.slm ∧ blob.length = 8192 ∧ leAt blob 0 2 = 1 ∧ leAt blob 4 4 = 8192 ∧ leAt blob 24 4 = h.val) ∧
  (∀ (k : Key) (s u : State), s.slm.cmd = none → s.blockOn Pg.SLM = true → s.lead = true → s.gcmKey (s.rf R.SLM.MIG_KEY.KEYSLOT) = some k → ∀ b : Bytes,
    b = s.load (hbmBase + s.rf R.SLM.BLOB_ADDR.ADDR) 8192 → u = s.cphRan 1 →
    (gcmDec k.key (slice b 0x1C 12) (b.take 64) (slice b 0x40 0x1FB0) (slice b 0x1FF0 16) = none → exec .restoreCmd s = .next (s.cphAuth.slmDone 7 0)) ∧
    (∀ body : Bytes, gcmDec k.key (slice b 0x1C 12) (b.take 64) (slice b 0x40 0x1FB0) (slice b 0x1FF0 16) = some body →
      (leAt b 0 2 ≠ 1 → exec .restoreCmd s = .next (u.slmDone 9 0)) ∧
      (∀ (h d : Nat) (v : State), leAt b 0 2 = 1 → blobNs body = [] → u.nextHandle = some h →
        d = setFld (setFld (setFld (setFld (sdWith (leAt body 0 16 % 2 ^ 126) 4) 3 10 (sdDomain (u.rf R.SLM.DESC.DESC))) 13 13 (sdKeyslot (u.rf R.SLM.DESC.DESC)))
          26 12 (sdQueues (u.rf R.SLM.DESC.DESC))) 38 12 (sdWcshare (u.rf R.SLM.DESC.DESC)) →
        badDesc d = false → u.noResource (h % 4096) d = false → u.journal [rSlice h (u.descOf (h % 4096)) d] = (true, v) →
        ∃ t : State, exec .restoreCmd s = .next (t.slmDone 0 h) ∧ t.maps = v.maps ∧ t.io = v.io ∧ t.regs = v.regs))) ∧
  (∀ s : State, s.slm.cmd = none → s.blockOn Pg.SLM = true → s.lead = true → exec .restoreCmd s = .next s.slmRestore) ∧
  (∀ (h : Fin 1048576) (s : State), s.slm.cmd = none → s.blockOn Pg.SLM = true → s.handleOk h = true → sdState (s.sliceDesc (h.val % 4096)) ∉ [0, 5] →
    ((s.dynOf (h.val % 4096)).wgl = none → exec (.wglStart h) s = .next ((s.updDyn (h.val % 4096) (fun d =>
      { d with wgl := some { base := dramBase + s.rf R.SLM.WGL_BASE.ADDR, size := s.rf R.SLM.WGL_SIZE.ENTRIES }, wglWr := 0, wglRd := 0, wglOvf := false })).slmDone 0 h)) ∧
    exec (.wglStop h) s = .next ((s.updDyn (h.val % 4096) (fun d => { d with wgl := none })).slmDone 0 h))

/-- What SAVE writes opens again: the body of the blob, decrypted under the migration key with the nonce and the tag the blob carries, is the slice's
descriptor, balances, meter counters, registrants, bindings and namespaces (R199, R200, Table 5-3). -/
def Obligations.SavedBlobOpens : Prop :=
  ∀ (h : Fin 1048576) (k : Key) (s t : State), s.slm.cmd = none → s.blockOn Pg.SLM = true → s.lead = true → s.handleOk h = true →
    sdState (s.sliceDesc (h.val % 4096)) = 4 → s.gcmKey (s.rf R.SLM.MIG_KEY.KEYSLOT) = some k → k.inv < 2 ^ 32 → s.rf R.SEC.STAT.RNG ≠ 0 → s.memWf = true → exec (.saveCmd h) s = .next t →
    ∀ b : Bytes, b = t.load (hbmBase + s.rf R.SLM.BLOB_ADDR.ADDR) 8192 →
      gcmDec k.key (slice b 0x1C 12) (b.take 64) (slice b 0x40 0x1FB0) (slice b 0x1FF0 16) = some (s.blobBody h)

/-- Bridle makes its grants every 100 µs and the heads exchange demand, counters and in-flight counts every 1 ms; minutes are closed by the lead and their
records published in order; an entry received is held, chained and acknowledged; the sweep sets ATTR and SNAP exactly (R172, R189, R193, R203 to R207). -/
def Obligations.MeteringCompletes : Prop :=
  (∀ s : State, serving s.mode = true → s.mode ≠ .solo → s.slm.epochAt + 100000 ≤ s.estamp → exec .bridleEpoch s = .next s.epochGrant.admitAll.settle) ∧
  (∀ s : State, s.mode = .paired → s.slm.exchAt + 1000000 ≤ s.estamp →
    ∃ t, exec .partner1msExchange s = .next t ∧ t.slm.exchAt = s.estamp ∧ t.mode = .paired ∧ t.maps = s.maps ∧
      ∀ e ∈ t.slm.dyn, e.2.ops.own = sumL ((s.waitingOf e.1).map (fun c => opCost c.opc)) ∧ e.2.told = e.2.own ∧ e.2.changed = false) ∧
  (∀ (c : CHdr) (s u : State), s.cRecv cAdmin c = (true, u) →
    (∀ es : List (Nat × Nat × Nat), exec (.demand c es) s = .next (es.foldl (fun s e => s.demandOne e) u)) ∧
    (∀ es : List (Nat × Bytes), exec (.meterCnt c false es) s = .next (es.foldl (fun s e => s.meterOne e) u)) ∧
    (∀ (h a b : Nat) (m : Bytes), u.handleOk h = true →
      u.demandOne (h, a, b) = u.updDyn (h % 4096) (fun d => dynShare { d with ops := { d.ops with other := a }, byt := { d.byt with other := b } }) ∧
      u.meterOne (h, m) = u.updDyn (h % 4096) (fun d => { d with part := meterParse m })) ∧
    (∀ (h : Fin 1048576) (n : Nat), u.handleOk h = true → exec (.inflight c h n) s =
      .next (if sdState (u.sliceDesc (h.val % 4096)) = 2 ∧ u.partnerHas (u.dynOf (h.val % 4096)).qStamp = true
        then u.updDyn (h.val % 4096) (fun d => { d with pInfl := some n }) else u)) ∧
    (∀ (n : Nat) (b : Bytes), leAt b 0x14 1 = 1 → leAt b 0 8 = n → (u.handleOk (leAt b 0x18 4 % 2 ^ 20) = false → exec (.meterRec c n b) s = .next u.staleHandle) ∧
      (u.handleOk (leAt b 0x18 4 % 2 ^ 20) = true → ∃ t, exec (.meterRec c n b) s = .next t ∧ t.slm.seq = n + 1 ∧ t.slm.chain = sha256 b ∧
        t.slm.minute = max u.slm.minute (leAt b 0x1C 4) ∧ t.maps = u.maps ∧ t.mem = u.mem)) ∧
    (∀ (n : Nat) (b : Bytes), ¬(leAt b 0x14 1 = 1 ∧ leAt b 0 8 = n) → exec (.meterRec c n b) s =
      .next (State.sendC { u with slm := { u.slm with unpub := u.slm.unpub.filter (fun e => e.seq != n) ++ [{ seq := n, bytes := b, ack := true }], seq := n + 1
                                                      chain := chainAfter (u.slm.unpub.filter (fun e => e.seq != n) ++ [{ seq := n, bytes := b, ack := true }]) u.slm.chain n b } } (.meterAck n))) ∧
    (∀ n : Nat, exec (.meterAck c n) s = .next (State.publish { u with slm := { u.slm with
      unpub := u.slm.unpub.map (fun (e : MetEnt) => if e.seq = n then { e with ack := true } else e) } } (u.slm.unpub.length + 1)))) ∧
  (∀ s u : State, s.lead = true → s.slm.hseal = none → s.tbs.rtcValid = false → s.slm.minuteAt + 60000000000 ≤ s.estamp →
    (s.slm.dyn.map Prod.fst).foldl (fun (o : Option State) i => o.bind (fun t => t.closeRecord i (s.minuteNow 1).1 (s.minuteFlags ||| (128 * b2n (s.minuteNow 1).2)))) (some s) = some u →
    exec .minuteClose s = .next { u with slm := { u.slm with minute := (s.minuteNow 1).1, minuteAt := u.estamp, minFlags := 0, calStep := false } }) ∧
  (∀ (i m flags : Nat) (r : SliceRow) (d : SliceDyn) (o : Ostamp) (s u : State), s.sliceRow i = some r → aget s.slm.dyn i = some d → sdState r.desc ≠ 4 →
    s.issue Unit.slm = (some o, u) → ∃ t, s.closeRecord i m flags = some t ∧ t.slm.seq = u.slm.seq + 1 ∧
      (∃ rec : Bytes, rec = u.meterRecord o (i + 4096 * r.gen) (flags ||| d.flags) m d ∧ t.slm.chain = sha256 rec ∧
        ∃ e : SliceDyn, aget t.slm.dyn i = some e ∧ e.own = {} ∧ e.part = {} ∧ e.sprev = sha256 rec ∧ e.mseq = d.mseq + 1)) ∧
  (∀ (n : Nat) (e : MetEnt) (s : State), e ∈ s.slm.unpub → e.seq = n → e.dur = true → exec (.meterPublish n) s = .next (s.publish (s.slm.unpub.length + 1))) ∧
  (∀ s : State, serving s.mode = true → s.slm.sweepAt + max 1 (s.rf R.SLM.SWEEP_CFG.HOURS) * 3600000000000 ≤ s.estamp →
    ∃ t, exec .attributionSweep s = .next t ∧ t.slm.sweepAt = s.estamp ∧ t.regs = s.regs ∧ t.maps = s.maps ∧ t.mem = s.mem ∧
      ∀ e ∈ t.slm.dyn, bit e.2.flags 6 = true) ∧
  (∀ (last : Nat × Bytes) (o : Ostamp) (s u : State), s.lead = true → s.slm.hseal = none → (s.slm.minute + 1) % 60 = 0 → s.slm.sealed < s.slm.minute →
    s.lastRecord = some last → s.issue Unit.slm = (some o, u) → ∀ v : State, v = { u with slm := { u.slm with sealed := u.slm.minute } } → v.signCheck = 0 →
    exec .hourlySeal s = .next (State.signNext { v.dgeRan 1 with slm := { v.slm with hseal := some (v.slm.seq, v.sealHeader o last) } }))

/-! ## Write path, maps and read path -/

/-- A grain goes its way: fingerprinted under its domain's key and looked up; a candidate whose trailer matches is a hit and one that does not match is passed
over; a frame of 3,584 bytes or less is kept and a longer one stored raw; the sealed grain is placed; a segment that is full or has waited is closed, and one whose
units are durable is SEALED; an expired hit is looked up again (R220 to R226, R231 to R238, R268, R344). -/
def Obligations.WritePathCompletes : Prop :=
  (∀ (op g slot : Nat) (c : IoCmd) (x : Grain) (s : State), s.grainAt op g = some (c, x) → x.st = .digest → s.fpSlot (s.domainOf c.slice) = some slot →
    (∀ k, s.fpKey slot = some k →
      exec (.fingerprint op g) s = .next (((s.dgeRan 1).updGrain op g (fun x => { x with fp := hmac k (x.data ++ le x.tag 2) })).lookup op g).settle) ∧
    (s.fpKey slot = none → exec (.fingerprint op g) s = .next (s.dgeNoSlot.failWrite op 0 0x06 false).pumpGrains.settle)) ∧
  (∀ (op g cid : Nat) (rest : List Nat) (c : IoCmd) (x : Grain) (f : Bytes) (s : State), s.grainAt op g = some (c, x) → x.st = .confirm (cid :: rest) →
    exec (.trailerFetchDone op g (some f)) s = .next (if f = x.fp
      then (((s.cmpRan.incWrap R.ING.CNT_CAND.COUNT).incWrap R.ING.CNT_HIT.COUNT).updGrain op g (fun x => { x with st := .hit cid (s.ctRec cid).gen })).settle
      else (((s.cmpRan.incWrap R.ING.CNT_CAND.COUNT).incWrap R.ING.CNT_FALSE.COUNT).confirmHit op g rest).settle) ∧
    exec (.trailerFetchDone op g none) s = .next ((((s.inc R.ING.CNT_TFAIL.COUNT).raise Pg.ING 2).confirmHit op g rest).settle)) ∧
  (∀ (op g : Nat) (c : IoCmd) (x : Grain) (blk f : Bytes) (s : State), s.grainAt op g = some (c, x) → x.st = .compress → c.opc ≠ oAdopt → c.via = none →
    f = (if constRun x.data then zstdFrame 1 4096 (x.data.take 1) else zstdFrame 2 blk.length blk) →
    (constRun x.data = false → zstdDecode f = some (x.data, f.length)) →
    (f.length ≤ 3584 → exec (.compressDone op g blk) s = .next ((s.predict (c.slice % 4096) x.probe true).updGrain op g
      (fun x => { x with stored := padTo (cdiv f.length 16 * 16) f, raw := false, st := .sealing }))) ∧
    (3584 < f.length → exec (.compressDone op g blk) s = .next (((s.predict (c.slice % 4096) x.probe false).incWrap R.ING.CNT_RAW.COUNT).updGrain op g
      (fun x => { x with stored := x.data, raw := true, st := .sealing })))) ∧
  (∀ (op g : Nat) (c : IoCmd) (x : Grain) (s : State), s.grainAt op g = some (c, x) → x.st = .sealing →
    (∀ k, s.xtsKey (s.cmdKey c) = some k → exec (.grainEncryptDone op g) s =
      .next (((s.cphRan 2).updGrain op g (fun y => { y with hdr := sealRecord k x.cid (checkField x.crc x.cid x.gen x.tag) x.stored })).placeGrain op g)) ∧
    (s.xtsKey (s.cmdKey c) = none → exec (.grainEncryptDone op g) s = .next (s.cphNoSlot.failWrite op 0 0x06 false).pumpGrains.settle)) ∧
  (∀ (seg : Fin 33554432) (o : OpenSeg) (t0 : Nat) (s : State), aget s.sgb.opens seg = some o → o.closed = false → o.recs ≠ [] → o.oldest = some t0 →
    t0 + (if s.mode = .solo then 20000 else 1000000) ≤ s.now → exec (.segmentSeal seg) s = .next (s.closeSeg seg)) ∧
  (∀ (seg : Fin 33554432) (o : OpenSeg) (s u : State), aget s.sgb.opens seg = some o → o.issued = true → o.fold = false →
    (∀ k < (s.seg seg).d + 2, k ∈ o.durable) → o.absent = [] → (s.mirrors = false ∨ o.ptSeq ≤ s.fmm.ptAck) →
    (s.seg seg).kind ≠ 4 → s.journal [rSegState seg (s.seg seg).gen (s.seg seg).kind 1 2, rDirty seg true false] = (true, u) → ∀ v : State,
    v = State.chunksDone { u with sgb := { u.sgb with opens := adel u.sgb.opens seg } } seg true → exec (.segmentDurable seg) s = .next (v.wcRelease v.wcDone).settle) ∧
  (∀ (op : Nat) (c : IoCmd) (s : State), aget s.io.cmds op = some c → c.stage = .active → s.hitsExpired c = true →
    exec (.hitExpiry op) s = .next (s.retryCmd op).settle)

/-- A snapshot command that may run journals its record and reads 0; one that may not reads its result of Table 7-4; a second reads BUSY. A due pin or free record
is issued by its owner; a map page is asked for and replaced, or rebuilt in SOLO; a checkpoint begins at the highest applied stamp and ends once covered; the
lead journals a namespace's descriptor (R258, R265, R270, R271, R277, R279, R285 to R289, R716). -/
def Obligations.MapsComplete : Prop :=
  (∀ (ns : Fin 65536) (n : Ns) (s u : State), s.flag R.MPE.SNAP_STAT.PENDING = false → s.blockOn Pg.MPE = true → s.nsOf ns = some n → s.moveHolds ns = false →
    (s.snapCheck 1 ns (s.rf R.MPE.SNAP_ARG.EPOCH) = 0 → s.journal [rEpoch ns n.epoch] = (true, u) → exec (.snapCreate ns) s = .next (u.snapDone 0).releaseAll) ∧
    (∀ e, e = s.rf R.MPE.SNAP_ARG.EPOCH → s.snapCheck 2 ns e = 0 → s.journal [rMapPage ns (pageIx 0xF e) (agetD n.slots e 0) 0] = (true, u) →
      exec (.snapDelete ns) s = .next (u.snapDone 0).releaseAll)) ∧
  (∀ (ns : Fin 65536) (s : State),
    (s.flag R.MPE.SNAP_STAT.PENDING = true → exec (.snapCreate ns) s = .next (s.wf R.MPE.SNAP_STAT.RESULT 5) ∧ exec (.snapDelete ns) s = .next (s.wf R.MPE.SNAP_STAT.RESULT 5)) ∧
    (s.flag R.MPE.SNAP_STAT.PENDING = false → s.blockOn Pg.MPE = true → s.nsOf ns = none → exec (.snapCreate ns) s = .next (s.snapDone 6) ∧ exec (.snapDelete ns) s = .next (s.snapDone 6))) ∧
  (∀ (cid : Fin 274877906944) (s u : State), cid.val ∈ s.mpe.pins → ctFree (s.ctRec cid) = false → (s.ctRec cid).pinned = false → s.ownsRec (s.ctRec cid) = true →
    s.journal [rCtLoc cid (s.ctRec cid).loc (s.ctRec cid).loc] = (true, u) →
    exec (.pinRecord cid) s = .next { u with mpe := { u.mpe with pins := u.mpe.pins.filter (fun x => x != cid.val) } }) ∧
  (∀ (cid : Fin 274877906944) (w : FreeWait) (s u : State), s.mpe.frees.find? (fun w => w.cid == cid.val) = some w → s.mode = .solo → ctFree (s.ctRec cid) = false →
    (s.ctRec cid).ref = 0 → (s.ctRec cid).pinned = false → s.ownsRec (s.ctRec cid) = true → phys w.z + 1000000 < s.estamp →
    s.journal [rCtFree cid (s.ctRec cid).gen] = (true, u) → exec (.ctFreeIssue cid) s = .next (u.incWrap R.MPE.CNT_FREE.COUNT)) ∧
  (∀ (h : CHdr) (ns : Fin 65536) (pix : Fin 281474976710656) (s u : State), s.cRecv cAdmin h = (true, u) →
    exec (.pageReq h ns pix) s = .next (u.sendC (.admin h.atag (.pageRsp ns pix (pageEnts u.maps ns pix))))) ∧
  (∀ (h : CHdr) (ns : Fin 65536) (pix : Fin 281474976710656) (st : Fin 256) (ents : List (Nat × Nat)) (s u : State), s.cAnswer h = (true, u) →
    exec (.pageRsp h ns pix st ents) s = .next (if st = 0
      then u.replacePage ns pix (ents.foldl (fun (m : AMap Nat) e => sput (fun _ => 0) m (e.1 % 512) e.2) []) else u)) ∧
  (∀ (ns : Fin 65536) (pix : Fin 281474976710656) (s : State), s.mode = .solo → (ns.val + pix.val * 65536) ∈ s.mpe.badPages →
    exec (.mapPageRebuildDone ns pix) s =
      .next (State.replacePage { s with mpe := { s.mpe with badPages := s.mpe.badPages.filter (fun k => k != ns.val + pix.val * 65536) } } ns pix (pageEnts (s.replica s.mpe.top) ns pix))) ∧
  (∀ s : State, s.regsWf = true → s.lead = true → serving s.mode = true → s.mpe.ckAt + s.rf R.MPE.CKPT_CFG.PERIOD * 1000000000 ≤ s.estamp → s.mpe.ckRun = none → s.ctBitsOk = true → s.blockOn Pg.MPE = true →
    ∃ t : State, exec .checkpointStart s = .next t.ckptPump ∧ t.rf R.MPE.CKPT_STAT.RUNNING = 1 ∧ t.mpe.ckAt = s.estamp ∧ t.maps = s.maps ∧ t.mem = s.mem ∧
      t.mpe.ckRun = some { number := s.rf R.MPE.CKPT_STAT.NUMBER + 1, covered := s.mpe.top }) ∧
  (∀ (ok : Bool) (s : State), s.mpe.ckRun.isSome = true → (ok = false ∨ s.ckptWritten = false) → exec (.checkpointComplete ok) s = .next s.ckptPump) ∧
  (∀ (k : Ckpt) (s u : State), s.mpe.ckRun = some k → s.ckptWritten = true → k.covered ≤ s.coveredNow → s.journal [rCheckpoint k.number k.covered] = (true, u) →
    exec (.checkpointComplete true) s =
      .next ((State.unholdGroups { (u.wf R.MPE.CKPT_STAT.RUNNING 0) with mpe := { u.mpe with ckRun := none } }).ckptAdopt k.number k.covered u.mpe.dir)) ∧
  (∀ (ns : Fin 65536) (d : BitVec 128) (e : Fin 4294967296) (s u : State), s.lead = true → (nsDec d.toNat).view = false →
    s.journal [rNs ns (agetD s.maps.nss ns {}).desc (nsDec d.toNat)] = (true, u) → exec (.namespaceManagement ns d e) s = .next u.releaseAll)

/-- The map cache: INVALIDATE and PRELOAD are accepted only in the states Table 7-5 gives and otherwise ignored; EN = 1 without a finished invalidation
is refused and reported; DISABLE drains and counts the dirty lines; LOCK takes preloaded ways only (R293 to R296). -/
def Obligations.MapCacheCompletes : Prop :=
  (∀ s : State, s.regsWf = true → s.rf R.MPC.STATE.STATE = mpcOff → s.flag R.MPC.STATE.BUSY = false →
    ∃ t, exec .mpcInvalidate s = .next t ∧ t.rf R.MPC.STATE.STATE = mpcInvalidating ∧ t.rf R.MPC.STATE.BUSY = 1 ∧ t.rf R.MPC.PRELOADED.WAYS = 0 ∧
      t.rf R.MPC.LOCK.WAYS = 0 ∧ t.mpc = s.mpc) ∧
  (∀ s : State, s.rf R.MPC.STATE.STATE ≠ mpcOff ∨ s.flag R.MPC.STATE.BUSY = true → exec .mpcInvalidate s = .next s) ∧
  (∀ s : State, s.regsWf = true → s.rf R.MPC.STATE.STATE = mpcInvalidating →
    ∃ t, exec .mpcInvalidateDone s = .next t ∧ t.rf R.MPC.STATE.STATE = mpcOff ∧ t.rf R.MPC.STATE.BUSY = 0 ∧ t.rf R.MPC.STATE.INV_DONE = 1 ∧
      t.mpc.lines = [] ∧ t.mem = s.mem) ∧
  (∀ (way : Fin 16) (s : State), s.rf R.MPC.STATE.STATE = mpcOn → s.flag R.MPC.STATE.BUSY = false → way.val < 12 →
    ∃ t, exec (.mpcPreload way) s = .next t ∧ t.regs = (s.wf R.MPC.STATE.BUSY 1).regs ∧
      t.mpc.preload = some (way.val, s.rf R.MPC.PRELOAD_ADDR.ADDR / 64 * 64, min (s.rf R.MPC.PRELOAD_LEN.BYTES / 64 * 64) 8388608)) ∧
  (∀ (way : Fin 16) (s : State), s.rf R.MPC.STATE.STATE ≠ mpcOn ∨ s.flag R.MPC.STATE.BUSY = true ∨ 12 ≤ way.val → exec (.mpcPreload way) s = .next s) ∧
  (∀ (way addr len : Nat) (s : State), s.regsWf = true → s.mpc.preload = some (way, addr, len) → way < 12 →
    ∃ t, exec .mpcPreloadDone s = .next t ∧ bit (t.rf R.MPC.PRELOADED.WAYS) way = true ∧ t.rf R.MPC.STATE.BUSY = 0 ∧ t.mpc.preload = none) ∧
  (∀ s : State, s.rf R.MPC.STATE.STATE = mpcOff →
    (s.flag R.MPC.STATE.INV_DONE = true → exec .mpcEnable s = .next ((s.wf R.MPC.STATE.STATE mpcOn).wf R.MPC.CACHE.EN 1)) ∧
    (s.flag R.MPC.STATE.INV_DONE = false → exec .mpcEnable s = .next ((s.wf R.MPC.STATE.ENABLE_NO_INV 1).raise Pg.MPC 3))) ∧
  (∀ s : State, s.rf R.MPC.STATE.STATE = mpcOn →
    exec .mpcDisable s = .next { (s.wf R.MPC.STATE.STATE mpcDraining).wf R.MPC.CACHE.EN 0 with
      mpc := { s.mpc with drained := (s.mpc.lines.filter (fun e => e.2.2)).length } }) ∧
  (∀ s : State, s.regsWf = true → s.rf R.MPC.STATE.STATE = mpcDraining →
    ∃ t, exec .mpcDrainComplete s = .next t ∧ t.rf R.MPC.STATE.STATE = mpcOff ∧ t.rf R.MPC.DRAIN_COUNT.LINES = s.mpc.drained % 2 ^ R.MPC.DRAIN_COUNT.LINES.w ∧
      t.mpc.lines = []) ∧
  (∀ (v : BitVec 12) (s : State), (∀ w < 12, v.getLsbD w = true → bit (s.rf R.MPC.PRELOADED.WAYS) w = true) → popcount v.toNat 12 ≤ 8 →
    exec (.mpcLockWrite v) s = .next (s.wf R.MPC.LOCK.WAYS v.toNat)) ∧
  (∀ (v : BitVec 12) (s : State), (∃ w < 12, v.getLsbD w = true ∧ bit (s.rf R.MPC.PRELOADED.WAYS) w = false) → ∃ n : Nat,
    exec (.mpcLockWrite v) s = .next (((s.wf R.MPC.LOCK.WAYS n).wf R.MPC.STATE.LOCK_NO_PRELOAD 1).raise Pg.MPC 3) ∧
    ∀ w < 12, bit n w = true → v.getLsbD w = true ∧ bit (s.rf R.MPC.PRELOADED.WAYS) w = true) ∧
  (∀ s : State, s.mpc.windowAt + 1000000 ≤ s.now →
    exec .mpcHotWindow s = .next { s with mpc := { s.mpc with evict := [], logged := [], windowAt := s.now } })

/-- Acknowledged data leaves read staging; a grain the transport must send again is sent from its buffer, or read again with the CID first captured once its
buffer is gone; held codewords go on as buffers free (R307, R319). -/
def Obligations.ReadPathCompletes : Prop :=
  (∀ (q cid upto : Nat) (s : State), exec (.hostDataAck q cid upto) s =
    .next { s with io := { s.io with unack := s.io.unack.filter (fun u => !(u.conn == q && u.cid == cid && decide (u.off + (if s.lbafOf u.ns = 1 then u.g.nsec * 512 else wireBlock (s.lbafOf u.ns) u.pract) ≤ upto))) } }) ∧
  (∀ (q cid off : Nat) (u : Unack) (s : State), s.io.unack.find? (fun u => u.conn == q && u.cid == cid && u.off == off) = some u →
    (u.rel = false → exec (.tcpRetransmit q cid off) s = .next (s.sendData q cid off (wireGrain (s.lbafOf u.ns) u.base u.pract u.g).2)) ∧
    (u.rel = true → ∃ (v : State) (c : IoCmd), exec (.tcpRetransmit q cid off) s =
        .next ((if u.g.loc = 0 then v.readGrain s.io.nextOp 0 else v.readRec s.io.nextOp 0 u.g.cid).afterRead s.io.nextOp) ∧
      v = { s with io := { s.io with cmds := aset s.io.cmds s.io.nextOp c, nextOp := s.io.nextOp + 1 } } ∧ c.conn = none ∧ c.opc = oReread ∧ c.stage = .active ∧
      c.reads.map (fun g => (g.cid, g.gi)) = [(u.g.cid, u.g.gi)])) ∧
  (∀ s : State, exec .stagingBufferFree s = .next (s.unhold (s.jlk.held.length + 1)).settle) ∧
  (∀ (k : Nat) (h : Held) (l : List Held) (s : State), s.jlk.held = h :: l → s.stagingFor h.req.why = true →
    s.unhold (k + 1) = State.unhold ((State.freeCred { s with jlk := { s.jlk with held := l } } h.pos h.cred).stageRead h.pos h.req h.cws) k)

/-! ## Layout, media and bridges -/

/-- A layout command whose checks of Table 9-9 pass writes its descriptor as a chunk and is pending until the LAYOUT record that installs it is issued; one whose
checks fail reads the first failing code; a second reads BUSY. An absent member retires after its grace; a finished reshape and a finished rebuild advance the descriptor; lost grains are walked; a unit is rebuilt at its home
(R327, R330, R360 to R366, R370 to R373). -/
def Obligations.LayoutCompletes : Prop :=
  (∀ (pool : Fin 4) (module : Fin 64) (peer : BitVec 64) (s : State), s.sgb.cmd = none →
    ∀ row ∈ [(Instr.createPool pool peer, 1, 0, peer.toNat), (.layoutReshape pool peer, 2, 0, peer.toNat), (.retire pool module, 3, module.val, 0)],
      (∀ code, s.layCheck row.2.1 pool row.2.2.1 row.2.2.2 = code → code ≠ 0 → exec row.1 s = .next (s.layResult code)) ∧
      (s.layCheck row.2.1 pool row.2.2.1 row.2.2.2 = 0 → s.sgb.job.isSome = true ∨ s.blockOn Pg.SGB = false →
        exec row.1 s = .next (s.layPend (heldOp row.2.1 (s.blockOn Pg.SGB)) pool row.2.2.1)) ∧
      (s.layCheck row.2.1 pool row.2.2.1 row.2.2.2 = 0 → s.sgb.job = none → s.blockOn Pg.SGB = true →
        exec row.1 s = .next (match s.layPrep row.2.1 pool row.2.2.1 with
          | (.inl code, u) => u.layResult code
          | (.inr j, u) => (u.layPend row.2.1 pool row.2.2.1).layStart j))) ∧
  (∀ (j : LayJob) (s u : State), s.sgb.job = some j →
    (s.layDurable j = false → s.layStep = s) ∧
    (s.layDurable j = true → s.layEnd j = some u → s.layStep = if j.op ≤ 3 then u.layResult 0 else u)) ∧
  (∀ (pool : Fin 4) (module : Fin 64) (peer : BitVec 64) (s : State), s.sgb.cmd.isSome = true →
    ∀ c ∈ [Instr.createPool pool peer, .layoutReshape pool peer, .retire pool module], exec c s = .next (s.wf R.SGB.LAY_STAT.RESULT 2)) ∧
  (∀ (module : Fin 64) (pa : Bool) (pool : Nat) (p : Pool) (s : State), s.maps.pools.find? (fun e => bit e.2.members module) = some (pool, p) → s.lead = true →
    s.graceOver module = true → (s.mode = .solo ∨ pa = true) → p.retired.length < 63 → s.sgb.job = none →
    exec (.retireGraceExpiry module pa) s = .next (s.layStart { op := 4, pool := pool, module := module, old := p.laygen
                                                                desc := { p with laygen := (p.laygen + 1) % 65536, retired := p.retired ++ [module.val], members := setBit p.members module false } })) ∧
  (∀ (pool : Fin 4) (p : Pool) (b : Base) (s : State), aget s.maps.pools pool = some p → p.baseOld = some b → s.lead = true → s.sgb.job = none →
    (∀ e ∈ s.maps.segs, ¬(e.2.state ≠ 0 ∧ e.2.pool = pool.val ∧ e.2.basegen = b.basegen ∧ e.2.kind ≠ 1 ∧ e.2.kind ≠ 2)) →
    exec (.reshapeComplete pool) s = .next (s.layStart { op := 5, pool := pool, old := p.laygen, desc :=
      { p with laygen := (p.laygen + 1) % 65536, baseOld := none, members := p.members &&& p.baseNew.mask, retired := p.retired.filter (fun m => bit p.baseNew.mask m)
               rebuilt := p.rebuilt - ((p.retired.take p.rebuilt).filter (fun m => !bit p.baseNew.mask m)).length } })) ∧
  (∀ (pool : Fin 4) (p : Pool) (s : State), aget s.maps.pools pool = some p → s.lead = true → s.sgb.job = none → p.rebuilt < p.retired.length →
    (∀ e ∈ s.maps.segs, e.2.pool = pool.val → ∀ b, baseOf p e.2.basegen = some b → ∀ k ∈ affected p b e.2.row p.rebuilt, k ∉ s.missing e.1) →
    exec (.rebuiltAdvance pool) s =
      .next (s.layStart { op := 6, pool := pool, old := p.laygen, desc := { p with laygen := (p.laygen + 1) % 65536, rebuilt := p.rebuilt + 1 } })) ∧
  (∀ s : State, ∃ t, exec .lostGrainWalk s = .next t ∧ (s.rbe.walks = [] → t = { s with rbe := { s.rbe with walks := [] } })) ∧
  (∀ (seg : Fin 33554432) (unit : Fin 18) (got : List (Nat × Bytes)) (m : Nat) (l : List (Nat × Nat)) (s : State), s.rebuildList = (seg.val, unit.val) :: l →
    (s.segHomes (s.seg seg))[unit.val]? = some (some m) → s.mayProgram = true → s.blockOn Pg.RBE = true → ∃ (u : State) (data : List Bytes),
    exec (.unitRebuild seg unit got) s = .next (match u.progUnit m seg unit data true (.move (ptKey m seg 0 0) 1) with | some (_, v) => v | none => u) ∧
    data.length = if (s.seg seg).isFold then 4 else 1)

/-- The members of a row in order are the base's modules, each once, so that no two units of a segment share a module before any retires (R329). Retired modules hold no unit: whatever has retired, no home of a row names a retired module, and no two homes name one module (R329, R360). -/
def Obligations.RowsAndHomes : Prop :=
  (∀ (b : Base) (row : Nat), (rowPerm b row).Perm (onesBelow b.mask 64) ∧ (rowPerm b row).Nodup ∧
    ∀ p : Pool, p.retired = [] → homesOf p b row = ((rowPerm b row).take (b.d + 2)).map some)
  ∧ (∀ (p : Pool) (b : Base) (row m : Nat), (some m ∈ homesOf p b row → m ∉ p.retired ∧ bit b.mask m = true) ∧
    ∀ i j : Nat, i < j → (homesOf p b row)[i]? = some (some m) → (homesOf p b row)[j]? ≠ some (some m))

/-- The owner opens a segment on present homes with room; a segment to be collected drains, its live records are placed again and their CT_LOCs follow once
the destination is SEALED; a quad folds into one QLC segment; blocks nothing needs are erased; units move and are patrolled; die records are written
(R343, R347, R384, R389, R393 to R406, R410). -/
def Obligations.MediaCompletes : Prop :=
  (∀ (seg : Fin 33554432) (pool : Fin 4) (row : Fin 4096) (away : BitVec 64) (p : Pool) (s w : State), w = { s with fmm := { s.fmm with pAway := away.toNat } } →
    aget s.maps.pools pool = some p → w.mayOpen seg = true → w.rowOpen p row = true →
    ((∃ c ∈ s.mpe.ckTodo, c.1 = pool.val) → exec (.segmentOpen seg pool row away) s = .next (w.chunkSeg seg pool row)) ∧
    (∀ u v : State, (∀ c ∈ s.mpe.ckTodo, c.1 ≠ pool.val) → (s.sgb.opens.filter (fun e => !e.2.closed && e.2.recs.isEmpty)).length < max 1 (s.rf R.SGB.CFG.PREOPEN) →
      w.journal [rSegState seg (s.seg seg).gen 0 0 1, rDirty seg false true] = (true, u) →
      v = u.setSeg seg { u.seg seg with pool := pool, d := p.baseNew.d, basegen := p.baseNew.basegen, row := row } →
      exec (.segmentOpen seg pool row away) s = .next (State.replaceStray { v with sgb := { v.sgb with opens := aset v.sgb.opens seg {} } }).pumpPlace)) ∧
  (∀ (seg : Fin 33554432) (recs : List Placed) (s u : State), s.collectable seg = true → s.blockOn Pg.FMM = true →
    u = (if (s.seg seg).state = 6 then s else s.segTo seg 6) → (u.seg seg).state = 6 →
    exec (.gcStart seg recs) s = .next ((if (u.seg seg).kind = 4 then u.chunkAgain seg else u.replace seg recs).retireIfDrained seg)) ∧
  (∀ (seg : Fin 33554432) (r : Reloc) (s u : State), (s.seg seg).state = 2 → s.sgb.reloc.filter (fun r => locSeg r.dst == seg.val) = [r] → ctFree (s.ctRec r.cid) = false →
    (s.ctRec r.cid).gen = r.gen → (s.ctRec r.cid).loc = r.src → s.journal [rCtLoc r.cid r.src r.dst] = (true, u) → ∀ v w : State, v = u.incWrap R.FMM.CNT_RELOC.COUNT →
    w = { v with sgb := { v.sgb with reloc := v.sgb.reloc.filter (fun x => x != r) } } →
    exec (.gcRelocateCommit seg) s = .next ((w.retireIfDrained (locSeg r.src)).wcRelease w.wcDone).settle) ∧
  (∀ (q0 q1 q2 q3 new : Fin 33554432) (got : List (Nat × Bytes)) (s u : State), s.quadOk [q0, q1, q2, q3] = true → (s.seg new).state = 0 → new.val ≠ 0 →
    (s.mode = .solo ∨ new.val % 2 = s.head) → s.mayProgram = true → s.blockOn Pg.FMM = true → s.dirtySegs < s.rf R.SGB.CFG.MAX_DIRTY →
    (∀ k t c, k < (s.seg q0).d + 2 → t < 4 → c < 16 → (aget got (cwKey k t c)).isSome = true) →
    s.journal [rSegState new (s.seg new).gen (s.seg q0).kind 0 1, rDirty new false true] = (true, u) → ∃ v : State,
    exec (.foldStart q0 q1 q2 q3 new got) s = .next v.pumpSegs ∧ (v.seg new).isFold = true ∧ (v.seg new).sources = [q0.val, q1, q2, q3] ∧
    ∃ o : OpenSeg, aget v.sgb.opens new = some o ∧ o.fold = true ∧ o.closed = true ∧ o.tiles.length = (s.seg q0).d + 2) ∧
  (∀ (seg : Fin 33554432) (o : OpenSeg) (s : State), aget s.sgb.opens seg = some o → o.fold = true → o.issued = true → (s.mirrors = false ∨ o.ptSeq ≤ s.fmm.ptAck) →
    (∀ k < (s.seg seg).d + 2, k ∈ o.durable ∨ k ∈ o.absent) →
    (o.absent ≠ [] → exec (.foldUnitsDurable seg) s = .next (s.foldAbort seg o.absent.length)) ∧
    (o.absent = [] → exec (.foldUnitsDurable seg) s = .next (s.foldSeal seg)) ∧
    (∀ u : State, o.absent = [] → (∀ e ∈ s.maps.ct, locSeg e.2.loc ∉ (s.seg seg).sources) → (s.seg seg).kind ≠ 4 → s.mpe.dir = [] → s.journal ([rSegState seg (s.seg seg).gen (s.seg seg).kind 1 3, rDirty seg true false] ++
        (s.seg seg).sources.map (fun q => rSegState q (s.seg q).gen (s.seg q).kind 2 4)) = (true, u) →
      exec (.foldUnitsDurable seg) s = .next (State.incWrap { u with sgb := { u.sgb with opens := adel u.sgb.opens seg } } R.FMM.CNT_FOLD.COUNT))) ∧
  (∀ (seg : Fin 33554432) (s : State), (s.seg seg).state = 4 → s.ownsSeg seg = true → (s.seg seg).valid = 0 → (s.seg seg).kind ≠ 4 →
    (∀ e ∈ s.maps.ct, ¬(locSeg e.2.loc = seg.val ∧ ctFree e.2 = false)) → exec (.foldRetireSource seg) s = .next (s.segTo seg 7)) ∧
  (∀ (m die : Fin 64) (block : Fin 8192) (k : Nat) (s : State), k = btKey m die block → s.mayProgram = true → serving s.mode = true → die.val ∈ s.ownDies m →
    ((s.blk k).state = 3 ∨ (s.blk k).state = 4) → (∀ n ∈ s.unitsIn m die block, (s.seg n).state = 0) → (s.mirrors = false ∨ s.fmm.ptSeq ≤ s.fmm.ptAck) →
    (s.blk k).outRd = 0 → (s.blk k).erasing = false → s.absent m = false → ∀ (o : Ostamp) (u : State) (a : Nat), s.issue (Unit.fmm (m.val / 16)) = (some o, u) →
    a = addrWord block 0 0 0 0 false 0 0 0 → exec (.blockEraseIssue m die block) s = .next ((u.setBlk k { s.blk k with erasing := true }).jReq m opErase die a 0 [le a 8] (.erase die block))) ∧
  (∀ (m : Fin 64) (seg : Fin 33554432) (got : List (Nat × Bytes)) (unit e : Nat) (s : State), s.unitOn seg m = some unit →
    e = agetD s.fmm.pt (ptKey m seg 0 0) 0 → ptValid e = true → ptDie e ∈ s.ownDies m → s.absent m = false → s.moveCause m (ptDie e) (ptBlock e) = true → s.jlk.reqs = [] →
    (∀ i < (if (s.seg seg).isFold then 4 else 1) * 16, (aget got i).isSome = true) → ∃ data : List Bytes,
    exec (.pageMove m seg got) s = .next (match s.progUnit m seg unit data false (.move (ptKey m seg 0 0) 0) with | some (_, v) => v | none => s) ∧ data.length = if (s.seg seg).isFold then 4 else 1) ∧
  (∀ (m : Fin 64) (seg : Fin 33554432) (tile plane : Fin 4) (e : Nat) (x : Mod) (s : State), e = agetD s.fmm.pt (ptKey m seg tile plane) 0 → ptValid e = true →
    s.absent m = false → ptDie e ∈ s.ownDies m → aget s.fmm.mods m = some x → aget x.patrol (ptKey 0 seg tile plane) = none → ∃ v : State,
    exec (.patrolRead m seg tile plane true) s = .next v ∧
    exec (.patrolRead m seg tile plane false) s = .next (((v.inc R.FMM.CNT_PATROL_UNREC.COUNT).ptClear m seg).raise Pg.FMM 2) ∧ v.maps = s.maps ∧ v.regs = (s.noteRead m e).regs) ∧
  (∀ (m die : Fin 64) (s : State), die.val ∈ s.ownDies m → s.absent m = false → s.mayProgram = true → exec (.dieRecordWrite m die) s = .next (s.writeDieRecord m die))

/-- A bridge takes a request whose TAG is free: a read waits for its die, whose erase it suspends from version 2.0; a program waits for all its pages; an erase waits;
a program or erase starts only on a die the port's head owns and in wordline order; the end of an operation is answered; status, parameters, claims and the
witness registers are answered (R432, R439, R443 to R448, R450, Table 11-12). -/
def Obligations.BridgeCompletes : Prop :=
  (∀ (m : Fin 64) (port : Fin 2) (h : JHdr) (tag : Fin 4096) (tgen : Fin 16) (die : Fin 4096) (addr : BitVec 64) (s u : State),
    s.bTake m port h tag tgen die opRead = (true, u) →
    (dieOk (u.bridge m) die = false → exec (.jonanRead m port h tag tgen die addr) s =
      .next ((u.freeCred (portEnd m port) h.got).bAnswer m port tag tgen die opRead stBadDie 0 [])) ∧
    (dieOk (u.bridge m) die = true → addrBlock addr.toNat < (u.bridge m).blocks → (addrQlc addr.toNat = true ∨ addrPage addr.toNat < 64) →
      (2 ≤ (u.linkEnd (portEnd m port)).ver ∨ fld addr.toNat 32 8 = 0) → (u.bridge m).ops = [] →
      exec (.jonanRead m port h tag tgen die addr) s =
        .next (u.setBridge m { u.bridge m with ops := [{ port := port, tag := tag, tgen := tgen, op := opRead, die := die, addr := addr.toNat, started := true, cred := h.got }] }))) ∧
  (∀ (m : Fin 64) (port : Fin 2) (h : JHdr) (tag : Fin 4096) (tgen : Fin 16) (die : Fin 4096) (addr : BitVec 64) (page : Bytes) (s u v : State),
    (s.bridge m).ops = [] → s.bTake m port h tag tgen die opProgram = (true, u) → v = u.freeCred (portEnd m port) h.got → bit (v.bridge m).flags 2 = false →
    dieOk (v.bridge m) die = true → addrBlock addr.toNat < (v.bridge m).blocks → page.length = 18560 → addrQlc addr.toNat = false → addrPage addr.toNat < 64 →
    fld addr.toNat 44 4 = 0 → fld addr.toNat 40 4 = fld addr.toNat 21 2 →
    exec (.jonanProgram m port h tag tgen die addr page) s =
      .next (v.setBridge m { v.bridge m with ops := (v.bridge m).ops ++ [{ port := port, tag := tag, tgen := tgen, op := opProgram, die := die, addr := addr.toNat, want := 1 }] })) ∧
  (∀ (m : Fin 64) (port : Fin 2) (h : JHdr) (tag : Fin 4096) (tgen : Fin 16) (die : Fin 4096) (addr : BitVec 64) (s u v : State),
    s.bTake m port h tag tgen die opErase = (true, u) → v = u.freeCred (portEnd m port) h.got → bit (v.bridge m).flags 2 = false → dieOk (v.bridge m) die = true →
    addrBlock addr.toNat < (v.bridge m).blocks → exec (.jonanErase m port h tag tgen die addr) s =
      .next (v.setBridge m { v.bridge m with ops := (v.bridge m).ops ++ [{ port := port, tag := tag, tgen := tgen, op := opErase, die := die, addr := addr.toNat }] })) ∧
  (∀ (m : Fin 64) (port : Fin 2) (tag : Fin 4096) (o : BOp) (b : Bridge) (s : State), b = s.bridge m →
    b.ops.find? (fun o => o.port == port.val && o.tag == tag.val && !o.started && (o.op == opProgram || o.op == opErase)) = some o → o.want ≤ o.pages →
    (∀ x ∈ b.ops, x.started = true → x.die = o.die → x = o ∨ x.op = opClaim) →
    (ownerOf b o.die ≠ s.portHead m port → exec (.bridgeOpStart m port tag) s =
      .next ((s.setBridge m { b with ops := b.ops.filter (fun x => x != o) }).bAnswer m o.port o.tag o.tgen o.die o.op stOwner 0 [])) ∧
    (ownerOf b o.die = s.portHead m port → o.op = opErase → exec (.bridgeOpStart m port tag) s =
      .next (s.setBridge m { b with ops := b.ops.map (fun x => if x == o then { x with started := true } else x), wl := adel b.wl (o.die * 8192 + addrBlock o.addr) }))) ∧
  (∀ (m : Fin 64) (port : Fin 2) (tag : Fin 4096) (o : BOp) (b : Bridge) (status : Fin 256) (data : Bytes) (s : State), b = s.bridge m → b.ops = [o] → o.port = port.val →
    o.tag = tag.val → o.started = true → o.op = opErase → exec (.dieOperationDone m port tag status data) s = .next (State.answerClaims
      ((s.setBridge m { b with ops := [], failed := if status.val = stDieFail ∧ !b.failed.contains o.die then b.failed ++ [o.die] else b.failed }).bAnswer
        m o.port o.tag o.tgen o.die o.op status 0 []) m)) ∧
  (∀ (m : Fin 64) (port : Fin 2) (h : JHdr) (tag : Fin 4096) (tgen : Fin 16) (s u v : State),
    (∀ die : Fin 4096, s.bTake m port h tag tgen die opStatus = (true, u) → v = u.freeCred (portEnd m port) h.got → die.val < (v.bridge m).dies → die.val ≠ 0xFFF →
      exec (.jonanStatus m port h tag tgen die) s = .next (v.bAnswer m port tag tgen die opStatus stOk 0 (le (cgenOf (v.bridge m) die) 4 ++
        le (ownerOf (v.bridge m) die + 4 * b2n ((v.bridge m).ops.any (fun o => o.die == die.val && o.started)) + 8 * b2n ((v.bridge m).failed.contains die)) 1 ++ zeros 3))) ∧
    (∀ die : Fin 4096, s.bTake m port h tag tgen die opParam = (true, u) → v = u.freeCred (portEnd m port) h.got →
      exec (.paramCmd m port h tag tgen die 0) s = .next (v.bAnswer m port tag tgen die opParam stOk 0 (v.paramPage m die 0))) ∧
    (∀ (gen : BitVec 32) (mask : BitVec 64) (rel : Bool), s.bTake m port h tag tgen 0xFFF opClaim = (true, u) → v = u.freeCred (portEnd m port) h.got →
      claimOk (v.bridge m) (v.portHead m port) gen.toNat rel (namedDies (v.bridge m) mask.toNat) = true → ∃ t : State,
      exec (if rel then .claimRelease m port h tag tgen gen mask else .claim m port h tag tgen gen mask) s = .next t ∧
      (t.bridge m).owner = (claimSet (v.bridge m) (v.portHead m port) gen.toNat rel (namedDies (v.bridge m) mask.toNat)).owner ∧
      (t.bridge m).cgen = (claimSet (v.bridge m) (v.portHead m port) gen.toNat rel (namedDies (v.bridge m) mask.toNat)).cgen ∧
      (t.bridge m).ops.length = (v.bridge m).ops.length + 1 ∧ t.out = v.out) ∧
    (∀ data : Bytes, s.bTake m port h tag tgen 0xFFF opWitness = (true, u) → v = u.freeCred (portEnd m port) h.got →
      exec (.witnessWrite m port h tag tgen data) s = .next ((v.updBridge m (fun b =>
        if port = 0 then { b with wit0 := { bytes := padTo 24 data, at0 := some v.now } } else { b with wit1 := { bytes := padTo 24 data, at0 := some v.now } })).bAnswer
        m port tag tgen 0xFFF opWitness stOk 0 []) ∧
      exec (.witnessRead m port h tag tgen) s = .next (v.bAnswer m port tag tgen 0xFFF opWitness stOk 0 (witBytes (v.bridge m).wit0 v.now ++ witBytes (v.bridge m).wit1 v.now)))) ∧
  (∀ (m : Fin 64) (s : State), exec (.claimAnswer m) s = .next (s.answerClaims m))

/-! ## Links -/

/-- A Jonan end goes through Table 11-3: DETECT and TRAIN on signal, ALIGN on a trained lane, NEGOTIATE on lock, ACTIVE on a TRAIN with a common version, at the
highest common one, else DOWN; RETRAIN on too many replays or loss of lock or lane, DOWN on its timeout, on rates exhausted and on loss of signal (R423, R427 to R430, R454). -/
def Obligations.JonanTrainingCompletes : Prop :=
  (∀ (p : Fin 64) (e : LinkEnd) (s : State), e = s.linkEnd p →
    (e.state = lDown → s.pins.lanesEnabled = true → p.val < positionsOf s.fuses.variant →
      exec (.signalDetect (.jonan p)) s = .next (s.setEnd p { e with state := lTrain, rate := 1, lanes := 0, reason := 0, since := s.now })) ∧
    (e.state = lTrain → e.since + 200000000 ≤ s.now → e.rate < 3 →
      exec (.trainRateTimeout (.jonan p)) s = .next (s.setEnd p { e with rate := e.rate + 1, since := s.now })) ∧
    (e.state = lTrain → e.since + 200000000 ≤ s.now → 3 ≤ e.rate → exec (.trainRateTimeout (.jonan p)) s = .next (s.linkDown p)) ∧
    (∀ l : Fin 32, l.val < 2 → (e.state = lTrain ∨ e.state = lAlign) → s.laneFenced p l = false →
      exec (.laneTrained (.jonan p) l) s = .next (s.setEnd p { e with state := lAlign, lanes := setBit e.lanes l true })) ∧
    (∀ bad : BitVec 32, e.state = lAlign → s.laneFenced p 0 = false → s.laneFenced p 1 = false →
      exec (.alignLock (.jonan p) 3 bad) s = .next (s.setEnd p { e with state := lNegotiate, lanes := 3, since := s.now, trainGot := false, trainAt := none })) ∧
    (e.state = lNegotiate → e.trainGot = false → e.trainAt = none →
      exec (.trainSendTick (.jonan p)) s = .next ((s.setEnd p { e with trainAt := some s.now }).jSendU p { typ := fTrain, payload := s.trainPayload p })) ∧
    (∀ vers port lanes rxcred t0 lo hi : Nat, e.state = lNegotiate → e.trainAt = some t0 → lanes % 4 ≠ 0 → (lo, hi) = s.verRange p →
      (max lo (vers % 16) ≤ min hi (vers / 16 % 16) → exec (.train (.jonan p) vers 1 port lanes rxcred) s =
        .next (State.admStart (s.setEnd p { e with state := lActive, ver := min hi (vers / 16 % 16), peer := port, trainGot := true, txCred := rxcred, rxCred := s.advertised p
                                                   txNext := 0, rxNext := 0, unack := [], queue := [], owed := 0, nakAt := none, ackDue := none, replays := 0, since := s.now }) p)) ∧
      (min hi (vers / 16 % 16) < max lo (vers % 16) → exec (.train (.jonan p) vers 1 port lanes rxcred) s =
        .next (((s.setEnd p { e with state := lDown, reason := 2, lanes := 0, rate := 0, since := s.now }).raise (posPage p) 3).admFail p 2))) ∧
    (∀ loss : Fin 3, e.state = lActive → (loss = 0 → s.rf (R.JLK.CFG.RETRY_MAX (posInst p)) ≤ e.replays) → exec (.retrainEntry (.jonan p) loss) s =
      .next ((s.setEnd p { e with state := lRetrain, since := s.now, cntRetrain := satAdd 32 e.cntRetrain 1 }).raise (posPage p) 1)) ∧
    (e.state = lRetrain → e.since + s.rf (R.JLK.CFG2.RETRAIN_MS (posInst p)) * 1000000 ≤ s.now → exec (.retrainTimeout (.jonan p)) s = .next (s.linkDown p).settle) ∧
    exec (.signalLost (.jonan p)) s = .next (s.linkDown p).settle)

/-- Carid goes through the same states: TRAIN, ALIGN, NEGOTIATE, HELLO sent and answered, ACTIVE at the highest common version or DOWN with the reason of R462; RETRAIN, DOWN
on its timeout and on loss of signal; its keys change by REKEY from 3.2 and through RETRAIN below (R457 to R466, R472, R622). -/
def Obligations.CaridTrainingCompletes : Prop :=
  (∀ s : State, s.rf R.CPL.LINK_STAT.STATE = lDown → s.pins.lanesEnabled = true → s.mode ≠ .service → s.mode ≠ .vault →
    exec (.signalDetect .carid) s = .next ((s.wf R.CPL.LINK_STAT.STATE lTrain).updCpl (fun c => { c with since := s.now, lanes := 0 }))) ∧
  (∀ s : State, s.rf R.CPL.LINK_STAT.STATE = lTrain → s.cpl.since + 200000000 ≤ s.now → exec (.trainRateTimeout .carid) s = .next s.cplDown) ∧
  (∀ (l : Fin 32) (s : State), (s.rf R.CPL.LINK_STAT.STATE = lTrain ∨ s.rf R.CPL.LINK_STAT.STATE = lAlign) → l.val ∉ s.fencedUnits Pg.CPL →
    exec (.laneTrained .carid l) s = .next ((s.wf R.CPL.LINK_STAT.STATE lAlign).updCpl (fun c => { c with lanes := setBit c.lanes l true }))) ∧
  (∀ (lanes : BitVec 32) (s : State), exec (.alignLock .carid lanes 0) s = .next (s.caridAlign lanes.toNat)) ∧
  (∀ s : State, s.rf R.CPL.LINK_STAT.STATE = lNegotiate → s.mode ≠ .boot → s.cpl.pNonce = [] → s.cpl.helloAt = none → exec .helloSendTick s = .next s.sendHello) ∧
  (∀ (h : Hello) (t0 : Nat) (s : State), s.rf R.CPL.LINK_STAT.STATE = lNegotiate → s.mode ≠ .boot → s.cpl.helloAt = some t0 → s.cpl.nonce ≠ [] →
    (s.helloCheck h ≠ 0 → exec (.hello h) s = .next (State.helloFail (if s.pairKey.isSome && bit h.flags 1 then (s.dgeRan 1).cmpRan else s) (s.helloCheck h))) ∧
    (s.regsWf = true → s.helloCheck h = 0 → s.cpl.rehello = false → ∃ u : State, exec (.hello h) s = .next u.pumpCarid.pumpFwd ∧
      u.rf R.CPL.LINK_STAT.STATE = lActive ∧ u.rf R.CPL.LINK_STAT.VER = min s.cMax (h.vers / 16) % 16 ∧
      u.rf R.CPL.LINK_STAT.GCM = b2n (s.flag R.CPL.CFG.GCM_REQ || bit h.flags 0) ∧ u.cpl.pNonce = h.nonce ∧ u.cpl.unack = [] ∧ u.cpl.queue = [] ∧
      u.cpl.txCred = [cMirror, cDelta, cForward, cAdmin].zip h.creds ∧ u.fmm.ptSeq = 0 ∧ u.maps = s.maps)) ∧
  (∀ s : State, s.rf R.CPL.LINK_STAT.STATE = lActive →
    (∀ rekey : Bool, (rekey = true → s.rf R.CPL.LINK_STAT.VER < 2) → exec (.caridRetrain rekey) s =
      .next ((((s.wf R.CPL.LINK_STAT.STATE lRetrain).updCpl (fun c => { c with since := s.now, rehello := rekey })).inc R.CPL.CNT_RETRAIN.COUNT).raise Pg.CPL 1)) ∧
    (s.flag R.CPL.LINK_STAT.GCM = true → s.cpl.txNew = none → s.cpl.keyAt + s.rf R.CPL.CFG2.REKEY_H * 3600 * 1000000000 ≤ s.now → s.rf R.SEC.STAT.RNG ≠ 0 →
      s.rf R.CPL.LINK_STAT.VER < 2 →
      exec .rekeyTimer s = .next (s.caridRetrain true)) ∧
    (∀ k, s.flag R.CPL.LINK_STAT.GCM = true → s.cpl.txNew = none → s.cpl.keyAt + s.rf R.CPL.CFG2.REKEY_H * 3600 * 1000000000 ≤ s.now →
      s.rf R.SEC.STAT.RNG ≠ 0 → 2 ≤ s.rf R.CPL.LINK_STAT.VER → s.pairKey = some k → ∃ (u : State) (n : Bytes), exec .rekeyTimer s = .next (u.sendC (.rekey n (s.cpl.xseq + s.cpl.queue.length + 1))) ∧ u.cpl.nonce = n ∧
        u.cpl.txNew.isSome = true ∧ u.regs = (s.dgeRan 1).regs)) ∧
  (∀ (h : CHdr) (nonce : Bytes) (x : Nat) (k : Bytes) (s u : State), s.cRecv cAdmin h = (true, u) → s.pairKey = some k → ∃ t, exec (.rekey h nonce x) s = .next t ∧
    t.cpl.pNonce = nonce ∧ (∃ key, t.cpl.rxNew = some (x, key)) ∧ t.regs = (u.dgeRan 1).regs) ∧
  (∀ s : State, s.rf R.CPL.LINK_STAT.STATE = lRetrain → s.cpl.since + s.rf R.CPL.CFG.RETRAIN_MS * 1000000 ≤ s.now → exec (.retrainTimeout .carid) s = .next s.cplDown) ∧
  (∀ s : State, s.rf R.CPL.LINK_STAT.STATE ≠ lDown → exec (.signalLost .carid) s = .next s.cplDown)

/-- Link frames of no request: NAK replays what follows its ACK, IDLE delivers ACK and credits, and a received frame is acknowledged by IDLE; a module's events and polled
status are taken; an answer completes its request or is stale; a late one fails; claims and witness rounds go out (R413, R431, R432, R436, R437, R440, R441, R449, R450). -/
def Obligations.LinkFramesComplete : Prop :=
  (∀ (sel : LinkSel) (h : JHdr) (code : Fin 256) (s u : State), s.jRecv (endKey sel) { h with typ := fNak } = (true, u) →
    ∃ v : State, exec (.jonanNak sel h code) s = .next ((v.rewind (endKey sel)).pumpEnd (endKey sel)) ∧ (v.linkEnd (endKey sel)).unack = (u.linkEnd (endKey sel)).unack ∧ v.maps = u.maps) ∧
  (∀ (sel : LinkSel) (h : JHdr) (s : State), exec (.jonanIdle sel h) s = .next (s.jRecv (endKey sel) { h with typ := fIdle }).2) ∧
  (∀ (p : Fin 64) (s : State), (s.linkEnd p).state = lActive → ((s.linkEnd p).ackDue.isSome = true ∨ 0 < (s.linkEnd p).owed) →
    exec (.jonanAckTimer (.jonan p)) s = .next (s.jSendU p { typ := fIdle })) ∧
  (∀ s : State, s.rf R.CPL.LINK_STAT.STATE = lActive → s.cpl.ackDue.isSome = true → exec (.jonanAckTimer .carid) s = .next (s.sendLink .idle)) ∧
  (∀ (h : CHdr) (code : Fin 256) (x : Nat) (m : CMsg) (b : CSent) (l : List (Nat × CMsg × CSent)) (s u : State), s.cRecv cLink h = (true, u) → u.cpl.unack = (x, m, b) :: l →
    exec (.caridNak h code) s = .next (((u.cNakCount (chanOf m) code).updCpl (fun c => { c with replays := c.replays + 1 })).cReplay)) ∧
  (∀ (h : CHdr) (s : State), exec (.caridIdle h) s = .next (s.cRecv cLink h).2) ∧
  (∀ (p : Fin 64) (h : JHdr) (die : Fin 256) (s u : State), s.jRecv p { h with typ := fEvent } = (true, u) →
    exec (.eventCmd p h 1 die) s = .next ((u.freeCred p h.got).modFatal p) ∧
    (die.val < 64 → exec (.eventCmd p h 2 die) s = .next ((u.freeCred p h.got).dieFailed p die)) ∧
    (∀ code : Fin 256, 2 < code.val → exec (.eventCmd p h code die) s = .next (u.freeCred p h.got))) ∧
  (∀ (p : Fin 64) (s : State), (s.linkEnd p).state = lActive → (s.linkEnd p).ver < 5 → aget s.jlk.pollAt p = none →
    exec (.statusPoll p) s = .next (State.jReq { s with jlk := { s.jlk with pollAt := aset s.jlk.pollAt p s.now } } p opStatus 0xFFF 0 0 [[]] .poll)) ∧
  (∀ (p : Fin 64) (h : JHdr) (tag : Fin 4096) (tgen : Fin 16) (st : Fin 256) (info : Nat) (pl : Bytes) (cws : List CwDec) (s u : State),
    s.jRecv p { h with typ := fRsp } = (true, u) →
    (∀ r, aget u.jlk.reqs (p.val * 4096 + tag) = some r → r.gen = tgen.val → st = 0 → (r.op = opRead → (u.takeReq (p.val * 4096 + tag) false).stagingFor r.why = true) →
      exec (.jonanRsp p h tag tgen st info pl cws) s =
        .next ((((u.takeReq (p.val * 4096 + tag) false).freeCred p h.got).finish p r 0 info pl cws).relPump.settle)) ∧
    ((∀ r, aget u.jlk.reqs (p.val * 4096 + tag) = some r → r.gen ≠ tgen.val) → exec (.jonanRsp p h tag tgen st info pl cws) s =
      .next (((u.freeCred p h.got).updEnd p (fun e => { e with cntStale := satAdd 32 e.cntStale 1 })).raise (posPage p) 6))) ∧
  (∀ (p : Fin 64) (tag : Fin 4096) (r : Req) (s : State), aget s.jlk.reqs (p.val * 4096 + tag) = some r → (∀ w ∈ s.jlk.wait, w.1 ≠ p.val * 4096 + tag.val) →
    r.at0 + s.rf (R.JLK.CFG.TIMEOUT_MS (posInst p)) * 1000000 ≤ s.now → exec (.requestTimeout p tag) s = .next (s.failReq (p.val * 4096 + tag)).settle) ∧
  (∀ (inst : Fin 4) (mask : BitVec 16) (s : State), exec (.jlkClaim inst mask) s = .next (s.claimCmd inst 1 mask.toNat) ∧
    exec (.jlkRelease inst mask) s = .next (s.claimCmd inst 2 mask.toNat)) ∧
  (∀ (inst : Fin 4) (s v : State) (w : Bytes), s.flag (R.JLK.WIT_CFG.EN inst) = true →
    (∀ t, aget s.jlk.witAt inst = some t → t + s.rf (R.JLK.WIT_CFG.PERIOD_MS inst) * 1000000 ≤ s.now) →
    v = { s with jlk := { s.jlk with witAt := aset s.jlk.witAt inst s.now, witSeq := s.jlk.witSeq + 1 } } →
    w = le (s.jlk.witSeq + 1) 8 ++ le s.estamp 8 ++ le s.jlk.gen 4 ++ le (modeCode s.mode) 1 ++ zeros 3 →
    exec (.witnessTick inst) s = .next (((List.range 16).map (fun p => 16 * inst.val + p)).foldl (fun (u : State) m =>
      if (u.linkEnd m).state ≠ lActive then u
      else State.jReq (if u.writesWitness then u.jReq m opWitness 0xFFF 0 1 [w] (.wit true) else u) m opWitness 0xFFF 0 0 [[]] (.wit false)) v))

/-- An end accepts only the frame it expects: an accepted sequenced frame bears the expected LSEQ, has good CRC, version and length and fits the credits advertised, and moves
the expectation on by one; a frame that fails is not accepted and moves nothing (R435, R436, R438, Table 11-8). -/
def Obligations.FramesAcceptedInOrder : Prop :=
  ∀ (i : Nat) (h : JHdr) (s u : State), h.typ ≠ fNak → h.typ ≠ fIdle →
    (s.jRecv i h = (true, u) → (s.linkEnd i).state = lActive ∧ h.crcOk = true ∧ h.ver = (s.linkEnd i).ver ∧ h.len = h.got ∧ h.lseq = (s.linkEnd i).rxNext ∧
      credOf h.got ≤ (s.linkEnd i).rxCred ∧ (u.linkEnd i).rxNext = ((s.linkEnd i).rxNext + 1) % 4096) ∧
    (s.jRecv i h = (false, u) → (u.linkEnd i).rxNext = (s.linkEnd i).rxNext)

/-- An end sends only what fits: after sending, no more than 1,024 frames await acknowledgement, frames leave the queue in order and none is lost, and
the credits spent are those the frames need (R434, R438). -/
def Obligations.WindowAndCredits : Prop :=
  ∀ (i : Nat) (s : State), (s.linkEnd i).unack.length ≤ 1024 →
    ((s.pumpEnd i).linkEnd i).unack.length ≤ 1024 ∧
    ((s.pumpEnd i).linkEnd i).unack.map Prod.snd ++ ((s.pumpEnd i).linkEnd i).queue = (s.linkEnd i).unack.map Prod.snd ++ (s.linkEnd i).queue ∧
    ((s.pumpEnd i).linkEnd i).txCred + sumL ((((s.pumpEnd i).linkEnd i).unack.drop (s.linkEnd i).unack.length).map (fun x => credOf x.2.payload.length)) = (s.linkEnd i).txCred

/-! ## Pairing of heads -/

/-- MIRROR: grains of the current generation are taken into the Sideboard, receipts and bindings of a command are noted and its commit wait looked at, slots are freed and
cancelled (R242, R243, R245, R246, R473 to R477). -/
def Obligations.MirrorCompletes : Prop :=
  ∀ (h : CHdr) (s u : State), s.cRecv cMirror h = (true, u) →
    (∀ (mtok gcnt : Nat) (gs : List MGrain), takesMirror u.mode = true →
      exec (.grain h mtok gcnt gs) s = .next (if u.tokFresh mtok then u.takeLive mtok gcnt gs else u.staleTok) ∧
      ((∀ g ∈ gs, g.slice = 0xFFFFF ∨ u.handleOk g.slice = true) → u.takeLive mtok gcnt gs = u.takeGrains mtok gcnt gs)) ∧
    (∀ (txn op : Nat) (c : IoCmd), u.byTxn txn = some (op, c) →
      u.rcptOne (txn, false) = (u.updCmd op (fun c => { c with grains := c.grains.map (fun g => { g with rcpt := true }) })).commitWait op ∧
      u.rcptOne (txn, true) = (u.failWrite op 0 0x06 false).pumpGrains ∧
      exec (.bindAck h txn) s = .next ((u.updCmd op (fun c => { c with bound := true })).commitWait op).settle) ∧
    (∀ es : List (Nat × Bool), exec (.rcpt h es) s = .next (es.foldl (fun s e => s.rcptOne e) u).settle) ∧
    (∀ mtok o : Nat, takesMirror u.mode = true → u.tokKnown mtok = true → ∃ v : State, exec (.bind h mtok o) s = .next (v.sendC (.bindAck mtok)) ∧
      v.io.sb = (u.heard o).io.sb.map (fun e => if e.txn = mtok then { e with ostamp := some o } else e) ∧ v.io.wc = (u.heard o).io.wc ∧ v.regs = (u.heard o).regs) ∧
    (∀ slots : List Nat, takesMirror u.mode = true →
      exec (.freeCmd h slots) s = .next { u with io := { u.io with sb := u.io.sb.filter (fun e => !slots.contains e.slot) } }) ∧
    (∀ mtok : Nat, takesMirror u.mode = true → u.tokKnown mtok = true →
      exec (.cancelCmd h mtok) s = .next { u with io := { u.io with sb := u.io.sb.filter (fun e => e.txn != mtok) } })

/-- DELTA: records and horizons of the partner's lanes are kept, LACK goes out every LACK_US and what it says is kept, page-table changes apply in order, hints enter the
hot-fingerprint cache from 3.4 (R122, R132, R227, R386, R478 to R481). -/
def Obligations.DeltaCompletes : Prop :=
  (∀ (h : CHdr) (s u : State), s.cRecv cDelta h = (true, u) →
    (∀ (lane : Fin 32) (rs : List JRec), takesMirror u.mode = true → ∃ v : State, exec (.recs h lane rs) s = .next (v.heard (maxL (rs.map (fun r => r.ostamp)))) ∧
      v.mpe.delta = u.mpe.delta ++ rs ∧ agetD v.mpe.pHor lane 0 = max (maxL (rs.map (fun r => r.ostamp))) (agetD u.mpe.pHor lane 0) ∧ v.maps = u.maps ∧ v.regs = u.regs) ∧
    (∀ ls : List (Nat × Nat), takesMirror u.mode = true → exec (.horizon h ls) s = .next (ls.foldl (fun s l => s.horizonOne l) u)) ∧
    (∀ lane o : Nat, lane < 32 → agetD (u.horizonOne (lane, o)).mpe.pHor lane 0 = max o (agetD u.mpe.pHor lane 0) ∧ (u.horizonOne (lane, o)).tbs.floor = max o u.tbs.floor) ∧
    (∀ (physAt seq : Nat) (app dur : List Nat), ∃ v : State, exec (.lack h physAt seq app dur) s = .next (v.noteA physAt) ∧ v.fmm.ptAck = max u.fmm.ptAck ((seq + 1) % 2 ^ 64) ∧
      (∀ l o : Nat, l < 32 → app.length ≤ 32 → app[l]? = some o → agetD v.mpe.pApp (u.head * 32 + l) 0 = o) ∧
      (∀ l o : Nat, l < 32 → dur.length ≤ 32 → dur[l]? = some o → agetD v.mpe.pDur l 0 = o) ∧ v.maps = u.maps ∧ v.regs = u.regs) ∧
    (∀ (seq : Nat) (es : List (Nat × Nat)), takesMirror u.mode = true → exec (.pt h seq es) s =
      .next { u with fmm := { u.fmm with pt := es.foldl (fun (m : AMap Nat) e => sput (fun _ => 0) m e.1 e.2) u.fmm.pt, ptIn := max u.fmm.ptIn (seq + es.length) } }) ∧
    (∀ es : List HfcEnt, exec (.hfcHint h es) s =
      .next (if u.rf R.CPL.LINK_STAT.VER < 4 then u else es.foldl (fun s e => s.hfcPut e.cid e.gen e.fp) u))) ∧
  (∀ s : State, s.caridUp = true → takesMirror s.mode = true → s.cpl.lackAt + s.rf R.CPL.CFG2.LACK_US * 1000 ≤ s.now → exec .lackTick s =
    .next ((s.updCpl (fun c => { c with lackAt := s.now })).sendC (.lack s.estamp ((s.fmm.ptIn + 2 ^ 64 - 1) % 2 ^ 64) ((List.range 32).map s.appHorizon) ((List.range 32).map s.durHorizon))))

/-- FORWARD: a forwarded command is carried out by its owner once its data is here; read data goes on to the host; its end completes it, after commit wait where it
changed something; an abort before its transfer ends it; heartbeats go out and are noted, and of two heads that cannot hear each other one yields
(R63, R64, R482 to R484, R487, R488). -/
def Obligations.ForwardCompletes : Prop :=
  (∀ (h : CHdr) (s u : State), s.cRecv cForward h = (true, u) →
    (∀ (tok slice : Nat) (f : FwdCmd) (data : Bytes), serving u.mode = true → u.handleOk slice = false → exec (.forwardCmd h tok slice f data) s = .next u.staleHandle) ∧
    (∀ (tok slice : Nat) (f : FwdCmd) (data : Bytes), serving u.mode = true → u.handleOk slice = true → u.fwdBytes f ≤ data.length → ∃ (c : IoCmd) (v : State),
      exec (.forwardCmd h tok slice f data) s = .next (v.carryOut u.io.nextOp) ∧ v = (u.insertCmd c).2 ∧ c.conn = none ∧ c.fromPartner = true ∧ c.tok = tok ∧ c.opc = f.opc ∧
      c.ns = f.ns ∧ c.slba = f.slba ∧ c.nlb = f.nlb ∧ c.slice = slice) ∧
    (∀ (tok off op : Nat) (data : Bytes) (c0 c : IoCmd), u.byTok tok false = some (op, c0) → ∀ v : State,
      v = u.updCmd op (fun c => { c with data := (c.data.take off ++ data ++ c.data.drop (off + data.length)).take c.need, recvd := c.recvd + data.length }) →
      aget v.io.cmds op = some c → exec (.wdata h tok off data) s = .next (if c.stage = .data ∧ c.need ≤ c.recvd then v.carryOut op else v)) ∧
    (∀ (tok off tag op : Nat) (data : Bytes) (c : IoCmd) (p : Nat × Nat × Nat) (c' : IoCmd) (g : RdGrain) (v : State), u.byTok tok true = some (op, c) →
      (grainSpan (u.lbafOf c.ns) c.slba c.nlb)[off / 4096]? = some p →
      v = (u.updCmd op (fun c => { c with reads := c.reads ++ [{ gi := p.1, sec := p.2.1, nsec := p.2.2, clen := 256, data := data, tag := tag, done := true }] })).piReads op →
      v.readAt op c.reads.length = some (c', g) → exec (.rdata h tok off tag data) s = .next (if g.fail.isNone then v.sendGrain op c.reads.length else v)) ∧
    (∀ (tok op : Nat) (c : IoCmd) (dnr : Bool), u.byTok tok true = some (op, c) → isResv c.opc = true → c.stage = .stamped → ∀ sct sc : Nat,
      exec (.done h tok sct sc dnr 0) s = .next (((u.updCmd op (fun c => { c with bound := true })).commitWait op).settle)) ∧
    (∀ (tok op : Nat) (c : IoCmd) (dnr : Bool), u.byTok tok true = some (op, c) → isResv c.opc = false →
      (∀ sct sc : Nat, sct ≠ 0 ∨ sc ≠ 0 → exec (.done h tok sct sc dnr 0) s = .next (u.failCmd op sct sc dnr c.slba).settle) ∧
      (lowestFail c = none → exec (.done h tok 0 0 dnr 0) s = .next (u.doneCmd op).settle) ∧
      (∀ o : Nat, lowestFail c = none → o ≠ 0 → exec (.done h tok 0 0 dnr o) s =
        .next ((((u.heard o).updCmd op (fun c => { c with stage := Stage.stamped, ostamp := o })).commitWait op).settle))) ∧
    (∀ (tok op : Nat) (c : IoCmd), u.byTok tok false = some (op, c) → c.recvd = 0 → c.reads = [] → c.stage = .data → c.doneN = 0 →
      exec (.forwardAbort h tok) s = .next ((u.dropCmd op).sendC (.fwdDone tok 0 0x07 false 0 0)).settle)) ∧
  (∀ s : State, s.rf R.CPL.LINK_STAT.STATE = lActive → s.beats = true → s.cpl.hbSent + s.rf R.CPL.CFG2.HB_US * 1000 ≤ s.now → ∀ v : State,
    v = s.updCpl (fun c => { c with hbSeq := c.hbSeq + 1, hbSent := s.now }) →
    exec .heartbeatTick s = .next (v.sendC (.heartbeat v.cpl.hbSeq v.estamp (modeCode v.mode) v.hbFlagsNow v.jlk.gen))) ∧
  (∀ (h : CHdr) (seq es mode flags gen : Nat) (s u : State), s.cRecv cHeart h = (true, u) → ∃ v : State, exec (.heartbeat h seq es mode flags gen) s = .next (v.noteGen gen) ∧
    v.cpl.hbAt = some u.now ∧ v.cpl.hbMode = mode % 256 ∧ v.cpl.hbPSeq = max seq u.cpl.hbPSeq ∧ v.mode = u.mode ∧ v.regs = u.regs) ∧
  (∀ (t0 : Nat) (s : State), s.mode = .paired → s.rf R.CPL.LINK_STAT.STATE ≠ lActive → s.witRecent 20000000 = true →
    (s.cpl.splitAt = none → exec .splitYield s = .next (s.updCpl (fun c => { c with splitAt := some s.now }))) ∧
    (s.cpl.splitAt = some t0 → t0 + s.rf R.CPL.CFG.SPLIT_MS * 1000000 ≤ s.now → s.bsv.silent = false →
      (s.ownHello.lanes < s.cpl.pLanes ∨ (s.ownHello.lanes = s.cpl.pLanes ∧ s.head = 1)) → exec .splitYield s = .next (s.raise Pg.CPL 5).settle))

/-- A move of groups is proposed with a stamp past both clocks, agreed, journalled by the old owner and finished by MOVE_DONE, after which the new owner admits writes
(R119, R463, R490). A handover begins with HO_REQ, on which the partner becomes the reference and reports the leaving head's groups optimized, and HO_ACK; the drain goes on to the release of the
dies and to the final counts (R72, R208, R492, R497). -/
def Obligations.MovesAndHandoverComplete : Prop :=
  ((∀ (h : CHdr) (g : Fin 65536) (p : Nat) (s u : State), s.cRecv cAdmin h = (true, u) → ∀ v : State,
    v = (u.heard p).sendC (.admin h.atag (.moveAgree g (max p u.moveStamp))) →
    (u.mode ≠ .joining → exec (.movePropose h g p) s = .next (v.moveSet g (max p u.moveStamp) (u.moveTo g false)).settle) ∧
    (u.mode = .joining → exec (.movePropose h g p) s = .next (v.updCpl (fun c => { c with switch := some (max p u.moveStamp) })).settle)) ∧
  (∀ (g o dest : Nat) (u : State), ∀ v : State, v = u.updCpl (fun c => { c with moves := aset c.moves g (o, dest) }) →
    (dest = u.head → u.moveSet g o dest = v) ∧
    (dest ≠ u.head → ∃ gs : List Nat, (∀ y, y ∈ gs ↔ y ∈ moveGroups g ∧ u.ownsGroup y = true) ∧
      ∃ w : State, w = (v.anaChange gs).rplMoved (fun x => gs.contains x) ∧ u.moveSet g o dest = (w.moveJournal g o dest).2.handCmds gs ∧
        ((∃ x, x ∈ w.moveOwned g) → w.moveJournal g o dest = w.journal [rMove g w.head dest o]))) ∧
  (∀ (h : CHdr) (g : Fin 65536) (o x dest : Nat) (s u : State), s.cAnswer h = (true, u) → aget u.cpl.props g = some (x, dest) → ∀ v : State,
    v = (u.heard o).updCpl (fun c => { c with props := adel c.props g }) →
    (u.mode ≠ .solo → exec (.moveAgree h g o) s = .next (v.moveSet g o dest).settle) ∧
    (∀ w : State, u.mode = .solo → v.journal [rMove g v.head v.head o] = (true, w) →
      exec (.moveAgree h g o) s = .next ((w.updCpl (fun c => { c with switch := some o })).sendC (.moveDone g o)).settle)) ∧
  (∀ (g : Fin 65536) (o dest : Nat) (s : State), aget s.cpl.moves g = some (o, dest) → dest ≠ s.head → s.moveOwned g = [] → s.io.cmds = [] → s.movedOver o = true →
    s.mode = .paired → ∀ v : State, v = (s.updCpl (fun c => { c with moves := adel c.moves g })).sendC (.moveDone g o) →
    exec (.moveComplete g) s = .next (v.anaReport ((moveGroups g).map (fun x => (x, 2)))).settle) ∧
  (∀ (h : CHdr) (g : Fin 65536) (o d : Nat) (s u : State), s.cRecv cAdmin h = (true, u) → (u.heard o).mode = .paired → aget (u.heard o).cpl.moves g = some (o, d) → ∃ v w : State,
    exec (.moveDone h g o) s = .next w.admitAll.settle ∧ v.maps.owner = (moveGroups g).foldl (fun m x => aset m x u.head) u.maps.owner ∧ aget v.cpl.moves g = none ∧
    w = ((v.anaMove ((moveGroups g).map (fun x => (x, 1)))).io.cmds.filter (fun e => e.2.fromPartner && e.2.stage == .data && decide (e.2.need ≤ e.2.recvd))).foldl
      (fun s e => s.carryOut e.1) (v.anaMove ((moveGroups g).map (fun x => (x, 1))))) ∧
  (∀ (h : CHdr) (g : Fin 65536) (o : Nat) (s u : State), s.cRecv cAdmin h = (true, u) → (u.heard o).mode = .joining → (u.heard o).cpl.switch = some o →
    exec (.moveDone h g o) s = .next (((u.heard o).wf R.CPL.JOIN_STAT.PHASE 6).ask (.releaseReq (u.heard o).head))) ∧
  (∀ (g : Fin 1024) (s : State), s.mode = .paired → s.rf R.CPL.LINK_STAT.STATE = lActive → s.cpl.moves = [] → s.cpl.props = [] →
    (3 ≤ s.rf R.CPL.LINK_STAT.VER → exec (.ownershipMove g) s = .next (s.moveOffer g).settle) ∧
    (s.rf R.CPL.LINK_STAT.VER < 3 → exec (.ownershipMove g) s = .next (s.emit (.badVersion g)))))
  ∧ ((∀ (h : CHdr) (s u : State), s.cRecv cAdmin h = (true, u) →
    (u.mode = .paired → ∃ v : State, exec (.hoReq h) s = .next (v.anaMove ((allGroups.filter (fun g => !v.ownsGroup g)).map (fun g => (g, 1)))).settle ∧
      v = (State.updCpl { (u.wf R.TBS.STAT.ROLE 0) with tbs := { u.tbs with rate := 0 } } (fun c => { c with hoFrom := true })).sendC (.admin h.atag .hoAck))) ∧
  (∀ (h : CHdr) (s u : State), s.cAnswer h = (true, u) → u.mode = .handover → exec (.hoAck h) s = .next (u.updCpl (fun c => { c with hoSent := false }))) ∧
  (∀ s : State, s.mode = .handover → s.drained = true →
    (s.cpl.hoClaimed = false → s.cpl.relStage = 0 → exec .handoverDrainComplete s = .next ((s.updCpl (fun c => { c with relStage := 1 })).relPump).settle) ∧
    (s.cpl.hoClaimed = true → s.cpl.hoFinal = false → exec .handoverDrainComplete s =
      .next ((s.sendC (.meterCnt true (s.slm.dyn.map (fun e => (s.handleOf e.1, meterBytes e.2.own))))).updCpl (fun c => { c with hoFinal := true, hoMeters := c.hbPSeq })))))

/-- A join goes through Table 12-10: the server refuses or accepts the request, the joiner loads its replica up to the cut, entries of the meter ring and the page table come
over, writes are mirrored from an instant on and the switch is proposed, the dies are released and claimed, and with every condition met on both heads both are PAIRED
(R55, R71, R384, R388, R449, R464, R465, R493 to R495). -/
def Obligations.JoinCompletes : Prop :=
  (∀ (h : CHdr) (limit ct minor gib : Nat) (s u : State), s.cRecv cAdmin h = (true, u) → u.mode = .solo → u.cpl.role = 0 → u.bsv.leaveCause = none → ∀ v : State,
    v = ((u.updCpl (fun c => { c with jTag := h.atag })).wf R.CPL.JOIN_STAT.REASON 0).wf R.CPL.JOIN_STAT.SHORT 0 →
    (limit < u.poolModules → exec (.joinReq h limit ct minor gib) s = .next (v.refuseJoin 6)) ∧
    (u.poolModules ≤ limit → 0 < u.shortGib gib →
      exec (.joinReq h limit ct minor gib) s = .next ((v.wf R.CPL.JOIN_STAT.SHORT (u.shortGib gib)).refuseJoin 7)) ∧
    (u.poolModules ≤ limit → u.shortGib gib = 0 → ct ≠ u.rf R.MPE.CT_BITS.BITS → exec (.joinReq h limit ct minor gib) s = .next (v.refuseJoin 8)) ∧
    (u.poolModules ≤ limit → u.shortGib gib = 0 → ct = u.rf R.MPE.CT_BITS.BITS → u.bsv.acver ≤ minor →
      exec (.joinReq h limit ct minor gib) s = .next v.acceptJoin) ∧
    (u.poolModules ≤ limit → u.shortGib gib = 0 → ct = u.rf R.MPE.CT_BITS.BITS → minor < u.bsv.acver → u.cpl.jMinor ≤ u.bsv.acver → u.rf R.CPL.JOIN_STAT.PHASE ≠ 2 →
      ∃ w : State, exec (.joinReq h limit ct minor gib) s = .next w.ckptStart ∧ w.cpl.role = 2 ∧ w.bsv.acver = minor ∧ w.cpl.jMinor = minor)) ∧
  (∀ (h : CHdr) (limit ct minor gib : Nat) (s u : State), s.cRecv cAdmin h = (true, u) →
    (u.mode = .paired ∨ u.mode = .handover ∨ u.cpl.role ≠ 0 → exec (.joinReq h limit ct minor gib) s = .next (u.sendC (.admin h.atag (.joinRsp 0x0C 0)))) ∧
    (u.mode ≠ .paired → u.mode ≠ .handover → u.mode ≠ .solo → u.cpl.role = 0 → exec (.joinReq h limit ct minor gib) s = .next (u.sendC (.admin h.atag (.joinRsp 0x01 0))))) ∧
  (∀ (h : CHdr) (reason cut : Nat) (f : Found) (s u v : State), s.cAnswer h = (true, u) → u.mode = .joining → u.cpl.role = 1 →
    (reason ≠ 0 → exec (.joinRsp h reason cut f) s = .next ((if reason = 7 then u.shortShow else u).joinRefuse reason)) ∧
    (((u.heard cut).wf R.CPL.JOIN_STAT.PHASE 3).loadMaps f (some cut) = some v →
      exec (.joinRsp h 0 cut f) s = .next (v.updCpl (fun c => { c with cut := cut, loaded := true }))) ∧
    (((u.heard cut).wf R.CPL.JOIN_STAT.PHASE 3).loadMaps f (some cut) = none →
      exec (.joinRsp h 0 cut f) s = .next (((u.heard cut).wf R.CPL.JOIN_STAT.PHASE 3).joinRefuse 0x0A))) ∧
  (∀ s : State, s.cpl.role = 2 → s.rf R.CPL.JOIN_STAT.PHASE = 2 → (∃ k, s.mpe.ckpt = some k ∧ s.cpl.waitFor < k.covered) → exec .joinVersionWaitEnd s = .next s.acceptJoin) ∧
  (∀ s : State, s.mode = .solo → s.cpl.role = 2 → s.rf R.CPL.JOIN_STAT.PHASE = 5 → s.cpl.switch = none → ahas s.cpl.props 0xFFFF = false →
    (∀ e ∈ s.io.cmds, e.1 < s.cpl.opM.getD 0 → writes e.2.opc = true → e.2.stage ≠ .active ∧ e.2.stage ≠ .data) → exec .joinSwitch s = .next (s.moveOffer 0xFFFF).settle) ∧
  (∀ (h : CHdr) (hd : Fin 2) (s u : State), s.cRecv cAdmin h = (true, u) → u.mode = .solo → u.cpl.role = 2 → u.rf R.CPL.JOIN_STAT.PHASE = 5 →
    exec (.releaseReq h hd) s = .next (((u.wf R.CPL.JOIN_STAT.PHASE 6).updCpl (fun c => { c with relStage := 1, relTag := h.atag })).relPump).settle) ∧
  (∀ (h : CHdr) (gen : Nat) (s u v : State), s.mode = .joining → s.cAnswer h = (true, u) → v = u.noteGen gen → v.mode = .joining → v.rf R.CPL.JOIN_STAT.PHASE = 6 → v.present = [] → ∃ w : State,
    exec (.released h gen) s = .next ((w.wf R.CPL.JOIN_STAT.PHASE 7).updCpl (fun c => { c with diesOk := true })) ∧
    w = State.sendC { v with jlk := { v.jlk with asked := [], won := [] } } (.claimGen v.jlk.gen)) ∧
  (∀ (h : CHdr) (es : List Bytes) (s u : State), s.cRecv cAdmin h = (true, u) → u.mode = .joining → exec (.ringCmd h es) s = .next (es.foldl (fun s e => s.ringOne e) u)) ∧
  (∀ (e : Bytes) (s : State), (s.ringOne e).slm.log = s.slm.log ++ [(s.rf R.SLM.MRING_WR.SEQ, e)] ∧ (s.ringOne e).slm.seq = s.rf R.SLM.MRING_WR.SEQ + 1 ∧
    (s.ringOne e).mem = (s.store (dramBase + s.rf R.SLM.MRING_BASE.ADDR + s.rf R.SLM.MRING_WR.SEQ % 16777216 * 256) e).mem) ∧
  (∀ (info : PeerInfo) (s : State), s.rf R.CPL.LINK_STAT.STATE = lActive → (s.mode = .joining ∧ s.cpl.role = 1 ∧ s.shortShow.joinerReady = true) ∨ (s.mode = .solo ∧ s.cpl.role = 2 ∧ s.serverReady = true) →
    ∃ w u v : State, exec (.joinDone true info) s = .next ((v.handCmds (allGroups.filter (fun g => agetD u.bsv.pref g 0 != u.head))).settle).minCheck ∧
      w.bsv.acver = s.rf R.CPL.LINK_STAT.VER ∧ w.cpl.role = 0 ∧ w.mode = s.mode ∧
      u = w.enter .paired (if s.mode = .joining then 0x01 else 0x07) ∧
      v = State.anaMove { u with maps := { u.maps with owner := allGroups.map (fun g => (g, agetD u.bsv.pref g 0)) },
                                 io := { u.io with pSb := info.sb, resv := if s.mode = .joining then info.resv else u.io.resv },
                                 slm := { u.slm with pCapI := info.capI, pCapB := info.capB } }
        (allGroups.map (fun g => (g, if agetD u.bsv.pref g 0 = u.head then 1 else 2)))) ∧
  (∀ (h : CHdr) (gen : Nat) (s u : State), s.cRecv cAdmin h = (true, u) → exec (.claimgen h gen) s = .next (u.noteGen gen))

/-! ## Replication -/

/-- Commands of RPL: START makes a session of outbound entry INDEX and asks for its connection, with the checks that stand before it; CANCEL ends a session with CANCELLED;
SEAL_ACK answers SEAL and closes the binding; SEAL is noted at a MIGRATE session; connections are accepted up to 64 sessions; a session ends on ABORT, on IDLE_S of
silence and when its connection is lost (R505, R506, R523, R525, R526, Tables 13-7 and 13-8). -/
def Obligations.ReplicationCommandsComplete : Prop :=
  (∀ (ix : Fin 1024) (ns new_ : Nat) (n : Ns) (d : Bytes) (s : State), ix.val < 64 → s.blockOn Pg.RPL = true → d = s.entry (s.outAddr ix) 64 → leAt d 0x13 1 = 1 → leAt d 0x12 1 ≤ 63 →
    leAt d 0x14 2 = ns → leAt d 0x1C 4 = new_ → s.nsOf ns = some n → s.ownsGroup n.desc.group = true → ahas n.slots new_ = true → s.flag R.RPL.KEY.VALID = true →
    s.sessOf ix = none → ∃ v : State, exec (.startCmd ix) s = .next ((v.rplDone 0).settle) ∧ v.out = s.out ++ [.rspConnect ix (leAt d 0 16) (leAt d 0x10 2) (leAt d 0x12 1)] ∧
      v.regs = s.regs ∧ v.maps = s.maps ∧ ∃ x : RSess, aget v.rpl.sess ix = some x ∧ x.state = 1 ∧ x.inbound = false ∧ x.kind = 1 ∧ x.ns = ns ∧ x.new_ = new_ ∧
        x.target = leAt d 0x16 2 ∧ x.sid = leAt d 0x20 4 ∧ x.rate = leAt d 0x24 4) ∧
  (∀ (ix : Fin 1024) (s : State), s.blockOn Pg.RPL = false → exec (.startCmd ix) s = .next (State.settle { s with rpl := { s.rpl with held := s.rpl.held ++ [ix.val] } })) ∧
  (∀ (ix : Fin 1024) (s : State), (s.regsWf = true → ∀ r < 8, (s.rplDone r).rf R.RPL.CMD_STAT.RESULT = r) ∧ exec (.rplCancel ix) s = .next ((s.rplAbort ix 0x0E 0).rplDone 0).settle ∧
    (s.sealWait ix = none → exec (.sealAck ix) s = .next (s.rplDone 1).settle) ∧ (s.sessOf ix = none → exec (.rplSeal ix) s = .next (s.rplDone 1).settle)) ∧
  (∀ (ix : Fin 1024) (i : Nat) (x : RSess) (q : Nat × Nat × Nat) (s v : State), s.sealWait ix = some (i, x) → x.sealReq = some q → ∀ w : State,
    v = s.rspSend i (.seal_ x.sid q.1 (x.slot.getD 0) q.2.1 q.2.2) →
    w = v.updSess i (fun x => if x.state = 5 then { x with state := 6, tbs := [], exts := [] } else x) →
    exec (.sealAck ix) s = .next ((w.bindState ix 0).rplDone 0).settle) ∧
  (∀ (ix : Fin 1024) (x : RSess) (s : State), s.sessOf ix = some x → x.inbound = false → x.kind = 3 → x.state = 4 →
    exec (.rplSeal ix) s = .next ((s.updSess ix (fun x => { x with sealAsked := true })).rplDone 0).settle) ∧
  (∀ (lport i : Fin 64) (port : Fin 65536) (x : RSess) (s : State), s.sessOf i = some x → x.inbound = false → x.state = 1 →
    exec (.rspConnectAccept lport (some i) port) s = .next (s.rspHello i)) ∧
  (∀ (lport : Fin 64) (port : Fin 65536) (s : State), s.mode = .paired ∨ s.mode = .solo → s.blockOn Pg.RPL = true → port.val = s.rf R.RPL.CFG.PORT → s.lportUp lport = true →
    (s.freeSess = none → exec (.rspConnectAccept lport none port) s = .next (s.emit (.rspReset lport))) ∧
    (∀ i, s.freeSess = some i → ∃ v : State, exec (.rspConnectAccept lport none port) s = .next (v.rspHello i) ∧ v.regs = s.regs ∧ v.out = s.out ∧
      ∃ x : RSess, aget v.rpl.sess i = some x ∧ x.inbound = true ∧ x.state = 2 ∧ x.lport = lport)) ∧
  (∀ (ix : Fin 64) (h : RHdr) (code : Fin 65536) (x : RSess) (s u : State), s.sessOf ix = some x → s.rspRecv ix h (decide (3 ≤ x.state)) = (true, u) →
    exec (.rspAbort ix h code) s = .next (u.rplEnd ix code false).settle) ∧
  (∀ (ix : Fin 64) (x : RSess) (s : State), s.sessOf ix = some x →
    (x.lastAt + s.rf R.RPL.CFG.IDLE_S * 1000000000 ≤ s.now → exec (.rspIdleTimeout ix) s = .next (s.rplEnd ix 0x0C false).settle) ∧
    (s.now < x.lastAt + s.rf R.RPL.CFG.IDLE_S * 1000000000 → exec (.rspIdleTimeout ix) s = .next s)) ∧
  (∀ (ix : Fin 64) (s : State), exec (.rspConnectionLoss ix) s = .next (s.rplEnd ix 0x0C false).settle)

/-- Records of a session: each is taken at the end and in the state its chapter gives it. HELLO settles version and keys, SESSION is checked and accepted, OFFER is looked
up, WANT served or its batch freed, a GRAIN's entries are checked, an EXTENT is kept, SEAL's batches are counted, and a walk goes on within WINDOW and RATE
(R508, R513 to R516, R518, R520 to R523, R526). -/
def Obligations.ReplicationRecordsComplete : Prop :=
  (∀ (ix : Fin 64) (h : RHdr) (vers role : Fin 256) (array : BitVec 128) (nonce : Bytes) (x : RSess) (s u : State), s.rspRecv ix h false = (true, u) → u.sessOf ix = some x →
    x.state = 2 → exec (.rspHello ix h vers role array nonce) s = .next (u.rplHello ix vers role array.toNat nonce).settle) ∧
  (∀ (ix : Fin 64) (h : RHdr) (b : RSession) (x : RSess) (s u : State), s.rspRecv ix h true = (true, u) → u.sessOf ix = some x → x.state = 3 →
    (x.inbound = false → exec (.session ix h b) s = .next (u.updSess ix (fun x => { x with state := 4, offers := b.offers })).settle) ∧
    (∀ j, x.inbound = true → u.sessionCheck ix x.array x.ver b = .inr j → exec (.session ix h b) s = .next (u.sessionAccept ix j b).settle) ∧
    (∀ c, x.inbound = true → u.sessionCheck ix x.array x.ver b = .inl c → exec (.session ix h b) s = .next (u.rplAbort ix c 0).settle)) ∧
  (∀ (ix : Fin 64) (h : RHdr) (x : RSess) (s u : State), s.rspIn ix h true = (some x, u) →
    (∀ (batch : Fin 4294967296) (fps : List Bytes), fps ≠ [] → fps.length ≤ 1024 → x.offers = true → x.tb batch = none →
      exec (.offer ix h batch fps) s = .next (u.rplOffers ix batch x (fps.map (padTo 32))).settle) ∧
    (∀ (batch : Fin 4294967296) (gs : List RGrain), s.rplRoom gs.length = true →
      exec (.rspGrain ix h batch gs) s = .next (u.rplEntries ix batch gs).settle) ∧
    (∀ (batch : Fin 4294967296) (run : Option Nat) (start : Fin 274877906944) (vals : List Nat), extentOk x batch run vals = true → ∃ e : RExt, e.start = start ∧ e.vals = vals ∧
      e.len = run.getD vals.length ∧ exec (.extent ix h batch run start vals) s = .next (u.updSess ix (fun x => { x with exts := x.exts ++ [e] })).settle)) ∧
  (∀ (ix : Fin 64) (h : RHdr) (batch : Fin 4294967296) (gs : List RGrain) (s : State), s.rf R.RPL.CFG2.WCSHARE * 4194304 < s.rplHeld + 4096 * gs.length →
    exec (.rspGrain ix h batch gs) s = .next s) ∧
  (∀ (ix : Fin 64) (h : RHdr) (batch : Fin 4294967296) (bits : List Bool) (x : RSess) (b : RBatch) (s u : State), s.rspIn ix h false = (some x, u) →
    x.batches.find? (fun b => b.num == batch.val) = some b →
    exec (.want ix h batch true bits) s = .next (u.updSess ix (fun x => { x with batches := x.batches.filter (fun y => y.num != batch.val) })).settle ∧
    (bits.length = b.offers.length → ∃ ws : List Nat, (∀ k, k ∈ ws ↔ k ∈ b.wants ∨ bits[k]? = some true) ∧
      exec (.want ix h batch false bits) s = .next (u.rplServe ix { b with wants := ws }).settle)) ∧
  (∀ (ix : Fin 64) (h : RHdr) (sid new_ tepoch batches grains : Nat) (x : RSess) (s u : State), s.rspRecv ix h true = (true, u) → u.sessOf ix = some x →
    (x.inbound = true → x.state = 4 → batches ≠ x.count → exec (.rspSeal ix h sid new_ tepoch batches grains) s = .next (u.rplAbort ix 0x05 0).settle) ∧
    (x.inbound = true → x.state = 4 → batches = x.count → exec (.rspSeal ix h sid new_ tepoch batches grains) s =
      .next (u.updSess ix (fun x => { x with state := 5, sid := sid, sealReq := some (new_, batches, grains) })).settle) ∧
    (x.inbound = false → x.state = 5 → exec (.rspSeal ix h sid new_ tepoch batches grains) s =
      .next ((u.updSess ix (fun x => { x with state := 6, slot := some tepoch })).emit (.rspClose ix)).settle)) ∧
  (∀ (ix : Fin 64) (trailers : List (Nat × Bytes)) (extra : List Nat) (x : RSess) (s : State), s.sessOf ix = some x → x.inbound = false → x.state = 4 → s.rateOk x = true →
    x.batches.length < max 1 (min 256 (s.rf R.RPL.CFG2.WINDOW)) →
    (x.walked = false → exec (.diffWalkBatch ix trailers extra) s = .next (s.rplWalk ix trailers).settle) ∧
    (x.walked = true → x.kind = 3 → exec (.diffWalkBatch ix trailers extra) s = .next (s.rplExtra ix extra trailers).settle))

/-- A record of a session is checked in R510's order: FORMAT unless MAGIC, TYPE, VER and SEALED fit and LEN is at most 1 MiB, LENGTH unless the trailer stands where LEN ends,
SEQUENCE unless RSEQ is the next expected value, AUTH unless a sealed record's tag verifies. The first failure is answered with its code and the connection closed; a record
that passes is accepted and RSEQ rises by 1 (R510). -/
def Obligations.SessionRecordsInOrder : Prop :=
  ∀ (i : Nat) (h : RHdr) (need : Bool) (x : RSess) (s : State), s.sessOf i = some x →
    ((h.fmtOk = false ∨ h.sealed ≠ need ∨ 1048576 < h.len) → s.rspRecv i h need = (false, s.rplAbort i 0x03 0)) ∧
    (h.fmtOk = true → h.sealed = need → h.len ≤ 1048576 → h.trailer = false → s.rspRecv i h need = (false, s.rplAbort i 0x04 0)) ∧
    (h.fmtOk = true → h.sealed = need → h.len ≤ 1048576 → h.trailer = true → h.rseq ≠ x.rxSeq → s.rspRecv i h need = (false, s.rplAbort i 0x05 0)) ∧
    (h.fmtOk = true → h.sealed = need → h.len ≤ 1048576 → h.trailer = true → h.rseq = x.rxSeq → need = true → h.authOk = false →
      s.rspRecv i h need = (false, s.rplAbort i 0x02 0)) ∧
    (h.fmtOk = true → h.sealed = need → h.len ≤ 1048576 → h.trailer = true → h.rseq = x.rxSeq → (need = true → h.authOk = true) →
      ∃ (u : State) (y : RSess), s.rspRecv i h need = (true, u) ∧ u.sessOf i = some y ∧ y.rxSeq = x.rxSeq + 1 ∧ y.lastAt = s.now ∧ y.state = x.state ∧
        u.regs = s.regs ∧ u.maps = s.maps ∧ u.mem = s.mem ∧ u.out = s.out) ∧
    (∀ c d : Nat, (s.rplAbort i c d).sessOf i = none ∧ (s.rplAbort i c d).out.getLast? = some (.rspClose i))

/-! ## Engines and keys -/

/-- DGE and CPH take the descriptor at the front of their ring, run it on a core, and write its output, STATUS and counters when the core has had the time its length takes;
a chain whose next part is late ends, an aged request moves up (R530 to R535, R540 to R547). -/
def Obligations.EnginesComplete : Prop :=
  (∀ (ix : Fin 65536) (s : State), exec (.dgeFwqPost ix) s = .next ((s.wf R.DGE.FWQ_WR.INDEX ix).dgeBad 65536) ∧
    exec (.cphFwqPost ix) s = .next ((s.wf R.CPH.FWQ_WR.INDEX ix).cphBad 65536)) ∧
  (∀ (a : Nat) (s : State), s.ringFront dgeRing = some a → s.dgeChain = none → s.blockOn Pg.DGE = true →
    (s.dFld a 0 1 = 1 → exec .sha256 s = .next ((s.dgeNew a).dgeBad 65536)) ∧ (s.dFld a 0 1 = 2 → exec .hmac s = .next ((s.dgeNew a).dgeBad 65536)) ∧
    (s.dFld a 0 1 = 3 → exec .compareDigest s = .next ((s.dgeNew a).dgeBad 65536))) ∧
  (∀ (a k : Nat) (r : DgeReq) (s : State), s.ringFront dgeRing = some a → s.dgeChain = some (k, r) →
    (r.op = 1 → exec .sha256 s = .next ((s.dgeNext k r a).dgeBad 65536)) ∧ (r.op = 2 → exec .hmac s = .next ((s.dgeNext k r a).dgeBad 65536))) ∧
  (∀ (a n : Nat) (s : State), s.dFld a 0 1 = 3 → s.dFld a 4 4 = n → n ≤ 32 → s.inFw (s.dFld a 8 8) n = true → s.inFw (s.dFld a 0x18 8) n = true →
    s.dgeNew a = (s.dgeAdv.inc R.DGE.CNT_CMP.COUNT).dgeEnd a
      (if padTo 32 (s.load (hbmBase + s.dFld a 8 8) n) = padTo 32 (s.load (hbmBase + s.dFld a 0x18 8) n) then 0 else 4)) ∧
  (∀ (a n : Nat) (s : State), s.dFld a 0 1 = 1 → s.dFld a 1 1 = 0 → s.dFld a 4 4 = n → s.inFw (s.dFld a 8 8) n = true → s.inFw (s.dFld a 0x10 8) 32 = true →
    s.dgeFree.isSome = true → 0 < s.rf R.DGE.STAT.CORES → n ≤ 65536 → ∃ (v : State) (r : DgeReq), s.dgeNew a = v.engineShow ∧ v.mem = s.mem ∧
      v.sec.dreq = aset s.sec.dreq s.sec.next r ∧ r.op = 1 ∧ r.data = s.load (hbmBase + s.dFld a 8 8) n ∧ r.dst = s.dFld a 0x10 8 ∧ r.chain = false ∧ r.at0 = s.now) ∧
  (∀ (k : Nat) (r : DgeReq) (s : State), aget s.sec.dreq k = some r → r.chain = false → r.core.isSome = true → r.at0 + 16 * digestBlocks r.op r.data.length ≤ s.now →
    exec (.digestComplete k) s = .next ((((s.dgeDrop k).store (hbmBase + r.dst) (if r.op = 2 then hmac r.key r.data else sha256 r.data)).incWrap R.DGE.CNT_MSG.COUNT).dgeEnd r.desc 0)) ∧
  (∀ (k : Nat) (r : DgeReq) (s : State), aget s.sec.dreq k = some r → r.chain = true → s.ringPosted dgeRing = 0 → r.last + s.rf R.DGE.CFG.CHAIN_US * 1000 ≤ s.now →
    exec (.chainTimeout k) s = .next ((s.dgeDrop k).dgeEnd r.desc 9)) ∧
  (∀ (a : Nat) (s : State), s.ringFront cphRing = some a → s.blockOn Pg.CPH = true →
    (s.dFld a 0 1 = 1 → exec .xtsEnc s = .next ((s.cphNew a).cphBad 65536)) ∧ (s.dFld a 0 1 = 2 → exec .xtsDec s = .next ((s.cphNew a).cphBad 65536)) ∧
    (s.dFld a 0 1 = 3 → exec .gcmEnc s = .next ((s.cphNew a).cphBad 65536)) ∧ (s.dFld a 0 1 = 4 → exec .gcmDec s = .next ((s.cphNew a).cphBad 65536))) ∧
  (∀ (k t : Nat) (r : CphReq) (s : State), aget s.sec.creq k = some r → r.core = some t → 8 * t + 5 * cdiv (r.len + r.auxLen) 16 ≤ 8 * s.now →
    exec (.cipherComplete k) s = .next (((s.cphDrop k).store (hbmBase + r.dst) (s.cphOutput r).1).cphEnd r.desc (s.cphOutput r).2).cphGo) ∧
  (∀ (r : CphReq) (s : State), (r.op = 1 → s.cphOutput r = (xtsEnc r.key r.iv (s.load (hbmBase + r.src) r.len), 0)) ∧
    (r.op = 2 → s.cphOutput r = (xtsDec r.key r.iv (s.load (hbmBase + r.src) r.len), 0)) ∧
    (r.op = 4 → gcmDec r.key (r.iv.take 12) (s.load (hbmBase + r.aux) r.auxLen) (s.load (hbmBase + r.src) r.len) (s.load (hbmBase + r.src + r.len) 16) = none →
      s.cphOutput r = (zeros r.len, 3))) ∧
  (∀ (k : Nat) (r : CphReq) (s : State), aget s.sec.creq k = some r → r.core = none → r.aged = false → r.at0 + s.rf R.CPH.CFG.AGE_US * 1000 < s.now → ∃ v : State,
    exec (.cphRequestAged k) s = .next (v.inc R.CPH.CNT_AGED.COUNT).cphGo ∧ v.sec.creq = aupd s.sec.creq k (fun (x : CphReq) => { x with aged := true }) ∧ v.regs = s.regs)

/-- Keys come and go by SEC's commands, each once at a time: IMPORT, GENERATE, LOAD and ERASE of a slot; a slot is empty when its requests have finished. Signatures take an
index each and leave when they verify; measurements extend; an alarm clears every key and ends what needs one (R549 to R558, R561 to R568). -/
def Obligations.KeysComplete : Prop :=
  (∀ (eng : Fin 2) (slot : Fin 8192) (s : State), s.flag R.SEC.KEY_STAT.PENDING = false → s.flag R.SEC.STAT.ZEROISED = false →
    exec (.importCmd eng slot) s = .next (s.keyImport eng slot) ∧ exec (.generate eng slot) s = .next (s.keyGenerate eng slot) ∧
    exec (.loadCmd eng slot) s = .next (s.keyLoad eng slot) ∧ exec (.erase eng slot) s = .next (s.keyErase eng slot)) ∧
  (∀ (eng : Fin 2) (slot : Fin 8192) (s : State), s.flag R.SEC.KEY_STAT.PENDING = true → exec (.importCmd eng slot) s = .next (s.wf R.SEC.KEY_STAT.RESULT 2) ∧
    exec (.generate eng slot) s = .next (s.wf R.SEC.KEY_STAT.RESULT 2) ∧ exec (.loadCmd eng slot) s = .next (s.wf R.SEC.KEY_STAT.RESULT 2) ∧
    exec (.erase eng slot) s = .next (s.wf R.SEC.KEY_STAT.RESULT 2)) ∧
  (∀ (eng slot n : Nat) (key : Bytes) (s : State), s.flag R.SEC.CFG.CLEAR_IMPORT = true → s.keyArgOk eng slot = true → n = klenOf eng (s.rf R.SEC.KEY_ARG.KIND) →
    s.inFw (s.rf R.SEC.KEY_IN.ADDR) n = true → s.keyAt eng slot = none → key = s.load (hbmBase + s.rf R.SEC.KEY_IN.ADDR) n → weakKey eng (s.rf R.SEC.KEY_ARG.KIND) key = false →
    ∃ v : State, s.keyImport eng slot = v.keyDone 0 ∧ v.keyAt eng slot = some { kind := s.rf R.SEC.KEY_ARG.KIND, key := key, kid := s.rf R.SEC.KEY_KID.KID } ∧ v.regs = s.regs ∧
      ∀ j, j ≠ slot → v.keyAt eng j = s.keyAt eng j) ∧
  (∀ (eng slot : Nat) (k : Key) (s : State), s.keyAt eng slot = some k → (s.keyErase eng slot).keyAt eng slot = some { k with dying := true } ∧
    (s.keyErase eng slot).sec.erase = some (eng, slot)) ∧
  (∀ (eng slot : Nat) (s : State), s.sec.erase = some (eng, slot) → s.slotBusy eng slot = false → ∃ v : State, exec .keyEraseDone s = .next (v.keyDone 0) ∧
    v.keyAt eng slot = none ∧ v.sec.erase = none ∧ v.regs = s.regs) ∧
  (∀ (mreg : Fin 4) (s : State), s.flag R.SEC.SIGN_STAT.PENDING = false → s.flag R.SEC.STAT.ZEROISED = false →
    exec .quote s = .next s.signQuote ∧ exec .pubkey s = .next s.signPubkey ∧ exec .genIdentity s = .next s.genIdentity ∧
    (s.inFw (s.rf R.SEC.SIGN_IN.ADDR) 32 = true → s.sec.meas.length = 4 → ∃ v : State, exec (.measExtend mreg) s = .next (v.signDone 0) ∧
      v.sec.meas = s.sec.meas.set mreg (sha256 (padTo 32 (nthD s.sec.meas mreg []) ++ s.load (hbmBase + s.rf R.SEC.SIGN_IN.ADDR) 32)) ∧ v.regs = s.regs ∧ v.mem = s.mem)) ∧
  (∀ (seed I : Bytes) (s : State), s.sec.ident = some (seed, I) → s.inFw (s.rf R.SEC.SIGN_OUT.ADDR) 8192 = true →
    s.signPubkey = (s.store (hbmBase + s.rf R.SEC.SIGN_OUT.ADDR) (identPub I seed)).signDone 0) ∧
  (∀ s : State, s.mode ≠ .service → s.genIdentity = s.signDone 8) ∧
  (∀ (j : SignJob) (s : State), s.sec.job = some j → s.flag R.SEC.STAT.READY = true → s.sec.trees.contains (j.q / 32768) = true →
    exec (.signatureRelease true) s = .next (s.signRelease j).signNext ∧
    (j.again = true → ∃ v : State, v.sec.job = none ∧ v.regs = s.regs ∧ exec (.signatureRelease false) s = .next (v.signRefuse j.forSeal 7).signNext)) ∧
  (∀ (q : Nat) (s u : State), s.takeIndex = some (q, u) → s.fuses.reservation ≤ u.fuses.reservation ∧ u.fuses.reservation ≤ max 8192 s.fuses.reservation ∧
    (s.sec.block = true → s.sec.used < 1024 → u.fuses = s.fuses ∧ u.sec.used = s.sec.used + 1)) ∧
  (∀ (drk : Bytes) (s : State), s.mode = .service → s.sec.drk = some drk → s.rf R.SEC.STAT.RNG ≠ 0 →
    (s.flashOk = false → s.genIdentity = { s.wf R.SEC.SIGN_STAT.PENDING 1 with sec := { s.sec with genWait := true } }) ∧
    (s.flashOk = true → ∃ v : State, s.genIdentity = v.signDone 0 ∧ v.sec.ident.isSome = true ∧ v.sec.trees = [])) ∧
  (∀ s : State, s.sec.genWait = false → s.sec.ident.isSome = true → ∃ v : State, exec .nodeTablesReady s = .next v ∧ v.sec.trees = [s.nextTree] ∧ v.mem = s.mem) ∧
  (∀ s : State, s.flag R.SEC.STAT.READY = true → s.sec.ident.isSome = true → s.sec.job = none → 16384 ≤ s.rf R.SEC.NEXT_Q.INDEX % 32768 →
    s.sec.trees.contains (s.nextTree + 1) = false → ∃ v : State, exec .nextTreeBuild s = .next v ∧ v.sec.trees = s.sec.trees ++ [s.nextTree + 1] ∧ v.regs = s.regs) ∧
  (∀ (src : Fin 5) (s v w : State), (src.val = 4 → s.flag R.SEC.CFG.TAMPER_EN = true) →
    w = ((s.wf R.SEC.ALARM.SRC (setBit (s.rf R.SEC.ALARM.SRC) src true)).wf R.SEC.STAT.ZEROISED 1).zeroKeys →
    v = (if w.zeroCommands.mode = .vault then { w.zeroCommands with sgb := { w.zeroCommands.sgb with vaultStuck := true } } else w.zeroCommands) →
    exec (.alarm src) s = .next (((v.evrEvent 3 Unit.sec (v.rf R.SEC.ALARM.SRC)).raise Pg.SEC 0).settle) ∧
    w.sec.dge = [] ∧ w.sec.cph = [] ∧ w.sec.drk = none ∧ w.sec.ident = none) ∧
  (∀ (n : Fin 2) (s v : State), bit (s.rf R.SEC.STAT.RNG) n = true → v = s.wf R.SEC.STAT.RNG (setBit (s.rf R.SEC.STAT.RNG) n false) →
    exec (.noiseSourceFail n) s = .next ((v.raise Pg.SEC (if v.rf R.SEC.STAT.RNG = 0 then 2 else 1)).settle))

/-! ## Core cluster and interrupts -/

/-- Cores: a core once running stays so, stamps are read through its CSRs, a compare match sets the timer bits, accesses reach device pages, memory or a cache by region,
and what no region holds faults (R574, R575, R577 to R580, R583, R592, R595). -/
def Obligations.CoresComplete : Prop :=
  (∀ (v : BitVec 32) (s : State), s.regsWf = true → ∃ t : State, exec (.coreRunWrite v) s = .next t ∧ t.rf R.CCL.CORE_RUN.RUN = (s.rf R.CCL.CORE_RUN.RUN ||| v.toNat % 2 ^ 24)) ∧
  (∀ (c : Fin 24) (s u : State) (o : Ostamp), s.coreRuns c = true →
    (s.issue (Unit.core c) = (some o, u) → exec (.stampCsrRead c false false) s = .next (u.emit (.readData c 0xCC0 (o % 2 ^ 64)))) ∧
    exec (.stampCsrRead c true false) s = .next (s.emit (.readData c 0xCC1 (agetD s.tbs.issuers (Unit.core c) 0 / 2 ^ 64))) ∧
    (∀ hi : Bool, exec (.stampCsrRead c hi true) s = .next (s.emit (.illegal c (if hi then 0xCC1 else 0xCC0))))) ∧
  (∀ (c : Fin 24) (v : BitVec 64) (s : State), exec (.timerCompareMatch c none) s = .next (s.timerSet c) ∧
    exec (.timerCompareMatch c (some v)) s = .next ((s.updCore c (fun k => { k with stimecmp := v.toNat })).timerSet c)) ∧
  (∀ (c : Fin 24) (pc a : Nat) (acc : CoreAcc) (env : WriteEnv) (s : State), s.coreRuns c = true → (∀ n, acc ≠ .walk n) →
    exec (.coreDataAccess c pc a acc env) s = .next (s.coreAccess env c pc a acc) ∧
    (hbmBase ≤ a → a + accLen acc ≤ hbmBase + 51539607552 → s.inFw (a - hbmBase) (accLen acc) = true → s.coreAccess env c pc a acc = s.coreMem c pc a acc true) ∧
    (hbmBase ≤ a → a + accLen acc ≤ hbmBase + 51539607552 → s.inFw (a - hbmBase) (accLen acc) = false → s.mode ≠ .service →
      s.coreAccess env c pc a acc = s.emit (.accessFault c a)) ∧
    (0x44000000 ≤ a → 0 < accLen acc → a + accLen acc ≤ hbmBase → s.coreAccess env c pc a acc = (s.emit (.accessFault c a)).raise Pg.CCL 7)) ∧
  (∀ (c : Fin 24) (pc a n : Nat) (env : WriteEnv) (s : State), exec (.coreDataAccess c pc a (.walk n) env) s = .next (s.walkRead a n)) ∧
  (∀ (c pc a : Nat) (d : Bytes) (s : State), s.l2State ≠ 1 → (s.coreMem c pc a (.store d) true).mem = (s.store a d).mem ∧
    (∀ n, 65536 ≤ a → s.readable a n = true → (s.coreMem c pc a (.load n) true).out = s.out ++ [.readData c a (leVal (s.physBytes a n))] ∧
      (s.coreMem c pc a (.load n) true).mem = s.mem) ∧
    (∀ n, s.readable a n = false → s.coreMem c pc a (.load n) true = s.emit (.accessFault c a)) ∧
    (s.coreMem c pc a (.sc d) true).mem = (if (s.core c).resv = some (a / 64) then (s.store a d).mem else s.mem))

/-- Caches and interrupts: a privileged miss's chunk and a fill restart their requesters, L2 goes through OFF, INVALIDATING, ON and DRAINING by its commands, ways are preloaded
and locked; sources are asserted, claimed by the highest priority and completed by the core that claimed them (R591, R592, R596 to R600, R602 to R608). -/
def Obligations.CachesAndInterruptsComplete : Prop :=
  (∀ (line : Nat) (m : MissReg) (s : State), s.ccl.regs.find? (fun m => m.line == line) = some m →
    exec (.l2LineFill line) s = .next (s.l2Fill m) ∧
    (∀ (r : CacheReq) (t : List CacheReq), m.reqs = r :: t → r.priv = true → m.prefetched = false → r.answered = false → ∃ v : State,
      exec (.criticalChunk line) s = .next v ∧ v.out = (s.restart r).out ∧ v.mem = s.mem ∧
      v.ccl.regs = s.ccl.regs.map (fun (x : MissReg) => if x.line = line then { x with reqs := { r with answered := true } :: t } else x))) ∧
  (∀ s : State, s.regsWf = true → s.l2State = 0 → s.flag R.CCL.L2_STATE.BUSY = false → ∃ v : State, exec .l2Invalidate s = .next v ∧ v.l2State = 3 ∧ v.flag R.CCL.L2_STATE.BUSY = true) ∧
  (∀ s : State, s.regsWf = true → s.l2State = 3 → ∃ v : State, exec .l2InvalidateDone s = .next v ∧ v.l2State = 0 ∧ v.flag R.CCL.L2_STATE.INV_DONE = true ∧ v.ccl.l2 = [] ∧ v.ccl.side = []) ∧
  (∀ s : State, s.regsWf = true → s.l2State = 0 → s.flag R.CCL.L2_STATE.INV_DONE = true → ∃ v : State, exec .l2Enable s = .next v ∧ v.l2State = 1) ∧
  (∀ s : State, s.l2State = 0 → s.flag R.CCL.L2_STATE.INV_DONE = false → exec .l2Enable s = .next (s.l2Bad R.CCL.L2_STATE.ENABLE_NO_INV)) ∧
  (∀ s : State, s.regsWf = true → s.l2State = 1 → ∃ v : State, exec .l2Disable s = .next v ∧ v.l2State = 2 ∧ v.ccl.side = [] ∧ v.mem = s.mem) ∧
  (∀ s : State, s.regsWf = true → s.l2State = 2 → ∃ v : State, exec .l2DrainComplete s = .next v ∧ v.l2State = 0 ∧ v.ccl.l2 = [] ∧
    v.rf R.CCL.L2_DRAIN_COUNT.LINES = min (s.ccl.drained + (s.ccl.l2.filter (fun x => x.dirty)).length) 0xFFFFFFFF) ∧
  (∀ (w : Fin 16) (a n : Nat) (s : State), s.l2State = 1 → s.flag R.CCL.L2_STATE.BUSY = false → s.rf R.CCL.L2_PRELOAD_ADDR.ADDR = a → s.rf R.CCL.L2_PRELOAD_LEN.BYTES = n →
    a % 64 = 0 → n % 64 = 0 → 0 < n → a / 1048576 = (a + n - 1) / 1048576 → s.cacheable a = true → s.cacheable (a + n - 1) = true → bit (s.rf R.CCL.L2_LOCK.WAYS) w = false →
    ∃ v : State, exec (.l2Preload w) s = .next v ∧ v.ccl.preload = some w.val ∧ v.ccl.l2 = s.ccl.l2 ∧ v.mem = s.mem) ∧
  (∀ (w : Nat) (s v : State), s.ccl.preload = some w → s.l2State = 1 → v = { s.wf R.CCL.L2_STATE.BUSY 0 with ccl := { s.ccl with preload := none } } → v.l2State = 1 → ∀ u : State,
    u = (List.range (v.rf R.CCL.L2_PRELOAD_LEN.BYTES / 64)).foldl (fun s k => s.preloadLine w (v.rf R.CCL.L2_PRELOAD_ADDR.ADDR / 64 + k)) v →
    exec .l2PreloadDone s = .next (u.wf R.CCL.L2_PRELOADED.WAYS (setBit (u.rf R.CCL.L2_PRELOADED.WAYS) w true))) ∧
  (∀ (v : BitVec 32) (s : State), exec (.l2LockWrite v) s = .next (s.l2LockWrite v.toNat)) ∧
  (∀ (src : Fin 128) (s : State), 2 ≤ src.val → src.val ≤ 65 → (src.val % 2 = 1 → s.errLine (src / 2) = true) →
    exec (.interruptAssert src) s = .next (s.assertWith (fun o s => s.occur o) src)) ∧
  (∀ (c b : Fin 24) (sup : Bool) (k : Nat) (s : State), k = s.claimSource c (b2n sup) → k ≠ 0 → ∃ v : State, exec (.interruptClaim c sup b) s = .next v ∧
    aget v.irq.inService k = some (c * 2 + b2n sup) ∧ v.regs = s.regs ∧ v.out = s.out ++ [.readData b (0x02000000 + c * 4096 + (if sup then 0x2C else 0x24)) k]) ∧
  (∀ (c : Nat) (p k j : Nat) (s : State), k = s.claimSource c p → s.eligible c p j = true → j < 66 → 0 < j →
    s.eligible c p k = true ∧ (s.irqPrio j < s.irqPrio k ∨ (s.irqPrio j = s.irqPrio k ∧ k ≤ j))) ∧
  (∀ (c : Fin 24) (sup : Bool) (src : Fin 128) (s : State),
    (aget s.irq.inService src = some (c * 2 + b2n sup) → ∃ v : State, exec (.interruptComplete c sup src) s = .next v ∧ aget v.irq.inService src = none ∧ v.regs = s.regs) ∧
    (aget s.irq.inService src ≠ some (c * 2 + b2n sup) → exec (.interruptComplete c sup src) s = .next s)) ∧
  (∀ (c : Fin 24) (v : Bool) (s : State), exec (.softwareInterruptWrite c false v) s = .next (s.wf (R.CCL.LOC_MSIP.MSIP c) (b2n v)) ∧
    exec (.softwareInterruptWrite c true v) s = .next (s.wf (R.CCL.LOC_SSIP.SSIP c) (b2n v)))

/-! ## Boot, update, recorder and page headers -/

/-- BOOT_OK, CONFIRM and REVERT act on the boot record under their conditions; a probation expires; flash is read; Cabinet records are appended and found; TFTP takes an image
block by block and gives the status file; service-port frames are answered; a flash job ends (R613, R615, R620, R621, R624 to R634). -/
def Obligations.BootAndUpdateComplete : Prop :=
  (∀ s : State, s.flag R.BSV.UPD_STAT.PENDING = false →
    (s.runsTrial = true → s.flashOk = true → exec .bootOk s = .next ((s.putBootRec { s.bootRecord with tries := 0 }).updResult 0)) ∧
    (s.runsTrial = true → s.flashOk = false → exec .bootOk s = .next ((s.wf R.BSV.UPD_STAT.PENDING 1).flPost .bootOk)) ∧
    (s.mode ≠ .boot → s.mode ≠ .vault → s.runsTrial = true → s.flag R.BSV.BOOT_STAT.EXPIRED = false →
      exec (.confirm none) s = .next (s.confirmDone (max s.fuses.antiRollback (s.rf R.BSV.SECVER.RUN)))) ∧
    (s.mode ≠ .boot → s.mode ≠ .vault → s.runsTrial = false → exec (.confirm none) s = .next (s.updResult 3)) ∧
    (∀ want : Nat, s.flashOk = true → ∃ v w : State, s.confirmDone want = w.updResult 0 ∧ v.fuses.antiRollback = want ∧ v.bootRecord = s.bootRecord ∧
      w = ((({ v.confirmTrial v.bootRecord.trial with bsv := { (v.confirmTrial v.bootRecord.trial).bsv with runGen := (v.confirmTrial v.bootRecord.trial).bootRecord.confGen } } : State).wf
        R.BSV.BOOT_STAT.TRIAL 0).wf R.BSV.PROB_END.ESTAMP 0)) ∧
    (s.bootRecord.trial ≠ 0xFF → s.flashOk = true → exec .revert s = .next ((s.putBootRec { s.bootRecord with tries := 3 }).updResult 0)) ∧
    (s.bootRecord.trial = 0xFF → exec .revert s = .next (s.updResult 3))) ∧
  (∀ (b : BootRec) (s : State), (s.putBootRec b).bootRecord = b ∧ (s.putBootRec b).mode = s.mode ∧ (s.putBootRec b).mem = s.mem ∧ (s.putBootRec b).fuses = s.fuses) ∧
  (∀ s : State, s.runsTrial = true → s.flag R.BSV.BOOT_STAT.EXPIRED = false → s.rf R.BSV.PROB_END.ESTAMP ≤ s.tbs.phys →
    exec .probationExpiry s = .next (((s.wf R.BSV.BOOT_STAT.EXPIRED 1).raise Pg.BSV 2).event Pg.BSV)) ∧
  (∀ (a k h : Nat) (s : State), s.flag R.BSV.FL_STAT.PENDING = false → s.rf R.BSV.FL_ADDR.ADDR = a → s.rf R.BSV.FL_LEN.BYTES = k → s.rf R.BSV.FL_HBM.ADDR = h →
    (a + k ≤ 0x10000000 → s.inFw h k = true → exec .flRead s = .next ((s.store (hbmBase + h) (s.flRead a k)).flResult 0)) ∧
    (0x10000000 < a + k → exec .flRead s = .next (s.flResult 7)) ∧
    (∀ b : Bytes, s.cabValue (s.rf R.BSV.CAB_SEL.CLASS) (s.rf R.BSV.CAB_SEL.FMT) (s.rf R.BSV.CAB_KEY.KEY) = some b → b.length ≤ k → s.inFw h b.length = true →
      exec .cabFind s = .next (((s.store (hbmBase + h) b).wf R.BSV.FL_STAT.LEN b.length).flResult 0)) ∧
    (s.cabValue (s.rf R.BSV.CAB_SEL.CLASS) (s.rf R.BSV.CAB_SEL.FMT) (s.rf R.BSV.CAB_KEY.KEY) = none → exec .cabFind s = .next (s.flResult 4)) ∧
    (s.inFw h (32 + s.cabRequest.body.length) = true → s.cabRequest.body.length ≤ 65472 → 0x100 ≤ s.cabRequest.cls → s.cabRequest.fmt = s.bsv.runFmt → 32 ≤ s.cabFreeSectors →
      ∃ v : State, exec .cabAppend s = .next v ∧ v.bsv.jobs = s.bsv.jobs ++ [.cabAppend s.cabRequest] ∧ v.mem = s.mem ∧ v.bsv.cab = s.bsv.cab)) ∧
  (∀ s : State, s.flashOk = true → s.cabFreeSectors < 32 → exec .cabinetCompact s = .next s.cabCompact) ∧
  (∀ (tid : Nat) (s : State), s.bsv.tftp = none →
    (∀ (mode : Bytes) (blk : Option Nat), s.stagingOn = true → s.flashOk = true → s.runsTrial = false → lowerAscii mode = ascii "octet" → (∀ b, blk = some b → 8 ≤ b) → ∃ (v : State) (t : Tftp),
      exec (.tftpWrq tid (ascii "image") mode blk) s = .next (if blk.isSome then v.tftpSend t 6 (tftpBlk blk) [] else v.tftpSend t 4 0 []) ∧
      t.upload = true ∧ t.tid = tid ∧ t.slot = s.targetSlot ∧ t.nextBlk = 1 ∧ t.bytes = 0 ∧ v.bsv.incomplete.contains s.targetSlot = true ∧ v.bootRecord.trial ≠ s.targetSlot) ∧
    (∀ (mode : Bytes) (blk : Option Nat), lowerAscii mode = ascii "octet" → (∀ b, blk = some b → 8 ≤ b) → ∃ t : Tftp, t.upload = false ∧ t.header = s.statusFile ∧ t.tid = tid ∧
      exec (.tftpRrq tid (ascii "status") mode blk) s = .next (if blk.isSome then s.tftpSend t 6 (tftpBlk blk) [] else s.tftpSend t 3 1 (statusBlock t 1))) ∧
    (∀ (name mode : Bytes) (blk : Option Nat), s.stagingOn = false → exec (.tftpWrq tid name mode blk) s = .next (s.tftpError tid 2 1 "DISABLED"))) ∧
  (∀ (t : Tftp) (s : State), s.bsv.tftp = some t →
    (∀ (block : Fin 65536) (data : Bytes), t.upload = true → data.length ≤ t.blksize → s.bsv.jobs = [] → block.val = t.nextBlk % 65536 → s.stagingOn = true →
      t.bytes + data.length ≤ imageMax → ∃ v : State, exec (.tftpData t.tid block data) s = .next v ∧
        v.bsv.jobs = [.slotData (slotBase t.slot + t.bytes) data (decide (data.length < t.blksize)) block] ∧ v.flash = s.flash ∧ v.regs = s.regs) ∧
    (∀ (block : Fin 65536) (data : Bytes), t.upload = true → t.blksize < data.length → ∃ v : State, exec (.tftpData t.tid block data) s = .next v ∧ (Config.takesLong s.freeCtr = false → v = s.draw)) ∧
    (∀ block : Fin 65536, t.upload = false → block.val = t.nextBlk → (t.nextBlk ≠ 0) →
      ((statusBlock t t.nextBlk).length < t.blksize → ∃ v : State, exec (.tftpAck t.tid block) s = .next v ∧ v.bsv.tftp = none) ∧
      (t.blksize ≤ (statusBlock t t.nextBlk).length →
        exec (.tftpAck t.tid block) s = .next (s.tftpSend { t with nextBlk := t.nextBlk + 1 } 3 (t.nextBlk + 1) (statusBlock t (t.nextBlk + 1))))) ∧
    (t.lastAt + oneS ≤ s.now → t.retries < 5 → ∃ v : State, exec .tftpRetransmit s = .next v ∧ v.bsv.tftp = some { t with retries := t.retries + 1, lastAt := s.now } ∧
      v.out = s.out ++ [.tftp t.tid (leAt t.lastSent 0 2) (leAt t.lastSent 2 2) (t.lastSent.drop 4)]) ∧
    (t.lastAt + oneS ≤ s.now → 5 ≤ t.retries → exec .tftpRetransmit s = .next s.tftpAbandon)) ∧
  (∀ (sender : Nat) (src ident seq : Nat) (data : Bytes) (s : State), exec (.servicePortFrame .other) s = .next s ∧
    exec (.servicePortFrame (.arpRequest (s.rf R.BSV.SVC_IP.ADDR) sender)) s = .next (s.emit (.arpReply (s.rf R.BSV.SVC_IP.ADDR) sender)) ∧
    exec (.servicePortFrame (.icmpEcho (s.rf R.BSV.SVC_IP.ADDR) src ident seq data)) s = .next (s.emit (.icmpReply src ident seq data))) ∧
  (∀ (r : CabRec) (js : List FlJob) (s : State), s.bsv.jobs = .cabAppend r :: js → s.flashOk = true → s.tbs.ceilWrite = none → ∃ u v : State,
    exec (.bootFlashProgramDone true) s = .next (((u.cabPut r).wf R.BSV.FL_STAT.PENDING 0).flResult 0) ∧ u.bsv.jobs = js ∧ u.bsv.cabSeq = r.seq ∧ u.regs = s.regs ∧
    exec (.bootFlashProgramDone false) s = .next (((v.raise Pg.BSV 4).wf R.BSV.FL_STAT.PENDING 0).flResult 6) ∧ v.bsv.jobs = js ∧ v.bsv.cab = s.bsv.cab)

/-- Samples are folded into the open hour, ended periods and queued events are written, units go down in power and back up; fault groups clear while their error line is low;
the log's read index, FAULT_N's hold and pulse, and the CTL and ERR_INJ words of every live page act (R646, R650 to R652, R655 to R666, R675 to R680). -/
def Obligations.RecorderAndControlComplete : Prop :=
  (∀ (temps : List Int) (rails : List Nat) (s : State), s.fcl.fusesLoaded = true → (∀ t, s.evr.sampleAt = some t → t + 1000000000 ≤ s.estamp) → ∃ (ts : List Int) (v : State),
      ts.length = 12 ∧ (∀ i, i < 12 → i < temps.length → ts[i]? = temps[i]?) ∧
      exec (.evrSample temps rails) s = .next (if ts.any (fun t => decide ((v.rf R.EVR.TEMP_WARN.TEMP : Int) ≤ t)) then v.raise Pg.EVR 0 else v) ∧
      v.evr.sampleAt = some s.estamp ∧ v.evr.hour.samples = s.evr.hour.samples + 1 ∧ v.maps = s.maps ∧ v.mem = s.mem) ∧
  (∀ (tier : Fin 3) (ok : Bool) (s : State), s.fcl.fusesLoaded = true → s.flashOk = true → s.periodDue tier = true → (∀ k, k < tier.val → s.periodDue k = false) → exec (.evrPeriodClose tier ok) s = .next (s.closePeriod tier false ok)) ∧
  (∀ (ok : Bool) (s : State), s.flashOk = true → s.evr.queue ≠ [] → s.evr.queue.length ≤ 64 → s.evr.recent = [] → ∃ v : State, exec (.evrEventProgram ok) s = .next v ∧
    v.evr.queue = [] ∧ v.evr.recent = s.evr.queue.map (fun _ => s.now) ∧ v.mem = s.mem) ∧
  (∀ (page : Fin 33) (unit : Fin 256) (idle : Nat) (s : State), s.deepest page unit = 1 → 5 < page.val → fusedOff s.fuses.variant page = false →
    s.rf (R.HDR.PWR_CTL.POLICY page) = 0 → 1000 ≤ idle → (agetD s.pwr (pwrKey page unit) {}).state = 0 →
    exec (.powerStateEntry page unit idle) s = .next { s with pwr := aset s.pwr (pwrKey page unit) { state := 1, idleAt := s.now - idle } }) ∧
  (∀ (page : Fin 33) (unit : Fin 256) (s : State), exec (.powerStateExit page unit) s = .next { s with pwr := adel s.pwr (pwrKey page unit) }) ∧
  (∀ (v : BitVec 64) (s : State), exec (.fclFaultClear v) s = .next (s.faultClear v.toNat)) ∧
  (∀ (i : Fin 64) (b : Bool) (s : State), s.regsWf = true → ∃ u v : State, exec (.fclLogRdWrite i) s = .next u ∧ u.rf R.FCL.LOG_RD.INDEX = i ∧
    exec (.pinHoldWrite b) s = .next v ∧ v.rf R.FCL.PIN_HOLD.HOLD = b2n b) ∧
  (∀ (t : Nat) (s : State), s.fcl.lastQual = some t → t + max 20 (s.rf R.FCL.PIN_CFG.PULSE_US) * 1000 ≤ s.now →
    exec .faultNPulseEnd s = .next { s with fcl := { s.fcl with lastQual := none } }) ∧
  (∀ (page : Fin 64) (s : State), s.pageLive page = true →
    (∀ v : Bool, exec (.ctlEnWrite page v) s = .next ((s.setEn page v).enSync page) ∧ (v = false → (s.setEn page v).blockOn page = false → (s.setEn page v).enSync page = s.setEn page v) ∧ (enFixed page = true → s.setEn page v = s)) ∧
    (s.flag (R.HDR.CTL.EN page) = false → s.busy page = false → exec (.blockStopped page) s = .next (s.wf (R.HDR.STAT.STOPPED page) 1)) ∧
    (s.flag (R.HDR.CTL.EN page) = true → exec (.softReset page) s = .next (s.wf (R.HDR.STAT.RST_REFUSED page) 1)) ∧
    (softRst (blockOf page) = true → s.flag (R.HDR.CTL.EN page) = false → s.busy page = false → ∃ v : State, exec (.softReset page) s = .next v ∧ v.busy page = true) ∧
    exec (.ctlFenceWrite page) s = .next (s.fenceBlock page).fenceSync ∧
    (∀ v : BitVec 31, exec (.ctlLockWrite page v) s = .next ((s.ctlWrite page (v.toNat + 2147483648)).fenceSync.enSync page)) ∧
    (∀ v : BitVec 32, s.flag R.FCL.INJ_CFG.EN = false → v ≠ 0 → exec (.errInjWrite page v) s = .next (s.raise Pg.FCL 1).fenceSync) ∧
    (∀ v : BitVec 32, s.flag R.FCL.INJ_CFG.EN = true → exec (.errInjWrite page v) s =
      .next (((onesBelow v.toNat 32).filter (fun i => decide (i < errSources (blockOf page)))).foldl (fun t i => t.inject page i) s).fenceSync)) ∧
  (∀ (page : Fin 64) (s : State), ∃ v : State, exec (.softResetDone page) s = .next v ∧ v.fcl.softRst.contains page.val = false ∧ v.regs = s.regs ∧ v.mem = s.mem)

/-! ## The block as a whole -/

/-- A step takes the command at the front of the queue and runs exec on the state with the queue's rest; with an empty queue a nanosecond of local time passes (logs 1 and 2: the
queue and the tick are the model's own). -/
def Obligations.StepRunsFrontCommand : Prop :=
  (∀ (c : Instr) (rest : List Instr) (s : State), step { s with pending := c :: rest } = exec c { s with pending := rest }) ∧
  (∀ s : State, s.pending = [] → step s = .next s.tick)

/-- At reset the head is in BOOT with no earlier mode, the queue is empty, the invariant holds, no host connection and no session is open, only core 0 is released, every page is
enabled, unlocked and without errors, and registers read the Reset columns of their tables, here sixteen (R52, R575, R667, Tables 9-12, 12-11, 14-9, 14-11, 15-4, 17-1, 17-5, 18-5). -/
def Obligations.ResetState : Prop :=
  State.reset.mode = .boot ∧ State.reset.bsv.prev = none ∧ State.reset.pending = [] ∧ State.reset.out = [] ∧ State.Inv State.reset ∧
  State.reset.io.conns = [] ∧ State.reset.rpl.sess = [] ∧ State.reset.tbs.started = false ∧ State.reset.fcl.softRst = [] ∧ State.reset.ccl.l2 = [] ∧
  State.reset.rf R.CCL.CORE_RUN.RUN = 1 ∧ State.reset.rf R.CCL.L2_STATE.STATE = 0 ∧ State.reset.rf R.CPL.LINK_STAT.STATE = 0 ∧ State.reset.rf R.JRN.CFG.FLUSH_NS = 20000 ∧ State.reset.rf R.CPL.CFG.SPLIT_MS = 30 ∧
  State.reset.rf R.CPL.CFG2.HB_US = 100 ∧ State.reset.rf R.DGE.CFG.LONG_CORES = 8 ∧ State.reset.rf R.SEC.CFG.TAMPER_EN = 1 ∧ State.reset.rf R.SEC.CFG.QUOTE_PER_H = 12 ∧
  State.reset.rf R.FCL.PIN_CFG.PULSE_US = 20 ∧ State.reset.rf R.FCL.PIN_CFG.QUALIFY = 12 ∧ State.reset.rf R.MPE.CT_BITS.BITS = 0 ∧
  (∀ p ∈ allPages, State.reset.rf (R.HDR.ERR_STAT.SRC p) = 0 ∧ State.reset.rf (R.HDR.ERR_MASK.MASK p) = 0 ∧ State.reset.rf (R.HDR.CTL.LOCK p) = 0 ∧
    State.reset.rf (R.HDR.CTL.EN p) = 1)

/-- Whatever a step answers as its next state, registers, memory and boot flash are in their canonical forms in it when they were before: two states with the same contents
are the same data (the model's own invariant, logs 6 and 10). -/
def Obligations.InvKeptByEveryStep : Prop :=
  ∀ s t : State, s.Inv → step s = .next t → t.Inv

/-- Every step answers a next state: no command, on no operands and in no state, faults or refuses (that ordinary data and operand values to which the spec gives no meaning run too
is the model's choice, log 103). -/
def Obligations.EveryStepAnswers : Prop := (∀ s : State, ∃ t : State, step s = .next t) ∧ ∀ (c : Instr) (s : State), ∃ t : State, exec c s = .next t

/-- A journal record written out in its 64 bytes and read back is the same record, every field at every value its width admits (R115, Table 3-7). -/
def Obligations.JournalRecordRoundTrip : Prop :=
  ∀ r : JRec, r.ostamp < 2 ^ 96 → r.typ < 256 → r.flags < 256 → r.idx < 4096 → r.cnt < 4096 → r.head < 2 → r.lane < 32 → r.target < 2 ^ 64 → r.old < 2 ^ 128 → r.new < 2 ^ 128 →
    (jrBytes r).length = 64 ∧ jrParse (jrBytes r) = some r

/-- Each occurrence sets its ERR_STAT bit, whether or not it was set; the first one of a page captures its source and ESTAMP and later ones keep the capture; a masked occurrence does
no more; none touches maps, memory or boot flash (R643 to R645). -/
def Obligations.OccurrenceRecorded : Prop :=
  ∀ (o : Occ) (s : State), s.regsWf = true → 1 ≤ o.page → o.page ≤ 32 → o.src < 32 →
    bit ((s.occur o).rf (R.HDR.ERR_STAT.SRC o.page)) o.src = true ∧
    (s.errMasked o.page o.src = true → s.occur o = s.setErrStat o.page o.src) ∧
    (s.rf (R.HDR.ERR_STAT.SRC o.page) = 0 → (s.setErrStat o.page o.src).rf (R.HDR.ERR_FIRST.SOURCE o.page) = o.src ∧
      (s.setErrStat o.page o.src).rf (R.HDR.ERR_FIRST.VALID o.page) = 1 ∧ (s.setErrStat o.page o.src).rf (R.HDR.ERR_STAMP.ESTAMP o.page) = s.estamp % 2 ^ 64) ∧
    (s.rf (R.HDR.ERR_STAT.SRC o.page) ≠ 0 → (s.setErrStat o.page o.src).rf (R.HDR.ERR_FIRST.SOURCE o.page) = s.rf (R.HDR.ERR_FIRST.SOURCE o.page) ∧
      (s.setErrStat o.page o.src).rf (R.HDR.ERR_STAMP.ESTAMP o.page) = s.rf (R.HDR.ERR_STAMP.ESTAMP o.page)) ∧
    (s.occur o).maps = s.maps ∧ (s.occur o).mem = s.mem ∧ (s.occur o).flash = s.flash
end

