-- ==== Sys2Proof/Laws/Cipher.lean ====
section
/-! SUPPORT. Laws of AES-256-GCM as the model computes it: counter mode keeps the length and undoes itself, and what gcmEnc makes gcmDec opens
(R544). -/
namespace Sys2Proof.Machine

theorem xorBytes_length : ∀ a b : Bytes, (xorBytes a b).length = max a.length b.length
  | [], [] => rfl
  | [], _ :: _ => by simp [xorBytes]
  | _ :: _, [] => by simp [xorBytes]
  | a :: s, b :: t => by simp [xorBytes, xorBytes_length s t]

theorem xorBytes_xorBytes : ∀ a b : Bytes, b.length ≤ a.length → xorBytes (xorBytes a b) b = a
  | [], [], _ => rfl
  | [], _ :: _, h => by simp at h
  | _ :: _, [], _ => by simp [xorBytes]
  | a :: s, b :: t, h => by
    simp only [List.length_cons, Nat.add_le_add_iff_right] at h
    simp only [xorBytes, xorBytes_xorBytes s t h, BitVec.xor_assoc, BitVec.xor_self, BitVec.xor_zero]

theorem le_length (n : Nat) : ∀ k, (le n k).length = k
  | 0 => rfl
  | k + 1 => congrArg (· + 1) (le_length (n / 256) k)

theorem be_length (n k : Nat) : (be n k).length = k := (List.length_reverse ..).trans (le_length n k)

/-- Counter mode over enough blocks keeps the length. -/
theorem gctr_length (key iv : Bytes) : ∀ (k c : Nat) (l : Bytes), l.length ≤ 16 * k → (gctr key iv k c l).length = l.length
  | 0, _, l, h => by simp [gctr]; omega
  | k + 1, c, l, h => by
    have := gctr_length key iv k (c + 1) (l.drop 16) (by simp; omega)
    simp only [gctr, List.length_append, xorBytes_length, this, List.length_take, List.length_drop]
    omega

/-- Counter mode undoes itself. -/
theorem gctr_gctr (key iv : Bytes) : ∀ (k c : Nat) (l : Bytes), l.length ≤ 16 * k → gctr key iv k c (gctr key iv k c l) = l
  | 0, _, l, h => by
    have : l = [] := List.length_eq_zero_iff.1 (by omega)
    simp [gctr, this]
  | k + 1, c, l, h => by
    have hd : (l.drop 16).length ≤ 16 * k := by simp; omega
    have ih := gctr_gctr key iv k (c + 1) (l.drop 16) hd
    have hl := gctr_length key iv k (c + 1) (l.drop 16) hd
    generalize hm : (aesEnc key (iv ++ be c 4)).take (min 16 l.length) = m
    have hml : m.length ≤ min 16 l.length := by rw [← hm]; exact List.length_take_le _ _
    have hx : (xorBytes (l.take 16) m).length = min 16 l.length := by rw [xorBytes_length, List.length_take]; omega
    generalize hg : gctr key iv k (c + 1) (l.drop 16) = g at ih hl
    have e : gctr key iv (k + 1) c l = xorBytes (l.take 16) m ++ g := by simp only [gctr, hm, hg]
    have el : (xorBytes (l.take 16) m ++ g).length = l.length := by simp only [List.length_append, hx, hl, List.length_drop]; omega
    rw [e]
    simp only [gctr, el, hm]
    by_cases h16 : 16 ≤ l.length
    · have h1 : (xorBytes (l.take 16) m).length = 16 := by omega
      rw [List.take_append_of_le_length (by omega), List.take_of_length_le (by omega), xorBytes_xorBytes _ _ (by simp; omega),
        List.drop_append_of_le_length (by omega), List.drop_of_length_le (by omega), List.nil_append, ih, List.take_append_drop]
    · have hg0 : g = [] := List.length_eq_zero_iff.1 (by rw [hl]; simp; omega)
      subst hg0
      rw [List.append_nil, List.take_of_length_le (by omega), xorBytes_xorBytes _ _ (by simp; omega), List.drop_of_length_le (by omega)]
      have : l.drop 16 = [] := List.drop_of_length_le (by omega)
      rw [this] at hg
      rw [hg, List.append_nil, List.take_of_length_le (by omega)]

/-- What gcmEnc seals, gcmDec opens. -/
theorem gcmDec_gcmEnc (key iv aad p : Bytes) : gcmDec key iv aad (gcmEnc key iv aad p).1 (gcmEnc key iv aad p).2 = some p := by
  have h : p.length ≤ 16 * cdiv p.length 16 := by unfold cdiv; omega
  simp only [gcmEnc, gcmDec, if_pos, gctr_length key iv _ 2 p h, gctr_gctr key iv _ 2 p h]

/-- Under another tag than that of gcmEnc, gcmDec opens nothing. -/
theorem gcmDec_other (key iv aad p tag : Bytes) (h : (gcmEnc key iv aad p).2 ≠ tag) : gcmDec key iv aad (gcmEnc key iv aad p).1 tag = none := if_neg h

end Sys2Proof.Machine
end

