-- ==== Sys2Proof/Laws/Dispatch.lean ====
section
/-! SUPPORT. The arm of each command, so that no proof unfolds the dispatch. -/
namespace Sys2Proof.Laws
open Sys2Proof Sys2Proof.Machine

@[simp] theorem exec_registerWrite (r : Requester) (key : Fin 67207168) (v : BitVec 32) (env : WriteEnv) (s : State) : exec (.registerWrite r key v env) s = Sys2Proof.Machine.execRegisterWrite r key v env s := rfl
@[simp] theorem exec_readCapture64 (r : Requester) (key : Fin 67207168) (s : State) : exec (.readCapture64 r key) s = Sys2Proof.Machine.execReadCapture64 r key s := rfl
@[simp] theorem exec_writeUpperShadow (r : Requester) (key : Fin 67207168) (v : BitVec 32) (s : State) : exec (.writeUpperShadow r key v) s = Sys2Proof.Machine.execWriteUpperShadow r key v s := rfl
@[simp] theorem exec_writeLowerCommit (r : Requester) (key : Fin 67207168) (v : BitVec 32) (s : State) : exec (.writeLowerCommit r key v) s = Sys2Proof.Machine.execWriteLowerCommit r key v s := rfl
@[simp] theorem exec_annex64bitAccess (key : Fin 67207168) (wr : Option (BitVec 64)) (env : WriteEnv) (s : State) : exec (.annex64bitAccess key wr env) s = Sys2Proof.Machine.execAnnex64bitAccess key wr env s := rfl
@[simp] theorem exec_misalignedAccess (r : Requester) (key : Fin 67207168) (size : Fin 9) (wr : Option (BitVec 64)) (s : State) : exec (.misalignedAccess r key size wr) s = Sys2Proof.Machine.execMisalignedAccess r key size wr s := rfl
@[simp] theorem exec_unassignedPageAccess (r : Requester) (key : Fin 67207168) (wr : Option (BitVec 32)) (s : State) : exec (.unassignedPageAccess r key wr) s = Sys2Proof.Machine.execUnassignedPageAccess r key wr s := rfl
@[simp] theorem exec_hbcFence (pc : Fin 64) (s : State) : exec (.hbcFence pc) s = Sys2Proof.Machine.execHbcFence pc s := rfl
@[simp] theorem exec_ddcFence (ch : Fin 16) (s : State) : exec (.ddcFence ch) s = Sys2Proof.Machine.execDdcFence ch s := rfl
@[simp] theorem exec_ddrChannelLoss (ch : Fin 16) (s : State) : exec (.ddrChannelLoss ch) s = Sys2Proof.Machine.execDdrChannelLoss ch s := rfl
@[simp] theorem exec_ddcScrub (line : Nat) (finding : Fin 3) (hit : Struck) (s : State) : exec (.ddcScrub line finding hit) s = Sys2Proof.Machine.execDdcScrub line finding hit s := rfl
@[simp] theorem exec_ceWindowEnd (s : State) : exec (.ceWindowEnd) s = Sys2Proof.Machine.execCeWindowEnd s := rfl
@[simp] theorem exec_autoJoin (s : State) : exec (.autoJoin) s = Sys2Proof.Machine.execAutoJoin s := rfl
@[simp] theorem exec_hbmRefreshDouble (stack : Fin 2) (temp : Int) (s : State) : exec (.hbmRefreshDouble stack temp) s = Sys2Proof.Machine.execHbmRefreshDouble stack temp s := rfl
@[simp] theorem exec_hbmRefreshNormal (stack : Fin 2) (temp : Int) (s : State) : exec (.hbmRefreshNormal stack temp) s = Sys2Proof.Machine.execHbmRefreshNormal stack temp s := rfl
@[simp] theorem exec_join (s : State) : exec (.join) s = Sys2Proof.Machine.execJoin s := rfl
@[simp] theorem exec_serveSolo (found : Found) (s : State) : exec (.serveSolo found) s = Sys2Proof.Machine.execServeSolo found s := rfl
@[simp] theorem exec_handover (s : State) : exec (.handover) s = Sys2Proof.Machine.execHandover s := rfl
@[simp] theorem exec_stop (s : State) : exec (.stop) s = Sys2Proof.Machine.execStop s := rfl
@[simp] theorem exec_enterService (s : State) : exec (.enterService) s = Sys2Proof.Machine.execEnterService s := rfl
@[simp] theorem exec_partnerLoss (s : State) : exec (.partnerLoss) s = Sys2Proof.Machine.execPartnerLoss s := rfl
@[simp] theorem exec_quorumReached (resync : List (Nat × Bool × List Placed × List Nat)) (s : State) : exec (.quorumReached resync) s = Sys2Proof.Machine.execQuorumReached resync s := rfl
@[simp] theorem exec_quorumTimeout (s : State) : exec (.quorumTimeout) s = Sys2Proof.Machine.execQuorumTimeout s := rfl
@[simp] theorem exec_handoverDrainComplete (s : State) : exec (.handoverDrainComplete) s = Sys2Proof.Machine.execHandoverDrainComplete s := rfl
@[simp] theorem exec_pwrFailFall (lowNs : Nat) (s : State) : exec (.pwrFailFall lowNs) s = Sys2Proof.Machine.execPwrFailFall lowNs s := rfl
@[simp] theorem exec_pwrFailRise (s : State) : exec (.pwrFailRise) s = Sys2Proof.Machine.execPwrFailRise s := rfl
@[simp] theorem exec_gondolaSeal (s : State) : exec (.gondolaSeal) s = Sys2Proof.Machine.execGondolaSeal s := rfl
@[simp] theorem exec_gondolaAbandon (s : State) : exec (.gondolaAbandon) s = Sys2Proof.Machine.execGondolaAbandon s := rfl
@[simp] theorem exec_vaultExit (bad : List Nat) (s : State) : exec (.vaultExit bad) s = Sys2Proof.Machine.execVaultExit bad s := rfl
@[simp] theorem exec_resetAssert (lowNs : Nat) (s : State) : exec (.resetAssert lowNs) s = Sys2Proof.Machine.execResetAssert lowNs s := rfl
@[simp] theorem exec_resetRelease (bad : List Nat) (s : State) : exec (.resetRelease bad) s = Sys2Proof.Machine.execResetRelease bad s := rfl
@[simp] theorem exec_bootComplete (badPc : List (Fin 64)) (badCh : List (Fin 16)) (gon : Option (Bool × Nat)) (s : State) : exec (.bootComplete badPc badCh gon) s = Sys2Proof.Machine.execBootComplete badPc badCh gon s := rfl
@[simp] theorem exec_ceilingWrite (s : State) : exec (.ceilingWrite) s = Sys2Proof.Machine.execCeilingWrite s := rfl
@[simp] theorem exec_ceilingWriteDone (s : State) : exec (.ceilingWriteDone) s = Sys2Proof.Machine.execCeilingWriteDone s := rfl
@[simp] theorem exec_ceilingStall (s : State) : exec (.ceilingStall) s = Sys2Proof.Machine.execCeilingStall s := rfl
@[simp] theorem exec_calSet (s : State) : exec (.calSet) s = Sys2Proof.Machine.execCalSet s := rfl
@[simp] theorem exec_rtcHourlyUpdate (s : State) : exec (.rtcHourlyUpdate) s = Sys2Proof.Machine.execRtcHourlyUpdate s := rfl
@[simp] theorem exec_logicalOvfResume (unit : Fin 128) (s : State) : exec (.logicalOvfResume unit) s = Sys2Proof.Machine.execLogicalOvfResume unit s := rfl
@[simp] theorem exec_tetherExchangeStart (s : State) : exec (.tetherExchangeStart) s = Sys2Proof.Machine.execTetherExchangeStart s := rfl
@[simp] theorem exec_tetherReq (ex : Fin 4294967296) (lag : Nat) (s : State) : exec (.tetherReq ex lag) s = Sys2Proof.Machine.execTetherReq ex lag s := rfl
@[simp] theorem exec_tetherRsp (ex : Fin 4294967296) (t2 : Nat) (t3 : Nat) (s : State) : exec (.tetherRsp ex t2 t3) s = Sys2Proof.Machine.execTetherRsp ex t2 t3 s := rfl
@[simp] theorem exec_tetherExchangeLost (ex : Fin 4294967296) (s : State) : exec (.tetherExchangeLost ex) s = Sys2Proof.Machine.execTetherExchangeLost ex s := rfl
@[simp] theorem exec_tetherLockLoss (s : State) : exec (.tetherLockLoss) s = Sys2Proof.Machine.execTetherLockLoss s := rfl
@[simp] theorem exec_commitWaitPass (op : Nat) (s : State) : exec (.commitWaitPass op) s = Sys2Proof.Machine.execCommitWaitPass op s := rfl
@[simp] theorem exec_groupStamp (op : Nat) (s : State) : exec (.groupStamp op) s = Sys2Proof.Machine.execGroupStamp op s := rfl
@[simp] theorem exec_lanePageFlush (lane : Fin 32) (s : State) : exec (.lanePageFlush lane) s = Sys2Proof.Machine.execLanePageFlush lane s := rfl
@[simp] theorem exec_lanePageDurable (lane : Fin 32) (s : State) : exec (.lanePageDurable lane) s = Sys2Proof.Machine.execLanePageDurable lane s := rfl
@[simp] theorem exec_laneHorizonAdvance (lane : Fin 32) (s : State) : exec (.laneHorizonAdvance lane) s = Sys2Proof.Machine.execLaneHorizonAdvance lane s := rfl
@[simp] theorem exec_partnerGroupApply (ostamp : Nat) (geo : List (Nat × Nat × Nat × Nat × Nat)) (lay : List (Nat × Pool)) (dir : List (Nat × Nat × Nat)) (s : State) : exec (.partnerGroupApply ostamp geo lay dir) s = Sys2Proof.Machine.execPartnerGroupApply ostamp geo lay s dir := rfl
@[simp] theorem exec_portCfgWrite (port : Fin 16) (v : BitVec 32) (s : State) : exec (.portCfgWrite port v) s = Sys2Proof.Machine.execPortCfgWrite port v s := rfl
@[simp] theorem exec_portLinkUp (port : Fin 16) (k : Fin 4) (s : State) : exec (.portLinkUp port k) s = Sys2Proof.Machine.execPortLinkUp port k s := rfl
@[simp] theorem exec_portLinkDown (port : Fin 16) (k : Fin 4) (s : State) : exec (.portLinkDown port k) s = Sys2Proof.Machine.execPortLinkDown port k s := rfl
@[simp] theorem exec_ecnMarkedPacket (q : Nat) (s : State) : exec (.ecnMarkedPacket q) s = Sys2Proof.Machine.execEcnMarkedPacket q s := rfl
@[simp] theorem exec_cnpReceived (q : Nat) (s : State) : exec (.cnpReceived q) s = Sys2Proof.Machine.execCnpReceived q s := rfl
@[simp] theorem exec_rateRegain (q : Nat) (s : State) : exec (.rateRegain q) s = Sys2Proof.Machine.execRateRegain q s := rfl
@[simp] theorem exec_icreq (q : Nat) (lport : Fin 64) (hd : Bool) (dd : Bool) (port : Fin 65536) (s : State) : exec (.icreq q lport hd dd port) s = Sys2Proof.Machine.execIcreq q lport hd dd s port := rfl
@[simp] theorem exec_fabricsConnect (q : Nat) (qid : Nat) (size : Nat) (cntlid : Nat) (kato : Nat) (hostId : Bytes) (hostNqn : Bytes) (subNqn : Bytes) (s : State) : exec (.fabricsConnect q qid size cntlid kato hostId hostNqn subNqn) s = Sys2Proof.Machine.execFabricsConnect q qid size cntlid kato hostId hostNqn subNqn s := rfl
@[simp] theorem exec_readCmd (q : Nat) (c : NvmeCmd) (s : State) : exec (.readCmd q c) s = Sys2Proof.Machine.execReadCmd q c s := rfl
@[simp] theorem exec_writeCmd (q : Nat) (c : NvmeCmd) (s : State) : exec (.writeCmd q c) s = Sys2Proof.Machine.execWriteCmd q c s := rfl
@[simp] theorem exec_flushCmd (q : Nat) (c : NvmeCmd) (s : State) : exec (.flushCmd q c) s = Sys2Proof.Machine.execFlushCmd q c s := rfl
@[simp] theorem exec_writeZeroes (q : Nat) (c : NvmeCmd) (s : State) : exec (.writeZeroes q c) s = Sys2Proof.Machine.execWriteZeroes q c s := rfl
@[simp] theorem exec_datasetManagement (q : Nat) (c : NvmeCmd) (s : State) : exec (.datasetManagement q c) s = Sys2Proof.Machine.execDatasetManagement q c s := rfl
@[simp] theorem exec_copyCmd (q : Nat) (c : NvmeCmd) (s : State) : exec (.copyCmd q c) s = Sys2Proof.Machine.execCopyCmd q c s := rfl
@[simp] theorem exec_compareCmd (q : Nat) (c : NvmeCmd) (s : State) : exec (.compareCmd q c) s = Sys2Proof.Machine.execCompareCmd q c s := rfl
@[simp] theorem exec_reservationRegister (q : Nat) (c : NvmeCmd) (s : State) : exec (.reservationRegister q c) s = Sys2Proof.Machine.execReservationRegister q c s := rfl
@[simp] theorem exec_reservationReport (q : Nat) (c : NvmeCmd) (s : State) : exec (.reservationReport q c) s = Sys2Proof.Machine.execReservationReport q c s := rfl
@[simp] theorem exec_reservationAcquire (q : Nat) (c : NvmeCmd) (s : State) : exec (.reservationAcquire q c) s = Sys2Proof.Machine.execReservationAcquire q c s := rfl
@[simp] theorem exec_reservationRelease (q : Nat) (c : NvmeCmd) (s : State) : exec (.reservationRelease q c) s = Sys2Proof.Machine.execReservationRelease q c s := rfl
@[simp] theorem exec_identifyCmd (q : Nat) (c : NvmeCmd) (s : State) : exec (.identifyCmd q c) s = Sys2Proof.Machine.execIdentifyCmd q c s := rfl
@[simp] theorem exec_getLogPage (q : Nat) (c : NvmeCmd) (s : State) : exec (.getLogPage q c) s = Sys2Proof.Machine.execGetLogPage q c s := rfl
@[simp] theorem exec_getFeatures (q : Nat) (c : NvmeCmd) (s : State) : exec (.getFeatures q c) s = Sys2Proof.Machine.execGetFeatures q c s := rfl
@[simp] theorem exec_setFeatures (q : Nat) (c : NvmeCmd) (s : State) : exec (.setFeatures q c) s = Sys2Proof.Machine.execSetFeatures q c s := rfl
@[simp] theorem exec_keepAlive (q : Nat) (c : NvmeCmd) (s : State) : exec (.keepAlive q c) s = Sys2Proof.Machine.execKeepAlive q c s := rfl
@[simp] theorem exec_abortCmd (q : Nat) (c : NvmeCmd) (s : State) : exec (.abortCmd q c) s = Sys2Proof.Machine.execAbortCmd q c s := rfl
@[simp] theorem exec_asyncEventRequest (q : Nat) (c : NvmeCmd) (s : State) : exec (.asyncEventRequest q c) s = Sys2Proof.Machine.execAsyncEventRequest q c s := rfl
@[simp] theorem exec_h2cData (q : Nat) (ttag : Nat) (off : Nat) (d : Bytes) (last : Bool) (dgst : Option (Nat × Nat)) (hdgst : Option (Nat × Nat)) (s : State) : exec (.h2cData q ttag off d last dgst hdgst) s = Sys2Proof.Machine.execH2cData q ttag off d last dgst s hdgst := rfl
@[simp] theorem exec_rdmaReadResponse (q : Nat) (cid : Nat) (off : Nat) (d : Bytes) (err : Option Nat) (s : State) : exec (.rdmaReadResponse q cid off d err) s = Sys2Proof.Machine.execRdmaReadResponse q cid off d err s := rfl
@[simp] theorem exec_rocePacketOutOfWindow (q : Nat) (psn : Nat) (s : State) : exec (.rocePacketOutOfWindow q psn) s = Sys2Proof.Machine.execRocePacketOutOfWindow q psn s := rfl
@[simp] theorem exec_annexDoorbell (q : Nat) (pasid : Fin 1048576) (off : Nat) (tail : Nat) (s : State) : exec (.annexDoorbell q pasid off tail) s = Sys2Proof.Machine.execAnnexDoorbell q pasid off tail s := rfl
@[simp] theorem exec_annexQueueCreate (q : Nat) (pasid : Fin 1048576) (qid : Nat) (size : Nat) (s : State) : exec (.annexQueueCreate q pasid qid size) s = Sys2Proof.Machine.execAnnexQueueCreate q pasid qid size s := rfl
@[simp] theorem exec_annexQueueDelete (q : Nat) (s : State) : exec (.annexQueueDelete q) s = Sys2Proof.Machine.execAnnexQueueDelete q s := rfl
@[simp] theorem exec_keepAliveTimeout (cntlid : Nat) (s : State) : exec (.keepAliveTimeout cntlid) s = Sys2Proof.Machine.execKeepAliveTimeout cntlid s := rfl
@[simp] theorem exec_connectionEnd (q : Nat) (s : State) : exec (.connectionEnd q) s = Sys2Proof.Machine.execConnectionEnd q s := rfl
@[simp] theorem exec_vcntClear (s : State) : exec (.vcntClear) s = Sys2Proof.Machine.execVcntClear s := rfl
@[simp] theorem exec_tcpRetransmit (q : Nat) (cid : Nat) (off : Nat) (s : State) : exec (.tcpRetransmit q cid off) s = Sys2Proof.Machine.execTcpRetransmit q cid off s := rfl
@[simp] theorem exec_hostDataAck (q : Nat) (cid : Nat) (upto : Nat) (s : State) : exec (.hostDataAck q cid upto) s = Sys2Proof.Machine.execHostDataAck q cid upto s := rfl
@[simp] theorem exec_createCmd (s : State) : exec (.createCmd) s = Sys2Proof.Machine.execCreateCmd s := rfl
@[simp] theorem exec_reshape (h : Fin 1048576) (s : State) : exec (.reshape h) s = Sys2Proof.Machine.execReshape h s := rfl
@[simp] theorem exec_quiesce (h : Fin 1048576) (s : State) : exec (.quiesce h) s = Sys2Proof.Machine.execQuiesce h s := rfl
@[simp] theorem exec_resumeCmd (h : Fin 1048576) (s : State) : exec (.resumeCmd h) s = Sys2Proof.Machine.execResumeCmd h s := rfl
@[simp] theorem exec_resetCmd (h : Fin 1048576) (s : State) : exec (.resetCmd h) s = Sys2Proof.Machine.execResetCmd h s := rfl
@[simp] theorem exec_removeCmd (h : Fin 1048576) (s : State) : exec (.removeCmd h) s = Sys2Proof.Machine.execRemoveCmd h s := rfl
@[simp] theorem exec_freeze (h : Fin 1048576) (s : State) : exec (.freeze h) s = Sys2Proof.Machine.execFreeze h s := rfl
@[simp] theorem exec_saveCmd (h : Fin 1048576) (s : State) : exec (.saveCmd h) s = Sys2Proof.Machine.execSaveCmd h s := rfl
@[simp] theorem exec_restoreCmd (s : State) : exec (.restoreCmd) s = Sys2Proof.Machine.execRestoreCmd s := rfl
@[simp] theorem exec_wglStart (h : Fin 1048576) (s : State) : exec (.wglStart h) s = Sys2Proof.Machine.execWglStart h s := rfl
@[simp] theorem exec_wglStop (h : Fin 1048576) (s : State) : exec (.wglStop h) s = Sys2Proof.Machine.execWglStop h s := rfl
@[simp] theorem exec_quiesceComplete (i : Fin 4096) (s : State) : exec (.quiesceComplete i) s = Sys2Proof.Machine.execQuiesceComplete i s := rfl
@[simp] theorem exec_resetComplete (i : Fin 4096) (partner : Bool) (s : State) : exec (.resetComplete i partner) s = Sys2Proof.Machine.execResetComplete i s partner := rfl
@[simp] theorem exec_bridleEpoch (s : State) : exec (.bridleEpoch) s = Sys2Proof.Machine.execBridleEpoch s := rfl
@[simp] theorem exec_partner1msExchange (s : State) : exec (.partner1msExchange) s = Sys2Proof.Machine.execPartner1msExchange s := rfl
@[simp] theorem exec_demand (c : CHdr) (es : List (Nat × Nat × Nat)) (s : State) : exec (.demand c es) s = Sys2Proof.Machine.execDemand c es s := rfl
@[simp] theorem exec_meterCnt (c : CHdr) (final : Bool) (es : List (Nat × Bytes)) (s : State) : exec (.meterCnt c final es) s = Sys2Proof.Machine.execMeterCnt c final es s := rfl
@[simp] theorem exec_meterRec (c : CHdr) (n : Nat) (b : Bytes) (s : State) : exec (.meterRec c n b) s = Sys2Proof.Machine.execMeterRec c n b s := rfl
@[simp] theorem exec_meterAck (c : CHdr) (seq : Nat) (s : State) : exec (.meterAck c seq) s = Sys2Proof.Machine.execMeterAck c seq s := rfl
@[simp] theorem exec_inflight (c : CHdr) (h : Fin 1048576) (n : Nat) (s : State) : exec (.inflight c h n) s = Sys2Proof.Machine.execInflight c h n s := rfl
@[simp] theorem exec_minuteClose (s : State) : exec (.minuteClose) s = Sys2Proof.Machine.execMinuteClose s := rfl
@[simp] theorem exec_meterPublish (seq : Nat) (s : State) : exec (.meterPublish seq) s = Sys2Proof.Machine.execMeterPublish seq s := rfl
@[simp] theorem exec_hourlySeal (s : State) : exec (.hourlySeal) s = Sys2Proof.Machine.execHourlySeal s := rfl
@[simp] theorem exec_attributionSweep (s : State) : exec (.attributionSweep) s = Sys2Proof.Machine.execAttributionSweep s := rfl
@[simp] theorem exec_fingerprint (op : Nat) (g : Nat) (s : State) : exec (.fingerprint op g) s = Sys2Proof.Machine.execFingerprint op g s := rfl
@[simp] theorem exec_trailerFetchDone (op : Nat) (g : Nat) (fp : Option Bytes) (s : State) : exec (.trailerFetchDone op g fp) s = Sys2Proof.Machine.execTrailerFetchDone op g fp s := rfl
@[simp] theorem exec_compressDone (op : Nat) (g : Nat) (blk : Bytes) (s : State) : exec (.compressDone op g blk) s = Sys2Proof.Machine.execCompressDone op g blk s := rfl
@[simp] theorem exec_grainEncryptDone (op : Nat) (g : Nat) (s : State) : exec (.grainEncryptDone op g) s = Sys2Proof.Machine.execGrainEncryptDone op g s := rfl
@[simp] theorem exec_segmentSeal (seg : Fin 33554432) (s : State) : exec (.segmentSeal seg) s = Sys2Proof.Machine.execSegmentSeal seg s := rfl
@[simp] theorem exec_segmentDurable (seg : Fin 33554432) (s : State) : exec (.segmentDurable seg) s = Sys2Proof.Machine.execSegmentDurable seg s := rfl
@[simp] theorem exec_hitExpiry (op : Nat) (s : State) : exec (.hitExpiry op) s = Sys2Proof.Machine.execHitExpiry op s := rfl
@[simp] theorem exec_pinRecord (cid : Fin 274877906944) (s : State) : exec (.pinRecord cid) s = Sys2Proof.Machine.execPinRecord cid s := rfl
@[simp] theorem exec_ctFreeIssue (cid : Fin 274877906944) (s : State) : exec (.ctFreeIssue cid) s = Sys2Proof.Machine.execCtFreeIssue cid s := rfl
@[simp] theorem exec_snapCreate (ns : Fin 65536) (s : State) : exec (.snapCreate ns) s = Sys2Proof.Machine.execSnapCreate ns s := rfl
@[simp] theorem exec_snapDelete (ns : Fin 65536) (s : State) : exec (.snapDelete ns) s = Sys2Proof.Machine.execSnapDelete ns s := rfl
@[simp] theorem exec_pageReq (h : CHdr) (ns : Fin 65536) (pix : Fin 281474976710656) (s : State) : exec (.pageReq h ns pix) s = Sys2Proof.Machine.execPageReq h ns pix s := rfl
@[simp] theorem exec_pageRsp (h : CHdr) (ns : Fin 65536) (pix : Fin 281474976710656) (status : Fin 256) (ents : List (Nat × Nat)) (s : State) : exec (.pageRsp h ns pix status ents) s = Sys2Proof.Machine.execPageRsp h ns pix status ents s := rfl
@[simp] theorem exec_checkpointStart (s : State) : exec (.checkpointStart) s = Sys2Proof.Machine.execCheckpointStart s := rfl
@[simp] theorem exec_checkpointComplete (ok : Bool) (s : State) : exec (.checkpointComplete ok) s = Sys2Proof.Machine.execCheckpointComplete ok s := rfl
@[simp] theorem exec_mpcInvalidate (s : State) : exec (.mpcInvalidate) s = Sys2Proof.Machine.execMpcInvalidate s := rfl
@[simp] theorem exec_mpcInvalidateDone (s : State) : exec (.mpcInvalidateDone) s = Sys2Proof.Machine.execMpcInvalidateDone s := rfl
@[simp] theorem exec_mpcPreload (way : Fin 16) (s : State) : exec (.mpcPreload way) s = Sys2Proof.Machine.execMpcPreload way s := rfl
@[simp] theorem exec_mpcPreloadDone (s : State) : exec (.mpcPreloadDone) s = Sys2Proof.Machine.execMpcPreloadDone s := rfl
@[simp] theorem exec_mpcEnable (s : State) : exec (.mpcEnable) s = Sys2Proof.Machine.execMpcEnable s := rfl
@[simp] theorem exec_mpcDisable (s : State) : exec (.mpcDisable) s = Sys2Proof.Machine.execMpcDisable s := rfl
@[simp] theorem exec_mpcDrainComplete (s : State) : exec (.mpcDrainComplete) s = Sys2Proof.Machine.execMpcDrainComplete s := rfl
@[simp] theorem exec_mpcLockWrite (v : BitVec 12) (s : State) : exec (.mpcLockWrite v) s = Sys2Proof.Machine.execMpcLockWrite v s := rfl
@[simp] theorem exec_mpcHotWindow (s : State) : exec (.mpcHotWindow) s = Sys2Proof.Machine.execMpcHotWindow s := rfl
@[simp] theorem exec_stagingBufferFree (s : State) : exec (.stagingBufferFree) s = Sys2Proof.Machine.execStagingBufferFree s := rfl
@[simp] theorem exec_createPool (pool : Fin 4) (peer : BitVec 64) (s : State) : exec (.createPool pool peer) s = Sys2Proof.Machine.execCreatePool pool peer s := rfl
@[simp] theorem exec_layoutReshape (pool : Fin 4) (peer : BitVec 64) (s : State) : exec (.layoutReshape pool peer) s = Sys2Proof.Machine.execLayoutReshape pool peer s := rfl
@[simp] theorem exec_retire (pool : Fin 4) (module : Fin 64) (s : State) : exec (.retire pool module) s = Sys2Proof.Machine.execRetire pool module s := rfl
@[simp] theorem exec_retireGraceExpiry (module : Fin 64) (peerAbsent : Bool) (s : State) : exec (.retireGraceExpiry module peerAbsent) s = Sys2Proof.Machine.execRetireGraceExpiry module peerAbsent s := rfl
@[simp] theorem exec_reshapeComplete (pool : Fin 4) (s : State) : exec (.reshapeComplete pool) s = Sys2Proof.Machine.execReshapeComplete pool s := rfl
@[simp] theorem exec_segmentOpen (seg : Fin 33554432) (pool : Fin 4) (row : Fin 4096) (away : BitVec 64) (s : State) : exec (.segmentOpen seg pool row away) s = Sys2Proof.Machine.execSegmentOpen seg pool row s away := rfl
@[simp] theorem exec_unitRebuild (seg : Fin 33554432) (unit : Fin 18) (got : List (Nat × Bytes)) (s : State) : exec (.unitRebuild seg unit got) s = Sys2Proof.Machine.execUnitRebuild seg unit got s := rfl
@[simp] theorem exec_rebuiltAdvance (pool : Fin 4) (s : State) : exec (.rebuiltAdvance pool) s = Sys2Proof.Machine.execRebuiltAdvance pool s := rfl
@[simp] theorem exec_lostGrainWalk (s : State) : exec (.lostGrainWalk) s = Sys2Proof.Machine.execLostGrainWalk s := rfl
@[simp] theorem exec_foldStart (q0 : Fin 33554432) (q1 : Fin 33554432) (q2 : Fin 33554432) (q3 : Fin 33554432) (new : Fin 33554432) (got : List (Nat × Bytes)) (s : State) : exec (.foldStart q0 q1 q2 q3 new got) s = Sys2Proof.Machine.execFoldStart q0 q1 q2 q3 new got s := rfl
@[simp] theorem exec_foldUnitsDurable (seg : Fin 33554432) (s : State) : exec (.foldUnitsDurable seg) s = Sys2Proof.Machine.execFoldUnitsDurable seg s := rfl
@[simp] theorem exec_foldRetireSource (seg : Fin 33554432) (s : State) : exec (.foldRetireSource seg) s = Sys2Proof.Machine.execFoldRetireSource seg s := rfl
@[simp] theorem exec_gcStart (seg : Fin 33554432) (recs : List Placed) (s : State) : exec (.gcStart seg recs) s = Sys2Proof.Machine.execGcStart seg recs s := rfl
@[simp] theorem exec_gcRelocateCommit (seg : Fin 33554432) (s : State) : exec (.gcRelocateCommit seg) s = Sys2Proof.Machine.execGcRelocateCommit seg s := rfl
@[simp] theorem exec_blockEraseIssue (m : Fin 64) (die : Fin 64) (block : Fin 8192) (s : State) : exec (.blockEraseIssue m die block) s = Sys2Proof.Machine.execBlockEraseIssue m die block s := rfl
@[simp] theorem exec_pageMove (m : Fin 64) (seg : Fin 33554432) (got : List (Nat × Bytes)) (s : State) : exec (.pageMove m seg got) s = Sys2Proof.Machine.execPageMove m seg got s := rfl
@[simp] theorem exec_patrolRead (m : Fin 64) (seg : Fin 33554432) (tile : Fin 4) (plane : Fin 4) (ok : Bool) (s : State) : exec (.patrolRead m seg tile plane ok) s = Sys2Proof.Machine.execPatrolRead m seg tile plane ok s := rfl
@[simp] theorem exec_dieRecordWrite (m : Fin 64) (die : Fin 64) (s : State) : exec (.dieRecordWrite m die) s = Sys2Proof.Machine.execDieRecordWrite m die s := rfl
@[simp] theorem exec_signalDetect (sel : LinkSel) (s : State) : exec (.signalDetect sel) s = Sys2Proof.Machine.execSignalDetect sel s := rfl
@[simp] theorem exec_trainRateTimeout (sel : LinkSel) (s : State) : exec (.trainRateTimeout sel) s = Sys2Proof.Machine.execTrainRateTimeout sel s := rfl
@[simp] theorem exec_laneTrained (sel : LinkSel) (lane : Fin 32) (s : State) : exec (.laneTrained sel lane) s = Sys2Proof.Machine.execLaneTrained sel lane s := rfl
@[simp] theorem exec_alignLock (sel : LinkSel) (lanes : BitVec 32) (bad : BitVec 32) (s : State) : exec (.alignLock sel lanes bad) s = Sys2Proof.Machine.execAlignLock sel lanes bad s := rfl
@[simp] theorem exec_trainSendTick (sel : LinkSel) (s : State) : exec (.trainSendTick sel) s = Sys2Proof.Machine.execTrainSendTick sel s := rfl
@[simp] theorem exec_train (sel : LinkSel) (vers : Nat) (role : Nat) (port : Nat) (lanes : Nat) (rxcred : Nat) (s : State) : exec (.train sel vers role port lanes rxcred) s = Sys2Proof.Machine.execTrain sel vers role port lanes rxcred s := rfl
@[simp] theorem exec_retrainEntry (sel : LinkSel) (loss : Fin 3) (s : State) : exec (.retrainEntry sel loss) s = Sys2Proof.Machine.execRetrainEntry sel loss s := rfl
@[simp] theorem exec_retrainTimeout (sel : LinkSel) (s : State) : exec (.retrainTimeout sel) s = Sys2Proof.Machine.execRetrainTimeout sel s := rfl
@[simp] theorem exec_signalLost (sel : LinkSel) (s : State) : exec (.signalLost sel) s = Sys2Proof.Machine.execSignalLost sel s := rfl
@[simp] theorem exec_jonanNak (sel : LinkSel) (h : JHdr) (code : Fin 256) (s : State) : exec (.jonanNak sel h code) s = Sys2Proof.Machine.execJonanNak sel h code s := rfl
@[simp] theorem exec_jonanIdle (sel : LinkSel) (h : JHdr) (s : State) : exec (.jonanIdle sel h) s = Sys2Proof.Machine.execJonanIdle sel h s := rfl
@[simp] theorem exec_jonanAckTimer (sel : LinkSel) (s : State) : exec (.jonanAckTimer sel) s = Sys2Proof.Machine.execJonanAckTimer sel s := rfl
@[simp] theorem exec_eventCmd (pos : Fin 64) (h : JHdr) (code : Fin 256) (die : Fin 256) (s : State) : exec (.eventCmd pos h code die) s = Sys2Proof.Machine.execEventCmd pos h code die s := rfl
@[simp] theorem exec_jonanRead (m : Fin 64) (port : Fin 2) (h : JHdr) (tag : Fin 4096) (tgen : Fin 16) (die : Fin 4096) (addr : BitVec 64) (s : State) : exec (.jonanRead m port h tag tgen die addr) s = Sys2Proof.Machine.execJonanRead m port h tag tgen die addr s := rfl
@[simp] theorem exec_jonanProgram (m : Fin 64) (port : Fin 2) (h : JHdr) (tag : Fin 4096) (tgen : Fin 16) (die : Fin 4096) (addr : BitVec 64) (page : Bytes) (s : State) : exec (.jonanProgram m port h tag tgen die addr page) s = Sys2Proof.Machine.execJonanProgram m port h tag tgen die addr page s := rfl
@[simp] theorem exec_jonanErase (m : Fin 64) (port : Fin 2) (h : JHdr) (tag : Fin 4096) (tgen : Fin 16) (die : Fin 4096) (addr : BitVec 64) (s : State) : exec (.jonanErase m port h tag tgen die addr) s = Sys2Proof.Machine.execJonanErase m port h tag tgen die addr s := rfl
@[simp] theorem exec_jonanStatus (m : Fin 64) (port : Fin 2) (h : JHdr) (tag : Fin 4096) (tgen : Fin 16) (die : Fin 4096) (s : State) : exec (.jonanStatus m port h tag tgen die) s = Sys2Proof.Machine.execJonanStatus m port h tag tgen die s := rfl
@[simp] theorem exec_paramCmd (m : Fin 64) (port : Fin 2) (h : JHdr) (tag : Fin 4096) (tgen : Fin 16) (die : Fin 4096) (page : BitVec 32) (s : State) : exec (.paramCmd m port h tag tgen die page) s = Sys2Proof.Machine.execParamCmd m port h tag tgen die page s := rfl
@[simp] theorem exec_claim (m : Fin 64) (port : Fin 2) (h : JHdr) (tag : Fin 4096) (tgen : Fin 16) (gen : BitVec 32) (mask : BitVec 64) (s : State) : exec (.claim m port h tag tgen gen mask) s = Sys2Proof.Machine.execClaim m port h tag tgen gen mask s := rfl
@[simp] theorem exec_claimRelease (m : Fin 64) (port : Fin 2) (h : JHdr) (tag : Fin 4096) (tgen : Fin 16) (gen : BitVec 32) (mask : BitVec 64) (s : State) : exec (.claimRelease m port h tag tgen gen mask) s = Sys2Proof.Machine.execClaimRelease m port h tag tgen gen mask s := rfl
@[simp] theorem exec_witnessWrite (m : Fin 64) (port : Fin 2) (h : JHdr) (tag : Fin 4096) (tgen : Fin 16) (data : Bytes) (s : State) : exec (.witnessWrite m port h tag tgen data) s = Sys2Proof.Machine.execWitnessWrite m port h tag tgen data s := rfl
@[simp] theorem exec_witnessRead (m : Fin 64) (port : Fin 2) (h : JHdr) (tag : Fin 4096) (tgen : Fin 16) (s : State) : exec (.witnessRead m port h tag tgen) s = Sys2Proof.Machine.execWitnessRead m port h tag tgen s := rfl
@[simp] theorem exec_bridgeOpStart (m : Fin 64) (port : Fin 2) (tag : Fin 4096) (s : State) : exec (.bridgeOpStart m port tag) s = Sys2Proof.Machine.execBridgeOpStart m port tag s := rfl
@[simp] theorem exec_claimAnswer (m : Fin 64) (s : State) : exec (.claimAnswer m) s = Sys2Proof.Machine.execClaimAnswer m s := rfl
@[simp] theorem exec_jonanRsp (pos : Fin 64) (h : JHdr) (tag : Fin 4096) (tgen : Fin 16) (status : Fin 256) (info : Nat) (payload : Bytes) (cws : List CwDec) (s : State) : exec (.jonanRsp pos h tag tgen status info payload cws) s = Sys2Proof.Machine.execJonanRsp pos h tag tgen status info payload cws s := rfl
@[simp] theorem exec_requestTimeout (pos : Fin 64) (tag : Fin 4096) (s : State) : exec (.requestTimeout pos tag) s = Sys2Proof.Machine.execRequestTimeout pos tag s := rfl
@[simp] theorem exec_jlkClaim (inst : Fin 4) (mask : BitVec 16) (s : State) : exec (.jlkClaim inst mask) s = Sys2Proof.Machine.execJlkClaim inst mask s := rfl
@[simp] theorem exec_jlkRelease (inst : Fin 4) (mask : BitVec 16) (s : State) : exec (.jlkRelease inst mask) s = Sys2Proof.Machine.execJlkRelease inst mask s := rfl
@[simp] theorem exec_witnessTick (inst : Fin 4) (s : State) : exec (.witnessTick inst) s = Sys2Proof.Machine.execWitnessTick inst s := rfl
@[simp] theorem exec_statusPoll (pos : Fin 64) (s : State) : exec (.statusPoll pos) s = Sys2Proof.Machine.execStatusPoll pos s := rfl
@[simp] theorem exec_helloSendTick (s : State) : exec (.helloSendTick) s = Sys2Proof.Machine.execHelloSendTick s := rfl
@[simp] theorem exec_hello (h : Hello) (s : State) : exec (.hello h) s = Sys2Proof.Machine.execHello h s := rfl
@[simp] theorem exec_caridRetrain (rekey : Bool) (s : State) : exec (.caridRetrain rekey) s = Sys2Proof.Machine.execCaridRetrain rekey s := rfl
@[simp] theorem exec_caridNak (h : CHdr) (code : Fin 256) (s : State) : exec (.caridNak h code) s = Sys2Proof.Machine.execCaridNak h code s := rfl
@[simp] theorem exec_caridIdle (h : CHdr) (s : State) : exec (.caridIdle h) s = Sys2Proof.Machine.execCaridIdle h s := rfl
@[simp] theorem exec_rekeyTimer (s : State) : exec (.rekeyTimer) s = Sys2Proof.Machine.execRekeyTimer s := rfl
@[simp] theorem exec_rekey (h : CHdr) (nonce : Bytes) (xseq : Nat) (s : State) : exec (.rekey h nonce xseq) s = Sys2Proof.Machine.execRekey h nonce xseq s := rfl
@[simp] theorem exec_grain (h : CHdr) (mtok : Nat) (gcnt : Nat) (gs : List MGrain) (s : State) : exec (.grain h mtok gcnt gs) s = Sys2Proof.Machine.execGrain h mtok gcnt gs s := rfl
@[simp] theorem exec_rcpt (h : CHdr) (es : List (Nat × Bool)) (s : State) : exec (.rcpt h es) s = Sys2Proof.Machine.execRcpt h es s := rfl
@[simp] theorem exec_bind (h : CHdr) (mtok : Nat) (ostamp : Nat) (s : State) : exec (.bind h mtok ostamp) s = Sys2Proof.Machine.execBind h mtok ostamp s := rfl
@[simp] theorem exec_bindAck (h : CHdr) (mtok : Nat) (s : State) : exec (.bindAck h mtok) s = Sys2Proof.Machine.execBindAck h mtok s := rfl
@[simp] theorem exec_freeCmd (h : CHdr) (slots : List Nat) (s : State) : exec (.freeCmd h slots) s = Sys2Proof.Machine.execFreeCmd h slots s := rfl
@[simp] theorem exec_cancelCmd (h : CHdr) (mtok : Nat) (s : State) : exec (.cancelCmd h mtok) s = Sys2Proof.Machine.execCancelCmd h mtok s := rfl
@[simp] theorem exec_recs (h : CHdr) (lane : Fin 32) (rs : List JRec) (s : State) : exec (.recs h lane rs) s = Sys2Proof.Machine.execRecs h lane rs s := rfl
@[simp] theorem exec_horizon (h : CHdr) (ls : List (Nat × Nat)) (s : State) : exec (.horizon h ls) s = Sys2Proof.Machine.execHorizon h ls s := rfl
@[simp] theorem exec_lackTick (s : State) : exec (.lackTick) s = Sys2Proof.Machine.execLackTick s := rfl
@[simp] theorem exec_lack (h : CHdr) (physAt : Nat) (ptSeq : Nat) (applied : List Nat) (durable : List Nat) (s : State) : exec (.lack h physAt ptSeq applied durable) s = Sys2Proof.Machine.execLack h physAt ptSeq applied durable s := rfl
@[simp] theorem exec_pt (h : CHdr) (seq : Nat) (es : List (Nat × Nat)) (s : State) : exec (.pt h seq es) s = Sys2Proof.Machine.execPt h seq es s := rfl
@[simp] theorem exec_hfcHint (h : CHdr) (es : List HfcEnt) (s : State) : exec (.hfcHint h es) s = Sys2Proof.Machine.execHfcHint h es s := rfl
@[simp] theorem exec_heartbeatTick (s : State) : exec (.heartbeatTick) s = Sys2Proof.Machine.execHeartbeatTick s := rfl
@[simp] theorem exec_heartbeat (h : CHdr) (seq : Nat) (_estamp : Nat) (mode : Nat) (flags : Nat) (gen : Nat) (s : State) : exec (.heartbeat h seq _estamp mode flags gen) s = Sys2Proof.Machine.execHeartbeat h seq _estamp mode flags gen s := rfl
@[simp] theorem exec_splitYield (s : State) : exec (.splitYield) s = Sys2Proof.Machine.execSplitYield s := rfl
@[simp] theorem exec_forwardCmd (h : CHdr) (tok : Nat) (slice : Nat) (f : FwdCmd) (data : Bytes) (s : State) : exec (.forwardCmd h tok slice f data) s = Sys2Proof.Machine.execForwardCmd h tok slice f data s := rfl
@[simp] theorem exec_wdata (h : CHdr) (tok : Nat) (off : Nat) (data : Bytes) (s : State) : exec (.wdata h tok off data) s = Sys2Proof.Machine.execWdata h tok off data s := rfl
@[simp] theorem exec_rdata (h : CHdr) (tok : Nat) (off : Nat) (tag : Nat) (data : Bytes) (s : State) : exec (.rdata h tok off tag data) s = Sys2Proof.Machine.execRdata h tok off tag data s := rfl
@[simp] theorem exec_done (h : CHdr) (tok : Nat) (sct : Nat) (sc : Nat) (dnr : Bool) (ostamp : Nat) (s : State) : exec (.done h tok sct sc dnr ostamp) s = Sys2Proof.Machine.execDone h tok sct sc dnr ostamp s := rfl
@[simp] theorem exec_forwardAbort (h : CHdr) (tok : Nat) (s : State) : exec (.forwardAbort h tok) s = Sys2Proof.Machine.execForwardAbort h tok s := rfl
@[simp] theorem exec_movePropose (h : CHdr) (g : Fin 65536) (p : Nat) (s : State) : exec (.movePropose h g p) s = Sys2Proof.Machine.execMovePropose h g p s := rfl
@[simp] theorem exec_moveAgree (h : CHdr) (g : Fin 65536) (o : Nat) (s : State) : exec (.moveAgree h g o) s = Sys2Proof.Machine.execMoveAgree h g o s := rfl
@[simp] theorem exec_moveComplete (g : Fin 65536) (s : State) : exec (.moveComplete g) s = Sys2Proof.Machine.execMoveComplete g s := rfl
@[simp] theorem exec_moveDone (h : CHdr) (g : Fin 65536) (o : Nat) (s : State) : exec (.moveDone h g o) s = Sys2Proof.Machine.execMoveDone h g o s := rfl
@[simp] theorem exec_joinReq (h : CHdr) (limit : Nat) (ctBits : Nat) (minor : Nat) (gib : Nat) (s : State) : exec (.joinReq h limit ctBits minor gib) s = Sys2Proof.Machine.execJoinReq h limit ctBits minor gib s := rfl
@[simp] theorem exec_joinRsp (h : CHdr) (reason : Nat) (cut : Nat) (found : Found) (s : State) : exec (.joinRsp h reason cut found) s = Sys2Proof.Machine.execJoinRsp h reason cut found s := rfl
@[simp] theorem exec_joinVersionWaitEnd (s : State) : exec (.joinVersionWaitEnd) s = Sys2Proof.Machine.execJoinVersionWaitEnd s := rfl
@[simp] theorem exec_joinSwitch (s : State) : exec (.joinSwitch) s = Sys2Proof.Machine.execJoinSwitch s := rfl
@[simp] theorem exec_releaseReq (h : CHdr) (_head : Fin 2) (s : State) : exec (.releaseReq h _head) s = Sys2Proof.Machine.execReleaseReq h _head s := rfl
@[simp] theorem exec_released (h : CHdr) (gen : Nat) (s : State) : exec (.released h gen) s = Sys2Proof.Machine.execReleased h gen s := rfl
@[simp] theorem exec_ringCmd (h : CHdr) (es : List Bytes) (s : State) : exec (.ringCmd h es) s = Sys2Proof.Machine.execRingCmd h es s := rfl
@[simp] theorem exec_joinDone (peer : Bool) (info : PeerInfo) (s : State) : exec (.joinDone peer info) s = Sys2Proof.Machine.execJoinDone peer s info := rfl
@[simp] theorem exec_hoReq (h : CHdr) (s : State) : exec (.hoReq h) s = Sys2Proof.Machine.execHoReq h s := rfl
@[simp] theorem exec_hoAck (h : CHdr) (s : State) : exec (.hoAck h) s = Sys2Proof.Machine.execHoAck h s := rfl
@[simp] theorem exec_claimgen (h : CHdr) (gen : Nat) (s : State) : exec (.claimgen h gen) s = Sys2Proof.Machine.execClaimgen h gen s := rfl
@[simp] theorem exec_startCmd (ix : Fin 1024) (s : State) : exec (.startCmd ix) s = Sys2Proof.Machine.execStartCmd ix s := rfl
@[simp] theorem exec_rplCancel (ix : Fin 1024) (s : State) : exec (.rplCancel ix) s = Sys2Proof.Machine.execRplCancel ix s := rfl
@[simp] theorem exec_sealAck (ix : Fin 1024) (s : State) : exec (.sealAck ix) s = Sys2Proof.Machine.execSealAck ix s := rfl
@[simp] theorem exec_rplSeal (ix : Fin 1024) (s : State) : exec (.rplSeal ix) s = Sys2Proof.Machine.execRplSeal ix s := rfl
@[simp] theorem exec_rspConnectAccept (lport : Fin 64) (out : Option (Fin 64)) (port : Fin 65536) (s : State) : exec (.rspConnectAccept lport out port) s = Sys2Proof.Machine.execRspConnectAccept lport out s port := rfl
@[simp] theorem exec_rspHello (ix : Fin 64) (h : RHdr) (vers : Fin 256) (role : Fin 256) (array : BitVec 128) (nonce : Bytes) (s : State) : exec (.rspHello ix h vers role array nonce) s = Sys2Proof.Machine.execRspHello ix h vers role array nonce s := rfl
@[simp] theorem exec_session (ix : Fin 64) (h : RHdr) (b : RSession) (s : State) : exec (.session ix h b) s = Sys2Proof.Machine.execSession ix h b s := rfl
@[simp] theorem exec_offer (ix : Fin 64) (h : RHdr) (batch : Fin 4294967296) (fps : List Bytes) (s : State) : exec (.offer ix h batch fps) s = Sys2Proof.Machine.execOffer ix h batch fps s := rfl
@[simp] theorem exec_want (ix : Fin 64) (h : RHdr) (batch : Fin 4294967296) (final : Bool) (bits : List Bool) (s : State) : exec (.want ix h batch final bits) s = Sys2Proof.Machine.execWant ix h batch final bits s := rfl
@[simp] theorem exec_rspGrain (ix : Fin 64) (h : RHdr) (batch : Fin 4294967296) (gs : List RGrain) (s : State) : exec (.rspGrain ix h batch gs) s = Sys2Proof.Machine.execRspGrain ix h batch gs s := rfl
@[simp] theorem exec_extent (ix : Fin 64) (h : RHdr) (batch : Fin 4294967296) (run : Option Nat) (start : Fin 274877906944) (vals : List Nat) (s : State) : exec (.extent ix h batch run start vals) s = Sys2Proof.Machine.execExtent ix h batch run start vals s := rfl
@[simp] theorem exec_rspSeal (ix : Fin 64) (h : RHdr) (sid : Nat) (new_ : Nat) (tepoch : Nat) (batches : Nat) (grains : Nat) (s : State) : exec (.rspSeal ix h sid new_ tepoch batches grains) s = Sys2Proof.Machine.execRspSeal ix h sid new_ tepoch batches grains s := rfl
@[simp] theorem exec_rspAbort (ix : Fin 64) (h : RHdr) (code : Fin 65536) (s : State) : exec (.rspAbort ix h code) s = Sys2Proof.Machine.execRspAbort ix h code s := rfl
@[simp] theorem exec_rspIdleTimeout (ix : Fin 64) (s : State) : exec (.rspIdleTimeout ix) s = Sys2Proof.Machine.execRspIdleTimeout ix s := rfl
@[simp] theorem exec_rspConnectionLoss (ix : Fin 64) (s : State) : exec (.rspConnectionLoss ix) s = Sys2Proof.Machine.execRspConnectionLoss ix s := rfl
@[simp] theorem exec_diffWalkBatch (ix : Fin 64) (trailers : List (Nat × Bytes)) (extra : List Nat) (s : State) : exec (.diffWalkBatch ix trailers extra) s = Sys2Proof.Machine.execDiffWalkBatch ix trailers extra s := rfl
@[simp] theorem exec_dgeFwqPost (ix : Fin 65536) (s : State) : exec (.dgeFwqPost ix) s = Sys2Proof.Machine.execDgeFwqPost ix s := rfl
@[simp] theorem exec_cphFwqPost (ix : Fin 65536) (s : State) : exec (.cphFwqPost ix) s = Sys2Proof.Machine.execCphFwqPost ix s := rfl
@[simp] theorem exec_sha256 (s : State) : exec (.sha256) s = Sys2Proof.Machine.execSha256 s := rfl
@[simp] theorem exec_hmac (s : State) : exec (.hmac) s = Sys2Proof.Machine.execHmac s := rfl
@[simp] theorem exec_compareDigest (s : State) : exec (.compareDigest) s = Sys2Proof.Machine.execCompareDigest s := rfl
@[simp] theorem exec_xtsEnc (s : State) : exec (.xtsEnc) s = Sys2Proof.Machine.execXtsEnc s := rfl
@[simp] theorem exec_xtsDec (s : State) : exec (.xtsDec) s = Sys2Proof.Machine.execXtsDec s := rfl
@[simp] theorem exec_gcmEnc (s : State) : exec (.gcmEnc) s = Sys2Proof.Machine.execGcmEnc s := rfl
@[simp] theorem exec_gcmDec (s : State) : exec (.gcmDec) s = Sys2Proof.Machine.execGcmDec s := rfl
@[simp] theorem exec_digestComplete (r : Nat) (s : State) : exec (.digestComplete r) s = Sys2Proof.Machine.execDigestComplete r s := rfl
@[simp] theorem exec_cipherComplete (r : Nat) (s : State) : exec (.cipherComplete r) s = Sys2Proof.Machine.execCipherComplete r s := rfl
@[simp] theorem exec_chainTimeout (r : Nat) (s : State) : exec (.chainTimeout r) s = Sys2Proof.Machine.execChainTimeout r s := rfl
@[simp] theorem exec_cphRequestAged (r : Nat) (s : State) : exec (.cphRequestAged r) s = Sys2Proof.Machine.execCphRequestAged r s := rfl
@[simp] theorem exec_importCmd (eng : Fin 2) (slot : Fin 8192) (s : State) : exec (.importCmd eng slot) s = Sys2Proof.Machine.execImportCmd eng slot s := rfl
@[simp] theorem exec_generate (eng : Fin 2) (slot : Fin 8192) (s : State) : exec (.generate eng slot) s = Sys2Proof.Machine.execGenerate eng slot s := rfl
@[simp] theorem exec_loadCmd (eng : Fin 2) (slot : Fin 8192) (s : State) : exec (.loadCmd eng slot) s = Sys2Proof.Machine.execLoadCmd eng slot s := rfl
@[simp] theorem exec_erase (eng : Fin 2) (slot : Fin 8192) (s : State) : exec (.erase eng slot) s = Sys2Proof.Machine.execErase eng slot s := rfl
@[simp] theorem exec_keyEraseDone (s : State) : exec (.keyEraseDone) s = Sys2Proof.Machine.execKeyEraseDone s := rfl
@[simp] theorem exec_quote (s : State) : exec (.quote) s = Sys2Proof.Machine.execQuote s := rfl
@[simp] theorem exec_pubkey (s : State) : exec (.pubkey) s = Sys2Proof.Machine.execPubkey s := rfl
@[simp] theorem exec_measExtend (mreg : Fin 4) (s : State) : exec (.measExtend mreg) s = Sys2Proof.Machine.execMeasExtend mreg s := rfl
@[simp] theorem exec_genIdentity (s : State) : exec (.genIdentity) s = Sys2Proof.Machine.execGenIdentity s := rfl
@[simp] theorem exec_signatureRelease (ok : Bool) (s : State) : exec (.signatureRelease ok) s = Sys2Proof.Machine.execSignatureRelease ok s := rfl
@[simp] theorem exec_nodeTablesReady (s : State) : exec (.nodeTablesReady) s = Sys2Proof.Machine.execNodeTablesReady s := rfl
@[simp] theorem exec_nextTreeBuild (s : State) : exec (.nextTreeBuild) s = Sys2Proof.Machine.execNextTreeBuild s := rfl
@[simp] theorem exec_alarm (src : Fin 5) (s : State) : exec (.alarm src) s = Sys2Proof.Machine.execAlarm src s := rfl
@[simp] theorem exec_noiseSourceFail (n : Fin 2) (s : State) : exec (.noiseSourceFail n) s = Sys2Proof.Machine.execNoiseSourceFail n s := rfl
@[simp] theorem exec_coreRunWrite (v : BitVec 32) (s : State) : exec (.coreRunWrite v) s = Sys2Proof.Machine.execCoreRunWrite v s := rfl
@[simp] theorem exec_stampCsrRead (core : Fin 24) (hi : Bool) (user : Bool) (s : State) : exec (.stampCsrRead core hi user) s = Sys2Proof.Machine.execStampCsrRead core hi user s := rfl
@[simp] theorem exec_timerCompareMatch (core : Fin 24) (stime : Option (BitVec 64)) (s : State) : exec (.timerCompareMatch core stime) s = Sys2Proof.Machine.execTimerCompareMatch core stime s := rfl
@[simp] theorem exec_coreDataAccess (core : Fin 24) (pc : Nat) (addr : Nat) (acc : CoreAcc) (env : WriteEnv) (s : State) : exec (.coreDataAccess core pc addr acc env) s = Sys2Proof.Machine.execCoreDataAccess core pc addr acc env s := rfl
@[simp] theorem exec_criticalChunk (line : Nat) (s : State) : exec (.criticalChunk line) s = Sys2Proof.Machine.execCriticalChunk line s := rfl
@[simp] theorem exec_l2LineFill (line : Nat) (s : State) : exec (.l2LineFill line) s = Sys2Proof.Machine.execL2LineFill line s := rfl
@[simp] theorem exec_l2Invalidate (s : State) : exec (.l2Invalidate) s = Sys2Proof.Machine.execL2Invalidate s := rfl
@[simp] theorem exec_l2InvalidateDone (s : State) : exec (.l2InvalidateDone) s = Sys2Proof.Machine.execL2InvalidateDone s := rfl
@[simp] theorem exec_l2Preload (way : Fin 16) (s : State) : exec (.l2Preload way) s = Sys2Proof.Machine.execL2Preload way s := rfl
@[simp] theorem exec_l2PreloadDone (s : State) : exec (.l2PreloadDone) s = Sys2Proof.Machine.execL2PreloadDone s := rfl
@[simp] theorem exec_l2Enable (s : State) : exec (.l2Enable) s = Sys2Proof.Machine.execL2Enable s := rfl
@[simp] theorem exec_l2Disable (s : State) : exec (.l2Disable) s = Sys2Proof.Machine.execL2Disable s := rfl
@[simp] theorem exec_l2DrainComplete (s : State) : exec (.l2DrainComplete) s = Sys2Proof.Machine.execL2DrainComplete s := rfl
@[simp] theorem exec_l2LockWrite (v : BitVec 32) (s : State) : exec (.l2LockWrite v) s = Sys2Proof.Machine.execL2LockWrite v s := rfl
@[simp] theorem exec_interruptAssert (src : Fin 128) (s : State) : exec (.interruptAssert src) s = Sys2Proof.Machine.execInterruptAssert src s := rfl
@[simp] theorem exec_interruptClaim (core : Fin 24) (sup : Bool) (by_ : Fin 24) (s : State) : exec (.interruptClaim core sup by_) s = Sys2Proof.Machine.execInterruptClaim core sup by_ s := rfl
@[simp] theorem exec_interruptComplete (core : Fin 24) (sup : Bool) (src : Fin 128) (s : State) : exec (.interruptComplete core sup src) s = Sys2Proof.Machine.execInterruptComplete core sup src s := rfl
@[simp] theorem exec_softwareInterruptWrite (core : Fin 24) (sup : Bool) (v : Bool) (s : State) : exec (.softwareInterruptWrite core sup v) s = Sys2Proof.Machine.execSoftwareInterruptWrite core sup v s := rfl
@[simp] theorem exec_bootOk (s : State) : exec (.bootOk) s = Sys2Proof.Machine.execBootOk s := rfl
@[simp] theorem exec_confirm (badFuse : Option Nat) (s : State) : exec (.confirm badFuse) s = Sys2Proof.Machine.execConfirm badFuse s := rfl
@[simp] theorem exec_revert (s : State) : exec (.revert) s = Sys2Proof.Machine.execRevert s := rfl
@[simp] theorem exec_probationExpiry (s : State) : exec (.probationExpiry) s = Sys2Proof.Machine.execProbationExpiry s := rfl
@[simp] theorem exec_flRead (s : State) : exec (.flRead) s = Sys2Proof.Machine.execFlRead s := rfl
@[simp] theorem exec_cabAppend (s : State) : exec (.cabAppend) s = Sys2Proof.Machine.execCabAppend s := rfl
@[simp] theorem exec_cabFind (s : State) : exec (.cabFind) s = Sys2Proof.Machine.execCabFind s := rfl
@[simp] theorem exec_cabinetCompact (s : State) : exec (.cabinetCompact) s = Sys2Proof.Machine.execCabinetCompact s := rfl
@[simp] theorem exec_tftpWrq (tid : Nat) (name : Bytes) (mode : Bytes) (blk : Option Nat) (s : State) : exec (.tftpWrq tid name mode blk) s = Sys2Proof.Machine.execTftpWrq tid name mode blk s := rfl
@[simp] theorem exec_tftpRrq (tid : Nat) (name : Bytes) (mode : Bytes) (blk : Option Nat) (s : State) : exec (.tftpRrq tid name mode blk) s = Sys2Proof.Machine.execTftpRrq tid name mode blk s := rfl
@[simp] theorem exec_tftpData (tid : Nat) (block : Fin 65536) (data : Bytes) (s : State) : exec (.tftpData tid block data) s = Sys2Proof.Machine.execTftpData tid block data s := rfl
@[simp] theorem exec_tftpAck (tid : Nat) (block : Fin 65536) (s : State) : exec (.tftpAck tid block) s = Sys2Proof.Machine.execTftpAck tid block s := rfl
@[simp] theorem exec_tftpRetransmit (s : State) : exec (.tftpRetransmit) s = Sys2Proof.Machine.execTftpRetransmit s := rfl
@[simp] theorem exec_errorOccurrence (page : Fin 64) (src : Fin 32) (unit : Option Nat) (detail : Nat) (hit : Struck) (s : State) : exec (.errorOccurrence page src unit detail hit) s = Sys2Proof.Machine.execErrorOccurrence page src unit detail hit s := rfl
@[simp] theorem exec_errInjWrite (page : Fin 64) (v : BitVec 32) (s : State) : exec (.errInjWrite page v) s = Sys2Proof.Machine.execErrInjWrite page v s := rfl
@[simp] theorem exec_fclFaultClear (v : BitVec 64) (s : State) : exec (.fclFaultClear v) s = Sys2Proof.Machine.execFclFaultClear v s := rfl
@[simp] theorem exec_fclLogRdWrite (i : Fin 64) (s : State) : exec (.fclLogRdWrite i) s = Sys2Proof.Machine.execFclLogRdWrite i s := rfl
@[simp] theorem exec_pinHoldWrite (v : Bool) (s : State) : exec (.pinHoldWrite v) s = Sys2Proof.Machine.execPinHoldWrite v s := rfl
@[simp] theorem exec_faultNPulseEnd (s : State) : exec (.faultNPulseEnd) s = Sys2Proof.Machine.execFaultNPulseEnd s := rfl
@[simp] theorem exec_evrSample (temps : List Int) (rails : List Nat) (s : State) : exec (.evrSample temps rails) s = Sys2Proof.Machine.execEvrSample temps rails s := rfl
@[simp] theorem exec_evrPeriodClose (tier : Fin 3) (ok : Bool) (s : State) : exec (.evrPeriodClose tier ok) s = Sys2Proof.Machine.execEvrPeriodClose tier ok s := rfl
@[simp] theorem exec_evrEventProgram (ok : Bool) (s : State) : exec (.evrEventProgram ok) s = Sys2Proof.Machine.execEvrEventProgram ok s := rfl
@[simp] theorem exec_powerStateEntry (page : Fin 33) (unit : Fin 256) (idleNs : Nat) (s : State) : exec (.powerStateEntry page unit idleNs) s = Sys2Proof.Machine.execPowerStateEntry page unit idleNs s := rfl
@[simp] theorem exec_powerStateExit (page : Fin 33) (unit : Fin 256) (s : State) : exec (.powerStateExit page unit) s = Sys2Proof.Machine.execPowerStateExit page unit s := rfl
@[simp] theorem exec_ctlEnWrite (page : Fin 64) (v : Bool) (s : State) : exec (.ctlEnWrite page v) s = Sys2Proof.Machine.execCtlEnWrite page v s := rfl
@[simp] theorem exec_blockStopped (page : Fin 64) (s : State) : exec (.blockStopped page) s = Sys2Proof.Machine.execBlockStopped page s := rfl
@[simp] theorem exec_softReset (page : Fin 64) (s : State) : exec (.softReset page) s = Sys2Proof.Machine.execSoftReset page s := rfl
@[simp] theorem exec_softResetDone (page : Fin 64) (s : State) : exec (.softResetDone page) s = Sys2Proof.Machine.execSoftResetDone page s := rfl
@[simp] theorem exec_ctlFenceWrite (page : Fin 64) (s : State) : exec (.ctlFenceWrite page) s = Sys2Proof.Machine.execCtlFenceWrite page s := rfl
@[simp] theorem exec_ctlLockWrite (page : Fin 64) (v : BitVec 31) (s : State) : exec (.ctlLockWrite page v) s = Sys2Proof.Machine.execCtlLockWrite page v s := rfl
@[simp] theorem exec_prsntRise (s : State) : exec (.prsntRise) s = Sys2Proof.Machine.execPrsntRise s := rfl
@[simp] theorem exec_prsntFall (s : State) : exec (.prsntFall) s = Sys2Proof.Machine.execPrsntFall s := rfl
@[simp] theorem exec_laneEnable (s : State) : exec (.laneEnable) s = Sys2Proof.Machine.execLaneEnable s := rfl
@[simp] theorem exec_ejectReq (s : State) : exec (.ejectReq) s = Sys2Proof.Machine.execEjectReq s := rfl
@[simp] theorem exec_powerDown (s : State) : exec (.powerDown) s = Sys2Proof.Machine.execPowerDown s := rfl
@[simp] theorem exec_vbatLoss (s : State) : exec (.vbatLoss) s = Sys2Proof.Machine.execVbatLoss s := rfl
@[simp] theorem exec_refclkPcieChange (present : Bool) (s : State) : exec (.refclkPcieChange present) s = Sys2Proof.Machine.execRefclkPcieChange present s := rfl
@[simp] theorem exec_unsupportedOpcode (q : Nat) (opc : Fin 256) (c : NvmeCmd) (s : State) : exec (.unsupportedOpcode q opc c) s = Sys2Proof.Machine.execUnsupportedOpcode q opc c s := rfl
@[simp] theorem exec_invalidPdu (q : Nat) (lport : Fin 64) (malformed : Bool) (d1 : Nat) (d2 : Nat) (s : State) : exec (.invalidPdu q lport malformed d1 d2) s = Sys2Proof.Machine.execInvalidPdu q lport malformed d1 d2 s := rfl
@[simp] theorem exec_rdmaCmConnect (q : Nat) (lport : Fin 64) (rc : Bool) (s : State) : exec (.rdmaCmConnect q lport rc) s = Sys2Proof.Machine.execRdmaCmConnect q lport rc s := rfl
@[simp] theorem exec_priorityFlowControl (lport : Fin 64) (classes : BitVec 8) (pauseMask : BitVec 8) (s : State) : exec (.priorityFlowControl lport classes pauseMask) s = Sys2Proof.Machine.execPriorityFlowControl lport classes pauseMask s := rfl
@[simp] theorem exec_servicePortFrame (f : SvcFrame) (s : State) : exec (.servicePortFrame f) s = Sys2Proof.Machine.execServicePortFrame f s := rfl
@[simp] theorem exec_namespaceManagement (ns : Fin 65536) (desc : BitVec 128) (viewEpoch : Fin 4294967296) (s : State) : exec (.namespaceManagement ns desc viewEpoch) s = Sys2Proof.Machine.execNamespaceManagement ns desc viewEpoch s := rfl
@[simp] theorem exec_ownershipMove (g : Fin 1024) (s : State) : exec (.ownershipMove g) s = Sys2Proof.Machine.execOwnershipMove g s := rfl
@[simp] theorem exec_dieOperationDone (m : Fin 64) (port : Fin 2) (tag : Fin 4096) (status : Fin 256) (data : Bytes) (s : State) : exec (.dieOperationDone m port tag status data) s = Sys2Proof.Machine.execDieOperationDone m port tag status data s := rfl
@[simp] theorem exec_bootFlashProgramDone (ok : Bool) (s : State) : exec (.bootFlashProgramDone ok) s = Sys2Proof.Machine.execBootFlashProgramDone ok s := rfl
@[simp] theorem exec_mapPageRebuildDone (ns : Fin 65536) (pix : Fin 281474976710656) (s : State) : exec (.mapPageRebuildDone ns pix) s = Sys2Proof.Machine.execMapPageRebuildDone ns pix s := rfl

end Sys2Proof.Laws
end

