-- ==== Sys2Proof/Laws/State.lean ====
section
/-! SUPPORT. What each basic update of State leaves alone, one lemma per field per update, so that no proof unfolds a record update. -/
namespace Sys2Proof.Laws
open Sys2Proof Sys2Proof.Machine

/-! ## setWord -/

@[simp] theorem setWord_pending (s : State) (a : Nat) (v : Word) : (s.setWord a v).pending = s.pending := rfl
@[simp] theorem setWord_caps (s : State) (a : Nat) (v : Word) : (s.setWord a v).caps = s.caps := rfl
@[simp] theorem setWord_shadows (s : State) (a : Nat) (v : Word) : (s.setWord a v).shadows = s.shadows := rfl
@[simp] theorem setWord_now (s : State) (a : Nat) (v : Word) : (s.setWord a v).now = s.now := rfl
@[simp] theorem setWord_freeCtr (s : State) (a : Nat) (v : Word) : (s.setWord a v).freeCtr = s.freeCtr := rfl
@[simp] theorem setWord_pins (s : State) (a : Nat) (v : Word) : (s.setWord a v).pins = s.pins := rfl
@[simp] theorem setWord_fuses (s : State) (a : Nat) (v : Word) : (s.setWord a v).fuses = s.fuses := rfl
@[simp] theorem setWord_straps (s : State) (a : Nat) (v : Word) : (s.setWord a v).straps = s.straps := rfl
@[simp] theorem setWord_tbs (s : State) (a : Nat) (v : Word) : (s.setWord a v).tbs = s.tbs := rfl
@[simp] theorem setWord_bsv (s : State) (a : Nat) (v : Word) : (s.setWord a v).bsv = s.bsv := rfl
@[simp] theorem setWord_fcl (s : State) (a : Nat) (v : Word) : (s.setWord a v).fcl = s.fcl := rfl
@[simp] theorem setWord_evr (s : State) (a : Nat) (v : Word) : (s.setWord a v).evr = s.evr := rfl
@[simp] theorem setWord_irq (s : State) (a : Nat) (v : Word) : (s.setWord a v).irq = s.irq := rfl
@[simp] theorem setWord_dram (s : State) (a : Nat) (v : Word) : (s.setWord a v).dram = s.dram := rfl
@[simp] theorem setWord_io (s : State) (a : Nat) (v : Word) : (s.setWord a v).io = s.io := rfl
@[simp] theorem setWord_ing (s : State) (a : Nat) (v : Word) : (s.setWord a v).ing = s.ing := rfl
@[simp] theorem setWord_slm (s : State) (a : Nat) (v : Word) : (s.setWord a v).slm = s.slm := rfl
@[simp] theorem setWord_maps (s : State) (a : Nat) (v : Word) : (s.setWord a v).maps = s.maps := rfl
@[simp] theorem setWord_mpe (s : State) (a : Nat) (v : Word) : (s.setWord a v).mpe = s.mpe := rfl
@[simp] theorem setWord_mpc (s : State) (a : Nat) (v : Word) : (s.setWord a v).mpc = s.mpc := rfl
@[simp] theorem setWord_sgb (s : State) (a : Nat) (v : Word) : (s.setWord a v).sgb = s.sgb := rfl
@[simp] theorem setWord_fmm (s : State) (a : Nat) (v : Word) : (s.setWord a v).fmm = s.fmm := rfl
@[simp] theorem setWord_jlk (s : State) (a : Nat) (v : Word) : (s.setWord a v).jlk = s.jlk := rfl
@[simp] theorem setWord_bridges (s : State) (a : Nat) (v : Word) : (s.setWord a v).bridges = s.bridges := rfl
@[simp] theorem setWord_cpl (s : State) (a : Nat) (v : Word) : (s.setWord a v).cpl = s.cpl := rfl
@[simp] theorem setWord_sec (s : State) (a : Nat) (v : Word) : (s.setWord a v).sec = s.sec := rfl
@[simp] theorem setWord_ldc (s : State) (a : Nat) (v : Word) : (s.setWord a v).ldc = s.ldc := rfl
@[simp] theorem setWord_rbe (s : State) (a : Nat) (v : Word) : (s.setWord a v).rbe = s.rbe := rfl
@[simp] theorem setWord_rpl (s : State) (a : Nat) (v : Word) : (s.setWord a v).rpl = s.rpl := rfl
@[simp] theorem setWord_ccl (s : State) (a : Nat) (v : Word) : (s.setWord a v).ccl = s.ccl := rfl
@[simp] theorem setWord_pwr (s : State) (a : Nat) (v : Word) : (s.setWord a v).pwr = s.pwr := rfl
@[simp] theorem setWord_mem (s : State) (a : Nat) (v : Word) : (s.setWord a v).mem = s.mem := rfl
@[simp] theorem setWord_flash (s : State) (a : Nat) (v : Word) : (s.setWord a v).flash = s.flash := rfl
@[simp] theorem setWord_out (s : State) (a : Nat) (v : Word) : (s.setWord a v).out = s.out := rfl

/-! ## setWords -/

@[simp] theorem setWords_pending (s : State) (a v k : Nat) : (s.setWords a v k).pending = s.pending := by
  induction k generalizing s a v with
  | zero => rfl
  | succ k ih => simp [State.setWords, ih]
@[simp] theorem setWords_caps (s : State) (a v k : Nat) : (s.setWords a v k).caps = s.caps := by
  induction k generalizing s a v with
  | zero => rfl
  | succ k ih => simp [State.setWords, ih]
@[simp] theorem setWords_shadows (s : State) (a v k : Nat) : (s.setWords a v k).shadows = s.shadows := by
  induction k generalizing s a v with
  | zero => rfl
  | succ k ih => simp [State.setWords, ih]
@[simp] theorem setWords_now (s : State) (a v k : Nat) : (s.setWords a v k).now = s.now := by
  induction k generalizing s a v with
  | zero => rfl
  | succ k ih => simp [State.setWords, ih]
@[simp] theorem setWords_freeCtr (s : State) (a v k : Nat) : (s.setWords a v k).freeCtr = s.freeCtr := by
  induction k generalizing s a v with
  | zero => rfl
  | succ k ih => simp [State.setWords, ih]
@[simp] theorem setWords_pins (s : State) (a v k : Nat) : (s.setWords a v k).pins = s.pins := by
  induction k generalizing s a v with
  | zero => rfl
  | succ k ih => simp [State.setWords, ih]
@[simp] theorem setWords_fuses (s : State) (a v k : Nat) : (s.setWords a v k).fuses = s.fuses := by
  induction k generalizing s a v with
  | zero => rfl
  | succ k ih => simp [State.setWords, ih]
@[simp] theorem setWords_straps (s : State) (a v k : Nat) : (s.setWords a v k).straps = s.straps := by
  induction k generalizing s a v with
  | zero => rfl
  | succ k ih => simp [State.setWords, ih]
@[simp] theorem setWords_tbs (s : State) (a v k : Nat) : (s.setWords a v k).tbs = s.tbs := by
  induction k generalizing s a v with
  | zero => rfl
  | succ k ih => simp [State.setWords, ih]
@[simp] theorem setWords_bsv (s : State) (a v k : Nat) : (s.setWords a v k).bsv = s.bsv := by
  induction k generalizing s a v with
  | zero => rfl
  | succ k ih => simp [State.setWords, ih]
@[simp] theorem setWords_fcl (s : State) (a v k : Nat) : (s.setWords a v k).fcl = s.fcl := by
  induction k generalizing s a v with
  | zero => rfl
  | succ k ih => simp [State.setWords, ih]
@[simp] theorem setWords_evr (s : State) (a v k : Nat) : (s.setWords a v k).evr = s.evr := by
  induction k generalizing s a v with
  | zero => rfl
  | succ k ih => simp [State.setWords, ih]
@[simp] theorem setWords_irq (s : State) (a v k : Nat) : (s.setWords a v k).irq = s.irq := by
  induction k generalizing s a v with
  | zero => rfl
  | succ k ih => simp [State.setWords, ih]
@[simp] theorem setWords_dram (s : State) (a v k : Nat) : (s.setWords a v k).dram = s.dram := by
  induction k generalizing s a v with
  | zero => rfl
  | succ k ih => simp [State.setWords, ih]
@[simp] theorem setWords_io (s : State) (a v k : Nat) : (s.setWords a v k).io = s.io := by
  induction k generalizing s a v with
  | zero => rfl
  | succ k ih => simp [State.setWords, ih]
@[simp] theorem setWords_ing (s : State) (a v k : Nat) : (s.setWords a v k).ing = s.ing := by
  induction k generalizing s a v with
  | zero => rfl
  | succ k ih => simp [State.setWords, ih]
@[simp] theorem setWords_slm (s : State) (a v k : Nat) : (s.setWords a v k).slm = s.slm := by
  induction k generalizing s a v with
  | zero => rfl
  | succ k ih => simp [State.setWords, ih]
@[simp] theorem setWords_maps (s : State) (a v k : Nat) : (s.setWords a v k).maps = s.maps := by
  induction k generalizing s a v with
  | zero => rfl
  | succ k ih => simp [State.setWords, ih]
@[simp] theorem setWords_mpe (s : State) (a v k : Nat) : (s.setWords a v k).mpe = s.mpe := by
  induction k generalizing s a v with
  | zero => rfl
  | succ k ih => simp [State.setWords, ih]
@[simp] theorem setWords_mpc (s : State) (a v k : Nat) : (s.setWords a v k).mpc = s.mpc := by
  induction k generalizing s a v with
  | zero => rfl
  | succ k ih => simp [State.setWords, ih]
@[simp] theorem setWords_sgb (s : State) (a v k : Nat) : (s.setWords a v k).sgb = s.sgb := by
  induction k generalizing s a v with
  | zero => rfl
  | succ k ih => simp [State.setWords, ih]
@[simp] theorem setWords_fmm (s : State) (a v k : Nat) : (s.setWords a v k).fmm = s.fmm := by
  induction k generalizing s a v with
  | zero => rfl
  | succ k ih => simp [State.setWords, ih]
@[simp] theorem setWords_jlk (s : State) (a v k : Nat) : (s.setWords a v k).jlk = s.jlk := by
  induction k generalizing s a v with
  | zero => rfl
  | succ k ih => simp [State.setWords, ih]
@[simp] theorem setWords_bridges (s : State) (a v k : Nat) : (s.setWords a v k).bridges = s.bridges := by
  induction k generalizing s a v with
  | zero => rfl
  | succ k ih => simp [State.setWords, ih]
@[simp] theorem setWords_cpl (s : State) (a v k : Nat) : (s.setWords a v k).cpl = s.cpl := by
  induction k generalizing s a v with
  | zero => rfl
  | succ k ih => simp [State.setWords, ih]
@[simp] theorem setWords_sec (s : State) (a v k : Nat) : (s.setWords a v k).sec = s.sec := by
  induction k generalizing s a v with
  | zero => rfl
  | succ k ih => simp [State.setWords, ih]
@[simp] theorem setWords_ldc (s : State) (a v k : Nat) : (s.setWords a v k).ldc = s.ldc := by
  induction k generalizing s a v with
  | zero => rfl
  | succ k ih => simp [State.setWords, ih]
@[simp] theorem setWords_rbe (s : State) (a v k : Nat) : (s.setWords a v k).rbe = s.rbe := by
  induction k generalizing s a v with
  | zero => rfl
  | succ k ih => simp [State.setWords, ih]
@[simp] theorem setWords_rpl (s : State) (a v k : Nat) : (s.setWords a v k).rpl = s.rpl := by
  induction k generalizing s a v with
  | zero => rfl
  | succ k ih => simp [State.setWords, ih]
@[simp] theorem setWords_ccl (s : State) (a v k : Nat) : (s.setWords a v k).ccl = s.ccl := by
  induction k generalizing s a v with
  | zero => rfl
  | succ k ih => simp [State.setWords, ih]
@[simp] theorem setWords_pwr (s : State) (a v k : Nat) : (s.setWords a v k).pwr = s.pwr := by
  induction k generalizing s a v with
  | zero => rfl
  | succ k ih => simp [State.setWords, ih]
@[simp] theorem setWords_mem (s : State) (a v k : Nat) : (s.setWords a v k).mem = s.mem := by
  induction k generalizing s a v with
  | zero => rfl
  | succ k ih => simp [State.setWords, ih]
@[simp] theorem setWords_flash (s : State) (a v k : Nat) : (s.setWords a v k).flash = s.flash := by
  induction k generalizing s a v with
  | zero => rfl
  | succ k ih => simp [State.setWords, ih]
@[simp] theorem setWords_out (s : State) (a v k : Nat) : (s.setWords a v k).out = s.out := by
  induction k generalizing s a v with
  | zero => rfl
  | succ k ih => simp [State.setWords, ih]

/-! ## wf -/

@[simp] theorem wf_pending (s : State) (f : Fld) (v : Nat) : (s.wf f v).pending = s.pending := setWords_pending _ _ _ _
@[simp] theorem wf_caps (s : State) (f : Fld) (v : Nat) : (s.wf f v).caps = s.caps := setWords_caps _ _ _ _
@[simp] theorem wf_shadows (s : State) (f : Fld) (v : Nat) : (s.wf f v).shadows = s.shadows := setWords_shadows _ _ _ _
@[simp] theorem wf_now (s : State) (f : Fld) (v : Nat) : (s.wf f v).now = s.now := setWords_now _ _ _ _
@[simp] theorem wf_freeCtr (s : State) (f : Fld) (v : Nat) : (s.wf f v).freeCtr = s.freeCtr := setWords_freeCtr _ _ _ _
@[simp] theorem wf_pins (s : State) (f : Fld) (v : Nat) : (s.wf f v).pins = s.pins := setWords_pins _ _ _ _
@[simp] theorem wf_fuses (s : State) (f : Fld) (v : Nat) : (s.wf f v).fuses = s.fuses := setWords_fuses _ _ _ _
@[simp] theorem wf_straps (s : State) (f : Fld) (v : Nat) : (s.wf f v).straps = s.straps := setWords_straps _ _ _ _
@[simp] theorem wf_tbs (s : State) (f : Fld) (v : Nat) : (s.wf f v).tbs = s.tbs := setWords_tbs _ _ _ _
@[simp] theorem wf_bsv (s : State) (f : Fld) (v : Nat) : (s.wf f v).bsv = s.bsv := setWords_bsv _ _ _ _
@[simp] theorem wf_fcl (s : State) (f : Fld) (v : Nat) : (s.wf f v).fcl = s.fcl := setWords_fcl _ _ _ _
@[simp] theorem wf_evr (s : State) (f : Fld) (v : Nat) : (s.wf f v).evr = s.evr := setWords_evr _ _ _ _
@[simp] theorem wf_irq (s : State) (f : Fld) (v : Nat) : (s.wf f v).irq = s.irq := setWords_irq _ _ _ _
@[simp] theorem wf_dram (s : State) (f : Fld) (v : Nat) : (s.wf f v).dram = s.dram := setWords_dram _ _ _ _
@[simp] theorem wf_io (s : State) (f : Fld) (v : Nat) : (s.wf f v).io = s.io := setWords_io _ _ _ _
@[simp] theorem wf_ing (s : State) (f : Fld) (v : Nat) : (s.wf f v).ing = s.ing := setWords_ing _ _ _ _
@[simp] theorem wf_slm (s : State) (f : Fld) (v : Nat) : (s.wf f v).slm = s.slm := setWords_slm _ _ _ _
@[simp] theorem wf_maps (s : State) (f : Fld) (v : Nat) : (s.wf f v).maps = s.maps := setWords_maps _ _ _ _
@[simp] theorem wf_mpe (s : State) (f : Fld) (v : Nat) : (s.wf f v).mpe = s.mpe := setWords_mpe _ _ _ _
@[simp] theorem wf_mpc (s : State) (f : Fld) (v : Nat) : (s.wf f v).mpc = s.mpc := setWords_mpc _ _ _ _
@[simp] theorem wf_sgb (s : State) (f : Fld) (v : Nat) : (s.wf f v).sgb = s.sgb := setWords_sgb _ _ _ _
@[simp] theorem wf_fmm (s : State) (f : Fld) (v : Nat) : (s.wf f v).fmm = s.fmm := setWords_fmm _ _ _ _
@[simp] theorem wf_jlk (s : State) (f : Fld) (v : Nat) : (s.wf f v).jlk = s.jlk := setWords_jlk _ _ _ _
@[simp] theorem wf_bridges (s : State) (f : Fld) (v : Nat) : (s.wf f v).bridges = s.bridges := setWords_bridges _ _ _ _
@[simp] theorem wf_cpl (s : State) (f : Fld) (v : Nat) : (s.wf f v).cpl = s.cpl := setWords_cpl _ _ _ _
@[simp] theorem wf_sec (s : State) (f : Fld) (v : Nat) : (s.wf f v).sec = s.sec := setWords_sec _ _ _ _
@[simp] theorem wf_ldc (s : State) (f : Fld) (v : Nat) : (s.wf f v).ldc = s.ldc := setWords_ldc _ _ _ _
@[simp] theorem wf_rbe (s : State) (f : Fld) (v : Nat) : (s.wf f v).rbe = s.rbe := setWords_rbe _ _ _ _
@[simp] theorem wf_rpl (s : State) (f : Fld) (v : Nat) : (s.wf f v).rpl = s.rpl := setWords_rpl _ _ _ _
@[simp] theorem wf_ccl (s : State) (f : Fld) (v : Nat) : (s.wf f v).ccl = s.ccl := setWords_ccl _ _ _ _
@[simp] theorem wf_pwr (s : State) (f : Fld) (v : Nat) : (s.wf f v).pwr = s.pwr := setWords_pwr _ _ _ _
@[simp] theorem wf_mem (s : State) (f : Fld) (v : Nat) : (s.wf f v).mem = s.mem := setWords_mem _ _ _ _
@[simp] theorem wf_flash (s : State) (f : Fld) (v : Nat) : (s.wf f v).flash = s.flash := setWords_flash _ _ _ _
@[simp] theorem wf_out (s : State) (f : Fld) (v : Nat) : (s.wf f v).out = s.out := setWords_out _ _ _ _

/-! ## incBy -/

@[simp] theorem incBy_pending (s : State) (f : Fld) (n : Nat) : (s.incBy f n).pending = s.pending := setWords_pending _ _ _ _
@[simp] theorem incBy_caps (s : State) (f : Fld) (n : Nat) : (s.incBy f n).caps = s.caps := setWords_caps _ _ _ _
@[simp] theorem incBy_shadows (s : State) (f : Fld) (n : Nat) : (s.incBy f n).shadows = s.shadows := setWords_shadows _ _ _ _
@[simp] theorem incBy_now (s : State) (f : Fld) (n : Nat) : (s.incBy f n).now = s.now := setWords_now _ _ _ _
@[simp] theorem incBy_freeCtr (s : State) (f : Fld) (n : Nat) : (s.incBy f n).freeCtr = s.freeCtr := setWords_freeCtr _ _ _ _
@[simp] theorem incBy_pins (s : State) (f : Fld) (n : Nat) : (s.incBy f n).pins = s.pins := setWords_pins _ _ _ _
@[simp] theorem incBy_fuses (s : State) (f : Fld) (n : Nat) : (s.incBy f n).fuses = s.fuses := setWords_fuses _ _ _ _
@[simp] theorem incBy_straps (s : State) (f : Fld) (n : Nat) : (s.incBy f n).straps = s.straps := setWords_straps _ _ _ _
@[simp] theorem incBy_tbs (s : State) (f : Fld) (n : Nat) : (s.incBy f n).tbs = s.tbs := setWords_tbs _ _ _ _
@[simp] theorem incBy_bsv (s : State) (f : Fld) (n : Nat) : (s.incBy f n).bsv = s.bsv := setWords_bsv _ _ _ _
@[simp] theorem incBy_fcl (s : State) (f : Fld) (n : Nat) : (s.incBy f n).fcl = s.fcl := setWords_fcl _ _ _ _
@[simp] theorem incBy_evr (s : State) (f : Fld) (n : Nat) : (s.incBy f n).evr = s.evr := setWords_evr _ _ _ _
@[simp] theorem incBy_irq (s : State) (f : Fld) (n : Nat) : (s.incBy f n).irq = s.irq := setWords_irq _ _ _ _
@[simp] theorem incBy_dram (s : State) (f : Fld) (n : Nat) : (s.incBy f n).dram = s.dram := setWords_dram _ _ _ _
@[simp] theorem incBy_io (s : State) (f : Fld) (n : Nat) : (s.incBy f n).io = s.io := setWords_io _ _ _ _
@[simp] theorem incBy_ing (s : State) (f : Fld) (n : Nat) : (s.incBy f n).ing = s.ing := setWords_ing _ _ _ _
@[simp] theorem incBy_slm (s : State) (f : Fld) (n : Nat) : (s.incBy f n).slm = s.slm := setWords_slm _ _ _ _
@[simp] theorem incBy_maps (s : State) (f : Fld) (n : Nat) : (s.incBy f n).maps = s.maps := setWords_maps _ _ _ _
@[simp] theorem incBy_mpe (s : State) (f : Fld) (n : Nat) : (s.incBy f n).mpe = s.mpe := setWords_mpe _ _ _ _
@[simp] theorem incBy_mpc (s : State) (f : Fld) (n : Nat) : (s.incBy f n).mpc = s.mpc := setWords_mpc _ _ _ _
@[simp] theorem incBy_sgb (s : State) (f : Fld) (n : Nat) : (s.incBy f n).sgb = s.sgb := setWords_sgb _ _ _ _
@[simp] theorem incBy_fmm (s : State) (f : Fld) (n : Nat) : (s.incBy f n).fmm = s.fmm := setWords_fmm _ _ _ _
@[simp] theorem incBy_jlk (s : State) (f : Fld) (n : Nat) : (s.incBy f n).jlk = s.jlk := setWords_jlk _ _ _ _
@[simp] theorem incBy_bridges (s : State) (f : Fld) (n : Nat) : (s.incBy f n).bridges = s.bridges := setWords_bridges _ _ _ _
@[simp] theorem incBy_cpl (s : State) (f : Fld) (n : Nat) : (s.incBy f n).cpl = s.cpl := setWords_cpl _ _ _ _
@[simp] theorem incBy_sec (s : State) (f : Fld) (n : Nat) : (s.incBy f n).sec = s.sec := setWords_sec _ _ _ _
@[simp] theorem incBy_ldc (s : State) (f : Fld) (n : Nat) : (s.incBy f n).ldc = s.ldc := setWords_ldc _ _ _ _
@[simp] theorem incBy_rbe (s : State) (f : Fld) (n : Nat) : (s.incBy f n).rbe = s.rbe := setWords_rbe _ _ _ _
@[simp] theorem incBy_rpl (s : State) (f : Fld) (n : Nat) : (s.incBy f n).rpl = s.rpl := setWords_rpl _ _ _ _
@[simp] theorem incBy_ccl (s : State) (f : Fld) (n : Nat) : (s.incBy f n).ccl = s.ccl := setWords_ccl _ _ _ _
@[simp] theorem incBy_pwr (s : State) (f : Fld) (n : Nat) : (s.incBy f n).pwr = s.pwr := setWords_pwr _ _ _ _
@[simp] theorem incBy_mem (s : State) (f : Fld) (n : Nat) : (s.incBy f n).mem = s.mem := setWords_mem _ _ _ _
@[simp] theorem incBy_flash (s : State) (f : Fld) (n : Nat) : (s.incBy f n).flash = s.flash := setWords_flash _ _ _ _
@[simp] theorem incBy_out (s : State) (f : Fld) (n : Nat) : (s.incBy f n).out = s.out := setWords_out _ _ _ _

/-! ## inc -/

@[simp] theorem inc_pending (s : State) (f : Fld) : (s.inc f).pending = s.pending := setWords_pending _ _ _ _
@[simp] theorem inc_caps (s : State) (f : Fld) : (s.inc f).caps = s.caps := setWords_caps _ _ _ _
@[simp] theorem inc_shadows (s : State) (f : Fld) : (s.inc f).shadows = s.shadows := setWords_shadows _ _ _ _
@[simp] theorem inc_now (s : State) (f : Fld) : (s.inc f).now = s.now := setWords_now _ _ _ _
@[simp] theorem inc_freeCtr (s : State) (f : Fld) : (s.inc f).freeCtr = s.freeCtr := setWords_freeCtr _ _ _ _
@[simp] theorem inc_pins (s : State) (f : Fld) : (s.inc f).pins = s.pins := setWords_pins _ _ _ _
@[simp] theorem inc_fuses (s : State) (f : Fld) : (s.inc f).fuses = s.fuses := setWords_fuses _ _ _ _
@[simp] theorem inc_straps (s : State) (f : Fld) : (s.inc f).straps = s.straps := setWords_straps _ _ _ _
@[simp] theorem inc_tbs (s : State) (f : Fld) : (s.inc f).tbs = s.tbs := setWords_tbs _ _ _ _
@[simp] theorem inc_bsv (s : State) (f : Fld) : (s.inc f).bsv = s.bsv := setWords_bsv _ _ _ _
@[simp] theorem inc_fcl (s : State) (f : Fld) : (s.inc f).fcl = s.fcl := setWords_fcl _ _ _ _
@[simp] theorem inc_evr (s : State) (f : Fld) : (s.inc f).evr = s.evr := setWords_evr _ _ _ _
@[simp] theorem inc_irq (s : State) (f : Fld) : (s.inc f).irq = s.irq := setWords_irq _ _ _ _
@[simp] theorem inc_dram (s : State) (f : Fld) : (s.inc f).dram = s.dram := setWords_dram _ _ _ _
@[simp] theorem inc_io (s : State) (f : Fld) : (s.inc f).io = s.io := setWords_io _ _ _ _
@[simp] theorem inc_ing (s : State) (f : Fld) : (s.inc f).ing = s.ing := setWords_ing _ _ _ _
@[simp] theorem inc_slm (s : State) (f : Fld) : (s.inc f).slm = s.slm := setWords_slm _ _ _ _
@[simp] theorem inc_maps (s : State) (f : Fld) : (s.inc f).maps = s.maps := setWords_maps _ _ _ _
@[simp] theorem inc_mpe (s : State) (f : Fld) : (s.inc f).mpe = s.mpe := setWords_mpe _ _ _ _
@[simp] theorem inc_mpc (s : State) (f : Fld) : (s.inc f).mpc = s.mpc := setWords_mpc _ _ _ _
@[simp] theorem inc_sgb (s : State) (f : Fld) : (s.inc f).sgb = s.sgb := setWords_sgb _ _ _ _
@[simp] theorem inc_fmm (s : State) (f : Fld) : (s.inc f).fmm = s.fmm := setWords_fmm _ _ _ _
@[simp] theorem inc_jlk (s : State) (f : Fld) : (s.inc f).jlk = s.jlk := setWords_jlk _ _ _ _
@[simp] theorem inc_bridges (s : State) (f : Fld) : (s.inc f).bridges = s.bridges := setWords_bridges _ _ _ _
@[simp] theorem inc_cpl (s : State) (f : Fld) : (s.inc f).cpl = s.cpl := setWords_cpl _ _ _ _
@[simp] theorem inc_sec (s : State) (f : Fld) : (s.inc f).sec = s.sec := setWords_sec _ _ _ _
@[simp] theorem inc_ldc (s : State) (f : Fld) : (s.inc f).ldc = s.ldc := setWords_ldc _ _ _ _
@[simp] theorem inc_rbe (s : State) (f : Fld) : (s.inc f).rbe = s.rbe := setWords_rbe _ _ _ _
@[simp] theorem inc_rpl (s : State) (f : Fld) : (s.inc f).rpl = s.rpl := setWords_rpl _ _ _ _
@[simp] theorem inc_ccl (s : State) (f : Fld) : (s.inc f).ccl = s.ccl := setWords_ccl _ _ _ _
@[simp] theorem inc_pwr (s : State) (f : Fld) : (s.inc f).pwr = s.pwr := setWords_pwr _ _ _ _
@[simp] theorem inc_mem (s : State) (f : Fld) : (s.inc f).mem = s.mem := setWords_mem _ _ _ _
@[simp] theorem inc_flash (s : State) (f : Fld) : (s.inc f).flash = s.flash := setWords_flash _ _ _ _
@[simp] theorem inc_out (s : State) (f : Fld) : (s.inc f).out = s.out := setWords_out _ _ _ _

/-! ## emit -/

@[simp] theorem emit_pending (s : State) (m : Out) : (s.emit m).pending = s.pending := rfl
@[simp] theorem emit_regs (s : State) (m : Out) : (s.emit m).regs = s.regs := rfl
@[simp] theorem emit_caps (s : State) (m : Out) : (s.emit m).caps = s.caps := rfl
@[simp] theorem emit_shadows (s : State) (m : Out) : (s.emit m).shadows = s.shadows := rfl
@[simp] theorem emit_now (s : State) (m : Out) : (s.emit m).now = s.now := rfl
@[simp] theorem emit_freeCtr (s : State) (m : Out) : (s.emit m).freeCtr = s.freeCtr := rfl
@[simp] theorem emit_pins (s : State) (m : Out) : (s.emit m).pins = s.pins := rfl
@[simp] theorem emit_fuses (s : State) (m : Out) : (s.emit m).fuses = s.fuses := rfl
@[simp] theorem emit_straps (s : State) (m : Out) : (s.emit m).straps = s.straps := rfl
@[simp] theorem emit_tbs (s : State) (m : Out) : (s.emit m).tbs = s.tbs := rfl
@[simp] theorem emit_bsv (s : State) (m : Out) : (s.emit m).bsv = s.bsv := rfl
@[simp] theorem emit_fcl (s : State) (m : Out) : (s.emit m).fcl = s.fcl := rfl
@[simp] theorem emit_evr (s : State) (m : Out) : (s.emit m).evr = s.evr := rfl
@[simp] theorem emit_irq (s : State) (m : Out) : (s.emit m).irq = s.irq := rfl
@[simp] theorem emit_dram (s : State) (m : Out) : (s.emit m).dram = s.dram := rfl
@[simp] theorem emit_io (s : State) (m : Out) : (s.emit m).io = s.io := rfl
@[simp] theorem emit_ing (s : State) (m : Out) : (s.emit m).ing = s.ing := rfl
@[simp] theorem emit_slm (s : State) (m : Out) : (s.emit m).slm = s.slm := rfl
@[simp] theorem emit_maps (s : State) (m : Out) : (s.emit m).maps = s.maps := rfl
@[simp] theorem emit_mpe (s : State) (m : Out) : (s.emit m).mpe = s.mpe := rfl
@[simp] theorem emit_mpc (s : State) (m : Out) : (s.emit m).mpc = s.mpc := rfl
@[simp] theorem emit_sgb (s : State) (m : Out) : (s.emit m).sgb = s.sgb := rfl
@[simp] theorem emit_fmm (s : State) (m : Out) : (s.emit m).fmm = s.fmm := rfl
@[simp] theorem emit_jlk (s : State) (m : Out) : (s.emit m).jlk = s.jlk := rfl
@[simp] theorem emit_bridges (s : State) (m : Out) : (s.emit m).bridges = s.bridges := rfl
@[simp] theorem emit_cpl (s : State) (m : Out) : (s.emit m).cpl = s.cpl := rfl
@[simp] theorem emit_sec (s : State) (m : Out) : (s.emit m).sec = s.sec := rfl
@[simp] theorem emit_ldc (s : State) (m : Out) : (s.emit m).ldc = s.ldc := rfl
@[simp] theorem emit_rbe (s : State) (m : Out) : (s.emit m).rbe = s.rbe := rfl
@[simp] theorem emit_rpl (s : State) (m : Out) : (s.emit m).rpl = s.rpl := rfl
@[simp] theorem emit_ccl (s : State) (m : Out) : (s.emit m).ccl = s.ccl := rfl
@[simp] theorem emit_pwr (s : State) (m : Out) : (s.emit m).pwr = s.pwr := rfl
@[simp] theorem emit_mem (s : State) (m : Out) : (s.emit m).mem = s.mem := rfl
@[simp] theorem emit_flash (s : State) (m : Out) : (s.emit m).flash = s.flash := rfl

/-! ## draw -/

@[simp] theorem draw_pending (s : State)  : (s.draw).pending = s.pending := rfl
@[simp] theorem draw_regs (s : State)  : (s.draw).regs = s.regs := rfl
@[simp] theorem draw_caps (s : State)  : (s.draw).caps = s.caps := rfl
@[simp] theorem draw_shadows (s : State)  : (s.draw).shadows = s.shadows := rfl
@[simp] theorem draw_now (s : State)  : (s.draw).now = s.now := rfl
@[simp] theorem draw_pins (s : State)  : (s.draw).pins = s.pins := rfl
@[simp] theorem draw_fuses (s : State)  : (s.draw).fuses = s.fuses := rfl
@[simp] theorem draw_straps (s : State)  : (s.draw).straps = s.straps := rfl
@[simp] theorem draw_tbs (s : State)  : (s.draw).tbs = s.tbs := rfl
@[simp] theorem draw_bsv (s : State)  : (s.draw).bsv = s.bsv := rfl
@[simp] theorem draw_fcl (s : State)  : (s.draw).fcl = s.fcl := rfl
@[simp] theorem draw_evr (s : State)  : (s.draw).evr = s.evr := rfl
@[simp] theorem draw_irq (s : State)  : (s.draw).irq = s.irq := rfl
@[simp] theorem draw_dram (s : State)  : (s.draw).dram = s.dram := rfl
@[simp] theorem draw_io (s : State)  : (s.draw).io = s.io := rfl
@[simp] theorem draw_ing (s : State)  : (s.draw).ing = s.ing := rfl
@[simp] theorem draw_slm (s : State)  : (s.draw).slm = s.slm := rfl
@[simp] theorem draw_maps (s : State)  : (s.draw).maps = s.maps := rfl
@[simp] theorem draw_mpe (s : State)  : (s.draw).mpe = s.mpe := rfl
@[simp] theorem draw_mpc (s : State)  : (s.draw).mpc = s.mpc := rfl
@[simp] theorem draw_sgb (s : State)  : (s.draw).sgb = s.sgb := rfl
@[simp] theorem draw_fmm (s : State)  : (s.draw).fmm = s.fmm := rfl
@[simp] theorem draw_jlk (s : State)  : (s.draw).jlk = s.jlk := rfl
@[simp] theorem draw_bridges (s : State)  : (s.draw).bridges = s.bridges := rfl
@[simp] theorem draw_cpl (s : State)  : (s.draw).cpl = s.cpl := rfl
@[simp] theorem draw_sec (s : State)  : (s.draw).sec = s.sec := rfl
@[simp] theorem draw_ldc (s : State)  : (s.draw).ldc = s.ldc := rfl
@[simp] theorem draw_rbe (s : State)  : (s.draw).rbe = s.rbe := rfl
@[simp] theorem draw_rpl (s : State)  : (s.draw).rpl = s.rpl := rfl
@[simp] theorem draw_ccl (s : State)  : (s.draw).ccl = s.ccl := rfl
@[simp] theorem draw_pwr (s : State)  : (s.draw).pwr = s.pwr := rfl
@[simp] theorem draw_mem (s : State)  : (s.draw).mem = s.mem := rfl
@[simp] theorem draw_flash (s : State)  : (s.draw).flash = s.flash := rfl
@[simp] theorem draw_out (s : State)  : (s.draw).out = s.out := rfl

/-! ## store -/

@[simp] theorem store_pending (s : State) (a : Nat) (l : Bytes) : (s.store a l).pending = s.pending := rfl
@[simp] theorem store_regs (s : State) (a : Nat) (l : Bytes) : (s.store a l).regs = s.regs := rfl
@[simp] theorem store_caps (s : State) (a : Nat) (l : Bytes) : (s.store a l).caps = s.caps := rfl
@[simp] theorem store_shadows (s : State) (a : Nat) (l : Bytes) : (s.store a l).shadows = s.shadows := rfl
@[simp] theorem store_now (s : State) (a : Nat) (l : Bytes) : (s.store a l).now = s.now := rfl
@[simp] theorem store_freeCtr (s : State) (a : Nat) (l : Bytes) : (s.store a l).freeCtr = s.freeCtr := rfl
@[simp] theorem store_pins (s : State) (a : Nat) (l : Bytes) : (s.store a l).pins = s.pins := rfl
@[simp] theorem store_fuses (s : State) (a : Nat) (l : Bytes) : (s.store a l).fuses = s.fuses := rfl
@[simp] theorem store_straps (s : State) (a : Nat) (l : Bytes) : (s.store a l).straps = s.straps := rfl
@[simp] theorem store_tbs (s : State) (a : Nat) (l : Bytes) : (s.store a l).tbs = s.tbs := rfl
@[simp] theorem store_bsv (s : State) (a : Nat) (l : Bytes) : (s.store a l).bsv = s.bsv := rfl
@[simp] theorem store_fcl (s : State) (a : Nat) (l : Bytes) : (s.store a l).fcl = s.fcl := rfl
@[simp] theorem store_evr (s : State) (a : Nat) (l : Bytes) : (s.store a l).evr = s.evr := rfl
@[simp] theorem store_irq (s : State) (a : Nat) (l : Bytes) : (s.store a l).irq = s.irq := rfl
/-- A write makes the lines it reaches readable again, and leaves the rest of the DRAM state. -/
theorem store_dram (s : State) (a : Nat) (l : Bytes) : (s.store a l).dram = { s.dram with
  bad := s.dram.bad.filter (fun b => decide (dramBase + b * 64 + 64 ≤ a ∨ a + l.length ≤ dramBase + b * 64)) } := rfl
@[simp] theorem store_io (s : State) (a : Nat) (l : Bytes) : (s.store a l).io = s.io := rfl
@[simp] theorem store_ing (s : State) (a : Nat) (l : Bytes) : (s.store a l).ing = s.ing := rfl
@[simp] theorem store_slm (s : State) (a : Nat) (l : Bytes) : (s.store a l).slm = s.slm := rfl
@[simp] theorem store_maps (s : State) (a : Nat) (l : Bytes) : (s.store a l).maps = s.maps := rfl
@[simp] theorem store_mpe (s : State) (a : Nat) (l : Bytes) : (s.store a l).mpe = s.mpe := rfl
@[simp] theorem store_mpc (s : State) (a : Nat) (l : Bytes) : (s.store a l).mpc = s.mpc := rfl
@[simp] theorem store_sgb (s : State) (a : Nat) (l : Bytes) : (s.store a l).sgb = s.sgb := rfl
@[simp] theorem store_fmm (s : State) (a : Nat) (l : Bytes) : (s.store a l).fmm = s.fmm := rfl
@[simp] theorem store_jlk (s : State) (a : Nat) (l : Bytes) : (s.store a l).jlk = s.jlk := rfl
@[simp] theorem store_bridges (s : State) (a : Nat) (l : Bytes) : (s.store a l).bridges = s.bridges := rfl
@[simp] theorem store_cpl (s : State) (a : Nat) (l : Bytes) : (s.store a l).cpl = s.cpl := rfl
@[simp] theorem store_sec (s : State) (a : Nat) (l : Bytes) : (s.store a l).sec = s.sec := rfl
@[simp] theorem store_ldc (s : State) (a : Nat) (l : Bytes) : (s.store a l).ldc = s.ldc := rfl
@[simp] theorem store_rbe (s : State) (a : Nat) (l : Bytes) : (s.store a l).rbe = s.rbe := rfl
@[simp] theorem store_rpl (s : State) (a : Nat) (l : Bytes) : (s.store a l).rpl = s.rpl := rfl
@[simp] theorem store_pwr (s : State) (a : Nat) (l : Bytes) : (s.store a l).pwr = s.pwr := rfl
@[simp] theorem store_flash (s : State) (a : Nat) (l : Bytes) : (s.store a l).flash = s.flash := rfl
@[simp] theorem store_out (s : State) (a : Nat) (l : Bytes) : (s.store a l).out = s.out := rfl

/-! ## flStore -/

@[simp] theorem flStore_pending (s : State) (a : Nat) (l : Bytes) : (s.flStore a l).pending = s.pending := rfl
@[simp] theorem flStore_regs (s : State) (a : Nat) (l : Bytes) : (s.flStore a l).regs = s.regs := rfl
@[simp] theorem flStore_caps (s : State) (a : Nat) (l : Bytes) : (s.flStore a l).caps = s.caps := rfl
@[simp] theorem flStore_shadows (s : State) (a : Nat) (l : Bytes) : (s.flStore a l).shadows = s.shadows := rfl
@[simp] theorem flStore_now (s : State) (a : Nat) (l : Bytes) : (s.flStore a l).now = s.now := rfl
@[simp] theorem flStore_freeCtr (s : State) (a : Nat) (l : Bytes) : (s.flStore a l).freeCtr = s.freeCtr := rfl
@[simp] theorem flStore_pins (s : State) (a : Nat) (l : Bytes) : (s.flStore a l).pins = s.pins := rfl
@[simp] theorem flStore_fuses (s : State) (a : Nat) (l : Bytes) : (s.flStore a l).fuses = s.fuses := rfl
@[simp] theorem flStore_straps (s : State) (a : Nat) (l : Bytes) : (s.flStore a l).straps = s.straps := rfl
@[simp] theorem flStore_tbs (s : State) (a : Nat) (l : Bytes) : (s.flStore a l).tbs = s.tbs := rfl
@[simp] theorem flStore_bsv (s : State) (a : Nat) (l : Bytes) : (s.flStore a l).bsv = s.bsv := rfl
@[simp] theorem flStore_fcl (s : State) (a : Nat) (l : Bytes) : (s.flStore a l).fcl = s.fcl := rfl
@[simp] theorem flStore_evr (s : State) (a : Nat) (l : Bytes) : (s.flStore a l).evr = s.evr := rfl
@[simp] theorem flStore_irq (s : State) (a : Nat) (l : Bytes) : (s.flStore a l).irq = s.irq := rfl
@[simp] theorem flStore_dram (s : State) (a : Nat) (l : Bytes) : (s.flStore a l).dram = s.dram := rfl
@[simp] theorem flStore_io (s : State) (a : Nat) (l : Bytes) : (s.flStore a l).io = s.io := rfl
@[simp] theorem flStore_ing (s : State) (a : Nat) (l : Bytes) : (s.flStore a l).ing = s.ing := rfl
@[simp] theorem flStore_slm (s : State) (a : Nat) (l : Bytes) : (s.flStore a l).slm = s.slm := rfl
@[simp] theorem flStore_maps (s : State) (a : Nat) (l : Bytes) : (s.flStore a l).maps = s.maps := rfl
@[simp] theorem flStore_mpe (s : State) (a : Nat) (l : Bytes) : (s.flStore a l).mpe = s.mpe := rfl
@[simp] theorem flStore_mpc (s : State) (a : Nat) (l : Bytes) : (s.flStore a l).mpc = s.mpc := rfl
@[simp] theorem flStore_sgb (s : State) (a : Nat) (l : Bytes) : (s.flStore a l).sgb = s.sgb := rfl
@[simp] theorem flStore_fmm (s : State) (a : Nat) (l : Bytes) : (s.flStore a l).fmm = s.fmm := rfl
@[simp] theorem flStore_jlk (s : State) (a : Nat) (l : Bytes) : (s.flStore a l).jlk = s.jlk := rfl
@[simp] theorem flStore_bridges (s : State) (a : Nat) (l : Bytes) : (s.flStore a l).bridges = s.bridges := rfl
@[simp] theorem flStore_cpl (s : State) (a : Nat) (l : Bytes) : (s.flStore a l).cpl = s.cpl := rfl
@[simp] theorem flStore_sec (s : State) (a : Nat) (l : Bytes) : (s.flStore a l).sec = s.sec := rfl
@[simp] theorem flStore_ldc (s : State) (a : Nat) (l : Bytes) : (s.flStore a l).ldc = s.ldc := rfl
@[simp] theorem flStore_rbe (s : State) (a : Nat) (l : Bytes) : (s.flStore a l).rbe = s.rbe := rfl
@[simp] theorem flStore_rpl (s : State) (a : Nat) (l : Bytes) : (s.flStore a l).rpl = s.rpl := rfl
@[simp] theorem flStore_ccl (s : State) (a : Nat) (l : Bytes) : (s.flStore a l).ccl = s.ccl := rfl
@[simp] theorem flStore_pwr (s : State) (a : Nat) (l : Bytes) : (s.flStore a l).pwr = s.pwr := rfl
@[simp] theorem flStore_mem (s : State) (a : Nat) (l : Bytes) : (s.flStore a l).mem = s.mem := rfl
@[simp] theorem flStore_out (s : State) (a : Nat) (l : Bytes) : (s.flStore a l).out = s.out := rfl

/-! ## flErase -/

@[simp] theorem flErase_pending (s : State) (a k : Nat) : (s.flErase a k).pending = s.pending := rfl
@[simp] theorem flErase_regs (s : State) (a k : Nat) : (s.flErase a k).regs = s.regs := rfl
@[simp] theorem flErase_caps (s : State) (a k : Nat) : (s.flErase a k).caps = s.caps := rfl
@[simp] theorem flErase_shadows (s : State) (a k : Nat) : (s.flErase a k).shadows = s.shadows := rfl
@[simp] theorem flErase_now (s : State) (a k : Nat) : (s.flErase a k).now = s.now := rfl
@[simp] theorem flErase_freeCtr (s : State) (a k : Nat) : (s.flErase a k).freeCtr = s.freeCtr := rfl
@[simp] theorem flErase_pins (s : State) (a k : Nat) : (s.flErase a k).pins = s.pins := rfl
@[simp] theorem flErase_fuses (s : State) (a k : Nat) : (s.flErase a k).fuses = s.fuses := rfl
@[simp] theorem flErase_straps (s : State) (a k : Nat) : (s.flErase a k).straps = s.straps := rfl
@[simp] theorem flErase_tbs (s : State) (a k : Nat) : (s.flErase a k).tbs = s.tbs := rfl
@[simp] theorem flErase_bsv (s : State) (a k : Nat) : (s.flErase a k).bsv = s.bsv := rfl
@[simp] theorem flErase_fcl (s : State) (a k : Nat) : (s.flErase a k).fcl = s.fcl := rfl
@[simp] theorem flErase_evr (s : State) (a k : Nat) : (s.flErase a k).evr = s.evr := rfl
@[simp] theorem flErase_irq (s : State) (a k : Nat) : (s.flErase a k).irq = s.irq := rfl
@[simp] theorem flErase_dram (s : State) (a k : Nat) : (s.flErase a k).dram = s.dram := rfl
@[simp] theorem flErase_io (s : State) (a k : Nat) : (s.flErase a k).io = s.io := rfl
@[simp] theorem flErase_ing (s : State) (a k : Nat) : (s.flErase a k).ing = s.ing := rfl
@[simp] theorem flErase_slm (s : State) (a k : Nat) : (s.flErase a k).slm = s.slm := rfl
@[simp] theorem flErase_maps (s : State) (a k : Nat) : (s.flErase a k).maps = s.maps := rfl
@[simp] theorem flErase_mpe (s : State) (a k : Nat) : (s.flErase a k).mpe = s.mpe := rfl
@[simp] theorem flErase_mpc (s : State) (a k : Nat) : (s.flErase a k).mpc = s.mpc := rfl
@[simp] theorem flErase_sgb (s : State) (a k : Nat) : (s.flErase a k).sgb = s.sgb := rfl
@[simp] theorem flErase_fmm (s : State) (a k : Nat) : (s.flErase a k).fmm = s.fmm := rfl
@[simp] theorem flErase_jlk (s : State) (a k : Nat) : (s.flErase a k).jlk = s.jlk := rfl
@[simp] theorem flErase_bridges (s : State) (a k : Nat) : (s.flErase a k).bridges = s.bridges := rfl
@[simp] theorem flErase_cpl (s : State) (a k : Nat) : (s.flErase a k).cpl = s.cpl := rfl
@[simp] theorem flErase_sec (s : State) (a k : Nat) : (s.flErase a k).sec = s.sec := rfl
@[simp] theorem flErase_ldc (s : State) (a k : Nat) : (s.flErase a k).ldc = s.ldc := rfl
@[simp] theorem flErase_rbe (s : State) (a k : Nat) : (s.flErase a k).rbe = s.rbe := rfl
@[simp] theorem flErase_rpl (s : State) (a k : Nat) : (s.flErase a k).rpl = s.rpl := rfl
@[simp] theorem flErase_ccl (s : State) (a k : Nat) : (s.flErase a k).ccl = s.ccl := rfl
@[simp] theorem flErase_pwr (s : State) (a k : Nat) : (s.flErase a k).pwr = s.pwr := rfl
@[simp] theorem flErase_mem (s : State) (a k : Nat) : (s.flErase a k).mem = s.mem := rfl
@[simp] theorem flErase_out (s : State) (a k : Nat) : (s.flErase a k).out = s.out := rfl

/-! ## issued -/

@[simp] theorem issued_pending (s : State) (u : Nat) (st : Ostamp) : (s.issued u st).pending = s.pending := rfl
@[simp] theorem issued_regs (s : State) (u : Nat) (st : Ostamp) : (s.issued u st).regs = s.regs := rfl
@[simp] theorem issued_caps (s : State) (u : Nat) (st : Ostamp) : (s.issued u st).caps = s.caps := rfl
@[simp] theorem issued_shadows (s : State) (u : Nat) (st : Ostamp) : (s.issued u st).shadows = s.shadows := rfl
@[simp] theorem issued_now (s : State) (u : Nat) (st : Ostamp) : (s.issued u st).now = s.now := rfl
@[simp] theorem issued_freeCtr (s : State) (u : Nat) (st : Ostamp) : (s.issued u st).freeCtr = s.freeCtr := rfl
@[simp] theorem issued_pins (s : State) (u : Nat) (st : Ostamp) : (s.issued u st).pins = s.pins := rfl
@[simp] theorem issued_fuses (s : State) (u : Nat) (st : Ostamp) : (s.issued u st).fuses = s.fuses := rfl
@[simp] theorem issued_straps (s : State) (u : Nat) (st : Ostamp) : (s.issued u st).straps = s.straps := rfl
@[simp] theorem issued_bsv (s : State) (u : Nat) (st : Ostamp) : (s.issued u st).bsv = s.bsv := rfl
@[simp] theorem issued_fcl (s : State) (u : Nat) (st : Ostamp) : (s.issued u st).fcl = s.fcl := rfl
@[simp] theorem issued_evr (s : State) (u : Nat) (st : Ostamp) : (s.issued u st).evr = s.evr := rfl
@[simp] theorem issued_irq (s : State) (u : Nat) (st : Ostamp) : (s.issued u st).irq = s.irq := rfl
@[simp] theorem issued_dram (s : State) (u : Nat) (st : Ostamp) : (s.issued u st).dram = s.dram := rfl
@[simp] theorem issued_io (s : State) (u : Nat) (st : Ostamp) : (s.issued u st).io = s.io := rfl
@[simp] theorem issued_ing (s : State) (u : Nat) (st : Ostamp) : (s.issued u st).ing = s.ing := rfl
@[simp] theorem issued_slm (s : State) (u : Nat) (st : Ostamp) : (s.issued u st).slm = s.slm := rfl
@[simp] theorem issued_maps (s : State) (u : Nat) (st : Ostamp) : (s.issued u st).maps = s.maps := rfl
@[simp] theorem issued_mpe (s : State) (u : Nat) (st : Ostamp) : (s.issued u st).mpe = s.mpe := rfl
@[simp] theorem issued_mpc (s : State) (u : Nat) (st : Ostamp) : (s.issued u st).mpc = s.mpc := rfl
@[simp] theorem issued_sgb (s : State) (u : Nat) (st : Ostamp) : (s.issued u st).sgb = s.sgb := rfl
@[simp] theorem issued_fmm (s : State) (u : Nat) (st : Ostamp) : (s.issued u st).fmm = s.fmm := rfl
@[simp] theorem issued_jlk (s : State) (u : Nat) (st : Ostamp) : (s.issued u st).jlk = s.jlk := rfl
@[simp] theorem issued_bridges (s : State) (u : Nat) (st : Ostamp) : (s.issued u st).bridges = s.bridges := rfl
@[simp] theorem issued_cpl (s : State) (u : Nat) (st : Ostamp) : (s.issued u st).cpl = s.cpl := rfl
@[simp] theorem issued_sec (s : State) (u : Nat) (st : Ostamp) : (s.issued u st).sec = s.sec := rfl
@[simp] theorem issued_ldc (s : State) (u : Nat) (st : Ostamp) : (s.issued u st).ldc = s.ldc := rfl
@[simp] theorem issued_rbe (s : State) (u : Nat) (st : Ostamp) : (s.issued u st).rbe = s.rbe := rfl
@[simp] theorem issued_rpl (s : State) (u : Nat) (st : Ostamp) : (s.issued u st).rpl = s.rpl := rfl
@[simp] theorem issued_ccl (s : State) (u : Nat) (st : Ostamp) : (s.issued u st).ccl = s.ccl := rfl
@[simp] theorem issued_pwr (s : State) (u : Nat) (st : Ostamp) : (s.issued u st).pwr = s.pwr := rfl
@[simp] theorem issued_mem (s : State) (u : Nat) (st : Ostamp) : (s.issued u st).mem = s.mem := rfl
@[simp] theorem issued_flash (s : State) (u : Nat) (st : Ostamp) : (s.issued u st).flash = s.flash := rfl
@[simp] theorem issued_out (s : State) (u : Nat) (st : Ostamp) : (s.issued u st).out = s.out := rfl

/-! ## raiseFloor -/

@[simp] theorem raiseFloor_pending (s : State) (st : Ostamp) : (s.raiseFloor st).pending = s.pending := rfl
@[simp] theorem raiseFloor_regs (s : State) (st : Ostamp) : (s.raiseFloor st).regs = s.regs := rfl
@[simp] theorem raiseFloor_caps (s : State) (st : Ostamp) : (s.raiseFloor st).caps = s.caps := rfl
@[simp] theorem raiseFloor_shadows (s : State) (st : Ostamp) : (s.raiseFloor st).shadows = s.shadows := rfl
@[simp] theorem raiseFloor_now (s : State) (st : Ostamp) : (s.raiseFloor st).now = s.now := rfl
@[simp] theorem raiseFloor_freeCtr (s : State) (st : Ostamp) : (s.raiseFloor st).freeCtr = s.freeCtr := rfl
@[simp] theorem raiseFloor_pins (s : State) (st : Ostamp) : (s.raiseFloor st).pins = s.pins := rfl
@[simp] theorem raiseFloor_fuses (s : State) (st : Ostamp) : (s.raiseFloor st).fuses = s.fuses := rfl
@[simp] theorem raiseFloor_straps (s : State) (st : Ostamp) : (s.raiseFloor st).straps = s.straps := rfl
@[simp] theorem raiseFloor_bsv (s : State) (st : Ostamp) : (s.raiseFloor st).bsv = s.bsv := rfl
@[simp] theorem raiseFloor_fcl (s : State) (st : Ostamp) : (s.raiseFloor st).fcl = s.fcl := rfl
@[simp] theorem raiseFloor_evr (s : State) (st : Ostamp) : (s.raiseFloor st).evr = s.evr := rfl
@[simp] theorem raiseFloor_irq (s : State) (st : Ostamp) : (s.raiseFloor st).irq = s.irq := rfl
@[simp] theorem raiseFloor_dram (s : State) (st : Ostamp) : (s.raiseFloor st).dram = s.dram := rfl
@[simp] theorem raiseFloor_io (s : State) (st : Ostamp) : (s.raiseFloor st).io = s.io := rfl
@[simp] theorem raiseFloor_ing (s : State) (st : Ostamp) : (s.raiseFloor st).ing = s.ing := rfl
@[simp] theorem raiseFloor_slm (s : State) (st : Ostamp) : (s.raiseFloor st).slm = s.slm := rfl
@[simp] theorem raiseFloor_maps (s : State) (st : Ostamp) : (s.raiseFloor st).maps = s.maps := rfl
@[simp] theorem raiseFloor_mpe (s : State) (st : Ostamp) : (s.raiseFloor st).mpe = s.mpe := rfl
@[simp] theorem raiseFloor_mpc (s : State) (st : Ostamp) : (s.raiseFloor st).mpc = s.mpc := rfl
@[simp] theorem raiseFloor_sgb (s : State) (st : Ostamp) : (s.raiseFloor st).sgb = s.sgb := rfl
@[simp] theorem raiseFloor_fmm (s : State) (st : Ostamp) : (s.raiseFloor st).fmm = s.fmm := rfl
@[simp] theorem raiseFloor_jlk (s : State) (st : Ostamp) : (s.raiseFloor st).jlk = s.jlk := rfl
@[simp] theorem raiseFloor_bridges (s : State) (st : Ostamp) : (s.raiseFloor st).bridges = s.bridges := rfl
@[simp] theorem raiseFloor_cpl (s : State) (st : Ostamp) : (s.raiseFloor st).cpl = s.cpl := rfl
@[simp] theorem raiseFloor_sec (s : State) (st : Ostamp) : (s.raiseFloor st).sec = s.sec := rfl
@[simp] theorem raiseFloor_ldc (s : State) (st : Ostamp) : (s.raiseFloor st).ldc = s.ldc := rfl
@[simp] theorem raiseFloor_rbe (s : State) (st : Ostamp) : (s.raiseFloor st).rbe = s.rbe := rfl
@[simp] theorem raiseFloor_rpl (s : State) (st : Ostamp) : (s.raiseFloor st).rpl = s.rpl := rfl
@[simp] theorem raiseFloor_ccl (s : State) (st : Ostamp) : (s.raiseFloor st).ccl = s.ccl := rfl
@[simp] theorem raiseFloor_pwr (s : State) (st : Ostamp) : (s.raiseFloor st).pwr = s.pwr := rfl
@[simp] theorem raiseFloor_mem (s : State) (st : Ostamp) : (s.raiseFloor st).mem = s.mem := rfl
@[simp] theorem raiseFloor_flash (s : State) (st : Ostamp) : (s.raiseFloor st).flash = s.flash := rfl
@[simp] theorem raiseFloor_out (s : State) (st : Ostamp) : (s.raiseFloor st).out = s.out := rfl

/-! ## deassert -/

@[simp] theorem deassert_pending (s : State) (src : Nat) : (s.deassert src).pending = s.pending := rfl
@[simp] theorem deassert_regs (s : State) (src : Nat) : (s.deassert src).regs = s.regs := rfl
@[simp] theorem deassert_caps (s : State) (src : Nat) : (s.deassert src).caps = s.caps := rfl
@[simp] theorem deassert_shadows (s : State) (src : Nat) : (s.deassert src).shadows = s.shadows := rfl
@[simp] theorem deassert_now (s : State) (src : Nat) : (s.deassert src).now = s.now := rfl
@[simp] theorem deassert_freeCtr (s : State) (src : Nat) : (s.deassert src).freeCtr = s.freeCtr := rfl
@[simp] theorem deassert_pins (s : State) (src : Nat) : (s.deassert src).pins = s.pins := rfl
@[simp] theorem deassert_fuses (s : State) (src : Nat) : (s.deassert src).fuses = s.fuses := rfl
@[simp] theorem deassert_straps (s : State) (src : Nat) : (s.deassert src).straps = s.straps := rfl
@[simp] theorem deassert_tbs (s : State) (src : Nat) : (s.deassert src).tbs = s.tbs := rfl
@[simp] theorem deassert_bsv (s : State) (src : Nat) : (s.deassert src).bsv = s.bsv := rfl
@[simp] theorem deassert_fcl (s : State) (src : Nat) : (s.deassert src).fcl = s.fcl := rfl
@[simp] theorem deassert_evr (s : State) (src : Nat) : (s.deassert src).evr = s.evr := rfl
@[simp] theorem deassert_dram (s : State) (src : Nat) : (s.deassert src).dram = s.dram := rfl
@[simp] theorem deassert_io (s : State) (src : Nat) : (s.deassert src).io = s.io := rfl
@[simp] theorem deassert_ing (s : State) (src : Nat) : (s.deassert src).ing = s.ing := rfl
@[simp] theorem deassert_slm (s : State) (src : Nat) : (s.deassert src).slm = s.slm := rfl
@[simp] theorem deassert_maps (s : State) (src : Nat) : (s.deassert src).maps = s.maps := rfl
@[simp] theorem deassert_mpe (s : State) (src : Nat) : (s.deassert src).mpe = s.mpe := rfl
@[simp] theorem deassert_mpc (s : State) (src : Nat) : (s.deassert src).mpc = s.mpc := rfl
@[simp] theorem deassert_sgb (s : State) (src : Nat) : (s.deassert src).sgb = s.sgb := rfl
@[simp] theorem deassert_fmm (s : State) (src : Nat) : (s.deassert src).fmm = s.fmm := rfl
@[simp] theorem deassert_jlk (s : State) (src : Nat) : (s.deassert src).jlk = s.jlk := rfl
@[simp] theorem deassert_bridges (s : State) (src : Nat) : (s.deassert src).bridges = s.bridges := rfl
@[simp] theorem deassert_cpl (s : State) (src : Nat) : (s.deassert src).cpl = s.cpl := rfl
@[simp] theorem deassert_sec (s : State) (src : Nat) : (s.deassert src).sec = s.sec := rfl
@[simp] theorem deassert_ldc (s : State) (src : Nat) : (s.deassert src).ldc = s.ldc := rfl
@[simp] theorem deassert_rbe (s : State) (src : Nat) : (s.deassert src).rbe = s.rbe := rfl
@[simp] theorem deassert_rpl (s : State) (src : Nat) : (s.deassert src).rpl = s.rpl := rfl
@[simp] theorem deassert_ccl (s : State) (src : Nat) : (s.deassert src).ccl = s.ccl := rfl
@[simp] theorem deassert_pwr (s : State) (src : Nat) : (s.deassert src).pwr = s.pwr := rfl
@[simp] theorem deassert_mem (s : State) (src : Nat) : (s.deassert src).mem = s.mem := rfl
@[simp] theorem deassert_flash (s : State) (src : Nat) : (s.deassert src).flash = s.flash := rfl
@[simp] theorem deassert_out (s : State) (src : Nat) : (s.deassert src).out = s.out := rfl

/-! ## updCtl -/

@[simp] theorem updCtl_pending (s : State) (k : Nat) (f : Ctl → Ctl) : (s.updCtl k f).pending = s.pending := rfl
@[simp] theorem updCtl_regs (s : State) (k : Nat) (f : Ctl → Ctl) : (s.updCtl k f).regs = s.regs := rfl
@[simp] theorem updCtl_caps (s : State) (k : Nat) (f : Ctl → Ctl) : (s.updCtl k f).caps = s.caps := rfl
@[simp] theorem updCtl_shadows (s : State) (k : Nat) (f : Ctl → Ctl) : (s.updCtl k f).shadows = s.shadows := rfl
@[simp] theorem updCtl_now (s : State) (k : Nat) (f : Ctl → Ctl) : (s.updCtl k f).now = s.now := rfl
@[simp] theorem updCtl_freeCtr (s : State) (k : Nat) (f : Ctl → Ctl) : (s.updCtl k f).freeCtr = s.freeCtr := rfl
@[simp] theorem updCtl_pins (s : State) (k : Nat) (f : Ctl → Ctl) : (s.updCtl k f).pins = s.pins := rfl
@[simp] theorem updCtl_fuses (s : State) (k : Nat) (f : Ctl → Ctl) : (s.updCtl k f).fuses = s.fuses := rfl
@[simp] theorem updCtl_straps (s : State) (k : Nat) (f : Ctl → Ctl) : (s.updCtl k f).straps = s.straps := rfl
@[simp] theorem updCtl_tbs (s : State) (k : Nat) (f : Ctl → Ctl) : (s.updCtl k f).tbs = s.tbs := rfl
@[simp] theorem updCtl_bsv (s : State) (k : Nat) (f : Ctl → Ctl) : (s.updCtl k f).bsv = s.bsv := rfl
@[simp] theorem updCtl_fcl (s : State) (k : Nat) (f : Ctl → Ctl) : (s.updCtl k f).fcl = s.fcl := rfl
@[simp] theorem updCtl_evr (s : State) (k : Nat) (f : Ctl → Ctl) : (s.updCtl k f).evr = s.evr := rfl
@[simp] theorem updCtl_irq (s : State) (k : Nat) (f : Ctl → Ctl) : (s.updCtl k f).irq = s.irq := rfl
@[simp] theorem updCtl_dram (s : State) (k : Nat) (f : Ctl → Ctl) : (s.updCtl k f).dram = s.dram := rfl
@[simp] theorem updCtl_ing (s : State) (k : Nat) (f : Ctl → Ctl) : (s.updCtl k f).ing = s.ing := rfl
@[simp] theorem updCtl_slm (s : State) (k : Nat) (f : Ctl → Ctl) : (s.updCtl k f).slm = s.slm := rfl
@[simp] theorem updCtl_maps (s : State) (k : Nat) (f : Ctl → Ctl) : (s.updCtl k f).maps = s.maps := rfl
@[simp] theorem updCtl_mpe (s : State) (k : Nat) (f : Ctl → Ctl) : (s.updCtl k f).mpe = s.mpe := rfl
@[simp] theorem updCtl_mpc (s : State) (k : Nat) (f : Ctl → Ctl) : (s.updCtl k f).mpc = s.mpc := rfl
@[simp] theorem updCtl_sgb (s : State) (k : Nat) (f : Ctl → Ctl) : (s.updCtl k f).sgb = s.sgb := rfl
@[simp] theorem updCtl_fmm (s : State) (k : Nat) (f : Ctl → Ctl) : (s.updCtl k f).fmm = s.fmm := rfl
@[simp] theorem updCtl_jlk (s : State) (k : Nat) (f : Ctl → Ctl) : (s.updCtl k f).jlk = s.jlk := rfl
@[simp] theorem updCtl_bridges (s : State) (k : Nat) (f : Ctl → Ctl) : (s.updCtl k f).bridges = s.bridges := rfl
@[simp] theorem updCtl_cpl (s : State) (k : Nat) (f : Ctl → Ctl) : (s.updCtl k f).cpl = s.cpl := rfl
@[simp] theorem updCtl_sec (s : State) (k : Nat) (f : Ctl → Ctl) : (s.updCtl k f).sec = s.sec := rfl
@[simp] theorem updCtl_ldc (s : State) (k : Nat) (f : Ctl → Ctl) : (s.updCtl k f).ldc = s.ldc := rfl
@[simp] theorem updCtl_rbe (s : State) (k : Nat) (f : Ctl → Ctl) : (s.updCtl k f).rbe = s.rbe := rfl
@[simp] theorem updCtl_rpl (s : State) (k : Nat) (f : Ctl → Ctl) : (s.updCtl k f).rpl = s.rpl := rfl
@[simp] theorem updCtl_ccl (s : State) (k : Nat) (f : Ctl → Ctl) : (s.updCtl k f).ccl = s.ccl := rfl
@[simp] theorem updCtl_pwr (s : State) (k : Nat) (f : Ctl → Ctl) : (s.updCtl k f).pwr = s.pwr := rfl
@[simp] theorem updCtl_mem (s : State) (k : Nat) (f : Ctl → Ctl) : (s.updCtl k f).mem = s.mem := rfl
@[simp] theorem updCtl_flash (s : State) (k : Nat) (f : Ctl → Ctl) : (s.updCtl k f).flash = s.flash := rfl
@[simp] theorem updCtl_out (s : State) (k : Nat) (f : Ctl → Ctl) : (s.updCtl k f).out = s.out := rfl

@[simp] theorem emit_out (s : State) (m : Out) : (s.emit m).out = s.out ++ [m] := rfl
@[simp] theorem draw_freeCtr (s : State) : s.draw.freeCtr = s.freeCtr + 1 := rfl

end Sys2Proof.Laws
end

