-- ==== Sys2Proof/Laws/Registers.lean ====
section
/-! SUPPORT. Sparse contents, registers and their fields: a read after a write, what a write leaves alone, and that writes keep the canonical form. -/
namespace Sys2Proof.Laws
open Sys2Proof Sys2Proof.Machine

/-! ## Sparse contents -/

theorem rising_cons (a : Nat) (l : List Nat) (h : rising (a :: l) = true) : rising l = true := by
  cases l with
  | nil => rfl
  | cons b t => simp [rising] at h; exact h.2

theorem rising_lt (a : Nat) (l : List Nat) (h : rising (a :: l) = true) : ∀ x ∈ l, a < x := by
  induction l generalizing a with
  | nil => simp
  | cons b t ih =>
    simp only [rising, Bool.and_eq_true, decide_eq_true_eq] at h
    intro x hx
    rcases List.mem_cons.1 hx with rfl | hx
    · exact h.1
    · exact Nat.lt_trans h.1 (ih b h.2 x hx)

theorem aget_none_of_lt {β : Type} (m : AMap β) (k : Nat) (h : ∀ x ∈ m.map Prod.fst, k < x) : aget m k = none := by
  induction m with
  | nil => rfl
  | cons e t ih =>
    obtain ⟨a, v⟩ := e
    simp only [List.map_cons, List.mem_cons, forall_eq_or_imp] at h
    simp only [aget]
    rw [if_neg (by omega)]
    exact ih h.2

theorem swf_tail {β : Type} [DecidableEq β] {d : Nat → β} {e : Nat × β} {t : AMap β} (h : swf d (e :: t) = true) : swf d t = true := by
  simp only [swf, List.map_cons, List.all_cons, Bool.and_eq_true] at h ⊢
  exact ⟨rising_cons _ _ h.1, h.2.2⟩

/-- A key that was just stored reads as what was stored. -/
theorem sget_sput_same {β : Type} [DecidableEq β] (d : Nat → β) (m : AMap β) (k : Nat) (v : β) (h : swf d m = true) : sget d (sput d m k v) k = v := by
  induction m with
  | nil => by_cases hv : v = d k <;> simp [sput, sget, aget, hv]
  | cons e t ih =>
    obtain ⟨a, w⟩ := e
    have hr : rising (a :: t.map Prod.fst) = true := by
      simp only [swf, Bool.and_eq_true, List.map_cons] at h; exact h.1
    have hlt := rising_lt a _ hr
    simp only [sput]
    split
    · split
      · rename_i h1 h2
        simp only [sget]
        rw [aget_none_of_lt _ _ (by
          intro x hx
          rcases List.mem_cons.1 hx with rfl | hx
          · exact h1
          · exact Nat.lt_trans h1 (hlt x hx))]
        simp [h2]
      · simp [sget, aget]
    · split
      · rename_i h1 h2
        subst h2
        split
        · rename_i h3
          simp only [sget]
          rw [aget_none_of_lt _ _ hlt]
          simp [h3]
        · simp [sget, aget]
      · rename_i h1 h2
        have := ih (swf_tail h)
        simp only [sget, aget] at this ⊢
        rw [if_neg (by omega)]
        exact this

/-- A key that was not stored reads as before. -/
theorem sget_sput_other {β : Type} [DecidableEq β] (d : Nat → β) (m : AMap β) (k j : Nat) (v : β) (h : j ≠ k) : sget d (sput d m k v) j = sget d m j := by
  induction m with
  | nil => by_cases hv : v = d k <;> simp [sput, sget, aget, hv, Ne.symm h]
  | cons e t ih =>
    obtain ⟨a, w⟩ := e
    simp only [sput]
    split
    · split
      · rfl
      · simp [sget, aget, Ne.symm h]
    · split
      · rename_i h1 h2
        subst h2
        split <;> simp [sget, aget, Ne.symm h]
      · simp only [sget, aget] at ih ⊢
        split
        · rfl
        · exact ih

theorem mem_keys_sput {β : Type} [DecidableEq β] (d : Nat → β) (m : AMap β) (k : Nat) (v : β) (x : Nat) (h : x ∈ (sput d m k v).map Prod.fst) :
    x = k ∨ x ∈ m.map Prod.fst := by
  induction m with
  | nil =>
    simp only [sput] at h
    split at h <;> simp_all
  | cons e t ih =>
    obtain ⟨a, w⟩ := e
    simp only [sput] at h
    split at h
    · split at h <;> simp_all
    · split at h
      · split at h
        · right; simp_all
        · simp_all
      · simp only [List.map_cons, List.mem_cons] at h ⊢
        rcases h with h | h
        · exact .inr (.inl h)
        · rcases ih h with h | h
          · exact .inl h
          · exact .inr (.inr h)

theorem rising_of_lt (a : Nat) (l : List Nat) (h : ∀ x ∈ l, a < x) (hr : rising l = true) : rising (a :: l) = true := by
  cases l with
  | nil => rfl
  | cons b t => simp [rising, hr, h b (by simp)]

/-- Storing keeps the canonical form. -/
theorem swf_sput {β : Type} [DecidableEq β] (d : Nat → β) (m : AMap β) (k : Nat) (v : β) (h : swf d m = true) : swf d (sput d m k v) = true := by
  induction m with
  | nil =>
    simp only [sput]
    split
    · rfl
    · rename_i hv; simp [swf, rising, hv]
  | cons e t ih =>
    obtain ⟨a, w⟩ := e
    have ht := swf_tail h
    have h' := h
    simp only [swf, List.map_cons, List.all_cons, Bool.and_eq_true, decide_eq_true_eq] at h'
    simp only [sput]
    split
    · rename_i hk
      split
      · exact h
      · rename_i hv
        simp only [swf, List.map_cons, List.all_cons, Bool.and_eq_true, decide_eq_true_eq]
        refine ⟨?_, hv, h'.2⟩
        simp only [rising, Bool.and_eq_true, decide_eq_true_eq]
        exact ⟨hk, h'.1⟩
    · split
      · rename_i hk
        subst hk
        split
        · exact ht
        · rename_i hv
          simp only [swf, List.map_cons, List.all_cons, Bool.and_eq_true, decide_eq_true_eq]
          exact ⟨h'.1, hv, h'.2.2⟩
      · rename_i h1 h2
        have ih := ih ht
        simp only [swf, List.map_cons, List.all_cons, Bool.and_eq_true, decide_eq_true_eq] at ih ⊢
        refine ⟨rising_of_lt _ _ ?_ ih.1, h'.2.1, ih.2⟩
        intro x hx
        rcases mem_keys_sput d t k v x hx with rfl | hx
        · omega
        · exact rising_lt a _ h'.1 x hx

/-- Storing a run keeps the canonical form. -/
theorem swf_sputs {β : Type} [DecidableEq β] (d : Nat → β) (m : AMap β) (a : Nat) (l : List β) (h : swf d m = true) : swf d (sputs d m a l) = true := by
  induction l generalizing m a with
  | nil => exact h
  | cons v t ih => exact ih _ _ (swf_sput d m a v h)

/-- Outside a stored run everything reads as before. -/
theorem sget_sputs_other {β : Type} [DecidableEq β] (d : Nat → β) (m : AMap β) (a j : Nat) (l : List β) (h : j < a ∨ a + l.length ≤ j) :
    sget d (sputs d m a l) j = sget d m j := by
  induction l generalizing m a with
  | nil => rfl
  | cons v t ih =>
    simp only [List.length_cons] at h
    simp only [sputs]
    rw [ih _ _ (by omega), sget_sput_other _ _ _ _ _ (by omega)]

/-- A stored run reads back. -/
theorem sgets_sputs_same {β : Type} [DecidableEq β] (d : Nat → β) (m : AMap β) (a : Nat) (l : List β) (h : swf d m = true) :
    sgets d (sputs d m a l) a l.length = l := by
  induction l generalizing m a with
  | nil => rfl
  | cons v t ih =>
    simp only [List.length_cons, sputs, sgets]
    rw [ih _ _ (swf_sput d m a v h), sget_sputs_other _ _ _ _ _ (by omega), sget_sput_same _ _ _ _ h]

/-! ## Words of the control space -/

theorem word_setWord_same (s : State) (a : Nat) (v : Word) (h : swf resetWord s.regs = true) : (s.setWord a v).word a = v :=
  sget_sput_same _ _ _ _ h

theorem word_setWord_other (s : State) (a b : Nat) (v : Word) (h : b ≠ a) : (s.setWord a v).word b = s.word b :=
  sget_sput_other _ _ _ _ _ h

theorem regs_setWord (s : State) (a : Nat) (v : Word) (h : swf resetWord s.regs = true) :
    swf resetWord (s.setWord a v).regs = true := swf_sput _ _ _ _ h

theorem regs_setWords (s : State) (a v k : Nat) (h : swf resetWord s.regs = true) :
    swf resetWord (s.setWords a v k).regs = true := by
  induction k generalizing s a v with
  | zero => exact h
  | succ k ih => exact ih _ _ _ (regs_setWord s _ _ h)

/-- Setting a field keeps the register file canonical. -/
theorem regs_wf (s : State) (f : Fld) (v : Nat) (h : swf resetWord s.regs = true) : swf resetWord (s.wf f v).regs = true :=
  regs_setWords _ _ _ _ h

theorem word_setWords_other (s : State) (a v k b : Nat) (h : b < a ∨ a + 4 * k ≤ b) :
    (s.setWords a v k).word b = s.word b := by
  induction k generalizing s a v with
  | zero => rfl
  | succ k ih =>
    simp only [State.setWords]
    rw [ih _ _ _ (by omega), word_setWord_other _ _ _ _ (by omega)]

theorem words_setWords_other (s : State) (a v k b j : Nat) (h : b + 4 * j ≤ a ∨ a + 4 * k ≤ b) :
    (s.setWords a v k).words b j = s.words b j := by
  induction j generalizing b with
  | zero => rfl
  | succ j ih =>
    simp only [State.words]
    rw [word_setWords_other _ _ _ _ _ (by omega), ih _ (by omega)]

theorem words_setWords_same (s : State) (a v k : Nat) (h : swf resetWord s.regs = true) :
    (s.setWords a v k).words a k = v % 2 ^ (32 * k) := by
  induction k generalizing s a v with
  | zero => simp [State.words, Nat.mod_one]
  | succ k ih =>
    simp only [State.setWords, State.words]
    rw [ih _ _ _ (regs_setWord s _ _ h), word_setWords_other _ _ _ _ _ (by omega), word_setWord_same _ _ _ h]
    rw [BitVec.toNat_ofNat, show 32 * (k + 1) = 32 + 32 * k by ring, Nat.pow_add, Nat.mod_mul]

theorem words_lt (s : State) (a k : Nat) : s.words a k < 2 ^ (32 * k) := by
  induction k generalizing a with
  | zero => simp [State.words]
  | succ k ih =>
    simp only [State.words]
    have h1 := (s.word a).isLt
    have h2 := ih (a + 4)
    rw [show 32 * (k + 1) = 32 + 32 * k by ring, Nat.pow_add]
    have : (4294967296 : Nat) = 2 ^ 32 := by norm_num
    rw [this]
    nlinarith

/-! ## Fields -/

/-- The parts of a number around a field. -/
theorem fld_parts (n lo w : Nat) : n = n % 2 ^ lo + fld n lo w * 2 ^ lo + n / 2 ^ (lo + w) * 2 ^ (lo + w) := by
  have h1 := Nat.div_add_mod n (2 ^ lo)
  have h2 := Nat.div_add_mod (n / 2 ^ lo) (2 ^ w)
  rw [Nat.div_div_eq_div_mul, ← Nat.pow_add] at h2
  unfold fld
  have : 2 ^ (lo + w) = 2 ^ lo * 2 ^ w := Nat.pow_add _ _ _
  rw [this] at h2 ⊢
  have h3 : 2 ^ lo * (2 ^ w * (n / (2 ^ lo * 2 ^ w)) + n / 2 ^ lo % 2 ^ w) = 2 ^ lo * (n / 2 ^ lo) := by rw [h2]
  rw [Nat.mul_add] at h3
  rw [Nat.mul_comm (n / 2 ^ lo % 2 ^ w), Nat.mul_comm (n / (2 ^ lo * 2 ^ w)), Nat.mul_assoc (2 ^ lo)]
  omega

theorem setFld_parts (n lo w v : Nat) :
    setFld n lo w v = n % 2 ^ lo + v % 2 ^ w * 2 ^ lo + n / 2 ^ (lo + w) * 2 ^ (lo + w) := by
  have h := fld_parts n lo w
  unfold setFld
  omega

theorem fld_le (n lo w : Nat) : fld n lo w < 2 ^ w := Nat.mod_lt _ (Nat.two_pow_pos w)

theorem low_split {lo w a f b : Nat} (ha : a < 2 ^ lo) :
    (a + f * 2 ^ lo + b * 2 ^ (lo + w)) / 2 ^ lo = f + b * 2 ^ w := by
  rw [Nat.pow_add, show a + f * 2 ^ lo + b * (2 ^ lo * 2 ^ w) = a + 2 ^ lo * (f + b * 2 ^ w) by ring,
    Nat.add_mul_div_left _ _ (Nat.two_pow_pos lo), Nat.div_eq_of_lt ha, Nat.zero_add]

/-- A field just set holds the value cut to its width. -/
theorem fld_setFld_same (n lo w v : Nat) : fld (setFld n lo w v) lo w = v % 2 ^ w := by
  rw [setFld_parts]
  show _ / 2 ^ lo % 2 ^ w = _
  rw [low_split (Nat.mod_lt _ (Nat.two_pow_pos lo)), Nat.add_mul_mod_self_right, Nat.mod_mod]

theorem setFld_mod (n lo w v : Nat) : setFld n lo w v % 2 ^ lo = n % 2 ^ lo := by
  rw [setFld_parts, Nat.pow_add, show n % 2 ^ lo + v % 2 ^ w * 2 ^ lo + n / (2 ^ lo * 2 ^ w) * (2 ^ lo * 2 ^ w)
    = n % 2 ^ lo + 2 ^ lo * (v % 2 ^ w + n / (2 ^ lo * 2 ^ w) * 2 ^ w) by ring, Nat.add_mul_mod_self_left, Nat.mod_mod]

theorem setFld_div (n lo w v : Nat) : setFld n lo w v / 2 ^ (lo + w) = n / 2 ^ (lo + w) := by
  rw [Nat.pow_add, ← Nat.div_div_eq_div_mul, setFld_parts, low_split (Nat.mod_lt _ (Nat.two_pow_pos lo)),
    Nat.add_mul_div_right _ _ (Nat.two_pow_pos w), Nat.div_eq_of_lt (Nat.mod_lt _ (Nat.two_pow_pos w)), Nat.zero_add,
    Nat.pow_add]

theorem fld_of_mod (n lo w k : Nat) (h : lo + w ≤ k) : fld (n % 2 ^ k) lo w = fld n lo w := by
  unfold fld
  obtain ⟨j, rfl⟩ := Nat.exists_eq_add_of_le h
  rw [Nat.add_assoc, Nat.pow_add 2 lo, Nat.mod_mul_right_div_self, Nat.pow_add,
    Nat.mod_mul_right_mod]

theorem fld_of_div (n k lo w : Nat) : fld (n / 2 ^ k) lo w = fld n (k + lo) w := by
  unfold fld
  rw [Nat.div_div_eq_div_mul, ← Nat.pow_add]

/-- Setting a field leaves another field of the same register alone. -/
theorem fld_setFld_other (n lo w v lo' w' : Nat) (h : lo' + w' ≤ lo ∨ lo + w ≤ lo') :
    fld (setFld n lo w v) lo' w' = fld n lo' w' := by
  rcases h with h | h
  · rw [← fld_of_mod _ lo' w' lo h, setFld_mod, fld_of_mod _ lo' w' lo h]
  · obtain ⟨j, rfl⟩ := Nat.exists_eq_add_of_le h
    rw [← fld_of_div, setFld_div, fld_of_div]

theorem setFld_lt (n lo w v k : Nat) (hn : n < 2 ^ k) (h : lo + w ≤ k) : setFld n lo w v < 2 ^ k := by
  obtain ⟨j, rfl⟩ := Nat.exists_eq_add_of_le h
  have h1 : n / 2 ^ (lo + w) < 2 ^ j := by
    rw [Nat.div_lt_iff_lt_mul (Nat.two_pow_pos _), ← Nat.pow_add, Nat.add_comm j]; exact hn
  have h2 := setFld_div n lo w v
  have h3 : setFld n lo w v / 2 ^ (lo + w) < 2 ^ j := by rw [h2]; exact h1
  rw [Nat.div_lt_iff_lt_mul (Nat.two_pow_pos _), ← Nat.pow_add, Nat.add_comm j] at h3
  exact h3

/-- A field just set reads as the value cut to its width. -/
theorem rf_wf_same (s : State) (f : Fld) (v : Nat) (h : swf resetWord s.regs = true) : (s.wf f v).rf f = v % 2 ^ f.w := by
  simp only [State.rf, State.wf]
  rw [words_setWords_same _ _ _ _ h,
    Nat.mod_eq_of_lt (setFld_lt _ _ _ _ _ (words_lt s _ _) (by omega)), fld_setFld_same]

/-- A field that shares no bit with the one set reads as before. -/
theorem rf_wf_apart (s : State) (f g : Fld) (v : Nat) (h : swf resetWord s.regs = true) (ha : apart f g = true) :
    (s.wf f v).rf g = s.rf g := by
  simp only [apart, Bool.or_eq_true, Bool.and_eq_true, decide_eq_true_eq] at ha
  simp only [wordsOf] at ha
  simp only [State.rf, State.wf]
  rcases ha with (ha | ha) | ⟨⟨ha, hk⟩, hb⟩
  · rw [words_setWords_other _ _ _ _ _ _ (.inl ha)]
  · rw [words_setWords_other _ _ _ _ _ _ (.inr ha)]
  · rw [← ha, ← hk, words_setWords_same _ _ _ _ h,
      Nat.mod_eq_of_lt (setFld_lt _ _ _ _ _ (words_lt s _ _) (by omega)), fld_setFld_other _ _ _ _ _ _ hb]

/-- A field never exceeds its width. -/
theorem rf_lt (s : State) (f : Fld) : s.rf f < 2 ^ f.w := fld_le _ _ _

/-- A counter goes up by one and stops at its largest value. -/
theorem rf_inc_same (s : State) (f : Fld) (h : swf resetWord s.regs = true) :
    (s.inc f).rf f = min (s.rf f + 1) (2 ^ f.w - 1) := by
  simp only [State.inc, State.incBy]
  rw [rf_wf_same _ _ _ h, satAdd, Nat.mod_eq_of_lt]
  have := Nat.two_pow_pos f.w
  omega

/-- The register file stays canonical under the operations over it. -/
theorem regs_inc (s : State) (f : Fld) (h : swf resetWord s.regs = true) : swf resetWord (s.inc f).regs = true := regs_wf _ _ _ h

/-! ## Memory -/

/-- Storing bytes keeps memory canonical. -/
theorem mem_store (s : State) (a : Nat) (l : Bytes) (h : Memory.wf s.mem = true) : Memory.wf (s.store a l).mem = true :=
  swf_sputs _ _ _ _ h

/-- Stored bytes read back. -/
theorem load_store_same (s : State) (a : Nat) (l : Bytes) (h : Memory.wf s.mem = true) : (s.store a l).load a l.length = l :=
  sgets_sputs_same _ _ _ _ h

theorem sgets_sputs_other {β : Type} [DecidableEq β] (d : Nat → β) (m : AMap β) (a b k : Nat) (l : List β) (h : b + k ≤ a ∨ a + l.length ≤ b) :
    sgets d (sputs d m a l) b k = sgets d m b k := by
  induction k generalizing b with
  | zero => rfl
  | succ k ih =>
    simp only [sgets]
    rw [sget_sputs_other _ _ _ _ _ (by omega), ih _ (by omega)]

/-- Bytes outside a store read as before. -/
theorem load_store_other (s : State) (a b k : Nat) (l : Bytes) (h : b + k ≤ a ∨ a + l.length ≤ b) :
    (s.store a l).load b k = s.load b k := sgets_sputs_other _ _ _ _ _ _ h

/-- Programming the boot flash keeps its contents canonical. -/
theorem flash_flStore (s : State) (a : Nat) (l : Bytes) (h : Flash.wf s.flash = true) : Flash.wf (s.flStore a l).flash = true :=
  swf_sputs _ _ _ _ h

theorem rising_filter {β : Type} (m : AMap β) (p : Nat × β → Bool) (h : rising (m.map Prod.fst) = true) :
    rising ((m.filter p).map Prod.fst) = true := by
  induction m with
  | nil => rfl
  | cons e t ih =>
    have ht := rising_cons _ _ h
    simp only [List.filter_cons]
    split
    · refine rising_of_lt _ _ ?_ (ih ht)
      intro x hx
      obtain ⟨y, hy, rfl⟩ := List.mem_map.1 hx
      exact rising_lt _ _ h _ (List.mem_map.2 ⟨y, (List.mem_filter.1 hy).1, rfl⟩)
    · exact ih ht

/-- Erasing the boot flash keeps its contents canonical. -/
theorem flash_flErase (s : State) (a k : Nat) (h : Flash.wf s.flash = true) : Flash.wf (s.flErase a k).flash = true := by
  simp only [Flash.wf, swf, Bool.and_eq_true, List.all_eq_true, State.flErase] at h ⊢
  exact ⟨rising_filter _ _ h.1, fun e he => h.2 e (List.mem_filter.1 he).1⟩

/-! ## Maps by number -/

theorem aget_aset_same {β : Type} (m : AMap β) (k : Nat) (v : β) : aget (aset m k v) k = some v := by
  induction m with
  | nil => simp [aset, aget]
  | cons e t ih =>
    obtain ⟨a, w⟩ := e
    simp only [aset]
    split
    · simp [aget]
    · split
      · simp [aget]
      · rename_i h1 h2
        simp only [aget]
        rw [if_neg (fun h => h2 h.symm)]
        exact ih

theorem aget_aset_other {β : Type} (m : AMap β) (k j : Nat) (v : β) (h : j ≠ k) : aget (aset m k v) j = aget m j := by
  induction m with
  | nil => simp [aset, aget, Ne.symm h]
  | cons e t ih =>
    obtain ⟨a, w⟩ := e
    simp only [aset]
    split
    · simp [aget, Ne.symm h]
    · split
      · rename_i h1 h2; subst h2; simp [aget, Ne.symm h]
      · simp only [aget]; split
        · rfl
        · exact ih

theorem aget_adel_same {β : Type} (m : AMap β) (k : Nat) : aget (adel m k) k = none := by
  induction m with
  | nil => rfl
  | cons e t ih =>
    obtain ⟨a, w⟩ := e
    simp only [adel, List.filter_cons, bne_iff_ne, ne_eq, ite_not] at ih ⊢
    split
    · exact ih
    · rename_i h; simp only [aget, if_neg h]; exact ih

theorem aget_adel_other {β : Type} (m : AMap β) (k j : Nat) (h : j ≠ k) : aget (adel m k) j = aget m j := by
  induction m with
  | nil => rfl
  | cons e t ih =>
    obtain ⟨a, w⟩ := e
    simp only [adel, List.filter_cons, bne_iff_ne, ne_eq, ite_not] at ih ⊢
    split
    · rename_i h2; subst h2; simp only [aget, if_neg (Ne.symm h)]; exact ih
    · simp only [aget]; split
      · rfl
      · exact ih

end Sys2Proof.Laws
end

