-- ==== Sys2Proof/Laws/Faults.lean ====
section
/-! SUPPORT. What a fault occurrence, a mode change and a fence leave alone: everything but the registers, the fault collector and recorder,
the interrupt sources, the modes and pins, the host connections, the stamps, the link queues and the messages. -/
namespace Sys2Proof.Laws
open Sys2Proof Sys2Proof.Machine

/-- The part of a state that no log entry, event or end of serving touches; the rest is blanked. -/
def calm (s : State) : State :=
  { s with regs := [], freeCtr := 0, tbs := {}, bsv := {}, fcl := {}, evr := {}, irq := {}, io := {}, cpl := {}, out := [] }

/-- The part of a state that no fault occurrence, mode change or fence touches; the rest is blanked. -/
def quiet (s : State) : State := { calm s with pins := {}, jlk := {} }

theorem quiet_of_calm {s t : State} (h : calm t = calm s) : quiet t = quiet s := by rw [quiet, h, quiet]

/-! ## Calm updates -/

@[simp] theorem calm_setWord (s : State) (a : Nat) (v : Word) : calm (s.setWord a v) = calm s := rfl

@[simp] theorem calm_setWords (s : State) (a v k : Nat) : calm (s.setWords a v k) = calm s := by
  induction k generalizing s a v with
  | zero => rfl
  | succ k ih => rw [State.setWords, ih, calm_setWord]

@[simp] theorem calm_wf (s : State) (f : Fld) (v : Nat) : calm (s.wf f v) = calm s := calm_setWords _ _ _ _
@[simp] theorem calm_inc (s : State) (f : Fld) : calm (s.inc f) = calm s := calm_wf _ _ _
@[simp] theorem calm_emit (s : State) (m : Out) : calm (s.emit m) = calm s := rfl
@[simp] theorem calm_draw (s : State) : calm s.draw = calm s := rfl
@[simp] theorem calm_issued (s : State) (u : Nat) (o : Ostamp) : calm (s.issued u o) = calm s := rfl
@[simp] theorem calm_updCtl (s : State) (k : Nat) (f : Ctl → Ctl) : calm (s.updCtl k f) = calm s := rfl
@[simp] theorem calm_fcl (s : State) (x : Fcl) : calm { s with fcl := x } = calm s := rfl
@[simp] theorem calm_evr (s : State) (x : Evr) : calm { s with evr := x } = calm s := rfl
@[simp] theorem calm_io (s : State) (x : Io) : calm { s with io := x } = calm s := rfl
@[simp] theorem calm_bsv (s : State) (x : Bsv) : calm { s with bsv := x } = calm s := rfl
@[simp] theorem calm_cpl (s : State) (x : Cpl) : calm { s with cpl := x } = calm s := rfl

/-- A fold of steps that each leave the calm part alone leaves it alone. -/
theorem calm_foldl {α : Type} (f : State → α → State) (h : ∀ s a, calm (f s a) = calm s) (l : List α) (s : State) :
    calm (l.foldl f s) = calm s := by
  induction l generalizing s with
  | nil => rfl
  | cons a t ih => rw [List.foldl_cons, ih, h]

@[simp] theorem calm_ovfBegin (s : State) (u : Nat) : calm (s.ovfBegin u) = calm s := by
  unfold State.ovfBegin; split
  · exact calm_inc s _
  · rfl

@[simp] theorem calm_issue (s : State) (u : Nat) : calm (s.issue u).2 = calm s := by
  unfold State.issue; split <;> simp

@[simp] theorem calm_evrStamp (s : State) (w : EvrWait) : calm (s.evrStamp w) = calm s := by
  have h := calm_issue s w.unit
  unfold State.evrStamp; split <;> rename_i heq <;> rw [heq] at h <;> exact h

@[simp] theorem calm_evrFlush (s : State) : calm s.evrFlush = calm s := by
  simp only [State.evrFlush]; rw [calm_foldl _ (fun s w => calm_evrStamp s w)]; rfl

@[simp] theorem calm_evrEvent (s : State) (t u d : Nat) : calm (s.evrEvent t u d) = calm s := by
  simp only [State.evrEvent]; rw [calm_evrFlush]; rfl

@[simp] theorem calm_setErrStat (s : State) (p c : Nat) : calm (s.setErrStat p c) = calm s := by
  simp only [State.setErrStat]; split <;> simp

@[simp] theorem calm_fclNew (s : State) (o : Ostamp) (w : FclWait) : calm (s.fclNew o w).2 = calm s := by
  simp only [State.fclNew, apply_ite Prod.snd, apply_ite calm, calm_inc, calm_wf, calm_fcl, ite_self]

@[simp] theorem calm_fclPut (s : State) (w : FclWait) : calm (s.fclPut w).2 = calm s := by
  have fresh : calm (match s.issue Unit.fcl with
      | (some st, s) => s.fclNew st w
      | (none, s) => (false, { s with fcl := { s.fcl with wait := s.fcl.wait ++ [w] } })).2 = calm s := by
    have h := calm_issue s Unit.fcl
    split <;> rename_i heq <;> rw [heq] at h
    · rw [calm_fclNew]; exact h
    · exact h
  simp only [State.fclPut]; split
  · split
    · split <;> simp
    · exact fresh
  · exact fresh

@[simp] theorem calm_fclFlush (s : State) : calm s.fclFlush.2 = calm s := by
  have h : ∀ (l : List FclWait) (a : Bool × State),
      calm (l.foldl (fun (a : Bool × State) w => let b := a.2.fclPut w; (a.1 || b.1, b.2)) a).2 = calm a.2 := by
    intro l; induction l with
    | nil => intro a; rfl
    | cons w t ih => intro a; rw [List.foldl_cons, ih]; exact calm_fclPut _ _
  simp only [State.fclFlush, h, calm_fcl]

@[simp] theorem calm_fclLog (s : State) (o : Occ) (c : Nat) (b : Bool) : calm (s.fclLog o c b).2 = calm s := by
  simp only [State.fclLog, calm_fclFlush, calm_fcl]

@[simp] theorem calm_fclTake (s : State) (o : Occ) (c : Nat) (b : Bool) : calm (s.fclTake o c b).2 = calm s := by
  simp only [State.fclTake]
  repeat' split
  all_goals simp

@[simp] theorem calm_asyncEvent (s : State) (k d : Nat) : calm (s.asyncEvent k d) = calm s := by
  simp only [State.asyncEvent]; split
  · rfl
  · split
    · rfl
    · split <;> rfl

@[simp] theorem calm_anaNotify (s : State) : calm s.anaNotify = calm s := by
  simp only [State.anaNotify]; rw [calm_foldl _ (fun s k => calm_asyncEvent s k anaEvent)]; rfl

@[simp] theorem calm_anaChange (s : State) (g : List Nat) : calm (s.anaChange g) = calm s := by
  simp only [State.anaChange]; split
  · rfl
  · rw [calm_anaNotify]; rfl

@[simp] theorem calm_anaReport (s : State) (g : List (Nat × Nat)) : calm (s.anaReport g) = calm s := by
  simp only [State.anaReport]; split
  · rfl
  · rw [calm_anaNotify]; rfl

@[simp] theorem calm_anaMove (s : State) (g : List (Nat × Nat)) : calm (s.anaMove g) = calm s := by
  simp only [State.anaMove]; rw [calm_anaReport, calm_anaChange]

@[simp] theorem calm_answerWaiting (s : State) : calm s.answerWaiting = calm s := by
  simp only [State.answerWaiting]; refine calm_foldl _ (fun s e => ?_) _ _; split <;> rfl

@[simp] theorem calm_stopServing (s : State) (a : Bool) : calm (s.stopServing a) = calm s := by
  have h : ∀ (x : State) (a : Io) (b : Bsv) (c : Cpl), calm { x with io := a, bsv := b, cpl := c } = calm x := fun _ _ _ _ => rfl
  simp only [State.stopServing, h]; split <;> simp

@[simp] theorem calm_showFence (s : State) (p u : Nat) : calm (s.showFence p u) = calm s := by
  simp only [State.showFence]; repeat' split
  all_goals simp

@[simp] theorem calm_markFenced (s : State) (p u : Nat) : calm (s.markFenced p u) = calm s := by
  simp only [State.markFenced]; split
  · rfl
  · rw [calm_showFence, calm_wf, calm_wf]; rfl

@[simp] theorem calm_unloadMaps (s : State) : calm s.unloadMaps = calm s := by
  simp only [State.unloadMaps, calm_bsv]; split
  · exact calm_wf _ _ _
  · rfl

/-! ## Quiet updates -/

@[simp] theorem quiet_wf (s : State) (f : Fld) (v : Nat) : quiet (s.wf f v) = quiet s := quiet_of_calm (calm_wf _ _ _)
@[simp] theorem quiet_inc (s : State) (f : Fld) : quiet (s.inc f) = quiet s := quiet_wf _ _ _
@[simp] theorem quiet_evrEvent (s : State) (t u d : Nat) : quiet (s.evrEvent t u d) = quiet s := quiet_of_calm (calm_evrEvent _ _ _ _)
@[simp] theorem quiet_setErrStat (s : State) (p c : Nat) : quiet (s.setErrStat p c) = quiet s := quiet_of_calm (calm_setErrStat _ _ _)
@[simp] theorem quiet_fclTake (s : State) (o : Occ) (c : Nat) (b : Bool) : quiet (s.fclTake o c b).2 = quiet s := quiet_of_calm (calm_fclTake _ _ _ _)
@[simp] theorem quiet_stopServing (s : State) (a : Bool) : quiet (s.stopServing a) = quiet s := quiet_of_calm (calm_stopServing _ _)
@[simp] theorem quiet_markFenced (s : State) (p u : Nat) : quiet (s.markFenced p u) = quiet s := quiet_of_calm (calm_markFenced _ _ _)
@[simp] theorem quiet_unloadMaps (s : State) : quiet s.unloadMaps = quiet s := quiet_of_calm (calm_unloadMaps _)
@[simp] theorem quiet_muteDies (s : State) : quiet s.muteDies = quiet s := rfl

/-- What handles a nested occurrence leaves the quiet part alone. -/
def Keeps (rz : Occ → State → State) : Prop := ∀ o s, quiet (rz o s) = quiet s

theorem quiet_assertWith {rz : Occ → State → State} (h : Keeps rz) (src : Nat) (s : State) : quiet (State.assertWith rz src s) = quiet s := by
  simp only [State.assertWith]; split
  · rfl
  · split
    · rfl
    · split
      · rw [h, quiet_inc]; rfl
      · rfl

theorem quiet_enterWith {rz : Occ → State → State} (h : Keeps rz) (m : Sys2Proof.Mode) (c : Nat) (s : State) :
    quiet (State.enterWith rz m c s) = quiet s := by
  simp only [State.enterWith]
  rw [quiet_assertWith h, quiet_evrEvent, quiet_wf]; rfl

theorem quiet_leaveWith {rz : Occ → State → State} (h : Keeps rz) (c : Nat) (s : State) : quiet (State.leaveWith rz c s) = quiet s := by
  simp only [State.leaveWith]; split
  · rw [quiet_muteDies, quiet_stopServing, quiet_enterWith h]; rfl
  · split
    · rw [quiet_muteDies, quiet_stopServing, quiet_enterWith h]; rfl
    · rfl
  · rfl

theorem quiet_fenceWith {rz : Occ → State → State} (h : Keeps rz) (p u : Nat) (s : State) : quiet (State.fenceWith rz p u s) = quiet s := by
  simp only [State.fenceWith]; split
  · simp
  · split
    · split
      · simp
      · rw [quiet_leaveWith h]; simp
    · split
      · rw [quiet_leaveWith h]; simp
      · simp

theorem quiet_raiseN (k : Nat) : Keeps (raiseN k) := by
  induction k with
  | zero => intro o s; rfl
  | succ k ih =>
    intro o s
    simp only [raiseN]
    split
    · simp
    · have hr : ∀ o x, quiet (raiseN k o x) = quiet x := ih
      simp only [apply_ite quiet, quiet_leaveWith ih, hr, quiet_assertWith ih, quiet_fclTake, ite_self]
      split
      · rw [apply_ite quiet, quiet_fenceWith ih, ite_self, quiet_setErrStat]
      · rw [quiet_setErrStat]

@[simp] theorem quiet_occur (s : State) (o : Occ) : quiet (s.occur o) = quiet s := quiet_raiseN 3 o s
@[simp] theorem quiet_raise (s : State) (p c : Nat) : quiet (s.raise p c) = quiet s := quiet_occur _ _
@[simp] theorem quiet_raiseD (s : State) (p c d : Nat) : quiet (s.raiseD p c d) = quiet s := quiet_occur _ _
@[simp] theorem quiet_raiseU (s : State) (p c u : Nat) : quiet (s.raiseU p c u) = quiet s := quiet_occur _ _
@[simp] theorem quiet_event (s : State) (p : Nat) : quiet (s.event p) = quiet s := quiet_assertWith (quiet_raiseN 2) _ _
@[simp] theorem quiet_enter (s : State) (m : Sys2Proof.Mode) (c : Nat) : quiet (s.enter m c) = quiet s := quiet_enterWith (quiet_raiseN 2) _ _ _
@[simp] theorem quiet_leave (s : State) (c : Nat) : quiet (s.leave c) = quiet s := quiet_leaveWith (quiet_raiseN 2) _ _
@[simp] theorem quiet_fence (s : State) (p u : Nat) : quiet (s.fence p u) = quiet s := quiet_fenceWith (quiet_raiseN 2) _ _ _
@[simp] theorem quiet_syncErrLine (s : State) (p : Nat) : quiet (s.syncErrLine p) = quiet s := by
  simp only [State.syncErrLine]; split
  · rw [quiet_assertWith (quiet_raiseN 2), quiet_wf]
  · rfl
@[simp] theorem quiet_joinRefuse (s : State) (r : Nat) : quiet (s.joinRefuse r) = quiet s := by
  have hc : ∀ (x : State) (c : Cpl), quiet { x with cpl := c } = quiet x := fun _ _ => rfl
  simp only [State.joinRefuse]; split
  · rw [quiet_enter, quiet_wf, hc, quiet_raise, quiet_wf, quiet_wf]
  · rw [hc, quiet_raise, quiet_wf, quiet_wf]

/-- A field that the blanking keeps is the same in two states with the same calm part. -/
theorem of_calm {α : Type} (f : State → α) (hf : ∀ s, f (calm s) = f s) {s t : State} (h : calm t = calm s) : f t = f s := by
  rw [← hf t, h, hf s]

/-- A field that the blanking keeps is the same in two states with the same quiet part. -/
theorem of_quiet {α : Type} (f : State → α) (hf : ∀ s, f (quiet s) = f s) {s t : State} (h : quiet t = quiet s) : f t = f s := by
  rw [← hf t, h, hf s]

/-! ## The same, field by field -/

@[simp] theorem evrEvent_pending (s : State) (t u d : Nat) : (s.evrEvent t u d).pending = s.pending := of_calm State.pending (fun _ => rfl) (calm_evrEvent s t u d)
@[simp] theorem evrEvent_caps (s : State) (t u d : Nat) : (s.evrEvent t u d).caps = s.caps := of_calm State.caps (fun _ => rfl) (calm_evrEvent s t u d)
@[simp] theorem evrEvent_shadows (s : State) (t u d : Nat) : (s.evrEvent t u d).shadows = s.shadows := of_calm State.shadows (fun _ => rfl) (calm_evrEvent s t u d)
@[simp] theorem evrEvent_now (s : State) (t u d : Nat) : (s.evrEvent t u d).now = s.now := of_calm State.now (fun _ => rfl) (calm_evrEvent s t u d)
@[simp] theorem evrEvent_pins (s : State) (t u d : Nat) : (s.evrEvent t u d).pins = s.pins := of_calm State.pins (fun _ => rfl) (calm_evrEvent s t u d)
@[simp] theorem evrEvent_fuses (s : State) (t u d : Nat) : (s.evrEvent t u d).fuses = s.fuses := of_calm State.fuses (fun _ => rfl) (calm_evrEvent s t u d)
@[simp] theorem evrEvent_straps (s : State) (t u d : Nat) : (s.evrEvent t u d).straps = s.straps := of_calm State.straps (fun _ => rfl) (calm_evrEvent s t u d)
@[simp] theorem evrEvent_dram (s : State) (t u d : Nat) : (s.evrEvent t u d).dram = s.dram := of_calm State.dram (fun _ => rfl) (calm_evrEvent s t u d)
@[simp] theorem evrEvent_ing (s : State) (t u d : Nat) : (s.evrEvent t u d).ing = s.ing := of_calm State.ing (fun _ => rfl) (calm_evrEvent s t u d)
@[simp] theorem evrEvent_slm (s : State) (t u d : Nat) : (s.evrEvent t u d).slm = s.slm := of_calm State.slm (fun _ => rfl) (calm_evrEvent s t u d)
@[simp] theorem evrEvent_maps (s : State) (t u d : Nat) : (s.evrEvent t u d).maps = s.maps := of_calm State.maps (fun _ => rfl) (calm_evrEvent s t u d)
@[simp] theorem evrEvent_mpe (s : State) (t u d : Nat) : (s.evrEvent t u d).mpe = s.mpe := of_calm State.mpe (fun _ => rfl) (calm_evrEvent s t u d)
@[simp] theorem evrEvent_mpc (s : State) (t u d : Nat) : (s.evrEvent t u d).mpc = s.mpc := of_calm State.mpc (fun _ => rfl) (calm_evrEvent s t u d)
@[simp] theorem evrEvent_sgb (s : State) (t u d : Nat) : (s.evrEvent t u d).sgb = s.sgb := of_calm State.sgb (fun _ => rfl) (calm_evrEvent s t u d)
@[simp] theorem evrEvent_fmm (s : State) (t u d : Nat) : (s.evrEvent t u d).fmm = s.fmm := of_calm State.fmm (fun _ => rfl) (calm_evrEvent s t u d)
@[simp] theorem evrEvent_jlk (s : State) (t u d : Nat) : (s.evrEvent t u d).jlk = s.jlk := of_calm State.jlk (fun _ => rfl) (calm_evrEvent s t u d)
@[simp] theorem evrEvent_bridges (s : State) (t u d : Nat) : (s.evrEvent t u d).bridges = s.bridges := of_calm State.bridges (fun _ => rfl) (calm_evrEvent s t u d)
@[simp] theorem evrEvent_sec (s : State) (t u d : Nat) : (s.evrEvent t u d).sec = s.sec := of_calm State.sec (fun _ => rfl) (calm_evrEvent s t u d)
@[simp] theorem evrEvent_ldc (s : State) (t u d : Nat) : (s.evrEvent t u d).ldc = s.ldc := of_calm State.ldc (fun _ => rfl) (calm_evrEvent s t u d)
@[simp] theorem evrEvent_rbe (s : State) (t u d : Nat) : (s.evrEvent t u d).rbe = s.rbe := of_calm State.rbe (fun _ => rfl) (calm_evrEvent s t u d)
@[simp] theorem evrEvent_rpl (s : State) (t u d : Nat) : (s.evrEvent t u d).rpl = s.rpl := of_calm State.rpl (fun _ => rfl) (calm_evrEvent s t u d)
@[simp] theorem evrEvent_ccl (s : State) (t u d : Nat) : (s.evrEvent t u d).ccl = s.ccl := of_calm State.ccl (fun _ => rfl) (calm_evrEvent s t u d)
@[simp] theorem evrEvent_pwr (s : State) (t u d : Nat) : (s.evrEvent t u d).pwr = s.pwr := of_calm State.pwr (fun _ => rfl) (calm_evrEvent s t u d)
@[simp] theorem evrEvent_mem (s : State) (t u d : Nat) : (s.evrEvent t u d).mem = s.mem := of_calm State.mem (fun _ => rfl) (calm_evrEvent s t u d)
@[simp] theorem evrEvent_flash (s : State) (t u d : Nat) : (s.evrEvent t u d).flash = s.flash := of_calm State.flash (fun _ => rfl) (calm_evrEvent s t u d)

@[simp] theorem anaMove_pending (s : State) (g : List (Nat × Nat)) : (s.anaMove g).pending = s.pending := of_calm State.pending (fun _ => rfl) (calm_anaMove s g)
@[simp] theorem anaMove_caps (s : State) (g : List (Nat × Nat)) : (s.anaMove g).caps = s.caps := of_calm State.caps (fun _ => rfl) (calm_anaMove s g)
@[simp] theorem anaMove_shadows (s : State) (g : List (Nat × Nat)) : (s.anaMove g).shadows = s.shadows := of_calm State.shadows (fun _ => rfl) (calm_anaMove s g)
@[simp] theorem anaMove_now (s : State) (g : List (Nat × Nat)) : (s.anaMove g).now = s.now := of_calm State.now (fun _ => rfl) (calm_anaMove s g)
@[simp] theorem anaMove_pins (s : State) (g : List (Nat × Nat)) : (s.anaMove g).pins = s.pins := of_calm State.pins (fun _ => rfl) (calm_anaMove s g)
@[simp] theorem anaMove_fuses (s : State) (g : List (Nat × Nat)) : (s.anaMove g).fuses = s.fuses := of_calm State.fuses (fun _ => rfl) (calm_anaMove s g)
@[simp] theorem anaMove_straps (s : State) (g : List (Nat × Nat)) : (s.anaMove g).straps = s.straps := of_calm State.straps (fun _ => rfl) (calm_anaMove s g)
@[simp] theorem anaMove_dram (s : State) (g : List (Nat × Nat)) : (s.anaMove g).dram = s.dram := of_calm State.dram (fun _ => rfl) (calm_anaMove s g)
@[simp] theorem anaMove_ing (s : State) (g : List (Nat × Nat)) : (s.anaMove g).ing = s.ing := of_calm State.ing (fun _ => rfl) (calm_anaMove s g)
@[simp] theorem anaMove_slm (s : State) (g : List (Nat × Nat)) : (s.anaMove g).slm = s.slm := of_calm State.slm (fun _ => rfl) (calm_anaMove s g)
@[simp] theorem anaMove_maps (s : State) (g : List (Nat × Nat)) : (s.anaMove g).maps = s.maps := of_calm State.maps (fun _ => rfl) (calm_anaMove s g)
@[simp] theorem anaMove_mpe (s : State) (g : List (Nat × Nat)) : (s.anaMove g).mpe = s.mpe := of_calm State.mpe (fun _ => rfl) (calm_anaMove s g)
@[simp] theorem anaMove_mpc (s : State) (g : List (Nat × Nat)) : (s.anaMove g).mpc = s.mpc := of_calm State.mpc (fun _ => rfl) (calm_anaMove s g)
@[simp] theorem anaMove_sgb (s : State) (g : List (Nat × Nat)) : (s.anaMove g).sgb = s.sgb := of_calm State.sgb (fun _ => rfl) (calm_anaMove s g)
@[simp] theorem anaMove_fmm (s : State) (g : List (Nat × Nat)) : (s.anaMove g).fmm = s.fmm := of_calm State.fmm (fun _ => rfl) (calm_anaMove s g)
@[simp] theorem anaMove_jlk (s : State) (g : List (Nat × Nat)) : (s.anaMove g).jlk = s.jlk := of_calm State.jlk (fun _ => rfl) (calm_anaMove s g)
@[simp] theorem anaMove_bridges (s : State) (g : List (Nat × Nat)) : (s.anaMove g).bridges = s.bridges := of_calm State.bridges (fun _ => rfl) (calm_anaMove s g)
@[simp] theorem anaMove_sec (s : State) (g : List (Nat × Nat)) : (s.anaMove g).sec = s.sec := of_calm State.sec (fun _ => rfl) (calm_anaMove s g)
@[simp] theorem anaMove_ldc (s : State) (g : List (Nat × Nat)) : (s.anaMove g).ldc = s.ldc := of_calm State.ldc (fun _ => rfl) (calm_anaMove s g)
@[simp] theorem anaMove_rbe (s : State) (g : List (Nat × Nat)) : (s.anaMove g).rbe = s.rbe := of_calm State.rbe (fun _ => rfl) (calm_anaMove s g)
@[simp] theorem anaMove_rpl (s : State) (g : List (Nat × Nat)) : (s.anaMove g).rpl = s.rpl := of_calm State.rpl (fun _ => rfl) (calm_anaMove s g)
@[simp] theorem anaMove_ccl (s : State) (g : List (Nat × Nat)) : (s.anaMove g).ccl = s.ccl := of_calm State.ccl (fun _ => rfl) (calm_anaMove s g)
@[simp] theorem anaMove_pwr (s : State) (g : List (Nat × Nat)) : (s.anaMove g).pwr = s.pwr := of_calm State.pwr (fun _ => rfl) (calm_anaMove s g)
@[simp] theorem anaMove_mem (s : State) (g : List (Nat × Nat)) : (s.anaMove g).mem = s.mem := of_calm State.mem (fun _ => rfl) (calm_anaMove s g)
@[simp] theorem anaMove_flash (s : State) (g : List (Nat × Nat)) : (s.anaMove g).flash = s.flash := of_calm State.flash (fun _ => rfl) (calm_anaMove s g)

@[simp] theorem stopServing_pending (s : State) (a : Bool) : (s.stopServing a).pending = s.pending := of_calm State.pending (fun _ => rfl) (calm_stopServing s a)
@[simp] theorem stopServing_caps (s : State) (a : Bool) : (s.stopServing a).caps = s.caps := of_calm State.caps (fun _ => rfl) (calm_stopServing s a)
@[simp] theorem stopServing_shadows (s : State) (a : Bool) : (s.stopServing a).shadows = s.shadows := of_calm State.shadows (fun _ => rfl) (calm_stopServing s a)
@[simp] theorem stopServing_now (s : State) (a : Bool) : (s.stopServing a).now = s.now := of_calm State.now (fun _ => rfl) (calm_stopServing s a)
@[simp] theorem stopServing_pins (s : State) (a : Bool) : (s.stopServing a).pins = s.pins := of_calm State.pins (fun _ => rfl) (calm_stopServing s a)
@[simp] theorem stopServing_fuses (s : State) (a : Bool) : (s.stopServing a).fuses = s.fuses := of_calm State.fuses (fun _ => rfl) (calm_stopServing s a)
@[simp] theorem stopServing_straps (s : State) (a : Bool) : (s.stopServing a).straps = s.straps := of_calm State.straps (fun _ => rfl) (calm_stopServing s a)
@[simp] theorem stopServing_dram (s : State) (a : Bool) : (s.stopServing a).dram = s.dram := of_calm State.dram (fun _ => rfl) (calm_stopServing s a)
@[simp] theorem stopServing_ing (s : State) (a : Bool) : (s.stopServing a).ing = s.ing := of_calm State.ing (fun _ => rfl) (calm_stopServing s a)
@[simp] theorem stopServing_slm (s : State) (a : Bool) : (s.stopServing a).slm = s.slm := of_calm State.slm (fun _ => rfl) (calm_stopServing s a)
@[simp] theorem stopServing_maps (s : State) (a : Bool) : (s.stopServing a).maps = s.maps := of_calm State.maps (fun _ => rfl) (calm_stopServing s a)
@[simp] theorem stopServing_mpe (s : State) (a : Bool) : (s.stopServing a).mpe = s.mpe := of_calm State.mpe (fun _ => rfl) (calm_stopServing s a)
@[simp] theorem stopServing_mpc (s : State) (a : Bool) : (s.stopServing a).mpc = s.mpc := of_calm State.mpc (fun _ => rfl) (calm_stopServing s a)
@[simp] theorem stopServing_sgb (s : State) (a : Bool) : (s.stopServing a).sgb = s.sgb := of_calm State.sgb (fun _ => rfl) (calm_stopServing s a)
@[simp] theorem stopServing_fmm (s : State) (a : Bool) : (s.stopServing a).fmm = s.fmm := of_calm State.fmm (fun _ => rfl) (calm_stopServing s a)
@[simp] theorem stopServing_jlk (s : State) (a : Bool) : (s.stopServing a).jlk = s.jlk := of_calm State.jlk (fun _ => rfl) (calm_stopServing s a)
@[simp] theorem stopServing_bridges (s : State) (a : Bool) : (s.stopServing a).bridges = s.bridges := of_calm State.bridges (fun _ => rfl) (calm_stopServing s a)
@[simp] theorem stopServing_sec (s : State) (a : Bool) : (s.stopServing a).sec = s.sec := of_calm State.sec (fun _ => rfl) (calm_stopServing s a)
@[simp] theorem stopServing_ldc (s : State) (a : Bool) : (s.stopServing a).ldc = s.ldc := of_calm State.ldc (fun _ => rfl) (calm_stopServing s a)
@[simp] theorem stopServing_rbe (s : State) (a : Bool) : (s.stopServing a).rbe = s.rbe := of_calm State.rbe (fun _ => rfl) (calm_stopServing s a)
@[simp] theorem stopServing_rpl (s : State) (a : Bool) : (s.stopServing a).rpl = s.rpl := of_calm State.rpl (fun _ => rfl) (calm_stopServing s a)
@[simp] theorem stopServing_ccl (s : State) (a : Bool) : (s.stopServing a).ccl = s.ccl := of_calm State.ccl (fun _ => rfl) (calm_stopServing s a)
@[simp] theorem stopServing_pwr (s : State) (a : Bool) : (s.stopServing a).pwr = s.pwr := of_calm State.pwr (fun _ => rfl) (calm_stopServing s a)
@[simp] theorem stopServing_mem (s : State) (a : Bool) : (s.stopServing a).mem = s.mem := of_calm State.mem (fun _ => rfl) (calm_stopServing s a)
@[simp] theorem stopServing_flash (s : State) (a : Bool) : (s.stopServing a).flash = s.flash := of_calm State.flash (fun _ => rfl) (calm_stopServing s a)

@[simp] theorem markFenced_pending (s : State) (p u : Nat) : (s.markFenced p u).pending = s.pending := of_calm State.pending (fun _ => rfl) (calm_markFenced s p u)
@[simp] theorem markFenced_caps (s : State) (p u : Nat) : (s.markFenced p u).caps = s.caps := of_calm State.caps (fun _ => rfl) (calm_markFenced s p u)
@[simp] theorem markFenced_shadows (s : State) (p u : Nat) : (s.markFenced p u).shadows = s.shadows := of_calm State.shadows (fun _ => rfl) (calm_markFenced s p u)
@[simp] theorem markFenced_now (s : State) (p u : Nat) : (s.markFenced p u).now = s.now := of_calm State.now (fun _ => rfl) (calm_markFenced s p u)
@[simp] theorem markFenced_pins (s : State) (p u : Nat) : (s.markFenced p u).pins = s.pins := of_calm State.pins (fun _ => rfl) (calm_markFenced s p u)
@[simp] theorem markFenced_fuses (s : State) (p u : Nat) : (s.markFenced p u).fuses = s.fuses := of_calm State.fuses (fun _ => rfl) (calm_markFenced s p u)
@[simp] theorem markFenced_straps (s : State) (p u : Nat) : (s.markFenced p u).straps = s.straps := of_calm State.straps (fun _ => rfl) (calm_markFenced s p u)
@[simp] theorem markFenced_dram (s : State) (p u : Nat) : (s.markFenced p u).dram = s.dram := of_calm State.dram (fun _ => rfl) (calm_markFenced s p u)
@[simp] theorem markFenced_ing (s : State) (p u : Nat) : (s.markFenced p u).ing = s.ing := of_calm State.ing (fun _ => rfl) (calm_markFenced s p u)
@[simp] theorem markFenced_slm (s : State) (p u : Nat) : (s.markFenced p u).slm = s.slm := of_calm State.slm (fun _ => rfl) (calm_markFenced s p u)
@[simp] theorem markFenced_maps (s : State) (p u : Nat) : (s.markFenced p u).maps = s.maps := of_calm State.maps (fun _ => rfl) (calm_markFenced s p u)
@[simp] theorem markFenced_mpe (s : State) (p u : Nat) : (s.markFenced p u).mpe = s.mpe := of_calm State.mpe (fun _ => rfl) (calm_markFenced s p u)
@[simp] theorem markFenced_mpc (s : State) (p u : Nat) : (s.markFenced p u).mpc = s.mpc := of_calm State.mpc (fun _ => rfl) (calm_markFenced s p u)
@[simp] theorem markFenced_sgb (s : State) (p u : Nat) : (s.markFenced p u).sgb = s.sgb := of_calm State.sgb (fun _ => rfl) (calm_markFenced s p u)
@[simp] theorem markFenced_fmm (s : State) (p u : Nat) : (s.markFenced p u).fmm = s.fmm := of_calm State.fmm (fun _ => rfl) (calm_markFenced s p u)
@[simp] theorem markFenced_jlk (s : State) (p u : Nat) : (s.markFenced p u).jlk = s.jlk := of_calm State.jlk (fun _ => rfl) (calm_markFenced s p u)
@[simp] theorem markFenced_bridges (s : State) (p u : Nat) : (s.markFenced p u).bridges = s.bridges := of_calm State.bridges (fun _ => rfl) (calm_markFenced s p u)
@[simp] theorem markFenced_sec (s : State) (p u : Nat) : (s.markFenced p u).sec = s.sec := of_calm State.sec (fun _ => rfl) (calm_markFenced s p u)
@[simp] theorem markFenced_ldc (s : State) (p u : Nat) : (s.markFenced p u).ldc = s.ldc := of_calm State.ldc (fun _ => rfl) (calm_markFenced s p u)
@[simp] theorem markFenced_rbe (s : State) (p u : Nat) : (s.markFenced p u).rbe = s.rbe := of_calm State.rbe (fun _ => rfl) (calm_markFenced s p u)
@[simp] theorem markFenced_rpl (s : State) (p u : Nat) : (s.markFenced p u).rpl = s.rpl := of_calm State.rpl (fun _ => rfl) (calm_markFenced s p u)
@[simp] theorem markFenced_ccl (s : State) (p u : Nat) : (s.markFenced p u).ccl = s.ccl := of_calm State.ccl (fun _ => rfl) (calm_markFenced s p u)
@[simp] theorem markFenced_pwr (s : State) (p u : Nat) : (s.markFenced p u).pwr = s.pwr := of_calm State.pwr (fun _ => rfl) (calm_markFenced s p u)
@[simp] theorem markFenced_mem (s : State) (p u : Nat) : (s.markFenced p u).mem = s.mem := of_calm State.mem (fun _ => rfl) (calm_markFenced s p u)
@[simp] theorem markFenced_flash (s : State) (p u : Nat) : (s.markFenced p u).flash = s.flash := of_calm State.flash (fun _ => rfl) (calm_markFenced s p u)

@[simp] theorem raise_pending (s : State) (p c : Nat) : (s.raise p c).pending = s.pending := of_quiet State.pending (fun _ => rfl) (quiet_raise s p c)
@[simp] theorem raise_caps (s : State) (p c : Nat) : (s.raise p c).caps = s.caps := of_quiet State.caps (fun _ => rfl) (quiet_raise s p c)
@[simp] theorem raise_shadows (s : State) (p c : Nat) : (s.raise p c).shadows = s.shadows := of_quiet State.shadows (fun _ => rfl) (quiet_raise s p c)
@[simp] theorem raise_now (s : State) (p c : Nat) : (s.raise p c).now = s.now := of_quiet State.now (fun _ => rfl) (quiet_raise s p c)
@[simp] theorem raise_fuses (s : State) (p c : Nat) : (s.raise p c).fuses = s.fuses := of_quiet State.fuses (fun _ => rfl) (quiet_raise s p c)
@[simp] theorem raise_straps (s : State) (p c : Nat) : (s.raise p c).straps = s.straps := of_quiet State.straps (fun _ => rfl) (quiet_raise s p c)
@[simp] theorem raise_dram (s : State) (p c : Nat) : (s.raise p c).dram = s.dram := of_quiet State.dram (fun _ => rfl) (quiet_raise s p c)
@[simp] theorem raise_ing (s : State) (p c : Nat) : (s.raise p c).ing = s.ing := of_quiet State.ing (fun _ => rfl) (quiet_raise s p c)
@[simp] theorem raise_slm (s : State) (p c : Nat) : (s.raise p c).slm = s.slm := of_quiet State.slm (fun _ => rfl) (quiet_raise s p c)
@[simp] theorem raise_maps (s : State) (p c : Nat) : (s.raise p c).maps = s.maps := of_quiet State.maps (fun _ => rfl) (quiet_raise s p c)
@[simp] theorem raise_mpe (s : State) (p c : Nat) : (s.raise p c).mpe = s.mpe := of_quiet State.mpe (fun _ => rfl) (quiet_raise s p c)
@[simp] theorem raise_mpc (s : State) (p c : Nat) : (s.raise p c).mpc = s.mpc := of_quiet State.mpc (fun _ => rfl) (quiet_raise s p c)
@[simp] theorem raise_sgb (s : State) (p c : Nat) : (s.raise p c).sgb = s.sgb := of_quiet State.sgb (fun _ => rfl) (quiet_raise s p c)
@[simp] theorem raise_fmm (s : State) (p c : Nat) : (s.raise p c).fmm = s.fmm := of_quiet State.fmm (fun _ => rfl) (quiet_raise s p c)
@[simp] theorem raise_bridges (s : State) (p c : Nat) : (s.raise p c).bridges = s.bridges := of_quiet State.bridges (fun _ => rfl) (quiet_raise s p c)
@[simp] theorem raise_sec (s : State) (p c : Nat) : (s.raise p c).sec = s.sec := of_quiet State.sec (fun _ => rfl) (quiet_raise s p c)
@[simp] theorem raise_ldc (s : State) (p c : Nat) : (s.raise p c).ldc = s.ldc := of_quiet State.ldc (fun _ => rfl) (quiet_raise s p c)
@[simp] theorem raise_rbe (s : State) (p c : Nat) : (s.raise p c).rbe = s.rbe := of_quiet State.rbe (fun _ => rfl) (quiet_raise s p c)
@[simp] theorem raise_rpl (s : State) (p c : Nat) : (s.raise p c).rpl = s.rpl := of_quiet State.rpl (fun _ => rfl) (quiet_raise s p c)
@[simp] theorem raise_ccl (s : State) (p c : Nat) : (s.raise p c).ccl = s.ccl := of_quiet State.ccl (fun _ => rfl) (quiet_raise s p c)
@[simp] theorem raise_pwr (s : State) (p c : Nat) : (s.raise p c).pwr = s.pwr := of_quiet State.pwr (fun _ => rfl) (quiet_raise s p c)
@[simp] theorem raise_mem (s : State) (p c : Nat) : (s.raise p c).mem = s.mem := of_quiet State.mem (fun _ => rfl) (quiet_raise s p c)
@[simp] theorem raise_flash (s : State) (p c : Nat) : (s.raise p c).flash = s.flash := of_quiet State.flash (fun _ => rfl) (quiet_raise s p c)

@[simp] theorem raiseD_pending (s : State) (p c d : Nat) : (s.raiseD p c d).pending = s.pending := of_quiet State.pending (fun _ => rfl) (quiet_raiseD s p c d)
@[simp] theorem raiseD_caps (s : State) (p c d : Nat) : (s.raiseD p c d).caps = s.caps := of_quiet State.caps (fun _ => rfl) (quiet_raiseD s p c d)
@[simp] theorem raiseD_shadows (s : State) (p c d : Nat) : (s.raiseD p c d).shadows = s.shadows := of_quiet State.shadows (fun _ => rfl) (quiet_raiseD s p c d)
@[simp] theorem raiseD_now (s : State) (p c d : Nat) : (s.raiseD p c d).now = s.now := of_quiet State.now (fun _ => rfl) (quiet_raiseD s p c d)
@[simp] theorem raiseD_fuses (s : State) (p c d : Nat) : (s.raiseD p c d).fuses = s.fuses := of_quiet State.fuses (fun _ => rfl) (quiet_raiseD s p c d)
@[simp] theorem raiseD_straps (s : State) (p c d : Nat) : (s.raiseD p c d).straps = s.straps := of_quiet State.straps (fun _ => rfl) (quiet_raiseD s p c d)
@[simp] theorem raiseD_dram (s : State) (p c d : Nat) : (s.raiseD p c d).dram = s.dram := of_quiet State.dram (fun _ => rfl) (quiet_raiseD s p c d)
@[simp] theorem raiseD_ing (s : State) (p c d : Nat) : (s.raiseD p c d).ing = s.ing := of_quiet State.ing (fun _ => rfl) (quiet_raiseD s p c d)
@[simp] theorem raiseD_slm (s : State) (p c d : Nat) : (s.raiseD p c d).slm = s.slm := of_quiet State.slm (fun _ => rfl) (quiet_raiseD s p c d)
@[simp] theorem raiseD_maps (s : State) (p c d : Nat) : (s.raiseD p c d).maps = s.maps := of_quiet State.maps (fun _ => rfl) (quiet_raiseD s p c d)
@[simp] theorem raiseD_mpe (s : State) (p c d : Nat) : (s.raiseD p c d).mpe = s.mpe := of_quiet State.mpe (fun _ => rfl) (quiet_raiseD s p c d)
@[simp] theorem raiseD_mpc (s : State) (p c d : Nat) : (s.raiseD p c d).mpc = s.mpc := of_quiet State.mpc (fun _ => rfl) (quiet_raiseD s p c d)
@[simp] theorem raiseD_sgb (s : State) (p c d : Nat) : (s.raiseD p c d).sgb = s.sgb := of_quiet State.sgb (fun _ => rfl) (quiet_raiseD s p c d)
@[simp] theorem raiseD_fmm (s : State) (p c d : Nat) : (s.raiseD p c d).fmm = s.fmm := of_quiet State.fmm (fun _ => rfl) (quiet_raiseD s p c d)
@[simp] theorem raiseD_bridges (s : State) (p c d : Nat) : (s.raiseD p c d).bridges = s.bridges := of_quiet State.bridges (fun _ => rfl) (quiet_raiseD s p c d)
@[simp] theorem raiseD_sec (s : State) (p c d : Nat) : (s.raiseD p c d).sec = s.sec := of_quiet State.sec (fun _ => rfl) (quiet_raiseD s p c d)
@[simp] theorem raiseD_ldc (s : State) (p c d : Nat) : (s.raiseD p c d).ldc = s.ldc := of_quiet State.ldc (fun _ => rfl) (quiet_raiseD s p c d)
@[simp] theorem raiseD_rbe (s : State) (p c d : Nat) : (s.raiseD p c d).rbe = s.rbe := of_quiet State.rbe (fun _ => rfl) (quiet_raiseD s p c d)
@[simp] theorem raiseD_rpl (s : State) (p c d : Nat) : (s.raiseD p c d).rpl = s.rpl := of_quiet State.rpl (fun _ => rfl) (quiet_raiseD s p c d)
@[simp] theorem raiseD_ccl (s : State) (p c d : Nat) : (s.raiseD p c d).ccl = s.ccl := of_quiet State.ccl (fun _ => rfl) (quiet_raiseD s p c d)
@[simp] theorem raiseD_pwr (s : State) (p c d : Nat) : (s.raiseD p c d).pwr = s.pwr := of_quiet State.pwr (fun _ => rfl) (quiet_raiseD s p c d)
@[simp] theorem raiseD_mem (s : State) (p c d : Nat) : (s.raiseD p c d).mem = s.mem := of_quiet State.mem (fun _ => rfl) (quiet_raiseD s p c d)
@[simp] theorem raiseD_flash (s : State) (p c d : Nat) : (s.raiseD p c d).flash = s.flash := of_quiet State.flash (fun _ => rfl) (quiet_raiseD s p c d)

@[simp] theorem raiseU_pending (s : State) (p c u : Nat) : (s.raiseU p c u).pending = s.pending := of_quiet State.pending (fun _ => rfl) (quiet_raiseU s p c u)
@[simp] theorem raiseU_caps (s : State) (p c u : Nat) : (s.raiseU p c u).caps = s.caps := of_quiet State.caps (fun _ => rfl) (quiet_raiseU s p c u)
@[simp] theorem raiseU_shadows (s : State) (p c u : Nat) : (s.raiseU p c u).shadows = s.shadows := of_quiet State.shadows (fun _ => rfl) (quiet_raiseU s p c u)
@[simp] theorem raiseU_now (s : State) (p c u : Nat) : (s.raiseU p c u).now = s.now := of_quiet State.now (fun _ => rfl) (quiet_raiseU s p c u)
@[simp] theorem raiseU_fuses (s : State) (p c u : Nat) : (s.raiseU p c u).fuses = s.fuses := of_quiet State.fuses (fun _ => rfl) (quiet_raiseU s p c u)
@[simp] theorem raiseU_straps (s : State) (p c u : Nat) : (s.raiseU p c u).straps = s.straps := of_quiet State.straps (fun _ => rfl) (quiet_raiseU s p c u)
@[simp] theorem raiseU_dram (s : State) (p c u : Nat) : (s.raiseU p c u).dram = s.dram := of_quiet State.dram (fun _ => rfl) (quiet_raiseU s p c u)
@[simp] theorem raiseU_ing (s : State) (p c u : Nat) : (s.raiseU p c u).ing = s.ing := of_quiet State.ing (fun _ => rfl) (quiet_raiseU s p c u)
@[simp] theorem raiseU_slm (s : State) (p c u : Nat) : (s.raiseU p c u).slm = s.slm := of_quiet State.slm (fun _ => rfl) (quiet_raiseU s p c u)
@[simp] theorem raiseU_maps (s : State) (p c u : Nat) : (s.raiseU p c u).maps = s.maps := of_quiet State.maps (fun _ => rfl) (quiet_raiseU s p c u)
@[simp] theorem raiseU_mpe (s : State) (p c u : Nat) : (s.raiseU p c u).mpe = s.mpe := of_quiet State.mpe (fun _ => rfl) (quiet_raiseU s p c u)
@[simp] theorem raiseU_mpc (s : State) (p c u : Nat) : (s.raiseU p c u).mpc = s.mpc := of_quiet State.mpc (fun _ => rfl) (quiet_raiseU s p c u)
@[simp] theorem raiseU_sgb (s : State) (p c u : Nat) : (s.raiseU p c u).sgb = s.sgb := of_quiet State.sgb (fun _ => rfl) (quiet_raiseU s p c u)
@[simp] theorem raiseU_fmm (s : State) (p c u : Nat) : (s.raiseU p c u).fmm = s.fmm := of_quiet State.fmm (fun _ => rfl) (quiet_raiseU s p c u)
@[simp] theorem raiseU_bridges (s : State) (p c u : Nat) : (s.raiseU p c u).bridges = s.bridges := of_quiet State.bridges (fun _ => rfl) (quiet_raiseU s p c u)
@[simp] theorem raiseU_sec (s : State) (p c u : Nat) : (s.raiseU p c u).sec = s.sec := of_quiet State.sec (fun _ => rfl) (quiet_raiseU s p c u)
@[simp] theorem raiseU_ldc (s : State) (p c u : Nat) : (s.raiseU p c u).ldc = s.ldc := of_quiet State.ldc (fun _ => rfl) (quiet_raiseU s p c u)
@[simp] theorem raiseU_rbe (s : State) (p c u : Nat) : (s.raiseU p c u).rbe = s.rbe := of_quiet State.rbe (fun _ => rfl) (quiet_raiseU s p c u)
@[simp] theorem raiseU_rpl (s : State) (p c u : Nat) : (s.raiseU p c u).rpl = s.rpl := of_quiet State.rpl (fun _ => rfl) (quiet_raiseU s p c u)
@[simp] theorem raiseU_ccl (s : State) (p c u : Nat) : (s.raiseU p c u).ccl = s.ccl := of_quiet State.ccl (fun _ => rfl) (quiet_raiseU s p c u)
@[simp] theorem raiseU_pwr (s : State) (p c u : Nat) : (s.raiseU p c u).pwr = s.pwr := of_quiet State.pwr (fun _ => rfl) (quiet_raiseU s p c u)
@[simp] theorem raiseU_mem (s : State) (p c u : Nat) : (s.raiseU p c u).mem = s.mem := of_quiet State.mem (fun _ => rfl) (quiet_raiseU s p c u)
@[simp] theorem raiseU_flash (s : State) (p c u : Nat) : (s.raiseU p c u).flash = s.flash := of_quiet State.flash (fun _ => rfl) (quiet_raiseU s p c u)

@[simp] theorem occur_pending (s : State) (x : Occ) : (s.occur x).pending = s.pending := of_quiet State.pending (fun _ => rfl) (quiet_occur s x)
@[simp] theorem occur_caps (s : State) (x : Occ) : (s.occur x).caps = s.caps := of_quiet State.caps (fun _ => rfl) (quiet_occur s x)
@[simp] theorem occur_shadows (s : State) (x : Occ) : (s.occur x).shadows = s.shadows := of_quiet State.shadows (fun _ => rfl) (quiet_occur s x)
@[simp] theorem occur_now (s : State) (x : Occ) : (s.occur x).now = s.now := of_quiet State.now (fun _ => rfl) (quiet_occur s x)
@[simp] theorem occur_fuses (s : State) (x : Occ) : (s.occur x).fuses = s.fuses := of_quiet State.fuses (fun _ => rfl) (quiet_occur s x)
@[simp] theorem occur_straps (s : State) (x : Occ) : (s.occur x).straps = s.straps := of_quiet State.straps (fun _ => rfl) (quiet_occur s x)
@[simp] theorem occur_dram (s : State) (x : Occ) : (s.occur x).dram = s.dram := of_quiet State.dram (fun _ => rfl) (quiet_occur s x)
@[simp] theorem occur_ing (s : State) (x : Occ) : (s.occur x).ing = s.ing := of_quiet State.ing (fun _ => rfl) (quiet_occur s x)
@[simp] theorem occur_slm (s : State) (x : Occ) : (s.occur x).slm = s.slm := of_quiet State.slm (fun _ => rfl) (quiet_occur s x)
@[simp] theorem occur_maps (s : State) (x : Occ) : (s.occur x).maps = s.maps := of_quiet State.maps (fun _ => rfl) (quiet_occur s x)
@[simp] theorem occur_mpe (s : State) (x : Occ) : (s.occur x).mpe = s.mpe := of_quiet State.mpe (fun _ => rfl) (quiet_occur s x)
@[simp] theorem occur_mpc (s : State) (x : Occ) : (s.occur x).mpc = s.mpc := of_quiet State.mpc (fun _ => rfl) (quiet_occur s x)
@[simp] theorem occur_sgb (s : State) (x : Occ) : (s.occur x).sgb = s.sgb := of_quiet State.sgb (fun _ => rfl) (quiet_occur s x)
@[simp] theorem occur_fmm (s : State) (x : Occ) : (s.occur x).fmm = s.fmm := of_quiet State.fmm (fun _ => rfl) (quiet_occur s x)
@[simp] theorem occur_bridges (s : State) (x : Occ) : (s.occur x).bridges = s.bridges := of_quiet State.bridges (fun _ => rfl) (quiet_occur s x)
@[simp] theorem occur_sec (s : State) (x : Occ) : (s.occur x).sec = s.sec := of_quiet State.sec (fun _ => rfl) (quiet_occur s x)
@[simp] theorem occur_ldc (s : State) (x : Occ) : (s.occur x).ldc = s.ldc := of_quiet State.ldc (fun _ => rfl) (quiet_occur s x)
@[simp] theorem occur_rbe (s : State) (x : Occ) : (s.occur x).rbe = s.rbe := of_quiet State.rbe (fun _ => rfl) (quiet_occur s x)
@[simp] theorem occur_rpl (s : State) (x : Occ) : (s.occur x).rpl = s.rpl := of_quiet State.rpl (fun _ => rfl) (quiet_occur s x)
@[simp] theorem occur_ccl (s : State) (x : Occ) : (s.occur x).ccl = s.ccl := of_quiet State.ccl (fun _ => rfl) (quiet_occur s x)
@[simp] theorem occur_pwr (s : State) (x : Occ) : (s.occur x).pwr = s.pwr := of_quiet State.pwr (fun _ => rfl) (quiet_occur s x)
@[simp] theorem occur_mem (s : State) (x : Occ) : (s.occur x).mem = s.mem := of_quiet State.mem (fun _ => rfl) (quiet_occur s x)
@[simp] theorem occur_flash (s : State) (x : Occ) : (s.occur x).flash = s.flash := of_quiet State.flash (fun _ => rfl) (quiet_occur s x)

@[simp] theorem event_pending (s : State) (p : Nat) : (s.event p).pending = s.pending := of_quiet State.pending (fun _ => rfl) (quiet_event s p)
@[simp] theorem event_caps (s : State) (p : Nat) : (s.event p).caps = s.caps := of_quiet State.caps (fun _ => rfl) (quiet_event s p)
@[simp] theorem event_shadows (s : State) (p : Nat) : (s.event p).shadows = s.shadows := of_quiet State.shadows (fun _ => rfl) (quiet_event s p)
@[simp] theorem event_now (s : State) (p : Nat) : (s.event p).now = s.now := of_quiet State.now (fun _ => rfl) (quiet_event s p)
@[simp] theorem event_fuses (s : State) (p : Nat) : (s.event p).fuses = s.fuses := of_quiet State.fuses (fun _ => rfl) (quiet_event s p)
@[simp] theorem event_straps (s : State) (p : Nat) : (s.event p).straps = s.straps := of_quiet State.straps (fun _ => rfl) (quiet_event s p)
@[simp] theorem event_dram (s : State) (p : Nat) : (s.event p).dram = s.dram := of_quiet State.dram (fun _ => rfl) (quiet_event s p)
@[simp] theorem event_ing (s : State) (p : Nat) : (s.event p).ing = s.ing := of_quiet State.ing (fun _ => rfl) (quiet_event s p)
@[simp] theorem event_slm (s : State) (p : Nat) : (s.event p).slm = s.slm := of_quiet State.slm (fun _ => rfl) (quiet_event s p)
@[simp] theorem event_maps (s : State) (p : Nat) : (s.event p).maps = s.maps := of_quiet State.maps (fun _ => rfl) (quiet_event s p)
@[simp] theorem event_mpe (s : State) (p : Nat) : (s.event p).mpe = s.mpe := of_quiet State.mpe (fun _ => rfl) (quiet_event s p)
@[simp] theorem event_mpc (s : State) (p : Nat) : (s.event p).mpc = s.mpc := of_quiet State.mpc (fun _ => rfl) (quiet_event s p)
@[simp] theorem event_sgb (s : State) (p : Nat) : (s.event p).sgb = s.sgb := of_quiet State.sgb (fun _ => rfl) (quiet_event s p)
@[simp] theorem event_fmm (s : State) (p : Nat) : (s.event p).fmm = s.fmm := of_quiet State.fmm (fun _ => rfl) (quiet_event s p)
@[simp] theorem event_bridges (s : State) (p : Nat) : (s.event p).bridges = s.bridges := of_quiet State.bridges (fun _ => rfl) (quiet_event s p)
@[simp] theorem event_sec (s : State) (p : Nat) : (s.event p).sec = s.sec := of_quiet State.sec (fun _ => rfl) (quiet_event s p)
@[simp] theorem event_ldc (s : State) (p : Nat) : (s.event p).ldc = s.ldc := of_quiet State.ldc (fun _ => rfl) (quiet_event s p)
@[simp] theorem event_rbe (s : State) (p : Nat) : (s.event p).rbe = s.rbe := of_quiet State.rbe (fun _ => rfl) (quiet_event s p)
@[simp] theorem event_rpl (s : State) (p : Nat) : (s.event p).rpl = s.rpl := of_quiet State.rpl (fun _ => rfl) (quiet_event s p)
@[simp] theorem event_ccl (s : State) (p : Nat) : (s.event p).ccl = s.ccl := of_quiet State.ccl (fun _ => rfl) (quiet_event s p)
@[simp] theorem event_pwr (s : State) (p : Nat) : (s.event p).pwr = s.pwr := of_quiet State.pwr (fun _ => rfl) (quiet_event s p)
@[simp] theorem event_mem (s : State) (p : Nat) : (s.event p).mem = s.mem := of_quiet State.mem (fun _ => rfl) (quiet_event s p)
@[simp] theorem event_flash (s : State) (p : Nat) : (s.event p).flash = s.flash := of_quiet State.flash (fun _ => rfl) (quiet_event s p)

@[simp] theorem enter_pending (s : State) (m : Sys2Proof.Mode) (c : Nat) : (s.enter m c).pending = s.pending := of_quiet State.pending (fun _ => rfl) (quiet_enter s m c)
@[simp] theorem enter_caps (s : State) (m : Sys2Proof.Mode) (c : Nat) : (s.enter m c).caps = s.caps := of_quiet State.caps (fun _ => rfl) (quiet_enter s m c)
@[simp] theorem enter_shadows (s : State) (m : Sys2Proof.Mode) (c : Nat) : (s.enter m c).shadows = s.shadows := of_quiet State.shadows (fun _ => rfl) (quiet_enter s m c)
@[simp] theorem enter_now (s : State) (m : Sys2Proof.Mode) (c : Nat) : (s.enter m c).now = s.now := of_quiet State.now (fun _ => rfl) (quiet_enter s m c)
@[simp] theorem enter_fuses (s : State) (m : Sys2Proof.Mode) (c : Nat) : (s.enter m c).fuses = s.fuses := of_quiet State.fuses (fun _ => rfl) (quiet_enter s m c)
@[simp] theorem enter_straps (s : State) (m : Sys2Proof.Mode) (c : Nat) : (s.enter m c).straps = s.straps := of_quiet State.straps (fun _ => rfl) (quiet_enter s m c)
@[simp] theorem enter_dram (s : State) (m : Sys2Proof.Mode) (c : Nat) : (s.enter m c).dram = s.dram := of_quiet State.dram (fun _ => rfl) (quiet_enter s m c)
@[simp] theorem enter_ing (s : State) (m : Sys2Proof.Mode) (c : Nat) : (s.enter m c).ing = s.ing := of_quiet State.ing (fun _ => rfl) (quiet_enter s m c)
@[simp] theorem enter_slm (s : State) (m : Sys2Proof.Mode) (c : Nat) : (s.enter m c).slm = s.slm := of_quiet State.slm (fun _ => rfl) (quiet_enter s m c)
@[simp] theorem enter_maps (s : State) (m : Sys2Proof.Mode) (c : Nat) : (s.enter m c).maps = s.maps := of_quiet State.maps (fun _ => rfl) (quiet_enter s m c)
@[simp] theorem enter_mpe (s : State) (m : Sys2Proof.Mode) (c : Nat) : (s.enter m c).mpe = s.mpe := of_quiet State.mpe (fun _ => rfl) (quiet_enter s m c)
@[simp] theorem enter_mpc (s : State) (m : Sys2Proof.Mode) (c : Nat) : (s.enter m c).mpc = s.mpc := of_quiet State.mpc (fun _ => rfl) (quiet_enter s m c)
@[simp] theorem enter_sgb (s : State) (m : Sys2Proof.Mode) (c : Nat) : (s.enter m c).sgb = s.sgb := of_quiet State.sgb (fun _ => rfl) (quiet_enter s m c)
@[simp] theorem enter_fmm (s : State) (m : Sys2Proof.Mode) (c : Nat) : (s.enter m c).fmm = s.fmm := of_quiet State.fmm (fun _ => rfl) (quiet_enter s m c)
@[simp] theorem enter_bridges (s : State) (m : Sys2Proof.Mode) (c : Nat) : (s.enter m c).bridges = s.bridges := of_quiet State.bridges (fun _ => rfl) (quiet_enter s m c)
@[simp] theorem enter_sec (s : State) (m : Sys2Proof.Mode) (c : Nat) : (s.enter m c).sec = s.sec := of_quiet State.sec (fun _ => rfl) (quiet_enter s m c)
@[simp] theorem enter_ldc (s : State) (m : Sys2Proof.Mode) (c : Nat) : (s.enter m c).ldc = s.ldc := of_quiet State.ldc (fun _ => rfl) (quiet_enter s m c)
@[simp] theorem enter_rbe (s : State) (m : Sys2Proof.Mode) (c : Nat) : (s.enter m c).rbe = s.rbe := of_quiet State.rbe (fun _ => rfl) (quiet_enter s m c)
@[simp] theorem enter_rpl (s : State) (m : Sys2Proof.Mode) (c : Nat) : (s.enter m c).rpl = s.rpl := of_quiet State.rpl (fun _ => rfl) (quiet_enter s m c)
@[simp] theorem enter_ccl (s : State) (m : Sys2Proof.Mode) (c : Nat) : (s.enter m c).ccl = s.ccl := of_quiet State.ccl (fun _ => rfl) (quiet_enter s m c)
@[simp] theorem enter_pwr (s : State) (m : Sys2Proof.Mode) (c : Nat) : (s.enter m c).pwr = s.pwr := of_quiet State.pwr (fun _ => rfl) (quiet_enter s m c)
@[simp] theorem enter_mem (s : State) (m : Sys2Proof.Mode) (c : Nat) : (s.enter m c).mem = s.mem := of_quiet State.mem (fun _ => rfl) (quiet_enter s m c)
@[simp] theorem enter_flash (s : State) (m : Sys2Proof.Mode) (c : Nat) : (s.enter m c).flash = s.flash := of_quiet State.flash (fun _ => rfl) (quiet_enter s m c)

@[simp] theorem leave_pending (s : State) (c : Nat) : (s.leave c).pending = s.pending := of_quiet State.pending (fun _ => rfl) (quiet_leave s c)
@[simp] theorem leave_caps (s : State) (c : Nat) : (s.leave c).caps = s.caps := of_quiet State.caps (fun _ => rfl) (quiet_leave s c)
@[simp] theorem leave_shadows (s : State) (c : Nat) : (s.leave c).shadows = s.shadows := of_quiet State.shadows (fun _ => rfl) (quiet_leave s c)
@[simp] theorem leave_now (s : State) (c : Nat) : (s.leave c).now = s.now := of_quiet State.now (fun _ => rfl) (quiet_leave s c)
@[simp] theorem leave_fuses (s : State) (c : Nat) : (s.leave c).fuses = s.fuses := of_quiet State.fuses (fun _ => rfl) (quiet_leave s c)
@[simp] theorem leave_straps (s : State) (c : Nat) : (s.leave c).straps = s.straps := of_quiet State.straps (fun _ => rfl) (quiet_leave s c)
@[simp] theorem leave_dram (s : State) (c : Nat) : (s.leave c).dram = s.dram := of_quiet State.dram (fun _ => rfl) (quiet_leave s c)
@[simp] theorem leave_ing (s : State) (c : Nat) : (s.leave c).ing = s.ing := of_quiet State.ing (fun _ => rfl) (quiet_leave s c)
@[simp] theorem leave_slm (s : State) (c : Nat) : (s.leave c).slm = s.slm := of_quiet State.slm (fun _ => rfl) (quiet_leave s c)
@[simp] theorem leave_maps (s : State) (c : Nat) : (s.leave c).maps = s.maps := of_quiet State.maps (fun _ => rfl) (quiet_leave s c)
@[simp] theorem leave_mpe (s : State) (c : Nat) : (s.leave c).mpe = s.mpe := of_quiet State.mpe (fun _ => rfl) (quiet_leave s c)
@[simp] theorem leave_mpc (s : State) (c : Nat) : (s.leave c).mpc = s.mpc := of_quiet State.mpc (fun _ => rfl) (quiet_leave s c)
@[simp] theorem leave_sgb (s : State) (c : Nat) : (s.leave c).sgb = s.sgb := of_quiet State.sgb (fun _ => rfl) (quiet_leave s c)
@[simp] theorem leave_fmm (s : State) (c : Nat) : (s.leave c).fmm = s.fmm := of_quiet State.fmm (fun _ => rfl) (quiet_leave s c)
@[simp] theorem leave_bridges (s : State) (c : Nat) : (s.leave c).bridges = s.bridges := of_quiet State.bridges (fun _ => rfl) (quiet_leave s c)
@[simp] theorem leave_sec (s : State) (c : Nat) : (s.leave c).sec = s.sec := of_quiet State.sec (fun _ => rfl) (quiet_leave s c)
@[simp] theorem leave_ldc (s : State) (c : Nat) : (s.leave c).ldc = s.ldc := of_quiet State.ldc (fun _ => rfl) (quiet_leave s c)
@[simp] theorem leave_rbe (s : State) (c : Nat) : (s.leave c).rbe = s.rbe := of_quiet State.rbe (fun _ => rfl) (quiet_leave s c)
@[simp] theorem leave_rpl (s : State) (c : Nat) : (s.leave c).rpl = s.rpl := of_quiet State.rpl (fun _ => rfl) (quiet_leave s c)
@[simp] theorem leave_ccl (s : State) (c : Nat) : (s.leave c).ccl = s.ccl := of_quiet State.ccl (fun _ => rfl) (quiet_leave s c)
@[simp] theorem leave_pwr (s : State) (c : Nat) : (s.leave c).pwr = s.pwr := of_quiet State.pwr (fun _ => rfl) (quiet_leave s c)
@[simp] theorem leave_mem (s : State) (c : Nat) : (s.leave c).mem = s.mem := of_quiet State.mem (fun _ => rfl) (quiet_leave s c)
@[simp] theorem leave_flash (s : State) (c : Nat) : (s.leave c).flash = s.flash := of_quiet State.flash (fun _ => rfl) (quiet_leave s c)

@[simp] theorem fence_pending (s : State) (p u : Nat) : (s.fence p u).pending = s.pending := of_quiet State.pending (fun _ => rfl) (quiet_fence s p u)
@[simp] theorem fence_caps (s : State) (p u : Nat) : (s.fence p u).caps = s.caps := of_quiet State.caps (fun _ => rfl) (quiet_fence s p u)
@[simp] theorem fence_shadows (s : State) (p u : Nat) : (s.fence p u).shadows = s.shadows := of_quiet State.shadows (fun _ => rfl) (quiet_fence s p u)
@[simp] theorem fence_now (s : State) (p u : Nat) : (s.fence p u).now = s.now := of_quiet State.now (fun _ => rfl) (quiet_fence s p u)
@[simp] theorem fence_fuses (s : State) (p u : Nat) : (s.fence p u).fuses = s.fuses := of_quiet State.fuses (fun _ => rfl) (quiet_fence s p u)
@[simp] theorem fence_straps (s : State) (p u : Nat) : (s.fence p u).straps = s.straps := of_quiet State.straps (fun _ => rfl) (quiet_fence s p u)
@[simp] theorem fence_dram (s : State) (p u : Nat) : (s.fence p u).dram = s.dram := of_quiet State.dram (fun _ => rfl) (quiet_fence s p u)
@[simp] theorem fence_ing (s : State) (p u : Nat) : (s.fence p u).ing = s.ing := of_quiet State.ing (fun _ => rfl) (quiet_fence s p u)
@[simp] theorem fence_slm (s : State) (p u : Nat) : (s.fence p u).slm = s.slm := of_quiet State.slm (fun _ => rfl) (quiet_fence s p u)
@[simp] theorem fence_maps (s : State) (p u : Nat) : (s.fence p u).maps = s.maps := of_quiet State.maps (fun _ => rfl) (quiet_fence s p u)
@[simp] theorem fence_mpe (s : State) (p u : Nat) : (s.fence p u).mpe = s.mpe := of_quiet State.mpe (fun _ => rfl) (quiet_fence s p u)
@[simp] theorem fence_mpc (s : State) (p u : Nat) : (s.fence p u).mpc = s.mpc := of_quiet State.mpc (fun _ => rfl) (quiet_fence s p u)
@[simp] theorem fence_sgb (s : State) (p u : Nat) : (s.fence p u).sgb = s.sgb := of_quiet State.sgb (fun _ => rfl) (quiet_fence s p u)
@[simp] theorem fence_fmm (s : State) (p u : Nat) : (s.fence p u).fmm = s.fmm := of_quiet State.fmm (fun _ => rfl) (quiet_fence s p u)
@[simp] theorem fence_bridges (s : State) (p u : Nat) : (s.fence p u).bridges = s.bridges := of_quiet State.bridges (fun _ => rfl) (quiet_fence s p u)
@[simp] theorem fence_sec (s : State) (p u : Nat) : (s.fence p u).sec = s.sec := of_quiet State.sec (fun _ => rfl) (quiet_fence s p u)
@[simp] theorem fence_ldc (s : State) (p u : Nat) : (s.fence p u).ldc = s.ldc := of_quiet State.ldc (fun _ => rfl) (quiet_fence s p u)
@[simp] theorem fence_rbe (s : State) (p u : Nat) : (s.fence p u).rbe = s.rbe := of_quiet State.rbe (fun _ => rfl) (quiet_fence s p u)
@[simp] theorem fence_rpl (s : State) (p u : Nat) : (s.fence p u).rpl = s.rpl := of_quiet State.rpl (fun _ => rfl) (quiet_fence s p u)
@[simp] theorem fence_ccl (s : State) (p u : Nat) : (s.fence p u).ccl = s.ccl := of_quiet State.ccl (fun _ => rfl) (quiet_fence s p u)
@[simp] theorem fence_pwr (s : State) (p u : Nat) : (s.fence p u).pwr = s.pwr := of_quiet State.pwr (fun _ => rfl) (quiet_fence s p u)
@[simp] theorem fence_mem (s : State) (p u : Nat) : (s.fence p u).mem = s.mem := of_quiet State.mem (fun _ => rfl) (quiet_fence s p u)
@[simp] theorem fence_flash (s : State) (p u : Nat) : (s.fence p u).flash = s.flash := of_quiet State.flash (fun _ => rfl) (quiet_fence s p u)

@[simp] theorem joinRefuse_pending (s : State) (r : Nat) : (s.joinRefuse r).pending = s.pending := of_quiet State.pending (fun _ => rfl) (quiet_joinRefuse s r)
@[simp] theorem joinRefuse_caps (s : State) (r : Nat) : (s.joinRefuse r).caps = s.caps := of_quiet State.caps (fun _ => rfl) (quiet_joinRefuse s r)
@[simp] theorem joinRefuse_shadows (s : State) (r : Nat) : (s.joinRefuse r).shadows = s.shadows := of_quiet State.shadows (fun _ => rfl) (quiet_joinRefuse s r)
@[simp] theorem joinRefuse_now (s : State) (r : Nat) : (s.joinRefuse r).now = s.now := of_quiet State.now (fun _ => rfl) (quiet_joinRefuse s r)
@[simp] theorem joinRefuse_fuses (s : State) (r : Nat) : (s.joinRefuse r).fuses = s.fuses := of_quiet State.fuses (fun _ => rfl) (quiet_joinRefuse s r)
@[simp] theorem joinRefuse_straps (s : State) (r : Nat) : (s.joinRefuse r).straps = s.straps := of_quiet State.straps (fun _ => rfl) (quiet_joinRefuse s r)
@[simp] theorem joinRefuse_dram (s : State) (r : Nat) : (s.joinRefuse r).dram = s.dram := of_quiet State.dram (fun _ => rfl) (quiet_joinRefuse s r)
@[simp] theorem joinRefuse_ing (s : State) (r : Nat) : (s.joinRefuse r).ing = s.ing := of_quiet State.ing (fun _ => rfl) (quiet_joinRefuse s r)
@[simp] theorem joinRefuse_slm (s : State) (r : Nat) : (s.joinRefuse r).slm = s.slm := of_quiet State.slm (fun _ => rfl) (quiet_joinRefuse s r)
@[simp] theorem joinRefuse_maps (s : State) (r : Nat) : (s.joinRefuse r).maps = s.maps := of_quiet State.maps (fun _ => rfl) (quiet_joinRefuse s r)
@[simp] theorem joinRefuse_mpe (s : State) (r : Nat) : (s.joinRefuse r).mpe = s.mpe := of_quiet State.mpe (fun _ => rfl) (quiet_joinRefuse s r)
@[simp] theorem joinRefuse_mpc (s : State) (r : Nat) : (s.joinRefuse r).mpc = s.mpc := of_quiet State.mpc (fun _ => rfl) (quiet_joinRefuse s r)
@[simp] theorem joinRefuse_sgb (s : State) (r : Nat) : (s.joinRefuse r).sgb = s.sgb := of_quiet State.sgb (fun _ => rfl) (quiet_joinRefuse s r)
@[simp] theorem joinRefuse_fmm (s : State) (r : Nat) : (s.joinRefuse r).fmm = s.fmm := of_quiet State.fmm (fun _ => rfl) (quiet_joinRefuse s r)
@[simp] theorem joinRefuse_bridges (s : State) (r : Nat) : (s.joinRefuse r).bridges = s.bridges := of_quiet State.bridges (fun _ => rfl) (quiet_joinRefuse s r)
@[simp] theorem joinRefuse_sec (s : State) (r : Nat) : (s.joinRefuse r).sec = s.sec := of_quiet State.sec (fun _ => rfl) (quiet_joinRefuse s r)
@[simp] theorem joinRefuse_ldc (s : State) (r : Nat) : (s.joinRefuse r).ldc = s.ldc := of_quiet State.ldc (fun _ => rfl) (quiet_joinRefuse s r)
@[simp] theorem joinRefuse_rbe (s : State) (r : Nat) : (s.joinRefuse r).rbe = s.rbe := of_quiet State.rbe (fun _ => rfl) (quiet_joinRefuse s r)
@[simp] theorem joinRefuse_rpl (s : State) (r : Nat) : (s.joinRefuse r).rpl = s.rpl := of_quiet State.rpl (fun _ => rfl) (quiet_joinRefuse s r)
@[simp] theorem joinRefuse_ccl (s : State) (r : Nat) : (s.joinRefuse r).ccl = s.ccl := of_quiet State.ccl (fun _ => rfl) (quiet_joinRefuse s r)
@[simp] theorem joinRefuse_pwr (s : State) (r : Nat) : (s.joinRefuse r).pwr = s.pwr := of_quiet State.pwr (fun _ => rfl) (quiet_joinRefuse s r)
@[simp] theorem joinRefuse_mem (s : State) (r : Nat) : (s.joinRefuse r).mem = s.mem := of_quiet State.mem (fun _ => rfl) (quiet_joinRefuse s r)
@[simp] theorem joinRefuse_flash (s : State) (r : Nat) : (s.joinRefuse r).flash = s.flash := of_quiet State.flash (fun _ => rfl) (quiet_joinRefuse s r)

@[simp] theorem syncErrLine_pending (s : State) (p : Nat) : (s.syncErrLine p).pending = s.pending := of_quiet State.pending (fun _ => rfl) (quiet_syncErrLine s p)
@[simp] theorem syncErrLine_caps (s : State) (p : Nat) : (s.syncErrLine p).caps = s.caps := of_quiet State.caps (fun _ => rfl) (quiet_syncErrLine s p)
@[simp] theorem syncErrLine_shadows (s : State) (p : Nat) : (s.syncErrLine p).shadows = s.shadows := of_quiet State.shadows (fun _ => rfl) (quiet_syncErrLine s p)
@[simp] theorem syncErrLine_now (s : State) (p : Nat) : (s.syncErrLine p).now = s.now := of_quiet State.now (fun _ => rfl) (quiet_syncErrLine s p)
@[simp] theorem syncErrLine_fuses (s : State) (p : Nat) : (s.syncErrLine p).fuses = s.fuses := of_quiet State.fuses (fun _ => rfl) (quiet_syncErrLine s p)
@[simp] theorem syncErrLine_straps (s : State) (p : Nat) : (s.syncErrLine p).straps = s.straps := of_quiet State.straps (fun _ => rfl) (quiet_syncErrLine s p)
@[simp] theorem syncErrLine_dram (s : State) (p : Nat) : (s.syncErrLine p).dram = s.dram := of_quiet State.dram (fun _ => rfl) (quiet_syncErrLine s p)
@[simp] theorem syncErrLine_ing (s : State) (p : Nat) : (s.syncErrLine p).ing = s.ing := of_quiet State.ing (fun _ => rfl) (quiet_syncErrLine s p)
@[simp] theorem syncErrLine_slm (s : State) (p : Nat) : (s.syncErrLine p).slm = s.slm := of_quiet State.slm (fun _ => rfl) (quiet_syncErrLine s p)
@[simp] theorem syncErrLine_maps (s : State) (p : Nat) : (s.syncErrLine p).maps = s.maps := of_quiet State.maps (fun _ => rfl) (quiet_syncErrLine s p)
@[simp] theorem syncErrLine_mpe (s : State) (p : Nat) : (s.syncErrLine p).mpe = s.mpe := of_quiet State.mpe (fun _ => rfl) (quiet_syncErrLine s p)
@[simp] theorem syncErrLine_mpc (s : State) (p : Nat) : (s.syncErrLine p).mpc = s.mpc := of_quiet State.mpc (fun _ => rfl) (quiet_syncErrLine s p)
@[simp] theorem syncErrLine_sgb (s : State) (p : Nat) : (s.syncErrLine p).sgb = s.sgb := of_quiet State.sgb (fun _ => rfl) (quiet_syncErrLine s p)
@[simp] theorem syncErrLine_fmm (s : State) (p : Nat) : (s.syncErrLine p).fmm = s.fmm := of_quiet State.fmm (fun _ => rfl) (quiet_syncErrLine s p)
@[simp] theorem syncErrLine_bridges (s : State) (p : Nat) : (s.syncErrLine p).bridges = s.bridges := of_quiet State.bridges (fun _ => rfl) (quiet_syncErrLine s p)
@[simp] theorem syncErrLine_sec (s : State) (p : Nat) : (s.syncErrLine p).sec = s.sec := of_quiet State.sec (fun _ => rfl) (quiet_syncErrLine s p)
@[simp] theorem syncErrLine_ldc (s : State) (p : Nat) : (s.syncErrLine p).ldc = s.ldc := of_quiet State.ldc (fun _ => rfl) (quiet_syncErrLine s p)
@[simp] theorem syncErrLine_rbe (s : State) (p : Nat) : (s.syncErrLine p).rbe = s.rbe := of_quiet State.rbe (fun _ => rfl) (quiet_syncErrLine s p)
@[simp] theorem syncErrLine_rpl (s : State) (p : Nat) : (s.syncErrLine p).rpl = s.rpl := of_quiet State.rpl (fun _ => rfl) (quiet_syncErrLine s p)
@[simp] theorem syncErrLine_ccl (s : State) (p : Nat) : (s.syncErrLine p).ccl = s.ccl := of_quiet State.ccl (fun _ => rfl) (quiet_syncErrLine s p)
@[simp] theorem syncErrLine_pwr (s : State) (p : Nat) : (s.syncErrLine p).pwr = s.pwr := of_quiet State.pwr (fun _ => rfl) (quiet_syncErrLine s p)
@[simp] theorem syncErrLine_mem (s : State) (p : Nat) : (s.syncErrLine p).mem = s.mem := of_quiet State.mem (fun _ => rfl) (quiet_syncErrLine s p)
@[simp] theorem syncErrLine_flash (s : State) (p : Nat) : (s.syncErrLine p).flash = s.flash := of_quiet State.flash (fun _ => rfl) (quiet_syncErrLine s p)

end Sys2Proof.Laws
end

