-- ==== Sys2Proof/Laws/Views.lean ====
section
/-! SUPPORT. What a read shows does not depend on 64-bit captures and shadows. -/
namespace Sys2Proof.Laws
open Sys2Proof Sys2Proof.Machine

/-- A state with other captures and shadows. -/
def withHeld (s : State) (c d : AMap (Nat × Word)) : State := { s with caps := c, shadows := d }

variable (s : State) (c d : AMap (Nat × Word))

theorem withHeld_word (a : Nat) : (withHeld s c d).word a = s.word a := rfl

theorem withHeld_words (a k : Nat) : (withHeld s c d).words a k = s.words a k := by
  induction k generalizing a with
  | zero => rfl
  | succ k ih => simp only [State.words, ih, withHeld_word]

theorem withHeld_rf (f : Fld) : (withHeld s c d).rf f = s.rf f := by simp only [State.rf, withHeld_words]

theorem withHeld_flag (f : Fld) : (withHeld s c d).flag f = s.flag f := by simp only [State.flag, withHeld_rf]

theorem withHeld_maskEff (p : Nat) : (withHeld s c d).maskEff p = s.maskEff p := by
  simp only [State.maskEff, State.errMasked, State.errClass, withHeld_rf]; rfl

theorem withHeld_busy (p : Nat) : (withHeld s c d).busy p = s.busy p := by
  simp only [State.busy, State.holdsWork, withHeld_rf, withHeld_flag]; rfl

theorem withHeld_ifver (p : Nat) : (withHeld s c d).ifver p = s.ifver p := by
  simp only [State.ifver, withHeld_rf]; rfl

theorem withHeld_holdsWork (p : Nat) : (withHeld s c d).holdsWork p = s.holdsWork p := by
  simp only [State.holdsWork, withHeld_rf, withHeld_flag]; rfl

theorem withHeld_unitWorks (p u : Nat) : (withHeld s c d).unitWorks p u = s.unitWorks p u := by
  simp only [State.unitWorks, withHeld_holdsWork]; rfl

theorem withHeld_unitPower (p u : Nat) : (withHeld s c d).unitPower p u = s.unitPower p u := by
  simp only [State.unitPower, State.deepest, withHeld_unitWorks, withHeld_rf]; rfl

theorem withHeld_unitsOn (p : Nat) : (withHeld s c d).unitsOn p = s.unitsOn p := rfl

theorem withHeld_pwrState (p : Nat) : (withHeld s c d).pwrState p = s.pwrState p := by
  simp only [State.pwrState, withHeld_unitsOn, funext (withHeld_unitPower s c d p)]

theorem withHeld_activeUnits (p : Nat) : (withHeld s c d).activeUnits p = s.activeUnits p := by
  simp only [State.activeUnits, withHeld_unitsOn, withHeld_unitPower]

theorem withHeld_hdrView (p o : Nat) : (withHeld s c d).hdrView p o = s.hdrView p o := by
  simp only [State.hdrView, withHeld_word, withHeld_maskEff, withHeld_ifver, withHeld_busy, withHeld_pwrState, withHeld_activeUnits]

theorem withHeld_jlkView (p o w : Nat) : (withHeld s c d).jlkView p o w = s.jlkView p o w := by
  simp only [State.jlkView, withHeld_rf]; rfl

theorem withHeld_svcView (p o w : Nat) : (withHeld s c d).svcView p o w = s.svcView p o w := rfl
theorem withHeld_ioView (p o w : Nat) : (withHeld s c d).ioView p o w = s.ioView p o w := rfl
theorem withHeld_mediaView (p o w : Nat) : (withHeld s c d).mediaView p o w = s.mediaView p o w := rfl
theorem withHeld_linkView (p o w : Nat) : (withHeld s c d).linkView p o w = s.linkView p o w := rfl
theorem withHeld_cclView (o w : Nat) : (withHeld s c d).cclView o w = s.cclView o w := rfl

theorem withHeld_blockView (p o : Nat) : (withHeld s c d).blockView p o = s.blockView p o := by
  simp only [State.blockView, withHeld_word, withHeld_jlkView, withHeld_svcView, withHeld_ioView, withHeld_mediaView,
    withHeld_linkView, withHeld_cclView]

theorem withHeld_localView (k : Nat) : (withHeld s c d).localView k = s.localView k := by
  simp only [State.localView, withHeld_word]; rfl

/-- A read shows the same whatever is captured or held in shadow. -/
theorem view_withHeld (k : Nat) : (withHeld s c d).view k = s.view k := by
  simp only [State.view, withHeld_blockView, withHeld_hdrView, withHeld_localView]; rfl

/-- Dropping another register's capture and shadow changes these two alone. -/
theorem dropOther_eq (r b : Nat) : ∃ c d, s.dropOther r b = withHeld s c d := by
  simp only [State.dropOther]; repeat' split
  all_goals exact ⟨_, _, rfl⟩

end Sys2Proof.Laws
end

