-- ==== Sys2Proof/Machine/Wire.lean ====
section
/-! DEFINITION. What the frames a head sends are on its lanes: frame bytes, flits, lane streams and the scrambler of Jonan and Carid
(R10, R424 to R426, R433, R435, R459, R467, R470, Tables 11-2, 11-4, 11-6, 12-1, 12-3, 12-6 to 12-9). -/
namespace Sys2Proof.Machine

/-! ## Jonan frames (R433) -/

/-- The 16-byte header of a Jonan frame (Table 11-6). -/
def jHeader (typ ver len lseq ack credits tag tgen die op flags : Nat) : Bytes :=
  le (typ % 16 + ver % 16 * 2 ^ 4 + len % 2 ^ 16 * 2 ^ 8 + lseq % 4096 * 2 ^ 24 + ack % 4096 * 2 ^ 36 + credits % 256 * 2 ^ 48 + tag % 4096 * 2 ^ 56
    + tgen % 16 * 2 ^ 68 + die % 4096 * 2 ^ 72 + op % 256 * 2 ^ 84 + flags % 256 * 2 ^ 92) 16

/-- A frame: its header and payload under a CRC-32C (R433). -/
def framed (header payload : Bytes) : Bytes := withCrc (header ++ payload)

/-- The bytes of a Jonan frame this device sends; none for what is no Jonan frame. -/
def jonanBytes : Out → Option Bytes
  | .jonan _ typ ver lseq ack credits tag tgen die op flags payload =>
    some (framed (jHeader typ ver payload.length lseq ack credits tag tgen die op flags) payload)
  | _ => none

/-- What R435 and R438 look at in the bytes of a frame that arrived with its last flit. -/
def jHdrOf (b : Bytes) : JHdr :=
  { typ := leAt b 0 1 % 16, ver := leAt b 0 1 / 16, len := leAt b 1 2, got := b.length - 20, crcOk := crcOk b.length b
    lseq := leAt b 3 2 % 4096, ack := leAt b 4 2 / 16, credits := leAt b 6 1 }

/-! ## Carid frames (R467 to R470) -/

/-- MSG of a message on its channel (Tables 12-4, 12-7, 12-9; log 100). -/
def msgOf : CMsg → Nat
  | .grain _ _ _ => 1 | .rcpt _ _ => 2 | .bind _ _ => 3 | .bindAck _ => 4 | .free _ => 5 | .cancel _ => 6
  | .recs _ _ => 1 | .horizon _ => 2 | .lack _ _ _ _ => 3 | .pt _ _ => 4 | .hfcHint _ => 5
  | .fwdCmd _ _ _ _ _ _ _ => 1 | .wdata _ _ _ => 2 | .rdata _ _ _ _ => 3 | .fwdDone _ _ _ _ _ _ => 4 | .fwdAbort _ => 5
  | .tetherReq _ => Config.caridMsg 0 | .tetherRsp _ _ _ => Config.caridMsg 1 | .heartbeat _ _ _ _ _ => Config.caridMsg 2
  | .hello _ => 1 | .nak _ => 2 | .idle => 3
  | .demand _ => 0x01 | .meterCnt _ _ => 0x02 | .meterRec _ _ => 0x03 | .meterAck _ => 0x04 | .inflight _ _ => 0x05 | .pageReq _ _ => 0x06
  | .pageRsp _ _ _ => 0x07 | .movePropose _ _ => 0x08 | .moveAgree _ _ => 0x09 | .moveDone _ _ => 0x0A | .joinReq _ _ _ _ => 0x0B
  | .joinRsp _ _ => 0x0C | .releaseReq _ => 0x0D | .released _ => 0x0E | .hoReq => 0x0F | .hoAck => 0x10 | .claimGen _ => 0x11
  | .rekey _ _ => 0x12 | .ring _ => 0x13
  | .admin _ m => msgOf m

/-- A grain record (Table 12-6). -/
def grainBytes (txn gcnt : Nat) (g : MGrain) : Bytes :=
  le txn 4 ++ le g.idx 2 ++ le gcnt 2 ++ le g.slot 4 ++ le g.slice 4 ++ le g.ns 2 ++ le g.tag 2 ++ le g.gi 5 ++ le (b2n g.zero + 2 * b2n g.hit) 1
    ++ zeros 6 ++ le g.crc 8 ++ (if g.zero then [] else g.data)

/-- The 64-byte command of a FORWARD CMD: the NVMe fields the owner carries it out from (R482). -/
def sqeBytes (c : FwdCmd) : Bytes :=
  le c.opc 4 ++ le c.ns 4 ++ zeros 32
    ++ (if c.opc = oDsm then le (c.ranges.length - 1) 4 ++ le 4 4 ++ zeros 16
        else if isResv c.opc then le c.lbat 4 ++ zeros 20
        else le c.slba 8 ++ le ((if c.opc = oCopy then c.ranges.length - 1 else c.nlb - 1) + b2n c.deac * 2 ^ 25 + b2n c.pract * 2 ^ 29) 4 ++ zeros 8
          ++ le c.lbat 4)

/-- The payload of a message (Tables 12-1, 12-6 to 12-9, R486, R487); own is this head's number, head bit of a lane byte where the message
names only the lane. -/
def payloadOf (own : Nat) : CMsg → Bytes
  | .grain t n gs => gs.flatMap (grainBytes t n)
  | .rcpt t r => le t 4 ++ le (b2n r) 1 ++ zeros 3
  | .bind t o => le t 4 ++ zeros 4 ++ le o 12
  | .bindAck t => le t 4
  | .free l => l.flatMap (fun x => le (x % 2 ^ 22) 4)
  | .cancel t => le t 4
  | .recs l rs => le (l + own * 128) 1 ++ le rs.length 1 ++ zeros 2 ++ rs.flatMap jrBytes
  | .horizon l => l.flatMap (fun e => le (e.1 + own * 128) 1 ++ zeros 3 ++ le e.2 12)
  | .lack p q a d => le p 8 ++ le q 8 ++ padTo 384 (a.flatMap (fun o => le o 12)) ++ padTo 384 (d.flatMap (fun o => le o 12)) ++ zeros 16
  | .pt n es => le n 8 ++ le es.length 2 ++ zeros 6 ++ es.flatMap (fun e => le (e.1 / 2 ^ 29) 1 ++ zeros 3 ++ le (e.1 % 2 ^ 29) 4 ++ le e.2 4)
  | .hfcHint l => l.flatMap (fun e => le (e.cid + e.gen * 2 ^ 38) 8 ++ padTo 32 e.fp)
  | .fwdCmd t sl ctl qid lp c d => le t 4 ++ le sl 4 ++ le ctl 2 ++ le qid 2 ++ le lp 1 ++ zeros 3 ++ sqeBytes c ++ fwdData c d
  | .wdata t o d => le t 4 ++ le o 4 ++ d
  | .rdata t o tag d => le t 4 ++ le o 4 ++ le tag 2 ++ zeros 6 ++ d
  | .fwdDone t sct sc dnr w o => le t 4 ++ le (sc % 256 + sct % 8 * 256 + b2n dnr * 2 ^ 11) 2 ++ zeros 2 ++ le w 4 ++ zeros 4 ++ le o 12
  | .fwdAbort t => le t 4
  | .tetherReq ex => le ex 4
  | .tetherRsp ex a b => le ex 4 ++ zeros 4 ++ le a 8 ++ le b 8
  | .heartbeat q e m f g => le q 8 ++ le e 8 ++ le m 1 ++ le f 1 ++ zeros 2 ++ le g 4 ++ zeros 8
  | .hello b => b
  | .nak c => le c 1 ++ zeros 3
  | .idle => []
  | .demand es => es.flatMap (fun e => le e.1 4 ++ le e.2.1 4 ++ le e.2.2 8)
  | .meterCnt f es => le (b2n f) 4 ++ es.flatMap (fun e => le e.1 4 ++ e.2)
  | .meterRec _ b => b
  | .meterAck n => le n 8
  | .inflight h n => le h 4 ++ le n 4
  | .pageReq ns pix => le ns 2 ++ le pix 6
  | .pageRsp _ _ es => zeros 8 ++ (List.range 512).flatMap (fun i => le (agetD es i 0) 8)
  | .movePropose g o | .moveAgree g o | .moveDone g o => le g 2 ++ zeros 2 ++ le o 12
  | .joinReq l b m g => le l 1 ++ le b 1 ++ le m 1 ++ zeros 1 ++ le g 4
  | .joinRsp r j => le r 1 ++ zeros 3 ++ le j 12
  | .releaseReq h => le h 1
  | .released g | .claimGen g => le g 4
  | .hoReq | .hoAck => []
  | .rekey n x => n ++ le x 8
  | .ring es => es.flatten
  | .admin t m => le t 4 ++ payloadOf own m

/-- The 16-byte header of a Carid frame (Table 12-3). -/
def cHeader (h : CSent) (m : CMsg) (len : Nat) : Bytes :=
  le (chanOf m + msgOf m % 256 * 2 ^ 4 + h.ver % 16 * 2 ^ 12 + len % 2 ^ 16 * 2 ^ 16 + (if sequenced (chanOf m) then h.xseq % 2 ^ 16 else 0) * 2 ^ 32
    + h.ack % 2 ^ 16 * 2 ^ 48 + h.credits % 256 * 2 ^ 64 + h.cchan % 16 * 2 ^ 72 + h.uctr % 2 ^ 48 * 2 ^ 80) 16

/-- The 96-bit nonce of an encrypted frame (R470). -/
def gcmNonce (own : Nat) (h : CSent) (m : CMsg) : Bytes :=
  le (if sequenced (chanOf m) then h.xseq else h.uctr) 8 ++ le (own + (if sequenced (chanOf m) then 0 else 2)) 1 ++ zeros 3

/-- The bytes of a Carid frame this head sends (R467, R470): payload in the clear, or encrypted with its tag after it. -/
def caridBytes (own : Nat) : Out → Option Bytes
  | .carid h m =>
    let p := payloadOf own m
    let hd := cHeader h m p.length
    if h.key = [] then some (framed hd p)
    else
      let e := gcmEnc h.key (gcmNonce own h m) hd p
      some (framed hd (e.1 ++ e.2))
  | _ => none

/-! ## Flits (R424 to R426, Table 11-2) -/

/-- A flit: its control bit and 32 bytes. -/
structure Flit where
  ctl   : Bool
  bytes : Bytes
  deriving DecidableEq, Repr

def ctlFlit (kind : Nat) (b : Bytes) : Flit := { ctl := true, bytes := padTo 32 (le kind 1 ++ b) }
def idleFlit : Flit := ctlFlit 0x00 []
def sofFlit : Flit := ctlFlit 0xF0 []
def eofFlit (n : Nat) : Flit := ctlFlit 0xFD (le n 1)
def alignFlit (lane count : Nat) : Flit := ctlFlit 0xA5 (le lane 1 ++ le count 2)

/-- A frame as SOF, its data flits in order, and EOF with the valid bytes of the last (R425). -/
def frameFlits (b : Bytes) : List Flit :=
  sofFlit :: (chunksOf 32 b).map (fun c => { ctl := false, bytes := padTo 32 c }) ++ [eofFlit (b.length - 32 * (cdiv b.length 32 - 1))]

/-- Payload bytes a receiver counts in a frame (R435, R467): tag is 16 when a GCM tag is present, else 0. -/
def gotBytes (dataFlits eof tag : Nat) : Nat := 32 * (dataFlits - 1) + eof - 20 - tag

/-- What a receiver makes of a flit (R426). -/
inductive Rx where
  /-- between frames; after a fault, until the next SOF -/
  | idle
  | skip
  /-- in a frame: the data flits so far, each 32 bytes -/
  | frame (b : Bytes)
  deriving DecidableEq, Repr

/-- One flit received (R425, R426): the state after, the frame that ended, and whether a NAK with code CRC is due. bad: its FEC codeword is
uncorrectable. -/
def rxFlit (r : Rx) (bad : Bool) (f : Flit) : Rx × Option Bytes × Bool :=
  let kind := leAt f.bytes 0 1
  if bad then (.skip, none, true)
  else if !f.ctl then
    match r with
    | .frame b => (.frame (b ++ f.bytes), none, false)
    | .idle => (.skip, none, true)
    | .skip => (.skip, none, false)
  else if kind = 0xF0 then (.frame [], none, false)
  else if kind = 0xFD then
    match r with
    | .frame b => (.idle, some (b.take (b.length - 32 + leAt f.bytes 1 1)), false)
    | _ => (r, none, false)
  else if kind = 0x00 ∨ kind = 0xA5 then (r, none, false)
  else (.skip, none, true)

/-- The frames a run of flits delivers, and the NAKs it calls for. -/
def rxFlits : Rx → List Flit → List (Option Bytes)
  | _, [] => []
  | r, f :: t =>
    match rxFlit r false f with
    | (r', some b, _) => some b :: rxFlits r' t
    | (r', none, true) => none :: rxFlits r' t
    | (r', none, false) => rxFlits r' t

/-! ## Lanes (R424, R425, R459) -/

/-- The flits of a stream that go to the k-th of n lanes: flit i to lane i mod n. -/
def laneShare (n k : Nat) (l : List Flit) : List Flit := ((l.zipIdx).filter (fun p => p.2 % n == k)).map (fun p => p.1)

/-- Flits of an FEC codeword, and of the codewords from one ALIGN flit to the next (R424, R425). -/
def flitsPerWord : Nat := 20
def flitsPerMark : Nat := 256 * flitsPerWord

/-- A lane's flits from a place in its codewords on, an ALIGN flit before the first of every 256th codeword (R425). -/
def withAlign (lane : Nat) : Nat → List Flit → List Flit
  | _, [] => []
  | pos, f :: t =>
    if pos % flitsPerMark = 0 then alignFlit lane (pos / flitsPerMark) :: f :: withAlign lane (pos + 2) t else f :: withAlign lane (pos + 1) t

/-- The 256 data bits of a flit, byte 0 first and bit 0 of each byte first (R424). -/
def flitBits (f : Flit) : List Bool := f.bytes.flatMap (fun b => (List.range 8).map (fun i => b.getLsbD i))

/-- The self-synchronising scrambler x⁵⁸ + x³⁹ + 1: each bit out is the bit in with those out 39 and 58 bits before; st holds the last 58
bits out, the latest lowest. -/
def lineScramble (st : BitVec 58) : List Bool → List Bool × BitVec 58
  | [] => ([], st)
  | b :: t =>
    let o := b ^^ st.getLsbD 38 ^^ st.getLsbD 57
    let r := lineScramble (st <<< 1 ||| BitVec.ofNat 58 (b2n o)) t
    (o :: r.1, r.2)

/-- The scrambler undone: st holds the last 58 bits received. -/
def lineDescramble (st : BitVec 58) : List Bool → List Bool × BitVec 58
  | [] => ([], st)
  | b :: t =>
    let r := lineDescramble (st <<< 1 ||| BitVec.ofNat 58 (b2n b)) t
    ((b ^^ st.getLsbD 38 ^^ st.getLsbD 57) :: r.1, r.2)

/-- The bits of a lane: each flit's control bit as it is, then its data bits scrambled (R424). -/
def laneBits (st : BitVec 58) : List Flit → List Bool
  | [] => []
  | f :: t =>
    let r := lineScramble st (flitBits f)
    f.ctl :: r.1 ++ laneBits r.2 t

/-- The message symbols of a lane's FEC codewords: 5,140 bits each (R424). -/
def laneWords (l : List Bool) : List (List Bool) := chunksOf 5140 l

/-! ## What has left the device -/

/-- The flit stream of a Jonan link end: its frames in the order they were sent, without the IDLE flits that time puts between them (R425). -/
def State.jonanStream (s : State) (i : Nat) : List Flit :=
  s.out.flatMap (fun o => match o with | .jonan j .. => if j = i then ((jonanBytes o).map frameFlits).getD [] else [] | _ => [])

/-- The lanes of a Jonan end that carry its stream (R425). -/
def State.jonanLanes (s : State) (i : Nat) : List Nat := onesBelow (s.linkEnd i).lanes 2

/-- The flits of one lane of a Jonan end (R425). -/
def State.jonanLane (s : State) (i lane : Nat) : List Flit :=
  let ls := s.jonanLanes i
  withAlign lane 0 (laneShare ls.length (ls.idxOf lane) (s.jonanStream i))

/-- The flit stream of Carid. -/
def State.caridStream (s : State) : List Flit := s.out.flatMap (fun o => ((caridBytes s.head o).map frameFlits).getD [])

/-- The lanes that carry Carid: all 32, or the 16 lowest-numbered usable ones (R459). -/
def State.caridLanes (s : State) : List Nat :=
  let u := s.usableLanes s.cpl.lanes
  if u.length = 32 then u else u.take 16

/-- The flits of one Carid lane (R425, R459). -/
def State.caridLane (s : State) (lane : Nat) : List Flit :=
  let ls := s.caridLanes
  withAlign lane 0 (laneShare ls.length (ls.idxOf lane) s.caridStream)

end Sys2Proof.Machine
end

