-- ==== Sys2Proof/WellFormed.lean ====
section
/-! DEFINITION. Which commands are well formed: operand lengths and numbers that no operand type bounds, and no frame, access or event can
break. A command that is not runs all the same (log 103). -/
namespace Sys2Proof

/-- A sensor sweep carries 12 temperatures and 8 rails (R655). -/
def sweepWf (temps : List Int) (rails : List Nat) : Bool := temps.length == 12 && rails.length == 8

/-- An access to the control space covers at least a byte (R23). -/
def accessWf (size : Nat) : Bool := decide (0 < size)

/-- A core's access covers 1 to 64 bytes, the line of R583; the walker port reads what it needs (R592). -/
def coreAccWf : CoreAcc → Bool
  | .load n | .lr n | .fetch n _ => decide (0 < n ∧ n ≤ 64)
  | .store d | .sc d | .amo d => decide (0 < d.length ∧ d.length ≤ 64)
  | .walk _ => true

/-- A TFTP block is at most 1,468 bytes, the largest block size BSV agrees to (R629). -/
def blockWf (data : Bytes) : Bool := decide (data.length ≤ 1468)

/-- The fields of a journal record fit their widths (Table 3-7). -/
def JRec.wf (r : JRec) : Bool :=
  decide (r.ostamp < 2 ^ 96 ∧ r.typ < 256 ∧ r.flags < 256 ∧ r.idx < 4096 ∧ r.cnt < 4096 ∧ r.head < 2 ∧ r.lane < 32 ∧ r.target < 2 ^ 64
    ∧ r.old < 2 ^ 128 ∧ r.new < 2 ^ 128)

/-- A command is well formed; every constructor not named has operands whose types admit only what can arrive, or whose every value has a meaning. -/
def Instr.wf : Instr → Bool
  | .evrSample temps rails => sweepWf temps rails
  | .misalignedAccess _ _ size _ => accessWf size.val
  | .coreDataAccess _ _ _ acc _ => coreAccWf acc
  | .tftpData _ _ data => blockWf data
  | .recs _ _ rs => rs.all JRec.wf
  | _ => true

end Sys2Proof
end

