-- ==== Sys2Proof/Tests/Slice0.lean ====
section
/-! SUPPORT. Tests: ill-formed commands, figures the spec or a published standard gives, and for each statement a state and operands that
meet its hypotheses together (theorem wit_<statement>, clause by clause). Statements without hypotheses need none. -/
namespace Sys2Proof.Tests
open Sys2Proof Sys2Proof.Machine Sys2Proof.Laws
set_option Elab.async false

/-! ## Ill-formed commands, one per check of WellFormed -/

theorem test_sweep_wf : Instr.wf (.evrSample (List.replicate 12 0) (List.replicate 7 0)) = false := by decide
theorem test_access_wf : accessWf 0 = false := by decide
theorem test_core_access_wf : coreAccWf (.load 65) = false ∧ coreAccWf (.store []) = false := by decide
theorem test_block_wf : Instr.wf (.tftpData 0 1 (List.replicate 1469 0)) = false := by decide +kernel
theorem test_record_wf : JRec.wf { rDirty 0 false true with idx := 4096 } = false := by decide

/-! ## Published check values (FIPS 180-4, FIPS 197, CRC catalogue) -/

theorem test_sha256 : beVal (sha256 [0x61, 0x62, 0x63]) = 0xBA7816BF8F01CFEA414140DE5DAE2223B00361A396177A9CB410FF61F20015AD := by decide +kernel
theorem test_aes_parts : sbox 0x53 = 0xED ∧ sbox 0 = 0x63 ∧ mixCol [2, 3, 1, 1] [0xDB, 0x13, 0x53, 0x45] = [0x8E, 0x4D, 0xA1, 0xBC] := by decide +kernel
theorem test_crcs : crc32c (be 0x313233343536373839 9) = 0xE3069283 ∧ crc64 (be 0x313233343536373839 9) = 0xAE8B14860A799888 ∧
    crc16 (be 0x313233343536373839 9) = 0xD0DB := by decide +kernel

/-! ## States for the witnesses -/
/-- The reset state in a mode. -/
def inMode (m : Sys2Proof.Mode) : State := { State.reset with bsv := { State.reset.bsv with mode := m } }

/-- A PAIRED head, a SOLO head and an ISOLATED head with nothing in hand. -/
def p0 : State := inMode .paired
def s0 : State := inMode .solo
def i0 : State := inMode .isolated

/-- Witness accesses enabled on every island. -/
def witEn (s : State) : State := (List.range 4).foldl (fun s i => s.wf (R.JLK.WIT_CFG.EN i) 1) s

/-- A head that hears a PAIRED partner over an ACTIVE link. -/
def hear (s : State) : State := { s.wf R.CPL.LINK_STAT.STATE 5 with cpl := { s.cpl with hbAt := some 0, hbMode := 4, rxCred := (List.range 8).map (fun c => (c, 16384)) } }
def ph : State := hear p0
def ih : State := witEn (hear i0)

/-- A head without the need for memory its footprint states. -/
def fits (s : State) : State := { s with dram := { s.dram with fixedGib := 0 } }

/-- Field updates of the parts of State. -/
def onBsv (f : Bsv → Bsv) (s : State) : State := { s with bsv := f s.bsv }
def onCpl (f : Cpl → Cpl) (s : State) : State := { s with cpl := f s.cpl }
def onTbs (f : Tbs → Tbs) (s : State) : State := { s with tbs := f s.tbs }
def onJlk (f : Jlk → Jlk) (s : State) : State := { s with jlk := f s.jlk }
def onIo (f : Io → Io) (s : State) : State := { s with io := f s.io }
def onSgb (f : Sgb → Sgb) (s : State) : State := { s with sgb := f s.sgb }
def onPins (f : Pins → Pins) (s : State) : State := { s with pins := f s.pins }
def onMaps (f : Maps → Maps) (s : State) : State := { s with maps := f s.maps }
def onMpe (f : Mpe → Mpe) (s : State) : State := { s with mpe := f s.mpe }
def onFmm (f : Fmm → Fmm) (s : State) : State := { s with fmm := f s.fmm }
def onSlm (f : Slm → Slm) (s : State) : State := { s with slm := f s.slm }
def onSec (f : Sec → Sec) (s : State) : State := { s with sec := f s.sec }
def onRpl (f : Rpl → Rpl) (s : State) : State := { s with rpl := f s.rpl }
def onCcl (f : Ccl → Ccl) (s : State) : State := { s with ccl := f s.ccl }
def onDram (f : Dram → Dram) (s : State) : State := { s with dram := f s.dram }
def onFcl (f : Fcl → Fcl) (s : State) : State := { s with fcl := f s.fcl }
def onEvr (f : Evr → Evr) (s : State) : State := { s with evr := f s.evr }

/-- A head whose time base runs, with a ceiling far off. -/
def run_ (s : State) : State := onTbs (fun t => { t with started := true, phys := 10000000000 }) (s.wf R.TBS.CEILING.CEIL 100000000000)


/-- A stamped write of connection 1 whose stamp has passed. -/
def c0 : IoCmd := { conn := some 1, cid := 5, opc := 1, slice := 0, ns := 1, stage := .stamped, ostamp := 1 }
def cmdAt : State := onIo (fun i => { i with cmds := [(3, c0)] }) (run_ i0)

/-- A write of one zero grain that is ready for its stamp. -/
def c1 : IoCmd := { conn := some 1, cid := 5, opc := 1, slice := 0, ns := 1, stage := .active, grains := [{ gi := 0, st := .zero }] }
def grpAt : State := onIo (fun i => { i with cmds := [(3, c1)] }) (run_ p0)

/-- A base layout of 16 modules. -/
def b0 : Base := { d := 8, basegen := 1, n := 16, seed := 0, mask := 0xFFFF }

/-- A MAP_SET record. -/
def r0 : JRec := rMapSet 1 0 0 0

/-- A head with one slice, one namespace, an admin queue 1, an I/O queue 2, an unbound TCP connection 3, a RoCEv2
connection 4 and an Annex queue 5. -/
def ctl0 : Ctl := { slice := 0, hostId := [1], ioq := 4, kato := 10, aers := [], events := [] }
def adm : Conn := { xport := 1, lport := 0, ready := true, ctl := some 1, qid := 0, size := 32, pair := true }
def ioq : Conn := { adm with qid := 1, r2ts := [{ idx := 0, gen := 0, op := 3, off := 0, len := 8 }] }
def fresh : Conn := { xport := 1, lport := 0, ready := true, size := 32 }
def roce : Conn := { xport := 2, lport := 0, ready := true }
def anxq : Conn := { xport := 3, lport := 0xFF, ready := true, pasid := 7, ctl := some 1, qid := 0, pair := true }
def slice0 : SliceRow := { gen := 0, desc := 1 + 1000 * 2 ^ 26 + 64 * 2 ^ 38 }
def ns1 : Ns := { desc := { size := 64, valid := true } }
def toks : SliceDyn := { ops := { bal := 65536 }, byt := { bal := 65536 } }
def hostIn (s : State) : State := onSlm (fun m => { m with dyn := [(0, toks)] }) (onMaps (fun m => { m with slices := [(0, slice0)], nss := [(1, ns1)] })
  (onIo (fun i => { i with conns := [(1, adm), (2, ioq), (3, fresh), (4, roce), (5, anxq)], ctls := [(1, ctl0)], ana := [(0, 1)] }) s))
def hs : State := hostIn p0
/-- Link on logical port 0, both transports enabled. -/
def hup : State := (hs.wf (R.HFX.PORT_STAT.UP 0 0) 1).wf R.NVT.XPORT_CFG.TCP_EN 1
def ca (l : List Nat) : NvmeCmd := { cid := 9, cdw := l }
/-- A read, waiting at admission. -/
def rd0 : IoCmd := { conn := some 2, cid := 5, opc := oRead, slice := 0, ns := 1, nlb := 1, stage := .waiting }
def wr0 : IoCmd := { conn := some 2, cid := 5, opc := oWrite, slice := 0, ns := 1, nlb := 1, stage := .data, need := 8 }
def hcmd (c : IoCmd) : State := onIo (fun i => { i with cmds := [(3, c)], nextOp := 4 }) hs

/-- A lead head whose slice 0 has a descriptor d. -/
def sl (d : Nat) : State := onMaps (fun m => { m with slices := [(0, { gen := 0, desc := d })] }) (run_ p0)
/-- A descriptor: 2 queue pairs, a write-cache share of 1 and WEIGHT 1, in state x. -/
def dx (x : Nat) : Nat := x + 2 * 2 ^ 26 + 2 ^ 38 + 2 ^ 114
def slk : State := onSec (fun k => { k with cph := [(0, { kind := 2, key := List.replicate 32 1 })] }) (sl (dx 4))
def noLead : State := (run_ p0).wf R.TBS.STAT.ROLE 1
def busy : State := onSlm (fun m => { m with cmd := some (0, 0) }) (run_ p0)
def hup2 : State := run_ ph
/-- A lead whose meter log ends with a record, at the end of an hour. -/
def lastSl : State := onSec (fun k => { k with ident := some ([], []) })
  (onSlm (fun m => { m with minute := 59, log := [(1, le 1 8 ++ zeros 12 ++ [1#8])] }) (run_ p0))

/-- A write with one grain in a given stage, connection 1. -/
def wcmd (x : Grain) : IoCmd := { conn := some 1, cid := 5, opc := oWrite, slice := 0, ns := 1, stage := .active, grains := [x] }
def wst (x : Grain) : State := onSec (fun k => { k with cph := [(0, { kind := 1, key := List.replicate 64 1 })], dge := [(0, { kind := 1, key := List.replicate 32 1 })] })
  (onIo (fun i => { i with cmds := [(3, wcmd x)] }) { sl (dx 1) with ing := { (run_ p0).ing with dom := [(0, 2 ^ 31)] } })
def segA : Seg := { state := 1, gen := 1, d := 8, basegen := 1 }
def openA : OpenSeg := { recs := [{ cid := 0, gen := 0, off := 64, clen := 8, fp := [], bytes := [] }], oldest := some 0 }
def sgA (o : OpenSeg) : State := onMaps (fun m => { m with segs := [(5, segA)] }) (onSgb (fun g => { g with opens := [(5, o)] }) (run_ p0))
def nsSt : State := onMaps (fun m => { m with nss := [(1, { desc := { size := 64, valid := true }, epoch := 1, slots := [(0, 0)] })], owner := [(0, 0)] }) (run_ p0)
def baseA : Base := { basegen := 1, d := 8, n := 16, seed := 0, mask := 0xFFFF }
def poolA : Pool := { laygen := 1, members := 0xFFFF, baseNew := baseA }
def poolSt (p : Pool) : State := onMaps (fun m => { m with pools := [(0, p)] }) (run_ s0)
def unackA : Unack := { conn := 1, cid := 5, ns := 1, slice := 0, off := 0, g := { gi := 0 } }
def mpcSt (n : Nat) : State := p0.wf R.MPC.STATE.STATE n

/-- A SOLO head with 16 ready modules of one die, each with an open SLC block. -/
def med : State := onJlk (fun j => { j with ends := (List.range 16).map (fun m => (m, { state := lActive, ver := 5, rxCred := 100 })) })
  (onFmm (fun f => { f with mods := (List.range 16).map (fun m => (m, { dies := 1, ready := true })), bt := (List.range 16).map (fun m => (btKey m 0 1, { state := 1 })) }) (poolSt poolA))
def segB : Seg := { state := 2, gen := 1, d := 8, basegen := 1 }
def medSeg (g : Seg) : State := onMaps (fun m => { m with segs := [(5, g)] }) med
def foldO : OpenSeg := { fold := true, issued := true, durable := List.range 10 }
def medFold (o : OpenSeg) : State := onSgb (fun g => { g with opens := [(5, o)] }) (medSeg { segB with state := 1 })
/-- Shapes of hypotheses that name what an operation answers. -/
theorem pair_fst {α β : Type} {x : α × β} {a : α} (h : x.1 = a) : x = (a, x.2) := Prod.ext h rfl
theorem pair_true {β : Type} {x : Bool × β} (h : x.1 = true) : x = (true, x.2) := pair_fst h
theorem pair_some {α β : Type} {x : Option α × β} (h : x.1.isSome = true) : x = (some (x.1.get h), x.2) := Prod.ext (by simp) rfl
theorem some_get {α : Type} {x : Option α} (h : x.isSome = true) : x = some (x.get h) := by simp
theorem some_pair2 {α β : Type} {x : Option (α × β)} (h : x.isSome = true) : x = some ((x.get h).1, (x.get h).2) := by simp
theorem some_pair {α β : Type} {x : Option (α × β)} {a : α} (h : x.map Prod.fst = some a) :
    x = some (a, (x.get (by rw [← Option.isSome_map (f := Prod.fst), h]; rfl)).2) := by
  cases x with
  | none => simp at h
  | some p => cases p; simp at h; subst h; rfl
theorem some_some {α : Type} {x : Option (Option α)} (h : x.join.isSome = true) : x = some (some (x.join.get h)) := by
  cases x with
  | none => simp at h
  | some y => cases y <;> simp at h ⊢
theorem cons_tail {α : Type} {l : List α} {a : α} (h : l.head? = some a) : l = a :: l.tail := by cases l <;> simp_all
/-- The lane of a record is the free lane hash's, so a group is stamped whatever lane it takes. -/
theorem stamp_done (s : State) (f : Nat) (rs : List JRec) (hn : rs ≠ []) (hz : s.mpe.lanes = [])
    (h : ∀ l < 32, (match s.issueAbove l 0 with | (some o, u) => (u.applyGroup (finishGroup u.head o f rs)).isSome | _ => false) = true) :
    ∃ o u, s.stampGroup f rs = .done o u := by
  cases rs with
  | nil => exact absurd rfl hn
  | cons r rs =>
    have hm : ∀ l : List JRec, maxL (l.map (fun r => (s.lane (laneOf r)).horizon)) = 0 := by
      intro l
      have e : (fun r : JRec => (s.lane (laneOf r)).horizon) = fun _ => 0 := by funext r; simp [State.lane, hz, agetD, aget]
      rw [e]; induction l with
      | nil => rfl
      | cons a l ih => simpa [maxL] using ih
    have h := h (laneOf r) (Nat.mod_lt _ (by decide))
    unfold State.stampGroup
    rw [hm]
    cases hi : s.issueAbove (laneOf r) 0 with
    | mk a u =>
      rw [hi] at h
      cases a with
      | none => simp at h
      | some o =>
        cases hg : u.applyGroup (finishGroup u.head o f (r :: rs)) with
        | none => simp [hg] at h
        | some v => exact ⟨o, (finishGroup u.head o f (r :: rs)).foldl (fun s r => s.enqueue r) v, by simp only [hi, hg]⟩
theorem journal_true {s : State} {rs : List JRec} (hn : rs ≠ []) (hz : s.mpe.lanes = [])
    (h : ∀ l < 32, (match s.issueAbove l 0 with | (some o, u) => (u.applyGroup (finishGroup u.head o 0 rs)).isSome | _ => false) = true) :
    (s.journal rs).1 = true := by
  obtain ⟨o, u, e⟩ := stamp_done s 0 rs hn hz h
  unfold State.journal; rw [e]
theorem layEnd_some {s : State} {j : LayJob}
    (h : (({ s with maps := { s.maps with layNext := aset s.maps.layNext (j.desc.laygen * 4 + j.pool) j.desc } } : State).journal [rLayout j.pool j.old j.desc.laygen]).1 = true) :
    (s.layEnd j).isSome = true := by
  unfold State.layEnd
  rw [pair_fst h]
  rfl
theorem all_some {l : List (Option Nat)} {p : Nat → Prop} [DecidablePred p]
    (h : l.all (fun h => match h with | some m => decide (p m) | none => false) = true) : ∀ h ∈ l, ∃ m, h = some m ∧ p m := by
  intro x hx
  have := List.all_eq_true.1 h x hx
  cases x with
  | none => simp at this
  | some m => exact ⟨m, rfl, by simpa using this⟩
/-- A bridge with its port 0 ACTIVE, and what it has in hand. -/
def br (b : Bridge) : State := { onJlk (fun j => { j with ends := [(64, { state := lActive, ver := 5, rxCred := 100 }), (0, { state := lActive, ver := 5, rxCred := 100 })] }) p0 with bridges := [(0, b)] }
def jh : JHdr := { typ := 1, ver := 5, len := 8, got := 8, crcOk := true }
def bop (n : Bool) : BOp := { port := 0, tag := 3, tgen := 0, op := opErase, die := 0, started := n }
/-- Position 0 in a state. -/
def pst (st : Nat) : LinkEnd := { state := st }
def pos (e : LinkEnd) : State := { onPins (fun p => { p with lanesEnabled := true }) (onJlk (fun j => { j with ends := [(0, e)] }) p0) with now := 1000000000 }
def car (st : Nat) : State := { onPins (fun p => { p with lanesEnabled := true }) (i0.wf R.CPL.LINK_STAT.STATE st) with now := 1000000000000000 }
def carKey (s : State) : State := onSec (fun k => { k with dge := [(0, { kind := 2, key := List.replicate 32 1 })] }) ((s.wf R.CPL.KEY.VALID 1).wf R.CPL.LINK_STAT.GCM 1)
def nego : State := (onCpl (fun c => { c with helloAt := some 0 }) (car lNegotiate)).wf R.CPL.CFG.GCM_REQ 0
def carFrame : State := carKey (run_ ph) |>.wf R.CPL.LINK_STAT.GCM 0

/-- Forwarded commands of both directions, and a command with a mirror transaction. -/
def fw1 : IoCmd := { conn := some 1, cid := 5, opc := oRead, slice := 0, ns := 1, stage := .active, fwd := true, tok := 9, nlb := 1 }
def fw2 : IoCmd := { conn := none, cid := 5, opc := oWrite, slice := 0, ns := 1, stage := .data, fromPartner := true, tok := 9, need := 8 }
def cmdOn (c : IoCmd) (s : State) : State := onIo (fun i => { i with cmds := [(3, c)], nextOp := 4 }) s
/-- A head in a mode that hears its partner. -/
def hm (m : Sys2Proof.Mode) : State := run_ (hear (inMode m))
def tokPh : State := onCpl (fun c => { c with mGen := [(tokIdx 0, tokGen 0)] }) (run_ ph)
def ho : State := onCpl (fun c => { c with hoClaimed := false }) (hm .handover)
def srv : State := onCpl (fun c => { c with role := 2 }) (hm .solo)
def jn : State := onCpl (fun c => { c with role := 1 }) (hm .joining)
def split : State := { onJlk (fun j => { j with witSeen := [(0, (1, 29000000000))] }) (onFmm (fun f => { f with mods := [(0, { dies := 1, ready := true })] }) (onJlk (fun j => { j with ends := [(0, { state := lActive })] }) p0)) with now := 29000000001 }
/-- A replication session. -/
def rs (st : Nat) (inb : Bool) : RSess := { state := st, inbound := inb, rxSeq := 0 }
def rst (x : RSess) : State := onRpl (fun r => { r with sess := [(0, x)] }) (run_ p0)
def rh (n : Bool) : RHdr := { len := 0, rseq := 0, sealed := n }
/-- A head whose outbound ring holds a FULL session of namespace 1. -/
def rplOut : State := { nsSt.wf R.RPL.KEY.VALID 1 with mem := [(dramBase + 0x13, 1), (dramBase + 0x14, 1)] }

/-- A head with one descriptor of OP o posted in a firmware ring. -/
def dge (o : Byte) : State := { (((p0.wf R.DGE.FWQ_BASE.ADDR fwRegion).wf R.DGE.FWQ_SIZE.ENTRIES 4).wf R.DGE.FWQ_WR.INDEX 1) with mem := [(hbmBase + fwRegion, o)] }
def cph (o : Byte) : State := { (((p0.wf R.CPH.FWQ_BASE.ADDR fwRegion).wf R.CPH.FWQ_SIZE.ENTRIES 4).wf R.CPH.FWQ_WR.INDEX 1) with mem := [(hbmBase + fwRegion, o)] }
/-- A descriptor whose SRC, DST and AUX lie at the start of the firmware region. -/
def dgeNewSt (o : Byte) : State := { p0 with mem := [(hbmBase + fwRegion, o), (hbmBase + fwRegion + 12, 11), (hbmBase + fwRegion + 20, 11), (hbmBase + fwRegion + 28, 11)] }
def dreq (op : Nat) (ch : Bool) : DgeReq := { desc := 0, op := op, dst := 0, chain := ch, at0 := 0, last := 0 }
def dchain (op : Nat) : State := onSec (fun k => { k with dreq := [(0, dreq op true)] }) (dge 1)
def creq (op : Nat) (core : Option Nat) : CphReq := { desc := 0, op := op, slot := 0, src := 0, dst := 0, len := 16, aux := 0, auxLen := 0, iv := List.replicate 16 0, at0 := 0, core := core, key := List.replicate 32 1 }
/-- A head whose SEC commands find their addresses in the firmware region. -/
def secSt : State := (((p0.wf R.SEC.KEY_IN.ADDR fwRegion).wf R.SEC.KEY_OUT.ADDR fwRegion).wf R.SEC.SIGN_IN.ADDR fwRegion).wf R.SEC.SIGN_OUT.ADDR fwRegion
def job0 : SignJob := { forSeal := false, msg := [], q := 0 }
def signSt (j : SignJob) : State := onSec (fun k => { k with job := some j, trees := [0] }) (secSt.wf R.SEC.STAT.READY 1)
def cores : State := run_ (p0.wf R.CCL.CORE_RUN.RUN 0xFFFFFF)
def l2St (n : Nat) : State := p0.wf R.CCL.L2_STATE.STATE n
def cReq0 : CacheReq := { who := 0, addr := 0, priv := true }
def missSt : State := onCcl (fun c => { c with regs := [{ line := 5, reqs := [cReq0] }] }) cores
def plic : State := { cores with irq := { cores.irq with asserted := [3], cfg := [(3, 1 * 64)] } }
def trial : State := onBsv (fun b => { b with bootRec := some { trial := 0, confirmed := 1 }, running := some 0 }) (p0.wf R.BSV.BOOT_STAT.TRIAL 1)
def fl : State := p0.wf R.BSV.FL_HBM.ADDR fwRegion
def tf (up : Bool) : Tftp := { upload := up, tid := 1, slot := 0, blksize := 8, blkOpt := false, nextBlk := 1, bytes := 0, lastSent := [], lastAt := 0, retries := 0, header := [1] }
def tfSt (t : Tftp) : State := onBsv (fun b => { b with tftp := some t }) p0
def pSvc : State := onPins (fun p => { p with serviceEn := false }) p0
def flRun : State := onFcl (fun f => { f with fusesLoaded := true }) p0
def cabR : CabRec := { deleted := false, kill := false, cls := 0x100, fmt := 0, key := 0, seq := 1, imgen := 0, body := [1] }

/-- A head whose partner owes the answer to request tag 0. -/
def asked (s : State) : State := onCpl (fun c => { c with asks := [(0, 0)] }) s
def negoN : State := onCpl (fun c => { c with nonce := [1] }) nego
/-- A SERVICE head with a device root key and noise sources that run. -/
def genSt : State := onSec (fun k => { k with drk := some [] }) ((inMode .service).wf R.SEC.STAT.RNG 1)
/-- A grain that fits in raw literals only. -/
def rawGrain : Grain := { gi := 0, st := .compress, data := 1#8 :: zeros 4095 }
/-- A session that waits for SESSION, with a binding of namespace 1 in slot 0. -/
def bindSt : State := { onRpl (fun r => { r with sess := [(0, { rs 3 true with lastAt := 0 })] }) nsSt with mem := [(dramBase + 0x10, 1), (dramBase + 0x12, 1)] }
/-- A quad of sealed segments 10 to 13 with every tile in the page tables, and every codeword of their units. -/
def quadSt : State := onMaps (fun m => { m with segs := (List.range 4).map (fun i => (10 + i, { segB with sealStamp := i + 1, valid := 30000 })) })
  (onFmm (fun f => { f with pt := (List.range 16).flatMap (fun m => (List.range 4).flatMap (fun i => (List.range 4).map (fun p => (ptKey m (10 + i) 0 p, mkPt 0 2 i false)))) }) med)
def quadGot : List (Nat × Bytes) := (List.range 10).flatMap (fun k => (List.range 4).flatMap (fun t => (List.range 16).map (fun c => (cwKey k t c, []))))
theorem quad_all (k t c : Nat) (hk : k < 10) (ht : t < 4) (hc : c < 16) : (aget quadGot (cwKey k t c)).isSome = true :=
  have h : ∀ k < 10, ∀ t < 4, ∀ c < 16, (aget quadGot (cwKey k t c)).isSome = true := by decide +kernel
  h k hk t ht c hc

/-! ### A migration blob -/
def migKey : Key := { kind := 2, key := List.replicate 32 1 }
/-- A head with the migration key and noise sources that run. -/
def savSt : State := slk.wf R.SEC.STAT.RNG 1
/-- The body of a blob: WEIGHT 1 and no namespace. -/
def blobPlain : Bytes := le (2 ^ 114) 16 ++ zeros 8096
def blobHead (v : Nat) : Bytes := le v 2 ++ zeros 62
/-- A blob of a format, its tag changed by a byte. -/
def blob (v : Nat) (x : Byte) : Bytes :=
  blobHead v ++ ((gcmEnc migKey.key (zeros 12) (blobHead v) blobPlain).1 ++ (gcmEnc migKey.key (zeros 12) (blobHead v) blobPlain).2.map (· ^^^ x))
def mig (v : Nat) (x : Byte) : State := (slk.wf R.SLM.DESC.DESC (dx 0)).store (hbmBase + (slk.wf R.SLM.DESC.DESC (dx 0)).rf R.SLM.BLOB_ADDR.ADDR) (blob v x)
theorem plain_ns : blobNs blobPlain = [] := by
  have h : ∀ i ∈ List.range 256, slice blobPlain (0xC30 + 16 * i) 16 = zeros 16 := by
    intro i hi
    have := List.mem_range.1 hi
    unfold slice blobPlain zeros
    rw [List.drop_append, List.drop_of_length_le (by rw [le_length]; omega), List.nil_append, le_length, List.drop_replicate, List.take_replicate]
    congr 1; omega
  unfold blobNs
  rw [List.map_congr_left (g := fun _ => (0, 0, 0, 0)) (fun i hi => by dsimp only; rw [h i hi]; decide)]
  exact List.filter_eq_nil_iff.2 (fun e he => by obtain ⟨_, _, rfl⟩ := List.mem_map.1 he; decide)
theorem blob_split (hd ct tg : Bytes) (h1 : hd.length = 64) (h2 : ct.length = 8112) (h3 : tg.length = 16) :
    slice (hd ++ (ct ++ tg)) 0x1C 12 = slice hd 0x1C 12 ∧ (hd ++ (ct ++ tg)).take 64 = hd ∧ slice (hd ++ (ct ++ tg)) 0x40 0x1FB0 = ct ∧
    slice (hd ++ (ct ++ tg)) 0x1FF0 16 = tg ∧ (hd ++ (ct ++ tg)).length = 8192 := by
  refine ⟨?_, ?_, ?_, ?_, by simp; omega⟩
  · unfold slice; rw [List.drop_append_of_le_length (by omega), List.take_append_of_le_length (by simp; omega)]
  · rw [List.take_append_of_le_length (by omega), List.take_of_length_le (by omega)]
  · unfold slice; rw [List.drop_append, List.drop_of_length_le (by omega), List.nil_append, h1, Nat.sub_self, List.drop_zero,
      List.take_append_of_le_length (by omega), List.take_of_length_le (by omega)]
  · unfold slice; rw [← List.append_assoc, List.drop_append, List.drop_of_length_le (by simp; omega), List.nil_append]
    simp only [List.length_append, h1, h2, Nat.reduceAdd, Nat.sub_self, List.drop_zero]; exact List.take_of_length_le (by omega)
theorem blob_lengths (v : Nat) :
    (gcmEnc migKey.key (zeros 12) (blobHead v) blobPlain).1.length = 8112 ∧ (gcmEnc migKey.key (zeros 12) (blobHead v) blobPlain).2.length = 16 := by
  have hp : blobPlain.length = 8112 := by decide +kernel
  refine ⟨?_, ?_⟩
  · rw [gcmEnc, gctr_length _ _ _ _ _ (by rw [hp]; decide), hp]
  · have e : (aesEnc migKey.key (zeros 12 ++ be 1 4)).length = 16 := by decide +kernel
    simp only [gcmEnc, gcmTag, xorBytes_length, e, be_length]; rfl
theorem mig_load_of (s : State) (r : Fld) (l : Bytes) (hl : l.length = 8192) (hw : Memory.wf s.mem = true) :
    (s.store (hbmBase + s.rf r) l).load (hbmBase + (s.store (hbmBase + s.rf r) l).rf r) 8192 = l := by
  have w : ∀ k b, (s.store (hbmBase + s.rf r) l).words b k = s.words b k := by
    intro k; induction k with
    | zero => intro b; rfl
    | succ k ih => intro b; simp only [State.words, ih]; rfl
  have e : (s.store (hbmBase + s.rf r) l).rf r = s.rf r := congrArg (fun n => fld n r.lo r.w) (w _ _)
  rw [e, ← hl]
  exact load_store_same s _ l hw
theorem mig_load (v : Nat) (x : Byte) (hv : (blobHead v).length = 64) :
    (mig v x).load (hbmBase + (mig v x).rf R.SLM.BLOB_ADDR.ADDR) 8192 = blob v x :=
  mig_load_of _ _ _ ((blob_split _ _ _ hv (blob_lengths v).1 (by rw [List.length_map]; exact (blob_lengths v).2)).2.2.2.2) (by decide +kernel)
theorem blob_opens (v : Nat) (hv : (blobHead v).length = 64 := by decide +kernel) (hn : slice (blobHead v) 0x1C 12 = zeros 12 := by decide +kernel) :
    gcmDec migKey.key (slice (blob v 0) 0x1C 12) ((blob v 0).take 64) (slice (blob v 0) 0x40 0x1FB0) (slice (blob v 0) 0x1FF0 16) = some blobPlain := by
  have h := blob_lengths v
  have b := blob_split (blobHead v) (gcmEnc migKey.key (zeros 12) (blobHead v) blobPlain).1 ((gcmEnc migKey.key (zeros 12) (blobHead v) blobPlain).2.map (· ^^^ (0 : Byte))) hv h.1 (by rw [List.length_map]; exact h.2)
  unfold blob
  rw [b.1, b.2.1, b.2.2.1, b.2.2.2.1, hn]
  simpa using gcmDec_gcmEnc migKey.key (zeros 12) (blobHead v) blobPlain
theorem blob_shut (v : Nat) (hv : (blobHead v).length = 64 := by decide +kernel) (hn : slice (blobHead v) 0x1C 12 = zeros 12 := by decide +kernel) :
    gcmDec migKey.key (slice (blob v 1) 0x1C 12) ((blob v 1).take 64) (slice (blob v 1) 0x40 0x1FB0) (slice (blob v 1) 0x1FF0 16) = none := by
  have h := blob_lengths v
  have b := blob_split (blobHead v) (gcmEnc migKey.key (zeros 12) (blobHead v) blobPlain).1 ((gcmEnc migKey.key (zeros 12) (blobHead v) blobPlain).2.map (· ^^^ (1 : Byte))) hv h.1 (by rw [List.length_map]; exact h.2)
  unfold blob
  rw [b.1, b.2.1, b.2.2.1, b.2.2.2.1, hn]
  refine gcmDec_other _ _ _ _ _ (fun t => ?_)
  generalize (gcmEnc migKey.key (zeros 12) (blobHead v) blobPlain).2 = l at t h
  cases l with
  | nil => simp at h
  | cons a l =>
    have := (List.cons.inj (List.map_cons .. ▸ t)).1
    have x : a ^^^ (a ^^^ 1) = a ^^^ a := by rw [← this]
    rw [← BitVec.xor_assoc, BitVec.xor_self, BitVec.zero_xor] at x
    exact absurd x (by decide)

/-! ## Figures of the spec -/

/-- The table gives its rows no bits (00_scope.md). -/
theorem test_table_word : decodeTableWord 32 0 = none := by decide

/-- ID, CAP and a register of JLK2 on an ILV-6424, where it is fused off (18_registers.md, example under R681). -/
theorem test_fused_page :
    let s : State := { State.reset with fuses := { State.reset.fuses with variant := .ilv6424 } }
    s.view 0x19000 = 0x80100217 ∧ s.view 0x19004 = 0x00308000 ∧ s.view 0x19124 = 0 := by decide +kernel

/-- ID of JLK2 on an ILV-6440, and IFVER once modules have trained at 2.1 and 1.2 (same example). -/
theorem test_ifver :
    let s : State := onJlk (fun j => { j with ends := [(32, { state := lActive, ver := 5 }), (33, { state := lActive, ver := 3 })] }) State.reset
    s.view 0x19000 = 0x00100217 ∧ s.ifver 25 = 0x00010503 := by decide +kernel

/-- The stamps of groups A and B (03_stamps_and_order.md, example under R124). -/
theorem test_stamps : mkStamp (0x00038D7EA4C68000 + 2000) 0 4 = 0x00038D7EA4C687D000000004 ∧
    mkStamp (0x00038D7EA4C68000 + 2000) 1 4 = 0x00038D7EA4C687D000000104 := by decide

/-- First entries of H (10_media.md, example after R417). -/
theorem test_ldpc_matrix :
    [0, 1, 2, 3, 13, 14, 15, 16].map (ldpcShift 0) = [some 0, some 5, some 10, some 15, some 65, some 70, some 75, some 80] ∧
    [0, 10, 11, 12, 13, 23].map (ldpcShift 1) = [some 11, some 175, some 217, some 3, some 45, some 209] ∧
    [7, 8, 9, 10].map (ldpcShift 2) = [some 63, some 142, some 221, some 44] ∧
    [3, 4, 5, 6].map (ldpcShift 12) = [some 199, some 136, some 73, some 10] ∧ ldpcShift 2 0 = none := by decide

/-- The scrambler of block 5, page 3 (same example). -/
theorem test_scrambler : scramble 5 3 [0] = [0x18] := by decide +kernel

/-- The address word and the credits of the READ of 11_jonan_link.md. -/
theorem test_read_request : addrWord 0x0A31 87 2 3 0 true 0 0 0 = 0x81CAEA31 ∧ credOf 9288 = 37 := by decide

/-- The location of the traced write, and the time of its fingerprint (06_write_path.md, example; 14_digest_cipher_signatures.md). -/
theorem test_traced_write : locOf 0x8A32 0x2C40 = 0x228C82C40 ∧ 16 * digestBlocks 2 4098 = 1056 ∧ cdiv 1733 16 = 0x6D := by decide

/-- H2CData beyond the command's data length (04_host_fabric.md, example under R164): VCODE 0x06, C2HTermReq with FES 0x04. -/
theorem test_data_beyond_length :
    let k : Conn := { ioq with lport := 12, r2ts := [{ idx := 0x17, gen := 3, op := 3, off := 0, len := 16384, got := 8192 }] }
    let s : State := onIo (fun i => { i with conns := [(2, k)], cmds := [(3, { wr0 with cid := 0x21, need := 16384 })] }) hs
    (match exec (.h2cData 2 0x3017 8192 (List.replicate 12288 0) true none none) s with
     | .next t => agetD t.io.vcnt (12 * 256 + 6) 0 == 1 && (match t.out with | .c2hTerm 2 4 _ :: _ => true | _ => false)
     | _ => false) = true := by decide +kernel

/-- The frame of the READ of 11_jonan_link.md: its header and payload bytes, one data flit between SOF and EOF, and what the bridge counts. -/
theorem test_read_frame :
    let b : Bytes := (jonanBytes (.jonan 5 1 5 0x2A7 0x113 73 0x35C 6 11 opRead 0 (le 0x81CAEA31 8))).getD []
    b.take 24 = [0x51, 0x08, 0x00, 0xA7, 0x32, 0x11, 0x49, 0x5C, 0x63, 0x0B, 0x10, 0, 0, 0, 0, 0, 0x31, 0xEA, 0xCA, 0x81, 0, 0, 0, 0] ∧ b.length = 28 ∧
    (frameFlits b).map (fun f => f.ctl) = [true, false, true] ∧ rxFlits .idle (frameFlits b) = [some b] ∧ gotBytes 1 28 0 = 8 := by decide +kernel

/-! ## Witnesses -/

theorem wit_RegisterAccessCompletes :
    (∃ (r : Requester) (key : Fin 67207168) (s : State), s.reaches r key true) ∧
    (∃ (r : Requester) (key : Fin 67207168) (s : State), s.reaches r key true ∧ reg64 key = none ∧ 256 ≤ key.val % 4096 ∧ key.val / 4096 ∈ [21, 22, 27, 31]) ∧
    (∃ (r : Requester) (key : Fin 67207168) (base : Nat) (s : State), s.reaches r key false ∧ key.val < localBase ∧ reg64 key = some (base, false)) ∧
    (∃ (r : Requester) (key : Fin 67207168) (base : Nat) (s : State) (u : _), s.reaches r key false ∧ key.val < localBase ∧ reg64 key = some (base, true) ∧ aget s.caps (capKey r base) = some (base, u)) ∧
    (∃ (r : Requester) (key : Fin 67207168) (base : Nat) (s : State), s.reaches r key true ∧ reg64 key = some (base, true) ∧ shadowed base = true) ∧
    (∃ (r : Requester) (key : Fin 67207168) (u : BitVec 32) (s : State), s.reaches r key true ∧ reg64 key = some (key.val, false) ∧ shadowed key = true ∧ aget s.shadows (capKey r key) = some (key.val, u)) :=
  ⟨⟨0, 0x1100, i0, (by unfold State.reaches; decide +kernel)⟩,
    ⟨0, 21 * 4096 + 0x100, i0, (by unfold State.reaches; decide +kernel), (by decide +kernel), (by decide +kernel), (by decide +kernel)⟩,
    ⟨0, 0x5130, 0x5130, i0, (by unfold State.reaches; decide +kernel), (by decide +kernel), (by decide +kernel)⟩,
    ⟨0, 0x5134, 0x5130, { i0 with caps := [(capKey 0 0x5130, (0x5130, 7))] }, 7, (by unfold State.reaches; decide +kernel), (by decide +kernel), (by decide +kernel), (by decide +kernel)⟩,
    ⟨0, 4452, 4448, i0, (by unfold State.reaches; decide +kernel), (by decide +kernel), (by decide +kernel)⟩,
    ⟨0, 4448, 7, { i0 with shadows := [(capKey 0 4448, (4448, 7))] }, (by unfold State.reaches; decide +kernel), (by decide +kernel), (by decide +kernel), (by decide +kernel)⟩⟩

theorem wit_AccessCodes :
    (∃ (key : Nat) (k : Nat) (lo : Nat) (w : Nat) (row : FRow) (s : State), s.regsWf = true ∧ partOf row (key % 4096) k = some (lo, w)) ∧
    (∃ (key : Nat) (k : Nat) (lo : Nat) (w : Nat) (row : FRow) (s : State) (g : Fld), s.regsWf = true ∧ partOf row (key % 4096) k = some (lo, w) ∧ apart ⟨key, lo, w⟩ g = true) :=
  ⟨⟨0x10, 1, 4, 8, { off := 0x10, lo := 4, w := 8, acc := .rw, stride := 0, count := 1 }, p0, (by decide +kernel), (by decide +kernel)⟩,
    ⟨0x10, 1, 4, 8, { off := 0x10, lo := 4, w := 8, acc := .rw, stride := 0, count := 1 }, p0, ⟨0x10, 12, 4⟩, (by decide +kernel), (by decide +kernel), (by decide +kernel)⟩⟩

theorem wit_OddAccessesComplete :
    (∃ (key : Fin 67207168) (s : State), s.reaches 24 key true ∧ key.val % 8 = 0 ∧ reg64 key = some (key.val, false)) ∧
    (∃ (r : Requester) (key : Fin 67207168) (size : Fin 9) (wr : Option (BitVec 64)) (s : State), (r.val < 24 → s.coreRuns r = true ∧ size.val ≤ 4) ∧ key.val < localBase ∧ blockOf (key / 4096) ≠ 0 ∧ fusedOff s.fuses.variant (key / 4096) = false ∧ ¬(r.val = 24 ∧ 1 ≤ key.val / 4096 ∧ key.val / 4096 ≤ 4 ∧ s.flag R.ANX.CS_CFG.SVC_HIDE = true) ∧ (r.val = 24 → wr.isSome = true → s.flag R.ANX.CS_CFG.WR_EN = true) ∧ (size.val < 4 ∨ (size.val ≠ 4 ∧ size.val ≠ 8) ∨ key.val % size.val ≠ 0)) ∧
    (∃ (r : Requester) (key : Fin 67207168) (s : State), (r.val < 24 → s.coreRuns r = true) ∧ key.val < localBase ∧ blockOf (key / 4096) = 0) :=
  ⟨⟨0x5130, i0, (by unfold State.reaches; decide +kernel), (by decide +kernel), (by decide +kernel)⟩,
    ⟨0, 0x5002, 2, none, p0, (by decide +kernel), (by decide +kernel), (by decide +kernel), (by decide +kernel), (by decide +kernel), (by decide +kernel), (by decide +kernel)⟩,
    ⟨0, 33 * 4096, p0, (by decide +kernel), (by decide +kernel), (by decide +kernel)⟩⟩

theorem wit_MemoryControllersComplete :
    (∃ (pc : Fin 64) (s : State), pc.val ∉ s.fencedUnits Pg.HBC) ∧
    (∃ (ch : Fin 16) (s : State), ch.val ∉ s.fencedUnits Pg.DDC ∧ s.mode = .isolated) ∧
    (∃ (ch : Fin 16) (s : State), ch.val ∉ s.fencedUnits Pg.DDC ∧ s.mode = .paired) ∧
    (∃ (stack : Fin 2) (temp : Int) (s : State), 85 < temp ∧ s.flag (if stack = 0 then R.HBC.STAT.HOT0 else R.HBC.STAT.HOT1) = false) ∧
    (∃ (temp : Int), temp < 82) ∧
    (∃ (line : Nat) (s : State) (u : State), (∀ t, aget s.dram.scrub line = some t → t + s.scrubPeriod ≤ s.estamp) ∧ u = { s with dram := { s.dram with scrub := aset s.dram.scrub line s.estamp } }) ∧
    (∃ (s : State), s.dram.windowAt + hourNs ≤ s.estamp) ∧
    (∃ (page : Fin 64) (src : Fin 32) (unit : Option Nat) (s : State), s.pageLive page = true ∧ src.val < errSources (blockOf page) ∧ (∀ u, unit = some u → u < unitsMax (blockOf page)) ∧ page.val ∉ [Pg.HBC, Pg.DDC, Pg.MPC, Pg.CCL]) :=
  ⟨⟨63, p0, (by decide +kernel)⟩,
    ⟨15, i0, (by decide +kernel), (by decide +kernel)⟩,
    ⟨15, p0, (by decide +kernel), (by decide +kernel)⟩,
    ⟨0, 86, p0, (by decide +kernel), (by decide +kernel)⟩,
    ⟨81, (by decide +kernel)⟩,
    ⟨0, p0, _, (fun _ h => by cases h), rfl⟩,
    ⟨{ p0 with tbs := { p0.tbs with phys := hourNs } }, (by decide +kernel)⟩,
    ⟨1, 0, none, p0, (by decide +kernel), (by decide +kernel), (fun u h => by cases h), (by decide +kernel)⟩⟩

theorem wit_ModeChangeIsOneUpdate : ∃ (m : Sys2Proof.Mode) (s : State), s.regsWf = true ∧ (m = .paired → s.errClass Pg.CCL 6 ≠ 3 ∧ s.errClass Pg.FCL 0 ≠ 3) :=
  ⟨.paired, p0, (by decide +kernel), (by decide +kernel)⟩

theorem wit_ModeCommandsComplete :
    (∃ (s : State), s.bsv.pending = false ∧ s.mode = .isolated ∧ s.joinCheck = 0 ∧ s.gondolaKept = false) ∧
    (∃ (f : Found) (s : State) (t : State), s.bsv.pending = false ∧ s.mode = .isolated ∧ s.witOn = true ∧ s.hbRecent = false ∧ s.witRecent 20000000 = false ∧ s.soloLoad f = some t ∧ t.shortGib t.usableGib = 0 ∧ t.ctBitsOk = true) ∧
    (∃ (s : State), s.bsv.pending = false ∧ s.mode = .paired ∧ s.partnerPaired = true) ∧
    (∃ (s : State), s.bsv.pending = false ∧ s.mode = .solo) ∧
    (∃ (s : State), s.bsv.pending = false ∧ s.mode = .isolated) ∧
    (∃ (s : State), s.mode = .isolated ∧ s.bsv.autoJoinArmed = true ∧ s.flag R.BSV.MODE_CFG.AUTO_JOIN = true ∧ s.shortGib s.usableGib = 0 ∧ s.bsv.pending = false ∧ s.joinCheck = 0 ∧ s.gondolaKept = false) :=
  ⟨⟨ih, (by decide +kernel), (by decide +kernel), (by decide +kernel), (by decide +kernel)⟩,
    ⟨{}, fits (witEn (i0.wf R.MPE.CT_BITS.BITS 20)), _, (by decide +kernel), (by decide +kernel), (by decide +kernel), (by decide +kernel), (by decide +kernel), (some_get (by decide +kernel)), (by decide +kernel), (by decide +kernel)⟩,
    ⟨ph, (by decide +kernel), (by decide +kernel), (by decide +kernel)⟩,
    ⟨s0, (by decide +kernel), (by decide +kernel)⟩,
    ⟨i0, (by decide +kernel), (by decide +kernel)⟩,
    ⟨fits (onBsv (fun b => { b with autoJoinArmed := true }) (ih.wf R.BSV.MODE_CFG.AUTO_JOIN 1)), (by decide +kernel), (by decide +kernel), (by decide +kernel), (by decide +kernel), (by decide +kernel), (by decide +kernel), (by decide +kernel)⟩⟩

theorem wit_TakeoverAndVaultComplete :
    (∃ (s : State), s.mode = .paired ∧ s.hbRecent = false ∧ s.witRecent 20000000 = false ∧ s.bsv.lossAt = none) ∧
    (∃ (s : State), s.bsv.lossAt.isSome = true ∧ s.quorum = true ∧ s.mode = .paired) ∧
    (∃ (t0 : Nat) (s : State), s.bsv.lossAt = some t0 ∧ t0 + 40000000 ≤ s.now ∧ s.quorum = false ∧ s.mode = .paired) ∧
    (∃ (s : State), s.mode = .handover ∧ s.drained = true ∧ s.cpl.hoClaimed = true ∧ s.cpl.hoFinal = true ∧ s.finalAcked = true) ∧
    (∃ (lowNs : Nat) (s : State), 500 ≤ lowNs ∧ s.pins.pwrFailN = true ∧ serving s.mode = true) ∧
    (∃ (lowNs : Nat) (s : State), 500 ≤ lowNs ∧ s.pins.pwrFailN = true ∧ serving s.mode = false) ∧
    (∃ (s : State), s.pins.pwrFailN = false) ∧
    (∃ (s : State), s.mode = .vault ∧ s.bsv.vaultDone = false ∧ s.sgb.vaultStuck = false ∧ s.sgb.sealing = none ∧ s.vaultWritten = true ∧ s.now < s.bsv.vaultAt + oneS) ∧
    (∃ (seg : Nat) (s : State), s.mode = .vault ∧ s.bsv.vaultDone = false ∧ s.sgb.sealing = some seg ∧ s.vaultWritten = true ∧ s.now < s.bsv.vaultAt + oneS) ∧
    (∃ (s : State), s.mode = .vault ∧ s.bsv.vaultDone = false ∧ (s.sgb.vaultStuck = true ∨ s.bsv.vaultAt + oneS ≤ s.now)) ∧
    (∃ (s : State), s.mode = .vault ∧ s.bsv.vaultDone = true ∧ s.flashOk = true) :=
  ⟨⟨p0, (by decide +kernel), (by decide +kernel), (by decide +kernel), (by decide +kernel)⟩,
    ⟨onJlk (fun j => { j with asked := [0], won := [0] }) (onBsv (fun b => { b with lossAt := some 0 }) p0), (by decide +kernel), (by decide +kernel), (by decide +kernel)⟩,
    ⟨0, { p0 with now := 40000000, bsv := { p0.bsv with lossAt := some 0 } }, (by decide +kernel), (by decide +kernel), (by decide +kernel), (by decide +kernel)⟩,
    ⟨onCpl (fun c => { c with hoClaimed := true, hoFinal := true, hbPSeq := 1 }) (inMode .handover), (by decide +kernel), (by decide +kernel), (by decide +kernel), (by decide +kernel), (by decide +kernel)⟩,
    ⟨500, p0, (by decide +kernel), (by decide +kernel), (by decide +kernel)⟩,
    ⟨500, i0, (by decide +kernel), (by decide +kernel), (by decide +kernel)⟩,
    ⟨{ p0 with pins := { p0.pins with pwrFailN := false } }, (by decide +kernel)⟩,
    ⟨inMode .vault, (by decide +kernel), (by decide +kernel), (by decide +kernel), (by decide +kernel), (by decide +kernel), (by decide +kernel)⟩,
    ⟨5, onSgb (fun g => { g with sealing := some 5 }) (inMode .vault), (by decide +kernel), (by decide +kernel), (by decide +kernel), (by decide +kernel), (by decide +kernel)⟩,
    ⟨{ inMode .vault with now := oneS }, (by decide +kernel), (by decide +kernel), (by decide +kernel)⟩,
    ⟨{ inMode .vault with bsv := { (inMode .vault).bsv with vaultDone := true } }, (by decide +kernel), (by decide +kernel), (by decide +kernel)⟩⟩

theorem wit_ResetAndBootComplete :
    (∃ (lowNs : Nat) (s : State), 1000 ≤ lowNs ∧ s.pins.resetN = true) ∧
    (∃ (s : State), s.pins.resetN = false ∧ s.pins.serviceEn = false) ∧
    (∃ (s : State), s.mode = .boot ∧ s.bsv.imageLoaded = true ∧ s.trained = true) :=
  ⟨⟨1000, p0, (by decide +kernel), (by decide +kernel)⟩,
    ⟨{ State.reset with pins := { State.reset.pins with resetN := false, serviceEn := false } }, (by decide +kernel), (by decide +kernel)⟩,
    ⟨{ State.reset with bsv := { State.reset.bsv with imageLoaded := true } }, (by decide +kernel), (by decide +kernel), (by decide +kernel)⟩⟩

theorem wit_PinsAndPowerComplete :
    (∃ (s : State), s.pins.prsntN = false ∧ serving s.mode = true) ∧
    (∃ (s : State), s.pins.prsntN = false ∧ serving s.mode = false) ∧
    (∃ (s : State), s.pins.prsntN = true) ∧
    (∃ (s : State), s.pins.prsntN = false ∧ s.pins.railsGood = true ∧ s.pins.prsntLowAt + 50000000 ≤ s.now) ∧
    (∃ (s : State), s.mode = .paired ∧ s.flag R.BSV.MODE_CFG.EJECT_HANDOVER = true ∧ s.partnerPaired = true) ∧
    (∃ (s : State), (s.mode ≠ .paired ∨ s.flag R.BSV.MODE_CFG.EJECT_HANDOVER = false ∨ s.partnerPaired = false)) ∧
    (∃ (s : State), s.regsWf = true ∧ s.pins.railsGood = true ∧ s.pins.resetN = false ∧ s.pins.resetFallAt + 10000 ≤ s.now) ∧
    (∃ (s : State), s.pins.railsGood = false) :=
  ⟨⟨p0, (by decide +kernel), (by decide +kernel)⟩,
    ⟨i0, (by decide +kernel), (by decide +kernel)⟩,
    ⟨{ i0 with pins := { i0.pins with prsntN := true } }, (by decide +kernel)⟩,
    ⟨{ i0 with now := 50000000, pins := { i0.pins with railsGood := true } }, (by decide +kernel), (by decide +kernel), (by decide +kernel)⟩,
    ⟨ph.wf R.BSV.MODE_CFG.EJECT_HANDOVER 1, (by decide +kernel), (by decide +kernel), (by decide +kernel)⟩,
    ⟨p0, (by decide +kernel)⟩,
    ⟨{ p0 with now := 10000, pins := { p0.pins with railsGood := true, resetN := false, resetFallAt := 0 } }, (by decide +kernel), (by decide +kernel), (by decide +kernel), (by decide +kernel)⟩,
    ⟨{ p0 with pins := { p0.pins with railsGood := false } }, (by decide +kernel)⟩⟩

theorem wit_StampsIncrease :
    (∃ (s : State) (unit : Nat) (o : Ostamp), s.straps.head ≤ 1 ∧ unit < 128 ∧ s.nextStamp unit = some o) ∧
    (∃ (s t : State) (u v : Nat) (o p : Ostamp), s.straps.head ≤ 1 ∧ t.straps.head ≤ 1 ∧ u < 128 ∧ v < 128 ∧ s.nextStamp u = some o ∧ t.nextStamp v = some p ∧ (s.straps.head ≠ t.straps.head ∨ u ≠ v)) :=
  ⟨⟨run_ p0, 0, _, (by decide +kernel), (by decide +kernel), rfl⟩,
    ⟨run_ p0, run_ p0, 0, 127, _, _, (by decide +kernel), (by decide +kernel), (by decide +kernel), (by decide +kernel), rfl, rfl, (by decide +kernel)⟩⟩

theorem wit_StampRule :
    (∃ (s : State) (unit : Nat), s.straps.head ≤ 1 ∧ unit < 128 ∧ (s.tbs.started = false ∨ s.rf R.TBS.CEILING.CEIL ≤ s.tbs.phys)) ∧
    (∃ (s : State) (unit : Nat) (b : _), s.straps.head ≤ 1 ∧ unit < 128 ∧ s.tbs.started = true ∧ s.tbs.phys < s.rf R.TBS.CEILING.CEIL ∧ b = max (physLog (agetD s.tbs.issuers unit 0)) (physLog s.tbs.floor) ∧ b / 2 ^ 24 < s.tbs.phys) ∧
    (∃ (s : State) (unit : Nat) (b : _), s.straps.head ≤ 1 ∧ unit < 128 ∧ s.tbs.started = true ∧ s.tbs.phys < s.rf R.TBS.CEILING.CEIL ∧ b = max (physLog (agetD s.tbs.issuers unit 0)) (physLog s.tbs.floor) ∧ s.tbs.phys ≤ b / 2 ^ 24 ∧ b % 2 ^ 24 ≠ 0xFFFFFF) ∧
    (∃ (s : State) (unit : Nat) (b : _), s.straps.head ≤ 1 ∧ unit < 128 ∧ s.tbs.started = true ∧ s.tbs.phys < s.rf R.TBS.CEILING.CEIL ∧ b = max (physLog (agetD s.tbs.issuers unit 0)) (physLog s.tbs.floor) ∧ s.tbs.phys ≤ b / 2 ^ 24 ∧ b % 2 ^ 24 = 0xFFFFFF) :=
  ⟨⟨p0, 0, (by decide +kernel), (by decide +kernel), (by decide +kernel)⟩,
    ⟨run_ p0, 127, (max (physLog (agetD (run_ p0).tbs.issuers (127 : Nat) 0)) (physLog (run_ p0).tbs.floor)), (by decide +kernel), (by decide +kernel), (by decide +kernel), (by decide +kernel), rfl, (by decide +kernel)⟩,
    ⟨onTbs (fun t => { t with floor := mkStamp 20000000000 5 0 }) (run_ p0), 0, (max (physLog (agetD (onTbs (fun t => { t with floor := mkStamp 20000000000 5 0 }) (run_ p0)).tbs.issuers (0 : Nat) 0)) (physLog (onTbs (fun t => { t with floor := mkStamp 20000000000 5 0 }) (run_ p0)).tbs.floor)), (by decide +kernel), (by decide +kernel), (by decide +kernel), (by decide +kernel), rfl, (by decide +kernel), (by decide +kernel)⟩,
    ⟨onTbs (fun t => { t with floor := mkStamp 20000000000 0xFFFFFF 0 }) (run_ p0), 0, (max (physLog (agetD (onTbs (fun t => { t with floor := mkStamp 20000000000 0xFFFFFF 0 }) (run_ p0)).tbs.issuers (0 : Nat) 0)) (physLog (onTbs (fun t => { t with floor := mkStamp 20000000000 0xFFFFFF 0 }) (run_ p0)).tbs.floor)), (by decide +kernel), (by decide +kernel), (by decide +kernel), (by decide +kernel), rfl, (by decide +kernel), (by decide +kernel)⟩⟩

theorem wit_TimebaseCompletes :
    (∃ (s : State), s.tbs.ceilWrite = none ∧ s.tbs.started = true ∧ s.rf R.TBS.CEILING.CEIL ≤ s.tbs.phys + 10 * oneS ∧ s.bsv.jobs = [] ∧ s.flashOk = true) ∧
    (∃ (c : Nat) (s : State), s.tbs.ceilWrite = some c ∧ s.tbs.ceilWaits = false) ∧
    (∃ (c : Nat) (s : State), s.regsWf = true ∧ s.tbs.started = true ∧ s.tbs.stepAfterCeil = none ∧ s.tbs.phys < c ∧ c < 2 ^ 64) ∧
    (∃ (s : State), s.tbs.started = true ∧ s.rf R.TBS.CEILING.CEIL ≤ s.tbs.phys ∧ s.flag R.TBS.STAT.CEIL_STALL = false) ∧
    (∃ (s : State), s.tbs.rtcValid = true ∧ s.tbs.rtcUpdAt + 3600 * oneS ≤ s.tbs.phys) ∧
    (∃ (u : Fin 128) (b : Nat) (s : State), aget s.tbs.ovfStalls u = some b ∧ b < s.tbs.phys) :=
  ⟨⟨onTbs (fun t => { t with started := true }) p0, (by decide +kernel), (by decide +kernel), (by decide +kernel), (by decide +kernel), (by decide +kernel)⟩,
    ⟨_, onTbs (fun t => { t with ceilWrite := some 7, ceilWaits := false }) p0, rfl, (by decide +kernel)⟩,
    ⟨2 ^ 64 - 1, run_ p0, (by decide +kernel), (by decide +kernel), (by decide +kernel), (by decide +kernel), (by decide +kernel)⟩,
    ⟨onTbs (fun t => { t with started := true }) p0, (by decide +kernel), (by decide +kernel), (by decide +kernel)⟩,
    ⟨onTbs (fun t => { t with rtcValid := true, phys := 3600 * oneS }) p0, (by decide +kernel), (by decide +kernel)⟩,
    ⟨127, _, onTbs (fun t => { t with ovfStalls := [(127, 1)], phys := 2 }) p0, rfl, (by decide +kernel)⟩⟩

theorem wit_TetherCompletes :
    (∃ (s : State), s.tetherRuns = true ∧ s.flag R.TBS.STAT.ROLE = true ∧ s.tbs.exAt + 1000 ≤ s.tbs.phys) ∧
    (∃ (s : State), s.regsWf = true ∧ s.tetherRuns = true ∧ s.flag R.TBS.STAT.ROLE = false ∧ s.mode = .paired) ∧
    (∃ (ex : Fin 4294967296) (t1 : Nat) (s : State), s.regsWf = true ∧ aget s.tbs.exch ex = some t1 ∧ s.tetherRuns = true ∧ s.flag R.TBS.STAT.ROLE = true ∧ s.stepPhase = false) ∧
    (∃ (ex : Fin 4294967296) (t1 : Nat) (s : State), aget s.tbs.exch ex = some t1 ∧ t1 + 2000 ≤ s.tbs.phys) ∧
    (∃ (s : State), (s.mode = .paired ∨ s.mode = .joining) ∧ s.flag R.TBS.STAT.LOCK = true ∧ s.tbs.lastDone + 4000 ≤ s.tbs.phys) :=
  ⟨⟨(run_ ph).wf R.TBS.STAT.ROLE 1, (by decide +kernel), (by decide +kernel), (by decide +kernel)⟩,
    ⟨run_ ph, (by decide +kernel), (by decide +kernel), (by decide +kernel), (by decide +kernel)⟩,
    ⟨0, _, (onTbs (fun t => { t with exch := [(0, 1)], stepDone := true }) (run_ ph)).wf R.TBS.STAT.ROLE 1, (by decide +kernel), rfl, (by decide +kernel), (by decide +kernel), (by decide +kernel)⟩,
    ⟨0, _, onTbs (fun t => { t with exch := [(0, 1)] }) (run_ ph), rfl, (by decide +kernel)⟩,
    ⟨(run_ ph).wf R.TBS.STAT.LOCK 1, (by decide +kernel), (by decide +kernel), (by decide +kernel)⟩⟩

theorem wit_CommitWait :
    (∃ (op : Nat) (q : Nat) (c : IoCmd) (s : State) (u : State) (v : State) (o : Ostamp), aget s.io.cmds op = some c ∧ c.fromPartner = false ∧ s.mode ≠ .vault ∧ s.ackDurable c = true ∧ s.heldOf c = false ∧ s.commitPassed c.ostamp = true ∧ c.conn = some q ∧ s.issue (s.nvtUnit q) = (some o, u) ∧ v = State.complete { u with io := { u.io with cqLog := u.io.cqLog ++ [(o, q, c.cid)] } } op 0 0 false) ∧
    (∃ (op : Nat) (c : IoCmd) (s : State), aget s.io.cmds op = some c ∧ c.fromPartner = false ∧ c.ostamp ≠ 0 ∧ s.commitPassed c.ostamp = false) ∧
    (∃ (o : Ostamp) (s : State), s.commitPassed o = true) :=
  ⟨⟨3, 1, c0, cmdAt, _, _, _, (by decide +kernel), (by decide +kernel), (by decide +kernel), (by decide +kernel), (by decide +kernel), (by decide +kernel), (by decide +kernel), (pair_some (by decide +kernel)), rfl⟩,
    ⟨3, c0, onTbs (fun t => { t with phys := 0 }) cmdAt, (by decide +kernel), (by decide +kernel), (by decide +kernel), (by decide +kernel)⟩,
    ⟨1, run_ i0, (by decide +kernel)⟩⟩

theorem wit_JournalCompletes :
    (∃ (op : Nat) (c : IoCmd) (o : Ostamp) (s : State) (u : State), aget s.io.cmds op = some c ∧ c.stage = .active ∧ c.grains ≠ [] ∧ c.doneN < c.grains.length ∧ (∀ g ∈ leftGrains c, grainReady g = true ∧ s.grainHeld op c.ns g.gi = false) ∧ s.moveHolds c.ns = false ∧ s.hitsExpired c = false ∧ s.prepPaths c.ns (((s.nextGrains c).filter (fun g => !(s.grainRecs c g).isEmpty)).filter (fun g => g.st != .unmap || s.leafEntry c.ns g.gi != 0) |>.map (fun g => g.gi)) = [] ∧ groupOrder ((s.nextGrains c).flatMap (s.grainRecs c)) ≠ [] ∧ s.stampGroup (b2n c.adopted) (groupOrder ((s.nextGrains c).flatMap (s.grainRecs c))) = .done o u) ∧
    (∃ (s : State), s.mirrors = false) ∧
    (∃ (r : JRec) (s : State) (l : _), s.mirrors = false ∧ l ≠ r.lane) ∧
    (∃ (lane : Fin 32) (s : State), lane ≠ 31 ∧ (s.lane lane).queue ≠ [] ∧ (s.lane lane).firstAt + s.rf R.JRN.CFG.FLUSH_NS ≤ s.estamp ∧ serving s.mode = true ∧ s.mayProgram = true ∧ s.firstPool ≠ none ∧ (s.lane lane).seg ≠ 0 ∧ (s.lane lane).tilePages < 4) ∧
    (∃ (s : State) (u : State), serving s.mode = true ∧ s.mayProgram = true ∧ s.firstPool ≠ none ∧ u = s.meterFlush ∧ serving u.mode = true ∧ u.mayProgram = true ∧ u.firstPool ≠ none ∧ u.laneDue 31 = true ∧ (u.lane 31).seg ≠ 0 ∧ (u.lane 31).tilePages < 4) ∧
    (∃ (lane : Fin 32) (o : Ostamp) (s : State) (u : State), s.mirrors = true ∧ (s.lane lane).lastAt + 10000 ≤ s.estamp ∧ o = mkStamp s.estamp 0 (s.origin lane) ∧ u = (if s.issueBase lane < physLog o then s.issued lane o else s)) ∧
    (∃ (o : Nat) (s : State), takesMirror s.mode = true ∧ (s.mode = .joining → s.cpl.loaded = true) ∧ s.mayApply o = true) ∧
    (∃ (slice : Nat) (a : List JRec) (r : JRec) (s : State) (u : State), applyRecs slice a s = some u ∧ u.applyRec slice r = none) :=
  ⟨(by
      obtain ⟨o, u, h⟩ := stamp_done grpAt (b2n c1.adopted) (groupOrder ((grpAt.nextGrains c1).flatMap (grpAt.grainRecs c1))) (by decide +kernel) (by decide +kernel) (by decide +kernel)
      exact ⟨3, c1, o, grpAt, u, (by decide +kernel), (by decide +kernel), (by decide +kernel), (by decide +kernel), (by decide +kernel), (by decide +kernel), (by decide +kernel), (by decide +kernel), (by decide +kernel), h⟩),
    ⟨p0, (by decide +kernel)⟩,
    ⟨r0, p0, 1, (by decide +kernel), (by decide +kernel)⟩,
    ⟨0, { onMaps (fun m => { m with pools := [(0, { baseNew := b0 })] }) (onMpe (fun m => { m with lanes := [(0, { queue := [r0], seg := 5 })] }) (run_ p0)) with now := 0 }, (by decide +kernel), (by decide +kernel), (by decide +kernel), (by decide +kernel), (by decide +kernel), (by decide +kernel), (by decide +kernel), (by decide +kernel)⟩,
    ⟨onMaps (fun m => { m with pools := [(0, { baseNew := b0 })] }) (onMpe (fun m => { m with lanes := [(31, { queue := [r0], seg := 5 })] }) (run_ p0)), _, (by decide +kernel), (by decide +kernel), (by decide +kernel), rfl, (by decide +kernel), (by decide +kernel), (by decide +kernel), (by decide +kernel), (by decide +kernel), (by decide +kernel)⟩,
    ⟨0, _, run_ ph, _, (by decide +kernel), (by decide +kernel), rfl, rfl⟩,
    ⟨5, onMpe (fun m => { m with delta := [{ r0 with ostamp := 5 }], pHor := (List.range 32).map (fun l => (l, 5)) }) ph, (by decide +kernel), (by decide +kernel), (by decide +kernel)⟩,
    ⟨0, [], rCtInsert 0 { gen := 1 } {}, p0, p0, (by decide +kernel), (by decide +kernel)⟩⟩

theorem wit_PortsComplete :
    (∃ (s : State), s.regsWf = true) ∧
    (∃ (port : Fin 16) (v : BitVec 32) (s : State), s.regsWf = true ∧ (s.portMode port = fld v.toNat 0 2 ∨ s.portMode port = 3 ∨ fld v.toNat 0 2 = 3)) ∧
    (∃ (port : Fin 16) (v : BitVec 32) (s : State), s.regsWf = true ∧ s.portMode port ≠ fld v.toNat 0 2 ∧ s.portMode port ≠ 3 ∧ fld v.toNat 0 2 ≠ 3) ∧
    (∃ (port : Fin 16) (k : Fin 4) (s : State), lportIn (s.portMode port) k = true ∧ fusedOff s.fuses.variant (6 + portH port) = false ∧ s.mode ∉ [Sys2Proof.Mode.boot, .vault, .service] ∧ (∀ j ∈ lportLanes (s.portMode port) k, bit (s.rf (R.HFX.PORT_STAT.FENCED (portH port) (portN port))) j = false)) ∧
    (∃ (q : Nat) (c : Conn) (s : State), aget s.io.conns q = some c ∧ c.xport = 2 ∧ (∀ t, c.cnpAt = some t → t + 50000 ≤ s.now)) ∧
    (∃ (q : Nat) (c : Conn) (s : State), aget s.io.conns q = some c ∧ c.xport = 2) ∧
    (∃ (q : Nat) (c : Conn) (s : State), aget s.io.conns q = some c ∧ c.xport = 2 ∧ c.rate < 4294967296 ∧ c.gainAt + 55000 ≤ s.now) ∧
    (∃ (lp : Fin 64) (s : State), s.flag (R.HFX.PORT_CFG.PFC_EN (lp.val / 16) (lp.val / 4 % 4)) = true ∧ s.lportUp lp = true) :=
  ⟨⟨p0, (by decide +kernel)⟩,
    ⟨0, 0, p0, (by decide +kernel), (by decide +kernel)⟩,
    ⟨0, 1, p0.wf (R.HFX.PORT_CFG.MODE 0 0) 0, (by decide +kernel), (by decide +kernel), (by decide +kernel), (by decide +kernel)⟩,
    ⟨15, 0, p0.wf (R.HFX.PORT_CFG.MODE 3 3) 0, (by decide +kernel), (by decide +kernel), (by decide +kernel), (by decide +kernel)⟩,
    ⟨4, roce, hs, (by decide +kernel), (by decide +kernel), (fun _ h => by cases h)⟩,
    ⟨4, roce, hs, (by decide +kernel), (by decide +kernel)⟩,
    ⟨4, { roce with rate := 7 }, { onIo (fun i => { i with conns := [(4, { roce with rate := 7 })] }) p0 with now := 55000 }, (by decide +kernel), (by decide +kernel), (by decide +kernel), (by decide +kernel)⟩,
    ⟨0, hup.wf (R.HFX.PORT_CFG.PFC_EN 0 0) 1, (by decide +kernel), (by decide +kernel)⟩⟩

theorem wit_ConnectionsComplete :
    (∃ (q : Nat) (lp : Fin 64) (port : Fin 65536) (hd : Bool) (dd : Bool) (s : State), s.flag R.NVT.XPORT_CFG.TCP_EN = true ∧ s.lportUp lp = true ∧ aget s.io.conns q = none ∧ (port.val = s.rf R.NVT.TCP_PORT.PORT ∨ port.val = s.rf R.NVT.DISC_PORT.PORT) ∧ (s.flag R.NVT.XPORT_CFG.HDGST_REQ = true → hd = true) ∧ (s.flag R.NVT.XPORT_CFG.DDGST_REQ = true → dd = true)) ∧
    (∃ (q : Nat) (c : Conn) (s : State), aget s.io.conns q = some c) ∧
    (∃ (q : Nat) (lp : Fin 64) (s : State), s.flag R.NVT.XPORT_CFG.ROCE_EN = true ∧ s.lportUp lp = true ∧ aget s.io.conns q = none) ∧
    (∃ (id : Nat) (k : Ctl) (s : State), aget s.io.ctls id = some k ∧ k.kato ≠ 0 ∧ k.kaAt + k.kato ≤ s.now) ∧
    (∃ (q psn : Nat) (k : Conn) (s : State), aget s.io.conns q = some k ∧ k.xport = 2 ∧ psn ≠ k.psn) ∧
    (∃ (q : Nat) (cid : Nat) (err : Option Nat) (op : Nat) (c : IoCmd) (s : State), s.io.cmds.find? (fun e => e.2.conn == some q && e.2.cid == cid && (e.2.stage == Stage.data || err.isSome)) = some (op, c)) ∧
    (∃ (q ttag off : Nat) (d : Bytes) (last : Bool) (s : State) (k : Conn) (r x : R2t) (c : IoCmd), aget s.io.conns q = some k ∧ k.xport = 1 ∧ d.length ≤ 131072 ∧ k.r2ts.find? (fun r => r.idx == ttag % 4096) = some r ∧ r.gen = ttag / 4096 ∧ aget s.io.cmds r.op = some c ∧ off + d.length ≤ c.need ∧ k.r2ts.find? (fun x => x.op == r.op && decide (x.off ≤ off) && decide (off + d.length ≤ x.off + x.len)) = some x ∧ (last = true → x.len ≤ x.got + d.length) ∧ x.got + d.length < x.len) :=
  ⟨⟨9, 0, 4420, false, false, hup, (by decide +kernel), (by decide +kernel), (by decide +kernel), (by decide +kernel), (by decide +kernel), (by decide +kernel)⟩,
    ⟨3, fresh, hs, (by decide +kernel)⟩,
    ⟨9, 0, hup.wf R.NVT.XPORT_CFG.ROCE_EN 1, (by decide +kernel), (by decide +kernel), (by decide +kernel)⟩,
    ⟨1, ctl0, { hs with now := 10 }, (by decide +kernel), (by decide +kernel), (by decide +kernel)⟩,
    ⟨4, 1, roce, hs, (by decide +kernel), (by decide +kernel), (by decide +kernel)⟩,
    ⟨2, 5, none, 3, wr0, hcmd wr0, (by decide +kernel)⟩,
    ⟨2, 0, 0, [1], false, hcmd wr0, ioq, { idx := 0, gen := 0, op := 3, off := 0, len := 8 }, { idx := 0, gen := 0, op := 3, off := 0, len := 8 }, wr0, (by decide +kernel), (by decide +kernel), (by decide +kernel), (by decide +kernel), (by decide +kernel), (by decide +kernel), (by decide +kernel), (by decide +kernel), (by decide +kernel), (by decide +kernel)⟩⟩

theorem wit_QueuesComplete :
    (∃ (q : Nat) (size : Nat) (h : Nat) (hostNqn : Bytes) (subNqn : Bytes) (c : Conn) (s : State), aget s.io.conns q = some c ∧ c.ctl = none ∧ c.ready = true ∧ c.xport ≠ 3 ∧ 2 ≤ size ∧ size ≤ 4096 ∧ s.nqnLookup hostNqn subNqn = some h ∧ s.handleOk h = true ∧ sdState (s.sliceDesc (h % 4096)) = 1) ∧
    (∃ (q : Nat) (qid : Nat) (size : Nat) (c : Conn) (s : State), aget s.io.conns q = some c ∧ c.ctl = none ∧ c.ready = true ∧ c.xport ≠ 3 ∧ 2 ≤ size ∧ size ≤ 4096 ∧ qid ≠ 0) ∧
    (∃ (q : Nat) (h : Nat) (n : Nat) (c : Conn) (s : State), s.pairsOf h < sdQueues (s.sliceDesc (h % 4096)) ∧ s.rf R.NVT.QPOOL_FREE.FREE ≠ 0 ∧ s.regsWf = true ∧ s.nextCtl = some n ∧ aget s.io.conns q = some c) ∧
    (∃ (q : Nat) (qid : Nat) (cntlid : Nat) (hostId : Bytes) (k : Ctl) (c : Conn) (s : State), aget s.io.ctls cntlid = some k ∧ k.hostId = hostId ∧ qid ≤ k.ioq ∧ s.pairsOf k.slice < sdQueues (s.sliceDesc (k.slice % 4096)) ∧ s.rf R.NVT.QPOOL_FREE.FREE ≠ 0 ∧ s.regsWf = true ∧ aget s.io.conns q = some c) ∧
    (∃ (q : Nat) (pasid : Fin 1048576) (size : Nat) (h : Nat) (s : State) (u : State), aget s.io.conns q = none ∧ s.pasidLookup pasid = some h ∧ s.handleOk h = true ∧ sdState (s.sliceDesc (h % 4096)) = 1 ∧ 2 ≤ size ∧ size ≤ 4096 ∧ u = ({ s with io := { s.io with conns := aset s.io.conns q { xport := 3, lport := 0xFF, ready := true, pasid := pasid, gainAt := s.now } } }.newCtl q h size 0 []) ∧ ((aget u.io.conns q).bind (fun k => k.ctl)).isSome = true) ∧
    (∃ (q : Nat) (c : Conn) (s : State), aget s.io.conns q = some c ∧ c.xport = 3) ∧
    (∃ (q : Nat) (pasid : Fin 1048576) (c : Conn) (s : State), aget s.io.conns q = some c ∧ c.xport = 3 ∧ c.pasid = pasid) ∧
    (∃ (q : Nat) (pasid : Fin 1048576) (c : Conn) (s : State), aget s.io.conns q = some c ∧ c.xport = 3 ∧ c.pasid ≠ pasid) :=
  ⟨⟨3, 32, 0, [0x68], [0x73], fresh, { hs with mem := [(0x100000000000 + 72064, 102), (0x100000000000 + 72065, 132), (0x100000000000 + 72066, 250), (0x100000000000 + 72067, 10), (0x100000000000 + 72068, 206), (0x100000000000 + 72069, 51), (0x100000000000 + 72070, 101), (0x100000000000 + 72071, 193), (0x100000000000 + 72072, 250), (0x100000000000 + 72073, 190), (0x100000000000 + 72075, 142), (0x100000000000 + 72076, 38), (0x100000000000 + 72077, 161), (0x100000000000 + 72078, 73), (0x100000000000 + 72079, 141), (0x100000000000 + 72080, 200), (0x100000000000 + 72081, 55), (0x100000000000 + 72082, 205), (0x100000000000 + 72083, 129), (0x100000000000 + 72084, 76), (0x100000000000 + 72085, 75), (0x100000000000 + 72086, 60), (0x100000000000 + 72087, 49), (0x100000000000 + 72088, 42), (0x100000000000 + 72089, 37), (0x100000000000 + 72090, 82), (0x100000000000 + 72091, 156), (0x100000000000 + 72092, 62), (0x100000000000 + 72093, 167), (0x100000000000 + 72094, 114), (0x100000000000 + 72095, 227), (0x100000000000 + 72099, 0x80)] }, (by decide +kernel), (by decide +kernel), (by decide +kernel), (by decide +kernel), (by decide +kernel), (by decide +kernel), (by decide +kernel), (by decide +kernel), (by decide +kernel)⟩,
    ⟨3, 1, 2, fresh, hs, (by decide +kernel), (by decide +kernel), (by decide +kernel), (by decide +kernel), (by decide +kernel), (by decide +kernel), (by decide +kernel)⟩,
    ⟨3, 0, 1, fresh, { hs with io := { hs.io with ctls := [] } }, (by decide +kernel), (by decide +kernel), (by decide +kernel), (by decide +kernel), (by decide +kernel)⟩,
    ⟨3, 1, 1, [1], ctl0, fresh, hs, (by decide +kernel), (by decide +kernel), (by decide +kernel), (by decide +kernel), (by decide +kernel), (by decide +kernel), (by decide +kernel)⟩,
    ⟨9, 7, 32, 0, { hs with mem := [(0x100000000000 + 31, 0x80)] }, _, (by decide +kernel), (by decide +kernel), (by decide +kernel), (by decide +kernel), (by decide +kernel), (by decide +kernel), rfl, (by decide +kernel)⟩,
    ⟨5, anxq, hs, (by decide +kernel), (by decide +kernel)⟩,
    ⟨5, 7, anxq, hs, (by decide +kernel), (by decide +kernel), (by decide +kernel)⟩,
    ⟨5, 0, anxq, hs, (by decide +kernel), (by decide +kernel), (by decide +kernel)⟩⟩

theorem wit_AdminCommandsComplete :
    (∃ (q : Nat) (c : NvmeCmd) (k : Conn) (id : Nat) (ctl : Ctl) (s : State) (u : State), u = s.arrived q c ∧ s.acceptsAdmin q 0x106 c k id ctl ∧ nthD c.cdw 0 0 % 256 = 1) ∧
    (∃ (q : Nat) (c : NvmeCmd) (k : Conn) (id : Nat) (ctl : Ctl) (s : State) (u : State) (n : _), u = s.arrived q c ∧ s.acceptsAdmin q 0x106 c k id ctl ∧ nthD c.cdw 0 0 % 256 = 0 ∧ u.nsOf c.nsid = some n ∧ n.desc.slice = ctl.slice) ∧
    (∃ (q : Nat) (c : NvmeCmd) (k : Conn) (id : Nat) (ctl : Ctl) (s : State) (u : State), u = s.arrived q c ∧ s.acceptsAdmin q 0x106 c k id ctl ∧ nthD c.cdw 0 0 % 256 = 0 ∧ u.nsOf c.nsid = none) ∧
    (∃ (q : Nat) (c : NvmeCmd) (k : Conn) (id : Nat) (ctl : Ctl) (s : State) (u : State) (len : Nat) (off : Nat), u = s.arrived q c ∧ s.acceptsAdmin q 0x102 c k id ctl ∧ nthD c.cdw 0 0 % 256 = 0x0C ∧ len = (nthD c.cdw 0 0 / 65536 + nthD c.cdw 1 0 % 65536 * 65536 + 1) * 4 ∧ off = nthD c.cdw 2 0 + nthD c.cdw 3 0 * 2 ^ 32) ∧
    (∃ (q : Nat) (c : NvmeCmd) (k : Conn) (id : Nat) (ctl : Ctl) (s : State) (u : State), u = s.arrived q c ∧ s.acceptsAdmin q 0x10A c k id ctl) ∧
    (∃ (q : Nat) (c : NvmeCmd) (k : Conn) (id : Nat) (ctl : Ctl) (s : State) (u : State), u = s.arrived q c ∧ s.acceptsAdmin q 0x109 c k id ctl ∧ nthD c.cdw 0 0 % 256 = 0x0F) ∧
    (∃ (q : Nat) (c : NvmeCmd) (k : Conn) (id : Nat) (ctl : Ctl) (s : State) (u : State) (n : Nat), u = s.arrived q c ∧ s.acceptsAdmin q 0x109 c k id ctl ∧ nthD c.cdw 0 0 % 256 = 0x07 ∧ n = min (min 1024 (sdQueues (u.sliceDesc (ctl.slice % 4096)) - 1)) (nthD c.cdw 1 0 % 65536 + 1)) ∧
    (∃ (q : Nat) (c : NvmeCmd) (k : Conn) (id : Nat) (ctl : Ctl) (s : State) (u : State), u = s.arrived q c ∧ s.acceptsAdmin q 0x118 c k id ctl) ∧
    (∃ (q : Nat) (c : NvmeCmd) (k : Conn) (id : Nat) (ctl : Ctl) (s : State) (u : State) (op : Nat) (m : IoCmd), u = s.arrived q c ∧ s.acceptsAdmin q 0x108 c k id ctl ∧ u.io.cmds.find? (fun e => e.2.cid == nthD c.cdw 0 0 / 65536 % 65536 && (match e.2.conn.bind (fun x => aget u.io.conns x) with | some k => k.ctl == some id && k.qid == nthD c.cdw 0 0 % 65536 | none => false)) = some (op, m) ∧ m.stage = .waiting) ∧
    (∃ (q : Nat) (c : NvmeCmd) (k : Conn) (id : Nat) (ctl : Ctl) (s : State) (u : State) (e : Nat) (l : List Nat), u = s.arrived q c ∧ s.acceptsAdmin q 0x10C c k id ctl ∧ ctl.events = e :: l) ∧
    (∃ (q : Nat) (c : NvmeCmd) (k : Conn) (id : Nat) (ctl : Ctl) (s : State) (u : State), u = s.arrived q c ∧ s.acceptsAdmin q 0x10C c k id ctl ∧ ctl.events = []) ∧
    (∃ (q : Nat) (c : NvmeCmd) (k : Conn) (s : State), aget s.io.conns q = some k ∧ k.ctl.isSome = true ∧ s.chkTransport q k c = none ∧ s.cidBusy q c.cid = false) :=
  ⟨⟨1, ca [1], adm, 1, ctl0, hs, _, rfl, (by unfold State.acceptsAdmin; decide +kernel), (by decide +kernel)⟩,
    ⟨1, { ca [] with nsid := 1 }, adm, 1, ctl0, hs, _, ns1, rfl, (by unfold State.acceptsAdmin; decide +kernel), (by decide +kernel), (by decide +kernel), (by decide +kernel)⟩,
    ⟨1, ca [0], adm, 1, ctl0, hs, _, rfl, (by unfold State.acceptsAdmin; decide +kernel), (by decide +kernel), (by decide +kernel)⟩,
    ⟨1, ca [0x0C], adm, 1, ctl0, hs, _, _, _, rfl, (by unfold State.acceptsAdmin; decide +kernel), (by decide +kernel), rfl, rfl⟩,
    ⟨1, ca [], adm, 1, ctl0, hs, _, rfl, (by unfold State.acceptsAdmin; decide +kernel)⟩,
    ⟨1, ca [0x0F], adm, 1, ctl0, hs, _, rfl, (by unfold State.acceptsAdmin; decide +kernel), (by decide +kernel)⟩,
    ⟨1, ca [7], adm, 1, ctl0, hs, _, _, rfl, (by unfold State.acceptsAdmin; decide +kernel), (by decide +kernel), rfl⟩,
    ⟨1, ca [], adm, 1, ctl0, hs, _, rfl, (by unfold State.acceptsAdmin; decide +kernel)⟩,
    ⟨1, ca [0x50001], adm, 1, ctl0, hcmd rd0, _, 3, rd0, rfl, (by unfold State.acceptsAdmin; decide +kernel), (by decide +kernel), (by decide +kernel)⟩,
    ⟨1, ca [], adm, 1, { ctl0 with events := [3] }, onIo (fun i => { i with ctls := [(1, { ctl0 with events := [3] })] }) hs, _, 3, [], rfl, (by unfold State.acceptsAdmin; decide +kernel), (by decide +kernel)⟩,
    ⟨1, ca [], adm, 1, ctl0, hs, _, rfl, (by unfold State.acceptsAdmin; decide +kernel), (by decide +kernel)⟩,
    ⟨1, ca [], adm, hs, (by decide +kernel), (by decide +kernel), (by decide +kernel), (by decide +kernel)⟩⟩

theorem wit_HostCommandsComplete :
    (∃ (q : Nat) (c : NvmeCmd) (k : Conn) (s : State) (u : State) (row : Instr × Nat), row ∈ [(Instr.readCmd q c, oRead), (.writeCmd q c, oWrite), (.flushCmd q c, oFlush), (.writeZeroes q c, oWz), (.datasetManagement q c, oDsm), (.copyCmd q c, oCopy), (.compareCmd q c, oCompare), (.reservationRegister q c, oResReg), (.reservationAcquire q c, oResAcq), (.reservationRelease q c, oResRel), (.reservationReport q c, oResRep)] ∧ s.accepts q row.2 k c ∧ u = ((s.arrived q c).insertCmd ((s.arrived q c).takenCmd q row.2 k c)).2) ∧
    (∃ (q : Nat) (c : NvmeCmd) (k : Conn) (s : State) (u : State) (row : Instr × Nat), row ∈ [(Instr.readCmd q c, oRead), (.writeCmd q c, oWrite), (.flushCmd q c, oFlush), (.writeZeroes q c, oWz), (.datasetManagement q c, oDsm), (.copyCmd q c, oCopy), (.compareCmd q c, oCompare), (.reservationRegister q c, oResReg), (.reservationAcquire q c, oResAcq), (.reservationRelease q c, oResRel), (.reservationReport q c, oResRep)] ∧ aget s.io.conns q = some k ∧ k.ctl.isSome = true ∧ k.err = false ∧ k.qid ≠ 0 ∧ (s.arrived q c).check q row.2 k c = some u) ∧
    (∃ (op : Nat) (c : IoCmd) (s : State) (u : State) (v : State), aget s.io.cmds op = some c ∧ c.stage = .waiting ∧ s.admitting = true ∧ s.turnedAway c = none ∧ s.moveWaits c.ns c.opc = false ∧ s.pathOn c = true ∧ (s.wcNeed c ≠ 0 → s.shareRoom c = true ∧ s.writeRoom c = true) ∧ s.bridleTake (c.slice % 4096) (opCost c.opc) (s.byteCost c) = some v ∧ u = v.takeTurn op) ∧
    (∃ (op : Nat) (c : IoCmd) (s : State) (sct : Nat) (sc : Nat) (dnr : Bool) (q : Nat), aget s.io.cmds op = some c ∧ c.stage = .waiting ∧ s.admitting = true ∧ s.turnedAway c = some (sct, sc, dnr) ∧ c.conn = some q) :=
  ⟨⟨2, { cid := 9, nsid := 1, sgls := [{ typ := 5, sub := 0xA, len := 4096 }] }, ioq, hs, _, (.readCmd 2 { cid := 9, nsid := 1, sgls := [{ typ := 5, sub := 0xA, len := 4096 }] }, oRead), (by decide +kernel), (by unfold State.accepts; decide +kernel), rfl⟩,
    ⟨2, { cid := 9 }, ioq, hs, _, (.readCmd 2 { cid := 9 }, oRead), (by decide +kernel), (by decide +kernel), (by decide +kernel), (by decide +kernel), (by decide +kernel), (some_get (by decide +kernel))⟩,
    ⟨3, rd0, run_ (hcmd rd0), _, _, (by decide +kernel), (by decide +kernel), (by decide +kernel), (by decide +kernel), (by decide +kernel), (by decide +kernel), (by decide +kernel), (some_get (by decide +kernel)), rfl⟩,
    ⟨3, rd0, run_ (onIo (fun i => { i with ana := [] }) (hcmd rd0)), 3, 2, _, 2, (by decide +kernel), (by decide +kernel), (by decide +kernel), rfl, (by decide +kernel)⟩⟩

theorem wit_PortFrame : ∃ (i : Instr) (s t : State), ((∃ q, i = .ecnMarkedPacket q ∨ i = .cnpReceived q ∨ i = .rateRegain q) ∨ (∃ l a b, i = Instr.priorityFlowControl l a b) ∨ i = .vcntClear ∨ (∃ q l rc, i = Instr.rdmaCmConnect q l rc)) ∧ exec i s = .next t :=
  ⟨.ecnMarkedPacket 0, p0, p0, (.inl ⟨0, .inl rfl⟩), rfl⟩

theorem wit_LifecycleCompletes :
    (∃ (h : Fin 1048576) (s : State) (u : State) (i : Nat) (d : Nat), s.slm.cmd = none ∧ s.blockOn Pg.SLM = true ∧ s.lead = true ∧ s.slm.hseal = none ∧ s.handleOk h = true ∧ i = h.val % 4096 ∧ d = s.sliceDesc i ∧ sdState d = 1 ∧ s.journal [rSlice h (s.descOf i) (sdWith d 2)] = (true, u)) ∧
    (∃ (h : Fin 1048576) (s : State) (u : State) (i : Nat) (d : Nat), s.slm.cmd = none ∧ s.blockOn Pg.SLM = true ∧ s.lead = true ∧ s.slm.hseal = none ∧ s.handleOk h = true ∧ i = h.val % 4096 ∧ d = s.sliceDesc i ∧ (sdState d = 3 ∨ sdState d = 4) ∧ s.journal [rSlice h (s.descOf i) (sdWith d 1)] = (true, u)) ∧
    (∃ (h : Fin 1048576) (s : State) (u : State) (i : Nat) (d : Nat), s.slm.cmd = none ∧ s.blockOn Pg.SLM = true ∧ s.lead = true ∧ s.slm.hseal = none ∧ s.handleOk h = true ∧ i = h.val % 4096 ∧ d = s.sliceDesc i ∧ sdState d = 3 ∧ s.journal [rSlice h (s.descOf i) (sdWith d 5)] = (true, u)) ∧
    (∃ (h : Fin 1048576) (s : State) (u : State) (i : Nat) (d : Nat) (t : State), s.slm.cmd = none ∧ s.blockOn Pg.SLM = true ∧ s.lead = true ∧ s.slm.hseal = none ∧ s.handleOk h = true ∧ i = h.val % 4096 ∧ d = s.sliceDesc i ∧ sdState d = 3 ∧ s.closeEarly i = some t ∧ t.journal [rSlice h (s.descOf i) (sdWith d 4)] = (true, u)) ∧
    (∃ (h : Fin 1048576) (s : State) (u : State) (i : Nat) (d : Nat) (t : State), s.slm.cmd = none ∧ s.blockOn Pg.SLM = true ∧ s.lead = true ∧ s.slm.hseal = none ∧ s.handleOk h = true ∧ i = h.val % 4096 ∧ d = s.sliceDesc i ∧ (sdState d = 3 ∨ sdState d = 4) ∧ s.attached h = [] ∧ s.closeEarly i = some t ∧ t.journal [rSlice h (s.descOf i) 0] = (true, u)) ∧
    (∃ (h : Fin 1048576) (s : State) (u : State) (i : Nat) (d : Nat) (n : Nat), s.slm.cmd = none ∧ s.blockOn Pg.SLM = true ∧ s.lead = true ∧ s.slm.hseal = none ∧ s.handleOk h = true ∧ i = h.val % 4096 ∧ d = s.sliceDesc i ∧ n = sdWith (s.rf R.SLM.DESC.DESC % 2 ^ 126) (sdState d) ∧ sdState d = 3 ∧ badDesc n = false ∧ s.attached h = [] ∧ s.noResource i n = false ∧ s.journal [rSlice h (s.descOf i) n] = (true, u)) ∧
    (∃ (h : Nat) (s : State) (u : State) (d : Nat), s.slm.cmd = none ∧ s.blockOn Pg.SLM = true ∧ s.lead = true ∧ d = s.rf R.SLM.DESC.DESC % 2 ^ 126 ∧ badDesc d = false ∧ s.nextHandle = some h ∧ s.noResource (h % 4096) d = false ∧ s.journal [rSlice h (s.descOf (h % 4096)) (sdWith d 1)] = (true, u)) ∧
    (∃ (i : Fin 4096) (r : SliceRow) (s : State), s.sliceRow i = some r ∧ s.lead = true ∧ sdState r.desc = 2 ∧ s.inflight i = 0 ∧ (s.mode = .solo ∨ (s.dynOf i).pInfl = some 0)) ∧
    (∃ (i : Fin 4096) (r : SliceRow) (s : State) (partner : Bool), s.sliceRow i = some r ∧ s.lead = true ∧ sdState r.desc = 5 ∧ s.pairsOf (i.val + 4096 * r.gen) = 0 ∧ (s.mode = .solo ∨ partner = true)) ∧
    (∃ (result h : Nat) (s : State), s.regsWf = true ∧ result < 256 ∧ h < 1048576) :=
  ⟨⟨0, sl (dx 1), _, _, _, (by decide +kernel), (by decide +kernel), (by decide +kernel), (by decide +kernel), (by decide +kernel), rfl, rfl, (by decide +kernel), (pair_true (journal_true (by decide +kernel) (by decide +kernel) (by decide +kernel)))⟩,
    ⟨0, sl (dx 3), _, _, _, (by decide +kernel), (by decide +kernel), (by decide +kernel), (by decide +kernel), (by decide +kernel), rfl, rfl, (by decide +kernel), (pair_true (journal_true (by decide +kernel) (by decide +kernel) (by decide +kernel)))⟩,
    ⟨0, sl (dx 3), _, _, _, (by decide +kernel), (by decide +kernel), (by decide +kernel), (by decide +kernel), (by decide +kernel), rfl, rfl, (by decide +kernel), (pair_true (journal_true (by decide +kernel) (by decide +kernel) (by decide +kernel)))⟩,
    ⟨0, sl (dx 3), _, _, _, _, (by decide +kernel), (by decide +kernel), (by decide +kernel), (by decide +kernel), (by decide +kernel), rfl, rfl, (by decide +kernel), (some_get (by decide +kernel)), (pair_true (journal_true (by decide +kernel) (by decide +kernel) (by decide +kernel)))⟩,
    ⟨0, sl (dx 4), _, _, _, _, (by decide +kernel), (by decide +kernel), (by decide +kernel), (by decide +kernel), (by decide +kernel), rfl, rfl, (by decide +kernel), (by decide +kernel), (some_get (by decide +kernel)), (pair_true (journal_true (by decide +kernel) (by decide +kernel) (by decide +kernel)))⟩,
    ⟨0, (sl (dx 3)).wf R.SLM.DESC.DESC (dx 0), _, _, _, _, (by decide +kernel), (by decide +kernel), (by decide +kernel), (by decide +kernel), (by decide +kernel), rfl, rfl, rfl, (by decide +kernel), (by decide +kernel), (by decide +kernel), (by decide +kernel), (pair_true (journal_true (by decide +kernel) (by decide +kernel) (by decide +kernel)))⟩,
    ⟨4096, (run_ p0).wf R.SLM.DESC.DESC (dx 0), _, _, (by decide +kernel), (by decide +kernel), (by decide +kernel), rfl, (by decide +kernel), (by decide +kernel), (by decide +kernel), (pair_true (journal_true (by decide +kernel) (by decide +kernel) (by decide +kernel)))⟩,
    ⟨0, { gen := 0, desc := dx 2 }, onSlm (fun m => { m with dyn := [(0, { pInfl := some 0 })] }) (sl (dx 2)), (by decide +kernel), (by decide +kernel), (by decide +kernel), (by decide +kernel), (by decide +kernel)⟩,
    ⟨0, { gen := 0, desc := dx 5 }, sl (dx 5), true, (by decide +kernel), (by decide +kernel), (by decide +kernel), (by decide +kernel), (by decide +kernel)⟩,
    ⟨255, 1048575, p0, (by decide +kernel), (by decide +kernel), (by decide +kernel)⟩⟩

theorem wit_CommandRefusals :
    (∃ (c : Instr) (s : State), s.bsv.pending = true ∧ c ∈ [Instr.join, .handover, .stop, .enterService]) ∧
    (∃ (s : State), s.bsv.pending = true) ∧
    (∃ (s : State), s.bsv.pending = false ∧ s.mode ≠ .isolated) ∧
    (∃ (s : State), s.bsv.pending = false ∧ s.mode ≠ .paired) ∧
    (∃ (s : State), s.bsv.pending = false ∧ s.mode ≠ .solo) ∧
    (∃ (s : State), s.bsv.pending = false ∧ s.mode = .isolated ∧ s.witOn = false) ∧
    (∃ (s : State), s.bsv.pending = false ∧ s.mode = .isolated ∧ s.witOn = true ∧ s.hbRecent = false) ∧
    (∃ (s : State), s.bsv.pending = false ∧ s.mode = .isolated ∧ s.witOn = true ∧ s.hbRecent = true) ∧
    (∃ (s : State), s.bsv.pending = false ∧ s.mode = .paired ∧ s.partnerPaired = false) ∧
    (∃ (h : Fin 1048576) (c : Instr) (s : State), s.slm.cmd.isSome = true ∧ c ∈ [Instr.createCmd, .reshape h, .quiesce h, .resumeCmd h, .removeCmd h, .freeze h, .saveCmd h, .restoreCmd, .wglStart h, .wglStop h]) ∧
    (∃ (s : State), s.slm.cmd = none ∧ s.blockOn Pg.SLM = false) ∧
    (∃ (h : Fin 1048576) (s : State) (c : _), s.slm.cmd = none ∧ s.blockOn Pg.SLM = true ∧ s.lead = false ∧ c ∈ [Instr.reshape h, .quiesce h, .resumeCmd h, .removeCmd h, .freeze h, .saveCmd h]) ∧
    (∃ (s : State) (c : _), s.slm.cmd = none ∧ s.blockOn Pg.SLM = true ∧ s.lead = false ∧ c ∈ [Instr.createCmd, .restoreCmd]) ∧
    (∃ (h : Fin 1048576) (s : State) (c : _), s.slm.cmd = none ∧ s.blockOn Pg.SLM = true ∧ s.lead = true ∧ s.slm.hseal = none ∧ s.handleOk h = false ∧ c ∈ [Instr.reshape h, .quiesce h, .resumeCmd h, .removeCmd h, .freeze h, .saveCmd h, .wglStart h, .wglStop h]) ∧
    (∃ (h : Fin 1048576) (s : State), s.slm.cmd = none ∧ s.blockOn Pg.SLM = true ∧ s.lead = true ∧ s.slm.hseal = none ∧ s.handleOk h = true ∧ sdState (s.sliceDesc (h.val % 4096)) ≠ 1) ∧
    (∃ (h : Fin 1048576) (s : State), s.slm.cmd = none ∧ s.blockOn Pg.SLM = true ∧ s.lead = true ∧ s.slm.hseal = none ∧ s.handleOk h = true ∧ sdState (s.sliceDesc (h.val % 4096)) ∉ [3, 4]) ∧
    (∃ (h : Fin 1048576) (s : State), s.slm.cmd = none ∧ s.blockOn Pg.SLM = true ∧ s.lead = true ∧ s.slm.hseal = none ∧ s.handleOk h = true ∧ sdState (s.sliceDesc (h.val % 4096)) ∈ [1, 2]) ∧
    (∃ (h : Fin 1048576) (s : State), s.slm.cmd = none ∧ s.blockOn Pg.SLM = true ∧ s.lead = true ∧ s.slm.hseal = none ∧ s.handleOk h = true ∧ sdState (s.sliceDesc (h.val % 4096)) ≠ 3) ∧
    (∃ (h : Fin 1048576) (s : State), s.slm.cmd = none ∧ s.blockOn Pg.SLM = true ∧ s.lead = true ∧ s.slm.hseal = none ∧ s.handleOk h = true ∧ sdState (s.sliceDesc (h.val % 4096)) ≠ 4) ∧
    (∃ (h : Fin 1048576) (s : State), s.slm.cmd = none ∧ s.blockOn Pg.SLM = true ∧ s.lead = true ∧ s.slm.hseal = none ∧ s.handleOk h = true ∧ sdState (s.sliceDesc (h.val % 4096)) ∈ [3, 4] ∧ s.attached h ≠ []) :=
  ⟨⟨.join, onBsv (fun b => { b with pending := true }) p0, (by decide +kernel), (by decide +kernel)⟩,
    ⟨onBsv (fun b => { b with pending := true }) p0, (by decide +kernel)⟩,
    ⟨p0, (by decide +kernel), (by decide +kernel)⟩,
    ⟨s0, (by decide +kernel), (by decide +kernel)⟩,
    ⟨p0, (by decide +kernel), (by decide +kernel)⟩,
    ⟨i0, (by decide +kernel), (by decide +kernel), (by decide +kernel)⟩,
    ⟨witEn i0, (by decide +kernel), (by decide +kernel), (by decide +kernel), (by decide +kernel)⟩,
    ⟨ih, (by decide +kernel), (by decide +kernel), (by decide +kernel), (by decide +kernel)⟩,
    ⟨p0, (by decide +kernel), (by decide +kernel), (by decide +kernel)⟩,
    ⟨0, .createCmd, busy, (by decide +kernel), (by decide +kernel)⟩,
    ⟨(run_ p0).wf (R.HDR.CTL.EN Pg.SLM) 0, (by decide +kernel), (by decide +kernel)⟩,
    ⟨0, noLead, .freeze 0, (by decide +kernel), (by decide +kernel), (by decide +kernel), (by decide +kernel)⟩,
    ⟨noLead, .createCmd, (by decide +kernel), (by decide +kernel), (by decide +kernel), (by decide +kernel)⟩,
    ⟨4096, run_ p0, .freeze 4096, (by decide +kernel), (by decide +kernel), (by decide +kernel), (by decide +kernel), (by decide +kernel), (by decide +kernel)⟩,
    ⟨0, sl (dx 2), (by decide +kernel), (by decide +kernel), (by decide +kernel), (by decide +kernel), (by decide +kernel), (by decide +kernel)⟩,
    ⟨0, sl (dx 2), (by decide +kernel), (by decide +kernel), (by decide +kernel), (by decide +kernel), (by decide +kernel), (by decide +kernel)⟩,
    ⟨0, sl (dx 2), (by decide +kernel), (by decide +kernel), (by decide +kernel), (by decide +kernel), (by decide +kernel), (by decide +kernel)⟩,
    ⟨0, sl (dx 4), (by decide +kernel), (by decide +kernel), (by decide +kernel), (by decide +kernel), (by decide +kernel), (by decide +kernel)⟩,
    ⟨0, sl (dx 3), (by decide +kernel), (by decide +kernel), (by decide +kernel), (by decide +kernel), (by decide +kernel), (by decide +kernel)⟩,
    ⟨0, onMaps (fun m => { m with nss := [(1, { desc := { valid := true } })] }) (sl (dx 4)), (by decide +kernel), (by decide +kernel), (by decide +kernel), (by decide +kernel), (by decide +kernel), (by decide +kernel), (by decide +kernel)⟩⟩

theorem wit_MigrationCompletes :
    (∃ (h : Fin 1048576) (k : Key) (s : State), s.slm.cmd = none ∧ s.blockOn Pg.SLM = true ∧ s.lead = true ∧ s.handleOk h = true ∧ sdState (s.sliceDesc (h.val % 4096)) = 4 ∧ s.gcmKey (s.rf R.SLM.MIG_KEY.KEYSLOT) = some k ∧ k.inv + 1 < 2 ^ 32 ∧ s.rf R.SEC.STAT.RNG ≠ 0) ∧
    (∃ (k : Key) (s : State) (u : State) (b : Bytes), s.slm.cmd = none ∧ s.blockOn Pg.SLM = true ∧ s.lead = true ∧ s.gcmKey (s.rf R.SLM.MIG_KEY.KEYSLOT) = some k ∧ b = s.load (hbmBase + s.rf R.SLM.BLOB_ADDR.ADDR) 8192 ∧ u = s.cphRan 1 ∧ gcmDec k.key (slice b 0x1C 12) (b.take 64) (slice b 0x40 0x1FB0) (slice b 0x1FF0 16) = none) ∧
    (∃ (k : Key) (s : State) (u : State) (b : Bytes) (body : Bytes), s.slm.cmd = none ∧ s.blockOn Pg.SLM = true ∧ s.lead = true ∧ s.gcmKey (s.rf R.SLM.MIG_KEY.KEYSLOT) = some k ∧ b = s.load (hbmBase + s.rf R.SLM.BLOB_ADDR.ADDR) 8192 ∧ u = s.cphRan 1 ∧ gcmDec k.key (slice b 0x1C 12) (b.take 64) (slice b 0x40 0x1FB0) (slice b 0x1FF0 16) = some body ∧ leAt b 0 2 ≠ 1) ∧
    (∃ (k : Key) (s : State) (u : State) (b : Bytes) (body : Bytes) (h : Nat) (d : Nat) (v : State), s.slm.cmd = none ∧ s.blockOn Pg.SLM = true ∧ s.lead = true ∧ s.gcmKey (s.rf R.SLM.MIG_KEY.KEYSLOT) = some k ∧ b = s.load (hbmBase + s.rf R.SLM.BLOB_ADDR.ADDR) 8192 ∧ u = s.cphRan 1 ∧ gcmDec k.key (slice b 0x1C 12) (b.take 64) (slice b 0x40 0x1FB0) (slice b 0x1FF0 16) = some body ∧ leAt b 0 2 = 1 ∧ blobNs body = [] ∧ u.nextHandle = some h ∧ d = setFld (setFld (setFld (setFld (sdWith (leAt body 0 16 % 2 ^ 126) 4) 3 10 (sdDomain (u.rf R.SLM.DESC.DESC))) 13 13 (sdKeyslot (u.rf R.SLM.DESC.DESC))) 26 12 (sdQueues (u.rf R.SLM.DESC.DESC))) 38 12 (sdWcshare (u.rf R.SLM.DESC.DESC)) ∧ badDesc d = false ∧ u.noResource (h % 4096) d = false ∧ u.journal [rSlice h (u.descOf (h % 4096)) d] = (true, v)) ∧
    (∃ (s : State), s.slm.cmd = none ∧ s.blockOn Pg.SLM = true ∧ s.lead = true) ∧
    (∃ (h : Fin 1048576) (s : State), s.slm.cmd = none ∧ s.blockOn Pg.SLM = true ∧ s.handleOk h = true ∧ sdState (s.sliceDesc (h.val % 4096)) ∉ [0, 5] ∧ (s.dynOf (h.val % 4096)).wgl = none) ∧
    (∃ (h : Fin 1048576) (s : State), s.slm.cmd = none ∧ s.blockOn Pg.SLM = true ∧ s.handleOk h = true ∧ sdState (s.sliceDesc (h.val % 4096)) ∉ [0, 5]) :=
  ⟨⟨0, migKey, slk.wf R.SEC.STAT.RNG 1, (by decide +kernel), (by decide +kernel), (by decide +kernel), (by decide +kernel), (by decide +kernel), (by decide +kernel), (by decide +kernel), (by decide +kernel)⟩,
    ⟨migKey, mig 1 1, _, blob 1 1, (by decide +kernel), (by decide +kernel), (by decide +kernel), (by decide +kernel), (mig_load 1 1 (by decide +kernel)).symm, rfl, (blob_shut 1)⟩,
    ⟨migKey, mig 2 0, _, blob 2 0, _, (by decide +kernel), (by decide +kernel), (by decide +kernel), (by decide +kernel), (mig_load 2 0 (by decide +kernel)).symm, rfl, (blob_opens 2), (by decide +kernel)⟩,
    ⟨migKey, mig 1 0, _, blob 1 0, _, _, _, _, (by decide +kernel), (by decide +kernel), (by decide +kernel), (by decide +kernel), (mig_load 1 0 (by decide +kernel)).symm, rfl, (blob_opens 1), (by decide +kernel), plain_ns, (some_get (by decide +kernel)), rfl, (by decide +kernel), (by decide +kernel), (pair_true (journal_true (by decide +kernel) (by decide +kernel) (by decide +kernel)))⟩,
    ⟨run_ p0, (by decide +kernel), (by decide +kernel), (by decide +kernel)⟩,
    ⟨0, sl (dx 1), (by decide +kernel), (by decide +kernel), (by decide +kernel), (by decide +kernel), (by decide +kernel)⟩,
    ⟨0, sl (dx 1), (by decide +kernel), (by decide +kernel), (by decide +kernel), (by decide +kernel)⟩⟩

theorem wit_SavedBlobOpens : ∃ (h : Fin 1048576) (k : Key) (s : State) (t : State) (b : Bytes), s.slm.cmd = none ∧ s.blockOn Pg.SLM = true ∧ s.lead = true ∧ s.handleOk h = true ∧ sdState (s.sliceDesc (h.val % 4096)) = 4 ∧ s.gcmKey (s.rf R.SLM.MIG_KEY.KEYSLOT) = some k ∧ k.inv < 2 ^ 32 ∧ s.rf R.SEC.STAT.RNG ≠ 0 ∧ s.memWf = true ∧ exec (.saveCmd h) s = .next t ∧ b = t.load (hbmBase + s.rf R.SLM.BLOB_ADDR.ADDR) 8192 :=
  ⟨0, migKey, savSt, (match exec (.saveCmd 0) savSt with | .next t => t | _ => savSt), _, (by decide +kernel), (by decide +kernel), (by decide +kernel), (by decide +kernel), (by decide +kernel), (by decide +kernel), (by decide +kernel), (by decide +kernel), (by decide +kernel), (by with_unfolding_all rfl), rfl⟩

theorem wit_MeteringCompletes :
    (∃ (s : State), serving s.mode = true ∧ s.mode ≠ .solo ∧ s.slm.epochAt + 100000 ≤ s.estamp) ∧
    (∃ (s : State), s.mode = .paired ∧ s.slm.exchAt + 1000000 ≤ s.estamp) ∧
    (∃ (c : CHdr) (s : State) (u : State), s.cRecv cAdmin c = (true, u)) ∧
    (∃ (c : CHdr) (s : State) (u : State) (h : Fin 1048576), s.cRecv cAdmin c = (true, u) ∧ u.handleOk h = true) ∧
    (∃ (c : CHdr) (s : State) (u : State) (h : Fin 1048576), s.cRecv cAdmin c = (true, u) ∧ u.handleOk h = true) ∧
    (∃ (c : CHdr) (s : State) (u : State) (n : Nat) (b : Bytes), s.cRecv cAdmin c = (true, u) ∧ leAt b 0x14 1 = 1 ∧ leAt b 0 8 = n ∧ u.handleOk (leAt b 0x18 4 % 2 ^ 20) = false) ∧
    (∃ (c : CHdr) (s : State) (u : State) (n : Nat) (b : Bytes), s.cRecv cAdmin c = (true, u) ∧ leAt b 0x14 1 = 1 ∧ leAt b 0 8 = n ∧ u.handleOk (leAt b 0x18 4 % 2 ^ 20) = true) ∧
    (∃ (c : CHdr) (s : State) (u : State) (n : Nat) (b : Bytes), s.cRecv cAdmin c = (true, u) ∧ ¬(leAt b 0x14 1 = 1 ∧ leAt b 0 8 = n)) ∧
    (∃ (s : State) (u : State), s.lead = true ∧ s.slm.hseal = none ∧ s.tbs.rtcValid = false ∧ s.slm.minuteAt + 60000000000 ≤ s.estamp ∧ (s.slm.dyn.map Prod.fst).foldl (fun (o : Option State) i => o.bind (fun t => t.closeRecord i (s.minuteNow 1).1 (s.minuteFlags ||| (128 * b2n (s.minuteNow 1).2)))) (some s) = some u) ∧
    (∃ (i : Nat) (r : SliceRow) (d : SliceDyn) (o : Ostamp) (s : State) (u : State), s.sliceRow i = some r ∧ aget s.slm.dyn i = some d ∧ sdState r.desc ≠ 4 ∧ s.issue Unit.slm = (some o, u)) ∧
    (∃ (n : Nat) (e : MetEnt) (s : State), e ∈ s.slm.unpub ∧ e.seq = n ∧ e.dur = true) ∧
    (∃ (s : State), serving s.mode = true ∧ s.slm.sweepAt + max 1 (s.rf R.SLM.SWEEP_CFG.HOURS) * 3600000000000 ≤ s.estamp) ∧
    (∃ (last : Nat × Bytes) (o : Ostamp) (s u : State) (v : State), s.lead = true ∧ s.slm.hseal = none ∧ (s.slm.minute + 1) % 60 = 0 ∧ s.slm.sealed < s.slm.minute ∧ s.lastRecord = some last ∧ s.issue Unit.slm = (some o, u) ∧ v = { u with slm := { u.slm with sealed := u.slm.minute } } ∧ v.signCheck = 0) :=
  ⟨⟨run_ p0, (by decide +kernel), (by decide +kernel), (by decide +kernel)⟩,
    ⟨run_ p0, (by decide +kernel), (by decide +kernel)⟩,
    ⟨{ ver := 0, len := 0, got := 0 }, hup2, (hup2.cRecv cAdmin ({ ver := 0, len := 0, got := 0 })).2, (Prod.ext (by decide +kernel) rfl)⟩,
    ⟨{ ver := 0, len := 0, got := 0 }, hup2, (hup2.cRecv cAdmin ({ ver := 0, len := 0, got := 0 })).2, 0, (Prod.ext (by decide +kernel) rfl), (by decide +kernel)⟩,
    ⟨{ ver := 0, len := 0, got := 0 }, hup2, (hup2.cRecv cAdmin ({ ver := 0, len := 0, got := 0 })).2, 0, (Prod.ext (by decide +kernel) rfl), (by decide +kernel)⟩,
    ⟨{ ver := 0, len := 0, got := 0 }, hup2, _, _, zeros 20 ++ [1#8] ++ zeros 3 ++ le 4096 4, (pair_true (by decide +kernel)), (by decide +kernel), rfl, (by decide +kernel)⟩,
    ⟨{ ver := 0, len := 0, got := 0 }, hup2, _, _, zeros 20 ++ [1#8], (pair_true (by decide +kernel)), (by decide +kernel), rfl, (by decide +kernel)⟩,
    ⟨{ ver := 0, len := 0, got := 0 }, hup2, _, 1, [], (pair_true (by decide +kernel)), (by decide +kernel)⟩,
    ⟨{ run_ p0 with tbs := { (run_ p0).tbs with phys := 60000000000 } }, _, (by decide +kernel), (by decide +kernel), (by decide +kernel), (by decide +kernel), (some_get (by decide +kernel))⟩,
    ⟨0, { gen := 0, desc := dx 1 }, {}, _, onSlm (fun m => { m with dyn := [(0, {})] }) (sl (dx 1)), _, (by decide +kernel), (by decide +kernel), (by decide +kernel), (pair_some (by decide +kernel))⟩,
    ⟨0, { seq := 0, bytes := [], dur := true }, onSlm (fun m => { m with unpub := [{ seq := 0, bytes := [], dur := true }] }) p0, (by decide +kernel), (by decide +kernel), (by decide +kernel)⟩,
    ⟨{ run_ p0 with tbs := { (run_ p0).tbs with phys := 100000000000000000 } }, (by decide +kernel), (by decide +kernel)⟩,
    ⟨(1, le 1 8 ++ zeros 12 ++ [1#8]), (lastSl.nextStamp Unit.slm).getD 0, lastSl, (lastSl.issue Unit.slm).2, ({ ((lastSl.issue Unit.slm).2) with slm := { ((lastSl.issue Unit.slm).2).slm with sealed := ((lastSl.issue Unit.slm).2).slm.minute } }), (by decide +kernel), (by decide +kernel), (by decide +kernel), (by decide +kernel), (by decide +kernel), (Prod.ext (by decide +kernel) rfl), rfl, (by decide +kernel)⟩⟩

set_option maxRecDepth 100000 in
theorem wit_WritePathCompletes :
    (∃ (op g slot : Nat) (c : IoCmd) (x : Grain) (k : Bytes) (s : State), s.grainAt op g = some (c, x) ∧ x.st = .digest ∧ s.fpSlot (s.domainOf c.slice) = some slot ∧ s.fpKey slot = some k) ∧
    (∃ (op : Nat) (g : Nat) (slot : Nat) (c : IoCmd) (x : Grain) (s : State), s.grainAt op g = some (c, x) ∧ x.st = .digest ∧ s.fpSlot (s.domainOf c.slice) = some slot ∧ s.fpKey slot = none) ∧
    (∃ (op : Nat) (g : Nat) (cid : Nat) (rest : List Nat) (c : IoCmd) (x : Grain) (s : State), s.grainAt op g = some (c, x) ∧ x.st = .confirm (cid :: rest)) ∧
    (∃ (op : Nat) (g : Nat) (c : IoCmd) (x : Grain) (blk : Bytes) (f : Bytes) (s : State), s.grainAt op g = some (c, x) ∧ x.st = .compress ∧ c.opc ≠ oAdopt ∧ c.via = none ∧ f = (if constRun x.data then zstdFrame 1 4096 (x.data.take 1) else zstdFrame 2 blk.length blk) ∧ (constRun x.data = false → zstdDecode f = some (x.data, f.length)) ∧ f.length ≤ 3584) ∧
    (∃ (op : Nat) (g : Nat) (c : IoCmd) (x : Grain) (blk : Bytes) (f : Bytes) (s : State), s.grainAt op g = some (c, x) ∧ x.st = .compress ∧ c.opc ≠ oAdopt ∧ c.via = none ∧ f = (if constRun x.data then zstdFrame 1 4096 (x.data.take 1) else zstdFrame 2 blk.length blk) ∧ (constRun x.data = false → zstdDecode f = some (x.data, f.length)) ∧ 3584 < f.length) ∧
    (∃ (op g : Nat) (c : IoCmd) (x : Grain) (s : State) (k : _), s.grainAt op g = some (c, x) ∧ x.st = .sealing ∧ s.xtsKey (s.cmdKey c) = some k) ∧
    (∃ (op g : Nat) (c : IoCmd) (x : Grain) (s : State), s.grainAt op g = some (c, x) ∧ x.st = .sealing ∧ s.xtsKey (s.cmdKey c) = none) ∧
    (∃ (seg : Fin 33554432) (o : OpenSeg) (t0 : Nat) (s : State), aget s.sgb.opens seg = some o ∧ o.closed = false ∧ o.recs ≠ [] ∧ o.oldest = some t0 ∧ t0 + (if s.mode = .solo then 20000 else 1000000) ≤ s.now) ∧
    (∃ (seg : Fin 33554432) (o : OpenSeg) (s : State) (u : State) (v : State), aget s.sgb.opens seg = some o ∧ o.issued = true ∧ o.fold = false ∧ (∀ k < (s.seg seg).d + 2, k ∈ o.durable) ∧ o.absent = [] ∧ (s.mirrors = false ∨ o.ptSeq ≤ s.fmm.ptAck) ∧ (s.seg seg).kind ≠ 4 ∧ s.journal [rSegState seg (s.seg seg).gen (s.seg seg).kind 1 2, rDirty seg true false] = (true, u) ∧ v = State.chunksDone { u with sgb := { u.sgb with opens := adel u.sgb.opens seg } } seg true) ∧
    (∃ (op : Nat) (c : IoCmd) (s : State), aget s.io.cmds op = some c ∧ c.stage = .active ∧ s.hitsExpired c = true) :=
  ⟨⟨3, 0, 0, wcmd { gi := 0, st := .digest }, { gi := 0, st := .digest }, List.replicate 32 1, wst { gi := 0, st := .digest }, (by decide +kernel), (by decide +kernel), (by decide +kernel), (by decide +kernel)⟩,
    ⟨3, 0, 0, wcmd { gi := 0, st := .digest }, { gi := 0, st := .digest }, onSec (fun k => { k with dge := [] }) (wst { gi := 0, st := .digest }), (by decide +kernel), (by decide +kernel), (by decide +kernel), (by decide +kernel)⟩,
    ⟨3, 0, 7, [], wcmd { gi := 0, st := .confirm [7] }, { gi := 0, st := .confirm [7] }, wst { gi := 0, st := .confirm [7] }, (by decide +kernel), (by decide +kernel)⟩,
    ⟨3, 0, wcmd { gi := 0, st := .compress, data := [0, 0] }, { gi := 0, st := .compress, data := [0, 0] }, [], _, wst { gi := 0, st := .compress, data := [0, 0] }, (by decide +kernel), (by decide +kernel), (by decide +kernel), (by decide +kernel), rfl, (by decide +kernel), (by decide +kernel)⟩,
    ⟨3, 0, wcmd rawGrain, rawGrain, le 0x1000C 3 ++ rawGrain.data ++ [0#8], _, wst rawGrain, (by decide +kernel), (by decide +kernel), (by decide +kernel), (by decide +kernel), rfl, (by decide +kernel), (by decide +kernel)⟩,
    ⟨3, 0, wcmd { gi := 0, st := .sealing }, { gi := 0, st := .sealing }, wst { gi := 0, st := .sealing }, List.replicate 64 1, (by decide +kernel), (by decide +kernel), (by decide +kernel)⟩,
    ⟨3, 0, wcmd { gi := 0, st := .sealing }, { gi := 0, st := .sealing }, onSec (fun k => { k with cph := [] }) (wst { gi := 0, st := .sealing }), (by decide +kernel), (by decide +kernel), (by decide +kernel)⟩,
    ⟨5, openA, 0, { sgA openA with now := 1000000 }, (by decide +kernel), (by decide +kernel), (by decide +kernel), (by decide +kernel), (by decide +kernel)⟩,
    ⟨5, { openA with issued := true, durable := List.range 10 }, sgA { openA with issued := true, durable := List.range 10 }, _, _, (by decide +kernel), (by decide +kernel), (by decide +kernel), (by decide +kernel), (by decide +kernel), (by decide +kernel), (by decide +kernel), (pair_true (journal_true (by decide +kernel) (by decide +kernel) (by decide +kernel))), rfl⟩,
    ⟨3, wcmd { gi := 0, st := .hit 7 0, fp := [1] }, onTbs (fun t => { t with phys := 20000000 }) (wst { gi := 0, st := .hit 7 0, fp := [1] }), (by decide +kernel), (by decide +kernel), (by decide +kernel)⟩⟩

theorem wit_MapsComplete :
    (∃ (ns : Fin 65536) (n : Ns) (s : State) (u : State), s.flag R.MPE.SNAP_STAT.PENDING = false ∧ s.blockOn Pg.MPE = true ∧ s.nsOf ns = some n ∧ s.moveHolds ns = false ∧ s.snapCheck 1 ns (s.rf R.MPE.SNAP_ARG.EPOCH) = 0 ∧ s.journal [rEpoch ns n.epoch] = (true, u)) ∧
    (∃ (ns : Fin 65536) (n : Ns) (s : State) (u : State) (e : _), s.flag R.MPE.SNAP_STAT.PENDING = false ∧ s.blockOn Pg.MPE = true ∧ s.nsOf ns = some n ∧ s.moveHolds ns = false ∧ e = s.rf R.MPE.SNAP_ARG.EPOCH ∧ s.snapCheck 2 ns e = 0 ∧ s.journal [rMapPage ns (pageIx 0xF e) (agetD n.slots e 0) 0] = (true, u)) ∧
    (∃ (s : State), s.flag R.MPE.SNAP_STAT.PENDING = true) ∧
    (∃ (ns : Fin 65536) (s : State), s.flag R.MPE.SNAP_STAT.PENDING = false ∧ s.blockOn Pg.MPE = true ∧ s.nsOf ns = none) ∧
    (∃ (cid : Fin 274877906944) (s u : State), cid.val ∈ s.mpe.pins ∧ ctFree (s.ctRec cid) = false ∧ (s.ctRec cid).pinned = false ∧ s.ownsRec (s.ctRec cid) = true ∧ s.journal [rCtLoc cid (s.ctRec cid).loc (s.ctRec cid).loc] = (true, u)) ∧
    (∃ (cid : Fin 274877906944) (w : FreeWait) (s u : State), s.mpe.frees.find? (fun w => w.cid == cid.val) = some w ∧ s.mode = .solo ∧ ctFree (s.ctRec cid) = false ∧ (s.ctRec cid).ref = 0 ∧ (s.ctRec cid).pinned = false ∧ s.ownsRec (s.ctRec cid) = true ∧ phys w.z + 1000000 < s.estamp ∧ s.journal [rCtFree cid (s.ctRec cid).gen] = (true, u)) ∧
    (∃ (h : CHdr) (s : State) (u : State), s.cRecv cAdmin h = (true, u)) ∧
    (∃ (h : CHdr) (s : State) (u : State), s.cAnswer h = (true, u)) ∧
    (∃ (ns : Fin 65536) (pix : Fin 281474976710656) (s : State), s.mode = .solo ∧ (ns.val + pix.val * 65536) ∈ s.mpe.badPages) ∧
    (∃ (s : State), s.regsWf = true ∧ s.lead = true ∧ serving s.mode = true ∧ s.mpe.ckAt + s.rf R.MPE.CKPT_CFG.PERIOD * 1000000000 ≤ s.estamp ∧ s.mpe.ckRun = none ∧ s.ctBitsOk = true ∧ s.blockOn Pg.MPE = true) ∧
    (∃ (ok : Bool) (s : State), s.mpe.ckRun.isSome = true ∧ (ok = false ∨ s.ckptWritten = false)) ∧
    (∃ (k : Ckpt) (s : State) (u : State), s.mpe.ckRun = some k ∧ s.ckptWritten = true ∧ k.covered ≤ s.coveredNow ∧ s.journal [rCheckpoint k.number k.covered] = (true, u)) ∧
    (∃ (ns : Fin 65536) (d : BitVec 128) (s : State) (u : State), s.lead = true ∧ (nsDec d.toNat).view = false ∧ s.journal [rNs ns (agetD s.maps.nss ns {}).desc (nsDec d.toNat)] = (true, u)) :=
  ⟨⟨1, { desc := { size := 64, valid := true }, epoch := 1, slots := [(0, 0)] }, nsSt, _, (by decide +kernel), (by decide +kernel), (by decide +kernel), (by decide +kernel), (by decide +kernel), (pair_true (journal_true (by decide +kernel) (by decide +kernel) (by decide +kernel)))⟩,
    ⟨1, { desc := { size := 64, valid := true }, epoch := 1, slots := [(0, 0)] }, nsSt, _, _, (by decide +kernel), (by decide +kernel), (by decide +kernel), (by decide +kernel), rfl, (by decide +kernel), (pair_true (journal_true (by decide +kernel) (by decide +kernel) (by decide +kernel)))⟩,
    ⟨p0.wf R.MPE.SNAP_STAT.PENDING 1, (by decide +kernel)⟩,
    ⟨0, p0, (by decide +kernel), (by decide +kernel), (by decide +kernel)⟩,
    ⟨7, onMpe (fun m => { m with pins := [7] }) (onMaps (fun m => { m with ct := [(7, { gen := 1, ref := 1, loc := 1 })] }) (run_ s0)), ((onMpe (fun m => { m with pins := [7] }) (onMaps (fun m => { m with ct := [(7, { gen := 1, ref := 1, loc := 1 })] }) (run_ s0)) : State).journal [rCtLoc (7 : Fin 274877906944) ((onMpe (fun m => { m with pins := [7] }) (onMaps (fun m => { m with ct := [(7, { gen := 1, ref := 1, loc := 1 })] }) (run_ s0)) : State).ctRec (7 : Fin 274877906944)).loc ((onMpe (fun m => { m with pins := [7] }) (onMaps (fun m => { m with ct := [(7, { gen := 1, ref := 1, loc := 1 })] }) (run_ s0)) : State).ctRec (7 : Fin 274877906944)).loc]).2, (by decide +kernel), (by decide +kernel), (by decide +kernel), (by decide +kernel), (pair_true (journal_true (by decide +kernel) (by decide +kernel) (by decide +kernel)))⟩,
    ⟨7, { cid := 7, z := 0, ownZ := true }, onMpe (fun m => { m with frees := [{ cid := 7, z := 0, ownZ := true }] }) (onMaps (fun m => { m with ct := [(7, { gen := 1, ref := 0, loc := 1 })] }) (run_ s0)), ((onMpe (fun m => { m with frees := [{ cid := 7, z := 0, ownZ := true }] }) (onMaps (fun m => { m with ct := [(7, { gen := 1, ref := 0, loc := 1 })] }) (run_ s0)) : State).journal [rCtFree (7 : Fin 274877906944) ((onMpe (fun m => { m with frees := [{ cid := 7, z := 0, ownZ := true }] }) (onMaps (fun m => { m with ct := [(7, { gen := 1, ref := 0, loc := 1 })] }) (run_ s0)) : State).ctRec (7 : Fin 274877906944)).gen]).2, (by decide +kernel), (by decide +kernel), (by decide +kernel), (by decide +kernel), (by decide +kernel), (by decide +kernel), (by decide +kernel), (pair_true (journal_true (by decide +kernel) (by decide +kernel) (by decide +kernel)))⟩,
    ⟨{ ver := 0, len := 0, got := 0 }, run_ ph, ((run_ ph : State).cRecv cAdmin ({ ver := 0, len := 0, got := 0 } : CHdr)).2, (Prod.ext (by decide +kernel) rfl)⟩,
    ⟨{ ver := 0, len := 0, got := 0 }, asked (run_ ph), _, (pair_true (by decide +kernel))⟩,
    ⟨0, 0, onMpe (fun m => { m with badPages := [0] }) s0, (by decide +kernel), (by decide +kernel)⟩,
    ⟨(onTbs (fun t => { t with phys := 99000000000 }) (run_ s0)).wf R.MPE.CT_BITS.BITS 20, (by decide +kernel), (by decide +kernel), (by decide +kernel), (by decide +kernel), (by decide +kernel), (by decide +kernel), (by decide +kernel)⟩,
    ⟨false, onMpe (fun m => { m with ckRun := some { number := 1, covered := 0 } }) (run_ p0), (by decide +kernel), .inl rfl⟩,
    ⟨{ number := 1, covered := 0 }, onMpe (fun m => { m with ckRun := some { number := 1, covered := 0 } }) (run_ p0), _, (by decide +kernel), (by decide +kernel), (by decide +kernel), (pair_true (journal_true (by decide +kernel) (by decide +kernel) (by decide +kernel)))⟩,
    ⟨0, 0, run_ p0, ((run_ p0 : State).journal [rNs (0 : Fin 65536) (agetD (run_ p0 : State).maps.nss (0 : Fin 65536) {}).desc (nsDec (0 : BitVec 128).toNat)]).2, (by decide +kernel), (by decide +kernel), (pair_true (journal_true (by decide +kernel) (by decide +kernel) (by decide +kernel)))⟩⟩

theorem wit_MapCacheCompletes :
    (∃ (s : State), s.regsWf = true ∧ s.rf R.MPC.STATE.STATE = mpcOff ∧ s.flag R.MPC.STATE.BUSY = false) ∧
    (∃ (s : State), (s.rf R.MPC.STATE.STATE ≠ mpcOff ∨ s.flag R.MPC.STATE.BUSY = true)) ∧
    (∃ (s : State), s.regsWf = true ∧ s.rf R.MPC.STATE.STATE = mpcInvalidating) ∧
    (∃ (way : Fin 16) (s : State), s.rf R.MPC.STATE.STATE = mpcOn ∧ s.flag R.MPC.STATE.BUSY = false ∧ way.val < 12) ∧
    (∃ (way : Fin 16) (s : State), (s.rf R.MPC.STATE.STATE ≠ mpcOn ∨ s.flag R.MPC.STATE.BUSY = true ∨ 12 ≤ way.val)) ∧
    (∃ (way addr len : Nat) (s : State), s.regsWf = true ∧ s.mpc.preload = some (way, addr, len) ∧ way < 12) ∧
    (∃ (s : State), s.rf R.MPC.STATE.STATE = mpcOff ∧ s.flag R.MPC.STATE.INV_DONE = true) ∧
    (∃ (s : State), s.rf R.MPC.STATE.STATE = mpcOff ∧ s.flag R.MPC.STATE.INV_DONE = false) ∧
    (∃ (s : State), s.rf R.MPC.STATE.STATE = mpcOn) ∧
    (∃ (s : State), s.regsWf = true ∧ s.rf R.MPC.STATE.STATE = mpcDraining) ∧
    (∃ (v : BitVec 12) (s : State), (∀ w < 12, v.getLsbD w = true → bit (s.rf R.MPC.PRELOADED.WAYS) w = true) ∧ popcount v.toNat 12 ≤ 8) ∧
    (∃ (v : BitVec 12) (s : State), (∃ w < 12, v.getLsbD w = true ∧ bit (s.rf R.MPC.PRELOADED.WAYS) w = false)) ∧
    (∃ (s : State), s.mpc.windowAt + 1000000 ≤ s.now) :=
  ⟨⟨mpcSt mpcOff, (by decide +kernel), (by decide +kernel), (by decide +kernel)⟩,
    ⟨mpcSt mpcOn, (by decide +kernel)⟩,
    ⟨mpcSt mpcInvalidating, (by decide +kernel), (by decide +kernel)⟩,
    ⟨11, mpcSt mpcOn, (by decide +kernel), (by decide +kernel), (by decide +kernel)⟩,
    ⟨0, mpcSt mpcOff, (by decide +kernel)⟩,
    ⟨11, 0, 1, { p0 with mpc := { p0.mpc with preload := some (11, 0, 1) } }, (by decide +kernel), (by decide +kernel), (by decide +kernel)⟩,
    ⟨(mpcSt mpcOff).wf R.MPC.STATE.INV_DONE 1, (by decide +kernel), (by decide +kernel)⟩,
    ⟨mpcSt mpcOff, (by decide +kernel), (by decide +kernel)⟩,
    ⟨mpcSt mpcOn, (by decide +kernel)⟩,
    ⟨mpcSt mpcDraining, (by decide +kernel), (by decide +kernel)⟩,
    ⟨0xF, p0.wf R.MPC.PRELOADED.WAYS 0xF, (by decide +kernel), (by decide +kernel)⟩,
    ⟨0xF, p0, (⟨0, by decide, rfl, by decide +kernel⟩)⟩,
    ⟨{ p0 with now := 1000000 }, (by decide +kernel)⟩⟩

theorem wit_ReadPathCompletes :
    (∃ (q cid off : Nat) (u : Unack) (s : State), s.io.unack.find? (fun u => u.conn == q && u.cid == cid && u.off == off) = some u ∧ u.rel = false) ∧
    (∃ (q cid off : Nat) (u : Unack) (s : State), s.io.unack.find? (fun u => u.conn == q && u.cid == cid && u.off == off) = some u ∧ u.rel = true) ∧
    (∃ (h : Held) (l : List Held) (s : State), s.jlk.held = h :: l ∧ s.stagingFor h.req.why = true) :=
  ⟨⟨1, 5, 0, unackA, onIo (fun i => { i with unack := [unackA] }) p0, (by decide +kernel), (by decide +kernel)⟩,
    ⟨1, 5, 0, { unackA with rel := true }, onIo (fun i => { i with unack := [{ unackA with rel := true }] }) p0, (by decide +kernel), (by decide +kernel)⟩,
    ⟨{ pos := 0, cred := 0, req := { op := 1, gen := 0, at0 := 0, why := .other }, cws := [] }, [], onJlk (fun j => { j with held := [{ pos := 0, cred := 0, req := { op := 1, gen := 0, at0 := 0, why := .other }, cws := [] }] }) p0, (by decide +kernel), (by decide +kernel)⟩⟩

theorem wit_LayoutCompletes :
    (∃ (pool : Fin 4) (module : Fin 64) (peer : BitVec 64) (s : State) (row : _) (code : _), s.sgb.cmd = none ∧ row ∈ [(Instr.createPool pool peer, 1, 0, peer.toNat), (.layoutReshape pool peer, 2, 0, peer.toNat), (.retire pool module, 3, module.val, 0)] ∧ s.layCheck row.2.1 pool row.2.2.1 row.2.2.2 = code ∧ code ≠ 0) ∧
    (∃ (pool : Fin 4) (module : Fin 64) (peer : BitVec 64) (s : State) (row : _), s.sgb.cmd = none ∧ row ∈ [(Instr.createPool pool peer, 1, 0, peer.toNat), (.layoutReshape pool peer, 2, 0, peer.toNat), (.retire pool module, 3, module.val, 0)] ∧ s.layCheck row.2.1 pool row.2.2.1 row.2.2.2 = 0 ∧ (s.sgb.job.isSome = true ∨ s.blockOn Pg.SGB = false)) ∧
    (∃ (pool : Fin 4) (module : Fin 64) (peer : BitVec 64) (s : State) (row : _), s.sgb.cmd = none ∧ row ∈ [(Instr.createPool pool peer, 1, 0, peer.toNat), (.layoutReshape pool peer, 2, 0, peer.toNat), (.retire pool module, 3, module.val, 0)] ∧ s.layCheck row.2.1 pool row.2.2.1 row.2.2.2 = 0 ∧ s.sgb.job = none ∧ s.blockOn Pg.SGB = true) ∧
    (∃ (j : LayJob) (s : State), s.sgb.job = some j ∧ s.layDurable j = false) ∧
    (∃ (j : LayJob) (s : State) (u : State), s.sgb.job = some j ∧ s.layDurable j = true ∧ s.layEnd j = some u) ∧
    (∃ (pool : Fin 4) (module : Fin 64) (peer : BitVec 64) (s : State) (c : _), s.sgb.cmd.isSome = true ∧ c ∈ [Instr.createPool pool peer, .layoutReshape pool peer, .retire pool module]) ∧
    (∃ (module : Fin 64) (pa : Bool) (pool : Nat) (p : Pool) (s : State), s.maps.pools.find? (fun e => bit e.2.members module) = some (pool, p) ∧ s.lead = true ∧ s.graceOver module = true ∧ (s.mode = .solo ∨ pa = true) ∧ p.retired.length < 63 ∧ s.sgb.job = none) ∧
    (∃ (pool : Fin 4) (p : Pool) (b : Base) (s : State), aget s.maps.pools pool = some p ∧ p.baseOld = some b ∧ s.lead = true ∧ s.sgb.job = none ∧ (∀ e ∈ s.maps.segs, ¬(e.2.state ≠ 0 ∧ e.2.pool = pool.val ∧ e.2.basegen = b.basegen ∧ e.2.kind ≠ 1 ∧ e.2.kind ≠ 2))) ∧
    (∃ (pool : Fin 4) (p : Pool) (s : State), aget s.maps.pools pool = some p ∧ s.lead = true ∧ s.sgb.job = none ∧ p.rebuilt < p.retired.length ∧ (∀ e ∈ s.maps.segs, e.2.pool = pool.val → ∀ b, baseOf p e.2.basegen = some b → ∀ k ∈ affected p b e.2.row p.rebuilt, k ∉ s.missing e.1)) ∧
    (∃ (seg : Fin 33554432) (unit : Fin 18) (m : Nat) (l : List (Nat × Nat)) (s : State), s.rebuildList = (seg.val, unit.val) :: l ∧ (s.segHomes (s.seg seg))[unit.val]? = some (some m) ∧ s.mayProgram = true ∧ s.blockOn Pg.RBE = true) :=
  ⟨⟨0, 0, 0, run_ s0, (.createPool 0 0, 1, 0, 0), 6, (by decide +kernel), (by decide +kernel), (by decide +kernel), (by decide +kernel)⟩,
    ⟨0, 3, 0, onSgb (fun g => { g with job := some (retireJob 3 0 3 poolA) }) (poolSt poolA), (.retire 0 3, 3, 3, 0), (by decide +kernel), (by decide +kernel), (by decide +kernel), (by decide +kernel)⟩,
    ⟨0, 3, 0, poolSt poolA, (.retire 0 3, 3, 3, 0), (by decide +kernel), (by decide +kernel), (by decide +kernel), (by decide +kernel), (by decide +kernel)⟩,
    ⟨retireJob 3 0 3 poolA, onSgb (fun g => { g with job := some (retireJob 3 0 3 poolA) }) (poolSt poolA), (by decide +kernel), (by decide +kernel)⟩,
    ⟨retireJob 3 0 3 poolA, onMpe (fun m => { m with dir := [(layChunk 0 2, (0, 16))] }) (onSgb (fun g => { g with job := some (retireJob 3 0 3 poolA) }) (poolSt poolA)), _, (by decide +kernel), (by decide +kernel), (some_get (layEnd_some (journal_true (by decide +kernel) (by decide +kernel) (by decide +kernel))))⟩,
    ⟨0, 0, 0, onSgb (fun g => { g with cmd := some (1, 0, 0) }) p0, .retire 0 0, (by decide +kernel), (by decide +kernel)⟩,
    ⟨0, false, 0, poolA, { poolSt poolA with now := 10000000000000 }, (by decide +kernel), (by decide +kernel), (by decide +kernel), (by decide +kernel), (by decide +kernel), (by decide +kernel)⟩,
    ⟨0, { poolA with baseOld := some { baseA with basegen := 0 } }, { baseA with basegen := 0 }, poolSt { poolA with baseOld := some { baseA with basegen := 0 } }, (by decide +kernel), (by decide +kernel), (by decide +kernel), (by decide +kernel), (by decide +kernel)⟩,
    ⟨0, { poolA with retired := [3] }, poolSt { poolA with retired := [3] }, (by decide +kernel), (by decide +kernel), (by decide +kernel), (by decide +kernel), (fun _ h => by cases h)⟩,
    ⟨5, 0, _, _, medSeg segB, (cons_tail (by decide +kernel)), (some_some (by decide +kernel)), (by decide +kernel), (by decide +kernel)⟩⟩

theorem wit_RowsAndHomes :
    (∃ (p : Pool), p.retired = []) ∧
    (∃ (p : Pool) (b : Base) (row m : Nat), some m ∈ homesOf p b row) ∧
    (∃ (p : Pool) (b : Base) (row m : Nat) (i j : Nat), i < j ∧ (homesOf p b row)[i]? = some (some m)) :=
  ⟨⟨poolA, (by decide +kernel)⟩,
    ⟨poolA, baseA, 0, ((rowPerm baseA 0)[0]?).getD 0, (by decide +kernel)⟩,
    ⟨poolA, baseA, 0, ((rowPerm baseA 0)[0]?).getD 0, 0, 1, (by decide +kernel), (by decide +kernel)⟩⟩

theorem wit_MediaCompletes :
    (∃ (seg : Fin 33554432) (pool : Fin 4) (row : Fin 4096) (away : BitVec 64) (p : Pool) (s : State) (w : State), w = { s with fmm := { s.fmm with pAway := away.toNat } } ∧ aget s.maps.pools pool = some p ∧ w.mayOpen seg = true ∧ w.rowOpen p row = true ∧ (∃ c ∈ s.mpe.ckTodo, c.1 = pool.val)) ∧
    (∃ (seg : Fin 33554432) (pool : Fin 4) (row : Fin 4096) (away : BitVec 64) (p : Pool) (s : State) (w : State) (u : State) (v : State), w = { s with fmm := { s.fmm with pAway := away.toNat } } ∧ aget s.maps.pools pool = some p ∧ w.mayOpen seg = true ∧ w.rowOpen p row = true ∧ (∀ c ∈ s.mpe.ckTodo, c.1 ≠ pool.val) ∧ (s.sgb.opens.filter (fun e => !e.2.closed && e.2.recs.isEmpty)).length < max 1 (s.rf R.SGB.CFG.PREOPEN) ∧ w.journal [rSegState seg (s.seg seg).gen 0 0 1, rDirty seg false true] = (true, u) ∧ v = u.setSeg seg { u.seg seg with pool := pool, d := p.baseNew.d, basegen := p.baseNew.basegen, row := row }) ∧
    (∃ (seg : Fin 33554432) (s : State) (u : State), s.collectable seg = true ∧ s.blockOn Pg.FMM = true ∧ u = (if (s.seg seg).state = 6 then s else s.segTo seg 6) ∧ (u.seg seg).state = 6) ∧
    (∃ (seg : Fin 33554432) (r : Reloc) (s u : State) (v w : State), (s.seg seg).state = 2 ∧ s.sgb.reloc.filter (fun r => locSeg r.dst == seg.val) = [r] ∧ ctFree (s.ctRec r.cid) = false ∧ (s.ctRec r.cid).gen = r.gen ∧ (s.ctRec r.cid).loc = r.src ∧ s.journal [rCtLoc r.cid r.src r.dst] = (true, u) ∧ v = u.incWrap R.FMM.CNT_RELOC.COUNT ∧ w = { v with sgb := { v.sgb with reloc := v.sgb.reloc.filter (fun x => x != r) } }) ∧
    (∃ (q0 : Fin 33554432) (q1 : Fin 33554432) (q2 : Fin 33554432) (q3 : Fin 33554432) (new : Fin 33554432) (got : List (Nat × Bytes)) (s : State) (u : State), s.quadOk [q0, q1, q2, q3] = true ∧ (s.seg new).state = 0 ∧ new.val ≠ 0 ∧ (s.mode = .solo ∨ new.val % 2 = s.head) ∧ s.mayProgram = true ∧ s.blockOn Pg.FMM = true ∧ s.dirtySegs < s.rf R.SGB.CFG.MAX_DIRTY ∧ (∀ k t c, k < (s.seg q0).d + 2 → t < 4 → c < 16 → (aget got (cwKey k t c)).isSome = true) ∧ s.journal [rSegState new (s.seg new).gen (s.seg q0).kind 0 1, rDirty new false true] = (true, u)) ∧
    (∃ (seg : Fin 33554432) (o : OpenSeg) (s : State), aget s.sgb.opens seg = some o ∧ o.fold = true ∧ o.issued = true ∧ (s.mirrors = false ∨ o.ptSeq ≤ s.fmm.ptAck) ∧ (∀ k < (s.seg seg).d + 2, k ∈ o.durable ∨ k ∈ o.absent) ∧ o.absent ≠ []) ∧
    (∃ (seg : Fin 33554432) (o : OpenSeg) (s : State), aget s.sgb.opens seg = some o ∧ o.fold = true ∧ o.issued = true ∧ (s.mirrors = false ∨ o.ptSeq ≤ s.fmm.ptAck) ∧ (∀ k < (s.seg seg).d + 2, k ∈ o.durable ∨ k ∈ o.absent) ∧ o.absent = []) ∧
    (∃ (seg : Fin 33554432) (o : OpenSeg) (s : State) (u : State), aget s.sgb.opens seg = some o ∧ o.fold = true ∧ o.issued = true ∧ (s.mirrors = false ∨ o.ptSeq ≤ s.fmm.ptAck) ∧ (∀ k < (s.seg seg).d + 2, k ∈ o.durable ∨ k ∈ o.absent) ∧ o.absent = [] ∧ (∀ e ∈ s.maps.ct, locSeg e.2.loc ∉ (s.seg seg).sources) ∧ (s.seg seg).kind ≠ 4 ∧ s.mpe.dir = [] ∧ s.journal ([rSegState seg (s.seg seg).gen (s.seg seg).kind 1 3, rDirty seg true false] ++ (s.seg seg).sources.map (fun q => rSegState q (s.seg q).gen (s.seg q).kind 2 4)) = (true, u)) ∧
    (∃ (seg : Fin 33554432) (s : State), (s.seg seg).state = 4 ∧ s.ownsSeg seg = true ∧ (s.seg seg).valid = 0 ∧ (s.seg seg).kind ≠ 4 ∧ (∀ e ∈ s.maps.ct, ¬(locSeg e.2.loc = seg.val ∧ ctFree e.2 = false))) ∧
    (∃ (m : Fin 64) (die : Fin 64) (block : Fin 8192) (k : Nat) (s : State) (o : Ostamp) (u : State) (a : Nat), k = btKey m die block ∧ s.mayProgram = true ∧ serving s.mode = true ∧ die.val ∈ s.ownDies m ∧ ((s.blk k).state = 3 ∨ (s.blk k).state = 4) ∧ (∀ n ∈ s.unitsIn m die block, (s.seg n).state = 0) ∧ (s.mirrors = false ∨ s.fmm.ptSeq ≤ s.fmm.ptAck) ∧ (s.blk k).outRd = 0 ∧ (s.blk k).erasing = false ∧ s.absent m = false ∧ s.issue (Unit.fmm (m.val / 16)) = (some o, u) ∧ a = addrWord block 0 0 0 0 false 0 0 0) ∧
    (∃ (m : Fin 64) (seg : Fin 33554432) (got : List (Nat × Bytes)) (unit : Nat) (e : Nat) (s : State), s.unitOn seg m = some unit ∧ e = agetD s.fmm.pt (ptKey m seg 0 0) 0 ∧ ptValid e = true ∧ ptDie e ∈ s.ownDies m ∧ s.absent m = false ∧ s.moveCause m (ptDie e) (ptBlock e) = true ∧ s.jlk.reqs = [] ∧ (∀ i < (if (s.seg seg).isFold then 4 else 1) * 16, (aget got i).isSome = true)) ∧
    (∃ (m : Fin 64) (seg : Fin 33554432) (tile plane : Fin 4) (e : Nat) (x : Mod) (s : State), e = agetD s.fmm.pt (ptKey m seg tile plane) 0 ∧ ptValid e = true ∧ s.absent m = false ∧ ptDie e ∈ s.ownDies m ∧ aget s.fmm.mods m = some x ∧ aget x.patrol (ptKey 0 seg tile plane) = none) ∧
    (∃ (m die : Fin 64) (s : State), die.val ∈ s.ownDies m ∧ s.absent m = false ∧ s.mayProgram = true) :=
  ⟨⟨6, 0, 0, 0, poolA, onMpe (fun m => { m with ckTodo := [(0, 2 ^ 41)] }) med, _, rfl, (by decide +kernel), (by decide +kernel), (by decide +kernel), (by decide +kernel)⟩,
    ⟨6, 0, 0, 0, poolA, med, _, _, _, rfl, (by decide +kernel), (by decide +kernel), (by decide +kernel), (by decide +kernel), (by decide +kernel), (pair_true (journal_true (by decide +kernel) (by decide +kernel) (by decide +kernel))), rfl⟩,
    ⟨5, medSeg { segB with state := 6 }, _, (by decide +kernel), (by decide +kernel), rfl, (by decide +kernel)⟩,
    ⟨5, { cid := 7, gen := 1, src := 1, dst := 5 * 2 ^ 18 }, onMaps (fun m => { m with ct := [(7, { gen := 1, loc := 1, ref := 1 })] }) (onSgb (fun g => { g with reloc := [{ cid := 7, gen := 1, src := 1, dst := 5 * 2 ^ 18 }] }) (medSeg segB)), ((onMaps (fun m => { m with ct := [(7, { gen := 1, loc := 1, ref := 1 })] }) (onSgb (fun g => { g with reloc := [{ cid := 7, gen := 1, src := 1, dst := 5 * 2 ^ 18 }] }) (medSeg segB)) : State).journal [rCtLoc ({ cid := 7, gen := 1, src := 1, dst := 5 * 2 ^ 18 } : Reloc).cid ({ cid := 7, gen := 1, src := 1, dst := 5 * 2 ^ 18 } : Reloc).src ({ cid := 7, gen := 1, src := 1, dst := 5 * 2 ^ 18 } : Reloc).dst]).2, ((((onMaps (fun m => { m with ct := [(7, { gen := 1, loc := 1, ref := 1 })] }) (onSgb (fun g => { g with reloc := [{ cid := 7, gen := 1, src := 1, dst := 5 * 2 ^ 18 }] }) (medSeg segB)) : State).journal [rCtLoc ({ cid := 7, gen := 1, src := 1, dst := 5 * 2 ^ 18 } : Reloc).cid ({ cid := 7, gen := 1, src := 1, dst := 5 * 2 ^ 18 } : Reloc).src ({ cid := 7, gen := 1, src := 1, dst := 5 * 2 ^ 18 } : Reloc).dst]).2 : State).incWrap R.FMM.CNT_RELOC.COUNT), ({ (((((onMaps (fun m => { m with ct := [(7, { gen := 1, loc := 1, ref := 1 })] }) (onSgb (fun g => { g with reloc := [{ cid := 7, gen := 1, src := 1, dst := 5 * 2 ^ 18 }] }) (medSeg segB)) : State).journal [rCtLoc ({ cid := 7, gen := 1, src := 1, dst := 5 * 2 ^ 18 } : Reloc).cid ({ cid := 7, gen := 1, src := 1, dst := 5 * 2 ^ 18 } : Reloc).src ({ cid := 7, gen := 1, src := 1, dst := 5 * 2 ^ 18 } : Reloc).dst]).2 : State).incWrap R.FMM.CNT_RELOC.COUNT) : State) with sgb := { (((((onMaps (fun m => { m with ct := [(7, { gen := 1, loc := 1, ref := 1 })] }) (onSgb (fun g => { g with reloc := [{ cid := 7, gen := 1, src := 1, dst := 5 * 2 ^ 18 }] }) (medSeg segB)) : State).journal [rCtLoc ({ cid := 7, gen := 1, src := 1, dst := 5 * 2 ^ 18 } : Reloc).cid ({ cid := 7, gen := 1, src := 1, dst := 5 * 2 ^ 18 } : Reloc).src ({ cid := 7, gen := 1, src := 1, dst := 5 * 2 ^ 18 } : Reloc).dst]).2 : State).incWrap R.FMM.CNT_RELOC.COUNT) : State).sgb with reloc := (((((onMaps (fun m => { m with ct := [(7, { gen := 1, loc := 1, ref := 1 })] }) (onSgb (fun g => { g with reloc := [{ cid := 7, gen := 1, src := 1, dst := 5 * 2 ^ 18 }] }) (medSeg segB)) : State).journal [rCtLoc ({ cid := 7, gen := 1, src := 1, dst := 5 * 2 ^ 18 } : Reloc).cid ({ cid := 7, gen := 1, src := 1, dst := 5 * 2 ^ 18 } : Reloc).src ({ cid := 7, gen := 1, src := 1, dst := 5 * 2 ^ 18 } : Reloc).dst]).2 : State).incWrap R.FMM.CNT_RELOC.COUNT) : State).sgb.reloc.filter (fun x => x != ({ cid := 7, gen := 1, src := 1, dst := 5 * 2 ^ 18 } : Reloc)) } }), (by decide +kernel), (by decide +kernel), (by decide +kernel), (by decide +kernel), (by decide +kernel), (pair_true (journal_true (by decide +kernel) (by decide +kernel) (by decide +kernel))), rfl, rfl⟩,
    ⟨10, 11, 12, 13, 20, quadGot, quadSt, _, (by decide +kernel), (by decide +kernel), (by decide +kernel), (by decide +kernel), (by decide +kernel), (by decide +kernel), (by decide +kernel), quad_all, (pair_true (journal_true (by decide +kernel) (by decide +kernel) (by decide +kernel)))⟩,
    ⟨5, { foldO with durable := [], absent := List.range 10 }, medFold { foldO with durable := [], absent := List.range 10 }, (by decide +kernel), (by decide +kernel), (by decide +kernel), (by decide +kernel), (by decide +kernel), (by decide +kernel)⟩,
    ⟨5, foldO, medFold foldO, (by decide +kernel), (by decide +kernel), (by decide +kernel), (by decide +kernel), (by decide +kernel), (by decide +kernel)⟩,
    ⟨5, foldO, medFold foldO, _, (by decide +kernel), (by decide +kernel), (by decide +kernel), (by decide +kernel), (by decide +kernel), (by decide +kernel), (by decide +kernel), (by decide +kernel), (by decide +kernel), (pair_true (journal_true (by decide +kernel) (by decide +kernel) (by decide +kernel)))⟩,
    ⟨5, medSeg { segB with state := 4 }, (by decide +kernel), (by decide +kernel), (by decide +kernel), (by decide +kernel), (by decide +kernel)⟩,
    ⟨0, 0, 2, _, onFmm (fun f => { f with bt := [(btKey 0 0 2, { state := 3 })] }) med, _, _, _, rfl, (by decide +kernel), (by decide +kernel), (by decide +kernel), (by decide +kernel), (by decide +kernel), (by decide +kernel), (by decide +kernel), (by decide +kernel), (by decide +kernel), (pair_some (by decide +kernel)), rfl⟩,
    ⟨0, 5, (List.range 16).map (fun c => (c, [])), _, _, onFmm (fun f => { f with pt := [(ptKey 0 5 0 0, mkPt 0 2 0 false)], bt := [(btKey 0 0 2, { state := 3, refresh := true })] }) (medSeg segB), (some_get (by decide +kernel)), rfl, (by decide +kernel), (by decide +kernel), (by decide +kernel), (by decide +kernel), (by decide +kernel), (by decide +kernel)⟩,
    ⟨0, 5, 0, 0, (agetD (onFmm (fun f => { f with pt := [(ptKey 0 5 0 0, mkPt 0 1 0 false)] }) med : State).fmm.pt (ptKey (0 : Fin 64) (5 : Fin 33554432) (0 : Fin 4) (0 : Fin 4)) 0), { dies := 1, ready := true }, onFmm (fun f => { f with pt := [(ptKey 0 5 0 0, mkPt 0 1 0 false)] }) med, rfl, (by decide +kernel), (by decide +kernel), (by decide +kernel), (by decide +kernel), (by decide +kernel)⟩,
    ⟨15, 0, med, (by decide +kernel), (by decide +kernel), (by decide +kernel)⟩⟩

theorem wit_BridgeCompletes :
    (∃ (m : Fin 64) (port : Fin 2) (h : JHdr) (tag : Fin 4096) (tgen : Fin 16) (die : Fin 4096) (s : State) (u : State), s.bTake m port h tag tgen die opRead = (true, u) ∧ dieOk (u.bridge m) die = false) ∧
    (∃ (m : Fin 64) (port : Fin 2) (h : JHdr) (tag : Fin 4096) (tgen : Fin 16) (die : Fin 4096) (addr : BitVec 64) (s u : State), s.bTake m port h tag tgen die opRead = (true, u) ∧ dieOk (u.bridge m) die = true ∧ addrBlock addr.toNat < (u.bridge m).blocks ∧ (addrQlc addr.toNat = true ∨ addrPage addr.toNat < 64) ∧ (2 ≤ (u.linkEnd (portEnd m port)).ver ∨ fld addr.toNat 32 8 = 0) ∧ (u.bridge m).ops = []) ∧
    (∃ (m : Fin 64) (port : Fin 2) (h : JHdr) (tag : Fin 4096) (tgen : Fin 16) (die : Fin 4096) (addr : BitVec 64) (page : Bytes) (s u v : State), (s.bridge m).ops = [] ∧ s.bTake m port h tag tgen die opProgram = (true, u) ∧ v = u.freeCred (portEnd m port) h.got ∧ bit (v.bridge m).flags 2 = false ∧ dieOk (v.bridge m) die = true ∧ addrBlock addr.toNat < (v.bridge m).blocks ∧ page.length = 18560 ∧ addrQlc addr.toNat = false ∧ addrPage addr.toNat < 64 ∧ fld addr.toNat 44 4 = 0 ∧ fld addr.toNat 40 4 = fld addr.toNat 21 2) ∧
    (∃ (m : Fin 64) (port : Fin 2) (h : JHdr) (tag : Fin 4096) (tgen : Fin 16) (die : Fin 4096) (addr : BitVec 64) (s u v : State), s.bTake m port h tag tgen die opErase = (true, u) ∧ v = u.freeCred (portEnd m port) h.got ∧ bit (v.bridge m).flags 2 = false ∧ dieOk (v.bridge m) die = true ∧ addrBlock addr.toNat < (v.bridge m).blocks) ∧
    (∃ (m : Fin 64) (port : Fin 2) (tag : Fin 4096) (o : BOp) (b : Bridge) (s : State), b = s.bridge m ∧ b.ops.find? (fun o => o.port == port.val && o.tag == tag.val && !o.started && (o.op == opProgram || o.op == opErase)) = some o ∧ o.want ≤ o.pages ∧ (∀ x ∈ b.ops, x.started = true → x.die = o.die → x = o ∨ x.op = opClaim) ∧ ownerOf b o.die ≠ s.portHead m port) ∧
    (∃ (m : Fin 64) (port : Fin 2) (tag : Fin 4096) (o : BOp) (b : Bridge) (s : State), b = s.bridge m ∧ b.ops.find? (fun o => o.port == port.val && o.tag == tag.val && !o.started && (o.op == opProgram || o.op == opErase)) = some o ∧ o.want ≤ o.pages ∧ (∀ x ∈ b.ops, x.started = true → x.die = o.die → x = o ∨ x.op = opClaim) ∧ ownerOf b o.die = s.portHead m port ∧ o.op = opErase) ∧
    (∃ (m : Fin 64) (port : Fin 2) (tag : Fin 4096) (o : BOp) (b : Bridge) (s : State), b = s.bridge m ∧ b.ops = [o] ∧ o.port = port.val ∧ o.tag = tag.val ∧ o.started = true ∧ o.op = opErase) ∧
    (∃ (m : Fin 64) (port : Fin 2) (h : JHdr) (tag : Fin 4096) (tgen : Fin 16) (s u v : State) (die : Fin 4096), s.bTake m port h tag tgen die opStatus = (true, u) ∧ v = u.freeCred (portEnd m port) h.got ∧ die.val < (v.bridge m).dies ∧ die.val ≠ 0xFFF) ∧
    (∃ (m : Fin 64) (port : Fin 2) (h : JHdr) (tag : Fin 4096) (tgen : Fin 16) (s u v : State) (die : Fin 4096), s.bTake m port h tag tgen die opParam = (true, u) ∧ v = u.freeCred (portEnd m port) h.got) ∧
    (∃ (m : Fin 64) (port : Fin 2) (h : JHdr) (tag : Fin 4096) (tgen : Fin 16) (s u v : State) (gen : BitVec 32) (mask : BitVec 64) (rel : Bool), s.bTake m port h tag tgen 0xFFF opClaim = (true, u) ∧ v = u.freeCred (portEnd m port) h.got ∧ claimOk (v.bridge m) (v.portHead m port) gen.toNat rel (namedDies (v.bridge m) mask.toNat) = true) ∧
    (∃ (m : Fin 64) (port : Fin 2) (h : JHdr) (tag : Fin 4096) (tgen : Fin 16) (s : State) (u : State) (v : State), s.bTake m port h tag tgen 0xFFF opWitness = (true, u) ∧ v = u.freeCred (portEnd m port) h.got) :=
  ⟨⟨0, 0, jh, 0, 0, 64, br {}, ((br {} : State).bTake (0 : Fin 64) (0 : Fin 2) (jh) (0 : Fin 4096) (0 : Fin 16) (64 : Fin 4096) opRead).2, (Prod.ext (by decide +kernel) rfl), (by decide +kernel)⟩,
    ⟨0, 0, jh, 0, 0, 0, 0, br {}, ((br {} : State).bTake (0 : Fin 64) (0 : Fin 2) (jh) (0 : Fin 4096) (0 : Fin 16) (0 : Fin 4096) opRead).2, (Prod.ext (by decide +kernel) rfl), (by decide +kernel), (by decide +kernel), (by decide +kernel), (by decide +kernel), (by decide +kernel)⟩,
    ⟨0, 0, jh, 0, 0, 0, 0, List.replicate 18560 0, br {}, ((br {} : State).bTake (0 : Fin 64) (0 : Fin 2) (jh) (0 : Fin 4096) (0 : Fin 16) (0 : Fin 4096) opProgram).2, ((((br {} : State).bTake (0 : Fin 64) (0 : Fin 2) (jh) (0 : Fin 4096) (0 : Fin 16) (0 : Fin 4096) opProgram).2 : State).freeCred (portEnd (0 : Fin 64) (0 : Fin 2)) (jh).got), (by decide +kernel), (Prod.ext (by decide +kernel) rfl), rfl, (by decide +kernel), (by decide +kernel), (by decide +kernel), (by decide +kernel), (by decide +kernel), (by decide +kernel), (by decide +kernel), (by decide +kernel)⟩,
    ⟨0, 0, jh, 0, 0, 0, 0, br {}, ((br {} : State).bTake (0 : Fin 64) (0 : Fin 2) (jh) (0 : Fin 4096) (0 : Fin 16) (0 : Fin 4096) opErase).2, ((((br {} : State).bTake (0 : Fin 64) (0 : Fin 2) (jh) (0 : Fin 4096) (0 : Fin 16) (0 : Fin 4096) opErase).2 : State).freeCred (portEnd (0 : Fin 64) (0 : Fin 2)) (jh).got), (Prod.ext (by decide +kernel) rfl), rfl, (by decide +kernel), (by decide +kernel), (by decide +kernel)⟩,
    ⟨0, 0, 3, bop false, (({ br { ops := [bop false] } with jlk := { (br { ops := [bop false] }).jlk with ends := [(64, { state := lActive, peer := 1 })] } } : State).bridge (0 : Fin 64)), { br { ops := [bop false] } with jlk := { (br { ops := [bop false] }).jlk with ends := [(64, { state := lActive, peer := 1 })] } }, rfl, (by decide +kernel), (by decide +kernel), (by decide +kernel), (by decide +kernel)⟩,
    ⟨0, 0, 3, bop false, ((br { ops := [bop false], owner := [(0, 0)] } : State).bridge (0 : Fin 64)), br { ops := [bop false], owner := [(0, 0)] }, rfl, (by decide +kernel), (by decide +kernel), (by decide +kernel), (by decide +kernel), (by decide +kernel)⟩,
    ⟨0, 0, 3, bop true, ((br { ops := [bop true] } : State).bridge (0 : Fin 64)), br { ops := [bop true] }, rfl, (by decide +kernel), (by decide +kernel), (by decide +kernel), (by decide +kernel), (by decide +kernel)⟩,
    ⟨0, 0, jh, 0, 0, br {}, ((br {} : State).bTake (0 : Fin 64) (0 : Fin 2) (jh) (0 : Fin 4096) (0 : Fin 16) (0 : Fin 4096) opStatus).2, ((((br {} : State).bTake (0 : Fin 64) (0 : Fin 2) (jh) (0 : Fin 4096) (0 : Fin 16) (0 : Fin 4096) opStatus).2 : State).freeCred (portEnd (0 : Fin 64) (0 : Fin 2)) (jh).got), 0, (Prod.ext (by decide +kernel) rfl), rfl, (by decide +kernel), (by decide +kernel)⟩,
    ⟨0, 0, jh, 0, 0, br {}, ((br {} : State).bTake (0 : Fin 64) (0 : Fin 2) (jh) (0 : Fin 4096) (0 : Fin 16) (0 : Fin 4096) opParam).2, ((((br {} : State).bTake (0 : Fin 64) (0 : Fin 2) (jh) (0 : Fin 4096) (0 : Fin 16) (0 : Fin 4096) opParam).2 : State).freeCred (portEnd (0 : Fin 64) (0 : Fin 2)) (jh).got), 0, (Prod.ext (by decide +kernel) rfl), rfl⟩,
    ⟨0, 0, jh, 0, 0, br {}, ((br {} : State).bTake (0 : Fin 64) (0 : Fin 2) (jh) (0 : Fin 4096) (0 : Fin 16) 0xFFF opClaim).2, ((((br {} : State).bTake (0 : Fin 64) (0 : Fin 2) (jh) (0 : Fin 4096) (0 : Fin 16) 0xFFF opClaim).2 : State).freeCred (portEnd (0 : Fin 64) (0 : Fin 2)) (jh).got), 1, 3, false, (Prod.ext (by decide +kernel) rfl), rfl, (by decide +kernel)⟩,
    ⟨0, 0, jh, 0, 0, br {}, ((br {} : State).bTake (0 : Fin 64) (0 : Fin 2) (jh) (0 : Fin 4096) (0 : Fin 16) 0xFFF opWitness).2, ((((br {} : State).bTake (0 : Fin 64) (0 : Fin 2) (jh) (0 : Fin 4096) (0 : Fin 16) 0xFFF opWitness).2 : State).freeCred (portEnd (0 : Fin 64) (0 : Fin 2)) (jh).got), (Prod.ext (by decide +kernel) rfl), rfl⟩⟩

theorem wit_JonanTrainingCompletes :
    (∃ (p : Fin 64) (e : LinkEnd) (s : State), e = s.linkEnd p ∧ e.state = lDown ∧ s.pins.lanesEnabled = true ∧ p.val < positionsOf s.fuses.variant) ∧
    (∃ (p : Fin 64) (e : LinkEnd) (s : State), e = s.linkEnd p ∧ e.state = lTrain ∧ e.since + 200000000 ≤ s.now ∧ e.rate < 3) ∧
    (∃ (p : Fin 64) (e : LinkEnd) (s : State), e = s.linkEnd p ∧ e.state = lTrain ∧ e.since + 200000000 ≤ s.now ∧ 3 ≤ e.rate) ∧
    (∃ (p : Fin 64) (e : LinkEnd) (s : State) (l : Fin 32), e = s.linkEnd p ∧ l.val < 2 ∧ (e.state = lTrain ∨ e.state = lAlign) ∧ s.laneFenced p l = false) ∧
    (∃ (p : Fin 64) (e : LinkEnd) (s : State), e = s.linkEnd p ∧ e.state = lAlign ∧ s.laneFenced p 0 = false ∧ s.laneFenced p 1 = false) ∧
    (∃ (p : Fin 64) (e : LinkEnd) (s : State), e = s.linkEnd p ∧ e.state = lNegotiate ∧ e.trainGot = false ∧ e.trainAt = none) ∧
    (∃ (p : Fin 64) (e : LinkEnd) (s : State) (vers : Nat) (lanes : Nat) (t0 : Nat) (lo : Nat) (hi : Nat), e = s.linkEnd p ∧ e.state = lNegotiate ∧ e.trainAt = some t0 ∧ lanes % 4 ≠ 0 ∧ (lo, hi) = s.verRange p ∧ max lo (vers % 16) ≤ min hi (vers / 16 % 16)) ∧
    (∃ (p : Fin 64) (e : LinkEnd) (s : State) (vers : Nat) (lanes : Nat) (t0 : Nat) (lo : Nat) (hi : Nat), e = s.linkEnd p ∧ e.state = lNegotiate ∧ e.trainAt = some t0 ∧ lanes % 4 ≠ 0 ∧ (lo, hi) = s.verRange p ∧ min hi (vers / 16 % 16) < max lo (vers % 16)) ∧
    (∃ (p : Fin 64) (e : LinkEnd) (s : State) (loss : Fin 3), e = s.linkEnd p ∧ e.state = lActive ∧ (loss = 0 → s.rf (R.JLK.CFG.RETRY_MAX (posInst p)) ≤ e.replays)) ∧
    (∃ (p : Fin 64) (e : LinkEnd) (s : State), e = s.linkEnd p ∧ e.state = lRetrain ∧ e.since + s.rf (R.JLK.CFG2.RETRAIN_MS (posInst p)) * 1000000 ≤ s.now) ∧
    (∃ (p : Fin 64) (e : LinkEnd) (s : State), e = s.linkEnd p) :=
  ⟨⟨0, { pst lDown with since := 0 }, pos { pst lDown with since := 0 }, (by decide +kernel), (by decide +kernel), (by decide +kernel), (by decide +kernel)⟩,
    ⟨0, { pst lTrain with since := 0 }, pos { pst lTrain with since := 0 }, (by decide +kernel), (by decide +kernel), (by decide +kernel), (by decide +kernel)⟩,
    ⟨0, { pst lTrain with since := 0, rate := 3 }, pos { pst lTrain with since := 0, rate := 3 }, (by decide +kernel), (by decide +kernel), (by decide +kernel), (by decide +kernel)⟩,
    ⟨0, { pst lTrain with since := 0 }, pos { pst lTrain with since := 0 }, 1, (by decide +kernel), (by decide +kernel), (by decide +kernel), (by decide +kernel)⟩,
    ⟨0, { pst lAlign with since := 0 }, pos { pst lAlign with since := 0 }, (by decide +kernel), (by decide +kernel), (by decide +kernel), (by decide +kernel)⟩,
    ⟨0, { pst lNegotiate with since := 0 }, pos { pst lNegotiate with since := 0 }, (by decide +kernel), (by decide +kernel), (by decide +kernel), (by decide +kernel)⟩,
    ⟨0, { pst lNegotiate with trainAt := some 0 }, pos { pst lNegotiate with trainAt := some 0 }, 0x51, 3, 0, 1, 5, (by decide +kernel), (by decide +kernel), (by decide +kernel), (by decide +kernel), (by decide +kernel), (by decide +kernel)⟩,
    ⟨0, { pst lNegotiate with trainAt := some 0 }, pos { pst lNegotiate with trainAt := some 0 }, 0xFF, 3, 0, 1, 5, (by decide +kernel), (by decide +kernel), (by decide +kernel), (by decide +kernel), (by decide +kernel), (by decide +kernel)⟩,
    ⟨0, { pst lActive with since := 0 }, pos { pst lActive with since := 0 }, 1, (by decide +kernel), (by decide +kernel), (by decide +kernel)⟩,
    ⟨0, { pst lRetrain with since := 0 }, pos { pst lRetrain with since := 0 }, (by decide +kernel), (by decide +kernel), (by decide +kernel)⟩,
    ⟨0, { pst lActive with since := 0 }, pos { pst lActive with since := 0 }, (by decide +kernel)⟩⟩

theorem wit_CaridTrainingCompletes :
    (∃ (s : State), s.rf R.CPL.LINK_STAT.STATE = lDown ∧ s.pins.lanesEnabled = true ∧ s.mode ≠ .service ∧ s.mode ≠ .vault) ∧
    (∃ (s : State), s.rf R.CPL.LINK_STAT.STATE = lTrain ∧ s.cpl.since + 200000000 ≤ s.now) ∧
    (∃ (l : Fin 32) (s : State), (s.rf R.CPL.LINK_STAT.STATE = lTrain ∨ s.rf R.CPL.LINK_STAT.STATE = lAlign) ∧ l.val ∉ s.fencedUnits Pg.CPL) ∧
    (∃ (s : State), s.rf R.CPL.LINK_STAT.STATE = lNegotiate ∧ s.mode ≠ .boot ∧ s.cpl.pNonce = [] ∧ s.cpl.helloAt = none) ∧
    (∃ (h : Hello) (t0 : Nat) (s : State), s.rf R.CPL.LINK_STAT.STATE = lNegotiate ∧ s.mode ≠ .boot ∧ s.cpl.helloAt = some t0 ∧ s.cpl.nonce ≠ [] ∧ s.helloCheck h ≠ 0) ∧
    (∃ (h : Hello) (t0 : Nat) (s : State), s.rf R.CPL.LINK_STAT.STATE = lNegotiate ∧ s.mode ≠ .boot ∧ s.cpl.helloAt = some t0 ∧ s.cpl.nonce ≠ [] ∧ s.regsWf = true ∧ s.helloCheck h = 0 ∧ s.cpl.rehello = false) ∧
    (∃ (s : State) (rekey : Bool), s.rf R.CPL.LINK_STAT.STATE = lActive ∧ (rekey = true → s.rf R.CPL.LINK_STAT.VER < 2)) ∧
    (∃ (s : State), s.rf R.CPL.LINK_STAT.STATE = lActive ∧ s.flag R.CPL.LINK_STAT.GCM = true ∧ s.cpl.txNew = none ∧ s.cpl.keyAt + s.rf R.CPL.CFG2.REKEY_H * 3600 * 1000000000 ≤ s.now ∧ s.rf R.SEC.STAT.RNG ≠ 0 ∧ s.rf R.CPL.LINK_STAT.VER < 2) ∧
    (∃ (s : State) (k : _), s.rf R.CPL.LINK_STAT.STATE = lActive ∧ s.flag R.CPL.LINK_STAT.GCM = true ∧ s.cpl.txNew = none ∧ s.cpl.keyAt + s.rf R.CPL.CFG2.REKEY_H * 3600 * 1000000000 ≤ s.now ∧ s.rf R.SEC.STAT.RNG ≠ 0 ∧ 2 ≤ s.rf R.CPL.LINK_STAT.VER ∧ s.pairKey = some k) ∧
    (∃ (h : CHdr) (k : Bytes) (s : State) (u : State), s.cRecv cAdmin h = (true, u) ∧ s.pairKey = some k) ∧
    (∃ (s : State), s.rf R.CPL.LINK_STAT.STATE = lRetrain ∧ s.cpl.since + s.rf R.CPL.CFG.RETRAIN_MS * 1000000 ≤ s.now) ∧
    (∃ (s : State), s.rf R.CPL.LINK_STAT.STATE ≠ lDown) :=
  ⟨⟨car lDown, (by decide +kernel), (by decide +kernel), (by decide +kernel), (by decide +kernel)⟩,
    ⟨car lTrain, (by decide +kernel), (by decide +kernel)⟩,
    ⟨31, car lAlign, (by decide +kernel), (by decide +kernel)⟩,
    ⟨car lNegotiate, (by decide +kernel), (by decide +kernel), (by decide +kernel), (by decide +kernel)⟩,
    ⟨negoN.ownHello, 0, negoN, (by decide +kernel), (by decide +kernel), (by decide +kernel), (by decide +kernel), (by decide +kernel)⟩,
    ⟨{ negoN.ownHello with head := 1 }, 0, negoN, (by decide +kernel), (by decide +kernel), (by decide +kernel), (by decide +kernel), (by decide +kernel), (by decide +kernel), (by decide +kernel)⟩,
    ⟨car lActive, false, (by decide +kernel), (by decide +kernel)⟩,
    ⟨((car lActive).wf R.CPL.LINK_STAT.GCM 1).wf R.SEC.STAT.RNG 1, (by decide +kernel), (by decide +kernel), (by decide +kernel), (by decide +kernel), (by decide +kernel), (by decide +kernel)⟩,
    ⟨((carKey (car lActive)).wf R.CPL.LINK_STAT.VER 2).wf R.SEC.STAT.RNG 1, _, (by decide +kernel), (by decide +kernel), (by decide +kernel), (by decide +kernel), (by decide +kernel), (by decide +kernel), (some_get (by decide +kernel))⟩,
    ⟨{ ver := 0, len := 0, got := 0 }, _, carFrame, ((carFrame).cRecv cAdmin ({ ver := 0, len := 0, got := 0 } : CHdr)).2, (Prod.ext (by decide +kernel) rfl), rfl⟩,
    ⟨car lRetrain, (by decide +kernel), (by decide +kernel)⟩,
    ⟨car lActive, (by decide +kernel)⟩⟩

theorem wit_LinkFramesComplete :
    (∃ (sel : LinkSel) (h : JHdr) (s : State) (u : State), s.jRecv (endKey sel) { h with typ := fNak } = (true, u)) ∧
    (∃ (p : Fin 64) (s : State), (s.linkEnd p).state = lActive ∧ ((s.linkEnd p).ackDue.isSome = true ∨ 0 < (s.linkEnd p).owed)) ∧
    (∃ (s : State), s.rf R.CPL.LINK_STAT.STATE = lActive ∧ s.cpl.ackDue.isSome = true) ∧
    (∃ (h : CHdr) (x : Nat) (m : CMsg) (b : CSent) (l : List (Nat × CMsg × CSent)) (s : State) (u : State), s.cRecv cLink h = (true, u) ∧ u.cpl.unack = (x, m, b) :: l) ∧
    (∃ (p : Fin 64) (h : JHdr) (s : State) (u : State), s.jRecv p { h with typ := fEvent } = (true, u)) ∧
    (∃ (p : Fin 64) (h : JHdr) (die : Fin 256) (s u : State), s.jRecv p { h with typ := fEvent } = (true, u) ∧ die.val < 64) ∧
    (∃ (p : Fin 64) (h : JHdr) (s : State) (u : State) (code : Fin 256), s.jRecv p { h with typ := fEvent } = (true, u) ∧ 2 < code.val) ∧
    (∃ (p : Fin 64) (s : State), (s.linkEnd p).state = lActive ∧ (s.linkEnd p).ver < 5 ∧ aget s.jlk.pollAt p = none) ∧
    (∃ (p : Fin 64) (h : JHdr) (tag : Fin 4096) (tgen : Fin 16) (st : Fin 256) (s : State) (u : State) (r : _), s.jRecv p { h with typ := fRsp } = (true, u) ∧ aget u.jlk.reqs (p.val * 4096 + tag) = some r ∧ r.gen = tgen.val ∧ st = 0 ∧ (r.op = opRead → (u.takeReq (p.val * 4096 + tag) false).stagingFor r.why = true)) ∧
    (∃ (p : Fin 64) (h : JHdr) (tag : Fin 4096) (tgen : Fin 16) (s : State) (u : State), s.jRecv p { h with typ := fRsp } = (true, u) ∧ (∀ r, aget u.jlk.reqs (p.val * 4096 + tag) = some r → r.gen ≠ tgen.val)) ∧
    (∃ (p : Fin 64) (tag : Fin 4096) (r : Req) (s : State), aget s.jlk.reqs (p.val * 4096 + tag) = some r ∧ (∀ w ∈ s.jlk.wait, w.1 ≠ p.val * 4096 + tag.val) ∧ r.at0 + s.rf (R.JLK.CFG.TIMEOUT_MS (posInst p)) * 1000000 ≤ s.now) ∧
    (∃ (inst : Fin 4) (s : State) (v : State) (w : Bytes), s.flag (R.JLK.WIT_CFG.EN inst) = true ∧ (∀ t, aget s.jlk.witAt inst = some t → t + s.rf (R.JLK.WIT_CFG.PERIOD_MS inst) * 1000000 ≤ s.now) ∧ v = { s with jlk := { s.jlk with witAt := aset s.jlk.witAt inst s.now, witSeq := s.jlk.witSeq + 1 } } ∧ w = le (s.jlk.witSeq + 1) 8 ++ le s.estamp 8 ++ le s.jlk.gen 4 ++ le (modeCode s.mode) 1 ++ zeros 3) :=
  ⟨⟨.jonan 0, jh, br {}, ((br {} : State).jRecv (endKey (.jonan 0 : LinkSel)) { (jh) with typ := fNak }).2, (Prod.ext (by decide +kernel) rfl)⟩,
    ⟨0, pos { pst lActive with ackDue := some 0 }, (by decide +kernel), (by decide +kernel)⟩,
    ⟨onCpl (fun c => { c with ackDue := some 0 }) (car lActive), (by decide +kernel), (by decide +kernel)⟩,
    ⟨{ ver := 0, len := 0, got := 0 }, 0, .free [], { ver := 1, ack := 0 }, [], onCpl (fun c => { c with unack := [(0, .free [], { ver := 1, ack := 0 })] }) ph, _, (pair_true (by decide +kernel)), rfl⟩,
    ⟨0, jh, br {}, ((br {} : State).jRecv (0 : Fin 64) { (jh) with typ := fEvent }).2, (Prod.ext (by decide +kernel) rfl)⟩,
    ⟨0, jh, 63, br {}, ((br {} : State).jRecv (0 : Fin 64) { (jh) with typ := fEvent }).2, (Prod.ext (by decide +kernel) rfl), (by decide +kernel)⟩,
    ⟨0, jh, br {}, ((br {} : State).jRecv (0 : Fin 64) { (jh) with typ := fEvent }).2, 3, (Prod.ext (by decide +kernel) rfl), (by decide +kernel)⟩,
    ⟨0, pos (pst lActive), (by decide +kernel), (by decide +kernel), (by decide +kernel)⟩,
    ⟨0, jh, 3, 0, (0), onJlk (fun j => { j with reqs := [(3, { op := opErase, gen := 0, at0 := 0, why := .other })] }) (br {}), ((onJlk (fun j => { j with reqs := [(3, { op := opErase, gen := 0, at0 := 0, why := .other })] }) (br {}) : State).jRecv (0 : Fin 64) { (jh) with typ := fRsp }).2, { op := opErase, gen := 0, at0 := 0, why := .other }, (Prod.ext (by decide +kernel) rfl), (by decide +kernel), (by decide +kernel), rfl, (by decide +kernel)⟩,
    ⟨0, jh, 0, 0, br {}, ((br {} : State).jRecv (0 : Fin 64) { (jh) with typ := fRsp }).2, (Prod.ext (by decide +kernel) rfl), (fun _ h => by cases h)⟩,
    ⟨0, 3, { op := opErase, gen := 0, at0 := 0, why := .other }, onJlk (fun j => { j with reqs := [(3, { op := opErase, gen := 0, at0 := 0, why := .other })] }) (pos (pst lActive)), (by decide +kernel), (by decide +kernel), (by decide +kernel)⟩,
    ⟨0, { p0.wf (R.JLK.WIT_CFG.EN 0) 1 with now := 100000000000 }, _, _, (by decide +kernel), (fun _ h => by cases h), rfl, rfl⟩⟩

theorem wit_FramesAcceptedInOrder :
    (∃ (i : Nat) (h : JHdr) (s u : State), h.typ ≠ fNak ∧ h.typ ≠ fIdle ∧ s.jRecv i h = (true, u)) ∧
    (∃ (i : Nat) (h : JHdr) (s u : State), h.typ ≠ fNak ∧ h.typ ≠ fIdle ∧ s.jRecv i h = (false, u)) :=
  ⟨⟨0, { jh with typ := fRsp }, br {}, ((br {}).jRecv 0 { jh with typ := fRsp }).2, (by decide +kernel), (by decide +kernel), (by decide +kernel)⟩,
    ⟨0, { jh with typ := fRsp, crcOk := false }, br {}, _, (by decide +kernel), (by decide +kernel), (Prod.ext (by decide +kernel) rfl)⟩⟩

theorem wit_WindowAndCredits : ∃ (i : Nat) (s : State), (s.linkEnd i).unack.length ≤ 1024 :=
  ⟨0, br {}, (by decide +kernel)⟩

theorem wit_MirrorCompletes :
    (∃ (h : CHdr) (s : State) (u : State), s.cRecv cMirror h = (true, u) ∧ takesMirror u.mode = true) ∧
    (∃ (h : CHdr) (s : State) (u : State) (gs : List MGrain), s.cRecv cMirror h = (true, u) ∧ takesMirror u.mode = true ∧ (∀ g ∈ gs, g.slice = 0xFFFFF ∨ u.handleOk g.slice = true)) ∧
    (∃ (h : CHdr) (s u : State) (txn op : Nat) (c : IoCmd), s.cRecv cMirror h = (true, u) ∧ u.byTxn txn = some (op, c)) ∧
    (∃ (h : CHdr) (s : State) (u : State), s.cRecv cMirror h = (true, u)) ∧
    (∃ (h : CHdr) (s u : State) (mtok : Nat), s.cRecv cMirror h = (true, u) ∧ takesMirror u.mode = true ∧ u.tokKnown mtok = true) :=
  ⟨⟨{ ver := 0, len := 0, got := 0 }, run_ ph, ((run_ ph : State).cRecv cMirror ({ ver := 0, len := 0, got := 0 } : CHdr)).2, (Prod.ext (by decide +kernel) rfl), (by decide +kernel)⟩,
    ⟨{ ver := 0, len := 0, got := 0 }, run_ ph, _, [], (pair_true (by decide +kernel)), (by decide +kernel), (by decide +kernel)⟩,
    ⟨{ ver := 0, len := 0, got := 0 }, cmdOn { fw1 with txn := 7 } (run_ ph), ((cmdOn { fw1 with txn := 7 } (run_ ph) : State).cRecv cMirror ({ ver := 0, len := 0, got := 0 } : CHdr)).2, 7, 3, { fw1 with txn := 7 }, (Prod.ext (by decide +kernel) rfl), (by decide +kernel)⟩,
    ⟨{ ver := 0, len := 0, got := 0 }, run_ ph, ((run_ ph : State).cRecv cMirror ({ ver := 0, len := 0, got := 0 } : CHdr)).2, (Prod.ext (by decide +kernel) rfl)⟩,
    ⟨{ ver := 0, len := 0, got := 0 }, tokPh, ((tokPh).cRecv cMirror ({ ver := 0, len := 0, got := 0 } : CHdr)).2, 0, (Prod.ext (by decide +kernel) rfl), (by decide +kernel), (by decide +kernel)⟩⟩

theorem wit_DeltaCompletes :
    (∃ (h : CHdr) (s : State) (u : State), s.cRecv cDelta h = (true, u) ∧ takesMirror u.mode = true) ∧
    (∃ (h : CHdr) (s : State) (u : State) (lane : Nat), s.cRecv cDelta h = (true, u) ∧ lane < 32) ∧
    (∃ (h : CHdr) (s : State) (u : State), s.cRecv cDelta h = (true, u)) ∧
    (∃ (s : State), s.caridUp = true ∧ takesMirror s.mode = true ∧ s.cpl.lackAt + s.rf R.CPL.CFG2.LACK_US * 1000 ≤ s.now) :=
  ⟨⟨{ ver := 0, len := 0, got := 0 }, run_ ph, ((run_ ph : State).cRecv cDelta ({ ver := 0, len := 0, got := 0 } : CHdr)).2, (Prod.ext (by decide +kernel) rfl), (by decide +kernel)⟩,
    ⟨{ ver := 0, len := 0, got := 0 }, run_ ph, ((run_ ph : State).cRecv cDelta ({ ver := 0, len := 0, got := 0 } : CHdr)).2, 31, (Prod.ext (by decide +kernel) rfl), (by decide +kernel)⟩,
    ⟨{ ver := 0, len := 0, got := 0 }, run_ ph, ((run_ ph : State).cRecv cDelta ({ ver := 0, len := 0, got := 0 } : CHdr)).2, (Prod.ext (by decide +kernel) rfl)⟩,
    ⟨{ ph with now := 1000000 }, (by decide +kernel), (by decide +kernel), (by decide +kernel)⟩⟩

theorem wit_ForwardCompletes :
    (∃ (h : CHdr) (s : State) (u : State) (slice : Nat), s.cRecv cForward h = (true, u) ∧ serving u.mode = true ∧ u.handleOk slice = false) ∧
    (∃ (h : CHdr) (s : State) (u : State) (slice : Nat) (f : FwdCmd) (data : Bytes), s.cRecv cForward h = (true, u) ∧ serving u.mode = true ∧ u.handleOk slice = true ∧ u.fwdBytes f ≤ data.length) ∧
    (∃ (h : CHdr) (s u : State) (tok off op : Nat) (data : Bytes) (c0 c : IoCmd) (v : State), s.cRecv cForward h = (true, u) ∧ u.byTok tok false = some (op, c0) ∧ v = u.updCmd op (fun c => { c with data := (c.data.take off ++ data ++ c.data.drop (off + data.length)).take c.need, recvd := c.recvd + data.length }) ∧ aget v.io.cmds op = some c) ∧
    (∃ (h : CHdr) (s : State) (u : State) (tok : Nat) (off : Nat) (tag : Nat) (op : Nat) (data : Bytes) (c : IoCmd) (p : Nat × Nat × Nat) (c' : IoCmd) (g : RdGrain) (v : State), s.cRecv cForward h = (true, u) ∧ u.byTok tok true = some (op, c) ∧ (grainSpan (u.lbafOf c.ns) c.slba c.nlb)[off / 4096]? = some p ∧ v = (u.updCmd op (fun c => { c with reads := c.reads ++ [{ gi := p.1, sec := p.2.1, nsec := p.2.2, clen := 256, data := data, tag := tag, done := true }] })).piReads op ∧ v.readAt op c.reads.length = some (c', g)) ∧
    (∃ (h : CHdr) (s : State) (u : State) (tok : Nat) (op : Nat) (c : IoCmd), s.cRecv cForward h = (true, u) ∧ u.byTok tok true = some (op, c) ∧ isResv c.opc = true ∧ c.stage = .stamped) ∧
    (∃ (h : CHdr) (s : State) (u : State) (tok : Nat) (op : Nat) (c : IoCmd) (sct : Nat) (sc : Nat), s.cRecv cForward h = (true, u) ∧ u.byTok tok true = some (op, c) ∧ isResv c.opc = false ∧ (sct ≠ 0 ∨ sc ≠ 0)) ∧
    (∃ (h : CHdr) (s : State) (u : State) (tok : Nat) (op : Nat) (c : IoCmd), s.cRecv cForward h = (true, u) ∧ u.byTok tok true = some (op, c) ∧ isResv c.opc = false ∧ lowestFail c = none) ∧
    (∃ (h : CHdr) (s : State) (u : State) (tok : Nat) (op : Nat) (c : IoCmd) (o : Nat), s.cRecv cForward h = (true, u) ∧ u.byTok tok true = some (op, c) ∧ isResv c.opc = false ∧ lowestFail c = none ∧ o ≠ 0) ∧
    (∃ (h : CHdr) (s u : State) (tok op : Nat) (c : IoCmd), s.cRecv cForward h = (true, u) ∧ u.byTok tok false = some (op, c) ∧ c.recvd = 0 ∧ c.reads = [] ∧ c.stage = .data ∧ c.doneN = 0) ∧
    (∃ (s : State) (v : State), s.rf R.CPL.LINK_STAT.STATE = lActive ∧ s.beats = true ∧ s.cpl.hbSent + s.rf R.CPL.CFG2.HB_US * 1000 ≤ s.now ∧ v = s.updCpl (fun c => { c with hbSeq := c.hbSeq + 1, hbSent := s.now })) ∧
    (∃ (h : CHdr) (s : State) (u : State), s.cRecv cHeart h = (true, u)) ∧
    (∃ (s : State), s.mode = .paired ∧ s.rf R.CPL.LINK_STAT.STATE ≠ lActive ∧ s.witRecent 20000000 = true ∧ s.cpl.splitAt = none) ∧
    (∃ (t0 : Nat) (s : State), s.mode = .paired ∧ s.rf R.CPL.LINK_STAT.STATE ≠ lActive ∧ s.witRecent 20000000 = true ∧ s.cpl.splitAt = some t0 ∧ t0 + s.rf R.CPL.CFG.SPLIT_MS * 1000000 ≤ s.now ∧ s.bsv.silent = false ∧ (s.ownHello.lanes < s.cpl.pLanes ∨ (s.ownHello.lanes = s.cpl.pLanes ∧ s.head = 1))) :=
  ⟨⟨{ ver := 0, len := 0, got := 0 }, run_ ph, _, 4096, (pair_true (by decide +kernel)), (by decide +kernel), (by decide +kernel)⟩,
    ⟨{ ver := 0, len := 0, got := 0 }, run_ ph, _, 0, { opc := oWrite, ns := 1, slba := 0, nlb := 0, pract := false, lbat := 0, deac := false, ranges := [] }, [], (pair_true (by decide +kernel)), (by decide +kernel), (by decide +kernel), (by decide +kernel)⟩,
    ⟨{ ver := 0, len := 0, got := 0 }, cmdOn fw2 (run_ ph), ((cmdOn fw2 (run_ ph) : State).cRecv cForward ({ ver := 0, len := 0, got := 0 } : CHdr)).2, 9, 0, 3, [1], fw2, { fw2 with recvd := 1, data := [1] }, ((((cmdOn fw2 (run_ ph) : State).cRecv cForward ({ ver := 0, len := 0, got := 0 } : CHdr)).2 : State).updCmd (3 : Nat) (fun c => { c with data := (c.data.take (0 : Nat) ++ ([1]) ++ c.data.drop ((0 : Nat) + ([1]).length)).take c.need, recvd := c.recvd + ([1]).length })), (Prod.ext (by decide +kernel) rfl), (by decide +kernel), rfl, (by decide +kernel)⟩,
    ⟨{ ver := 0, len := 0, got := 0 }, cmdOn fw1 (run_ ph), _, 9, 0, 0, 3, List.replicate 4096 0, fw1, _, _, _, _, (pair_true (by decide +kernel)), (by decide +kernel), (some_get (by decide +kernel)), rfl, (some_pair2 (by decide +kernel))⟩,
    ⟨{ ver := 0, len := 0, got := 0 }, cmdOn { fw1 with opc := oResReg, stage := .stamped } (run_ ph), _, 9, 3, { fw1 with opc := oResReg, stage := .stamped }, (pair_true (by decide +kernel)), (by decide +kernel), (by decide +kernel), (by decide +kernel)⟩,
    ⟨{ ver := 0, len := 0, got := 0 }, cmdOn fw1 (run_ ph), _, 9, 3, fw1, 0, 7, (pair_true (by decide +kernel)), (by decide +kernel), (by decide +kernel), (by decide +kernel)⟩,
    ⟨{ ver := 0, len := 0, got := 0 }, cmdOn fw1 (run_ ph), _, 9, 3, fw1, (pair_true (by decide +kernel)), (by decide +kernel), (by decide +kernel), (by decide +kernel)⟩,
    ⟨{ ver := 0, len := 0, got := 0 }, cmdOn fw1 (run_ ph), _, 9, 3, fw1, 5, (pair_true (by decide +kernel)), (by decide +kernel), (by decide +kernel), (by decide +kernel), (by decide +kernel)⟩,
    ⟨{ ver := 0, len := 0, got := 0 }, cmdOn fw2 (run_ ph), ((cmdOn fw2 (run_ ph) : State).cRecv cForward ({ ver := 0, len := 0, got := 0 } : CHdr)).2, 9, 3, fw2, (Prod.ext (by decide +kernel) rfl), (by decide +kernel), (by decide +kernel), (by decide +kernel), (by decide +kernel), (by decide +kernel)⟩,
    ⟨{ ph with now := 1000000 }, (({ ph with now := 1000000 } : State).updCpl (fun c => { c with hbSeq := c.hbSeq + 1, hbSent := ({ ph with now := 1000000 } : State).now })), (by decide +kernel), (by decide +kernel), (by decide +kernel), rfl⟩,
    ⟨{ ver := 0, len := 0, got := 0 }, run_ ph, ((run_ ph : State).cRecv cHeart ({ ver := 0, len := 0, got := 0 } : CHdr)).2, (Prod.ext (by decide +kernel) rfl)⟩,
    ⟨split, (by decide +kernel), (by decide +kernel), (by decide +kernel), (by decide +kernel)⟩,
    ⟨0, onCpl (fun c => { c with splitAt := some 0, pLanes := 32 }) split, (by decide +kernel), (by decide +kernel), (by decide +kernel), (by decide +kernel), (by decide +kernel), (by decide +kernel), (by decide +kernel)⟩⟩

theorem wit_MovesAndHandoverComplete :
    (∃ (h : CHdr) (g : Fin 65536) (p : Nat) (s : State) (u : State) (v : State), s.cRecv cAdmin h = (true, u) ∧ v = (u.heard p).sendC (.admin h.atag (.moveAgree g (max p u.moveStamp))) ∧ u.mode ≠ .joining) ∧
    (∃ (h : CHdr) (g : Fin 65536) (p : Nat) (s : State) (u : State) (v : State), s.cRecv cAdmin h = (true, u) ∧ v = (u.heard p).sendC (.admin h.atag (.moveAgree g (max p u.moveStamp))) ∧ u.mode = .joining) ∧
    (∃ (g : Nat) (o : Nat) (dest : Nat) (u : State) (v : State), v = u.updCpl (fun c => { c with moves := aset c.moves g (o, dest) }) ∧ dest = u.head) ∧
    (∃ (g : Nat) (o : Nat) (dest : Nat) (u : State) (v : State), v = u.updCpl (fun c => { c with moves := aset c.moves g (o, dest) }) ∧ dest ≠ u.head) ∧
    (∃ (h : CHdr) (g : Fin 65536) (o : Nat) (x : Nat) (dest : Nat) (s : State) (u : State) (v : State), s.cAnswer h = (true, u) ∧ aget u.cpl.props g = some (x, dest) ∧ v = (u.heard o).updCpl (fun c => { c with props := adel c.props g }) ∧ u.mode ≠ .solo) ∧
    (∃ (h : CHdr) (g : Fin 65536) (o : Nat) (x : Nat) (dest : Nat) (s : State) (u : State) (v : State) (w : State), s.cAnswer h = (true, u) ∧ aget u.cpl.props g = some (x, dest) ∧ v = (u.heard o).updCpl (fun c => { c with props := adel c.props g }) ∧ u.mode = .solo ∧ v.journal [rMove g v.head v.head o] = (true, w)) ∧
    (∃ (g : Fin 65536) (o : Nat) (dest : Nat) (s : State) (v : State), aget s.cpl.moves g = some (o, dest) ∧ dest ≠ s.head ∧ s.moveOwned g = [] ∧ s.io.cmds = [] ∧ s.movedOver o = true ∧ s.mode = .paired ∧ v = (s.updCpl (fun c => { c with moves := adel c.moves g })).sendC (.moveDone g o)) ∧
    (∃ (h : CHdr) (g : Fin 65536) (o d : Nat) (s u : State), s.cRecv cAdmin h = (true, u) ∧ (u.heard o).mode = .paired ∧ aget (u.heard o).cpl.moves g = some (o, d)) ∧
    (∃ (h : CHdr) (o : Nat) (s : State) (u : State), s.cRecv cAdmin h = (true, u) ∧ (u.heard o).mode = .joining ∧ (u.heard o).cpl.switch = some o) ∧
    (∃ (s : State), s.mode = .paired ∧ s.rf R.CPL.LINK_STAT.STATE = lActive ∧ s.cpl.moves = [] ∧ s.cpl.props = [] ∧ 3 ≤ s.rf R.CPL.LINK_STAT.VER) ∧
    (∃ (s : State), s.mode = .paired ∧ s.rf R.CPL.LINK_STAT.STATE = lActive ∧ s.cpl.moves = [] ∧ s.cpl.props = [] ∧ s.rf R.CPL.LINK_STAT.VER < 3) ∧
    (∃ (h : CHdr) (s u : State), s.cRecv cAdmin h = (true, u) ∧ u.mode = .paired) ∧
    (∃ (h : CHdr) (s : State) (u : State), s.cAnswer h = (true, u) ∧ u.mode = .handover) ∧
    (∃ (s : State), s.mode = .handover ∧ s.drained = true ∧ s.cpl.hoClaimed = false ∧ s.cpl.relStage = 0) ∧
    (∃ (s : State), s.mode = .handover ∧ s.drained = true ∧ s.cpl.hoClaimed = true ∧ s.cpl.hoFinal = false) :=
  ⟨⟨{ ver := 0, len := 0, got := 0 }, 3, 9, run_ ph, _, _, (pair_true (by decide +kernel)), rfl, (by decide +kernel)⟩,
    ⟨{ ver := 0, len := 0, got := 0 }, 3, 9, jn, _, _, (pair_true (by decide +kernel)), rfl, (by decide +kernel)⟩,
    ⟨3, 9, 0, p0, _, rfl, (by decide +kernel)⟩,
    ⟨3, 9, 1, p0, _, rfl, (by decide +kernel)⟩,
    ⟨{ ver := 0, len := 0, got := 0 }, 3, 9, 5, 1, onCpl (fun c => { c with props := [(3, (5, 1))] }) (asked (run_ ph)), _, _, (pair_true (by decide +kernel)), (by decide +kernel), rfl, (by decide +kernel)⟩,
    ⟨{ ver := 0, len := 0, got := 0 }, 3, 9, 5, 0, onCpl (fun c => { c with props := [(3, (5, 0))] }) (asked (hm .solo)), _, _, _, (pair_true (by decide +kernel)), (by decide +kernel), rfl, (by decide +kernel), (pair_true (journal_true (by decide +kernel) (by decide +kernel) (by decide +kernel)))⟩,
    ⟨3, 0, 1, onCpl (fun c => { c with moves := [(3, (0, 1))] }) p0, _, (by decide +kernel), (by decide +kernel), (by decide +kernel), (by decide +kernel), (by decide +kernel), (by decide +kernel), rfl⟩,
    ⟨{ ver := 0, len := 0, got := 0 }, 3, 9, 0, onCpl (fun c => { c with moves := [(3, (9, 0))] }) (run_ ph), ((onCpl (fun c => { c with moves := [(3, (9, 0))] }) (run_ ph) : State).cRecv cAdmin ({ ver := 0, len := 0, got := 0 } : CHdr)).2, (Prod.ext (by decide +kernel) rfl), (by decide +kernel), (by decide +kernel)⟩,
    ⟨{ ver := 0, len := 0, got := 0 }, 5, onCpl (fun c => { c with switch := some 5 }) jn, _, (pair_true (by decide +kernel)), (by decide +kernel), (by decide +kernel)⟩,
    ⟨ph.wf R.CPL.LINK_STAT.VER 3, (by decide +kernel), (by decide +kernel), (by decide +kernel), (by decide +kernel), (by decide +kernel)⟩,
    ⟨ph, (by decide +kernel), (by decide +kernel), (by decide +kernel), (by decide +kernel), (by decide +kernel)⟩,
    ⟨{ ver := 0, len := 0, got := 0 }, run_ ph, ((run_ ph : State).cRecv cAdmin ({ ver := 0, len := 0, got := 0 } : CHdr)).2, (Prod.ext (by decide +kernel) rfl), (by decide +kernel)⟩,
    ⟨{ ver := 0, len := 0, got := 0 }, asked (hm .handover), _, (pair_true (by decide +kernel)), (by decide +kernel)⟩,
    ⟨inMode .handover, (by decide +kernel), (by decide +kernel), (by decide +kernel), (by decide +kernel)⟩,
    ⟨onCpl (fun c => { c with hoClaimed := true }) (inMode .handover), (by decide +kernel), (by decide +kernel), (by decide +kernel), (by decide +kernel)⟩⟩

theorem wit_JoinCompletes :
    (∃ (h : CHdr) (limit : Nat) (s : State) (u : State) (v : State), s.cRecv cAdmin h = (true, u) ∧ u.mode = .solo ∧ u.cpl.role = 0 ∧ u.bsv.leaveCause = none ∧ v = ((u.updCpl (fun c => { c with jTag := h.atag })).wf R.CPL.JOIN_STAT.REASON 0).wf R.CPL.JOIN_STAT.SHORT 0 ∧ limit < u.poolModules) ∧
    (∃ (h : CHdr) (limit : Nat) (gib : Nat) (s : State) (u : State) (v : State), s.cRecv cAdmin h = (true, u) ∧ u.mode = .solo ∧ u.cpl.role = 0 ∧ u.bsv.leaveCause = none ∧ v = ((u.updCpl (fun c => { c with jTag := h.atag })).wf R.CPL.JOIN_STAT.REASON 0).wf R.CPL.JOIN_STAT.SHORT 0 ∧ u.poolModules ≤ limit ∧ 0 < u.shortGib gib) ∧
    (∃ (h : CHdr) (limit : Nat) (ct : Nat) (gib : Nat) (s : State) (u : State) (v : State), s.cRecv cAdmin h = (true, u) ∧ u.mode = .solo ∧ u.cpl.role = 0 ∧ u.bsv.leaveCause = none ∧ v = ((u.updCpl (fun c => { c with jTag := h.atag })).wf R.CPL.JOIN_STAT.REASON 0).wf R.CPL.JOIN_STAT.SHORT 0 ∧ u.poolModules ≤ limit ∧ u.shortGib gib = 0 ∧ ct ≠ u.rf R.MPE.CT_BITS.BITS) ∧
    (∃ (h : CHdr) (limit : Nat) (ct : Nat) (minor : Nat) (gib : Nat) (s : State) (u : State) (v : State), s.cRecv cAdmin h = (true, u) ∧ u.mode = .solo ∧ u.cpl.role = 0 ∧ u.bsv.leaveCause = none ∧ v = ((u.updCpl (fun c => { c with jTag := h.atag })).wf R.CPL.JOIN_STAT.REASON 0).wf R.CPL.JOIN_STAT.SHORT 0 ∧ u.poolModules ≤ limit ∧ u.shortGib gib = 0 ∧ ct = u.rf R.MPE.CT_BITS.BITS ∧ u.bsv.acver ≤ minor) ∧
    (∃ (h : CHdr) (limit : Nat) (ct : Nat) (minor : Nat) (gib : Nat) (s : State) (u : State) (v : State), s.cRecv cAdmin h = (true, u) ∧ u.mode = .solo ∧ u.cpl.role = 0 ∧ u.bsv.leaveCause = none ∧ v = ((u.updCpl (fun c => { c with jTag := h.atag })).wf R.CPL.JOIN_STAT.REASON 0).wf R.CPL.JOIN_STAT.SHORT 0 ∧ u.poolModules ≤ limit ∧ u.shortGib gib = 0 ∧ ct = u.rf R.MPE.CT_BITS.BITS ∧ minor < u.bsv.acver ∧ u.cpl.jMinor ≤ u.bsv.acver ∧ u.rf R.CPL.JOIN_STAT.PHASE ≠ 2) ∧
    (∃ (h : CHdr) (s : State) (u : State), s.cRecv cAdmin h = (true, u) ∧ (u.mode = .paired ∨ u.mode = .handover ∨ u.cpl.role ≠ 0)) ∧
    (∃ (h : CHdr) (s : State) (u : State), s.cRecv cAdmin h = (true, u) ∧ u.mode ≠ .paired ∧ u.mode ≠ .handover ∧ u.mode ≠ .solo ∧ u.cpl.role = 0) ∧
    (∃ (h : CHdr) (reason : Nat) (s : State) (u : State), s.cAnswer h = (true, u) ∧ u.mode = .joining ∧ u.cpl.role = 1 ∧ reason ≠ 0) ∧
    (∃ (h : CHdr) (cut : Nat) (f : Found) (s : State) (u : State) (v : State), s.cAnswer h = (true, u) ∧ u.mode = .joining ∧ u.cpl.role = 1 ∧ ((u.heard cut).wf R.CPL.JOIN_STAT.PHASE 3).loadMaps f (some cut) = some v) ∧
    (∃ (h : CHdr) (cut : Nat) (f : Found) (s : State) (u : State), s.cAnswer h = (true, u) ∧ u.mode = .joining ∧ u.cpl.role = 1 ∧ ((u.heard cut).wf R.CPL.JOIN_STAT.PHASE 3).loadMaps f (some cut) = none) ∧
    (∃ (s : State), s.cpl.role = 2 ∧ s.rf R.CPL.JOIN_STAT.PHASE = 2 ∧ (∃ k, s.mpe.ckpt = some k ∧ s.cpl.waitFor < k.covered)) ∧
    (∃ (s : State), s.mode = .solo ∧ s.cpl.role = 2 ∧ s.rf R.CPL.JOIN_STAT.PHASE = 5 ∧ s.cpl.switch = none ∧ ahas s.cpl.props 0xFFFF = false ∧ (∀ e ∈ s.io.cmds, e.1 < s.cpl.opM.getD 0 → writes e.2.opc = true → e.2.stage ≠ .active ∧ e.2.stage ≠ .data)) ∧
    (∃ (h : CHdr) (s : State) (u : State), s.cRecv cAdmin h = (true, u) ∧ u.mode = .solo ∧ u.cpl.role = 2 ∧ u.rf R.CPL.JOIN_STAT.PHASE = 5) ∧
    (∃ (h : CHdr) (gen : Nat) (s : State) (u : State) (v : State), s.mode = .joining ∧ s.cAnswer h = (true, u) ∧ v = u.noteGen gen ∧ v.mode = .joining ∧ v.rf R.CPL.JOIN_STAT.PHASE = 6 ∧ v.present = []) ∧
    (∃ (h : CHdr) (s : State) (u : State), s.cRecv cAdmin h = (true, u) ∧ u.mode = .joining) ∧
    (∃ (s : State), s.rf R.CPL.LINK_STAT.STATE = lActive ∧ ((s.mode = .joining ∧ s.cpl.role = 1 ∧ s.shortShow.joinerReady = true) ∨ (s.mode = .solo ∧ s.cpl.role = 2 ∧ s.serverReady = true))) ∧
    (∃ (h : CHdr) (s : State) (u : State), s.cRecv cAdmin h = (true, u)) :=
  ⟨⟨{ ver := 0, len := 0, got := 0 }, 0, onMaps (fun m => { m with pools := [(0, poolA)] }) (hm .solo), _, _, (pair_true (by decide +kernel)), (by decide +kernel), (by decide +kernel), (by decide +kernel), rfl, (by decide +kernel)⟩,
    ⟨{ ver := 0, len := 0, got := 0 }, 64, 0, hm .solo, _, _, (pair_true (by decide +kernel)), (by decide +kernel), (by decide +kernel), (by decide +kernel), rfl, (by decide +kernel), (by decide +kernel)⟩,
    ⟨{ ver := 0, len := 0, got := 0 }, 0, 20, 100000, fits (hm .solo), _, _, (pair_true (by decide +kernel)), (by decide +kernel), (by decide +kernel), (by decide +kernel), rfl, (by decide +kernel), (by decide +kernel), (by decide +kernel)⟩,
    ⟨{ ver := 0, len := 0, got := 0 }, 0, _, 15, 1000000, (hm .solo).wf R.MPE.CT_BITS.BITS 20, _, _, (pair_true (by decide +kernel)), (by decide +kernel), (by decide +kernel), (by decide +kernel), rfl, (by decide +kernel), (by decide +kernel), rfl, (by decide +kernel)⟩,
    ⟨{ ver := 0, len := 0, got := 0 }, 0, _, 0, 1000000, onBsv (fun b => { b with acver := 1 }) ((hm .solo).wf R.MPE.CT_BITS.BITS 20), _, _, (pair_true (by decide +kernel)), (by decide +kernel), (by decide +kernel), (by decide +kernel), rfl, (by decide +kernel), (by decide +kernel), rfl, (by decide +kernel), (by decide +kernel), (by decide +kernel)⟩,
    ⟨{ ver := 0, len := 0, got := 0 }, run_ ph, _, (pair_true (by decide +kernel)), (by decide +kernel)⟩,
    ⟨{ ver := 0, len := 0, got := 0 }, hm .joining, _, (pair_true (by decide +kernel)), (by decide +kernel), (by decide +kernel), (by decide +kernel), (by decide +kernel)⟩,
    ⟨{ ver := 0, len := 0, got := 0 }, 2, asked jn, _, (pair_true (by decide +kernel)), (by decide +kernel), (by decide +kernel), (by decide +kernel)⟩,
    ⟨{ ver := 0, len := 0, got := 0 }, 0, {}, asked jn, _, _, (pair_true (by decide +kernel)), (by decide +kernel), (by decide +kernel), (some_get (by decide +kernel))⟩,
    ⟨{ ver := 0, len := 0, got := 0 }, 0, {}, onMpe (fun m => { m with delta := [{ r0 with typ := 0xEE, ostamp := 1 }] }) (asked jn), _, (pair_true (by decide +kernel)), (by decide +kernel), (by decide +kernel), (by decide +kernel)⟩,
    ⟨onMpe (fun m => { m with ckpt := some { number := 1, covered := 5 } }) (srv.wf R.CPL.JOIN_STAT.PHASE 2), (by decide +kernel), (by decide +kernel), (⟨_, rfl, by decide +kernel⟩)⟩,
    ⟨srv.wf R.CPL.JOIN_STAT.PHASE 5, (by decide +kernel), (by decide +kernel), (by decide +kernel), (by decide +kernel), (by decide +kernel), (by decide +kernel)⟩,
    ⟨{ ver := 0, len := 0, got := 0 }, srv.wf R.CPL.JOIN_STAT.PHASE 5, ((srv.wf R.CPL.JOIN_STAT.PHASE 5 : State).cRecv cAdmin ({ ver := 0, len := 0, got := 0 } : CHdr)).2, (Prod.ext (by decide +kernel) rfl), (by decide +kernel), (by decide +kernel), (by decide +kernel)⟩,
    ⟨{ ver := 0, len := 0, got := 0 }, 0, asked (jn.wf R.CPL.JOIN_STAT.PHASE 6), _, _, (by decide +kernel), (pair_true (by decide +kernel)), rfl, (by decide +kernel), (by decide +kernel), (by decide +kernel)⟩,
    ⟨{ ver := 0, len := 0, got := 0 }, jn, ((jn).cRecv cAdmin ({ ver := 0, len := 0, got := 0 } : CHdr)).2, (Prod.ext (by decide +kernel) rfl), (by decide +kernel)⟩,
    ⟨fits (onCpl (fun c => { c with loaded := true, diesOk := true, switch := some 5 }) (jn.wf R.TBS.STAT.LOCK 1)), (by decide +kernel), (by decide +kernel)⟩,
    ⟨{ ver := 0, len := 0, got := 0 }, run_ ph, ((run_ ph : State).cRecv cAdmin ({ ver := 0, len := 0, got := 0 } : CHdr)).2, (Prod.ext (by decide +kernel) rfl)⟩⟩

theorem wit_ReplicationCommandsComplete :
    (∃ (ix : Fin 1024) (ns : Nat) (new_ : Nat) (n : Ns) (d : Bytes) (s : State), ix.val < 64 ∧ s.blockOn Pg.RPL = true ∧ d = s.entry (s.outAddr ix) 64 ∧ leAt d 0x13 1 = 1 ∧ leAt d 0x12 1 ≤ 63 ∧ leAt d 0x14 2 = ns ∧ leAt d 0x1C 4 = new_ ∧ s.nsOf ns = some n ∧ s.ownsGroup n.desc.group = true ∧ ahas n.slots new_ = true ∧ s.flag R.RPL.KEY.VALID = true ∧ s.sessOf ix = none) ∧
    (∃ (s : State), s.blockOn Pg.RPL = false) ∧
    (∃ (s : State) (r : _), s.regsWf = true ∧ r < 8) ∧
    (∃ (ix : Fin 1024) (s : State), s.sealWait ix = none) ∧
    (∃ (ix : Fin 1024) (s : State), s.sessOf ix = none) ∧
    (∃ (ix : Fin 1024) (i : Nat) (x : RSess) (q : Nat × Nat × Nat) (s v : State) (w : State), s.sealWait ix = some (i, x) ∧ x.sealReq = some q ∧ v = s.rspSend i (.seal_ x.sid q.1 (x.slot.getD 0) q.2.1 q.2.2) ∧ w = v.updSess i (fun x => if x.state = 5 then { x with state := 6, tbs := [], exts := [] } else x)) ∧
    (∃ (ix : Fin 1024) (x : RSess) (s : State), s.sessOf ix = some x ∧ x.inbound = false ∧ x.kind = 3 ∧ x.state = 4) ∧
    (∃ (i : Fin 64) (x : RSess) (s : State), s.sessOf i = some x ∧ x.inbound = false ∧ x.state = 1) ∧
    (∃ (lport : Fin 64) (port : Fin 65536) (s : State), (s.mode = .paired ∨ s.mode = .solo) ∧ s.blockOn Pg.RPL = true ∧ port.val = s.rf R.RPL.CFG.PORT ∧ s.lportUp lport = true ∧ s.freeSess = none) ∧
    (∃ (lport : Fin 64) (port : Fin 65536) (s : State) (i : _), (s.mode = .paired ∨ s.mode = .solo) ∧ s.blockOn Pg.RPL = true ∧ port.val = s.rf R.RPL.CFG.PORT ∧ s.lportUp lport = true ∧ s.freeSess = some i) ∧
    (∃ (ix : Fin 64) (h : RHdr) (x : RSess) (s : State) (u : State), s.sessOf ix = some x ∧ s.rspRecv ix h (decide (3 ≤ x.state)) = (true, u)) ∧
    (∃ (ix : Fin 64) (x : RSess) (s : State), s.sessOf ix = some x ∧ x.lastAt + s.rf R.RPL.CFG.IDLE_S * 1000000000 ≤ s.now) ∧
    (∃ (ix : Fin 64) (x : RSess) (s : State), s.sessOf ix = some x ∧ s.now < x.lastAt + s.rf R.RPL.CFG.IDLE_S * 1000000000) :=
  ⟨⟨0, 1, 0, { desc := { size := 64, valid := true }, epoch := 1, slots := [(0, 0)] }, _, rplOut, (by decide +kernel), (by decide +kernel), rfl, (by decide +kernel), (by decide +kernel), (by decide +kernel), (by decide +kernel), (by decide +kernel), (by decide +kernel), (by decide +kernel), (by decide +kernel), (by decide +kernel)⟩,
    ⟨p0.wf (R.HDR.CTL.EN Pg.RPL) 0, (by decide +kernel)⟩,
    ⟨p0, 7, (by decide +kernel), (by decide +kernel)⟩,
    ⟨0, p0, (by decide +kernel)⟩,
    ⟨0, p0, (by decide +kernel)⟩,
    ⟨0, 0, { rs 5 true with slot := some 1, sealReq := some (1, 2, 3) }, (1, 2, 3), rst { rs 5 true with slot := some 1, sealReq := some (1, 2, 3) }, ((rst { rs 5 true with slot := some 1, sealReq := some (1, 2, 3) } : State).rspSend (0 : Nat) (.seal_ ({ rs 5 true with slot := some 1, sealReq := some (1, 2, 3) } : RSess).sid ((1, 2, 3) : Nat × Nat × Nat).1 (({ rs 5 true with slot := some 1, sealReq := some (1, 2, 3) } : RSess).slot.getD 0) ((1, 2, 3) : Nat × Nat × Nat).2.1 ((1, 2, 3) : Nat × Nat × Nat).2.2)), ((((rst { rs 5 true with slot := some 1, sealReq := some (1, 2, 3) } : State).rspSend (0 : Nat) (.seal_ ({ rs 5 true with slot := some 1, sealReq := some (1, 2, 3) } : RSess).sid ((1, 2, 3) : Nat × Nat × Nat).1 (({ rs 5 true with slot := some 1, sealReq := some (1, 2, 3) } : RSess).slot.getD 0) ((1, 2, 3) : Nat × Nat × Nat).2.1 ((1, 2, 3) : Nat × Nat × Nat).2.2)) : State).updSess (0 : Nat) (fun x => if x.state = 5 then { x with state := 6, tbs := [], exts := [] } else x)), (by decide +kernel), (by decide +kernel), rfl, rfl⟩,
    ⟨0, { rs 4 false with lastAt := 0, kind := 3 }, rst { rs 4 false with lastAt := 0, kind := 3 }, (by decide +kernel), (by decide +kernel), (by decide +kernel), (by decide +kernel)⟩,
    ⟨0, { rs 1 false with lastAt := 0 }, rst { rs 1 false with lastAt := 0 }, (by decide +kernel), (by decide +kernel), (by decide +kernel)⟩,
    ⟨0, 7447, onRpl (fun r => { r with sess := (List.range 64).map (fun i => (i, rs 4 true)) }) (p0.wf (R.HFX.PORT_STAT.UP 0 0) 1), (by decide +kernel), (by decide +kernel), (by decide +kernel), (by decide +kernel), (by decide +kernel)⟩,
    ⟨0, 7447, p0.wf (R.HFX.PORT_STAT.UP 0 0) 1, _, (by decide +kernel), (by decide +kernel), (by decide +kernel), (by decide +kernel), (some_get (by decide +kernel))⟩,
    ⟨0, rh true, { rs 4 false with lastAt := 0 }, rst { rs 4 false with lastAt := 0 }, ((rst { rs 4 false with lastAt := 0 } : State).rspRecv (0 : Fin 64) (rh true : RHdr) (decide (3 ≤ ({ rs 4 false with lastAt := 0 } : RSess).state))).2, (by decide +kernel), (Prod.ext (by decide +kernel) rfl)⟩,
    ⟨0, rs 4 false, { rst (rs 4 false) with now := 10000000000000 }, (by decide +kernel), (by decide +kernel)⟩,
    ⟨0, { rs 4 false with lastAt := 0 }, rst { rs 4 false with lastAt := 0 }, (by decide +kernel), (by decide +kernel)⟩⟩

theorem wit_ReplicationRecordsComplete :
    (∃ (ix : Fin 64) (h : RHdr) (x : RSess) (s : State) (u : State), s.rspRecv ix h false = (true, u) ∧ u.sessOf ix = some x ∧ x.state = 2) ∧
    (∃ (ix : Fin 64) (h : RHdr) (x : RSess) (s : State) (u : State), s.rspRecv ix h true = (true, u) ∧ u.sessOf ix = some x ∧ x.state = 3 ∧ x.inbound = false) ∧
    (∃ (ix : Fin 64) (h : RHdr) (b : RSession) (x : RSess) (s : State) (u : State) (j : _), s.rspRecv ix h true = (true, u) ∧ u.sessOf ix = some x ∧ x.state = 3 ∧ x.inbound = true ∧ u.sessionCheck ix x.array x.ver b = .inr j) ∧
    (∃ (ix : Fin 64) (h : RHdr) (b : RSession) (x : RSess) (s u : State) (c : _), s.rspRecv ix h true = (true, u) ∧ u.sessOf ix = some x ∧ x.state = 3 ∧ x.inbound = true ∧ u.sessionCheck ix x.array x.ver b = .inl c) ∧
    (∃ (ix : Fin 64) (h : RHdr) (x : RSess) (s u : State) (batch : Fin 4294967296) (fps : List Bytes), s.rspIn ix h true = (some x, u) ∧ fps ≠ [] ∧ fps.length ≤ 1024 ∧ x.offers = true ∧ x.tb batch = none) ∧
    (∃ (ix : Fin 64) (h : RHdr) (x : RSess) (s : State) (u : State) (gs : List RGrain), s.rspIn ix h true = (some x, u) ∧ s.rplRoom gs.length = true) ∧
    (∃ (ix : Fin 64) (h : RHdr) (x : RSess) (s : State) (u : State) (batch : Fin 4294967296) (run : Option Nat) (vals : List Nat), s.rspIn ix h true = (some x, u) ∧ extentOk x batch run vals = true) ∧
    (∃ (gs : List RGrain) (s : State), s.rf R.RPL.CFG2.WCSHARE * 4194304 < s.rplHeld + 4096 * gs.length) ∧
    (∃ (ix : Fin 64) (h : RHdr) (batch : Fin 4294967296) (x : RSess) (b : RBatch) (s : State) (u : State), s.rspIn ix h false = (some x, u) ∧ x.batches.find? (fun b => b.num == batch.val) = some b) ∧
    (∃ (ix : Fin 64) (h : RHdr) (batch : Fin 4294967296) (bits : List Bool) (x : RSess) (b : RBatch) (s u : State), s.rspIn ix h false = (some x, u) ∧ x.batches.find? (fun b => b.num == batch.val) = some b ∧ bits.length = b.offers.length) ∧
    (∃ (ix : Fin 64) (h : RHdr) (batches : Nat) (x : RSess) (s : State) (u : State), s.rspRecv ix h true = (true, u) ∧ u.sessOf ix = some x ∧ x.inbound = true ∧ x.state = 4 ∧ batches ≠ x.count) ∧
    (∃ (ix : Fin 64) (h : RHdr) (batches : Nat) (x : RSess) (s : State) (u : State), s.rspRecv ix h true = (true, u) ∧ u.sessOf ix = some x ∧ x.inbound = true ∧ x.state = 4 ∧ batches = x.count) ∧
    (∃ (ix : Fin 64) (h : RHdr) (x : RSess) (s : State) (u : State), s.rspRecv ix h true = (true, u) ∧ u.sessOf ix = some x ∧ x.inbound = false ∧ x.state = 5) ∧
    (∃ (ix : Fin 64) (x : RSess) (s : State), s.sessOf ix = some x ∧ x.inbound = false ∧ x.state = 4 ∧ s.rateOk x = true ∧ x.batches.length < max 1 (min 256 (s.rf R.RPL.CFG2.WINDOW)) ∧ x.walked = false) ∧
    (∃ (ix : Fin 64) (x : RSess) (s : State), s.sessOf ix = some x ∧ x.inbound = false ∧ x.state = 4 ∧ s.rateOk x = true ∧ x.batches.length < max 1 (min 256 (s.rf R.RPL.CFG2.WINDOW)) ∧ x.walked = true ∧ x.kind = 3) :=
  ⟨⟨0, rh false, { rs 2 false with rxSeq := 1, lastAt := (run_ p0).now }, rst { rs 2 false with lastAt := 0 }, ((rst { rs 2 false with lastAt := 0 } : State).rspRecv (0 : Fin 64) (rh false : RHdr) false).2, (Prod.ext (by decide +kernel) rfl), (by decide +kernel), (by decide +kernel)⟩,
    ⟨0, rh true, { rs 3 false with rxSeq := 1, lastAt := (run_ p0).now }, rst { rs 3 false with lastAt := 0 }, ((rst { rs 3 false with lastAt := 0 } : State).rspRecv (0 : Fin 64) (rh true : RHdr) true).2, (Prod.ext (by decide +kernel) rfl), (by decide +kernel), (by decide +kernel), (by decide +kernel)⟩,
    ⟨0, rh true, { sid := 0, kind := 1, offers := false, target := 1, base := 0, new_ := 0, size := 64, lbaf := 0, kcv := [] }, { rs 3 true with rxSeq := 1, lastAt := (run_ p0).now, bytes := 36 }, bindSt, _, 0, (pair_true (by decide +kernel)), (by decide +kernel), (by decide +kernel), (by decide +kernel), (by decide +kernel)⟩,
    ⟨0, rh true, { sid := 0, kind := 1, offers := false, target := 0, base := 0, new_ := 0, size := 0, lbaf := 0, kcv := [] }, { rs 3 true with rxSeq := 1, lastAt := (run_ p0).now, bytes := 36 }, rst { rs 3 true with lastAt := 0 }, ((rst { rs 3 true with lastAt := 0 } : State).rspRecv (0 : Fin 64) (rh true : RHdr) true).2, 6, (Prod.ext (by decide +kernel) rfl), (by decide +kernel), (by decide +kernel), (by decide +kernel), (by decide +kernel)⟩,
    ⟨0, rh true, { rs 4 true with offers := true, rxSeq := 1, lastAt := (run_ p0).now, bytes := 36 }, rst { rs 4 true with lastAt := 0, offers := true }, ((rst { rs 4 true with lastAt := 0, offers := true } : State).rspIn (0 : Fin 64) (rh true : RHdr) true).2, 0, [[]], (Prod.ext (by decide +kernel) rfl), (by decide +kernel), (by decide +kernel), (by decide +kernel), (by decide +kernel)⟩,
    ⟨0, rh true, { rs 4 true with rxSeq := 1, lastAt := (run_ p0).now, bytes := 36 }, rst { rs 4 true with lastAt := 0 }, _, [], (Prod.ext (by decide +kernel) rfl), (by decide +kernel)⟩,
    ⟨0, rh true, { rs 4 true with rxSeq := 1, lastAt := (run_ p0).now, bytes := 36 }, rst { rs 4 true with lastAt := 0 }, ((rst { rs 4 true with lastAt := 0 } : State).rspIn (0 : Fin 64) (rh true : RHdr) true).2, 0, none, [], (Prod.ext (by decide +kernel) rfl), (by decide +kernel)⟩,
    ⟨[{ oidx := 0, form := 0, tag := 0, crc := 0, data := [] }], p0.wf R.RPL.CFG2.WCSHARE 0, (by decide +kernel)⟩,
    ⟨0, rh true, 0, { rs 4 false with batches := [{ num := 0 }], rxSeq := 1, lastAt := (run_ p0).now }, { num := 0 }, rst { rs 4 false with lastAt := 0, batches := [{ num := 0 }] }, ((rst { rs 4 false with lastAt := 0, batches := [{ num := 0 }] } : State).rspIn (0 : Fin 64) (rh true : RHdr) false).2, (Prod.ext (by decide +kernel) rfl), (by decide +kernel)⟩,
    ⟨0, rh true, 0, [], { rs 4 false with batches := [{ num := 0 }], rxSeq := 1, lastAt := (run_ p0).now }, { num := 0 }, rst { rs 4 false with lastAt := 0, batches := [{ num := 0 }] }, ((rst { rs 4 false with lastAt := 0, batches := [{ num := 0 }] } : State).rspIn (0 : Fin 64) (rh true : RHdr) false).2, (Prod.ext (by decide +kernel) rfl), (by decide +kernel), (by decide +kernel)⟩,
    ⟨0, rh true, 1, { rs 4 true with rxSeq := 1, lastAt := (run_ p0).now, bytes := 36 }, rst { rs 4 true with lastAt := 0 }, ((rst { rs 4 true with lastAt := 0 } : State).rspRecv (0 : Fin 64) (rh true : RHdr) true).2, (Prod.ext (by decide +kernel) rfl), (by decide +kernel), (by decide +kernel), (by decide +kernel), (by decide +kernel)⟩,
    ⟨0, rh true, (({ rs 4 true with rxSeq := 1, lastAt := (run_ p0).now, bytes := 36 } : RSess).count), { rs 4 true with rxSeq := 1, lastAt := (run_ p0).now, bytes := 36 }, rst { rs 4 true with lastAt := 0 }, ((rst { rs 4 true with lastAt := 0 } : State).rspRecv (0 : Fin 64) (rh true : RHdr) true).2, (Prod.ext (by decide +kernel) rfl), (by decide +kernel), (by decide +kernel), (by decide +kernel), rfl⟩,
    ⟨0, rh true, { rs 5 false with rxSeq := 1, lastAt := (run_ p0).now }, rst { rs 5 false with lastAt := 0 }, ((rst { rs 5 false with lastAt := 0 } : State).rspRecv (0 : Fin 64) (rh true : RHdr) true).2, (Prod.ext (by decide +kernel) rfl), (by decide +kernel), (by decide +kernel), (by decide +kernel)⟩,
    ⟨0, { rs 4 false with lastAt := 0 }, rst { rs 4 false with lastAt := 0 }, (by decide +kernel), (by decide +kernel), (by decide +kernel), (by decide +kernel), (by decide +kernel), (by decide +kernel)⟩,
    ⟨0, { rs 4 false with lastAt := 0, walked := true, kind := 3 }, rst { rs 4 false with lastAt := 0, walked := true, kind := 3 }, (by decide +kernel), (by decide +kernel), (by decide +kernel), (by decide +kernel), (by decide +kernel), (by decide +kernel), (by decide +kernel)⟩⟩

theorem wit_SessionRecordsInOrder :
    (∃ (i : Nat) (h : RHdr) (need : Bool) (x : RSess) (s : State), s.sessOf i = some x ∧ (h.fmtOk = false ∨ h.sealed ≠ need ∨ 1048576 < h.len)) ∧
    (∃ (i : Nat) (h : RHdr) (need : Bool) (x : RSess) (s : State), s.sessOf i = some x ∧ h.fmtOk = true ∧ h.sealed = need ∧ h.len ≤ 1048576 ∧ h.trailer = false) ∧
    (∃ (i : Nat) (h : RHdr) (need : Bool) (x : RSess) (s : State), s.sessOf i = some x ∧ h.fmtOk = true ∧ h.sealed = need ∧ h.len ≤ 1048576 ∧ h.trailer = true ∧ h.rseq ≠ x.rxSeq) ∧
    (∃ (i : Nat) (h : RHdr) (need : Bool) (x : RSess) (s : State), s.sessOf i = some x ∧ h.fmtOk = true ∧ h.sealed = need ∧ h.len ≤ 1048576 ∧ h.trailer = true ∧ h.rseq = x.rxSeq ∧ need = true ∧ h.authOk = false) ∧
    (∃ (i : Nat) (h : RHdr) (need : Bool) (x : RSess) (s : State), s.sessOf i = some x ∧ h.fmtOk = true ∧ h.sealed = need ∧ h.len ≤ 1048576 ∧ h.trailer = true ∧ h.rseq = x.rxSeq ∧ (need = true → h.authOk = true)) ∧
    (∃ (i : Nat) (x : RSess) (s : State), s.sessOf i = some x) :=
  ⟨⟨0, rh true, false, { rs 4 false with lastAt := 0 }, rst { rs 4 false with lastAt := 0 }, (by decide +kernel), (by decide +kernel)⟩,
    ⟨0, { rh true with trailer := false }, true, { rs 4 false with lastAt := 0 }, rst { rs 4 false with lastAt := 0 }, (by decide +kernel), (by decide +kernel), (by decide +kernel), (by decide +kernel), (by decide +kernel)⟩,
    ⟨0, { rh true with rseq := 1 }, true, { rs 4 false with lastAt := 0 }, rst { rs 4 false with lastAt := 0 }, (by decide +kernel), (by decide +kernel), (by decide +kernel), (by decide +kernel), (by decide +kernel), (by decide +kernel)⟩,
    ⟨0, { rh true with authOk := false }, true, { rs 4 false with lastAt := 0 }, rst { rs 4 false with lastAt := 0 }, (by decide +kernel), (by decide +kernel), (by decide +kernel), (by decide +kernel), (by decide +kernel), (by decide +kernel), (by decide +kernel), (by decide +kernel)⟩,
    ⟨0, { rh true with len := 1048576 }, true, { rs 4 false with lastAt := 0 }, rst { rs 4 false with lastAt := 0 }, (by decide +kernel), (by decide +kernel), (by decide +kernel), (by decide +kernel), (by decide +kernel), (by decide +kernel), (by decide +kernel)⟩,
    ⟨0, { rs 4 false with lastAt := 0 }, rst { rs 4 false with lastAt := 0 }, (by decide +kernel)⟩⟩

theorem wit_EnginesComplete :
    (∃ (a : Nat) (s : State), s.ringFront dgeRing = some a ∧ s.dgeChain = none ∧ s.blockOn Pg.DGE = true ∧ s.dFld a 0 1 = 1) ∧
    (∃ (a : Nat) (s : State), s.ringFront dgeRing = some a ∧ s.dgeChain = none ∧ s.blockOn Pg.DGE = true ∧ s.dFld a 0 1 = 2) ∧
    (∃ (a : Nat) (s : State), s.ringFront dgeRing = some a ∧ s.dgeChain = none ∧ s.blockOn Pg.DGE = true ∧ s.dFld a 0 1 = 3) ∧
    (∃ (a k : Nat) (r : DgeReq) (s : State), s.ringFront dgeRing = some a ∧ s.dgeChain = some (k, r) ∧ r.op = 1) ∧
    (∃ (a k : Nat) (r : DgeReq) (s : State), s.ringFront dgeRing = some a ∧ s.dgeChain = some (k, r) ∧ r.op = 2) ∧
    (∃ (a n : Nat) (s : State), s.dFld a 0 1 = 3 ∧ s.dFld a 4 4 = n ∧ n ≤ 32 ∧ s.inFw (s.dFld a 8 8) n = true ∧ s.inFw (s.dFld a 0x18 8) n = true) ∧
    (∃ (a : Nat) (n : Nat) (s : State), s.dFld a 0 1 = 1 ∧ s.dFld a 1 1 = 0 ∧ s.dFld a 4 4 = n ∧ s.inFw (s.dFld a 8 8) n = true ∧ s.inFw (s.dFld a 0x10 8) 32 = true ∧ s.dgeFree.isSome = true ∧ 0 < s.rf R.DGE.STAT.CORES ∧ n ≤ 65536) ∧
    (∃ (k : Nat) (r : DgeReq) (s : State), aget s.sec.dreq k = some r ∧ r.chain = false ∧ r.core.isSome = true ∧ r.at0 + 16 * digestBlocks r.op r.data.length ≤ s.now) ∧
    (∃ (k : Nat) (r : DgeReq) (s : State), aget s.sec.dreq k = some r ∧ r.chain = true ∧ s.ringPosted dgeRing = 0 ∧ r.last + s.rf R.DGE.CFG.CHAIN_US * 1000 ≤ s.now) ∧
    (∃ (a : Nat) (s : State), s.ringFront cphRing = some a ∧ s.blockOn Pg.CPH = true ∧ s.dFld a 0 1 = 1) ∧
    (∃ (a : Nat) (s : State), s.ringFront cphRing = some a ∧ s.blockOn Pg.CPH = true ∧ s.dFld a 0 1 = 2) ∧
    (∃ (a : Nat) (s : State), s.ringFront cphRing = some a ∧ s.blockOn Pg.CPH = true ∧ s.dFld a 0 1 = 3) ∧
    (∃ (a : Nat) (s : State), s.ringFront cphRing = some a ∧ s.blockOn Pg.CPH = true ∧ s.dFld a 0 1 = 4) ∧
    (∃ (k t : Nat) (r : CphReq) (s : State), aget s.sec.creq k = some r ∧ r.core = some t ∧ 8 * t + 5 * cdiv (r.len + r.auxLen) 16 ≤ 8 * s.now) ∧
    (∃ (r : CphReq), r.op = 1) ∧
    (∃ (r : CphReq), r.op = 2) ∧
    (∃ (r : CphReq) (s : State), r.op = 4 ∧ gcmDec r.key (r.iv.take 12) (s.load (hbmBase + r.aux) r.auxLen) (s.load (hbmBase + r.src) r.len) (s.load (hbmBase + r.src + r.len) 16) = none) ∧
    (∃ (k : Nat) (r : CphReq) (s : State), aget s.sec.creq k = some r ∧ r.core = none ∧ r.aged = false ∧ r.at0 + s.rf R.CPH.CFG.AGE_US * 1000 < s.now) :=
  ⟨⟨fwRegion, dge 1, (by decide +kernel), (by decide +kernel), (by decide +kernel), (by decide +kernel)⟩,
    ⟨fwRegion, dge 2, (by decide +kernel), (by decide +kernel), (by decide +kernel), (by decide +kernel)⟩,
    ⟨fwRegion, dge 3, (by decide +kernel), (by decide +kernel), (by decide +kernel), (by decide +kernel)⟩,
    ⟨fwRegion, 0, dreq 1 true, dchain 1, (by decide +kernel), (by decide +kernel), (by decide +kernel)⟩,
    ⟨fwRegion, 0, dreq 2 true, dchain 2, (by decide +kernel), (by decide +kernel), (by decide +kernel)⟩,
    ⟨fwRegion, 0, dgeNewSt 3, (by decide +kernel), (by decide +kernel), (by decide +kernel), (by decide +kernel), (by decide +kernel)⟩,
    ⟨fwRegion, 0, dgeNewSt 1, (by decide +kernel), (by decide +kernel), (by decide +kernel), (by decide +kernel), (by decide +kernel), (by decide +kernel), (by decide +kernel), (by decide +kernel)⟩,
    ⟨0, { dreq 1 false with core := some 0 }, { onSec (fun k => { k with dreq := [(0, { dreq 1 false with core := some 0 })] }) p0 with now := 16 }, (by decide +kernel), (by decide +kernel), (by decide +kernel), (by decide +kernel)⟩,
    ⟨0, dreq 1 true, { onSec (fun k => { k with dreq := [(0, dreq 1 true)] }) p0 with now := 1000000000 }, (by decide +kernel), (by decide +kernel), (by decide +kernel), (by decide +kernel)⟩,
    ⟨fwRegion, cph 1, (by decide +kernel), (by decide +kernel), (by decide +kernel)⟩,
    ⟨fwRegion, cph 2, (by decide +kernel), (by decide +kernel), (by decide +kernel)⟩,
    ⟨fwRegion, cph 3, (by decide +kernel), (by decide +kernel), (by decide +kernel)⟩,
    ⟨fwRegion, cph 4, (by decide +kernel), (by decide +kernel), (by decide +kernel)⟩,
    ⟨0, 0, creq 1 (some 0), { onSec (fun k => { k with creq := [(0, creq 1 (some 0))] }) p0 with now := 1 }, (by decide +kernel), (by decide +kernel), (by decide +kernel)⟩,
    ⟨creq 1 none, (by decide +kernel)⟩,
    ⟨creq 2 none, (by decide +kernel)⟩,
    ⟨{ creq 4 (some 0) with len := 0 }, p0, (by decide +kernel), (by decide +kernel)⟩,
    ⟨0, creq 1 none, { onSec (fun k => { k with creq := [(0, creq 1 none)] }) p0 with now := 1000000000 }, (by decide +kernel), (by decide +kernel), (by decide +kernel), (by decide +kernel)⟩⟩

theorem wit_KeysComplete :
    (∃ (s : State), s.flag R.SEC.KEY_STAT.PENDING = false ∧ s.flag R.SEC.STAT.ZEROISED = false) ∧
    (∃ (s : State), s.flag R.SEC.KEY_STAT.PENDING = true) ∧
    (∃ (eng slot n : Nat) (key : Bytes) (s : State), s.flag R.SEC.CFG.CLEAR_IMPORT = true ∧ s.keyArgOk eng slot = true ∧ n = klenOf eng (s.rf R.SEC.KEY_ARG.KIND) ∧ s.inFw (s.rf R.SEC.KEY_IN.ADDR) n = true ∧ s.keyAt eng slot = none ∧ key = s.load (hbmBase + s.rf R.SEC.KEY_IN.ADDR) n ∧ weakKey eng (s.rf R.SEC.KEY_ARG.KIND) key = false) ∧
    (∃ (eng slot : Nat) (k : Key) (s : State), s.keyAt eng slot = some k) ∧
    (∃ (eng slot : Nat) (s : State), s.sec.erase = some (eng, slot) ∧ s.slotBusy eng slot = false) ∧
    (∃ (s : State), s.flag R.SEC.SIGN_STAT.PENDING = false ∧ s.flag R.SEC.STAT.ZEROISED = false) ∧
    (∃ (s : State), s.flag R.SEC.SIGN_STAT.PENDING = false ∧ s.flag R.SEC.STAT.ZEROISED = false ∧ s.inFw (s.rf R.SEC.SIGN_IN.ADDR) 32 = true ∧ s.sec.meas.length = 4) ∧
    (∃ (seed I : Bytes) (s : State), s.sec.ident = some (seed, I) ∧ s.inFw (s.rf R.SEC.SIGN_OUT.ADDR) 8192 = true) ∧
    (∃ (s : State), s.mode ≠ .service) ∧
    (∃ (j : SignJob) (s : State), s.sec.job = some j ∧ s.flag R.SEC.STAT.READY = true ∧ s.sec.trees.contains (j.q / 32768) = true) ∧
    (∃ (j : SignJob) (s : State), s.sec.job = some j ∧ s.flag R.SEC.STAT.READY = true ∧ s.sec.trees.contains (j.q / 32768) = true ∧ j.again = true) ∧
    (∃ (q : Nat) (s u : State), s.takeIndex = some (q, u)) ∧
    (∃ (q : Nat) (s : State) (u : State), s.takeIndex = some (q, u) ∧ s.sec.block = true ∧ s.sec.used < 1024) ∧
    (∃ (drk : Bytes) (s : State), s.mode = .service ∧ s.sec.drk = some drk ∧ s.rf R.SEC.STAT.RNG ≠ 0 ∧ s.flashOk = false) ∧
    (∃ (drk : Bytes) (s : State), s.mode = .service ∧ s.sec.drk = some drk ∧ s.rf R.SEC.STAT.RNG ≠ 0 ∧ s.flashOk = true) ∧
    (∃ (s : State), s.sec.genWait = false ∧ s.sec.ident.isSome = true) ∧
    (∃ (s : State), s.flag R.SEC.STAT.READY = true ∧ s.sec.ident.isSome = true ∧ s.sec.job = none ∧ 16384 ≤ s.rf R.SEC.NEXT_Q.INDEX % 32768 ∧ s.sec.trees.contains (s.nextTree + 1) = false) ∧
    (∃ (src : Fin 5) (s v w : State), (src.val = 4 → s.flag R.SEC.CFG.TAMPER_EN = true) ∧ w = ((s.wf R.SEC.ALARM.SRC (setBit (s.rf R.SEC.ALARM.SRC) src true)).wf R.SEC.STAT.ZEROISED 1).zeroKeys ∧ v = (if w.zeroCommands.mode = .vault then { w.zeroCommands with sgb := { w.zeroCommands.sgb with vaultStuck := true } } else w.zeroCommands)) ∧
    (∃ (n : Fin 2) (s v : State), bit (s.rf R.SEC.STAT.RNG) n = true ∧ v = s.wf R.SEC.STAT.RNG (setBit (s.rf R.SEC.STAT.RNG) n false)) :=
  ⟨⟨p0, (by decide +kernel), (by decide +kernel)⟩,
    ⟨p0.wf R.SEC.KEY_STAT.PENDING 1, (by decide +kernel)⟩,
    ⟨1, 4095, 32, (((secSt.wf R.SEC.CFG.CLEAR_IMPORT 1).wf R.SEC.KEY_ARG.KIND 1 : State).load (hbmBase + ((secSt.wf R.SEC.CFG.CLEAR_IMPORT 1).wf R.SEC.KEY_ARG.KIND 1 : State).rf R.SEC.KEY_IN.ADDR) (32 : Nat)), (secSt.wf R.SEC.CFG.CLEAR_IMPORT 1).wf R.SEC.KEY_ARG.KIND 1, (by decide +kernel), (by decide +kernel), (by decide +kernel), (by decide +kernel), (by decide +kernel), rfl, (by decide +kernel)⟩,
    ⟨1, 0, { kind := 1, key := [] }, onSec (fun k => { k with dge := [(0, { kind := 1, key := [] })] }) p0, (by decide +kernel)⟩,
    ⟨1, _, onSec (fun k => { k with erase := some (1, 0) }) p0, rfl, (by decide +kernel)⟩,
    ⟨p0, (by decide +kernel), (by decide +kernel)⟩,
    ⟨secSt, (by decide +kernel), (by decide +kernel), (by decide +kernel), (by decide +kernel)⟩,
    ⟨[], [], onSec (fun k => { k with ident := some ([], []) }) secSt, (by decide +kernel), (by decide +kernel)⟩,
    ⟨p0, (by decide +kernel)⟩,
    ⟨job0, signSt job0, (by decide +kernel), (by decide +kernel), (by decide +kernel)⟩,
    ⟨{ job0 with again := true }, signSt { job0 with again := true }, (by decide +kernel), (by decide +kernel), (by decide +kernel), (by decide +kernel)⟩,
    ⟨(8191 : Nat) * 1024, { p0 with fuses := { p0.fuses with reservation := 8191 } }, (({ p0 with fuses := { p0.fuses with reservation := 8191 } } : State).takeIndex.getD (0, p0)).2, (by with_unfolding_all rfl)⟩,
    ⟨(8190 : Nat) * 1024, onSec (fun k => { k with block := true, used := 0 }) { p0 with fuses := { p0.fuses with reservation := 8191 } }, _, (some_pair (by decide +kernel)), (by decide +kernel), (by decide +kernel)⟩,
    ⟨[], onPins (fun p => { p with pwrFailN := false }) genSt, (by decide +kernel), (by decide +kernel), (by decide +kernel), (by decide +kernel)⟩,
    ⟨[], genSt, (by decide +kernel), (by decide +kernel), (by decide +kernel), (by decide +kernel)⟩,
    ⟨onSec (fun k => { k with ident := some ([], []) }) p0, (by decide +kernel), (by decide +kernel)⟩,
    ⟨onSec (fun k => { k with ident := some ([], []), trees := [0] }) ((p0.wf R.SEC.STAT.READY 1).wf R.SEC.NEXT_Q.INDEX 16384), (by decide +kernel), (by decide +kernel), (by decide +kernel), (by decide +kernel), (by decide +kernel)⟩,
    ⟨3, p0, ((if (((((p0).wf R.SEC.ALARM.SRC (setBit ((p0).rf R.SEC.ALARM.SRC) (3 : Fin 5) true)).wf R.SEC.STAT.ZEROISED 1).zeroKeys) : State).zeroCommands.mode = .vault then { (((((p0).wf R.SEC.ALARM.SRC (setBit ((p0).rf R.SEC.ALARM.SRC) (3 : Fin 5) true)).wf R.SEC.STAT.ZEROISED 1).zeroKeys) : State).zeroCommands with sgb := { (((((p0).wf R.SEC.ALARM.SRC (setBit ((p0).rf R.SEC.ALARM.SRC) (3 : Fin 5) true)).wf R.SEC.STAT.ZEROISED 1).zeroKeys) : State).zeroCommands.sgb with vaultStuck := true } } else (((((p0).wf R.SEC.ALARM.SRC (setBit ((p0).rf R.SEC.ALARM.SRC) (3 : Fin 5) true)).wf R.SEC.STAT.ZEROISED 1).zeroKeys) : State).zeroCommands)), ((((p0).wf R.SEC.ALARM.SRC (setBit ((p0).rf R.SEC.ALARM.SRC) (3 : Fin 5) true)).wf R.SEC.STAT.ZEROISED 1).zeroKeys), (by decide +kernel), rfl, rfl⟩,
    ⟨1, p0, ((p0).wf R.SEC.STAT.RNG (setBit ((p0).rf R.SEC.STAT.RNG) (1 : Fin 2) false)), (by decide +kernel), rfl⟩⟩

theorem wit_CoresComplete :
    (∃ (s : State), s.regsWf = true) ∧
    (∃ (c : Fin 24) (s u : State) (o : Ostamp), s.coreRuns c = true ∧ s.issue (Unit.core c) = (some o, u)) ∧
    (∃ (c : Fin 24) (s : State), s.coreRuns c = true) ∧
    (∃ (c : Fin 24) (acc : CoreAcc) (s : State), s.coreRuns c = true ∧ (∀ n, acc ≠ .walk n)) ∧
    (∃ (c : Fin 24) (a : Nat) (acc : CoreAcc) (s : State), s.coreRuns c = true ∧ (∀ n, acc ≠ .walk n) ∧ hbmBase ≤ a ∧ a + accLen acc ≤ hbmBase + 51539607552 ∧ s.inFw (a - hbmBase) (accLen acc) = true) ∧
    (∃ (c : Fin 24) (a : Nat) (acc : CoreAcc) (s : State), s.coreRuns c = true ∧ (∀ n, acc ≠ .walk n) ∧ hbmBase ≤ a ∧ a + accLen acc ≤ hbmBase + 51539607552 ∧ s.inFw (a - hbmBase) (accLen acc) = false ∧ s.mode ≠ .service) ∧
    (∃ (c : Fin 24) (a : Nat) (acc : CoreAcc) (s : State), s.coreRuns c = true ∧ (∀ n, acc ≠ .walk n) ∧ 0x44000000 ≤ a ∧ 0 < accLen acc ∧ a + accLen acc ≤ hbmBase) ∧
    (∃ (s : State), s.l2State ≠ 1) ∧
    (∃ (a : Nat) (s : State) (n : _), s.l2State ≠ 1 ∧ 65536 ≤ a ∧ s.readable a n = true) ∧
    (∃ (a : Nat) (s : State) (n : _), s.l2State ≠ 1 ∧ s.readable a n = false) :=
  ⟨⟨p0, (by decide +kernel)⟩,
    ⟨23, cores, (cores.issue (Unit.core 23)).2, (cores.nextStamp (Unit.core 23)).getD 0, (by decide +kernel), (Prod.ext (by decide +kernel) rfl)⟩,
    ⟨23, cores, (by decide +kernel)⟩,
    ⟨23, .load 8, cores, (by decide +kernel), (fun _ h => by cases h)⟩,
    ⟨23, hbmBase + fwRegion, .load 8, cores, (by decide +kernel), (fun _ h => by cases h), (by decide +kernel), (by decide +kernel), (by decide +kernel)⟩,
    ⟨23, hbmBase, .load 8, cores, (by decide +kernel), (fun _ h => by cases h), (by decide +kernel), (by decide +kernel), (by decide +kernel), (by decide +kernel)⟩,
    ⟨23, 0x44000000, .load 8, cores, (by decide +kernel), (fun _ h => by cases h), (by decide +kernel), (by decide +kernel), (by decide +kernel)⟩,
    ⟨p0, (by decide +kernel)⟩,
    ⟨65536, p0, 8, (by decide +kernel), (by decide +kernel), (by decide +kernel)⟩,
    ⟨dramBase, onDram (fun d => { d with bad := [0] }) p0, 8, (by decide +kernel), (by decide +kernel)⟩⟩

theorem wit_CachesAndInterruptsComplete :
    (∃ (line : Nat) (m : MissReg) (s : State), s.ccl.regs.find? (fun m => m.line == line) = some m) ∧
    (∃ (line : Nat) (m : MissReg) (s : State) (r : CacheReq) (t : List CacheReq), s.ccl.regs.find? (fun m => m.line == line) = some m ∧ m.reqs = r :: t ∧ r.priv = true ∧ m.prefetched = false ∧ r.answered = false) ∧
    (∃ (s : State), s.regsWf = true ∧ s.l2State = 0 ∧ s.flag R.CCL.L2_STATE.BUSY = false) ∧
    (∃ (s : State), s.regsWf = true ∧ s.l2State = 3) ∧
    (∃ (s : State), s.regsWf = true ∧ s.l2State = 0 ∧ s.flag R.CCL.L2_STATE.INV_DONE = true) ∧
    (∃ (s : State), s.l2State = 0 ∧ s.flag R.CCL.L2_STATE.INV_DONE = false) ∧
    (∃ (s : State), s.regsWf = true ∧ s.l2State = 1) ∧
    (∃ (s : State), s.regsWf = true ∧ s.l2State = 2) ∧
    (∃ (w : Fin 16) (a n : Nat) (s : State), s.l2State = 1 ∧ s.flag R.CCL.L2_STATE.BUSY = false ∧ s.rf R.CCL.L2_PRELOAD_ADDR.ADDR = a ∧ s.rf R.CCL.L2_PRELOAD_LEN.BYTES = n ∧ a % 64 = 0 ∧ n % 64 = 0 ∧ 0 < n ∧ a / 1048576 = (a + n - 1) / 1048576 ∧ s.cacheable a = true ∧ s.cacheable (a + n - 1) = true ∧ bit (s.rf R.CCL.L2_LOCK.WAYS) w = false) ∧
    (∃ (w : Nat) (s v : State) (u : State), s.ccl.preload = some w ∧ s.l2State = 1 ∧ v = { s.wf R.CCL.L2_STATE.BUSY 0 with ccl := { s.ccl with preload := none } } ∧ v.l2State = 1 ∧ u = (List.range (v.rf R.CCL.L2_PRELOAD_LEN.BYTES / 64)).foldl (fun s k => s.preloadLine w (v.rf R.CCL.L2_PRELOAD_ADDR.ADDR / 64 + k)) v) ∧
    (∃ (src : Fin 128) (s : State), 2 ≤ src.val ∧ src.val ≤ 65 ∧ (src.val % 2 = 1 → s.errLine (src / 2) = true)) ∧
    (∃ (c : Fin 24) (sup : Bool) (k : Nat) (s : State), k = s.claimSource c (b2n sup) ∧ k ≠ 0) ∧
    (∃ (c : Nat) (p k j : Nat) (s : State), k = s.claimSource c p ∧ s.eligible c p j = true ∧ j < 66 ∧ 0 < j) ∧
    (∃ (c : Fin 24) (sup : Bool) (src : Fin 128) (s : State), aget s.irq.inService src = some (c * 2 + b2n sup)) ∧
    (∃ (c : Fin 24) (sup : Bool) (src : Fin 128) (s : State), aget s.irq.inService src ≠ some (c * 2 + b2n sup)) :=
  ⟨⟨5, { line := 5, reqs := [cReq0] }, missSt, (by decide +kernel)⟩,
    ⟨5, { line := 5, reqs := [cReq0] }, missSt, cReq0, [], (by decide +kernel), (by decide +kernel), (by decide +kernel), (by decide +kernel), (by decide +kernel)⟩,
    ⟨l2St 0, (by decide +kernel), (by decide +kernel), (by decide +kernel)⟩,
    ⟨l2St 3, (by decide +kernel), (by decide +kernel)⟩,
    ⟨(l2St 0).wf R.CCL.L2_STATE.INV_DONE 1, (by decide +kernel), (by decide +kernel), (by decide +kernel)⟩,
    ⟨l2St 0, (by decide +kernel), (by decide +kernel)⟩,
    ⟨l2St 1, (by decide +kernel), (by decide +kernel)⟩,
    ⟨l2St 2, (by decide +kernel), (by decide +kernel)⟩,
    ⟨15, 0, 64, (l2St 1).wf R.CCL.L2_PRELOAD_LEN.BYTES 64, (by decide +kernel), (by decide +kernel), (by decide +kernel), (by decide +kernel), (by decide +kernel), (by decide +kernel), (by decide +kernel), (by decide +kernel), (by decide +kernel), (by decide +kernel), (by decide +kernel)⟩,
    ⟨0, onCcl (fun c => { c with preload := some 0 }) (l2St 1), ({ (onCcl (fun c => { c with preload := some 0 }) (l2St 1) : State).wf R.CCL.L2_STATE.BUSY 0 with ccl := { (onCcl (fun c => { c with preload := some 0 }) (l2St 1) : State).ccl with preload := none } }), ((List.range ((({ (onCcl (fun c => { c with preload := some 0 }) (l2St 1) : State).wf R.CCL.L2_STATE.BUSY 0 with ccl := { (onCcl (fun c => { c with preload := some 0 }) (l2St 1) : State).ccl with preload := none } }) : State).rf R.CCL.L2_PRELOAD_LEN.BYTES / 64)).foldl (fun s k => s.preloadLine (0 : Nat) ((({ (onCcl (fun c => { c with preload := some 0 }) (l2St 1) : State).wf R.CCL.L2_STATE.BUSY 0 with ccl := { (onCcl (fun c => { c with preload := some 0 }) (l2St 1) : State).ccl with preload := none } }) : State).rf R.CCL.L2_PRELOAD_ADDR.ADDR / 64 + k)) (({ (onCcl (fun c => { c with preload := some 0 }) (l2St 1) : State).wf R.CCL.L2_STATE.BUSY 0 with ccl := { (onCcl (fun c => { c with preload := some 0 }) (l2St 1) : State).ccl with preload := none } }) : State)), (by decide +kernel), (by decide +kernel), rfl, (by decide +kernel), rfl⟩,
    ⟨2, p0, (by decide +kernel), (by decide +kernel), (by decide +kernel)⟩,
    ⟨0, false, ((plic).claimSource (0 : Fin 24) (b2n (false))), plic, rfl, (by decide +kernel)⟩,
    ⟨0, 0, ((plic).claimSource (0 : Nat) (0 : Nat)), 3, plic, rfl, (by decide +kernel), (by decide +kernel), (by decide +kernel)⟩,
    ⟨23, true, 3, { p0 with irq := { p0.irq with inService := [(3, 47)] } }, (by decide +kernel)⟩,
    ⟨0, false, 0, p0, (by decide +kernel)⟩⟩

theorem wit_BootAndUpdateComplete :
    (∃ (s : State), s.flag R.BSV.UPD_STAT.PENDING = false ∧ s.runsTrial = true ∧ s.flashOk = true) ∧
    (∃ (s : State), s.flag R.BSV.UPD_STAT.PENDING = false ∧ s.runsTrial = true ∧ s.flashOk = false) ∧
    (∃ (s : State), s.flag R.BSV.UPD_STAT.PENDING = false ∧ s.mode ≠ .boot ∧ s.mode ≠ .vault ∧ s.runsTrial = true ∧ s.flag R.BSV.BOOT_STAT.EXPIRED = false) ∧
    (∃ (s : State), s.flag R.BSV.UPD_STAT.PENDING = false ∧ s.mode ≠ .boot ∧ s.mode ≠ .vault ∧ s.runsTrial = false) ∧
    (∃ (s : State), s.flag R.BSV.UPD_STAT.PENDING = false ∧ s.flashOk = true) ∧
    (∃ (s : State), s.flag R.BSV.UPD_STAT.PENDING = false ∧ s.bootRecord.trial ≠ 0xFF ∧ s.flashOk = true) ∧
    (∃ (s : State), s.flag R.BSV.UPD_STAT.PENDING = false ∧ s.bootRecord.trial = 0xFF) ∧
    (∃ (s : State), s.runsTrial = true ∧ s.flag R.BSV.BOOT_STAT.EXPIRED = false ∧ s.rf R.BSV.PROB_END.ESTAMP ≤ s.tbs.phys) ∧
    (∃ (a k h : Nat) (s : State), s.flag R.BSV.FL_STAT.PENDING = false ∧ s.rf R.BSV.FL_ADDR.ADDR = a ∧ s.rf R.BSV.FL_LEN.BYTES = k ∧ s.rf R.BSV.FL_HBM.ADDR = h ∧ a + k ≤ 0x10000000 ∧ s.inFw h k = true) ∧
    (∃ (a k h : Nat) (s : State), s.flag R.BSV.FL_STAT.PENDING = false ∧ s.rf R.BSV.FL_ADDR.ADDR = a ∧ s.rf R.BSV.FL_LEN.BYTES = k ∧ s.rf R.BSV.FL_HBM.ADDR = h ∧ 0x10000000 < a + k) ∧
    (∃ (a k h : Nat) (s : State) (b : Bytes), s.flag R.BSV.FL_STAT.PENDING = false ∧ s.rf R.BSV.FL_ADDR.ADDR = a ∧ s.rf R.BSV.FL_LEN.BYTES = k ∧ s.rf R.BSV.FL_HBM.ADDR = h ∧ s.cabValue (s.rf R.BSV.CAB_SEL.CLASS) (s.rf R.BSV.CAB_SEL.FMT) (s.rf R.BSV.CAB_KEY.KEY) = some b ∧ b.length ≤ k ∧ s.inFw h b.length = true) ∧
    (∃ (a k h : Nat) (s : State), s.flag R.BSV.FL_STAT.PENDING = false ∧ s.rf R.BSV.FL_ADDR.ADDR = a ∧ s.rf R.BSV.FL_LEN.BYTES = k ∧ s.rf R.BSV.FL_HBM.ADDR = h ∧ s.cabValue (s.rf R.BSV.CAB_SEL.CLASS) (s.rf R.BSV.CAB_SEL.FMT) (s.rf R.BSV.CAB_KEY.KEY) = none) ∧
    (∃ (a k h : Nat) (s : State), s.flag R.BSV.FL_STAT.PENDING = false ∧ s.rf R.BSV.FL_ADDR.ADDR = a ∧ s.rf R.BSV.FL_LEN.BYTES = k ∧ s.rf R.BSV.FL_HBM.ADDR = h ∧ s.inFw h (32 + s.cabRequest.body.length) = true ∧ s.cabRequest.body.length ≤ 65472 ∧ 0x100 ≤ s.cabRequest.cls ∧ s.cabRequest.fmt = s.bsv.runFmt ∧ 32 ≤ s.cabFreeSectors) ∧
    (∃ (s : State), s.flashOk = true ∧ s.cabFreeSectors < 32) ∧
    (∃ (s : State) (mode : Bytes) (blk : Option Nat), s.bsv.tftp = none ∧ s.stagingOn = true ∧ s.flashOk = true ∧ s.runsTrial = false ∧ lowerAscii mode = ascii "octet" ∧ (∀ b, blk = some b → 8 ≤ b)) ∧
    (∃ (s : State) (mode : Bytes) (blk : Option Nat), s.bsv.tftp = none ∧ lowerAscii mode = ascii "octet" ∧ (∀ b, blk = some b → 8 ≤ b)) ∧
    (∃ (s : State), s.bsv.tftp = none ∧ s.stagingOn = false) ∧
    (∃ (t : Tftp) (s : State) (block : Fin 65536) (data : Bytes), s.bsv.tftp = some t ∧ t.upload = true ∧ data.length ≤ t.blksize ∧ s.bsv.jobs = [] ∧ block.val = t.nextBlk % 65536 ∧ s.stagingOn = true ∧ t.bytes + data.length ≤ imageMax) ∧
    (∃ (t : Tftp) (s : State) (data : Bytes), s.bsv.tftp = some t ∧ t.upload = true ∧ t.blksize < data.length) ∧
    (∃ (t : Tftp) (s : State) (block : Fin 65536), s.bsv.tftp = some t ∧ t.upload = false ∧ block.val = t.nextBlk ∧ (t.nextBlk ≠ 0) ∧ (statusBlock t t.nextBlk).length < t.blksize) ∧
    (∃ (t : Tftp) (s : State) (block : Fin 65536), s.bsv.tftp = some t ∧ t.upload = false ∧ block.val = t.nextBlk ∧ (t.nextBlk ≠ 0) ∧ t.blksize ≤ (statusBlock t t.nextBlk).length) ∧
    (∃ (t : Tftp) (s : State), s.bsv.tftp = some t ∧ t.lastAt + oneS ≤ s.now ∧ t.retries < 5) ∧
    (∃ (t : Tftp) (s : State), s.bsv.tftp = some t ∧ t.lastAt + oneS ≤ s.now ∧ 5 ≤ t.retries) ∧
    (∃ (r : CabRec) (js : List FlJob) (s : State), s.bsv.jobs = .cabAppend r :: js ∧ s.flashOk = true ∧ s.tbs.ceilWrite = none) :=
  ⟨⟨trial, (by decide +kernel), (by decide +kernel), (by decide +kernel)⟩,
    ⟨onPins (fun p => { p with pwrFailN := false }) trial, (by decide +kernel), (by decide +kernel), (by decide +kernel)⟩,
    ⟨trial, (by decide +kernel), (by decide +kernel), (by decide +kernel), (by decide +kernel), (by decide +kernel)⟩,
    ⟨p0, (by decide +kernel), (by decide +kernel), (by decide +kernel), (by decide +kernel)⟩,
    ⟨trial, (by decide +kernel), (by decide +kernel)⟩,
    ⟨trial, (by decide +kernel), (by decide +kernel), (by decide +kernel)⟩,
    ⟨p0, (by decide +kernel), (by decide +kernel)⟩,
    ⟨trial, (by decide +kernel), (by decide +kernel), (by decide +kernel)⟩,
    ⟨_, _, _, fl, (by decide +kernel), rfl, rfl, rfl, (by decide +kernel), (by decide +kernel)⟩,
    ⟨_, _, _, (fl.wf R.BSV.FL_ADDR.ADDR 0xFFFFFFF).wf R.BSV.FL_LEN.BYTES 2, (by decide +kernel), rfl, rfl, rfl, (by decide +kernel)⟩,
    ⟨_, _, _, onBsv (fun b => { b with cab := [{ idx := 0, seq := 1, used := 0, recs := [cabR] }] }) ((fl.wf R.BSV.CAB_SEL.CLASS 0x100).wf R.BSV.FL_LEN.BYTES 1), [1], (by decide +kernel), rfl, rfl, rfl, (by decide +kernel), (by decide +kernel), (by decide +kernel)⟩,
    ⟨_, _, _, fl, (by decide +kernel), rfl, rfl, rfl, (by decide +kernel)⟩,
    ⟨_, _, _, { fl with mem := [(hbmBase + fwRegion + 5, 1)] }, (by decide +kernel), rfl, rfl, rfl, (by decide +kernel), (by decide +kernel), (by decide +kernel), (by decide +kernel), (by decide +kernel)⟩,
    ⟨onBsv (fun b => { b with cab := (List.range 481).map (fun i => { idx := i, seq := i, used := 0, recs := [] }) }) p0, (by decide +kernel), (by decide +kernel)⟩,
    ⟨pSvc, ascii "OCTET", some 8, (by decide +kernel), (by decide +kernel), (by decide +kernel), (by decide +kernel), (by decide +kernel), (fun b h => by cases h; decide)⟩,
    ⟨p0, ascii "octet", some 8, (by decide +kernel), (by decide +kernel), (fun b h => by cases h; decide)⟩,
    ⟨i0, (by decide +kernel), (by decide +kernel)⟩,
    ⟨tf true, onPins (fun p => { p with serviceEn := false }) (tfSt (tf true)), 1, [1], (by decide +kernel), (by decide +kernel), (by decide +kernel), (by decide +kernel), (by decide +kernel), (by decide +kernel), (by decide +kernel)⟩,
    ⟨tf true, tfSt (tf true), List.replicate 9 0, (by decide +kernel), (by decide +kernel), (by decide +kernel)⟩,
    ⟨tf false, tfSt (tf false), 1, (by decide +kernel), (by decide +kernel), (by decide +kernel), (by decide +kernel), (by decide +kernel)⟩,
    ⟨{ tf false with header := List.replicate 8 1 }, tfSt { tf false with header := List.replicate 8 1 }, 1, (by decide +kernel), (by decide +kernel), (by decide +kernel), (by decide +kernel), (by decide +kernel)⟩,
    ⟨tf true, { tfSt (tf true) with now := oneS }, (by decide +kernel), (by decide +kernel), (by decide +kernel)⟩,
    ⟨{ tf true with retries := 5 }, { tfSt { tf true with retries := 5 } with now := oneS }, (by decide +kernel), (by decide +kernel), (by decide +kernel)⟩,
    ⟨cabR, [], onBsv (fun b => { b with jobs := [.cabAppend cabR] }) p0, (by decide +kernel), (by decide +kernel), (by decide +kernel)⟩⟩

theorem wit_RecorderAndControlComplete :
    (∃ (s : State), s.fcl.fusesLoaded = true ∧ (∀ t, s.evr.sampleAt = some t → t + 1000000000 ≤ s.estamp)) ∧
    (∃ (tier : Fin 3) (s : State), s.fcl.fusesLoaded = true ∧ s.flashOk = true ∧ s.periodDue tier = true ∧ (∀ k, k < tier.val → s.periodDue k = false)) ∧
    (∃ (s : State), s.flashOk = true ∧ s.evr.queue ≠ [] ∧ s.evr.queue.length ≤ 64 ∧ s.evr.recent = []) ∧
    (∃ (page : Fin 33) (unit : Fin 256) (idle : Nat) (s : State), s.deepest page unit = 1 ∧ 5 < page.val ∧ fusedOff s.fuses.variant page = false ∧ s.rf (R.HDR.PWR_CTL.POLICY page) = 0 ∧ 1000 ≤ idle ∧ (agetD s.pwr (pwrKey page unit) {}).state = 0) ∧
    (∃ (s : State), s.regsWf = true) ∧
    (∃ (t : Nat) (s : State), s.fcl.lastQual = some t ∧ t + max 20 (s.rf R.FCL.PIN_CFG.PULSE_US) * 1000 ≤ s.now) ∧
    (∃ (page : Fin 64) (s : State), s.pageLive page = true) ∧
    (∃ (page : Fin 64) (s : State) (v : Bool), s.pageLive page = true ∧ v = false ∧ (s.setEn page v).blockOn page = false) ∧
    (∃ (page : Fin 64) (s : State), s.pageLive page = true ∧ enFixed page = true) ∧
    (∃ (page : Fin 64) (s : State), s.pageLive page = true ∧ s.flag (R.HDR.CTL.EN page) = false ∧ s.busy page = false) ∧
    (∃ (page : Fin 64) (s : State), s.pageLive page = true ∧ s.flag (R.HDR.CTL.EN page) = true) ∧
    (∃ (page : Fin 64) (s : State), s.pageLive page = true ∧ softRst (blockOf page) = true ∧ s.flag (R.HDR.CTL.EN page) = false ∧ s.busy page = false) ∧
    (∃ (page : Fin 64) (s : State) (v : BitVec 32), s.pageLive page = true ∧ s.flag R.FCL.INJ_CFG.EN = false ∧ v ≠ 0) ∧
    (∃ (page : Fin 64) (s : State), s.pageLive page = true ∧ s.flag R.FCL.INJ_CFG.EN = true) :=
  ⟨⟨flRun, (by decide +kernel), (fun _ h => by cases h)⟩,
    ⟨0, onTbs (fun t => { t with phys := 3600 * oneS }) flRun, (by decide +kernel), (by decide +kernel), (by decide +kernel), (fun _ h => absurd h (Nat.not_lt_zero _))⟩,
    ⟨{ p0 with evr := { p0.evr with queue := [(0, [])] } }, (by decide +kernel), (by decide +kernel), (by decide +kernel), (by decide +kernel)⟩,
    ⟨10, 1, 1000, p0, (by decide +kernel), (by decide +kernel), (by decide +kernel), (by decide +kernel), (by decide +kernel), (by decide +kernel)⟩,
    ⟨p0, (by decide +kernel)⟩,
    ⟨0, { onFcl (fun f => { f with lastQual := some 0 }) p0 with now := 1000000000000 }, (by decide +kernel), (by decide +kernel)⟩,
    ⟨32, p0, (by decide +kernel)⟩,
    ⟨10, p0, false, (by decide +kernel), (by decide +kernel), (by decide +kernel)⟩,
    ⟨32, p0, (by decide +kernel), (by decide +kernel)⟩,
    ⟨10, p0.wf (R.HDR.CTL.EN 10) 0, (by decide +kernel), (by decide +kernel), (by decide +kernel)⟩,
    ⟨32, p0, (by decide +kernel), (by decide +kernel)⟩,
    ⟨10, p0.wf (R.HDR.CTL.EN 10) 0, (by decide +kernel), (by decide +kernel), (by decide +kernel), (by decide +kernel)⟩,
    ⟨32, p0, 1, (by decide +kernel), (by decide +kernel), (by decide +kernel)⟩,
    ⟨32, p0.wf R.FCL.INJ_CFG.EN 1, (by decide +kernel), (by decide +kernel)⟩⟩

theorem wit_StepRunsFrontCommand : ∃ (s : State), s.pending = [] :=
  ⟨p0, (by decide +kernel)⟩

theorem wit_ResetState : ∃ (p : _), p ∈ allPages :=
  ⟨32, (by decide +kernel)⟩

theorem wit_InvKeptByEveryStep : ∃ (s t : State), s.Inv ∧ step s = .next t :=
  ⟨p0, p0.tick, (⟨by decide +kernel, by decide +kernel⟩), rfl⟩

theorem wit_JournalRecordRoundTrip : ∃ (r : JRec), r.ostamp < 2 ^ 96 ∧ r.typ < 256 ∧ r.flags < 256 ∧ r.idx < 4096 ∧ r.cnt < 4096 ∧ r.head < 2 ∧ r.lane < 32 ∧ r.target < 2 ^ 64 ∧ r.old < 2 ^ 128 ∧ r.new < 2 ^ 128 :=
  ⟨rCtInsert 0 { gen := 1 } {}, (by decide +kernel), (by decide +kernel), (by decide +kernel), (by decide +kernel), (by decide +kernel), (by decide +kernel), (by decide +kernel), (by decide +kernel), (by decide +kernel), (by decide +kernel)⟩

theorem wit_OccurrenceRecorded :
    (∃ (o : Occ) (s : State), s.regsWf = true ∧ 1 ≤ o.page ∧ o.page ≤ 32 ∧ o.src < 32) ∧
    (∃ (o : Occ) (s : State), s.regsWf = true ∧ 1 ≤ o.page ∧ o.page ≤ 32 ∧ o.src < 32 ∧ s.errMasked o.page o.src = true) ∧
    (∃ (o : Occ) (s : State), s.regsWf = true ∧ 1 ≤ o.page ∧ o.page ≤ 32 ∧ o.src < 32 ∧ s.rf (R.HDR.ERR_STAT.SRC o.page) = 0) ∧
    (∃ (o : Occ) (s : State), s.regsWf = true ∧ 1 ≤ o.page ∧ o.page ≤ 32 ∧ o.src < 32 ∧ s.rf (R.HDR.ERR_STAT.SRC o.page) ≠ 0) :=
  ⟨⟨{ page := 1, src := 0 }, p0, (by decide +kernel), (by decide +kernel), (by decide +kernel), (by decide +kernel)⟩,
    ⟨{ page := 32, src := 31 }, p0.wf (R.HDR.ERR_MASK.MASK 32) (2 ^ 31), (by decide +kernel), (by decide +kernel), (by decide +kernel), (by decide +kernel), (by decide +kernel)⟩,
    ⟨{ page := 32, src := 31 }, p0, (by decide +kernel), (by decide +kernel), (by decide +kernel), (by decide +kernel), (by decide +kernel)⟩,
    ⟨{ page := 32, src := 31 }, p0.wf (R.HDR.ERR_STAT.SRC 32) 1, (by decide +kernel), (by decide +kernel), (by decide +kernel), (by decide +kernel), (by decide +kernel)⟩⟩

end Sys2Proof.Tests
end

section
/-! The stamps an issuer issues: what a stamp's fields read, what the next stamp is in each case of R101, and the order
and the distinctness of stamps that follow (R97 to R103). -/
namespace Sys2Proof.Proofs
open Sys2Proof Sys2Proof.Machine Sys2Proof.Laws

/-! ## The fields of a stamp (Table 3-1) -/

@[simp] theorem phys_mkStamp {l org : Nat} (p : Nat) (hl : l < 2 ^ 24) (horg : org < 256) :
    phys (mkStamp p l org) = p := by
  unfold phys mkStamp; omega

@[simp] theorem logical_mkStamp {l org : Nat} (p : Nat) (hl : l < 2 ^ 24) (horg : org < 256) :
    logical (mkStamp p l org) = l := by
  unfold logical mkStamp; omega

@[simp] theorem origin_mkStamp {org : Nat} (p l : Nat) (horg : org < 256) :
    origin (mkStamp p l org) = org := by
  unfold origin mkStamp; omega

@[simp] theorem physLog_mkStamp {org : Nat} (p l : Nat) (horg : org < 256) :
    physLog (mkStamp p l org) = p * 2 ^ 24 + l := by
  unfold physLog mkStamp; omega

/-- One more than a pair (PHYS, LOGICAL), as one number, is its PHYS with LOGICAL plus 1. -/
theorem succ_eq_mkStamp (b org : Nat) : (b + 1) * 256 + org = mkStamp (b / 2 ^ 24) (b % 2 ^ 24 + 1) org := by
  unfold mkStamp; omega

/-- The pair (PHYS, LOGICAL) decides the order wherever it differs (R98). -/
theorem lt_of_physLog_lt {o p : Ostamp} (h : physLog o < physLog p) : o < p :=
  Nat.lt_of_div_lt_div h

/-- HEAD and UNIT fill the eight bits of ORIGIN. -/
theorem origin_lt_256 {s : State} {unit : Nat} (hhead : s.straps.head ≤ 1) (hunit : unit < 128) :
    s.origin unit < 256 := by
  unfold State.origin; omega

/-! ## The next stamp of an issuer, case by case (R91, R92, R101, R103) -/

theorem ceilStalled_iff (s : State) :
    s.ceilStalled = true ↔ s.tbs.started = false ∨ s.rf R.TBS.CEILING.CEIL ≤ s.tbs.phys := by
  simp [State.ceilStalled]

theorem ceilStalled_eq_false {s : State} (hstart : s.tbs.started = true)
    (hceil : s.tbs.phys < s.rf R.TBS.CEILING.CEIL) : s.ceilStalled = false := by
  simp [State.ceilStalled, hstart, hceil]

section
variable {s : State} {unit : Nat}

/-- R101 with both kinds of stamp put together from their fields. -/
theorem nextStamp_eq : s.nextStamp unit =
    if s.ceilStalled = true then none
    else if s.issueBase unit / 2 ^ 24 < s.tbs.phys then some (mkStamp s.tbs.phys 0 (s.origin unit))
    else if s.issueBase unit % 2 ^ 24 = 0xFFFFFF then none
    else some (mkStamp (s.issueBase unit / 2 ^ 24) (s.issueBase unit % 2 ^ 24 + 1) (s.origin unit)) := by
  rw [← succ_eq_mkStamp]; rfl

theorem nextStamp_of_ceilStalled (hc : s.ceilStalled = true) : s.nextStamp unit = none := by
  rw [nextStamp_eq, if_pos hc]

theorem nextStamp_of_counter_past (hc : s.ceilStalled = false) (hp : s.issueBase unit / 2 ^ 24 < s.tbs.phys) :
    s.nextStamp unit = some (mkStamp s.tbs.phys 0 (s.origin unit)) := by
  rw [nextStamp_eq, if_neg (ne_true_of_eq_false hc), if_pos hp]

theorem nextStamp_of_logical_full (hp : s.tbs.phys ≤ s.issueBase unit / 2 ^ 24)
    (hl : s.issueBase unit % 2 ^ 24 = 0xFFFFFF) : s.nextStamp unit = none := by
  rw [nextStamp_eq, if_neg (Nat.not_lt.mpr hp), if_pos hl, ite_self]

theorem nextStamp_of_logical_room (hc : s.ceilStalled = false) (hp : s.tbs.phys ≤ s.issueBase unit / 2 ^ 24)
    (hl : s.issueBase unit % 2 ^ 24 ≠ 0xFFFFFF) :
    s.nextStamp unit = some (mkStamp (s.issueBase unit / 2 ^ 24) (s.issueBase unit % 2 ^ 24 + 1) (s.origin unit)) := by
  rw [nextStamp_eq, if_neg (ne_true_of_eq_false hc), if_neg (Nat.not_lt.mpr hp), if_neg hl]

/-- A stamp that is issued carries the issuer's origin, a PHYS the counter has not passed, and a pair above the later of
the last stamp's and the floor's. -/
theorem exists_mkStamp_of_nextStamp {o : Ostamp} (h : s.nextStamp unit = some o) :
    ∃ p l, o = mkStamp p l (s.origin unit) ∧ l < 2 ^ 24 ∧ s.tbs.phys ≤ p ∧ s.issueBase unit < p * 2 ^ 24 + l := by
  cases hc : s.ceilStalled with
  | true => simp [nextStamp_of_ceilStalled hc] at h
  | false =>
    rcases Nat.lt_or_ge (s.issueBase unit / 2 ^ 24) s.tbs.phys with hp | hp
    · rw [nextStamp_of_counter_past hc hp, Option.some.injEq] at h
      exact ⟨s.tbs.phys, 0, h.symm, by omega, by omega, by omega⟩
    · by_cases hl : s.issueBase unit % 2 ^ 24 = 0xFFFFFF
      · simp [nextStamp_of_logical_full hp hl] at h
      · rw [nextStamp_of_logical_room hc hp hl, Option.some.injEq] at h
        exact ⟨_, _, h.symm, by omega, hp, by omega⟩

/-! ## Order and distinctness (R99, R100, R102) -/

theorem origin_of_nextStamp {o : Ostamp} (hhead : s.straps.head ≤ 1) (hunit : unit < 128)
    (h : s.nextStamp unit = some o) : origin o = s.straps.head * 128 + unit := by
  obtain ⟨p, l, rfl, -⟩ := exists_mkStamp_of_nextStamp h
  exact origin_mkStamp p l (origin_lt_256 hhead hunit)

theorem phys_le_of_nextStamp {o : Ostamp} (hhead : s.straps.head ≤ 1) (hunit : unit < 128)
    (h : s.nextStamp unit = some o) : s.tbs.phys ≤ phys o := by
  obtain ⟨p, l, rfl, hl, hp, -⟩ := exists_mkStamp_of_nextStamp h
  rwa [phys_mkStamp p hl (origin_lt_256 hhead hunit)]

theorem issueBase_lt_physLog {o : Ostamp} (hhead : s.straps.head ≤ 1) (hunit : unit < 128)
    (h : s.nextStamp unit = some o) : s.issueBase unit < physLog o := by
  obtain ⟨p, l, rfl, -, -, hb⟩ := exists_mkStamp_of_nextStamp h
  rwa [physLog_mkStamp p l (origin_lt_256 hhead hunit)]

theorem last_lt_nextStamp {o : Ostamp} (hhead : s.straps.head ≤ 1) (hunit : unit < 128)
    (h : s.nextStamp unit = some o) : agetD s.tbs.issuers unit 0 < o :=
  lt_of_physLog_lt ((Nat.le_max_left _ _).trans_lt (issueBase_lt_physLog hhead hunit h))

theorem floor_lt_nextStamp {o : Ostamp} (hhead : s.straps.head ≤ 1) (hunit : unit < 128)
    (h : s.nextStamp unit = some o) : s.tbs.floor < o :=
  lt_of_physLog_lt ((Nat.le_max_right _ _).trans_lt (issueBase_lt_physLog hhead hunit h))

theorem issue_of_nextStamp {o : Ostamp} (h : s.nextStamp unit = some o) :
    s.issue unit = (some o, s.issued unit o) := by
  simp only [State.issue, h]

/-- The stamp issued is the issuer's last one from then on. -/
@[simp] theorem last_issued (o : Ostamp) : agetD (s.issued unit o).tbs.issuers unit 0 = o := by
  simp only [State.issued, agetD, aget_aset_same, Option.getD_some]

end

/-- Two heads and units with one ORIGIN are the same head and unit (R99). -/
theorem nextStamp_ne_of_origin {s t : State} {u v : Nat} {o p : Ostamp} (hs : s.straps.head ≤ 1)
    (ht : t.straps.head ≤ 1) (hu : u < 128) (hv : v < 128) (ho : s.nextStamp u = some o) (hp : t.nextStamp v = some p)
    (hne : s.straps.head ≠ t.straps.head ∨ u ≠ v) : o ≠ p := by
  rintro rfl
  have horigin := (origin_of_nextStamp hs hu ho).symm.trans (origin_of_nextStamp ht hv hp)
  omega

/-- Settles O10: the issued stamp's pair lies above the later of last stamp and floor, and ORIGIN tells issuers apart. -/
theorem stampsIncrease : Obligations.StampsIncrease :=
  ⟨fun _ _ _ hhead hunit h =>
    ⟨last_lt_nextStamp hhead hunit h, floor_lt_nextStamp hhead hunit h, phys_le_of_nextStamp hhead hunit h,
      origin_of_nextStamp hhead hunit h, issue_of_nextStamp h, last_issued _⟩,
    fun _ _ _ _ _ _ => nextStamp_ne_of_origin⟩

/-- Settles O11, by the four cases of the next stamp. -/
theorem stampRule : Obligations.StampRule := by
  intro s unit hhead hunit
  have horg := origin_lt_256 hhead hunit
  refine ⟨fun hstall => nextStamp_of_ceilStalled ((ceilStalled_iff s).mpr hstall), ?_⟩
  intro hstart hceil b hb
  obtain rfl : b = s.issueBase unit := hb
  have hc := ceilStalled_eq_false hstart hceil
  refine ⟨fun hp => ?past, fun hp hl => ?room, fun hp hl => nextStamp_of_logical_full hp hl⟩
  case past =>
    exact ⟨_, nextStamp_of_counter_past hc hp, phys_mkStamp _ (by decide) horg, logical_mkStamp _ (by decide) horg⟩
  case room =>
    have hroom : s.issueBase unit % 2 ^ 24 + 1 < 2 ^ 24 := by omega
    exact ⟨_, nextStamp_of_logical_room hc hp hl, phys_mkStamp _ hroom horg, logical_mkStamp _ hroom horg⟩

end Sys2Proof.Proofs
end

section
/-! What a sealed record that passes R510 changes: CPH counts the verified GCM_DEC in CPH.CNT_REQ (R570), so the registers
do not stay as they were. -/
namespace Sys2Proof.Proofs
open Sys2Proof Sys2Proof.Machine Sys2Proof.Laws

/-! ## Fields read the register file alone -/

theorem words_eq_of_regs_eq {s t : State} (h : t.regs = s.regs) (a k : Nat) : t.words a k = s.words a k := by
  induction k generalizing a with
  | zero => rfl
  | succ k ih => simp only [State.words, State.word, h, ih]

theorem rf_eq_of_regs_eq {s t : State} (h : t.regs = s.regs) (f : Fld) : t.rf f = s.rf f := by
  simp only [State.rf, words_eq_of_regs_eq h]

/-! ## Requests CPH has completed (R570) -/

section
variable {s : State}

theorem rf_cphRan (hwf : s.regsWf = true) (n : Nat) :
    (s.cphRan n).rf R.CPH.CNT_REQ.COUNT = (s.rf R.CPH.CNT_REQ.COUNT + n) % 2 ^ 64 := by
  rw [State.cphRan, rf_wf_same _ _ _ hwf]
  exact Nat.mod_mod _ _

/-- One more request shows in CNT_REQ even where the counter wraps to 0. -/
theorem regs_cphRan_one_ne (hwf : s.regsWf = true) : (s.cphRan 1).regs ≠ s.regs := by
  intro heq
  have hsame := (rf_cphRan hwf 1).symm.trans (rf_eq_of_regs_eq heq R.CPH.CNT_REQ.COUNT)
  have hlt : s.rf R.CPH.CNT_REQ.COUNT < 2 ^ 64 := rf_lt s _
  omega

/-! ## A sealed record that passes (R510) -/

/-- A record that has to be sealed and passes every check costs one request of CPH, and writes no other register. -/
theorem regs_rspRecv_of_sealed_pass {i : Nat} {h : RHdr} {x : RSess} (hx : s.sessOf i = some x)
    (hfmt : h.fmtOk = true) (hseal : h.sealed = true) (hlen : h.len ≤ 1048576) (htrailer : h.trailer = true)
    (hseq : h.rseq = x.rxSeq) (hauth : h.authOk = true) :
    (s.rspRecv i h true).2.regs = (s.cphRan 1).regs := by
  simp [State.rspRecv, State.updSess, hx, hfmt, hseal, Nat.not_lt.mpr hlen, htrailer, hseq, hauth]

end

/-! ## The counterexample -/

/-- A session that receives, with nothing received so far. -/
def openSession : RSess := { state := 4, inbound := true }

/-- The reset state with that session as number 0. -/
def openSessionState : State := { State.reset with rpl := { sess := [(0, openSession)] } }

/-- A sealed record with an empty body, the next RSEQ and a tag that verifies. -/
def passingRecord : RHdr := { len := 0, rseq := 0 }

/-- Refutes O47: an accepted sealed record raises CPH.CNT_REQ, so that `u.regs = s.regs` fails where `need` is true. -/
theorem not_sessionRecordsInOrder : ¬ Obligations.SessionRecordsInOrder := by
  unfold Obligations.SessionRecordsInOrder
  intro hall
  have hsess : openSessionState.sessOf 0 = some openSession := rfl
  obtain ⟨-, -, -, -, haccept, -⟩ := hall 0 passingRecord true openSession openSessionState hsess
  obtain ⟨u, y, hrecv, -, -, -, -, hregs, -⟩ := haccept rfl rfl (Nat.zero_le _) rfl rfl (fun _ => rfl)
  have hcount : u.regs = (openSessionState.cphRan 1).regs := by
    rw [← regs_rspRecv_of_sealed_pass (h := passingRecord) hsess rfl rfl (Nat.zero_le _) rfl rfl rfl, hrecv]
  exact regs_cphRan_one_ne (s := openSessionState) rfl (hcount.symm.trans hregs)

end Sys2Proof.Proofs
end

section
/-! The combinators of the invariant's proofs: how what holds of the mode, the pins, registers, memory and boot flash passes through
branches, folds and answers, so that each operation's lemma below repeats the shape of its definition. The canonical form of
registers, memory and boot flash (logs 6 and 10) is one such predicate. -/
namespace Sys2Proof.Machine
open Sys2Proof Sys2Proof.Laws

/-- The parts of the state that the predicates here speak of. -/
structure RestPart where
  bsv : Bsv
  pins : Pins
  regs : AMap Word
  mem : List Host.Cell
  flash : List Host.Cell

def State.restPart (s : State) : RestPart := ⟨s.bsv, s.pins, s.regs, s.mem, s.flash⟩

/-- A predicate that does not ask in which mode the head is, and so bears every change of mode. -/
def ModeFree (Q : RestPart → Prop) : Prop := ∀ c b r, Q c → Q { c with bsv := b, pins := { c.pins with readyRemoveN := r } }

/-- A predicate that what a head does at rest keeps: no word written to a register and no byte stored falsifies it, it asks of the mode's
block for mode and cause alone, and it bears a change of mode or holds only where none happens by itself. -/
structure Steady (Q : RestPart → Prop) : Prop where
  regs {s : State} (a : Nat) (v : Word) : Q s.restPart → Q (s.setWord a v).restPart
  mem {s : State} (a : Nat) (l : Bytes) : Q s.restPart → Q (s.store a l).restPart
  bsv {c : RestPart} {b : Bsv} : b.mode = c.bsv.mode → b.cause = c.bsv.cause → Q c → Q { c with bsv := b }
  mode : ModeFree Q ∨ ∀ c, Q c → c.bsv.mode ≠ .paired ∧ c.bsv.mode ≠ .solo

/-- A steady predicate holds of the state. -/
def State.Rest (Q : RestPart → Prop) (s : State) : Prop := Steady Q ∧ Q s.restPart

/-- Where an optional answer holds a state, the predicate holds of it. -/
def SomeRest (Q : RestPart → Prop) {α : Type} (st : α → State) (o : Option α) : Prop := ∀ a, o = some a → (st a).Rest Q

/-- Registers, memory and boot flash are in canonical form. -/
def Canon (c : RestPart) : Prop := swf resetWord c.regs = true ∧ Memory.wf c.mem = true ∧ Flash.wf c.flash = true

/-- A command answers a next state, which is canonical where the state before it was. -/
def Keeps (s : State) (o : Host.Outcome State Fault Refusal) : Prop := ∃ t, o = .next t ∧ (s.Rest Canon → t.Rest Canon)

/-- The state an attempt to stamp a group leaves, whatever came of it. -/
def Stamped.state : Stamped → State
  | .done _ s => s
  | .stalled s => s
  | .failed s => s

theorem canon_modeFree : ModeFree Canon := fun _ _ _ h => h

theorem canon_steady : Steady Canon where
  regs {s} a v h := ⟨regs_setWord s a v h.1, h.2⟩
  mem {s} a l h := ⟨h.1, mem_store s a l h.2.1, h.2.2⟩
  bsv _ _ h := h
  mode := .inl canon_modeFree

theorem rest_canon_iff {s : State} : s.Rest Canon ↔ s.Inv := by
  simp only [State.Rest, canon_steady, true_and, Canon, State.restPart, State.Inv, State.regsWf, State.memWf, Bool.and_eq_true]

variable {Q : RestPart → Prop}

namespace State.Rest

theorem ite {c : Prop} [Decidable c] {s t : State} (hs : s.Rest Q) (ht : t.Rest Q) : (if c then s else t).Rest Q := by
  split
  · exact hs
  · exact ht

/-- An optional further update of the state that the other branch leaves as it is. -/
theorem iteOf {c : Prop} [Decidable c] {s t : State} (hs : s.Rest Q) (ht : s.Rest Q → t.Rest Q) : (if c then t else s).Rest Q :=
  ite (ht hs) hs

theorem iteNot {c : Prop} [Decidable c] {s t : State} (hs : s.Rest Q) (ht : s.Rest Q → t.Rest Q) : (if c then s else t).Rest Q :=
  ite hs (ht hs)

theorem foldl {α : Type} {f : State → α → State} {l : List α} {s : State}
    (hf : ∀ s a, s.Rest Q → (f s a).Rest Q) (hs : s.Rest Q) : (l.foldl f s).Rest Q := by
  induction l generalizing s with
  | nil => exact hs
  | cons a l ih => exact ih (hf s a hs)

/-- A fold that carries an answer beside the state. -/
theorem foldlP {α β : Type} {f : β × State → α → β × State} {l : List α} {p : β × State}
    (hf : ∀ p a, p.2.Rest Q → (f p a).2.Rest Q) (hp : p.2.Rest Q) : (l.foldl f p).2.Rest Q := by
  induction l generalizing p with
  | nil => exact hp
  | cons a l ih => exact ih (hf p a hp)

theorem iteSnd {c : Prop} [Decidable c] {α : Type} {p q : α × State} (hp : p.2.Rest Q) (hq : q.2.Rest Q) :
    (if c then p else q).2.Rest Q := by
  split
  · exact hp
  · exact hq

theorem ofSnd {α : Type} {p : α × State} {a : α} {t : State} (hp : p.2.Rest Q) (e : p = (a, t)) : t.Rest Q := by
  subst e; exact hp

theorem getD {o : Option State} {s : State} (ho : SomeRest Q id o) (hs : s.Rest Q) : (o.getD s).Rest Q := by
  cases o with
  | none => exact hs
  | some t => exact ho t rfl

/-- Only the parts that the predicate speaks of bear on it. -/
theorem same {s t : State} (e : t.restPart = s.restPart) (h : s.Rest Q) : t.Rest Q := ⟨h.1, e ▸ h.2⟩

/-- Of the mode's block, only mode and cause bear on the predicate. -/
theorem ofBsv {s t : State} (e : t.restPart = { s.restPart with bsv := t.bsv }) (hm : t.bsv.mode = s.bsv.mode)
    (hc : t.bsv.cause = s.bsv.cause) (h : s.Rest Q) : t.Rest Q := ⟨h.1, e ▸ h.1.bsv hm hc h.2⟩

/-- Only registers, memory and boot flash bear on the canonical form. -/
theorem sameWf {s t : State} (e : (t.regs, t.mem, t.flash) = (s.regs, s.mem, s.flash)) (h : s.Rest Canon) : t.Rest Canon := by
  simp only [Prod.mk.injEq] at e
  obtain ⟨hr, hm, hf⟩ := e
  simpa only [State.Rest, Canon, State.restPart, hr, hm, hf] using h

end State.Rest

namespace SomeRest

theorem none {α : Type} {st : α → State} : SomeRest Q st (.none : Option α) := fun _ e => nomatch e

theorem some {α : Type} {st : α → State} {a : α} (h : (st a).Rest Q) : SomeRest Q st (.some a) := by
  rintro b ⟨⟩
  exact h

theorem ite {α : Type} {st : α → State} {c : Prop} [Decidable c] {o p : Option α} (ho : SomeRest Q st o)
    (hp : SomeRest Q st p) : SomeRest Q st (if c then o else p) := by
  split
  · exact ho
  · exact hp

theorem map {α β : Type} {sa : α → State} {sb : β → State} {f : α → β} {o : Option α} (ho : SomeRest Q sa o)
    (hf : ∀ a, (sa a).Rest Q → (sb (f a)).Rest Q) : SomeRest Q sb (o.map f) := by
  cases o with
  | none => exact .none
  | some a => exact .some (hf a (ho a rfl))

theorem orElse {α : Type} {st : α → State} {o p : Option α} (ho : SomeRest Q st o) (hp : SomeRest Q st p) :
    SomeRest Q st (o.orElse fun _ => p) := by
  cases o with
  | none => exact hp
  | some a => exact ho

end SomeRest

namespace Keeps

theorem next {s t : State} (h : s.Rest Canon → t.Rest Canon) : Keeps s (.next t) := ⟨t, rfl, h⟩

theorem ite {s : State} {c : Prop} [Decidable c] {o p : Host.Outcome State Fault Refusal} (ho : Keeps s o)
    (hp : Keeps s p) : Keeps s (if c then o else p) := by
  split
  · exact ho
  · exact hp

end Keeps

end Sys2Proof.Machine
end

section
/-! SUPPORT for O56 and O57. The invariant (logs 6 and 10) through
the operations of the state: registers and memory, stamps, faults, modes and fences; Carid's sending end, the Cabinet, the
recorder, the timebase, boot and page headers.
Each lemma repeats the shape of the definition whose name it bears. -/
namespace Sys2Proof.Machine
open Sys2Proof Sys2Proof.Laws

variable {Q : RestPart → Prop}

theorem State.Rest.setWord {s : State} {a : Nat} {v : Word} (h : s.Rest Q) : (s.setWord a v).Rest Q :=
  ⟨h.1, h.1.regs a v h.2⟩

theorem State.Rest.setWords {s : State} {a v k : Nat} (h : s.Rest Q) : (s.setWords a v k).Rest Q := by
  induction k generalizing s a v with
  | zero => exact h
  | succ k ih => exact ih (.setWord h)

theorem State.Rest.wf {s : State} {f : Fld} {v : Nat} (h : s.Rest Q) : (s.wf f v).Rest Q := .setWords h

theorem State.Rest.incBy {s : State} {f : Fld} {n : Nat} (h : s.Rest Q) : (s.incBy f n).Rest Q := .wf h

theorem State.Rest.inc {s : State} {f : Fld} (h : s.Rest Q) : (s.inc f).Rest Q := .incBy h

theorem State.Rest.store {s : State} {a : Nat} {l : Bytes} (h : s.Rest Q) : (s.store a l).Rest Q :=
  ⟨h.1, h.1.mem a l h.2⟩

theorem State.Rest.flStore {s : State} {a : Nat} {l : Bytes} (h : s.Rest Canon) : (s.flStore a l).Rest Canon := by
  obtain ⟨hs, hr, hm, hf⟩ := h
  exact ⟨hs, hr, hm, flash_flStore s a l hf⟩

theorem State.Rest.flErase {s : State} {a k : Nat} (h : s.Rest Canon) : (s.flErase a k).Rest Canon := by
  obtain ⟨hs, hr, hm, hf⟩ := h
  exact ⟨hs, hr, hm, flash_flErase s a k hf⟩

theorem State.Rest.emit {s : State} {o : Out} (h : s.Rest Q) : (s.emit o).Rest Q := h

theorem State.Rest.draw {s : State} (h : s.Rest Canon) : s.draw.Rest Canon := h

theorem State.Rest.issued {s : State} {unit : Nat} {o : Ostamp} (h : s.Rest Q) : (s.issued unit o).Rest Q :=
  h

theorem State.Rest.ovfBegin {s : State} {unit : Nat} (h : s.Rest Q) : (s.ovfBegin unit).Rest Q :=
  .ite (.same rfl (.inc h)) h

theorem State.Rest.issue {s : State} {unit : Nat} (h : s.Rest Q) : (s.issue unit).2.Rest Q := by
  unfold State.issue
  split
  · exact .issued h
  · exact .ovfBegin h

theorem State.Rest.issueAll {s : State} {us : List Nat} (h : s.Rest Canon) : (s.issueAll us).2.Rest Canon := by
  induction us generalizing s with
  | nil => exact h
  | cons u us ih =>
    unfold State.issueAll
    split
    · rename_i e
      exact .ofSnd (.issue h) e
    · rename_i e
      have h1 := State.Rest.ofSnd (.issue h) e
      split
      all_goals
        rename_i e1
        have h2 := State.Rest.ofSnd (ih h1) e1
        exact h2

theorem State.Rest.issueAbove {s : State} {unit : Nat} {h0 : Ostamp} (h : s.Rest Q) : (s.issueAbove unit h0).2.Rest Q := by
  unfold State.issueAbove
  split
  · exact .iteSnd (.issue h) (.issue (.issued h))
  · exact .issue h

theorem State.Rest.raiseFloor {s : State} {o : Ostamp} (h : s.Rest Canon) : (s.raiseFloor o).Rest Canon := h

theorem State.Rest.evrStamp {s : State} {w : EvrWait} (h : s.Rest Q) : (s.evrStamp w).Rest Q := by
  unfold State.evrStamp
  split
  · rename_i e
    have h1 := State.Rest.ofSnd (.issue h) e
    exact h1
  · rename_i e
    have h1 := State.Rest.ofSnd (.issue h) e
    exact h1

theorem State.Rest.evrFlush {s : State} (h : s.Rest Q) : s.evrFlush.Rest Q :=
  .foldl (fun _ _ h' => .evrStamp h') h

theorem State.Rest.evrEvent {s : State} {typ unit detail : Nat} (h : s.Rest Q) : (s.evrEvent typ unit detail).Rest Q :=
  .evrFlush h

theorem State.Rest.setErrStat {s : State} {page src : Nat} (h : s.Rest Q) : (s.setErrStat page src).Rest Q :=
  .iteOf (.wf h) fun h2 => .wf (.wf (.wf h2))

theorem State.Rest.fclNew {s : State} {st : Ostamp} {w : FclWait} (h : s.Rest Q) : (s.fclNew st w).2.Rest Q :=
  .iteSnd (.inc (.wf (.wf (.same rfl (.wf h))))) (.wf (.same rfl (.wf h)))

theorem State.Rest.fclPut {s : State} {w : FclWait} (h : s.Rest Q) : (s.fclPut w).2.Rest Q := by
  unfold State.fclPut
  dsimp only
  split
  · exact .iteSnd (.iteSnd (.wf h) (.inc h)) (by
      split
      · rename_i e
        have h1 := State.Rest.ofSnd (.issue h) e
        exact .fclNew h1
      · rename_i e
        have h1 := State.Rest.ofSnd (.issue h) e
        exact h1)
  · split
    · rename_i e
      have h1 := State.Rest.ofSnd (.issue h) e
      exact .fclNew h1
    · rename_i e
      have h1 := State.Rest.ofSnd (.issue h) e
      exact h1

theorem State.Rest.fclFlush {s : State} (h : s.Rest Q) : s.fclFlush.2.Rest Q :=
  .foldlP (fun _ _ h' => .fclPut h') h

theorem State.Rest.fclLog {s : State} {o : Occ} {cls : Nat} {fresh : Bool} (h : s.Rest Q) : (s.fclLog o cls fresh).2.Rest Q :=
  .fclFlush h

theorem State.Rest.assertWith {rz : Occ → State → State} {src : Nat} {s : State} (Hrz : ∀ o (s : State), s.Rest Q → (rz o s).Rest Q)
    (h : s.Rest Q) : (State.assertWith rz src s).Rest Q :=
  .ite h (.ite (.emit h) (.ite (Hrz _ _ (.inc h)) h))

theorem State.Rest.deassert {s : State} {src : Nat} (h : s.Rest Canon) : (s.deassert src).Rest Canon := h

theorem State.Rest.enterWith {rz : Occ → State → State} {m : Mode} {cause : Nat} {s : State} (hg : ModeFree Q)
    (Hrz : ∀ o (s : State), s.Rest Q → (rz o s).Rest Q) (h : s.Rest Q) : (State.enterWith rz m cause s).Rest Q :=
  .assertWith Hrz (.evrEvent (.wf ⟨h.1, hg _ _ _ h.2⟩))

theorem State.Rest.updCtl {s : State} {k : Nat} {f : Ctl → Ctl} (h : s.Rest Q) : (s.updCtl k f).Rest Q :=
  h

theorem State.Rest.asyncEvent {s : State} {k dw0 : Nat} (h : s.Rest Q) : (s.asyncEvent k dw0).Rest Q := by
  unfold State.asyncEvent
  split
  · exact h
  · split
    · exact .emit (.updCtl h)
    · exact .ite h (.updCtl h)

theorem State.Rest.anaNotify {s : State} (h : s.Rest Q) : s.anaNotify.Rest Q :=
  .foldl (fun _ _ h' => .asyncEvent h') h

theorem State.Rest.anaChange {s : State} {gs : List Nat} (h : s.Rest Q) : (s.anaChange gs).Rest Q :=
  .ite h (.anaNotify h)

theorem State.Rest.anaReport {s : State} {gs : List (Nat × Nat)} (h : s.Rest Q) : (s.anaReport gs).Rest Q :=
  .ite h (.anaNotify h)

theorem State.Rest.anaMove {s : State} {gs : List (Nat × Nat)} (h : s.Rest Q) : (s.anaMove gs).Rest Q :=
  .anaReport (.anaChange h)

theorem State.Rest.answerWaiting {s : State} (h : s.Rest Q) : s.answerWaiting.Rest Q :=
  .foldl (fun _ _ h' => by
    split
    · exact .emit h'
    · exact h') h

theorem State.Rest.stopServing {s : State} {answer : Bool} (h : s.Rest Q) : (s.stopServing answer).Rest Q :=
  have hs : (if answer then (s.anaMove (allGroups.map (fun g => (g, 3)))).answerWaiting
      else s.anaMove (allGroups.map (fun g => (g, 3)))).Rest Q := .iteOf (.anaMove h) fun h2 => .answerWaiting h2
  .ofBsv rfl rfl rfl hs

theorem State.Rest.muteDies {s : State} (h : s.Rest Q) : s.muteDies.Rest Q := h

theorem State.Rest.leaveWith {rz : Occ → State → State} {cause : Nat} {s : State} (Hrz : ∀ o (s : State), s.Rest Q → (rz o s).Rest Q)
    (h : s.Rest Q) : (State.leaveWith rz cause s).Rest Q := by
  obtain ⟨hs, hc⟩ := h
  have h : s.Rest Q := ⟨hs, hc⟩
  have hgo (b : Bsv) (hg : ModeFree Q) (a : Bool) : ((State.enterWith rz .isolated cause { s with bsv := b }).stopServing a).muteDies.Rest Q :=
    .muteDies (.stopServing (.enterWith hg Hrz ⟨hs, hg _ b _ hc⟩))
  unfold State.leaveWith
  dsimp only
  rcases hs.mode with hg | hm
  · split
    · exact hgo _ hg _
    · exact .ite (hgo _ hg _) ⟨hs, hg _ _ _ hc⟩
    · exact h
  · split
    · rename_i hp
      exact absurd hp (hm _ hc).1
    · rename_i hp
      exact absurd hp (hm _ hc).2
    · exact h

theorem State.Rest.showFence {s : State} {page u : Nat} (h : s.Rest Q) : (s.showFence page u).Rest Q :=
  .ite (.wf h) (.ite (.wf h) (.ite (.wf h) (.ite (.ite (.wf h) (.wf h)) (.ite (.wf h) (.ite (.wf (.wf (.wf h))) (.ite (.wf (.wf h)) h))))))

theorem State.Rest.markFenced {s : State} {page u : Nat} (h : s.Rest Q) : (s.markFenced page u).Rest Q :=
  .ite h (.showFence (.wf (.wf h)))

theorem State.Rest.unloadMaps {s : State} (h : s.Rest Q) : s.unloadMaps.Rest Q :=
  have hs : (if s.bsv.soloAsked then s.wf R.BSV.MODE_RESULT.RESULT 8 else s).Rest Q := .ite (.wf h) h
  .ofBsv rfl rfl rfl hs

theorem State.Rest.fenceWith {rz : Occ → State → State} {page u : Nat} {s : State} (Hrz : ∀ o (s : State), s.Rest Q → (rz o s).Rest Q)
    (h : s.Rest Q) : (State.fenceWith rz page u s).Rest Q :=
  .ite (.wf h) (.ite (.ite (.unloadMaps (.markFenced h)) (.leaveWith Hrz (.markFenced h))) (.iteOf (.markFenced h)
      fun h3 => .leaveWith Hrz h3))

theorem State.Rest.fclTake {s : State} {o : Occ} {cls : Nat} {fresh : Bool} (h : s.Rest Q) : (s.fclTake o cls fresh).2.Rest Q :=
  .ite (.iteOf (.same rfl (.iteOf (.fclLog (.inc (.wf (.wf h)))) fun h2 => .evrEvent h2)) fun h2 => .wf h2) (.iteOf (.fclLog (.inc (.wf
      (.wf h)))) fun h2 => .evrEvent h2)

theorem State.Rest.raiseN {k : Nat} {o : Occ} {s : State} (h : s.Rest Q) : (raiseN k o s).Rest Q := by
  induction k generalizing o s with
  | zero => exact h
  | succ k ih =>
    have hz : ∀ o (s : State), s.Rest Q → (Machine.raiseN k o s).Rest Q := fun _ _ h => ih h
    unfold Machine.raiseN
    refine .iteNot (.setErrStat h) fun h => ?_
    refine .iteOf (.iteOf (.assertWith hz (.assertWith hz (.fclTake ?_))) fun h => hz _ _ h) fun h => .leaveWith hz h
    split
    · exact .iteOf h fun h => .fenceWith hz h
    · exact h

theorem State.Rest.occur {s : State} {o : Occ} (h : s.Rest Q) : (s.occur o).Rest Q := .raiseN h

theorem State.Rest.raise {s : State} {page src : Nat} (h : s.Rest Q) : (s.raise page src).Rest Q :=
  .occur h

theorem State.Rest.raiseU {s : State} {page src unit : Nat} (h : s.Rest Canon) : (s.raiseU page src unit).Rest Canon :=
  .occur h

theorem State.Rest.stampFlush {s : State} (h : s.Rest Canon) : s.stampFlush.Rest Canon :=
  .iteOf (.fclFlush (.evrFlush h)) fun h2 => .occur h2

theorem State.Rest.event {s : State} {page : Nat} (h : s.Rest Q) : (s.event page).Rest Q :=
  .assertWith (fun _ _ h1' => .raiseN h1') h

theorem State.Rest.enter {s : State} {m : Mode} {cause : Nat} (hg : ModeFree Q) (h : s.Rest Q) : (s.enter m cause).Rest Q :=
  .enterWith hg (fun _ _ h1' => .raiseN h1') h

theorem State.Rest.leave {s : State} {cause : Nat} (h : s.Rest Q) : (s.leave cause).Rest Q :=
  .leaveWith (fun _ _ h1' => .raiseN h1') h

theorem State.Rest.minCheck {s : State} (h : s.Rest Canon) : s.minCheck.Rest Canon := .ite (.leave h) h

theorem State.Rest.fence {s : State} {page u : Nat} (h : s.Rest Canon) : (s.fence page u).Rest Canon :=
  .fenceWith (fun _ _ h1' => .raiseN h1') h

theorem State.Rest.syncErrLine {s : State} {page : Nat} (h : s.Rest Canon) : (s.syncErrLine page).Rest Canon :=
  .ite (.assertWith (fun _ _ h1' => .raiseN h1') (.wf h)) (.deassert h)

theorem State.Rest.syncErrFirst {s : State} {page : Nat} (h : s.Rest Canon) : (s.syncErrFirst page).Rest Canon :=
  .ite (.wf h) h

theorem State.Rest.joinRefuse {s : State} {reason : Nat} (h : s.Rest Canon) : (s.joinRefuse reason).Rest Canon :=
  .iteOf (.sameWf rfl (.raise (.wf (.wf h)))) fun h2 => .enter canon_modeFree (.wf h2)

theorem State.Rest.softBanks {s : State} {page : Nat} (h : s.Rest Canon) : (s.softBanks page).Rest Canon :=
  .ite h (.ite h (.ite h (.ite h h)))

theorem State.Rest.setCpl {s : State} {c : Cpl} (h : s.Rest Q) : (s.setCpl c).Rest Q := h

theorem State.Rest.updCpl {s : State} {f : Cpl → Cpl} (h : s.Rest Q) : (s.updCpl f).Rest Q := h

theorem State.Rest.cOut {s : State} {h0 : CSent} {m : CMsg} (h : s.Rest Q) : (s.cOut h0 m).Rest Q :=
  .emit (.updCpl h)

theorem State.Rest.cEmit {s : State} {m : CMsg} (h : s.Rest Q) : (s.cEmit m).Rest Q := .cOut h

theorem State.Rest.pumpC {k : Nat} {s : State} (h : s.Rest Q) : (State.pumpC k s).Rest Q := by
  induction k generalizing s with
  | zero => exact h
  | succ k ih =>
    unfold State.pumpC
    split
    · exact h
    · split
      · exact h
      · exact ih (.cOut (.updCpl (.setCpl h)))

theorem State.Rest.pumpCarid {s : State} (h : s.Rest Q) : s.pumpCarid.Rest Q := .pumpC h

theorem State.Rest.sendC {s : State} {m : CMsg} (h : s.Rest Q) : (s.sendC m).Rest Q :=
  .ite h (.ite (.pumpCarid (.updCpl h)) (.ite (.cEmit h) h))

theorem State.Rest.ask {s : State} {m : CMsg} (h : s.Rest Q) : (s.ask m).Rest Q :=
  .ite h (.sendC (.updCpl h))

theorem State.Rest.sendLink {s : State} {m : CMsg} (h : s.Rest Canon) : (s.sendLink m).Rest Canon := .cEmit h

theorem State.Rest.cplDown {s : State} (h : s.Rest Canon) : s.cplDown.Rest Canon :=
  .iteNot (.updCpl (.wf (.wf (.wf (.wf (.wf h)))))) fun h2 => .raise h2

theorem State.Rest.cNakCount {s : State} {ch code : Nat} (h : s.Rest Canon) : (s.cNakCount ch code).Rest Canon :=
  .raise (.updCpl h)

theorem State.Rest.authFail {s : State} (h : s.Rest Canon) : s.authFail.2.Rest Canon :=
  .iteSnd (.raise (.cplDown (.updCpl h))) (.updCpl h)

theorem State.Rest.cReject {s : State} {ch code : Nat} (h : s.Rest Canon) : (s.cReject ch code).Rest Canon :=
  .ite (.iteSnd (.authFail h) h) (.ite (.cNakCount (.iteSnd (.authFail h) h)) (.iteNot (.iteSnd (.authFail h) h) fun h2 => .cNakCount
      (.sendLink (.updCpl h2))))

theorem State.Rest.cAck {s : State} {h0 : CHdr} (h : s.Rest Canon) : (s.cAck h0).Rest Canon :=
  .pumpCarid (.updCpl h)

theorem State.Rest.cRecv {s : State} {ch : Nat} {h0 : CHdr} (h : s.Rest Canon) : (s.cRecv ch h0).2.Rest Canon :=
  .iteSnd h (.iteSnd (.cReject h) (.iteSnd (.cReject h) (.iteSnd (.cReject h) (.iteSnd (.cReject h) (.iteSnd (.cAck h) (.iteSnd
      (.cReject h) (.iteSnd (.cAck (.updCpl (.updCpl h))) (.iteSnd (.updCpl (.updCpl h)) (.cReject h)))))))))

theorem State.Rest.staleTok {s : State} (h : s.Rest Canon) : s.staleTok.Rest Canon := .raise (.inc h)

theorem State.Rest.cAnswer {s : State} {h0 : CHdr} (h : s.Rest Canon) : (s.cAnswer h0).2.Rest Canon := by
  unfold State.cAnswer
  split
  · rename_i e
    exact .ofSnd (.cRecv h) e
  · rename_i e
    have h1 := State.Rest.ofSnd (.cRecv h) e
    exact .iteSnd (.updCpl h1) (.staleTok h1)

theorem State.Rest.cReplay {s : State} (h : s.Rest Canon) : s.cReplay.Rest Canon :=
  .foldl (fun _ _ h' => .inc (.emit h')) h

theorem State.Rest.cabNew {s : State} {r : CabRec} (h : s.Rest Canon) : (s.cabNew r).Rest Canon := h

theorem State.Rest.cabPut {s : State} {r : CabRec} (h : s.Rest Canon) : (s.cabPut r).Rest Canon :=
  .wf (by
    split
    · exact .ite h (.cabNew h)
    · exact .cabNew h)

theorem State.Rest.cabOwn {s : State} {r : CabRec} (h : s.Rest Canon) : (s.cabOwn r).Rest Canon := .cabPut h

theorem State.Rest.putIdent {s : State} (h : s.Rest Canon) : s.putIdent.Rest Canon := .ite (.cabOwn h) h

theorem keeps_execEvrSample {temps : List Int} {rails : List Nat} {s : State} : Keeps s (execEvrSample temps rails s) := by
  unfold execEvrSample
  refine .ite (.next id) (.ite (.next id) ?_)
  extract_lets n ts rs s1
  have h1 (h : s.Rest Canon) : s1.Rest Canon := .draw (.foldl (fun _ _ h => .ite h (.incBy h)) h)
  clear_value s1
  exact .ite (.next fun h => .raise (h1 h)) (.next h1)

theorem State.Rest.evrReplace {s : State} {sector : Nat} (h : s.Rest Canon) : (s.evrReplace sector).2.Rest Canon :=
  .iteSnd (.raise (.wf h)) (.raise h)

theorem State.Rest.evrWrite {s : State} {ring size : Nat} {data : Bytes} {ok : Bool} (h : s.Rest Canon) :
    (s.evrWrite ring size data ok).Rest Canon :=
  .ite (.iteSnd h (.evrReplace h)) (.flStore (.iteOf (.iteSnd h (.evrReplace h)) fun h2 => .flErase h2))

theorem State.Rest.openPeriod {s : State} {tier : Nat} (h : s.Rest Canon) : (s.openPeriod tier).Rest Canon := h

theorem State.Rest.evrOpen {s : State} (h : s.Rest Canon) : s.evrOpen.Rest Canon :=
  .openPeriod (.openPeriod (.openPeriod h))

theorem State.Rest.evrFull {s : State} (h : s.Rest Canon) : s.evrFull.Rest Canon := .wf h

theorem State.Rest.evrBoot {s : State} (h : s.Rest Canon) : s.evrBoot.Rest Canon :=
  .evrFull (.wf (.foldl (fun _ _ h' => .wf h') h))

theorem State.Rest.closePeriod {s : State} {tier : Nat} {step ok : Bool} (h : s.Rest Canon) : (s.closePeriod tier step ok).Rest Canon :=
  .ite (.openPeriod h) (.openPeriod (.evrFull (.sameWf rfl (.wf (.evrWrite (.incBy h))))))

theorem keeps_execEvrPeriodClose {tier : Fin 3} {ok : Bool} {s : State} : Keeps s (execEvrPeriodClose tier ok s) :=
  .ite (.next (fun h => .closePeriod h)) (.next id)

theorem State.Rest.evrCalStep {s : State} (h : s.Rest Canon) : s.evrCalStep.Rest Canon :=
  .ite (.closePeriod (.closePeriod (.closePeriod h))) h

theorem keeps_execEvrEventProgram {ok : Bool} {s : State} : Keeps s (execEvrEventProgram ok s) :=
  .ite (.next id) (.ite (.next (fun h => .sameWf rfl (.foldl (fun _ _ h' => .evrWrite h') h))) (.next (fun h => .raise (.incBy (.sameWf rfl
      (.foldl (fun _ _ h' => .evrWrite h') h))))))

theorem State.Rest.ddcPower {s : State} {st : Nat} (h : s.Rest Canon) : (s.ddcPower st).Rest Canon := h

theorem keeps_execPowerStateEntry {page : Fin 33} {unit : Fin 256} {idleNs : Nat} {s : State} :
    Keeps s (execPowerStateEntry page unit idleNs s) := .ite (.next id) (.next id)

theorem keeps_execPowerStateExit {page : Fin 33} {unit : Fin 256} {s : State} : Keeps s (execPowerStateExit page unit s) :=
  .next id

theorem State.Rest.ceilProgram {s : State} {c : Nat} (h : s.Rest Canon) : (s.ceilProgram c).Rest Canon := by
  have hw {seq : Nat} {e : Bytes} {t : State} {a : Nat} (h : t.Rest Canon) :
      State.Rest Canon { t.flStore a e with tbs := { t.tbs with ceilSeq := seq } } := State.Rest.flStore (s := t) h
  unfold State.ceilProgram
  extract_lets seq i s1
  have h1 : s1.Rest Canon := .iteOf h fun h => .flErase h
  clear_value s1 i seq
  exact hw h1

theorem State.Rest.ceilBegin {s : State} {c : Nat} (h : s.Rest Canon) : (s.ceilBegin c).Rest Canon := h

theorem keeps_execCeilingWrite {s : State} : Keeps s (execCeilingWrite s) := by
  unfold execCeilingWrite
  split
  · exact .next fun h => .ite (.ceilBegin h) h
  · exact .ite (.next (fun h => .ceilBegin h)) (.next id)

theorem State.Rest.anchor {s : State} {t : Nat} (h : s.Rest Canon) : (s.anchor t).Rest Canon := .wf (.wf h)

theorem State.Rest.epochUtcWrite {s : State} (h : s.Rest Canon) : s.epochUtcWrite.Rest Canon :=
  .ite (.putIdent h) h

theorem State.Rest.stepPhys {s : State} {d : Nat} (h : s.Rest Canon) : (s.stepPhys d).Rest Canon := .anchor h

theorem State.Rest.stepForward {s : State} {d : Nat} (h : s.Rest Canon) : (s.stepForward d).Rest Canon :=
  .ite h (.stepPhys h)

theorem State.Rest.physStart {s : State} (h : s.Rest Canon) : s.physStart.Rest Canon := by
  unfold State.physStart
  dsimp only
  split
  · exact .evrOpen (.anchor h)
  · exact .evrOpen h

theorem State.Rest.ceilDone {s : State} {c : Nat} (h : s.Rest Canon) : (s.ceilDone c).Rest Canon := by
  unfold State.ceilDone
  extract_lets s1 step _ s2 s3
  have h1 : s1.Rest Canon := .wf (.ceilProgram h)
  clear_value s1
  have h3 : s3.Rest Canon := .iteNot (s := s2) h1 fun h => .physStart h
  clear_value s3 step
  cases step with
  | none => exact .wf h3
  | some d => exact .wf (.stepPhys h3)

theorem keeps_execCeilingStall {s : State} : Keeps s (execCeilingStall s) :=
  .ite (.next (fun h => .raise (.wf h))) (.next id)

theorem State.Rest.calSet {s : State} (h : s.Rest Canon) : s.calSet.Rest Canon :=
  .epochUtcWrite (.sameWf rfl (.evrCalStep (.evrEvent (.anchor h))))

theorem keeps_execCalSet {s : State} : Keeps s (execCalSet s) := .next fun h => .calSet h

theorem keeps_execRtcHourlyUpdate {s : State} : Keeps s (execRtcHourlyUpdate s) :=
  .ite (.next id) (.next id)

theorem keeps_execTetherExchangeStart {s : State} : Keeps s (execTetherExchangeStart s) :=
  .ite (.next (fun h => .cEmit h)) (.next id)

theorem State.Rest.tetherGood {s : State} {theta2 : Nat} (h : s.Rest Canon) : (s.tetherGood theta2).Rest Canon :=
  .iteOf (.sameWf rfl (.wf h)) fun h2 => .wf h2

theorem State.Rest.tetherLoss {s : State} (h : s.Rest Canon) : s.tetherLoss.Rest Canon :=
  .iteOf (.wf (.wf h)) fun h2 => .raise h2

theorem State.Rest.tetherBad {s : State} {theta2 : Nat} (h : s.Rest Canon) : (s.tetherBad theta2).Rest Canon :=
  .iteOf (.sameWf rfl (.wf (.inc h))) fun h2 => .tetherLoss h2

theorem State.Rest.joinStep {s : State} {behind2 : Int} (h : s.Rest Canon) : (s.joinStep behind2).Rest Canon :=
  .ite (.joinRefuse (.raise h)) (.iteOf (.wf h) fun h2 => .stepForward h2)

theorem keeps_execTetherReq {ex : Fin 4294967296} {lag : Nat} {s : State} : Keeps s (execTetherReq ex lag s) :=
  .ite (.next (fun h => .iteOf (.iteOf (.tetherGood (.cEmit h)) fun h2 => .joinStep h2) fun h2 => .wf h2)) (.next id)

theorem keeps_execTetherRsp {ex : Fin 4294967296} {t2 t3 : Nat} {s : State} : Keeps s (execTetherRsp ex t2 t3 s) := by
  unfold execTetherRsp
  split
  · exact .next id
  · exact .ite (.next id) (.next (fun h => .iteOf (.ite (.tetherGood (.sameWf rfl (.wf (.wf h)))) (.tetherBad (.sameWf rfl (.wf (.wf h)))))
      fun h2 => .joinStep h2))

theorem keeps_execTetherExchangeLost {ex : Fin 4294967296} {s : State} : Keeps s (execTetherExchangeLost ex s) := by
  unfold execTetherExchangeLost
  split
  · exact .ite (.next (fun h => .sameWf rfl (.inc h))) (.next id)
  · exact .next id

theorem keeps_execTetherLockLoss {s : State} : Keeps s (execTetherLockLoss s) :=
  .ite (.next (fun h => .tetherLoss h)) (.next id)

theorem State.Rest.cabPurge {s : State} {p : CabRec → Bool} (h : s.Rest Canon) : (s.cabPurge p).Rest Canon :=
  .foldl (fun _ _ h' => .cabOwn h') h

theorem State.Rest.cabCompact {s : State} (h : s.Rest Canon) : s.cabCompact.Rest Canon := by
  unfold State.cabCompact
  split
  · exact h
  · exact .ite h (.wf (.sameWf rfl (.foldl (fun _ _ h' => .cabPut h') h)))

theorem keeps_execCabinetCompact {s : State} : Keeps s (execCabinetCompact s) :=
  .ite (.next (fun h => .cabCompact h)) (.next id)

theorem State.Rest.putBootRec {s : State} {b : BootRec} (h : s.Rest Canon) : (s.putBootRec b).Rest Canon :=
  .wf (.cabOwn h)

theorem State.Rest.armSlot {s : State} {slot tries : Nat} (h : s.Rest Canon) : (s.armSlot slot tries).Rest Canon :=
  .putBootRec h

theorem State.Rest.checkAt {s : State} {slot : Nat} {bad : List Nat} (h : s.Rest Canon) : (s.checkAt slot bad).2.Rest Canon :=
  .iteNot (.ite (.wf h) (.wf h)) fun h2 => .raise h2

theorem State.Rest.loadImage {s : State} {slot : Nat} {trial : Bool} (h : s.Rest Canon) : (s.loadImage slot trial).Rest Canon := by
  unfold State.loadImage
  extract_lets hd m b s1 _ s2
  have h1 : s1.Rest Canon := .foldl (fun _ _ h => .store h) h
  clear_value s1
  exact .wf (.wf (.wf (.wf (.wf h1))))

theorem State.Rest.confirmPurge {s : State} (h : s.Rest Canon) : s.confirmPurge.Rest Canon := .cabPurge h

theorem State.Rest.confirmTrial {s : State} {slot : Nat} (h : s.Rest Canon) : (s.confirmTrial slot).Rest Canon :=
  .putBootRec (.confirmPurge (.putBootRec h))

theorem State.Rest.fallbackPurge {s : State} (h : s.Rest Canon) : s.fallbackPurge.Rest Canon :=
  .putBootRec (.cabPurge h)

theorem State.Rest.fallBack {s : State} (h : s.Rest Canon) : s.fallBack.Rest Canon :=
  .evrEvent (.raise (.wf (.fallbackPurge (.putBootRec h))))

theorem State.Rest.chooseConfirmed {s : State} {startS : Nat} {bad : List Nat} (h : s.Rest Canon) : (s.chooseConfirmed startS bad).Rest Canon :=
  .ite (.loadImage (.iteSnd h (.checkAt h))) (.ite (.loadImage (.putBootRec (.armSlot (.checkAt (.iteSnd h (.checkAt h)))))) (.checkAt
      (.iteSnd h (.checkAt h))))

theorem State.Rest.slotChoice {s : State} {startS : Nat} {bad : List Nat} (h : s.Rest Canon) : (s.slotChoice startS bad).Rest Canon := by
  unfold State.slotChoice
  extract_lets b0 s1 s2 _ s3 b first s4 s5
  have hretry (o : Option (Nat × State)) (u : State) (hu : u.Rest Canon) :
      (match o with | some x => (x.1, u) | none => u.checkAt b.trial bad).2.Rest Canon := by
    cases o with
    | some x => exact hu
    | none => exact .checkAt hu
  have h1 : s1.Rest Canon := .iteOf h fun h => .fallbackPurge h
  clear_value s1
  have h3 : s3.Rest Canon := .iteOf h1 fun h => .putBootRec (.cabPurge h)
  clear_value s3
  have hfirst : SomeRest Canon Prod.snd first := .ite (.some (.checkAt h3)) .none
  have h4 : s4.Rest Canon := .getD (.map hfirst fun _ h => h) h3
  clear_value s4
  have h5 : s5.Rest Canon := .putBootRec h4
  clear_value s5
  exact .ite (.chooseConfirmed (.putBootRec h3)) (.ite (.loadImage (.confirmTrial h4)) (.ite (.chooseConfirmed (.fallBack h4))
    (.ite (.loadImage (hretry _ _ h5)) (.chooseConfirmed (.fallBack (hretry _ _ h5))))))

theorem State.Rest.updResult {s : State} {r : Nat} (h : s.Rest Canon) : (s.updResult r).Rest Canon := .wf h

theorem State.Rest.flPost {s : State} {j : FlJob} (h : s.Rest Canon) : (s.flPost j).Rest Canon := h

theorem State.Rest.updRun {s : State} {j : FlJob} {s1 : State} (h : s.Rest Canon) (h1 : s1.Rest Canon) : (s.updRun j s1).Rest Canon :=
  .ite h1 (.flPost (.wf h))

theorem State.Rest.bootOk {s : State} (h : s.Rest Canon) : s.bootOk.Rest Canon :=
  .ite (.updResult h) (.ite (.updRun h (.updResult (.putBootRec h))) (.updResult h))

theorem keeps_execBootOk {s : State} : Keeps s (execBootOk s) := .next fun h => .bootOk h

theorem State.Rest.confirmWrite {s : State} (h : s.Rest Canon) : s.confirmWrite.Rest Canon := by
  unfold State.confirmWrite
  extract_lets s1 _ s2
  have h1 : s1.Rest Canon := .confirmTrial h
  clear_value s1
  exact .updResult (.wf (.wf (h1 : s2.Rest Canon)))

theorem State.Rest.confirmDone {s : State} {want : Nat} (h : s.Rest Canon) : (s.confirmDone want).Rest Canon :=
  .updRun (.wf h) (.confirmWrite (.wf h))

theorem State.Rest.confirm {s : State} {badFuse : Option Nat} (h : s.Rest Canon) : (s.confirm badFuse).Rest Canon :=
  .ite (.updResult h) (.ite (.updResult h) (.ite (.updResult h) (.ite (.updResult h) (by
    dsimp only
    split
    · exact .ite (.updResult (.raise (.wf h))) (.confirmDone h)
    · exact .confirmDone h))))

theorem keeps_execConfirm {badFuse : Option Nat} {s : State} : Keeps s (execConfirm badFuse s) :=
  .next fun h => .confirm h

theorem State.Rest.revert {s : State} (h : s.Rest Canon) : s.revert.Rest Canon :=
  .ite (.updResult h) (.ite (.updResult h) (.updRun h (.updResult (.putBootRec h))))

theorem keeps_execRevert {s : State} : Keeps s (execRevert s) := .next fun h => .revert h

theorem keeps_execProbationExpiry {s : State} : Keeps s (execProbationExpiry s) :=
  .ite (.next (fun h => .event (.raise (.wf h)))) (.next id)

theorem State.Rest.flResult {s : State} {r : Nat} (h : s.Rest Canon) : (s.flResult r).Rest Canon := .wf h

theorem State.Rest.flCmdRead {s : State} (h : s.Rest Canon) : s.flCmdRead.Rest Canon :=
  .ite (.flResult h) (.ite (.flResult h) (.flResult (.store h)))

theorem keeps_execFlRead {s : State} : Keeps s (execFlRead s) := .next fun h => .flCmdRead h

theorem State.Rest.cabAppend {s : State} (h : s.Rest Canon) : s.cabAppend.Rest Canon :=
  .ite (.flResult h) (.ite (.flResult h) (.ite (.flResult h) (.ite (.flResult (.raise (.ite (.cabCompact h) h))) (.flPost (.wf (.ite
      (.cabCompact h) h))))))

theorem keeps_execCabAppend {s : State} : Keeps s (execCabAppend s) := .next fun h => .cabAppend h

theorem State.Rest.cabFind {s : State} (h : s.Rest Canon) : s.cabFind.Rest Canon :=
  .ite (.flResult h) (by
    split
    · exact .flResult h
    · exact .ite (.flResult h) (.flResult (.wf (.store h))))

theorem keeps_execCabFind {s : State} : Keeps s (execCabFind s) := .next fun h => .cabFind h

theorem State.Rest.tftpError {s : State} {tid code lastErr : Nat} {msg : String} (h : s.Rest Canon) :
    (s.tftpError tid code lastErr msg).Rest Canon := .wf (.emit h)

theorem State.Rest.tftpSend {s : State} {t : Tftp} {opcode num : Nat} {data : Bytes} (h : s.Rest Canon) :
    (s.tftpSend t opcode num data).Rest Canon := h

theorem State.Rest.tftpAbandon {s : State} (h : s.Rest Canon) : s.tftpAbandon.Rest Canon := by
  unfold State.tftpAbandon
  split
  · exact h
  · exact .iteOf (.wf h) fun h2 => .raise h2

theorem keeps_execTftpWrq {tid : Nat} {name mode : Bytes} {blk : Option Nat} {s : State} :
    Keeps s (execTftpWrq tid name mode blk s) :=
  .ite (.next (fun h => .tftpError h)) (.ite (.next (fun h => .tftpError h)) (.ite (.next (fun h => .tftpError h)) (.ite (.next
      (fun h => .tftpError h)) (.ite (.next (fun h => .tftpError h)) (.ite (.next (fun h => .tftpError h)) (.ite (.next id) (.next
      (fun h => .ite (.tftpSend (.wf (.wf (.wf (.sameWf rfl (.ite (.putBootRec h) h)))))) (.tftpSend (.wf (.wf (.wf (.sameWf rfl (.ite
      (.putBootRec h) h))))))))))))))

theorem keeps_execTftpRrq {tid : Nat} {name mode : Bytes} {blk : Option Nat} {s : State} :
    Keeps s (execTftpRrq tid name mode blk s) :=
  .ite (.next (fun h => .tftpError h)) (.ite (.next (fun h => .tftpError h)) (.ite (.next (fun h => .tftpError h)) (.ite (.next
      (fun h => .tftpError h)) (.next (fun h => .ite (.tftpSend h) (.tftpSend h))))))

theorem keeps_execTftpData {tid : Nat} {block : Fin 65536} {data : Bytes} {s : State} : Keeps s (execTftpData tid block data s) := by
  unfold execTftpData
  split
  · exact .next fun h => .emit h
  · exact .ite (.next (fun h => .emit h)) (.ite (.next (fun h => .draw h)) (.ite (.next id) (.ite (.next (fun h => .ite h (.tftpSend h)))
      (.ite (.next id) (.ite (.next (fun h => .tftpAbandon (.tftpError h))) (.ite (.next (fun h => .tftpAbandon (.tftpError h))) (.next
      (fun h => .flPost (.sameWf rfl (.ite (.draw h) h))))))))))

theorem keeps_execTftpAck {tid : Nat} {block : Fin 65536} {s : State} : Keeps s (execTftpAck tid block s) := by
  unfold execTftpAck
  split
  · exact .next fun h => .emit h
  · exact .ite (.next (fun h => .emit h)) (.ite (.next id) (.ite (.next (fun h => .tftpSend h)) (.ite (.next id) (.ite (.next
      (fun h => .sameWf rfl (.wf h))) (.next (fun h => .tftpSend h))))))

theorem keeps_execTftpRetransmit {s : State} : Keeps s (execTftpRetransmit s) := by
  unfold execTftpRetransmit
  split
  · exact .next id
  · exact .ite (.next id) (.ite (.next id) (.next (fun h => .tftpAbandon h)))

theorem keeps_execServicePortFrame {f : SvcFrame} {s : State} : Keeps s (execServicePortFrame f s) := by
  unfold execServicePortFrame
  split
  · exact .next fun h => .ite (.emit h) h
  · exact .next fun h => .ite (.emit h) h
  · exact .next id

theorem State.Rest.slotProgrammed {s : State} {t : Tftp} {a : Nat} {data : Bytes} {last : Bool} {block : Nat} (h : s.Rest Canon) :
    (s.slotProgrammed t a data last block).Rest Canon := by
  unfold State.slotProgrammed
  extract_lets s1 s2 n s3 t1 _ s4 _ s5 s6
  have h3 : s3.Rest Canon := .wf (.flStore (.iteNot h fun h => .flErase h))
  clear_value s3
  have h4 : s4.Rest Canon := h3
  clear_value s4
  have h6 : s6.Rest Canon := .emit (.armSlot (h4 : s5.Rest Canon))
  clear_value s6
  have h7 : (s6.wf R.BSV.TFTP_STAT.STATE 2).Rest Canon := .wf h6
  exact .ite (.tftpSend h4) (.ite h7 (.tftpAbandon (.tftpError h4)))

theorem keeps_execBootFlashProgramDone {ok : Bool} {s : State} : Keeps s (execBootFlashProgramDone ok s) := by
  unfold execBootFlashProgramDone
  split
  · exact .next id
  · exact .ite (.next id) (by
      dsimp only
      split
      · exact .ite (.next (fun h => .flResult (.wf (.cabPut (.sameWf rfl (by
          split <;> exact h)))))) (.next (fun h => .flResult (.wf (.raise (by
          split <;> exact h)))))
      · split
        · exact .next (fun h => by
            split <;> exact h)
        · exact .ite (.next (fun h => .slotProgrammed (by
            split <;> exact h))) (.next (fun h => .tftpAbandon (.tftpError (.raise (by
            split <;> exact h)))))
      · exact .next (fun h => .wf (.ite (.updResult (.putBootRec (by
          split <;> exact h))) (.updResult (.raise (by
          split <;> exact h)))))
      · exact .next (fun h => .wf (.ite (.confirmWrite (by
          split <;> exact h)) (.updResult (.raise (by
          split <;> exact h)))))
      · exact .next (fun h => .wf (.ite (.updResult (.putBootRec (by
          split <;> exact h))) (.updResult (.raise (by
          split <;> exact h))))))

theorem State.Rest.setEn {s : State} {page : Nat} {v : Bool} (h : s.Rest Canon) : (s.setEn page v).Rest Canon :=
  .ite h (.iteOf (.wf h) fun h2 => .wf h2)

theorem keeps_execBlockStopped {page : Fin 64} {s : State} : Keeps s (execBlockStopped page s) :=
  .next fun h => .ite (.wf h) h

theorem State.Rest.softRow {page : Nat} {r : FRow} {s : State} (h : s.Rest Canon) : (softRow page r s).Rest Canon :=
  .ite (.foldl (fun _ _ h' => .wf h') h) (.ite (.foldl (fun _ _ h' => .wf h') h) h)

theorem State.Rest.softRegs {s : State} {page : Nat} (h : s.Rest Canon) : (s.softRegs page).Rest Canon :=
  .deassert (.wf (.wf (.wf (.wf (.foldl (fun _ _ h' => .softRow h') h)))))

theorem State.Rest.softReset {s : State} {page : Nat} {enBefore : Bool} (h : s.Rest Canon) : (s.softReset page enBefore).Rest Canon :=
  .ite (.sameWf rfl (.softBanks (.softRegs h))) (.wf h)

theorem keeps_execSoftReset {page : Fin 64} {s : State} : Keeps s (execSoftReset page s) :=
  .next fun h => .ite (.softReset h) h

theorem keeps_execSoftResetDone {page : Fin 64} {s : State} : Keeps s (execSoftResetDone page s) :=
  .next id

theorem State.Rest.fenceBlock {s : State} {page : Nat} (h : s.Rest Canon) : (s.fenceBlock page).Rest Canon :=
  .iteOf (.foldl (fun _ _ h' => .ite (.wf h') (.markFenced h')) (.wf h)) fun h2 => .leave h2

theorem State.Rest.ctlWrite {s : State} {page v : Nat} (h : s.Rest Canon) : (s.ctlWrite page v).Rest Canon :=
  .iteOf (.iteOf (.setEn (.ite (.softReset h) h)) fun h2 => .fenceBlock h2) fun h2 => .wf h2

theorem State.Rest.inject {s : State} {page src : Nat} (h : s.Rest Canon) : (s.inject page src).Rest Canon :=
  .occur h

theorem State.Rest.errInj {s : State} {page v : Nat} (h : s.Rest Canon) : (s.errInj page v).Rest Canon :=
  .ite (.foldl (fun _ _ h' => .inject h') h) (.ite h (.raise h))

theorem State.Rest.errStatWrite {s : State} {page v : Nat} (h : s.Rest Canon) : (s.errStatWrite page v).Rest Canon := by
  unfold State.errStatWrite
  exact .ite (.syncErrLine (.syncErrFirst (.wf h))) (.syncErrLine (.wf h))

theorem State.Rest.errMaskWrite {s : State} {page v : Nat} (h : s.Rest Canon) : (s.errMaskWrite page v).Rest Canon :=
  .syncErrLine (.wf h)

theorem State.Rest.errClassWrite {s : State} {page v : Nat} (h : s.Rest Canon) : (s.errClassWrite page v).Rest Canon :=
  .errMaskWrite (.wf h)

theorem State.Rest.faultClear {s : State} {v : Nat} (h : s.Rest Canon) : (s.faultClear v).Rest Canon :=
  .foldl (fun _ _ h' => .ite h' (.wf (.wf h'))) h

theorem keeps_execFclFaultClear {v : BitVec 64} {s : State} : Keeps s (execFclFaultClear v s) :=
  .next fun h => .faultClear h

theorem keeps_execFclLogRdWrite {i : Fin 64} {s : State} : Keeps s (execFclLogRdWrite i s) :=
  .next fun h => .wf h

theorem keeps_execPinHoldWrite {v : Bool} {s : State} : Keeps s (execPinHoldWrite v s) :=
  .next fun h => .wf h

theorem keeps_execFaultNPulseEnd {s : State} : Keeps s (execFaultNPulseEnd s) := by
  unfold execFaultNPulseEnd
  split
  · exact .ite (.next id) (.next id)
  · exact .next id

end Sys2Proof.Machine
end

section
/-! SUPPORT for O56 and O57. The invariant (logs 6 and 10) through
maps and journal, host ports, metering, command checks, the write path, layouts and the requests of Jonan.
Each lemma repeats the shape of the definition whose name it bears. -/
namespace Sys2Proof.Machine
open Sys2Proof Sys2Proof.Laws

variable {Q : RestPart → Prop}

theorem State.Rest.mpcHot {s : State} {set n : Nat} (h : s.Rest Q) : (s.mpcHot set n).Rest Q := by
  unfold State.mpcHot
  extract_lets i s1 s2 _
  have h2 : s2.Rest Q := .inc (.wf (.wf (.wf h)))
  clear_value s2
  exact .iteOf h fun _ => .raise h2

theorem State.Rest.mpcPut {s : State} {set w line : Nat} {dirty : Bool} (h : s.Rest Q) : (s.mpcPut set w line dirty).Rest Q :=
  .ite (.mpcHot h) h

theorem State.Rest.incWrap {s : State} {f : Fld} (h : s.Rest Q) : (s.incWrap f).Rest Q := .wf h

theorem State.Rest.mpcTouch {s : State} {addr : Nat} {wr : Bool} (h : s.Rest Q) : (s.mpcTouch addr wr).Rest Q :=
  .ite (by
    dsimp only
    split <;> exact .incWrap (.mpcPut h)) (.ite (by
    dsimp only
    split
    · exact .iteOf (.incWrap h) fun h2 => h2
    · exact .incWrap h) h)

theorem State.Rest.mpcPath {s : State} {gi : Nat} {wr : Bool} {path : List (Nat × Nat)} (h : s.Rest Q) : (s.mpcPath gi wr path).Rest Q :=
  .foldl (fun _ _ h' => .mpcTouch (.mpcTouch h')) h

theorem State.Rest.mpcInvalidate {s : State} (h : s.Rest Canon) : s.mpcInvalidate.Rest Canon :=
  .ite (.wf (.wf (.wf (.wf h)))) h

theorem keeps_execMpcInvalidate {s : State} : Keeps s (execMpcInvalidate s) :=
  .next fun h => .mpcInvalidate h

theorem keeps_execMpcInvalidateDone {s : State} : Keeps s (execMpcInvalidateDone s) :=
  .ite (.next (fun h => .sameWf rfl (.wf (.wf (.wf h))))) (.next id)

theorem State.Rest.mpcPreload {s : State} {way : Nat} (h : s.Rest Canon) : (s.mpcPreload way).Rest Canon :=
  .ite (.sameWf rfl (.wf h)) h

theorem keeps_execMpcPreload {way : Fin 16} {s : State} : Keeps s (execMpcPreload way s) :=
  .next fun h => .mpcPreload h

theorem State.Rest.mpcLoadLines {s : State} {way addr n : Nat} (h : s.Rest Canon) : (s.mpcLoadLines way addr n).Rest Canon := by
  induction n generalizing s addr with
  | zero => exact h
  | succ n ih => exact ih (.mpcPut h)

theorem keeps_execMpcPreloadDone {s : State} : Keeps s (execMpcPreloadDone s) := by
  unfold execMpcPreloadDone
  split
  · exact .next fun h => .wf (.wf (.mpcLoadLines h))
  · exact .next id

theorem State.Rest.mpcEnable {s : State} (h : s.Rest Canon) : s.mpcEnable.Rest Canon :=
  .ite (.ite (.wf (.wf h)) (.raise (.wf h))) h

theorem keeps_execMpcEnable {s : State} : Keeps s (execMpcEnable s) := .next fun h => .mpcEnable h

theorem State.Rest.mpcDisable {s : State} (h : s.Rest Canon) : s.mpcDisable.Rest Canon :=
  .ite (.sameWf rfl (.wf (.wf h))) h

theorem keeps_execMpcDisable {s : State} : Keeps s (execMpcDisable s) :=
  .next fun h => .mpcDisable h

theorem keeps_execMpcDrainComplete {s : State} : Keeps s (execMpcDrainComplete s) :=
  .ite (.next (fun h => .sameWf rfl (.wf (.wf h)))) (.next id)

theorem State.Rest.mpcLockWrite {s : State} {v : Nat} (h : s.Rest Canon) : (s.mpcLockWrite v).Rest Canon := by
  unfold State.mpcLockWrite
  exact .iteNot (.wf h) fun h2 => .raise (.wf h2)

theorem keeps_execMpcLockWrite {v : BitVec 12} {s : State} : Keeps s (execMpcLockWrite v s) :=
  .next fun h => .mpcLockWrite h

theorem keeps_execMpcHotWindow {s : State} : Keeps s (execMpcHotWindow s) :=
  .ite (.next id) (.next id)

theorem State.Rest.setSeg {s : State} {n : Nat} {g : Seg} (h : s.Rest Q) : (s.setSeg n g).Rest Q := h

theorem State.Rest.updDyn {s : State} {i : Nat} {f : SliceDyn → SliceDyn} (h : s.Rest Q) : (s.updDyn i f).Rest Q :=
  h

theorem State.Rest.attrAdd {s : State} {slice n : Nat} (h : s.Rest Q) : (s.attrAdd slice n).Rest Q :=
  .updDyn h

theorem State.Rest.attrSub {s : State} {slice n : Nat} (h : s.Rest Q) : (s.attrSub slice n).Rest Q :=
  .updDyn h

theorem State.Rest.ctFill {s : State} {cid : Nat} {up : Bool} (h : s.Rest Q) : (s.ctFill cid up).Rest Q :=
  .iteOf (.wf h) fun h2 => .event h2

theorem State.Rest.segValid {s : State} {seg clen : Nat} {up : Bool} (h : s.Rest Q) : (s.segValid seg clen up).Rest Q :=
  .ite h (.setSeg h)

theorem State.Rest.ctPut {s : State} {cid : Nat} {r : CtRec} (h : s.Rest Q) : (s.ctPut cid r).Rest Q :=
  .same rfl (.mpcTouch h)

theorem State.Rest.refWatch {s : State} {cid z : Nat} {ownZ : Bool} {r : CtRec} (h : s.Rest Q) : (s.refWatch cid z ownZ r).Rest Q :=
  .ite h (.ite h h)

theorem State.Rest.refAdd {s : State} {slice cid z : Nat} {ownZ up : Bool} (h : s.Rest Q) : (s.refAdd slice cid z ownZ up).Rest Q :=
  .ite h (.refWatch (.ctPut (.ite (.attrAdd h) (.attrSub h))))

theorem State.Rest.putPage {s : State} {lpn : Nat} {p : Page} (h : s.Rest Q) : (s.putPage lpn p).Rest Q :=
  h

theorem State.Rest.pageUp {s : State} {lpn : Nat} (h : s.Rest Q) : (s.pageUp lpn).Rest Q := by
  unfold State.pageUp
  split
  · exact .putPage h
  · exact h

theorem State.Rest.pageDown {s : State} {ns lpn ent : Nat} (h : s.Rest Q) : (s.pageDown ns lpn ent).Rest Q := by
  unfold State.pageDown
  split
  · exact .iteOf (.putPage h) fun h2 => h2
  · exact h

theorem State.Rest.copyRefs {s : State} {slice z : Nat} {ownZ : Bool} {p : Page} (h : s.Rest Q) : (s.copyRefs slice z ownZ p).Rest Q :=
  .foldl (fun _ _ h' => .ite (.ite (.refAdd h') (.pageUp h')) h') h

theorem State.Rest.dropRefs {s : State} {ns slice z : Nat} {ownZ : Bool} {p : Page} (h : s.Rest Q) :
    (s.dropRefs ns slice z ownZ p).Rest Q :=
  .foldl (fun _ _ h' => .ite (.ite (.refAdd h') (.pageDown h')) h') h

theorem State.Rest.setPageEntry {s : State} {ns level index e0 : Nat} (h : s.Rest Q) : (s.setPageEntry ns level index e0).Rest Q := by
  unfold State.setPageEntry
  split
  · exact h
  · exact .ite h (by
      dsimp only
      split
      · exact .ite (.putPage h) h
      · exact h)

theorem State.Rest.applyMapPage {s : State} {r : JRec} (h : s.Rest Q) : SomeRest Q id (s.applyMapPage r) :=
  .ite .none (.ite (by
    split
    · exact .some (.iteOf (.ite (.pageUp h) h) fun h2 => .pageDown h2)
    · exact .some h) (.ite (by
    dsimp only
    split
    · exact .some (.dropRefs h)
    · exact .some h) (.ite (.some h) (.some (.iteOf (.iteOf (.setPageEntry (.ite (.ite (.copyRefs (.putPage h)) (.ite (.putPage h) h)) h))
        fun h2 => .pageUp h2) fun h2 => .pageDown h2)))))

theorem State.Rest.wglAppend {s : State} {ns gi new : Nat} (h : s.Rest Q) : (s.wglAppend ns gi new).Rest Q := by
  unfold State.wglAppend
  split
  · exact h
  · dsimp only
    split
    · split
      · exact .ite (.raise (.updDyn h)) (.updDyn (.store h))
      · exact h
    · exact h

theorem State.Rest.applyMapSet {s : State} {r : JRec} (h : s.Rest Q) : (s.applyMapSet r).Rest Q :=
  .wglAppend (by
    split
    · dsimp only
      split
      · exact .iteOf (.mpcPath h) fun h2 => .putPage h2
      · exact .mpcPath h
    · exact .mpcPath h)

theorem State.Rest.segPut {s : State} {n : Nat} {g : Seg} (h : s.Rest Q) : (s.segPut n g).Rest Q :=
  .setSeg (.mpcTouch h)

theorem State.Rest.applySegState {s : State} {r : JRec} (h : s.Rest Q) : (s.applySegState r).Rest Q :=
  .ite (.raise (.inc h)) (.ite (.segPut h) (.ite (.segPut h) (.segPut h)))

theorem State.Rest.nsRelease {s : State} {ns : Nat} {n : Ns} (h : s.Rest Q) : (s.nsRelease ns n).Rest Q :=
  .foldl (fun _ _ h' => .ite (.pageDown h') h') (.ite (.pageDown h) h)

theorem State.Rest.applyNs {s : State} {r : JRec} (h : s.Rest Q) : (s.applyNs r).Rest Q :=
  .ite (.same rfl (.nsRelease h)) h

theorem State.Rest.chunkQueue {s : State} {l : List (Nat × Nat)} (h : s.Rest Q) : (s.chunkQueue l).Rest Q :=
  h

theorem State.Rest.applyRec {s : State} {slice : Nat} {r : JRec} (h : s.Rest Q) : SomeRest Q id (s.applyRec slice r) :=
  .ite (.some (.applyMapSet h)) (.ite (.ite (.some (.attrAdd (.segValid (.ctFill (.ctPut h))))) .none) (.ite (.ite (.ite (.some h) (.some
      (.refWatch (.ctPut (.ite (.attrAdd h) (.attrSub h)))))) .none) (.ite (.ite (.ite (.some (.inc (.ctPut h))) (.some (.ctPut (.segValid
      (.segValid h))))) .none) (.ite (.ite (.some (.ctPut (.same rfl (.ctFill (.segValid h))))) .none) (.ite (.some (.applySegState h))
      (.ite (.some (.setSeg h)) (.ite (by
    dsimp only
    split
    · exact .some (.ite (.pageUp h) h)
    · exact .some h) (.ite (State.Rest.applyMapPage h) (.ite (.some (.applyNs h)) (.ite (.some h) (.ite (by
    dsimp only
    split <;> exact .some h) (.ite (.some h) (.ite (.some h) (.some h))))))))))))))

theorem State.Rest.applyRecs {slice : Nat} {rs : List JRec} {s : State} (h : s.Rest Q) : SomeRest Q id (applyRecs slice rs s) := by
  induction rs generalizing s with
  | nil => exact .some h
  | cons r rs ih =>
    unfold Machine.applyRecs
    split
    · rename_i e
      exact ih (.applyRec h _ e)
    · exact .none

theorem State.Rest.noteApplied {s : State} {g : List JRec} (h : s.Rest Q) : (s.noteApplied g).Rest Q := h

theorem State.Rest.lateChunks {s : State} {g : List JRec} (h : s.Rest Q) : (s.lateChunks g).Rest Q := by
  unfold State.lateChunks
  split
  · exact .ite h h
  · exact h

theorem State.Rest.applyNow {s : State} {g : List JRec} (h : s.Rest Q) : SomeRest Q id (s.applyNow g) := by
  unfold State.applyNow
  split
  · rename_i e
    have h1 := State.Rest.applyRecs (.lateChunks h) _ e
    exact .some (.noteApplied h1)
  · exact .none

theorem State.Rest.applyShadowed {s : State} {g : List JRec} (h : s.Rest Q) : SomeRest Q id (s.applyShadowed g) := by
  unfold State.applyShadowed
  split
  · exact .map (State.Rest.applyNow h) fun _ h => h
  · exact State.Rest.applyNow h

theorem State.Rest.applyGroup {s : State} {g : List JRec} (h : s.Rest Q) : SomeRest Q id (s.applyGroup g) :=
  .ite (by
    split
    · exact .none
    · rename_i e
      have h1 := State.Rest.applyRecs (.foldl (fun _ _ h' => .getD (fun _ e => .applyRecs h' _ e) h') h) _ e
      exact .some (.same rfl (.ite (.raise h) h))) (State.Rest.applyShadowed h)

theorem State.Rest.setLane {s : State} {l : Nat} {x : Lane} (h : s.Rest Q) : (s.setLane l x).Rest Q := h

theorem State.Rest.enqueue {s : State} {r : JRec} (h : s.Rest Q) : (s.enqueue r).Rest Q :=
  .iteOf (.setLane h) fun h2 => .sendC h2

theorem State.Rest.stampGroup {s : State} {flags : Nat} {rs : List JRec} (h : s.Rest Q) : (s.stampGroup flags rs).state.Rest Q := by
  unfold State.stampGroup
  split
  · exact h
  · split
    · rename_i e
      exact State.Rest.ofSnd (.issueAbove h) e
    · rename_i e
      have h1 := State.Rest.ofSnd (.issueAbove h) e
      extract_lets g
      split
      · rename_i e1
        exact State.Rest.foldl (fun _ _ h => .enqueue h) (.applyGroup h1 _ e1)
      · exact h1

theorem State.Rest.ofStamped {x : Stamped} {t : State} (h : x.state.Rest Q) (e : x.state = t) : t.Rest Q :=
  e ▸ h

theorem State.Rest.journal {s : State} {rs : List JRec} (h : s.Rest Q) : (s.journal rs).2.Rest Q := by
  unfold State.journal
  split
  all_goals
    rename_i e
    exact .ofStamped (.stampGroup h) (congrArg Stamped.state e)

theorem State.Rest.pumpReleases {s : State} {k : Nat} (h : s.Rest Q) : (s.pumpReleases k).Rest Q := by
  induction k generalizing s with
  | zero => exact h
  | succ k ih =>
    unfold State.pumpReleases
    split
    · exact h
    · split
      · rename_i e
        exact ih (.ofSnd (.journal h) e)
      · rename_i e
        exact .ofSnd (.journal h) e

theorem State.Rest.releaseAll {s : State} (h : s.Rest Q) : s.releaseAll.Rest Q := .pumpReleases h

theorem State.Rest.setUp {s : State} {l : Nat} {v : Bool} (h : s.Rest Q) : (s.setUp l v).Rest Q := .wf h

theorem State.Rest.vlogPut {s : State} {e0 : Bytes} (h : s.Rest Canon) : (s.vlogPut e0).Rest Canon :=
  .ite (.raise (.inc (.raise (.wf (.store h))))) (.iteOf (.sameWf rfl (.raise (.wf (.store h)))) fun h2 => .event h2)

theorem State.Rest.violate {s : State} {q vcode cid d1 d2 : Nat} (h : s.Rest Canon) : (s.violate q vcode cid d1 d2).Rest Canon :=
  .ite h (.vlogPut h)

theorem keeps_execVcntClear {s : State} : Keeps s (execVcntClear s) := .next id

theorem State.Rest.errInfo {s : State} {q cid status lba nsid : Nat} (h : s.Rest Q) : (s.errInfo q cid status lba nsid).Rest Q := by
  unfold State.errInfo
  split
  · split <;> exact h
  · exact h

theorem State.Rest.hostEmit {s : State} {q : Nat} {o : Out} (h : s.Rest Q) : (s.hostEmit q o).Rest Q :=
  .ite (.emit h) (.ite h (.emit h))

theorem State.Rest.hostResume {s : State} (h : s.Rest Q) : s.hostResume.Rest Q :=
  .foldl (fun _ _ h' => .emit h') h

theorem State.Rest.flowControl {s : State} {q : Nat} (h : s.Rest Canon) : (s.flowControl q).Rest Canon :=
  .ite (.ite h (.emit h)) h

theorem State.Rest.answer {s : State} {q cid sct sc : Nat} {dnr : Bool} (h : s.Rest Q) : (s.answer q cid sct sc dnr).Rest Q :=
  .hostEmit h

theorem State.Rest.violAnswer {s : State} {q vcode cid d1 d2 sc : Nat} (h : s.Rest Canon) : (s.violAnswer q vcode cid d1 d2 sc).Rest Canon :=
  .answer (.errInfo (.violate h))

theorem State.Rest.dropCmd {s : State} {op : Nat} (h : s.Rest Q) : (s.dropCmd op).Rest Q := h

theorem State.Rest.updCmd {s : State} {op : Nat} {f : IoCmd → IoCmd} (h : s.Rest Q) : (s.updCmd op f).Rest Q :=
  h

theorem State.Rest.updConn {s : State} {q : Nat} {f : Conn → Conn} (h : s.Rest Canon) : (s.updConn q f).Rest Canon :=
  h

theorem State.Rest.orphan {s : State} {op : Nat} {c : IoCmd} (h : s.Rest Q) : (s.orphan op c).Rest Q :=
  .ite (.updCmd h) (.same rfl (.ite (.ite (.sendC h) h) (.ite (.sendC h) h)))

theorem State.Rest.freePair {s : State} (h : s.Rest Q) : s.freePair.Rest Q := .wf h

theorem State.Rest.closeQueue {s : State} {q : Nat} (h : s.Rest Q) : (s.closeQueue q).Rest Q := by
  unfold State.closeQueue
  split
  · exact h
  · exact .emit (.iteOf (.same rfl (.foldl (fun _ _ h' => .orphan h') h)) fun h2 => .freePair h2)

theorem State.Rest.endCtl {s : State} {k : Nat} (h : s.Rest Q) : (s.endCtl k).Rest Q :=
  .same rfl (.foldl (fun _ _ h' => .closeQueue h') h)

theorem State.Rest.endConn {s : State} {q : Nat} (h : s.Rest Q) : (s.endConn q).Rest Q := by
  unfold State.endConn
  split
  · exact h
  · split
    · exact .ite (.endCtl h) (.closeQueue h)
    · exact .closeQueue h

theorem State.Rest.endWith {s : State} {q fes fei : Nat} (h : s.Rest Q) : (s.endWith q fes fei).Rest Q := by
  unfold State.endWith
  split
  · exact h
  · exact .ite (.endConn (.emit h)) (.endConn h)

theorem State.Rest.dropLport {s : State} {l : Nat} (h : s.Rest Q) : (s.dropLport l).Rest Q :=
  .hostResume (.same rfl (.foldl (fun _ _ h' => .endConn h') (.setUp h)))

theorem State.Rest.portCfgWrite {s : State} {p v : Nat} (h : s.Rest Canon) : (s.portCfgWrite p v).Rest Canon :=
  .ite (.wf (.wf (.wf (.wf h)))) (.ite (.raise (.wf (.wf (.wf (.wf h))))) (.wf (.foldl (fun _ _ h' => .ite (.dropLport h') h') (.wf (.wf
      (.wf (.wf h)))))))

theorem State.Rest.sendData {s : State} {q cid off : Nat} {b : Bytes} (h : s.Rest Q) : (s.sendData q cid off b).Rest Q :=
  .foldl (fun _ _ h' => .hostEmit h') h

theorem keeps_execPortLinkUp {port : Fin 16} {k : Fin 4} {s : State} : Keeps s (execPortLinkUp port k s) :=
  .ite (.next (fun h => .setUp h)) (.next id)

theorem keeps_execEcnMarkedPacket {q : Nat} {s : State} : Keeps s (execEcnMarkedPacket q s) := by
  unfold execEcnMarkedPacket
  split
  · exact .ite (.next (fun h => .emit (.updConn h))) (.next id)
  · exact .next id

theorem keeps_execCnpReceived {q : Nat} {s : State} : Keeps s (execCnpReceived q s) :=
  .next fun h => .updConn h

theorem keeps_execRateRegain {q : Nat} {s : State} : Keeps s (execRateRegain q s) :=
  .next fun h => .updConn h

theorem keeps_execPriorityFlowControl {lport : Fin 64} {classes pauseMask : BitVec 8} {s : State} :
    Keeps s (execPriorityFlowControl lport classes pauseMask s) :=
  .ite (.next (fun h => .hostResume h)) (.next id)

theorem State.Rest.staleHandle {s : State} (h : s.Rest Canon) : s.staleHandle.Rest Canon := .raise (.inc h)

theorem State.Rest.bridleTake {s : State} {i oc bc : Nat} (h : s.Rest Canon) : SomeRest Canon id (s.bridleTake i oc bc) := by
  unfold State.bridleTake
  dsimp only
  split
  · exact .some (.updDyn h)
  · exact .none

theorem State.Rest.epochGrant {s : State} (h : s.Rest Canon) : s.epochGrant.Rest Canon := h

theorem State.Rest.dgeRan {s : State} {n : Nat} (h : s.Rest Q) : (s.dgeRan n).Rest Q := .wf h

theorem State.Rest.cmpRan {s : State} (h : s.Rest Canon) : s.cmpRan.Rest Canon := .inc h

theorem State.Rest.cphRan {s : State} {n : Nat} (h : s.Rest Q) : (s.cphRan n).Rest Q := .wf h

theorem State.Rest.dgeNoSlot {s : State} (h : s.Rest Canon) : s.dgeNoSlot.Rest Canon := .raise (.inc h)

theorem State.Rest.cphNoSlot {s : State} (h : s.Rest Canon) : s.cphNoSlot.Rest Canon := .raise h

theorem State.Rest.cphAuth {s : State} (h : s.Rest Canon) : s.cphAuth.Rest Canon := .raise (.inc (.cphRan h))

theorem State.Rest.placeIn {s : State} {seg : Nat} {o : OpenSeg} {p : Placed} (h : s.Rest Canon) : (s.placeIn seg o p).2.Rest Canon := by
  unfold State.placeIn
  split <;> exact h

theorem State.Rest.placePool {s : State} {pool : Nat} {p : Placed} (h : s.Rest Canon) : SomeRest Canon Prod.snd (s.placePool pool p) := by
  unfold State.placePool
  split
  · exact .some (.placeIn h)
  · exact .none

theorem State.Rest.chkTransport {s : State} {q : Nat} {k : Conn} {c : NvmeCmd} (h : s.Rest Canon) : SomeRest Canon id (s.chkTransport q k c) := by
  unfold State.chkTransport
  dsimp only
  split
  · exact .some (.endWith (.violate h))
  · exact .ite (.some (.endWith (.violate h))) (.ite (.some (.endConn (.emit (.violate h)))) (by
      split
      · exact .some (.violAnswer h)
      · split
        · exact .ite (.some (.violAnswer h)) (.ite (.some (.violAnswer h)) .none)
        · exact .none))

theorem State.Rest.chkCid {s : State} {q opc : Nat} {c : NvmeCmd} (h : s.Rest Canon) : SomeRest Canon id (s.chkCid q opc c) :=
  .ite (.some (.violAnswer h)) .none

theorem State.Rest.chkFuse {s : State} {q : Nat} {c : NvmeCmd} (h : s.Rest Canon) : SomeRest Canon id (s.chkFuse q c) :=
  .ite (.some (.violAnswer h)) .none

theorem State.Rest.chkNs {s : State} {q : Nat} {c : NvmeCmd} (h : s.Rest Canon) : SomeRest Canon id (s.chkNs q c) := by
  unfold State.chkNs
  split
  · exact .ite (.some (.violAnswer h)) (.ite (.some (.answer h)) (.ite (.some (.answer h)) (.ite (.some (.answer h)) .none)))
  · exact .some (.violAnswer h)

theorem State.Rest.chkFields {s : State} {q opc : Nat} {c : NvmeCmd} (h : s.Rest Canon) : SomeRest Canon id (s.chkFields q opc c) := by
  unfold State.chkFields
  split
  · exact .none
  · exact .ite (.some (.answer h)) (.ite (.some (.violAnswer h)) (.ite (.some (.violAnswer h)) (.ite (.some (.answer h)) (.ite (.some
      (.answer h)) (.ite (.some (.answer h)) .none)))))

theorem State.Rest.chkSgl {s : State} {q opc : Nat} {k : Conn} {c : NvmeCmd} (h : s.Rest Canon) : SomeRest Canon id (s.chkSgl q opc k c) :=
  .ite .none (by
    dsimp only
    split
    · exact .some (.violAnswer h)
    · exact .ite (.ite (.some (.violAnswer h)) .none) (by
        split
        · exact .some (.violAnswer h)
        · exact .ite (.some (.violAnswer h)) (by
            split
            · exact .some (.violAnswer h)
            · exact .ite (.some (.violAnswer h)) (.ite (.some (.violAnswer h)) (by
                split
                · exact .some (.violAnswer h)
                · exact .ite (.some (.violAnswer h)) .none)))))

theorem State.Rest.check {s : State} {q opc : Nat} {k : Conn} {c : NvmeCmd} (h : s.Rest Canon) : SomeRest Canon id (s.check q opc k c) :=
  .orElse (State.Rest.chkTransport h) (.orElse (State.Rest.chkCid h) (.orElse (State.Rest.chkFuse h)
    (.orElse (State.Rest.chkNs h) (.orElse (State.Rest.chkFields h) (State.Rest.chkSgl h)))))

theorem State.Rest.checkAdmin {s : State} {q opc : Nat} {k : Conn} {c : NvmeCmd} (h : s.Rest Canon) : SomeRest Canon id (s.checkAdmin q opc k c) :=
  .orElse (State.Rest.chkTransport h) (.orElse (State.Rest.chkCid h) (.orElse (State.Rest.chkFuse h) (State.Rest.chkSgl h)))

theorem State.Rest.resApply {s : State} {ns opc cdw10 : Nat} {data : Bytes} (h : s.Rest Canon) : (s.resApply ns opc cdw10 data).2.Rest Canon :=
  .ite h h

theorem State.Rest.arrived {s : State} {q : Nat} {c : NvmeCmd} (h : s.Rest Canon) : (s.arrived q c).Rest Canon :=
  .flowControl (.updConn h)

theorem State.Rest.insertCmd {s : State} {c : IoCmd} (h : s.Rest Canon) : (s.insertCmd c).2.Rest Canon :=
  .ite h (.updDyn h)

theorem State.Rest.updGrain {s : State} {op i : Nat} {f : Grain → Grain} (h : s.Rest Q) : (s.updGrain op i f).Rest Q :=
  .updCmd h

theorem State.Rest.enterGrain {s : State} {op i : Nat} (h : s.Rest Q) : (s.enterGrain op i).Rest Q := by
  unfold State.enterGrain
  split
  · exact h
  · exact .incWrap h

theorem State.Rest.mergeRead {s : State} {op gi cid : Nat} (h : s.Rest Q) : (s.mergeRead op gi cid).Rest Q :=
  .updCmd h

theorem State.Rest.beginGrain {s : State} {op i : Nat} (h : s.Rest Q) : (s.beginGrain op i).Rest Q := by
  unfold State.beginGrain
  split
  · exact h
  · exact .ite (.updGrain h) (.ite (.enterGrain h) (by
      dsimp only
      split
      · split
        · exact .enterGrain (.incWrap (.updGrain h))
        · exact .mergeRead (.updGrain h)
      · exact .mergeRead (.updGrain h)
      · exact .enterGrain (.incWrap (.updGrain h))))

theorem State.Rest.mirrorCmd {s : State} {op : Nat} (h : s.Rest Q) : (s.mirrorCmd op).Rest Q := by
  unfold State.mirrorCmd
  split
  · exact h
  · exact .ite (.same rfl (.sendC (.updCmd h))) h

theorem State.Rest.failWrite {s : State} {op sct sc : Nat} {dnr : Bool} (h : s.Rest Q) : (s.failWrite op sct sc dnr).Rest Q := by
  unfold State.failWrite
  split
  · exact h
  · dsimp only
    split
    · exact .answer (.errInfo (.same rfl (.ite (.sendC h) h)))
    · exact .iteOf (.same rfl (.ite (.sendC h) h)) fun h2 => .sendC h2

theorem State.Rest.hfcPut {s : State} {cid gen : Nat} {fp : Bytes} (h : s.Rest Canon) : (s.hfcPut cid gen fp).Rest Canon :=
  h

theorem State.Rest.hfcUse {s : State} {cid : Nat} (h : s.Rest Q) : (s.hfcUse cid).Rest Q := by
  unfold State.hfcUse
  split <;> exact h

theorem State.Rest.grainUnique {s : State} {op i : Nat} (h : s.Rest Q) : (s.grainUnique op i).Rest Q := by
  unfold State.grainUnique
  split
  · exact h
  · exact .ite (.updGrain h) (.ite (.updGrain h) (by
      split
      · exact .failWrite (.raise (.inc h))
      · exact .ite (.updGrain (.iteOf (.ite (.inc h) h) fun h2 => .updDyn h2)) (.updGrain (.incWrap (.updDyn (.ite (.inc h) h))))))

theorem State.Rest.confirmHit {s : State} {op i : Nat} {cids : List Nat} (h : s.Rest Q) : (s.confirmHit op i cids).Rest Q := by
  induction cids generalizing s with
  | nil => exact .grainUnique h
  | cons cid cids ih =>
    unfold State.confirmHit
    split
    · exact h
    · split
      · exact .ite (.updGrain (.incWrap (.incWrap (.hfcUse h)))) (ih (.incWrap (.incWrap (.hfcUse h))))
      · exact .ite (.updGrain (.incWrap h)) (ih h)

theorem State.Rest.lookup {s : State} {op i : Nat} (h : s.Rest Q) : (s.lookup op i).Rest Q := by
  unfold State.lookup
  split
  · exact h
  · exact .ite (.updGrain h) (by
      dsimp only
      split
      · exact .updGrain (.incWrap (.foldl (fun _ _ h' => .mpcTouch h') (.updGrain h)))
      · exact .confirmHit (.foldl (fun _ _ h' => .mpcTouch h') (.updGrain h)))

theorem State.Rest.pumpGrains {s : State} (h : s.Rest Q) : s.pumpGrains.Rest Q :=
  .foldl (fun _ _ h' => .mirrorCmd h') (.foldl (fun _ _ h' => by
    split
    · split
      · exact .beginGrain h'
      · exact .lookup h'
      · exact h'
    · exact h') h)

theorem State.Rest.predict {s : State} {i : Nat} {probe compressed : Bool} (h : s.Rest Canon) : (s.predict i probe compressed).Rest Canon :=
  .updDyn h

theorem State.Rest.placeAdopted {s : State} {op : Nat} {c : IoCmd} {g : Grain} (h : s.Rest Canon) : (s.placeAdopted op c g).Rest Canon :=
  .ite (.dropCmd h) (by
    split
    · rename_i e
      have h1 := State.Rest.placePool h _ e
      exact h1
    · exact .updGrain h)

theorem State.Rest.placeGrain {s : State} {op i : Nat} (h : s.Rest Canon) : (s.placeGrain op i).Rest Canon := by
  unfold State.placeGrain
  split
  · exact h
  · exact .ite (.placeAdopted h) (by
      split
      · rename_i e
        have h1 := State.Rest.placePool h _ e
        exact .updGrain h1
      · exact .updGrain h)

theorem State.Rest.pumpPlace {s : State} (h : s.Rest Canon) : s.pumpPlace.Rest Canon :=
  .foldl (fun _ _ h' => by
    split
    · exact .ite (.placeGrain h') h'
    · exact h') h

theorem State.Rest.retryCmd {s : State} {op : Nat} (h : s.Rest Canon) : (s.retryCmd op).Rest Canon :=
  .pumpGrains (.updCmd (.inc h))

theorem State.Rest.recopy {s : State} {op : Nat} (h : s.Rest Canon) : (s.recopy op).Rest Canon := by
  unfold State.recopy
  split
  · exact .updCmd h
  · exact h

theorem State.Rest.afterStamp {s : State} {op o : Nat} {gs : List Grain} (h : s.Rest Canon) : (s.afterStamp op o gs).Rest Canon :=
  .sameWf rfl (.iteNot (.foldl (fun _ _ h' => by
    split
    · exact .hfcPut h'
    · exact h') h) fun h2 => .ite (.sendC h2) h2)

theorem State.Rest.groupDone {s : State} {op : Nat} {gs : List Grain} {o : Nat} (h : s.Rest Canon) : (s.groupDone op gs o).Rest Canon :=
  .pumpGrains (.releaseAll (by
    split
    · exact .iteOf (.wf (.afterStamp (.updCmd h))) fun h2 => .sendC h2
    · exact .wf (.afterStamp (.updCmd h))))

theorem State.Rest.groupStamp {s : State} {op : Nat} (h : s.Rest Canon) : (s.groupStamp op).Rest Canon := by
  unfold State.groupStamp
  split
  · exact h
  · refine .ite h (.ite (.retryCmd h) ?_)
    extract_lets gs touch prep
    have hprep : (if prep = [] then Stamped.done 0 s else s.stampGroup 0 prep).state.Rest Canon := by
      split
      · exact h
      · exact .stampGroup h
    clear_value prep
    split
    all_goals
      rename_i e
      have h1 := State.Rest.ofStamped hprep (congrArg Stamped.state e)
    · exact h1
    · exact h1
    · refine .ite (.groupDone h1) ?_
      split
      all_goals
        rename_i e1
        have h2 := State.Rest.ofStamped (.stampGroup h1) (congrArg Stamped.state e1)
      · exact h2
      · exact .ite (.recopy h2) (.retryCmd h2)
      · exact .groupDone h2

theorem State.Rest.meterCmd {s : State} {c : IoCmd} (h : s.Rest Q) : (s.meterCmd c).Rest Q :=
  .iteNot (.ite h (.ite h h)) fun h2 => .updDyn h2

theorem State.Rest.complete {s : State} {op sct sc : Nat} {dnr : Bool} (h : s.Rest Q) : (s.complete op sct sc dnr).Rest Q := by
  unfold State.complete
  split
  · exact h
  · dsimp only
    split
    · exact .answer (.dropCmd (.ite (.meterCmd h) h))
    · exact .dropCmd (.ite (.meterCmd h) h)

theorem State.Rest.wcRelease {s : State} {p : WcEnt → Bool} (h : s.Rest Canon) : (s.wcRelease p).Rest Canon :=
  .ite h (.sendC h)

theorem State.Rest.tryFwdDone {s : State} {op : Nat} (h : s.Rest Canon) : (s.tryFwdDone op).Rest Canon := by
  unfold State.tryFwdDone
  split
  · exact .ite (.wcRelease (.sendC (.dropCmd h))) h
  · exact h

theorem State.Rest.setBlk {s : State} {k : Nat} {b : Blk} (h : s.Rest Q) : (s.setBlk k b).Rest Q := h

theorem State.Rest.ptSend {s : State} {es : List (Nat × Nat)} (h : s.Rest Canon) : (s.ptSend es).Rest Canon :=
  .sendC h

theorem State.Rest.ptSet {s : State} {es : List (Nat × Nat)} (h : s.Rest Canon) : (s.ptSet es).Rest Canon :=
  .ite (.ptSend h) h

theorem State.Rest.setEnd {s : State} {i : Nat} {e0 : LinkEnd} (h : s.Rest Q) : (s.setEnd i e0).Rest Q :=
  h

theorem State.Rest.updEnd {s : State} {i : Nat} {f : LinkEnd → LinkEnd} (h : s.Rest Q) : (s.updEnd i f).Rest Q :=
  .setEnd h

theorem State.Rest.jEmit {s : State} {i lseq : Nat} {f : JFrame} (h : s.Rest Q) : (s.jEmit i lseq f).Rest Q :=
  .emit (.setEnd h)

theorem State.Rest.pumpTx {s : State} {i k : Nat} (h : s.Rest Q) : (s.pumpTx i k).Rest Q := by
  induction k generalizing s with
  | zero => exact h
  | succ k ih =>
    unfold State.pumpTx
    extract_lets e
    split
    · exact h
    · exact .ite (ih (.jEmit (.setEnd h))) h

theorem State.Rest.pumpEnd {s : State} {i : Nat} (h : s.Rest Q) : (s.pumpEnd i).Rest Q := .pumpTx h

theorem State.Rest.jSend {s : State} {i : Nat} {f : JFrame} (h : s.Rest Q) : (s.jSend i f).Rest Q :=
  .pumpEnd (.updEnd h)

theorem State.Rest.jSendU {s : State} {i : Nat} {f : JFrame} (h : s.Rest Canon) : (s.jSendU i f).Rest Canon :=
  .jEmit h

theorem State.Rest.nakCount {s : State} {i code : Nat} (h : s.Rest Canon) : (s.nakCount i code).Rest Canon :=
  .ite h (.raise (.updEnd h))

theorem State.Rest.nak {s : State} {i code : Nat} (h : s.Rest Canon) : (s.nak i code).Rest Canon :=
  .ite h (.nakCount (.jSendU (.setEnd h)))

theorem State.Rest.dropCred {s : State} {i n : Nat} (h : s.Rest Canon) : (s.dropCred i n).Rest Canon := .updEnd h

theorem State.Rest.rewind {s : State} {i : Nat} (h : s.Rest Canon) : (s.rewind i).Rest Canon := .updEnd h

theorem State.Rest.ackIn {s : State} {i : Nat} {h0 : JHdr} (h : s.Rest Canon) : (s.ackIn i h0).Rest Canon :=
  .pumpEnd (.updEnd h)

theorem State.Rest.jRecv {s : State} {i : Nat} {h0 : JHdr} (h : s.Rest Canon) : (s.jRecv i h0).2.Rest Canon :=
  .iteSnd h (.iteSnd (.nak (.dropCred h)) (.iteSnd (.nak (.dropCred h)) (.iteSnd (.nak (.dropCred h)) (.iteSnd (.ackIn h) (.iteSnd (.nak h)
      (.iteSnd (.ackIn (.setEnd h)) (.iteSnd (.updEnd (.ackIn (.dropCred h))) (.nak (.dropCred h)))))))))

theorem State.Rest.freeCred {s : State} {i got : Nat} (h : s.Rest Canon) : (s.freeCred i got).Rest Canon :=
  .updEnd h

theorem State.Rest.reqFrames {s : State} {k : Nat} {r : Req} {flags : Nat} {payloads : List Bytes} (h : s.Rest Q) :
    (s.reqFrames k r flags payloads).Rest Q := .foldl (fun _ _ h' => .jSend h') h

theorem State.Rest.pumpDie {s : State} {m die : Nat} (h : s.Rest Canon) : (s.pumpDie m die).Rest Canon :=
  .ite h (by
    split
    · exact h
    · split
      · exact h
      · exact .reqFrames h)

theorem State.Rest.jReq {s : State} {m op die addr flags : Nat} {payloads : List Bytes} {why : Why} (h : s.Rest Q) :
    (s.jReq m op die addr flags payloads why).Rest Q := by
  unfold State.jReq
  exact .ite h (by
    split
    · exact h
    · exact .iteNot (.ite (.setBlk h) h) fun h2 => .reqFrames h2)

theorem State.Rest.jRead {s : State} {m ent plane mask rr : Nat} {offset : Int} {why : Why} (h : s.Rest Q) :
    (s.jRead m ent plane mask rr offset why).Rest Q := by
  unfold State.jRead
  exact .jReq h

theorem State.Rest.jProgram {s : State} {m die block wl : Nat} {qlc : Bool} {pages : List (List Bytes)} {why : Why} (h : s.Rest Canon) :
    (s.jProgram m die block wl qlc pages why).Rest Canon := by
  unfold State.jProgram
  exact .jReq h

theorem State.Rest.takeReq {s : State} {k : Nat} {failed : Bool} (h : s.Rest Canon) : (s.takeReq k failed).Rest Canon := by
  unfold State.takeReq
  split
  · exact h
  · exact .ite (.setBlk h) (.pumpDie h)

theorem State.Rest.jDetect {s : State} {i : Nat} (h : s.Rest Canon) : (s.jDetect i).Rest Canon :=
  .ite h (.ite (.setEnd h) (.setEnd h))

theorem State.Rest.jLane {s : State} {i lane : Nat} (h : s.Rest Canon) : (s.jLane i lane).Rest Canon :=
  .ite (.setEnd h) h

theorem State.Rest.jAlign {s : State} {i lanes retrainMs : Nat} (h : s.Rest Canon) : (s.jAlign i lanes retrainMs).Rest Canon :=
  .ite h (.ite (.ite (.foldl (fun _ _ h' => .raiseU h') (.setEnd h)) (.setEnd h)) (.ite (.ite (.foldl (fun _ _ h' => .raiseU h') (.pumpEnd
      (.rewind (.setEnd h)))) (.pumpEnd (.rewind (.setEnd h)))) h))

theorem State.Rest.trainTick {s : State} {i : Nat} (h : s.Rest Canon) : (s.trainTick i).Rest Canon :=
  .ite (.jSendU (.setEnd h)) h

theorem State.Rest.jTrain {s : State} {i vers port rxcred : Nat} (h : s.Rest Canon) : (s.jTrain i vers port rxcred).2.Rest Canon :=
  .iteSnd h (.iteSnd (.setEnd (.ite (.trainTick h) h)) (.setEnd (.ite (.trainTick h) h)))

theorem keeps_execJonanNak {sel : LinkSel} {h0 : JHdr} {code : Fin 256} {s : State} : Keeps s (execJonanNak sel h0 code s) := by
  unfold execJonanNak
  dsimp only
  split
  · rename_i e
    have h1 (h : s.Rest Canon) := State.Rest.ofSnd (.jRecv h) e
    exact .next fun h => .pumpEnd (.rewind (.updEnd (.nakCount (h1 h))))
  · rename_i e
    have h1 (h : s.Rest Canon) := State.Rest.ofSnd (.jRecv h) e
    exact .next h1

theorem keeps_execJonanIdle {sel : LinkSel} {h0 : JHdr} {s : State} : Keeps s (execJonanIdle sel h0 s) :=
  .next fun h => .jRecv h

theorem keeps_execJonanAckTimer {sel : LinkSel} {s : State} : Keeps s (execJonanAckTimer sel s) :=
  .ite (.ite (.next (fun h => .sendLink h)) (.next id)) (.ite (.next (fun h => .jSendU h)) (.next id))

end Sys2Proof.Machine
end

section
/-! SUPPORT for O56 and O57. The invariant (logs 6 and 10) through
the read path, replication sessions, I/O and admin commands, slices.
Each lemma repeats the shape of the definition whose name it bears. -/
namespace Sys2Proof.Machine
open Sys2Proof Sys2Proof.Laws

variable {Q : RestPart → Prop}

theorem State.Rest.updRead {s : State} {op i : Nat} {f : RdGrain → RdGrain} (h : s.Rest Q) : (s.updRead op i f).Rest Q :=
  .updCmd h

theorem State.Rest.failGrain {s : State} {op i status : Nat} {dnr : Bool} {cnt : Option Fld} (h : s.Rest Q) :
    (s.failGrain op i status dnr cnt).Rest Q :=
  .updRead (by
    split
    · exact .inc h
    · exact h)

theorem State.Rest.mapFail {s : State} {ns pix : Nat} (h : s.Rest Q) : (s.mapFail ns pix).Rest Q :=
  .ite (.ask (.raise (.inc h))) (.iteNot (.raise (.inc h)) fun h2 => h2)

theorem State.Rest.noteRead {s : State} {m ent : Nat} (h : s.Rest Q) : (s.noteRead m ent).Rest Q :=
  .setBlk h

theorem State.Rest.askCw {s : State} {op i seg unit tile cw n : Nat} (h : s.Rest Q) : (s.askCw op i seg unit tile cw n).2.Rest Q := by
  unfold State.askCw
  split
  · extract_lets rr mask
    dsimp only
    exact .jRead (.noteRead h)
  · exact h

theorem State.Rest.cwLost {s : State} {op i unit tile cw : Nat} (h : s.Rest Q) : (s.cwLost op i unit tile cw).Rest Q :=
  .updRead h

theorem State.Rest.askOther {s : State} {op i seg unit tile cw : Nat} (h : s.Rest Q) : (s.askOther op i seg unit tile cw).Rest Q := by
  unfold State.askOther
  split
  · rename_i e
    exact .ofSnd (.askCw h) e
  · rename_i e
    have h1 := State.Rest.ofSnd (.askCw h) e
    exact .cwLost h1

theorem State.Rest.reconLaunch {s : State} {op i : Nat} (h : s.Rest Q) : (s.reconLaunch op i).Rest Q := by
  unfold State.reconLaunch
  split
  · exact h
  · dsimp only
    split
    · exact .iteOf (.foldl (fun _ _ h' => by
        split
        · exact .iteOf (.foldl (fun _ _ h2' => .askOther h2') h') fun h3 => .askOther h3
        · exact .foldl (fun _ _ h2' => .askOther h2') h') (.updRead h)) fun h2 => .failGrain h2
    · exact .foldl (fun _ _ h' => by
        split
        · exact .iteOf (.foldl (fun _ _ h2' => .askOther h2') h') fun h3 => .askOther h3
        · exact .foldl (fun _ _ h2' => .askOther h2') h') (.updRead h)

theorem State.Rest.launch {s : State} {op i : Nat} (h : s.Rest Q) : (s.launch op i).Rest Q := by
  unfold State.launch
  split
  · exact h
  · exact .ite (.reconLaunch h) (.foldl (fun _ _ h' => .askCw h') h)

theorem State.Rest.gotGrain {s : State} {op i : Nat} {data : Bytes} {tag : Nat} (h : s.Rest Q) : (s.gotGrain op i data tag).Rest Q :=
  .updRead h

theorem State.Rest.readRec {s : State} {op i cid : Nat} (h : s.Rest Q) : (s.readRec op i cid).Rest Q := by
  unfold State.readRec
  split
  · exact h
  · exact .ite (.failGrain (.raise (.updRead (.mpcTouch (.mpcTouch h))))) (.ite (.failGrain (.raise (.updRead (.mpcTouch (.mpcTouch h)))))
      (.ite (by
      split
      · exact .ite (.gotGrain (.updRead (.mpcTouch (.mpcTouch h)))) (.failGrain (.raise (.updRead (.mpcTouch (.mpcTouch h)))))
      · exact .launch (.updRead (.mpcTouch (.mpcTouch h)))) (.launch (.updRead (.mpcTouch (.mpcTouch h))))))

theorem State.Rest.readGrain {s : State} {op i : Nat} (h : s.Rest Q) : (s.readGrain op i).Rest Q := by
  unfold State.readGrain
  split
  · exact h
  · dsimp only
    split
    · exact .failGrain (.mapFail (.mpcPath h))
    · exact .gotGrain (.mpcPath h)
    · exact .gotGrain (.mpcPath h)
    · exact .readRec (.mpcPath h)

theorem State.Rest.mismatch {s : State} {op i : Nat} (h : s.Rest Canon) : (s.mismatch op i).Rest Canon := by
  unfold State.mismatch
  split
  · exact h
  · exact .ite (.ite (.failGrain h) (.ite (.readRec (.updRead (.inc h))) (.readGrain (.updRead (.inc h))))) (.ite (.failGrain h)
      (.reconLaunch h))

theorem State.Rest.verify {s : State} {op i : Nat} {rec_ : Bytes} (h : s.Rest Canon) : (s.verify op i rec_).Rest Canon := by
  unfold State.verify
  split
  · exact h
  · dsimp only
    split
    · exact .ite (.sameWf rfl (.inc (.updRead (.gotGrain (by
        split
        · exact .cphNoSlot h
        · exact .cphRan h))))) (.updRead (.gotGrain (by
        split
        · exact .cphNoSlot h
        · exact .cphRan h)))
    · exact .failGrain (by
        split
        · exact .cphNoSlot h
        · exact .cphRan h)
    · exact .mismatch (.raise (by
        split
        · exact .cphNoSlot h
        · exact .cphRan h))

theorem State.Rest.gather {s : State} {op i : Nat} (h : s.Rest Canon) : (s.gather op i).Rest Canon := by
  unfold State.gather
  split
  · exact h
  · exact .ite h (.ite (.ite (.ite (.mismatch h) (.reconLaunch h)) (.ite (.verify h) h)) (by
      dsimp only
      split
      · exact .foldl (fun _ _ h' => .ite (.askOther h') h') h
      · exact .ite (.failGrain (.foldl (fun _ _ h' => .ite (.askOther h') h') h)) (.iteOf (.foldl (fun _ _ h' => .ite (.askOther h') h') h)
          fun h2 => .verify h2)))

theorem State.Rest.berHist {s : State} {bits : Option Nat} (h : s.Rest Canon) : (s.berHist bits).Rest Canon := by
  unfold State.berHist
  dsimp only
  split
  · exact .sameWf rfl (.inc h)
  · exact .inc h

theorem State.Rest.readAnswer {s : State} {m : Nat} {r : Req} {op i unit tile cw n phase tried : Nat} {cws : List CwDec}
    (h : s.Rest Canon) : (s.readAnswer m r op i unit tile cw n phase tried cws).Rest Canon := by
  unfold State.readAnswer
  dsimp only
  split
  · exact h
  · exact .ite h (.foldl (fun _ _ h' => .ite (.jRead h') (.ite (.jRead (.inc h')) (.ite (.jRead (.inc h')) (.cwLost (.raise (.inc h'))))))
      (.foldl (fun _ _ h' => by
      split
      · exact .ite h' (.ite (.updRead (.setBlk (.iteOf (.incWrap h') fun h3 => .berHist h3))) (.cwLost (.raise (.inc (.setBlk (.iteOf
          (.incWrap h') fun h3 => .berHist h3))))))
      · exact .ite (.berHist h') h') h))

theorem State.Rest.failCmd {s : State} {op sct sc : Nat} {dnr : Bool} {lba : Nat} (h : s.Rest Q) : (s.failCmd op sct sc dnr lba).Rest Q := by
  unfold State.failCmd
  split
  · exact h
  · dsimp only
    split
    · exact .answer (.errInfo (.dropCmd h))
    · exact .iteOf (.dropCmd h) fun h2 => .sendC h2

theorem State.Rest.doneCmd {s : State} {op : Nat} (h : s.Rest Q) : (s.doneCmd op).Rest Q := by
  unfold State.doneCmd
  split
  · exact h
  · split
    · exact .complete h
    · exact .iteOf (.dropCmd h) fun h2 => .sendC h2

theorem State.Rest.trimStaging {s : State} (h : s.Rest Q) : s.trimStaging.Rest Q := .ite h h

theorem State.Rest.sendGrain {s : State} {op i : Nat} (h : s.Rest Q) : (s.sendGrain op i).Rest Q := by
  unfold State.sendGrain
  split
  · exact h
  · exact .ite (.updRead (.sendC h)) (by
      split
      · exact h
      · exact .trimStaging (.iteOf (.updRead (.sendData h)) fun h2 => h2))

theorem State.Rest.piReads {s : State} {op : Nat} (h : s.Rest Q) : (s.piReads op).Rest Q := by
  unfold State.piReads
  split
  · exact h
  · exact .ite h (.foldl (fun _ _ h' => by
      split
      · exact .ite (by
          split
          · exact .failGrain h'
          · exact h') h'
      · exact h') h)

theorem State.Rest.afterRead {s : State} {op : Nat} (h : s.Rest Q) : (s.afterRead op).Rest Q := by
  unfold State.afterRead
  dsimp only
  split
  · exact .piReads h
  · exact .ite (by
      split
      · exact .iteOf (.piReads h) fun h2 => .failCmd h2
      · exact .ite (.iteOf (.foldl (fun _ _ h' => by
          split
          · exact .ite (.sendGrain h') h'
          · exact h') (.piReads h)) fun h2 => .doneCmd h2) (.ite (.ite (.doneCmd (.piReads h)) (.failCmd (.piReads h))) (.piReads h)))
              (.ite (.piReads h) (.ite (.ite (.piReads h) (by
      split
      · exact .ite (.endWith (.inc (.dropCmd (.piReads h)))) (.same rfl (.sendData (.dropCmd (.piReads h))))
      · exact .dropCmd (.piReads h))) (by
      split
      · exact .pumpGrains (.failWrite (.raise (.piReads h)))
      · exact .pumpGrains (.mirrorCmd (.foldl (fun _ _ h' => .ite h' (.foldl (fun _ _ h2' => .enterGrain (.incWrap (.updGrain h2'))) h'))
          (.updCmd (.piReads h)))))))

theorem State.Rest.startReads {s : State} {op : Nat} (h : s.Rest Canon) : (s.startReads op).Rest Canon := by
  unfold State.startReads
  split
  · exact h
  · exact .afterRead (.foldl (fun _ _ h' => by
      split
      · exact .ite h' (.readGrain h')
      · exact h') h)

theorem State.Rest.startMerges {s : State} (h : s.Rest Q) : s.startMerges.Rest Q :=
  .foldl (fun _ _ h' => .afterRead (.foldl (fun _ _ h2' => by
    split
    · exact .ite (.readGrain h2') h2'
    · exact h2') h')) h

theorem keeps_execHostDataAck {q cid upto : Nat} {s : State} : Keeps s (execHostDataAck q cid upto s) :=
  .next id

theorem keeps_execTcpRetransmit {q cid off : Nat} {s : State} : Keeps s (execTcpRetransmit q cid off s) := by
  unfold execTcpRetransmit
  split
  · exact .next id
  · exact .ite (.next (fun h => .sendData h)) (.next (fun h => .afterRead (.ite (.readGrain h) (.readRec h))))

theorem State.Rest.updSess {s : State} {i : Nat} {f : RSess → RSess} (h : s.Rest Q) : (s.updSess i f).Rest Q :=
  h

theorem State.Rest.bindState {s : State} {j v : Nat} (h : s.Rest Q) : (s.bindState j v).Rest Q :=
  .store h

theorem State.Rest.rspEmit {s : State} {i : Nat} {m : RMsg} (h : s.Rest Q) : (s.rspEmit i m).Rest Q := by
  unfold State.rspEmit
  split
  · exact h
  · exact .emit (.updSess (.ite h (.same rfl (.cphRan h))))

theorem State.Rest.rplDrop {s : State} {op : Nat} (h : s.Rest Q) : (s.rplDrop op).Rest Q := by
  unfold State.rplDrop
  split
  · exact h
  · exact .ite (.updCmd h) (.same rfl (.ite (.sendC h) h))

theorem State.Rest.rootBack {s : State} {j : Nat} (h : s.Rest Q) : (s.rootBack j).2.Rest Q := by
  unfold State.rootBack
  dsimp only
  split
  · exact h
  · exact .iteSnd h (.iteSnd h (by
      split
      · rename_i e
        have h1 := State.Rest.ofSnd (.journal h) e
        exact .releaseAll h1
      · rename_i e
        have h1 := State.Rest.ofSnd (.journal h) e
        exact h1))

theorem State.Rest.restoreRoot {s : State} {j : Nat} (h : s.Rest Q) : (s.restoreRoot j).Rest Q := by
  unfold State.restoreRoot
  split
  · rename_i e
    have h1 := State.Rest.ofSnd (.rootBack h) e
    exact h1
  · rename_i e
    have h1 := State.Rest.ofSnd (.rootBack h) e
    exact h1

theorem State.Rest.rplEnd {s : State} {i code : Nat} {sent : Bool} (h : s.Rest Q) : (s.rplEnd i code sent).Rest Q := by
  unfold State.rplEnd
  split
  · exact h
  · exact .emit (.iteOf (.ite (.raise (.same rfl (.raise (.inc (.updSess (.foldl (fun _ _ h' => .rplDrop h') h)))))) (.iteOf (.raise (.inc
      (.updSess (.foldl (fun _ _ h' => .rplDrop h') h)))) fun h2 => .raise h2)) fun h2 => .restoreRoot (.bindState h2))

theorem State.Rest.rplAbort {s : State} {i code detail : Nat} (h : s.Rest Q) : (s.rplAbort i code detail).Rest Q :=
  .ite (.rplEnd (.rspEmit h)) h

theorem State.Rest.rspSend {s : State} {i : Nat} {m : RMsg} (h : s.Rest Q) : (s.rspSend i m).Rest Q := by
  unfold State.rspSend
  split
  · exact h
  · exact .ite (.rplAbort h) (.rspEmit h)

theorem State.Rest.rplMoved {s : State} {gs : Nat → Bool} (h : s.Rest Canon) : (s.rplMoved gs).Rest Canon :=
  .foldl (fun _ _ h' => .rplAbort h') h

theorem State.Rest.rspRecv {s : State} {i : Nat} {h0 : RHdr} {need : Bool} (h : s.Rest Canon) : (s.rspRecv i h0 need).2.Rest Canon := by
  unfold State.rspRecv
  split
  · exact h
  · exact .iteSnd (.rplAbort h) (.iteSnd (.rplAbort h) (.iteSnd (.rplAbort h) (.iteSnd (.rplAbort (.cphAuth h)) (.updSess (.ite
      (.cphRan h) h)))))

theorem State.Rest.rplRead {s : State} {i : Nat} {b : RBatch} {places : List Nat} (h : s.Rest Q) : (s.rplRead i b places).Rest Q := by
  unfold State.rplRead
  split
  · exact h
  · exact .foldl (fun _ _ h' => .readRec h') (.updSess h)

theorem State.Rest.rplServe {s : State} {i : Nat} {b : RBatch} (h : s.Rest Q) : (s.rplServe i b).Rest Q := by
  unfold State.rplServe
  split
  · exact h
  · exact .ite (.updSess h) (.ite (.rplRead h) (.foldl (fun _ _ h' => .rspSend h') (.updSess h)))

theorem State.Rest.rplOffer {s : State} {i : Nat} {b : RBatch} (h : s.Rest Q) : (s.rplOffer i b).Rest Q := by
  unfold State.rplOffer
  split
  · exact h
  · exact .rplServe (.rspSend (.ite (.rspSend h) h))

theorem State.Rest.rplReady {s : State} {i : Nat} {b : RBatch} (h : s.Rest Q) : (s.rplReady i b).Rest Q := by
  unfold State.rplReady
  split
  · exact h
  · exact .ite (.rplRead h) (.rplOffer h)

theorem State.Rest.rplReadDone {s : State} {i : Nat} {b : RBatch} {op : Nat} {c : IoCmd} (h : s.Rest Q) :
    (s.rplReadDone i b op c).Rest Q := by
  unfold State.rplReadDone
  dsimp only
  split
  · exact .rplAbort (.raise (.dropCmd h))
  · split
    · exact .dropCmd h
    · exact .ite (.rplServe (.iteOf (.dropCmd h) fun h2 => .dgeRan h2)) (.rplReady (.iteOf (.dropCmd h) fun h2 => .dgeRan h2))

theorem State.Rest.rplTrySeal {s : State} {i : Nat} (h : s.Rest Q) : (s.rplTrySeal i).Rest Q := by
  unfold State.rplTrySeal
  split
  · exact h
  · exact .ite (.rspSend (.updSess h)) h

theorem State.Rest.rplWantOf {s : State} {i : Nat} {b : TBatch} {op : Nat} {c : IoCmd} (h : s.Rest Q) : (s.rplWantOf i b op c).Rest Q :=
  .rspSend (.updSess (.dropCmd h))

theorem State.Rest.rplCache {s : State} {op : Nat} {c : IoCmd} {gi : Nat} {data : Bytes} {tag : Nat} (h : s.Rest Q) :
    (s.rplCache op c gi data tag).Rest Q := h

theorem State.Rest.rplFinal {s : State} {i : Nat} {e0 : RExt} (h : s.Rest Q) : (s.rplFinal i e0).Rest Q := by
  unfold State.rplFinal
  dsimp only
  split
  · exact .updSess h
  · exact .rspSend (.updSess (.updSess h))

theorem State.Rest.rplApply {s : State} {i : Nat} {e0 : RExt} (h : s.Rest Q) : (s.rplApply i e0).Rest Q := by
  unfold State.rplApply
  split
  · exact h
  · exact .ite (.rplFinal h) (.mirrorCmd (.foldl (fun _ _ h' => .ite (.lookup h') h') (.foldl (fun _ _ h' => .ite h' (.rplCache h'))
      (.updSess h))))

theorem State.Rest.rplAgain {s : State} {i : Nat} {e0 : RExt} {c : IoCmd} (h : s.Rest Q) : (s.rplAgain i e0 c).Rest Q := by
  unfold State.rplAgain
  split
  · split
    · exact h
    · exact .ite h (.rspSend (.updSess h))
  · exact h

theorem State.Rest.rplExtent {s : State} {i : Nat} {e0 : RExt} (h : s.Rest Q) : (s.rplExtent i e0).Rest Q := by
  unfold State.rplExtent
  split
  · split
    · exact .rplAbort h
    · exact .ite (.rplFinal h) (.rplAgain h)
  · split
    · exact h
    · exact .ite (.rplApply h) h

theorem State.Rest.rplSnap {s : State} {i : Nat} (h : s.Rest Q) : (s.rplSnap i).Rest Q := by
  unfold State.rplSnap
  split
  · exact h
  · exact .ite (by
      split
      · exact h
      · exact .ite (.rplAbort h) (by
          split
          · rename_i e
            have h1 := State.Rest.ofSnd (.journal h) e
            exact .event (.releaseAll (.updSess h1))
          · rename_i e
            have h1 := State.Rest.ofSnd (.journal h) e
            exact h1)) h

theorem State.Rest.rplStep {s : State} {i : Nat} (h : s.Rest Q) : (s.rplStep i).Rest Q := by
  unfold State.rplStep
  split
  · exact h
  · exact .ite (.rplEnd h) (.ite (.rplAbort h) (.rplSnap (.rplTrySeal (.foldl (fun _ _ h' => .ite (.rplExtent h') h') (.foldl
      (fun _ _ h' => by
      split
      · exact h'
      · split
        · exact h'
        · exact .ite (.rplReadDone h') h') (.foldl (fun _ _ h' => by
      split
      · exact h'
      · split
        · exact h'
        · exact .ite (.rplWantOf h') h') h))))))

theorem State.Rest.rplSettle {s : State} (h : s.Rest Q) : s.rplSettle.Rest Q :=
  .foldl (fun _ _ h' => by
    split
    · rename_i e2
      have h2 := State.Rest.ofSnd (.rootBack h') e2
      exact h2
    · rename_i e2
      have h2 := State.Rest.ofSnd (.rootBack h') e2
      exact h2) (.foldl (fun _ _ h' => .rplStep h') h)

theorem State.Rest.sendFwd {s : State} {op : Nat} (h : s.Rest Q) : (s.sendFwd op).Rest Q := by
  unfold State.sendFwd
  split
  · exact h
  · exact .foldl (fun _ _ h' => .sendC h') (.sendC (.updCmd h))

theorem State.Rest.pumpFwd {s : State} (h : s.Rest Q) : s.pumpFwd.Rest Q :=
  .ite (.foldl (fun _ _ h' => .sendFwd h') h) h

theorem State.Rest.leaveIfIdle {s : State} (h : s.Rest Q) : s.leaveIfIdle.Rest Q := by
  obtain ⟨hs, hc⟩ := h
  unfold State.leaveIfIdle
  rcases hs.mode with hg | hm
  · exact .ite (by
      split
      · exact .leave ⟨hs, hc⟩
      · exact .ite (.stopServing (.enter hg ⟨hs, hg _ _ _ hc⟩)) ⟨hs, hc⟩) ⟨hs, hc⟩
  · rw [if_neg fun h => (hm _ hc).2 h.1]
    exact ⟨hs, hc⟩

theorem State.Rest.settle {s : State} (h : s.Rest Q) : s.settle.Rest Q :=
  .rplSettle (.leaveIfIdle (.pumpFwd (.startMerges h)))

theorem keeps_execPortCfgWrite {port : Fin 16} {v : BitVec 32} {s : State} : Keeps s (execPortCfgWrite port v s) :=
  .next fun h => .settle (.portCfgWrite h)

theorem keeps_execPortLinkDown {port : Fin 16} {k : Fin 4} {s : State} : Keeps s (execPortLinkDown port k s) :=
  .next fun h => .settle (.dropLport h)

theorem keeps_execFingerprint {op g : Nat} {s : State} : Keeps s (execFingerprint op g s) := by
  unfold execFingerprint
  split
  · exact .ite (by
      split
      · exact .next fun h => .settle (.pumpGrains (.failWrite (.raise h)))
      · split
        · exact .next fun h => .settle (.lookup (.updGrain (.dgeRan h)))
        · exact .next (fun h => .settle (.pumpGrains (.failWrite (.dgeNoSlot h))))) (.next id)
  · exact .next id

theorem State.Rest.trailerDone {s : State} {op g : Nat} {fp : Option Bytes} (h : s.Rest Canon) : (s.trailerDone op g fp).Rest Canon := by
  unfold State.trailerDone
  split
  · split
    · split
      · exact .confirmHit (.raise (.inc h))
      · exact .ite (.updGrain (.incWrap (.incWrap (.cmpRan h)))) (.confirmHit (.incWrap (.incWrap (.cmpRan h))))
    · exact h
  · exact h

theorem keeps_execTrailerFetchDone {op g : Nat} {fp : Option Bytes} {s : State} : Keeps s (execTrailerFetchDone op g fp s) :=
  .next fun h => .settle (.trailerDone h)

theorem keeps_execCompressDone {op g : Nat} {blk : Bytes} {s : State} : Keeps s (execCompressDone op g blk s) := by
  unfold execCompressDone
  split
  · exact .ite (.ite (.next id) (.ite (.next (fun h => .ite (.updGrain h) h)) (.ite (.next (fun h => .updGrain (.ite h (.predict h))))
      (.next (fun h => .updGrain (.incWrap (.ite h (.predict h)))))))) (.next id)
  · exact .next id

theorem keeps_execGrainEncryptDone {op g : Nat} {s : State} : Keeps s (execGrainEncryptDone op g s) := by
  unfold execGrainEncryptDone
  split
  · exact .ite (by
      split
      · exact .next fun h => .placeGrain (.updGrain (.cphRan h))
      · exact .next (fun h => .settle (.pumpGrains (.failWrite (.cphNoSlot h))))) (.next id)
  · exact .next id

theorem keeps_execGroupStamp {op : Nat} {s : State} : Keeps s (execGroupStamp op s) :=
  .next fun h => .settle (.tryFwdDone (.groupStamp h))

theorem keeps_execHitExpiry {op : Nat} {s : State} : Keeps s (execHitExpiry op s) := by
  unfold execHitExpiry
  split
  · exact .ite (.next (fun h => .settle (.retryCmd h))) (.next id)
  · exact .next id

theorem State.Rest.commitWait {s : State} {op : Nat} (h : s.Rest Canon) : (s.commitWait op).Rest Canon := by
  unfold State.commitWait
  split
  · exact h
  · exact .ite (.tryFwdDone h) (.ite h (by
      split
      · exact .wcRelease (.dropCmd h)
      · split
        · rename_i e
          exact .ofSnd (.issue h) e
        · rename_i e
          have h1 := State.Rest.ofSnd (.issue h) e
          exact .wcRelease (.complete h1)))

theorem keeps_execCommitWaitPass {op : Nat} {s : State} : Keeps s (execCommitWaitPass op s) :=
  .next fun h => .settle (.commitWait h)

theorem State.Rest.beginGrains {s : State} {op : Nat} {gs : List Grain} (h : s.Rest Canon) : (s.beginGrains op gs).Rest Canon :=
  .settle (.mirrorCmd (.foldl (fun _ _ h' => by
    split
    · exact .ite (.beginGrain h') h'
    · exact h') (.updCmd h)))

theorem State.Rest.carryResv {s : State} {op : Nat} {c : IoCmd} (h : s.Rest Canon) : (s.carryResv op c).Rest Canon := by
  unfold State.carryResv
  dsimp only
  split
  · rename_i e
    have h1 := State.Rest.ofSnd (.resApply h) e
    exact .ite (by
      split
      · rename_i e2
        have h2 := State.Rest.ofSnd (.issue h1) e2
        exact .ovfBegin h
      · rename_i e2
        have h2 := State.Rest.ofSnd (.issue h1) e2
        exact .sendC (.dropCmd h2)) (.sendC (.dropCmd h1))
  · rename_i e
    have h1 := State.Rest.ofSnd (.resApply h) e
    exact .sendC (.dropCmd h1)

theorem State.Rest.carryOut {s : State} {op : Nat} (h : s.Rest Canon) : (s.carryOut op).Rest Canon := by
  unfold State.carryOut
  split
  · exact h
  · exact .ite h (.ite (.carryResv h) (.ite (.settle (.startReads (.updCmd h))) (.ite (.ite (.settle (.failWrite (.raise h)))
      (.beginGrains h)) (.ite (.beginGrains h) (.ite (.ite (.settle (.updCmd h)) (.beginGrains h)) (.ite (by
      split
      · exact .settle (.failWrite (.mapFail h))
      · exact .beginGrains (.updCmd h)) h))))))

theorem State.Rest.dataHere {s : State} {op : Nat} (h : s.Rest Canon) : (s.dataHere op).Rest Canon := by
  unfold State.dataHere
  split
  · exact h
  · split
    · exact .settle (by
        split
        · exact .answer (.errInfo (.dropCmd h))
        · exact .dropCmd h)
    · exact .ite (.settle (.updCmd h)) (.carryOut h)

theorem State.Rest.pumpCarry {s : State} (h : s.Rest Canon) : s.pumpCarry.Rest Canon :=
  .foldl (fun _ _ h' => .carryOut h') h

-- Lean generates no equations for this recursion, so its two cases are brought to the front by computing.
theorem State.Rest.grantR2t {s : State} {op k : Nat} (h : s.Rest Canon) : (s.grantR2t op k).Rest Canon := by
  induction k generalizing s with
  | zero =>
    conv => arg 2; whnf
    exact h
  | succ k ih =>
    conv => arg 2; whnf
    split
    · exact h
    · split
      · exact h
      · refine .ite h ?_
        split
        · exact h
        · extract_lets gen len s1 s2
          have h2 : s2.Rest Canon := .updCmd (.updConn h)
          clear_value s2
          exact ih (.hostEmit h2)

theorem State.Rest.fetchData {s : State} {op : Nat} {inCapsule : Option Bytes} (h : s.Rest Canon) : (s.fetchData op inCapsule).Rest Canon := by
  unfold State.fetchData
  split
  · exact h
  · split
    · exact .dataHere (.updCmd h)
    · dsimp only
      split
      · exact .ite (.grantR2t (.updCmd h)) (.hostEmit (.updCmd h))
      · exact .updCmd h

theorem State.Rest.placeData {s : State} {op off : Nat} {d : Bytes} (h : s.Rest Canon) : (s.placeData op off d).Rest Canon := by
  unfold State.placeData
  dsimp only
  split
  · exact .iteOf (.updCmd h) fun h2 => .dataHere h2
  · exact .updCmd h

theorem State.Rest.resTell {s : State} {op : Nat} (h : s.Rest Canon) : (s.resTell op).Rest Canon :=
  .ite (.updCmd (.sendFwd (.updCmd h))) h

theorem State.Rest.reserveNow {s : State} {op : Nat} (h : s.Rest Canon) : (s.reserveNow op).Rest Canon := by
  unfold State.reserveNow
  split
  · exact h
  · split
    · exact .dropCmd h
    · exact .ite (.complete (.hostEmit h)) (.ite (.settle (.updCmd (.updCmd h))) (by
        split
        · rename_i e
          have h1 := State.Rest.ofSnd (.resApply (.updCmd h)) e
          split
          · rename_i e2
            have h2 := State.Rest.ofSnd (.issue h1) e2
            exact .ovfBegin (.updCmd h)
          · rename_i e2
            have h2 := State.Rest.ofSnd (.issue h1) e2
            exact .settle (.resTell (.updCmd h2))
        · rename_i e
          have h1 := State.Rest.ofSnd (.resApply (.updCmd h)) e
          exact .failCmd (.updCmd h)))

theorem State.Rest.pumpResv {s : State} (h : s.Rest Canon) : s.pumpResv.Rest Canon :=
  .foldl (fun _ _ h' => .reserveNow h') h

theorem State.Rest.takeTurn {s : State} {op : Nat} (h : s.Rest Canon) : (s.takeTurn op).Rest Canon := h

theorem State.Rest.tryAdmit {s : State} {op : Nat} (h : s.Rest Canon) : (s.tryAdmit op).Rest Canon := by
  unfold State.tryAdmit
  split
  · exact h
  · exact .ite h (by
      split
      · dsimp only
        split
        · exact .answer (.dropCmd h)
        · exact .dropCmd h
      · exact .ite h (.ite (.ite (.updDyn h) h) (by
          split
          · exact .ite (.updDyn h) h
          · rename_i e
            have h1 := State.Rest.bridleTake h _ e
            exact .ite (.fetchData (.takeTurn h1)) (.ite (.settle (.updCmd (.takeTurn h1))) (.ite (.reserveNow (.takeTurn h1)) (.dataHere
                (.takeTurn h1)))))))

theorem State.Rest.admitAll {s : State} (h : s.Rest Canon) : s.admitAll.Rest Canon :=
  .foldl (fun _ _ h' => .tryAdmit h') (.pumpResv (.pumpCarry h))

theorem State.Rest.arrive {s : State} {q opc : Nat} {c : NvmeCmd} (h : s.Rest Canon) : (s.arrive q opc c).Rest Canon := by
  unfold State.arrive
  split
  · exact h
  · exact .ite h (.ite (.answer h) (by
      dsimp only
      split
      · rename_i e
        have h1 := State.Rest.check (.arrived h) _ e
        exact h1
      · exact .ite (.answer (.arrived h)) (.ite (.admitAll (.insertCmd (.arrived h))) (.tryAdmit (.insertCmd (.arrived h))))))

theorem keeps_execReadCmd {q : Nat} {c : NvmeCmd} {s : State} : Keeps s (execReadCmd q c s) :=
  .next fun h => .arrive h

theorem keeps_execWriteCmd {q : Nat} {c : NvmeCmd} {s : State} : Keeps s (execWriteCmd q c s) :=
  .next fun h => .arrive h

theorem keeps_execFlushCmd {q : Nat} {c : NvmeCmd} {s : State} : Keeps s (execFlushCmd q c s) :=
  .next fun h => .arrive h

theorem keeps_execWriteZeroes {q : Nat} {c : NvmeCmd} {s : State} : Keeps s (execWriteZeroes q c s) :=
  .next fun h => .arrive h

theorem keeps_execDatasetManagement {q : Nat} {c : NvmeCmd} {s : State} : Keeps s (execDatasetManagement q c s) :=
  .next fun h => .arrive h

theorem keeps_execCopyCmd {q : Nat} {c : NvmeCmd} {s : State} : Keeps s (execCopyCmd q c s) :=
  .next fun h => .arrive h

theorem keeps_execCompareCmd {q : Nat} {c : NvmeCmd} {s : State} : Keeps s (execCompareCmd q c s) :=
  .next fun h => .arrive h

theorem keeps_execReservationRegister {q : Nat} {c : NvmeCmd} {s : State} : Keeps s (execReservationRegister q c s) :=
  .next fun h => .arrive h

theorem keeps_execReservationAcquire {q : Nat} {c : NvmeCmd} {s : State} : Keeps s (execReservationAcquire q c s) :=
  .next fun h => .arrive h

theorem keeps_execReservationRelease {q : Nat} {c : NvmeCmd} {s : State} : Keeps s (execReservationRelease q c s) :=
  .next fun h => .arrive h

theorem keeps_execReservationReport {q : Nat} {c : NvmeCmd} {s : State} : Keeps s (execReservationReport q c s) :=
  .next fun h => .arrive h

theorem State.Rest.dropData {s : State} {q op : Nat} (h : s.Rest Canon) : (s.dropData q op).Rest Canon :=
  .updConn (.dropCmd h)

theorem State.Rest.h2cData {s : State} {q ttag off : Nat} {d : Bytes} {last : Bool} {hdgst dgst : Option (Nat × Nat)} (h : s.Rest Canon) :
    (s.h2cData q ttag off d last hdgst dgst).Rest Canon := by
  unfold State.h2cData
  split
  · exact h
  · exact .ite h (.ite (.endWith (.violate h)) (.ite (.endWith (.violate h)) (by
      split
      · exact .violate h
      · exact .ite (.endWith (.violate h)) (by
          split
          · exact .endWith (.violate h)
          · split
            · exact .violAnswer (.dropData h)
            · exact .ite (.violAnswer (.dropData h)) (.iteOf (.placeData (.updConn h)) fun h2 => .grantR2t h2)))))

theorem keeps_execH2cData {q ttag off : Nat} {d : Bytes} {last : Bool} {dgst : Option (Nat × Nat)} {s : State}
    {hdgst : Option (Nat × Nat)} : Keeps s (execH2cData q ttag off d last dgst s hdgst) :=
  .next fun h => .h2cData h

theorem keeps_execRdmaReadResponse {q cid off : Nat} {d : Bytes} {err : Option Nat} {s : State} :
    Keeps s (execRdmaReadResponse q cid off d err s) := by
  unfold execRdmaReadResponse
  split
  · exact .next id
  · split
    · exact .next fun h => .endConn (.violAnswer (.dropCmd h))
    · exact .next fun h => .placeData h

theorem keeps_execRocePacketOutOfWindow {q psn : Nat} {s : State} : Keeps s (execRocePacketOutOfWindow q psn s) := by
  unfold execRocePacketOutOfWindow
  split
  · exact .next id
  · exact .ite (.next id) (.next (fun h => .iteOf (.violate h) fun h2 => .emit h2))

theorem State.Rest.violateAt {s : State} {q xport lport vcode cid d1 d2 : Nat} (h : s.Rest Canon) :
    (s.violateAt q xport lport vcode cid d1 d2).Rest Canon := .ite (.violate h) (.sameWf rfl (.violate h))

theorem keeps_execIcreq {q : Nat} {lport : Fin 64} {hd dd : Bool} {s : State} {port : Fin 65536} :
    Keeps s (execIcreq q lport hd dd s port) :=
  .ite (.next id) (.ite (.next (fun h => .endWith (.violate h))) (.ite (.next (fun h => .endWith (.violate h))) (.next (fun h => .emit h))))

theorem keeps_execInvalidPdu {q : Nat} {lport : Fin 64} {malformed : Bool} {d1 d2 : Nat} {s : State} :
    Keeps s (execInvalidPdu q lport malformed d1 d2 s) :=
  .ite (.next (fun h => .endWith (.violate (.ite h h)))) (.next (fun h => .endWith (.violate (.ite h h))))

theorem keeps_execRdmaCmConnect {q : Nat} {lport : Fin 64} {rc : Bool} {s : State} : Keeps s (execRdmaCmConnect q lport rc s) :=
  .ite (.next id) (.ite (.next (fun h => .emit h)) (.next (fun h => .emit h)))

theorem keeps_execConnectionEnd {q : Nat} {s : State} : Keeps s (execConnectionEnd q s) :=
  .next fun h => .settle (.endConn h)

theorem keeps_execKeepAliveTimeout {cntlid : Nat} {s : State} : Keeps s (execKeepAliveTimeout cntlid s) := by
  unfold execKeepAliveTimeout
  split
  · exact .ite (.next (fun h => .settle (.endCtl h))) (.next id)
  · exact .next id

/-- Both states that taking a queue pair can answer are canonical. -/
theorem State.Rest.takePair {s : State} {h0 : Nat} (h : s.Rest Canon) : SomeRest Canon id (s.takePair h0).1 ∧ (s.takePair h0).2.Rest Canon := by
  unfold State.takePair
  split
  · exact ⟨.none, h⟩
  · split
    · exact ⟨.none, .raise h⟩
    · exact ⟨.some (.wf h), h⟩

theorem State.Rest.newCtl {s : State} {q h0 size kato : Nat} {hostId : Bytes} (h : s.Rest Canon) : (s.newCtl q h0 size kato hostId).Rest Canon := by
  obtain ⟨htook, hleft⟩ := State.Rest.takePair (h0 := h0) h
  unfold State.newCtl
  split
  · rename_i e
    exact .emit (.ofSnd hleft e)
  · rename_i e
    have h1 := htook _ (congrArg Prod.fst e)
    split
    · exact .emit (.freePair h1)
    · exact .emit (.updConn h1)

theorem State.Rest.newQueue {s : State} {q cntlid qid size : Nat} {hostId : Bytes} (h : s.Rest Canon) :
    (s.newQueue q cntlid qid size hostId).Rest Canon := by
  unfold State.newQueue
  split
  · exact .emit h
  · rename_i k _
    obtain ⟨htook, hleft⟩ := State.Rest.takePair (h0 := k.slice) h
    refine .ite (.emit h) (.ite (.emit h) ?_)
    split
    · rename_i e
      exact .emit (.ofSnd hleft e)
    · rename_i e
      exact .emit (.updConn (htook _ (congrArg Prod.fst e)))

theorem keeps_execFabricsConnect {q qid size cntlid kato : Nat} {hostId hostNqn subNqn : Bytes} {s : State} :
    Keeps s (execFabricsConnect q qid size cntlid kato hostId hostNqn subNqn s) := by
  unfold execFabricsConnect
  split
  · exact .next id
  · exact .ite (.next id) (.ite (.next (fun h => .emit h)) (.ite (by
      split
      · exact .next fun h => .emit h
      · exact .ite (.next (fun h => .emit (.staleHandle h))) (.ite (.next (fun h => .emit h)) (.next (fun h => .newCtl h)))) (.next
          (fun h => .newQueue h))))

theorem keeps_execAnnexQueueCreate {q : Nat} {pasid : Fin 1048576} {qid size : Nat} {s : State} :
    Keeps s (execAnnexQueueCreate q pasid qid size s) :=
  .ite (.next id) (.ite (.next (fun h => .emit h)) (by
    split
    · exact .next fun h => .emit h
    · exact .ite (.next (fun h => .emit (.staleHandle h))) (.ite (.next (fun h => .emit h)) (.ite (.next (fun h => .iteNot (.newCtl h)
        fun h2 => h2)) (by
        split
        · exact .next fun h => .iteNot (.newQueue h) fun h2 => h2
        · exact .next (fun h => .emit h))))))

theorem keeps_execAnnexQueueDelete {q : Nat} {s : State} : Keeps s (execAnnexQueueDelete q s) := by
  unfold execAnnexQueueDelete
  split
  · exact .ite (.next (fun h => .settle (.endConn h))) (.next id)
  · exact .next id

theorem keeps_execAnnexDoorbell {q : Nat} {pasid : Fin 1048576} {off tail : Nat} {s : State} :
    Keeps s (execAnnexDoorbell q pasid off tail s) := by
  unfold execAnnexDoorbell
  split
  · exact .ite (.next (fun h => .updConn h)) (.next (fun h => .violate h))
  · exact .next fun h => .violateAt h

theorem State.Rest.adminIn {s : State} {q opc : Nat} {c : NvmeCmd} (h : s.Rest Canon) : (s.adminIn q opc c).2.Rest Canon := by
  unfold State.adminIn
  split
  · exact .iteSnd (.answer h) (by
      dsimp only
      split
      · rename_i e
        have h1 := State.Rest.checkAdmin (.arrived h) _ e
        exact h1
      · exact .arrived h)
  · exact h

theorem keeps_execIdentifyCmd {q : Nat} {c : NvmeCmd} {s : State} : Keeps s (execIdentifyCmd q c s) := by
  unfold execIdentifyCmd
  split
  · rename_i e
    have h1 (h : s.Rest Canon) := State.Rest.ofSnd (.adminIn h) e
    exact .next h1
  · rename_i e
    have h1 (h : s.Rest Canon) := State.Rest.ofSnd (.adminIn h) e
    dsimp only
    split
    · split
      · exact .ite (.next (fun h => .answer (.hostEmit (h1 h)))) (.next (fun h => .violAnswer (h1 h)))
      · exact .next fun h => .violAnswer (h1 h)
    · exact .next fun h => .answer (.hostEmit (h1 h))
    · exact .next fun h => .answer (.hostEmit (h1 h))
    · exact .next fun h => .answer (.hostEmit (h1 h))
    · exact .next fun h => .answer (.hostEmit (h1 h))

theorem keeps_execGetLogPage {q : Nat} {c : NvmeCmd} {s : State} : Keeps s (execGetLogPage q c s) := by
  unfold execGetLogPage
  split
  · rename_i e
    have h1 (h : s.Rest Canon) := State.Rest.ofSnd (.adminIn h) e
    exact .next h1
  · rename_i e
    have h1 (h : s.Rest Canon) := State.Rest.ofSnd (.adminIn h) e
    exact .next fun h => .answer (.hostEmit (h1 h))

theorem keeps_execGetFeatures {q : Nat} {c : NvmeCmd} {s : State} : Keeps s (execGetFeatures q c s) := by
  unfold execGetFeatures
  split
  · rename_i e
    have h1 (h : s.Rest Canon) := State.Rest.ofSnd (.adminIn h) e
    exact .next h1
  · rename_i e
    have h1 (h : s.Rest Canon) := State.Rest.ofSnd (.adminIn h) e
    exact .next fun h => .hostEmit (h1 h)

theorem keeps_execSetFeatures {q : Nat} {c : NvmeCmd} {s : State} : Keeps s (execSetFeatures q c s) := by
  unfold execSetFeatures
  split
  · rename_i e
    have h1 (h : s.Rest Canon) := State.Rest.ofSnd (.adminIn h) e
    exact .next h1
  · rename_i e
    have h1 (h : s.Rest Canon) := State.Rest.ofSnd (.adminIn h) e
    exact .next fun h => .hostEmit (.updCtl (h1 h))

theorem keeps_execKeepAlive {q : Nat} {c : NvmeCmd} {s : State} : Keeps s (execKeepAlive q c s) := by
  unfold execKeepAlive
  split
  · rename_i e
    have h1 (h : s.Rest Canon) := State.Rest.ofSnd (.adminIn h) e
    exact .next h1
  · rename_i e
    have h1 (h : s.Rest Canon) := State.Rest.ofSnd (.adminIn h) e
    exact .next fun h => .answer (.updCtl (h1 h))

theorem keeps_execAbortCmd {q : Nat} {c : NvmeCmd} {s : State} : Keeps s (execAbortCmd q c s) := by
  unfold execAbortCmd
  split
  · rename_i e
    have h1 (h : s.Rest Canon) := State.Rest.ofSnd (.adminIn h) e
    exact .next h1
  · rename_i e
    have h1 (h : s.Rest Canon) := State.Rest.ofSnd (.adminIn h) e
    dsimp only
    split
    · exact .ite (.next (fun h => .settle (.hostEmit (.failCmd (h1 h))))) (.ite (.next (fun h => .hostEmit (.sendC (h1 h)))) (.next
        (fun h => .hostEmit (h1 h))))
    · exact .next fun h => .hostEmit (h1 h)

theorem keeps_execAsyncEventRequest {q : Nat} {c : NvmeCmd} {s : State} : Keeps s (execAsyncEventRequest q c s) := by
  unfold execAsyncEventRequest
  split
  · rename_i e
    have h1 (h : s.Rest Canon) := State.Rest.ofSnd (.adminIn h) e
    exact .next h1
  · rename_i e
    have h1 (h : s.Rest Canon) := State.Rest.ofSnd (.adminIn h) e
    split
    · exact .next fun h => .hostEmit (.updCtl (h1 h))
    · exact .next fun h => .updCtl (h1 h)

theorem keeps_execUnsupportedOpcode {q : Nat} {opc : Fin 256} {c : NvmeCmd} {s : State} :
    Keeps s (execUnsupportedOpcode q opc c s) := by
  unfold execUnsupportedOpcode
  split
  · exact .next id
  · refine .ite (.next id) ?_
    split
    · rename_i e
      have h1 (h : s.Rest Canon) := SomeRest.orElse (State.Rest.chkTransport h) (State.Rest.chkCid h) _ e
      exact .next h1
    · exact .next fun h => .answer h

theorem State.Rest.slmDone {s : State} {result h0 : Nat} (h : s.Rest Canon) : (s.slmDone result h0).Rest Canon := by
  unfold State.slmDone
  dsimp only
  split
  · exact .iteOf (.sameWf rfl (.wf (.wf (.wf h)))) fun h2 => .wf h2
  · exact .sameWf rfl (.wf (.wf (.wf h)))

theorem State.Rest.slmWait {s : State} {op h0 : Nat} (h : s.Rest Canon) : (s.slmWait op h0).Rest Canon :=
  .sameWf rfl (.wf h)

theorem State.Rest.slmJournal {s : State} {op h0 new : Nat} {more : List JRec} {fin : State → State}
    (Hfin : ∀ s : State, s.Rest Canon → (fin s).Rest Canon) (h : s.Rest Canon) : (s.slmJournal op h0 new more fin).Rest Canon := by
  unfold State.slmJournal
  split
  · rename_i e2
    have h2 := State.Rest.ofSnd (.journal h) e2
    exact .slmDone (Hfin _ h2)
  · rename_i e2
    have h2 := State.Rest.ofSnd (.journal h) e2
    exact .slmWait h2

theorem State.Rest.slmCreate {s : State} (h : s.Rest Canon) : s.slmCreate.Rest Canon := by
  unfold State.slmCreate
  exact .ite (.slmDone h) (by
    split
    · exact .slmDone h
    · exact .ite (.slmDone h) (.slmJournal (fun _ h1' => h1') h))

theorem State.Rest.slmReshape {s : State} {h0 : Nat} (h : s.Rest Canon) : (s.slmReshape h0).Rest Canon :=
  .ite (.slmDone h) (.ite (.slmDone h) (.ite (.slmDone h) (.ite (.slmDone h) (.ite (.slmDone h) (.slmJournal (fun _ h1' => h1') h)))))

theorem State.Rest.chainPut {s : State} {b : Bytes} (h : s.Rest Canon) : (s.chainPut b).Rest Canon :=
  .ite (.sendC h) h

theorem State.Rest.closeRecord {s : State} {i minute flags : Nat} (h : s.Rest Canon) : SomeRest Canon id (s.closeRecord i minute flags) := by
  unfold State.closeRecord
  split
  · exact .ite (.some h) (by
      split
      · rename_i e
        have h1 := State.Rest.ofSnd (.issue h) e
        exact .none
      · rename_i e
        have h1 := State.Rest.ofSnd (.issue h) e
        exact .some (.updDyn (.chainPut (.dgeRan h1))))
  · exact .some h

theorem State.Rest.resetSlice {s : State} {h0 : Nat} (h : s.Rest Canon) : (s.resetSlice h0).Rest Canon :=
  .updDyn (.foldl (fun _ _ h' => .endCtl h') h)

theorem State.Rest.closeEarly {s : State} {i : Nat} (h : s.Rest Canon) : SomeRest Canon id (s.closeEarly i) :=
  State.Rest.closeRecord h

theorem State.Rest.slmClose {s : State} {op h0 new : Nat} {fin : State → State} (Hfin : ∀ s : State, s.Rest Canon → (fin s).Rest Canon)
    (h : s.Rest Canon) : (s.slmClose op h0 new fin).Rest Canon := by
  unfold State.slmClose
  split
  · exact .slmWait (.ovfBegin h)
  · rename_i e2
    have h2 := State.Rest.closeEarly h _ e2
    split
    · rename_i e3
      have h3 := State.Rest.ofSnd (.journal h2) e3
      exact .slmDone (Hfin _ h3)
    · rename_i e3
      have h3 := State.Rest.ofSnd (.journal h2) e3
      exact .slmWait (.journal h)

theorem State.Rest.slmMove {s : State} {op h0 : Nat} {ok busy : Nat → Bool} {dest : Nat} {fin : State → State}
    (Hfin : ∀ s : State, s.Rest Canon → (fin s).Rest Canon) (h : s.Rest Canon) : (s.slmMove op h0 ok busy dest fin).Rest Canon :=
  .ite (.slmDone h) (.ite (.slmDone h) (.slmJournal Hfin h))

theorem State.Rest.slmRemove {s : State} {h0 : Nat} (h : s.Rest Canon) : (s.slmRemove h0).Rest Canon :=
  .ite (.slmDone h) (.ite (.slmDone h) (.ite (.slmDone h) (.slmClose (fun _ h1' => .resetSlice h1') h)))

theorem State.Rest.slmFreeze {s : State} {h0 : Nat} (h : s.Rest Canon) : (s.slmFreeze h0).Rest Canon :=
  .ite (.slmDone h) (.slmClose (fun _ h1' => h1') h)

theorem State.Rest.slmSave {s : State} {h0 : Nat} (h : s.Rest Canon) : (s.slmSave h0).Rest Canon :=
  .ite (.slmDone h) (by
    split
    · exact .slmDone (.cphNoSlot h)
    · exact .ite (.slmDone (.raise h)) (.ite (.slmDone h) (.slmDone (.store (.iteOf (.cphRan h) fun h2 => .raise h2)))))

theorem State.Rest.nqnPut {s : State} {e0 : Bytes} {h0 : Nat} (h : s.Rest Canon) : (s.nqnPut e0 h0).Rest Canon := by
  unfold State.nqnPut
  dsimp only
  split
  · exact .store h
  · exact h

theorem State.Rest.slmRestore {s : State} (h : s.Rest Canon) : s.slmRestore.Rest Canon := by
  unfold State.slmRestore
  dsimp only
  split
  · exact .slmDone (.ite (.cphAuth h) (.cphNoSlot h))
  · exact .ite (.slmDone (.cphRan h)) (.ite (.slmDone (.cphRan h)) (by
      split
      · exact .slmDone (.cphRan h)
      · exact .ite (.slmDone (.cphRan h)) (.slmJournal (fun _ h1' => .foldl (fun _ _ h2' => .nqnPut h2') (.ite (.updDyn h1') (.foldl
          (fun _ _ h2' => h2') (.updDyn h1')))) (.cphRan h))))

theorem State.Rest.wglStart {s : State} {h0 : Nat} (h : s.Rest Canon) : (s.wglStart h0).Rest Canon :=
  .ite (.slmDone h) (.ite (.slmDone h) (.slmDone (.updDyn h)))

theorem State.Rest.wglStop {s : State} {h0 : Nat} (h : s.Rest Canon) : (s.wglStop h0).Rest Canon :=
  .ite (.slmDone h) (.slmDone (.updDyn h))

theorem State.Rest.slmCmd {s : State} {op h0 : Nat} (h : s.Rest Canon) : (s.slmCmd op h0).Rest Canon :=
  .ite (.wf h) (.ite (.slmWait h) (.ite (.slmDone h) (.ite (.slmDone h) (.ite (.slmWait h) (.ite (.slmDone (.staleHandle h)) (.ite
      (.slmCreate h) (.ite (.slmReshape h) (.ite (.slmMove (fun _ h1' => h1') h) (.ite (.slmMove (fun _ h1' => h1') h) (.ite (.slmMove
      (fun _ h1' => .resetSlice h1') h) (.ite (.slmRemove h) (.ite (.slmFreeze h) (.ite (.slmSave h) (.ite (.slmRestore h) (.ite
      (.wglStart h) (.wglStop h))))))))))))))))

theorem State.Rest.slmRetry {s : State} (h : s.Rest Canon) : s.slmRetry.Rest Canon := by
  unfold State.slmRetry
  split
  · exact .ite h (.slmCmd h)
  · exact h

theorem keeps_execCreateCmd {s : State} : Keeps s (execCreateCmd s) := .next fun h => .slmCmd h

theorem keeps_execReshape {h0 : Fin 1048576} {s : State} : Keeps s (execReshape h0 s) :=
  .next fun h => .slmCmd h

theorem keeps_execQuiesce {h0 : Fin 1048576} {s : State} : Keeps s (execQuiesce h0 s) :=
  .next fun h => .slmCmd h

theorem keeps_execResumeCmd {h0 : Fin 1048576} {s : State} : Keeps s (execResumeCmd h0 s) :=
  .next fun h => .slmCmd h

theorem keeps_execResetCmd {h0 : Fin 1048576} {s : State} : Keeps s (execResetCmd h0 s) :=
  .next fun h => .settle (.slmCmd h)

theorem keeps_execRemoveCmd {h0 : Fin 1048576} {s : State} : Keeps s (execRemoveCmd h0 s) :=
  .next fun h => .slmCmd h

theorem keeps_execFreeze {h0 : Fin 1048576} {s : State} : Keeps s (execFreeze h0 s) :=
  .next fun h => .slmCmd h

theorem keeps_execSaveCmd {h0 : Fin 1048576} {s : State} : Keeps s (execSaveCmd h0 s) :=
  .next fun h => .slmCmd h

theorem keeps_execRestoreCmd {s : State} : Keeps s (execRestoreCmd s) := .next fun h => .slmCmd h

theorem keeps_execWglStart {h0 : Fin 1048576} {s : State} : Keeps s (execWglStart h0 s) :=
  .next fun h => .slmCmd h

theorem keeps_execWglStop {h0 : Fin 1048576} {s : State} : Keeps s (execWglStop h0 s) :=
  .next fun h => .slmCmd h

theorem keeps_execQuiesceComplete {i : Fin 4096} {s : State} : Keeps s (execQuiesceComplete i s) := by
  unfold execQuiesceComplete
  split
  · exact .next id
  · exact .ite (.next (fun h => .updDyn (.journal h))) (.next id)

theorem keeps_execResetComplete {i : Fin 4096} {s : State} {partner : Bool} : Keeps s (execResetComplete i s partner) := by
  unfold execResetComplete
  split
  · exact .next id
  · exact .ite (.next (fun h => .journal h)) (.next id)

theorem keeps_execInflight {c : CHdr} {h0 : Fin 1048576} {n : Nat} {s : State} : Keeps s (execInflight c h0 n s) := by
  unfold execInflight
  split
  · rename_i e
    have h1 (h : s.Rest Canon) := State.Rest.ofSnd (.cRecv h) e
    exact .next h1
  · rename_i e
    have h1 (h : s.Rest Canon) := State.Rest.ofSnd (.cRecv h) e
    exact .ite (.next (fun h => .ite (.updDyn (h1 h)) (h1 h))) (.next (fun h => .staleHandle (h1 h)))

theorem keeps_execBridleEpoch {s : State} : Keeps s (execBridleEpoch s) :=
  .ite (.next id) (.next (fun h => .settle (.admitAll (.epochGrant (.ite h h)))))

theorem keeps_execPartner1msExchange {s : State} : Keeps s (execPartner1msExchange s) :=
  .ite (.next id) (.next (fun h => .sameWf rfl (.ite (.sendC (.sendC h)) (.foldl (fun _ _ h' => .sendC h') (.sendC (.sendC h))))))

theorem State.Rest.demandOne {s : State} {e0 : Nat × Nat × Nat} (h : s.Rest Canon) : (s.demandOne e0).Rest Canon :=
  .ite (.updDyn h) (.staleHandle h)

theorem State.Rest.meterOne {s : State} {e0 : Nat × Bytes} (h : s.Rest Canon) : (s.meterOne e0).Rest Canon :=
  .ite (.updDyn h) (.staleHandle h)

theorem keeps_execDemand {c : CHdr} {es : List (Nat × Nat × Nat)} {s : State} : Keeps s (execDemand c es s) := by
  unfold execDemand
  split
  · rename_i e
    have h1 (h : s.Rest Canon) := State.Rest.ofSnd (.cRecv h) e
    exact .next h1
  · rename_i e
    have h1 (h : s.Rest Canon) := State.Rest.ofSnd (.cRecv h) e
    exact .next fun h => .foldl (fun _ _ h2' => .demandOne h2') (h1 h)

theorem keeps_execMeterCnt {c : CHdr} {final : Bool} {es : List (Nat × Bytes)} {s : State} : Keeps s (execMeterCnt c final es s) := by
  unfold execMeterCnt
  split
  · rename_i e
    have h1 (h : s.Rest Canon) := State.Rest.ofSnd (.cRecv h) e
    exact .next h1
  · rename_i e
    have h1 (h : s.Rest Canon) := State.Rest.ofSnd (.cRecv h) e
    exact .next fun h => .iteOf (.foldl (fun _ _ h2' => .meterOne h2') (h1 h)) fun h3 => h3

theorem State.Rest.minuteOther {s : State} (h : s.Rest Canon) : s.minuteOther.Rest Canon := h

/-- Closing the records of several slices in turn. -/
theorem State.Rest.closeRecords {l : List Nat} {m flags : Nat} {o : Option State} (ho : SomeRest Canon id o) :
    SomeRest Canon id (l.foldl (fun (o : Option State) i => o.bind (fun s => s.closeRecord i m flags)) o) := by
  induction l generalizing o with
  | nil => exact ho
  | cons i l ih =>
    refine ih ?_
    cases o with
    | none => exact .none
    | some t => exact State.Rest.closeRecord (ho t rfl)

theorem keeps_execMinuteClose {s : State} : Keeps s (execMinuteClose s) := by
  unfold execMinuteClose
  refine .ite (.next id) (.ite (.next fun h => .minuteOther h) (.ite (.next id) ?_))
  dsimp only
  split
  · rename_i e
    have h1 (h : s.Rest Canon) := State.Rest.closeRecords (.some h) _ e
    exact .next h1
  · exact .next fun h => .ovfBegin h

theorem State.Rest.publish {s : State} {k : Nat} (h : s.Rest Canon) : (s.publish k).Rest Canon := by
  induction k generalizing s with
  | zero => exact h
  | succ k ih =>
    unfold State.publish
    split
    · exact .ite (ih (.iteOf (.iteOf (.wf (.store h)) fun h => .event h) fun h => .raise h)) h
    · exact h

theorem keeps_execMeterPublish {seq : Nat} {s : State} : Keeps s (execMeterPublish seq s) :=
  .next fun h => .ite (.publish h) h

theorem keeps_execMeterAck {c : CHdr} {seq : Nat} {s : State} : Keeps s (execMeterAck c seq s) := by
  unfold execMeterAck
  split
  · rename_i e
    have h1 (h : s.Rest Canon) := State.Rest.ofSnd (.cRecv h) e
    exact .next h1
  · rename_i e
    have h1 (h : s.Rest Canon) := State.Rest.ofSnd (.cRecv h) e
    exact .next fun h => .publish (h1 h)

theorem keeps_execMeterRec {c : CHdr} {n : Nat} {b : Bytes} {s : State} : Keeps s (execMeterRec c n b s) := by
  unfold execMeterRec
  split
  · rename_i e
    have h1 (h : s.Rest Canon) := State.Rest.ofSnd (.cRecv h) e
    exact .next h1
  · rename_i e
    have h1 (h : s.Rest Canon) := State.Rest.ofSnd (.cRecv h) e
    exact .ite (.next (fun h => .staleHandle (h1 h))) (.ite (.next (fun h => .sendC (.updDyn (h1 h)))) (.next (fun h => .sendC (h1 h))))

theorem keeps_execAttributionSweep {s : State} : Keeps s (execAttributionSweep s) :=
  .ite (.next id) (.next id)

end Sys2Proof.Machine
end

section
/-! SUPPORT for O56 and O57. The invariant (logs 6 and 10) through
media: segments, relocation, snapshots, rebuilding, VAULT, and the links and bridges of the modules.
Each lemma repeats the shape of the definition whose name it bears. -/
namespace Sys2Proof.Machine
open Sys2Proof Sys2Proof.Laws

variable {Q : RestPart → Prop}

theorem State.Rest.metaPut {s : State} {w : Nat × Nat × Bool × Bytes} (h : s.Rest Canon) : (s.metaPut w).Rest Canon := by
  unfold State.metaPut
  dsimp only
  split
  · exact h
  · exact .ite h (by
      split
      · rename_i e
        have h1 := State.Rest.ofSnd (.issue h) e
        exact h1
      · rename_i e
        have h1 := State.Rest.ofSnd (.issue h) e
        exact .jProgram (.setBlk h1))

theorem State.Rest.metaFlush {s : State} (h : s.Rest Canon) : s.metaFlush.Rest Canon :=
  .foldl (fun _ _ h' => .metaPut h') h

theorem State.Rest.metaProgram {s : State} {m die : Nat} {last : Bool} {b : Bytes} (h : s.Rest Canon) : (s.metaProgram m die last b).Rest Canon :=
  .metaFlush h

theorem State.Rest.sumBlock {s : State} {m die block : Nat} (h : s.Rest Canon) : (s.sumBlock m die block).Rest Canon :=
  .ite (.metaProgram (.setBlk h)) h

theorem State.Rest.takeWl {s : State} {m die : Nat} {qlc : Bool} (h : s.Rest Canon) : SomeRest Canon (·.2.2) (s.takeWl m die qlc) := by
  unfold State.takeWl
  split
  · exact .none
  · exact .some (.setBlk h)

theorem State.Rest.placeUnit {s : State} {m : Nat} {qlc ballast : Bool} (h : s.Rest Canon) :
    SomeRest Canon (·.2.2.2) (s.placeUnit m qlc ballast) := by
  unfold State.placeUnit
  dsimp only
  split
  · exact .none
  · split
    · rename_i e
      have h1 := State.Rest.takeWl h _ e
      exact .some h1
    · exact .none

theorem State.Rest.progUnit {s : State} {m seg unit : Nat} {tiles : List Bytes} {ballast : Bool} {why : Why} (h : s.Rest Canon) :
    SomeRest Canon Prod.snd (s.progUnit m seg unit tiles ballast why) := by
  unfold State.progUnit
  refine .ite (.some h) ?_
  split
  · exact .none
  · rename_i e
    have h1 := State.Rest.placeUnit h _ e
    split
    · exact .some (.ovfBegin h)
    · rename_i e1
      have h2 := State.Rest.ofSnd (.issue h1) e1
      refine .some ?_
      dsimp only
      exact .jProgram h2

theorem State.Rest.ptClear {s : State} {m seg : Nat} (h : s.Rest Canon) : (s.ptClear m seg).Rest Canon :=
  .ptSet h

theorem State.Rest.unitGone {s : State} {seg unit : Nat} (h : s.Rest Canon) : (s.unitGone seg unit).Rest Canon :=
  h

theorem State.Rest.issueUnit {s : State} {seg : Nat} {home : Option Nat} {tile : List Bytes} {k : Nat} (h : s.Rest Canon) :
    (s.issueUnit seg home tile k).Rest Canon := by
  unfold State.issueUnit
  split
  · exact h
  · exact .ite h (by
      split
      · exact .ite (.unitGone h) (by
          split
          · rename_i e
            have h1 := State.Rest.progUnit h _ e
            exact h1
          · exact .unitGone h)
      · exact .unitGone h)

theorem State.Rest.issueUnits {s : State} {seg : Nat} (h : s.Rest Canon) : (s.issueUnits seg).Rest Canon := by
  unfold State.issueUnits
  split
  · exact h
  · exact .ite h (.foldl (fun _ _ h' => .issueUnit h') h)

theorem State.Rest.pumpSegs {s : State} (h : s.Rest Canon) : s.pumpSegs.Rest Canon :=
  .foldl (fun _ _ h' => .issueUnits h') h

theorem State.Rest.closeSeg {s : State} {seg : Nat} (h : s.Rest Canon) : (s.closeSeg seg).Rest Canon :=
  .issueUnits h

theorem State.Rest.chunkSeg {s : State} {seg pool row : Nat} (h : s.Rest Canon) : (s.chunkSeg seg pool row).Rest Canon := by
  unfold State.chunkSeg
  split
  · exact h
  · exact .ite h (by
      split
      · rename_i e
        exact .ofSnd (.journal h) e
      · rename_i e
        have h1 := State.Rest.ofSnd (.journal h) e
        exact .issueUnits h1)

theorem State.Rest.dirQueue {s : State} (h : s.Rest Canon) : s.dirQueue.Rest Canon := .ite h h

theorem State.Rest.ckptPump {s : State} (h : s.Rest Canon) : s.ckptPump.Rest Canon :=
  .foldl (fun _ _ h' => .ite (by
    split
    · exact .chunkSeg h'
    · exact h') h') (.dirQueue h)

theorem State.Rest.chunkValid {s : State} {seg : Nat} (h : s.Rest Canon) : (s.chunkValid seg).Rest Canon :=
  .setSeg h

theorem State.Rest.chunksDone {s : State} {seg : Nat} {ok : Bool} (h : s.Rest Canon) : (s.chunksDone seg ok).Rest Canon := by
  unfold State.chunksDone
  split
  · exact h
  · exact .ite (.chunkValid h) (.raise (.chunkQueue h))

theorem State.Rest.chunkRelease {s : State} (h : s.Rest Canon) : s.chunkRelease.Rest Canon :=
  .foldl (fun _ _ h' => .ite (.chunkValid h') (.journal (.chunkValid h'))) h

theorem State.Rest.chunkMove {s : State} {seg : Nat} {f : Nat → Nat} (h : s.Rest Canon) : (s.chunkMove seg f).Rest Canon :=
  h

theorem State.Rest.replace {s : State} {seg : Nat} {recs : List Placed} (h : s.Rest Canon) : (s.replace seg recs).Rest Canon :=
  .foldl (fun _ _ h' => by
    dsimp only
    split
    · rename_i e2
      have h2 := State.Rest.placePool h' _ e2
      exact h2
    · exact h') h

theorem State.Rest.replaceStray {s : State} (h : s.Rest Canon) : s.replaceStray.Rest Canon :=
  .foldl (fun _ _ h' => .replace h') h

theorem keeps_execSegmentOpen {seg : Fin 33554432} {pool : Fin 4} {row : Fin 4096} {s : State} {away : BitVec 64} :
    Keeps s (execSegmentOpen seg pool row s away) := by
  unfold execSegmentOpen
  extract_lets _ s0
  have h0 (h : s.Rest Canon) : s0.Rest Canon := h
  clear_value s0
  split
  · exact .next h0
  · refine .ite (.next fun h => .chunkSeg (h0 h)) (.ite ?_ (.next fun h => .iteOf (h0 h) fun h => .raise h))
    split
    · rename_i e
      have h1 (h : s.Rest Canon) := State.Rest.ofSnd (.journal (h0 h)) e
      exact .next fun h => .pumpPlace (.replaceStray (h1 h))
    · rename_i e
      have h1 (h : s.Rest Canon) := State.Rest.ofSnd (.journal (h0 h)) e
      exact .next h1

theorem keeps_execSegmentSeal {seg : Fin 33554432} {s : State} : Keeps s (execSegmentSeal seg s) := by
  unfold execSegmentSeal
  split
  · exact .next id
  · exact .ite (.next (fun h => .closeSeg h)) (.next id)

theorem State.Rest.dropReloc {s : State} {seg : Nat} (h : s.Rest Canon) : (s.dropReloc seg).Rest Canon := h

theorem State.Rest.tileSpots {s : State} {h0 : List Nat} (h : s.Rest Canon) : (s.tileSpots h0).2.Rest Canon :=
  .foldlP (fun _ _ h' => by
    split
    · rename_i e2
      have h2 := State.Rest.placeUnit h' _ e2
      exact h2
    · exact h') h

theorem State.Rest.sumSpots {s : State} {l : List (Nat × Nat × Nat × Nat)} (h : s.Rest Canon) : (s.sumSpots l).Rest Canon :=
  .foldl (fun _ _ h' => .sumBlock h') h

theorem State.Rest.beginTile {s : State} {l : Nat} (h : s.Rest Canon) : (s.beginTile l).Rest Canon := by
  unfold State.beginTile
  dsimp only
  split
  · rename_i e
    exact .ofSnd (.journal h) e
  · rename_i e
    have h1 := State.Rest.ofSnd (.journal h) e
    exact .ite (.sumSpots (.setLane (.iteOf (.setSeg (.tileSpots h1)) fun h3 => .raise h3))) (by
      split
      · rename_i e2
        have h2 := State.Rest.ofSnd (.issueAbove (.iteNot (.sumSpots (.setLane (.iteOf (.setSeg (.tileSpots h1)) fun h3 => .raise h3)))
            fun h3 => .raise (.inc h3))) e2
        exact .enqueue (by
          split
          · rename_i e3
            have h3 := State.Rest.applyRec h2 _ e3
            exact h3
          · exact h2)
      · rename_i e2
        have h2 := State.Rest.ofSnd (.issueAbove (.iteNot (.sumSpots (.setLane (.iteOf (.setSeg (.tileSpots h1)) fun h3 => .raise h3)))
            fun h3 => .raise (.inc h3))) e2
        exact h2)

theorem State.Rest.progTilePage {s : State} {seg kind p c : Nat} {spot : Nat × Nat × Nat × Nat} {o : Ostamp} {body : Bytes}
    {why : Why} (h : s.Rest Canon) : (s.progTilePage seg kind p c spot o body why).Rest Canon := by
  unfold State.progTilePage
  exact .jReq h

theorem State.Rest.programLanePage {s : State} {l : Nat} (h : s.Rest Canon) : (s.programLanePage l).Rest Canon := by
  unfold State.programLanePage
  dsimp only
  split
  · rename_i e
    exact .ofSnd (.issueAll h) e
  · rename_i e
    have h1 := State.Rest.ofSnd (.issueAll h) e
    exact .foldl (fun _ _ h2' => .progTilePage h2') (.setLane h1)

theorem State.Rest.setMlog {s : State} {x : MLog} (h : s.Rest Canon) : (s.setMlog x).Rest Canon := h

theorem State.Rest.beginMeterTile {s : State} (h : s.Rest Canon) : s.beginMeterTile.Rest Canon := by
  unfold State.beginMeterTile
  dsimp only
  split
  · rename_i e
    exact .ofSnd (.journal h) e
  · rename_i e
    have h1 := State.Rest.ofSnd (.journal h) e
    exact .sumSpots (.setMlog (.iteOf (.setSeg (.tileSpots h1)) fun h3 => .raise h3))

theorem State.Rest.programMeterPage {s : State} (h : s.Rest Canon) : s.programMeterPage.Rest Canon := by
  unfold State.programMeterPage
  dsimp only
  split
  · rename_i e
    exact .ofSnd (.issueAll h) e
  · rename_i e
    have h1 := State.Rest.ofSnd (.issueAll h) e
    exact .foldl (fun _ _ h2' => .progTilePage h2') h1

theorem State.Rest.meterFlush {s : State} (h : s.Rest Canon) : s.meterFlush.Rest Canon :=
  .ite (.ite (.programMeterPage h) h) (.ite (.iteOf (.beginMeterTile h) fun h2 => .programMeterPage h2) h)

theorem State.Rest.meterAnswer {s : State} {m num : Nat} {ok : Bool} (h : s.Rest Canon) : (s.meterAnswer m num ok).Rest Canon := by
  unfold State.meterAnswer
  dsimp only
  split
  · exact h
  · exact .ite (.ite (.setMlog h) (.ite (.journal h) h)) (.ite (.setMlog h) h)

theorem keeps_execLanePageFlush {lane : Fin 32} {s : State} : Keeps s (execLanePageFlush lane s) :=
  .ite (.next (fun h => .ite (.meterFlush h) h)) (.ite (.next (fun h => .iteOf (.ite (.meterFlush h) h) fun h2 => .programLanePage h2))
      (.ite (.next (fun h => .iteOf (.beginTile (.ite (.meterFlush h) h)) fun h2 => .programLanePage h2)) (.next (fun h => .ite
      (.meterFlush h) h))))

theorem State.Rest.pageDurable {s : State} {l k : Nat} (h : s.Rest Canon) : (s.pageDurable l k).Rest Canon := by
  induction k generalizing s with
  | zero => exact h
  | succ k ih =>
    unfold State.pageDurable
    extract_lets x
    split
    · exact .ite h (ih (.iteOf h fun h => .journal h))
    · exact h

theorem keeps_execLanePageDurable {lane : Fin 32} {s : State} : Keeps s (execLanePageDurable lane s) :=
  .next fun h => .pumpSegs (.pageDurable h)

theorem keeps_execLaneHorizonAdvance {lane : Fin 32} {s : State} : Keeps s (execLaneHorizonAdvance lane s) :=
  .ite (.next id) (.next (fun h => .sendC (.setLane (.ite (.issued h) h))))

theorem State.Rest.segTo {s : State} {n st : Nat} (h : s.Rest Canon) : (s.segTo n st).Rest Canon := .journal h

theorem State.Rest.retireIfDrained {s : State} {n : Nat} (h : s.Rest Canon) : (s.retireIfDrained n).Rest Canon :=
  .ite (by
    split
    · rename_i e
      have h1 := State.Rest.ofSnd (.journal h) e
      exact .raise (.inc h1)
    · rename_i e
      have h1 := State.Rest.ofSnd (.journal h) e
      exact h1) (.ite (.segTo h) h)

theorem State.Rest.chunkAgain {s : State} {n : Nat} (h : s.Rest Canon) : (s.chunkAgain n).Rest Canon :=
  .ckptPump (.chunkValid (.chunkQueue h))

theorem keeps_execGcStart {seg : Fin 33554432} {recs : List Placed} {s : State} : Keeps s (execGcStart seg recs s) :=
  .ite (.next id) (.ite (.next (fun h => .retireIfDrained (.chunkAgain (.ite h (.segTo h))))) (.ite (.next (fun h => .retireIfDrained
      (.replace (.ite h (.segTo h))))) (.next (fun h => .ite h (.segTo h)))))

theorem keeps_execGcRelocateCommit {seg : Fin 33554432} {s : State} : Keeps s (execGcRelocateCommit seg s) :=
  .ite (.next id) (.next (fun h => .settle (.wcRelease (.foldl (fun _ _ h' => .retireIfDrained h') (.foldl (fun _ _ h' => .ite (by
    split
    · rename_i e2
      have h2 := State.Rest.ofSnd (.journal h') e2
      exact .sameWf rfl (.incWrap h2)
    · rename_i e2
      have h2 := State.Rest.ofSnd (.journal h') e2
      exact h2) (.sameWf rfl (.inc h'))) h)))))

theorem keeps_execFoldStart {q0 q1 q2 q3 new : Fin 33554432} {got : List (Nat × Bytes)} {s : State} :
    Keeps s (execFoldStart q0 q1 q2 q3 new got s) :=
  .ite (.next id) (.ite (.next (fun h => .inc (.foldl (fun _ _ h' => by
    split
    · exact .ptClear h'
    · exact h') h))) (by
    split
    · rename_i e
      have h1 (h : s.Rest Canon) := State.Rest.ofSnd (.journal h) e
      exact .next h1
    · rename_i e
      have h1 (h : s.Rest Canon) := State.Rest.ofSnd (.journal h) e
      exact .next (fun h => .pumpSegs (.sameWf rfl (.foldl (fun _ _ h2' => .setSeg h2') (.setSeg (h1 h)))))))

theorem State.Rest.foldAbort {s : State} {n absent : Nat} (h : s.Rest Canon) : (s.foldAbort n absent).Rest Canon := by
  unfold State.foldAbort
  dsimp only
  split
  · rename_i e
    exact .ofSnd (.journal h) e
  · rename_i e
    have h1 := State.Rest.ofSnd (.journal h) e
    exact .iteOf (.inc (.foldl (fun _ _ h2' => .setSeg h2') h1)) fun h3 => .retireIfDrained (.segTo h3)

theorem State.Rest.foldMoves {s : State} {n src q : Nat} (h : s.Rest Canon) : (s.foldMoves n src q).Rest Canon :=
  .foldl (fun _ _ h' => by
    split
    · rename_i e2
      have h2 := State.Rest.ofSnd (.journal h') e2
      exact .incWrap h2
    · rename_i e2
      have h2 := State.Rest.ofSnd (.journal h') e2
      exact h2) h

theorem State.Rest.foldSeal {s : State} {n : Nat} (h : s.Rest Canon) : (s.foldSeal n).Rest Canon := by
  unfold State.foldSeal
  dsimp only
  split
  · rename_i e
    exact .ofSnd (.journal h) e
  · rename_i e
    have h1 := State.Rest.ofSnd (.journal h) e
    exact .foldl (fun _ _ h2' => .foldMoves h2') (.ite (.foldl (fun _ _ h2' => .chunkValid h2') (.foldl (fun _ _ h2' => .chunkMove h2')
        (.incWrap h1))) (.foldl (fun _ _ h2' => .chunkMove h2') (.incWrap h1)))

theorem keeps_execFoldUnitsDurable {seg : Fin 33554432} {s : State} : Keeps s (execFoldUnitsDurable seg s) := by
  unfold execFoldUnitsDurable
  dsimp only
  split
  · exact .next id
  · exact .ite (.next id) (.ite (.next (fun h => .foldAbort h)) (.next (fun h => .foldSeal h)))

theorem keeps_execFoldRetireSource {seg : Fin 33554432} {s : State} : Keeps s (execFoldRetireSource seg s) :=
  .ite (.next id) (.next (fun h => .iteOf (.iteOf (.foldMoves h) fun h2 => .chunkValid h2) fun h2 => .segTo h2))

theorem keeps_execBlockEraseIssue {m die : Fin 64} {block : Fin 8192} {s : State} : Keeps s (execBlockEraseIssue m die block s) :=
  .ite (by
    split
    · rename_i e
      have h1 (h : s.Rest Canon) := State.Rest.ofSnd (.issue h) e
      exact .next h1
    · rename_i e
      have h1 (h : s.Rest Canon) := State.Rest.ofSnd (.issue h) e
      exact .next (fun h => .jReq (.setBlk (h1 h)))) (.next id)

theorem State.Rest.erasedBlk {s : State} {m die block : Nat} (h : s.Rest Canon) : (s.erasedBlk m die block).Rest Canon :=
  .foldl (fun _ _ h' => .ite (.segTo h') h') (.iteOf (.incWrap (.ptSet (.setBlk h))) fun h2 => .inc h2)

theorem keeps_execPageMove {m : Fin 64} {seg : Fin 33554432} {got : List (Nat × Bytes)} {s : State} :
    Keeps s (execPageMove m seg got s) := by
  unfold execPageMove
  dsimp only
  split
  · exact .next id
  · exact .ite (.next (fun h => by
      split
      · rename_i e
        have h1 := State.Rest.progUnit h _ e
        exact h1
      · exact h)) (.next id)

theorem keeps_execPatrolRead {m : Fin 64} {seg : Fin 33554432} {tile plane : Fin 4} {ok : Bool} {s : State} :
    Keeps s (execPatrolRead m seg tile plane ok s) := by
  unfold execPatrolRead
  extract_lets e x last due s1 _ s2
  refine .ite ?_ (.next id)
  have h1 (h : s.Rest Canon) : s1.Rest Canon := .noteRead h
  clear_value s1
  exact .next fun h => .iteNot (s := s2) (h1 h) fun h => .raise (.ptClear (.inc h))

theorem State.Rest.writeDieRecord {s : State} {m die : Nat} (h : s.Rest Canon) : (s.writeDieRecord m die).Rest Canon :=
  .sameWf rfl (.metaProgram (.metaProgram h))

theorem keeps_execDieRecordWrite {m die : Fin 64} {s : State} : Keeps s (execDieRecordWrite m die s) :=
  .ite (.next (fun h => .writeDieRecord h)) (.next id)

theorem State.Rest.dieFailed {s : State} {m die : Nat} (h : s.Rest Canon) : (s.dieFailed m die).Rest Canon := by
  unfold State.dieFailed
  split
  · exact h
  · exact .ite h (.iteOf (.foldl (fun _ _ h' => .writeDieRecord h') (.raise h)) fun h2 => .raise h2)

theorem State.Rest.badBlock {s : State} {m die block : Nat} (h : s.Rest Canon) : (s.badBlock m die block).Rest Canon :=
  .iteOf (.setBlk h) fun h2 => .dieFailed h2

theorem keeps_execPinRecord {cid : Fin 274877906944} {s : State} : Keeps s (execPinRecord cid s) :=
  .ite (.next id) (.ite (.next id) (.ite (.next id) (by
    split
    · rename_i e
      have h1 (h : s.Rest Canon) := State.Rest.ofSnd (.journal h) e
      exact .next h1
    · rename_i e
      have h1 (h : s.Rest Canon) := State.Rest.ofSnd (.journal h) e
      exact .next h1)))

theorem keeps_execCtFreeIssue {cid : Fin 274877906944} {s : State} : Keeps s (execCtFreeIssue cid s) := by
  unfold execCtFreeIssue
  dsimp only
  split
  · exact .next id
  · exact .ite (.next id) (by
      split
      · rename_i e
        have h1 (h : s.Rest Canon) := State.Rest.ofSnd (.journal h) e
        exact .next fun h => .incWrap (h1 h)
      · rename_i e
        have h1 (h : s.Rest Canon) := State.Rest.ofSnd (.journal h) e
        exact .next h1)

theorem State.Rest.snapDone {s : State} {result : Nat} (h : s.Rest Canon) : (s.snapDone result).Rest Canon :=
  .sameWf rfl (.wf (.wf h))

theorem State.Rest.snapGo {s : State} {op ns epoch : Nat} (h : s.Rest Canon) : (s.snapGo op ns epoch).Rest Canon :=
  .ite (.snapDone h) (by
    split
    · exact h
    · exact .ite (.sameWf rfl (.wf h)) (by
        split
        · rename_i e
          have h1 := State.Rest.ofSnd (.journal h) e
          exact .releaseAll (.snapDone h1)
        · rename_i e
          have h1 := State.Rest.ofSnd (.journal h) e
          exact .sameWf rfl (.wf h1)))

theorem State.Rest.snapCmd {s : State} {op ns : Nat} (h : s.Rest Canon) : (s.snapCmd op ns).Rest Canon :=
  .ite (.wf h) (.ite (.ite (.snapGo h) (.sameWf rfl (.wf h))) h)

theorem State.Rest.snapRetry {s : State} (h : s.Rest Canon) : s.snapRetry.Rest Canon := by
  unfold State.snapRetry
  split
  · exact .ite h (.snapGo h)
  · exact h

theorem keeps_execSnapCreate {ns : Fin 65536} {s : State} : Keeps s (execSnapCreate ns s) :=
  .next fun h => .snapCmd h

theorem keeps_execSnapDelete {ns : Fin 65536} {s : State} : Keeps s (execSnapDelete ns s) :=
  .next fun h => .snapCmd h

theorem State.Rest.replaceRoot {s : State} {ns e0 : Nat} (h : s.Rest Canon) : (s.replaceRoot ns e0).Rest Canon := by
  unfold State.replaceRoot
  split <;> exact h

theorem State.Rest.replacePage {s : State} {ns pix : Nat} {ents : AMap Nat} (h : s.Rest Canon) : (s.replacePage ns pix ents).Rest Canon := by
  unfold State.replacePage
  split
  · split
    · exact .putPage h
    · exact h
  · exact .ite (.replaceRoot h) h
  · exact h

theorem keeps_execPageReq {h0 : CHdr} {ns : Fin 65536} {pix : Fin 281474976710656} {s : State} :
    Keeps s (execPageReq h0 ns pix s) := by
  unfold execPageReq
  split
  · rename_i e
    have h1 (h : s.Rest Canon) := State.Rest.ofSnd (.cRecv h) e
    exact .next h1
  · rename_i e
    have h1 (h : s.Rest Canon) := State.Rest.ofSnd (.cRecv h) e
    exact .next fun h => .sendC (h1 h)

theorem keeps_execPageRsp {h0 : CHdr} {ns : Fin 65536} {pix : Fin 281474976710656} {status : Fin 256} {ents : List (Nat × Nat)}
    {s : State} : Keeps s (execPageRsp h0 ns pix status ents s) := by
  unfold execPageRsp
  split
  · rename_i e
    have h1 (h : s.Rest Canon) := State.Rest.ofSnd (.cAnswer h) e
    exact .next h1
  · rename_i e
    have h1 (h : s.Rest Canon) := State.Rest.ofSnd (.cAnswer h) e
    exact .next fun h => .ite (.replacePage (h1 h)) (h1 h)

theorem keeps_execMapPageRebuildDone {ns : Fin 65536} {pix : Fin 281474976710656} {s : State} :
    Keeps s (execMapPageRebuildDone ns pix s) := .ite (.next (fun h => .replacePage h)) (.next id)

theorem State.Rest.ckptStart {s : State} (h : s.Rest Canon) : s.ckptStart.Rest Canon :=
  .ite h (.ckptPump (.sameWf rfl (.wf (.chunkQueue h))))

theorem keeps_execCheckpointStart {s : State} : Keeps s (execCheckpointStart s) :=
  .ite (.next (fun h => .ckptPump h)) (.ite (.next (fun h => .ckptStart h)) (.next id))

theorem State.Rest.ckptAdopt {s : State} {n c : Nat} {dir : AMap (Nat × Nat)} (h : s.Rest Canon) : (s.ckptAdopt n c dir).Rest Canon :=
  .chunkRelease (.foldl (fun _ _ h' => .ite (.segTo h') h') (.sameWf rfl (.wf h)))

theorem State.Rest.unholdGroups {s : State} (h : s.Rest Canon) : s.unholdGroups.Rest Canon :=
  .foldl (fun _ _ h' => by
    split
    · rename_i e2
      have h2 := State.Rest.applyGroup h' _ e2
      exact h2
    · exact h') h

theorem keeps_execCheckpointComplete {ok : Bool} {s : State} : Keeps s (execCheckpointComplete ok s) := by
  unfold execCheckpointComplete
  split
  · exact .next id
  · exact .ite (.next (fun h => .ckptPump h)) (.ite (.next id) (by
      split
      · rename_i e
        have h1 (h : s.Rest Canon) := State.Rest.ofSnd (.journal h) e
        exact .next h1
      · rename_i e
        have h1 (h : s.Rest Canon) := State.Rest.ofSnd (.journal h) e
        exact .next (fun h => .ckptAdopt (.unholdGroups (.sameWf rfl (.wf (h1 h)))))))

theorem keeps_execNamespaceManagement {ns : Fin 65536} {desc : BitVec 128} {viewEpoch : Fin 4294967296} {s : State} :
    Keeps s (execNamespaceManagement ns desc viewEpoch s) :=
  .ite (.next id) (by
    split
    · rename_i e
      have h1 (h : s.Rest Canon) := State.Rest.ofSnd (.journal h) e
      exact .next h1
    · rename_i e
      have h1 (h : s.Rest Canon) := State.Rest.ofSnd (.journal h) e
      exact .next (fun h => .releaseAll (.ite (h1 h) (h1 h))))

theorem State.Rest.buildBase {s : State} {gen d mask k : Nat} (h : s.Rest Canon) : (s.buildBase gen d mask k).2.Rest Canon := by
  induction k generalizing s with
  | zero => exact h
  | succ k ih =>
    unfold State.buildBase
    exact .iteSnd h (ih (.draw h))

theorem State.Rest.setVaultBlk {s : State} (h : s.Rest Canon) : s.setVaultBlk.Rest Canon := by
  unfold State.setVaultBlk
  split
  · exact .ite h (.wf h)
  · exact h

theorem State.Rest.newMembers {s : State} {members new_ : Nat} (h : s.Rest Canon) : (s.newMembers members new_).Rest Canon :=
  .foldl (fun _ _ h' => h') h

theorem State.Rest.retireEnd {s : State} {module : Nat} {was now_ : Pool} (h : s.Rest Canon) : (s.retireEnd module was now_).Rest Canon :=
  .iteOf (.raise h) fun h2 => .raise h2

theorem State.Rest.layAfter {s : State} {j : LayJob} {was : Option Pool} (h : s.Rest Canon) : (s.layAfter j was).Rest Canon := by
  unfold State.layAfter
  extract_lets members s1
  have h1 : s1.Rest Canon := .newMembers (.setVaultBlk h)
  clear_value s1
  refine .ite h1 (.ite (.newMembers (.setVaultBlk h)) (.ite ?_ (.iteOf h fun h => .setVaultBlk h)))
  split
  · exact .retireEnd h
  · exact h

theorem State.Rest.layEnd {s : State} {j : LayJob} (h : s.Rest Canon) : SomeRest Canon id (s.layEnd j) := by
  have hmaps (m) : State.Rest Canon { s with maps := m } := h
  unfold State.layEnd
  extract_lets was
  split
  · rename_i e
    have h1 := State.Rest.layAfter (j := j) (was := was) (.ofSnd (.journal (hmaps _)) e)
    exact .some (.iteOf h1 fun h => .chunkQueue h)
  · exact .none

theorem State.Rest.layResult {s : State} {code : Nat} (h : s.Rest Canon) : (s.layResult code).Rest Canon :=
  .iteNot (.sameWf rfl (.wf (.wf h))) fun h2 => .raise h2

theorem State.Rest.layStep {s : State} (h : s.Rest Canon) : s.layStep.Rest Canon := by
  unfold State.layStep
  split
  · exact h
  · exact .ite h (by
      split
      · rename_i e
        have h1 := State.Rest.layEnd h _ e
        exact .ite (.layResult h1) h1
      · exact h)

theorem State.Rest.layStart {s : State} {j : LayJob} (h : s.Rest Canon) : (s.layStart j).Rest Canon :=
  .layStep (by
    split
    · exact .ckptPump (.chunkQueue h)
    · exact h)

theorem State.Rest.layPrep {s : State} {op pool module : Nat} (h : s.Rest Canon) : (s.layPrep op pool module).2.Rest Canon := by
  unfold State.layPrep
  dsimp only
  split
  · split
    · rename_i e
      exact .ofSnd (.buildBase h) e
    · rename_i e
      exact .ofSnd (.buildBase h) e
  · split
    · rename_i e
      exact .ofSnd (.buildBase h) e
    · rename_i e
      exact .ofSnd (.buildBase h) e
  · exact h
  · exact h

theorem State.Rest.layPend {s : State} {op pool module : Nat} (h : s.Rest Canon) : (s.layPend op pool module).Rest Canon :=
  .sameWf rfl (.wf h)

theorem State.Rest.layGo {s : State} {op pool module : Nat} (h : s.Rest Canon) : (s.layGo op pool module).Rest Canon :=
  .ite (.layPend h) (by
    split
    · rename_i e
      have h1 := State.Rest.ofSnd (.layPrep h) e
      exact .layResult h1
    · rename_i e
      have h1 := State.Rest.ofSnd (.layPrep h) e
      exact .layStart (.layPend h1))

theorem State.Rest.layCmd {s : State} {op pool module peer : Nat} (h : s.Rest Canon) : (s.layCmd op pool module peer).Rest Canon :=
  .ite (.wf h) (.ite (.layGo h) (.layResult h))

theorem State.Rest.layRetry {s : State} (h : s.Rest Canon) : s.layRetry.Rest Canon := by
  unfold State.layRetry
  dsimp only
  split
  · exact .iteNot (.layStep h) fun h2 => .layGo h2
  · exact .layStep h

theorem keeps_execCreatePool {pool : Fin 4} {peer : BitVec 64} {s : State} : Keeps s (execCreatePool pool peer s) :=
  .next fun h => .layCmd h

theorem keeps_execLayoutReshape {pool : Fin 4} {peer : BitVec 64} {s : State} : Keeps s (execLayoutReshape pool peer s) :=
  .next fun h => .layCmd h

theorem keeps_execRetire {pool : Fin 4} {module : Fin 64} {s : State} : Keeps s (execRetire pool module s) :=
  .next fun h => .layCmd h

theorem keeps_execRetireGraceExpiry {module : Fin 64} {peerAbsent : Bool} {s : State} :
    Keeps s (execRetireGraceExpiry module peerAbsent s) := by
  unfold execRetireGraceExpiry
  dsimp only
  split
  · exact .next id
  · exact .ite (.ite (.next (fun h => .raise h)) (.next (fun h => .ite h (.layStart h)))) (.next id)

theorem keeps_execReshapeComplete {pool : Fin 4} {s : State} : Keeps s (execReshapeComplete pool s) := by
  unfold execReshapeComplete
  split
  · exact .next id
  · split
    · exact .next id
    · exact .ite (.next id) (.next (fun h => .ite h (.layStart h)))

theorem State.Rest.lostLog {s : State} {e0 : Bytes} (h : s.Rest Canon) : (s.lostLog e0).Rest Canon :=
  .ite h (.ite (.raise h) (.sameWf rfl (.wf (.store h))))

theorem State.Rest.lostRd {s : State} {v : Nat} (h : s.Rest Canon) : (s.lostRd v).Rest Canon := .sameWf rfl (.wf h)

theorem State.Rest.loseGrain {s : State} {cid : Nat} (h : s.Rest Canon) : (s.loseGrain cid).Rest Canon := by
  unfold State.loseGrain
  dsimp only
  split
  · rename_i e
    exact .ofSnd (.journal h) e
  · rename_i e
    have h1 := State.Rest.ofSnd (.journal h) e
    exact .raise (.inc (.sameWf rfl (.lostLog h1)))

theorem State.Rest.walkNs {s : State} {ns : Nat} {n : Ns} {pool cid : Nat} (h : s.Rest Canon) : (s.walkNs ns n pool cid).Rest Canon :=
  .foldl (fun _ _ h' => .lostLog h') (.foldl (fun _ _ h' => .lostLog h') h)

theorem keeps_execLostGrainWalk {s : State} : Keeps s (execLostGrainWalk s) :=
  .next fun h => .foldl (fun _ _ h' => .foldl (fun _ _ h2' => .walkNs h2') h') h

theorem keeps_execUnitRebuild {seg : Fin 33554432} {unit : Fin 18} {got : List (Nat × Bytes)} {s : State} :
    Keeps s (execUnitRebuild seg unit got s) := by
  unfold execUnitRebuild
  dsimp only
  split
  · exact .ite (.next id) (.next (fun h => by
      split
      · rename_i e
        have h1 := State.Rest.progUnit (.iteOf (.foldl (fun _ _ h' => .loseGrain h') (.incBy (.incBy h))) fun h2 => .segTo h2) _ e
        exact h1
      · exact .iteOf (.foldl (fun _ _ h' => .loseGrain h') (.incBy (.incBy h))) fun h2 => .segTo h2))
  · exact .next id

theorem keeps_execRebuiltAdvance {pool : Fin 4} {s : State} : Keeps s (execRebuiltAdvance pool s) := by
  unfold execRebuiltAdvance
  split
  · exact .next id
  · exact .ite (.next (fun h => .ite h (.layStart h))) (.next id)

theorem keeps_execSegmentDurable {seg : Fin 33554432} {s : State} : Keeps s (execSegmentDurable seg s) := by
  unfold execSegmentDurable
  split
  · exact .next id
  · exact .ite (.next id) (by
      dsimp only
      split
      · rename_i e
        have h1 (h : s.Rest Canon) := State.Rest.ofSnd (.journal h) e
        exact .next h1
      · rename_i e
        have h1 (h : s.Rest Canon) := State.Rest.ofSnd (.journal h) e
        exact .ite (.next (fun h => .settle (.ckptPump (.layRetry (.unholdGroups (.chunksDone (h1 h))))))) (.ite (.next (fun h => .settle
            (.wcRelease (.chunksDone (h1 h))))) (.next (fun h => .iteOf (.ite (.journal (.replace (.dropReloc (.ite (.raise (.inc
            (.chunksDone (h1 h)))) (.raise (.inc (.chunksDone (h1 h)))))))) (.replace (.dropReloc (.ite (.raise (.inc (.chunksDone
            (h1 h)))) (.raise (.inc (.chunksDone (h1 h)))))))) fun h3 => .ckptPump h3))))

theorem State.Rest.vaultWl {s : State} {m : Nat} (h : s.Rest Canon) : SomeRest Canon (·.2.2.2) (s.vaultWl m) := by
  unfold State.vaultWl
  split
  · exact .none
  · exact .map (sa := fun _ => s) (fun _ _ => h) fun _ h => .setBlk h

theorem State.Rest.updVault {s : State} {seg : Nat} {f : VSeg → VSeg} (h : s.Rest Canon) : (s.updVault seg f).Rest Canon :=
  h

theorem State.Rest.vaultUnit {s : State} {seg unit : Nat} {ok : Bool} (h : s.Rest Canon) : (s.vaultUnit seg unit ok).Rest Canon :=
  .updVault h

theorem State.Rest.vaultStick {s : State} (h : s.Rest Canon) : s.vaultStick.Rest Canon := h

theorem State.Rest.vaultOut {s : State} {seg : Nat} {home : Option Nat} {tile : Bytes} {u : Nat} (h : s.Rest Canon) :
    (s.vaultOut seg home tile u).Rest Canon :=
  .ite h (by
    split
    · exact .vaultUnit h
    · exact .ite (.vaultUnit h) (by
        split
        · exact .vaultStick h
        · rename_i e
          have h1 := State.Rest.vaultWl h _ e
          split
          · rename_i e2
            have h2 := State.Rest.ofSnd (.issue h1) e2
            exact .ovfBegin h
          · rename_i e2
            have h2 := State.Rest.ofSnd (.issue h1) e2
            exact .jProgram h2))

theorem State.Rest.vaultIssue {s : State} {v : VSeg} (h : s.Rest Canon) : (s.vaultIssue v).Rest Canon :=
  .foldl (fun _ _ h' => .vaultOut h') h

theorem State.Rest.vaultSeg {s : State} {data : List Bytes} (h : s.Rest Canon) : (s.vaultSeg data).Rest Canon := by
  unfold State.vaultSeg
  split
  · exact .vaultStick h
  · dsimp only
    split
    · exact .vaultStick h
    · exact .vaultIssue h

theorem State.Rest.vaultPump {s : State} (h : s.Rest Canon) : s.vaultPump.Rest Canon :=
  .ite (.foldl (fun _ _ h' => .ite h' (.vaultIssue h')) h) h

theorem State.Rest.vaultStart {s : State} (h : s.Rest Canon) : s.vaultStart.Rest Canon :=
  .ite (.vaultStick (.cphRan h)) (.foldl (fun _ _ h' => .ite h' (.vaultSeg h')) (.cphRan h))

theorem State.Rest.vaultSealed {s : State} (h : s.Rest Canon) : s.vaultSealed.Rest Canon :=
  .iteNot (.vaultSeg h) fun h2 => h2

theorem State.Rest.vaultAgain {s : State} {v : VSeg} (h : s.Rest Canon) : (s.vaultAgain v).Rest Canon :=
  .ite h (.iteOf (.vaultSeg h) fun h2 => h2)

theorem State.Rest.vaultCheck {s : State} (h : s.Rest Canon) : s.vaultCheck.Rest Canon := by
  unfold State.vaultCheck
  refine .ite h ?_
  extract_lets s1 s2
  have h1 : s1.Rest Canon := .foldl (fun _ _ h => .vaultAgain h) h
  have h2 : s2.Rest Canon := .ddcPower h1
  clear_value s2 s1
  exact .ite h2 h1

theorem State.Rest.noteGen {s : State} {g : Nat} (h : s.Rest Canon) : (s.noteGen g).Rest Canon :=
  .foldl (fun _ _ h' => .wf h') h

theorem State.Rest.jClaim {s : State} {m gen mask : Nat} {rel : Bool} {kind : Nat} (h : s.Rest Canon) :
    (s.jClaim m gen mask rel kind).Rest Canon := .jReq h

theorem State.Rest.updMod {s : State} {m : Nat} {f : Mod → Mod} (h : s.Rest Canon) : (s.updMod m f).Rest Canon :=
  h

theorem State.Rest.modFatal {s : State} {m : Nat} (h : s.Rest Canon) : (s.modFatal m).Rest Canon := by
  unfold State.modFatal
  split
  · exact .ite h (.raise (.updMod h))
  · exact .raise h

theorem State.Rest.modStatus {s : State} {m : Nat} {p : Bytes} (h : s.Rest Canon) : (s.modStatus m p).Rest Canon :=
  .iteOf (.foldl (fun _ _ h' => .dieFailed h') h) fun h2 => .modFatal h2

theorem State.Rest.admFail {s : State} {m reason : Nat} (h : s.Rest Canon) : (s.admFail m reason).Rest Canon :=
  .updEnd (.updMod h)

theorem State.Rest.admStart {s : State} {m : Nat} (h : s.Rest Canon) : (s.admStart m).Rest Canon := by
  unfold State.admStart
  exact .jReq h

theorem State.Rest.admReady {s : State} {m : Nat} (h : s.Rest Canon) : (s.admReady m).Rest Canon :=
  .foldl (fun _ _ h' => .ite h' (.foldl (fun _ _ h2' => .setBlk h2') h')) (.iteOf (.updMod h) fun h2 => h2)

theorem State.Rest.admMeta {s : State} {m : Nat} (h : s.Rest Canon) : (s.admMeta m).Rest Canon :=
  .ite (.admReady (.updMod h)) (.foldl (fun _ _ h' => .jRead h') (.updMod h))

theorem State.Rest.admClaim {s : State} {m unclaimed : Nat} (h : s.Rest Canon) : (s.admClaim m unclaimed).Rest Canon :=
  .ite (.jClaim (.sendC (.updMod h))) (.admMeta h)

theorem State.Rest.admDone {s : State} {m : Nat} (h : s.Rest Canon) : (s.admDone m).2.Rest Canon := .updMod h

theorem State.Rest.loadDie {s : State} {m d : Nat} {r : DieRec} (h : s.Rest Canon) : (s.loadDie m d r).Rest Canon :=
  .updMod (.foldl (fun _ _ h' => .setBlk h') (.foldl (fun _ _ h' => .setBlk h') h))

theorem State.Rest.admAnswer {s : State} {m step die status : Nat} {p : Bytes} {cws : List CwDec} (h : s.Rest Canon) :
    (s.admAnswer m step die status p cws).Rest Canon :=
  .ite h (.ite (.ite (.admFail h) (.ite (.jReq (.updMod (.updMod h))) (.admFail (.updMod h)))) (.ite (.ite (.admFail h) (.ite (.ite
      (.admFail (.modStatus h)) (.foldl (fun _ _ h' => .jReq h') (.updMod (.modStatus h)))) (by
    dsimp only
    split
    · rename_i e
      exact .ofSnd (.admDone (.updMod (.noteGen h))) e
    · rename_i e
      have h1 := State.Rest.ofSnd (.admDone (.updMod (.noteGen h))) e
      exact .admClaim h1))) (.ite (by
    split
    · split
      · exact .iteOf (.admDone (.loadDie h)) fun h2 => .admReady h2
      · exact .ite h (.jReq h)
    · exact .jReq h) (.iteOf (.admDone (.updMod h)) fun h2 => .admReady h2))))

theorem State.Rest.progFailed {s : State} {m die block status : Nat} (h : s.Rest Canon) : (s.progFailed m die block status).Rest Canon :=
  .iteOf (.badBlock (.raise (.inc h))) fun h2 => .dieFailed h2

theorem State.Rest.unitAnswer {s : State} {m : Nat} {r : Req} {seg unit status : Nat} (h : s.Rest Canon) :
    (s.unitAnswer m r seg unit status).Rest Canon :=
  .ite (.sameWf rfl (.ptSet h)) (by
    dsimp only
    split
    · exact .ite (.progFailed h) h
    · exact .ite (.issueUnits (.sameWf rfl (.ite (.progFailed h) h))) (.unitGone (.sameWf rfl (.ite (.progFailed h) h))))

theorem State.Rest.vaultAnswer {s : State} {m : Nat} {r : Req} {seg unit status : Nat} (h : s.Rest Canon) :
    (s.vaultAnswer m r seg unit status).Rest Canon := .vaultCheck (.vaultUnit (.ite (.progFailed h) h))

theorem State.Rest.laneAnswer {s : State} {m : Nat} {r : Req} {l num status : Nat} (h : s.Rest Canon) :
    (s.laneAnswer m r l num status).Rest Canon :=
  .ite (.meterAnswer (by
    split
    · exact .iteOf (.ite (.progFailed h) h) fun h2 => .ptSet h2
    · exact .ite (.progFailed h) h)) (by
    dsimp only
    split
    · exact .iteNot (.ite (.progFailed h) h) fun h2 => .setLane h2
    · exact .ite (.setLane (.iteOf (.ite (.progFailed h) h) fun h2 => .ptSet h2)) (.ite (.setLane (.ite (.progFailed h) h)) (.setLane (.ite
        (.progFailed h) h))))

theorem State.Rest.eraseAnswer {s : State} {m : Nat} {r : Req} {die block status : Nat} (h : s.Rest Canon) :
    (s.eraseAnswer m r die block status).Rest Canon :=
  .ite (.erasedBlk h) (.ite (.iteOf (.badBlock (.raise (.inc h))) fun h2 => .dieFailed h2) (.setBlk h))

theorem State.Rest.moveAnswer {s : State} {m : Nat} {r : Req} {key built status : Nat} (h : s.Rest Canon) :
    (s.moveAnswer m r key built status).Rest Canon :=
  .ite (.ite h (.ite (.sameWf rfl (.ptSet h)) (.inc (.ptSet h)))) (.ite (.progFailed h) h)

theorem State.Rest.claimAnswer {s : State} {m kind status info : Nat} (h : s.Rest Canon) : (s.claimAnswer m kind status info).Rest Canon :=
  .iteOf (.iteOf (.iteOf (.ite (.wf (.ite (.noteGen h) h)) (.ite (.noteGen h) h)) fun h2 => h2) fun h2 => .ite (.joinRefuse h2) (.ite
      (.updCpl (.wf h2)) h2)) fun h2 => .ite (.admMeta h2) (.admFail h2)

theorem State.Rest.witAnswer {s : State} {m : Nat} {p : Bytes} (h : s.Rest Canon) : (s.witAnswer m p).Rest Canon :=
  h

theorem State.Rest.stageRead {s : State} {m : Nat} {r : Req} {cws : List CwDec} (h : s.Rest Canon) : (s.stageRead m r cws).Rest Canon := by
  unfold State.stageRead
  split
  · exact .afterRead (.gather (.readAnswer h))
  · exact h

theorem State.Rest.relStep {s : State} (h : s.Rest Canon) : s.relStep.Rest Canon :=
  .ite (.updCpl (.foldl (fun _ _ h' => .foldl (fun _ _ h2' => .writeDieRecord h2') h') h)) (.ite (.ite (.sendC (.updCpl h)) (.updCpl
      (.foldl (fun _ _ h' => .jClaim h') h))) (.ite (.sendC (.updCpl h)) h))

theorem State.Rest.relPump {s : State} (h : s.Rest Canon) : s.relPump.Rest Canon :=
  .relStep (.relStep (.relStep h))

theorem State.Rest.progDone {s : State} {m : Nat} {r : Req} {status : Nat} (h : s.Rest Canon) : (s.progDone m r status).Rest Canon :=
  .ite (.sumBlock h) h

theorem State.Rest.finish {s : State} {m : Nat} {r : Req} {status info : Nat} {payload : Bytes} {cws : List CwDec} (h : s.Rest Canon) :
    (s.finish m r status info payload cws).Rest Canon := by
  unfold State.finish
  split
  · exact .ite (.stageRead h) (.afterRead (.gather (.foldl (fun _ _ h' => .cwLost h') (.ite (.dieFailed h) h))))
  · exact .progDone (.unitAnswer h)
  · exact .progDone (.laneAnswer h)
  · exact .eraseAnswer h
  · exact .progDone (.moveAnswer h)
  · exact .vaultAnswer h
  · exact .ite (.progFailed h) h
  · exact .admAnswer h
  · exact .claimAnswer h
  · exact .ite (.witAnswer h) h
  · exact .ite (.modStatus h) h

theorem keeps_execJonanRsp {pos : Fin 64} {h0 : JHdr} {tag : Fin 4096} {tgen : Fin 16} {status : Fin 256} {info : Nat}
    {payload : Bytes} {cws : List CwDec} {s : State} : Keeps s (execJonanRsp pos h0 tag tgen status info payload cws s) := by
  unfold execJonanRsp
  dsimp only
  split
  · rename_i e
    have h1 (h : s.Rest Canon) := State.Rest.ofSnd (.jRecv h) e
    exact .next h1
  · rename_i e
    have h1 (h : s.Rest Canon) := State.Rest.ofSnd (.jRecv h) e
    split
    · exact .next fun h => .raise (.updEnd (.freeCred (h1 h)))
    · exact .ite (.next (fun h => .raise (.updEnd (.freeCred (h1 h))))) (.ite (.next (fun h => .freeCred (h1 h))) (.ite (.next
        (fun h => .sameWf rfl (.foldl (fun _ _ h2' => .inc h2') (.iteOf (.takeReq (h1 h)) fun h3 => .raise (.updEnd h3))))) (.next
        (fun h => .settle (.relPump (.finish (.freeCred (.iteOf (.takeReq (h1 h)) fun h3 => .raise (.updEnd h3)))))))))

theorem State.Rest.failReq {s : State} {k : Nat} (h : s.Rest Canon) : (s.failReq k).Rest Canon := by
  unfold State.failReq
  split
  · exact h
  · exact .relPump (.finish (.raise (.updEnd (.takeReq h))))

theorem keeps_execRequestTimeout {pos : Fin 64} {tag : Fin 4096} {s : State} : Keeps s (execRequestTimeout pos tag s) := by
  unfold execRequestTimeout
  dsimp only
  split
  · exact .ite (.next (fun h => .settle (.failReq h))) (.next id)
  · exact .next id

theorem State.Rest.unhold {s : State} {k : Nat} (h : s.Rest Canon) : (s.unhold k).Rest Canon := by
  induction k generalizing s with
  | zero => exact h
  | succ k ih =>
    unfold State.unhold
    split
    · exact h
    · exact .ite (ih (.stageRead (.freeCred h))) h

theorem keeps_execStagingBufferFree {s : State} : Keeps s (execStagingBufferFree s) :=
  .next fun h => .settle (.unhold h)

theorem State.Rest.copyTo {s : State} {seg : Nat} {pages : List JPage} {spot : Nat × Nat × Nat × Nat} {os : List Ostamp}
    (h : s.Rest Canon) : (s.copyTo seg pages spot os).Rest Canon := .foldl (fun _ _ h' => .progTilePage h') h

theorem State.Rest.copyUp {s : State} {seg : Nat} (h : s.Rest Canon) : (s.copyUp seg).Rest Canon := by
  unfold State.copyUp
  extract_lets pages
  split
  · extract_lets here new0 new1
    refine .ite h ?_
    split
    rename_i e0
    have h0 := State.Rest.ofSnd (.tileSpots h) e0
    split
    · exact h
    · rename_i e
      have h1 := State.Rest.ofSnd (.issueAll h0) e
      extract_lets s2 _ s3
      have h2 : s2.Rest Canon := .foldl (fun _ _ h => .copyTo h) h1
      clear_value s2
      exact .raise (.inc (h2 : s3.Rest Canon))
  · exact h

theorem State.Rest.copyUpAll {s : State} (h : s.Rest Canon) : s.copyUpAll.Rest Canon :=
  .foldl (fun _ _ h' => .copyUp h') h

theorem State.Rest.memberAbsent {s : State} {m : Nat} (h : s.Rest Canon) : (s.memberAbsent m).Rest Canon :=
  .copyUpAll (.pumpSegs h)

theorem State.Rest.linkDown {s : State} {i : Nat} (h : s.Rest Canon) : (s.linkDown i).Rest Canon :=
  .ite h (.ite (.memberAbsent (.foldl (fun _ _ h' => .failReq h') (.updMod (.sameWf rfl (.raise (.setEnd h)))))) h)

theorem State.Rest.newNonce {s : State} (h : s.Rest Canon) : s.newNonce.2.Rest Canon := .draw (.draw h)

theorem State.Rest.sendHello {s : State} (h : s.Rest Canon) : s.sendHello.Rest Canon :=
  .ite h (.sendLink (.updCpl (.iteOf (.ite (.updCpl (.newNonce h)) h) fun h2 => .dgeRan h2)))

theorem State.Rest.caridAlign {s : State} {lanes : Nat} (h : s.Rest Canon) : (s.caridAlign lanes).Rest Canon :=
  .ite h (.ite (.cplDown h) (.ite (.updCpl (.wf (.updCpl (.wf (.wf h))))) (.ite (.pumpFwd (.pumpCarid (.cReplay (.updCpl (.wf (.updCpl (.wf
      (.wf h)))))))) (.cplDown (.updCpl (.wf (.wf h)))))))

theorem State.Rest.caridRetrain {s : State} {rehello : Bool} (h : s.Rest Canon) : (s.caridRetrain rehello).Rest Canon :=
  .ite h (.raise (.inc (.updCpl (.wf h))))

theorem State.Rest.helloFail {s : State} {reason : Nat} (h : s.Rest Canon) : (s.helloFail reason).Rest Canon :=
  .ite (.joinRefuse (.cplDown h)) (.wf (.cplDown h))

theorem keeps_execHelloSendTick {s : State} : Keeps s (execHelloSendTick s) :=
  .ite (.next (fun h => .sendHello h)) (.next id)

theorem keeps_execHello {h0 : Hello} {s : State} : Keeps s (execHello h0 s) :=
  .ite (.next id) (.ite (.next (fun h => .ite (.sendHello h) h)) (.ite (.next (fun h => .helloFail (.iteOf (.ite (.sendHello h) h)
      fun h2 => .cmpRan (.dgeRan h2)))) (.ite (.next (fun h => .helloFail (.iteOf (.ite (.sendHello h) h) fun h2 => .cmpRan (.dgeRan h2))))
      (.next (fun h => .pumpFwd (.pumpCarid (.iteNot (.updCpl (.wf (.wf (.wf (.iteOf (.iteOf (.ite (.sendHello h) h) fun h2 => .cmpRan
      (.dgeRan h2)) fun h2 => .dgeRan h2))))) fun h2 => h2)))))))

theorem keeps_execCaridRetrain {rekey : Bool} {s : State} : Keeps s (execCaridRetrain rekey s) :=
  .ite (.next id) (.next (fun h => .caridRetrain h))

theorem keeps_execCaridNak {h0 : CHdr} {code : Fin 256} {s : State} : Keeps s (execCaridNak h0 code s) := by
  unfold execCaridNak
  split
  · rename_i e
    have h1 (h : s.Rest Canon) := State.Rest.ofSnd (.cRecv h) e
    split
    · exact .next h1
    · exact .next fun h => .cReplay (.updCpl (.cNakCount (h1 h)))
  · rename_i e
    have h1 (h : s.Rest Canon) := State.Rest.ofSnd (.cRecv h) e
    exact .next h1

theorem keeps_execCaridIdle {h0 : CHdr} {s : State} : Keeps s (execCaridIdle h0 s) :=
  .next fun h => .cRecv h

theorem keeps_execRekeyTimer {s : State} : Keeps s (execRekeyTimer s) :=
  .ite (.next id) (.ite (.next id) (.ite (.next (fun h => .caridRetrain h)) (by
    split
    · exact .next id
    · exact .next (fun h => .sendC (.dgeRan (.updCpl (.newNonce h)))))))

theorem keeps_execRekey {h0 : CHdr} {nonce : Bytes} {xseq : Nat} {s : State} : Keeps s (execRekey h0 nonce xseq s) := by
  unfold execRekey
  split
  · rename_i e _
    have h1 (h : s.Rest Canon) := State.Rest.ofSnd (.cRecv h) e
    exact .next fun h => .updCpl (.dgeRan (h1 h))
  · rename_i e _
    have h1 (h : s.Rest Canon) := State.Rest.ofSnd (.cRecv h) e
    exact .next h1

theorem keeps_execSignalDetect {sel : LinkSel} {s : State} : Keeps s (execSignalDetect sel s) := by
  unfold execSignalDetect
  split
  · exact .ite (.next (fun h => .updCpl (.wf h))) (.next id)
  · exact .next fun h => .jDetect h

theorem keeps_execTrainRateTimeout {sel : LinkSel} {s : State} : Keeps s (execTrainRateTimeout sel s) := by
  unfold execTrainRateTimeout
  split
  · exact .ite (.next (fun h => .cplDown h)) (.next id)
  · exact .ite (.ite (.next (fun h => .setEnd h)) (.next (fun h => .linkDown h))) (.next id)

theorem keeps_execLaneTrained {sel : LinkSel} {lane : Fin 32} {s : State} : Keeps s (execLaneTrained sel lane s) := by
  unfold execLaneTrained
  split
  · exact .ite (.next (fun h => .updCpl (.wf h))) (.next id)
  · exact .ite (.next (fun h => .jLane h)) (.next id)

theorem keeps_execAlignLock {sel : LinkSel} {lanes bad : BitVec 32} {s : State} : Keeps s (execAlignLock sel lanes bad s) := by
  unfold execAlignLock
  split
  · exact .next fun h => .caridAlign (.ite (.foldl (fun _ _ h' => .raiseU h') h) h)
  · exact .next fun h => .jAlign h

theorem keeps_execTrainSendTick {sel : LinkSel} {s : State} : Keeps s (execTrainSendTick sel s) := by
  unfold execTrainSendTick
  split
  · exact .next id
  · exact .next fun h => .trainTick h

theorem keeps_execTrain {sel : LinkSel} {vers role port lanes rxcred : Nat} {s : State} :
    Keeps s (execTrain sel vers role port lanes rxcred s) := by
  unfold execTrain
  split
  · exact .next id
  · exact .ite (.next id) (by
      split
      · rename_i e
        have h1 (h : s.Rest Canon) := State.Rest.ofSnd (.jTrain h) e
        exact .ite (.next (fun h => .admStart (h1 h))) (.next h1)
      · rename_i e
        have h1 (h : s.Rest Canon) := State.Rest.ofSnd (.jTrain h) e
        exact .ite (.next (fun h => .admFail (.raise (h1 h)))) (.next h1))

theorem keeps_execRetrainEntry {sel : LinkSel} {loss : Fin 3} {s : State} : Keeps s (execRetrainEntry sel loss s) := by
  unfold execRetrainEntry
  split
  · exact .ite (.next id) (.next (fun h => .caridRetrain h))
  · exact .ite (.next id) (.next (fun h => .iteOf (.setEnd h) fun h2 => .raise h2))

theorem keeps_execRetrainTimeout {sel : LinkSel} {s : State} : Keeps s (execRetrainTimeout sel s) := by
  unfold execRetrainTimeout
  split
  · exact .ite (.next (fun h => .cplDown h)) (.next id)
  · exact .ite (.next (fun h => .settle (.linkDown h))) (.next id)

theorem keeps_execSignalLost {sel : LinkSel} {s : State} : Keeps s (execSignalLost sel s) := by
  unfold execSignalLost
  split
  · exact .ite (.next id) (.next (fun h => .cplDown h))
  · exact .next fun h => .settle (.linkDown h)

theorem keeps_execEventCmd {pos : Fin 64} {h0 : JHdr} {code die : Fin 256} {s : State} : Keeps s (execEventCmd pos h0 code die s) := by
  unfold execEventCmd
  dsimp only
  split
  · rename_i e
    have h1 (h : s.Rest Canon) := State.Rest.ofSnd (.jRecv h) e
    exact .next h1
  · rename_i e
    have h1 (h : s.Rest Canon) := State.Rest.ofSnd (.jRecv h) e
    exact .ite (.next (fun h => .modFatal (.freeCred (h1 h)))) (.ite (.next (fun h => .dieFailed (.freeCred (h1 h)))) (.next
        (fun h => .freeCred (h1 h))))

theorem keeps_execStatusPoll {pos : Fin 64} {s : State} : Keeps s (execStatusPoll pos s) :=
  .ite (.next (fun h => .jReq h)) (.next id)

theorem State.Rest.claimCmd {s : State} {inst op mask : Nat} (h : s.Rest Canon) : (s.claimCmd inst op mask).Rest Canon :=
  .ite h (.foldl (fun _ _ h' => .ite (.jClaim h') (.wf h')) (.iteOf (.wf (.wf h)) fun h2 => .sendC h2))

theorem keeps_execJlkClaim {inst : Fin 4} {mask : BitVec 16} {s : State} : Keeps s (execJlkClaim inst mask s) :=
  .next fun h => .claimCmd h

theorem keeps_execJlkRelease {inst : Fin 4} {mask : BitVec 16} {s : State} : Keeps s (execJlkRelease inst mask s) :=
  .next fun h => .claimCmd h

theorem keeps_execWitnessTick {inst : Fin 4} {s : State} : Keeps s (execWitnessTick inst s) :=
  .ite (.next id) (.next (fun h => .foldl (fun _ _ h' => .ite h' (.jReq (.ite (.jReq h') h'))) h))

theorem State.Rest.setBridge {s : State} {m : Nat} {b : Bridge} (h : s.Rest Canon) : (s.setBridge m b).Rest Canon :=
  h

theorem State.Rest.updBridge {s : State} {m : Nat} {f : Bridge → Bridge} (h : s.Rest Canon) : (s.updBridge m f).Rest Canon :=
  .setBridge h

theorem State.Rest.bAnswer {s : State} {m p tag tgen die op status info : Nat} {payload : Bytes} (h : s.Rest Canon) :
    (s.bAnswer m p tag tgen die op status info payload).Rest Canon := .jSend h

theorem State.Rest.bTake {s : State} {m p : Nat} {h0 : JHdr} {tag tgen die op : Nat} (h : s.Rest Canon) :
    (s.bTake m p h0 tag tgen die op).2.Rest Canon := by
  unfold State.bTake
  split
  · rename_i e
    exact .ofSnd (.jRecv h) e
  · rename_i e
    have h1 := State.Rest.ofSnd (.jRecv h) e
    exact .iteSnd (.bAnswer (.freeCred h1)) h1

theorem keeps_execJonanRead {m : Fin 64} {port : Fin 2} {h0 : JHdr} {tag : Fin 4096} {tgen : Fin 16} {die : Fin 4096}
    {addr : BitVec 64} {s : State} : Keeps s (execJonanRead m port h0 tag tgen die addr s) := by
  unfold execJonanRead
  split
  · rename_i e
    have h1 (h : s.Rest Canon) := State.Rest.ofSnd (.bTake h) e
    exact .next h1
  · rename_i e
    have h1 (h : s.Rest Canon) := State.Rest.ofSnd (.bTake h) e
    exact .ite (.next (fun h => .bAnswer (.freeCred (h1 h)))) (.ite (.next (fun h => .bAnswer (.freeCred (h1 h)))) (.ite (.next
        (fun h => .bAnswer (.freeCred (h1 h)))) (.next (fun h => .setBridge (h1 h)))))

theorem keeps_execJonanProgram {m : Fin 64} {port : Fin 2} {h0 : JHdr} {tag : Fin 4096} {tgen : Fin 16} {die : Fin 4096}
    {addr : BitVec 64} {page : Bytes} {s : State} : Keeps s (execJonanProgram m port h0 tag tgen die addr page s) := by
  unfold execJonanProgram
  dsimp only
  split
  · split
    · rename_i e
      have h1 (h : s.Rest Canon) := State.Rest.ofSnd (.jRecv h) e
      exact .next h1
    · rename_i e
      have h1 (h : s.Rest Canon) := State.Rest.ofSnd (.jRecv h) e
      exact .ite (.next (fun h => .bAnswer (.updBridge (.freeCred (h1 h))))) (.next (fun h => .updBridge (.freeCred (h1 h))))
  · split
    · rename_i e
      have h1 (h : s.Rest Canon) := State.Rest.ofSnd (.bTake h) e
      exact .next h1
    · rename_i e
      have h1 (h : s.Rest Canon) := State.Rest.ofSnd (.bTake h) e
      exact .ite (.next (fun h => .bAnswer (.freeCred (h1 h)))) (.ite (.next (fun h => .bAnswer (.freeCred (h1 h)))) (.ite (.next
          (fun h => .bAnswer (.freeCred (h1 h)))) (.next (fun h => .setBridge (.freeCred (h1 h))))))

theorem keeps_execJonanErase {m : Fin 64} {port : Fin 2} {h0 : JHdr} {tag : Fin 4096} {tgen : Fin 16} {die : Fin 4096}
    {addr : BitVec 64} {s : State} : Keeps s (execJonanErase m port h0 tag tgen die addr s) := by
  unfold execJonanErase
  split
  · rename_i e
    have h1 (h : s.Rest Canon) := State.Rest.ofSnd (.bTake h) e
    exact .next h1
  · rename_i e
    have h1 (h : s.Rest Canon) := State.Rest.ofSnd (.bTake h) e
    exact .ite (.next (fun h => .bAnswer (.freeCred (h1 h)))) (.ite (.next (fun h => .bAnswer (.freeCred (h1 h)))) (.ite (.next
        (fun h => .bAnswer (.freeCred (h1 h)))) (.next (fun h => .setBridge (.freeCred (h1 h))))))

theorem keeps_execJonanStatus {m : Fin 64} {port : Fin 2} {h0 : JHdr} {tag : Fin 4096} {tgen : Fin 16} {die : Fin 4096}
    {s : State} : Keeps s (execJonanStatus m port h0 tag tgen die s) := by
  unfold execJonanStatus
  split
  · rename_i e
    have h1 (h : s.Rest Canon) := State.Rest.ofSnd (.bTake h) e
    exact .next h1
  · rename_i e
    have h1 (h : s.Rest Canon) := State.Rest.ofSnd (.bTake h) e
    exact .ite (.next (fun h => .bAnswer (.freeCred (h1 h)))) (.ite (.next (fun h => .bAnswer (.freeCred (h1 h)))) (.next
        (fun h => .bAnswer (.freeCred (h1 h)))))

theorem keeps_execParamCmd {m : Fin 64} {port : Fin 2} {h0 : JHdr} {tag : Fin 4096} {tgen : Fin 16} {die : Fin 4096}
    {page : BitVec 32} {s : State} : Keeps s (execParamCmd m port h0 tag tgen die page s) := by
  unfold execParamCmd
  split
  · rename_i e
    have h1 (h : s.Rest Canon) := State.Rest.ofSnd (.bTake h) e
    exact .next h1
  · rename_i e
    have h1 (h : s.Rest Canon) := State.Rest.ofSnd (.bTake h) e
    exact .ite (.next (fun h => .bAnswer (.freeCred (h1 h)))) (.ite (.next (fun h => .bAnswer (.freeCred (h1 h)))) (.next
        (fun h => .bAnswer (.freeCred (h1 h)))))

theorem State.Rest.bClaim {s : State} {m p : Nat} {h0 : JHdr} {tag tgen gen mask : Nat} {rel : Bool} (h : s.Rest Canon) :
    (s.bClaim m p h0 tag tgen gen mask rel).Rest Canon := by
  unfold State.bClaim
  split
  · rename_i e
    exact .ofSnd (.bTake h) e
  · rename_i e
    have h1 := State.Rest.ofSnd (.bTake h) e
    exact .ite (.setBridge (.freeCred h1)) (.bAnswer (.freeCred h1))

theorem keeps_execClaim {m : Fin 64} {port : Fin 2} {h0 : JHdr} {tag : Fin 4096} {tgen : Fin 16} {gen : BitVec 32}
    {mask : BitVec 64} {s : State} : Keeps s (execClaim m port h0 tag tgen gen mask s) :=
  .next fun h => .bClaim h

theorem keeps_execClaimRelease {m : Fin 64} {port : Fin 2} {h0 : JHdr} {tag : Fin 4096} {tgen : Fin 16} {gen : BitVec 32}
    {mask : BitVec 64} {s : State} : Keeps s (execClaimRelease m port h0 tag tgen gen mask s) :=
  .next fun h => .bClaim h

theorem State.Rest.answerClaims {s : State} {m : Nat} (h : s.Rest Canon) : (s.answerClaims m).Rest Canon :=
  .foldl (fun _ _ h' => .bAnswer h') (.setBridge h)

theorem keeps_execClaimAnswer {m : Fin 64} {s : State} : Keeps s (execClaimAnswer m s) :=
  .next fun h => .answerClaims h

theorem keeps_execBridgeOpStart {m : Fin 64} {port : Fin 2} {tag : Fin 4096} {s : State} :
    Keeps s (execBridgeOpStart m port tag s) := by
  unfold execBridgeOpStart
  dsimp only
  split
  · exact .next id
  · exact .ite (.next id) (.ite (.next (fun h => .bAnswer (.setBridge h))) (.ite (.next (fun h => .bAnswer (.setBridge h))) (.next
      (fun h => .setBridge h))))

theorem keeps_execDieOperationDone {m : Fin 64} {port : Fin 2} {tag : Fin 4096} {status : Fin 256} {data : Bytes} {s : State} :
    Keeps s (execDieOperationDone m port tag status data s) := by
  unfold execDieOperationDone
  dsimp only
  split
  · exact .next id
  · exact .next fun h => .answerClaims (.bAnswer (.iteOf (.setBridge h) fun h2 => .freeCred h2))

theorem keeps_execWitnessWrite {m : Fin 64} {port : Fin 2} {h0 : JHdr} {tag : Fin 4096} {tgen : Fin 16} {data : Bytes}
    {s : State} : Keeps s (execWitnessWrite m port h0 tag tgen data s) := by
  unfold execWitnessWrite
  split
  · rename_i e
    have h1 (h : s.Rest Canon) := State.Rest.ofSnd (.bTake h) e
    exact .next h1
  · rename_i e
    have h1 (h : s.Rest Canon) := State.Rest.ofSnd (.bTake h) e
    exact .next fun h => .bAnswer (.updBridge (.freeCred (h1 h)))

theorem keeps_execWitnessRead {m : Fin 64} {port : Fin 2} {h0 : JHdr} {tag : Fin 4096} {tgen : Fin 16} {s : State} :
    Keeps s (execWitnessRead m port h0 tag tgen s) := by
  unfold execWitnessRead
  split
  · rename_i e
    have h1 (h : s.Rest Canon) := State.Rest.ofSnd (.bTake h) e
    exact .next h1
  · rename_i e
    have h1 (h : s.Rest Canon) := State.Rest.ofSnd (.bTake h) e
    exact .next fun h => .bAnswer (.freeCred (h1 h))

end Sys2Proof.Machine
end

section
/-! SUPPORT for O56 and O57. The invariant (logs 6 and 10) through
the pair: Carid, recovery, joining, takeover, mode commands, memory controllers and replication.
Each lemma repeats the shape of the definition whose name it bears. -/
namespace Sys2Proof.Machine
open Sys2Proof Sys2Proof.Laws

variable {Q : RestPart → Prop}

theorem State.Rest.heard {s : State} {o : Nat} (h : s.Rest Canon) : (s.heard o).Rest Canon := h

theorem State.Rest.takeGrains {s : State} {t gcnt : Nat} {gs : List MGrain} (h : s.Rest Canon) : (s.takeGrains t gcnt gs).Rest Canon :=
  .ite (.updCpl h) (.ite (.sendC (.raise (.updCpl h))) (.ite (.sendC h) h))

theorem State.Rest.takeLive {s : State} {t gcnt : Nat} {gs : List MGrain} (h : s.Rest Canon) : (s.takeLive t gcnt gs).Rest Canon :=
  .foldl (fun _ _ h' => .staleHandle h') (.takeGrains h)

theorem keeps_execGrain {h0 : CHdr} {mtok gcnt : Nat} {gs : List MGrain} {s : State} : Keeps s (execGrain h0 mtok gcnt gs s) := by
  unfold execGrain
  split
  · rename_i e
    have h1 (h : s.Rest Canon) := State.Rest.ofSnd (.cRecv h) e
    exact .next h1
  · rename_i e
    have h1 (h : s.Rest Canon) := State.Rest.ofSnd (.cRecv h) e
    exact .ite (.next h1) (.ite (.next (fun h => .takeLive (h1 h))) (.next (fun h => .staleTok (h1 h))))

theorem State.Rest.rcptOne {s : State} {e0 : Nat × Bool} (h : s.Rest Canon) : (s.rcptOne e0).Rest Canon := by
  unfold State.rcptOne
  split
  · exact .ite (.pumpGrains (.failWrite h)) (.commitWait (.updCmd h))
  · exact .ite h (.staleTok h)

theorem keeps_execRcpt {h0 : CHdr} {es : List (Nat × Bool)} {s : State} : Keeps s (execRcpt h0 es s) := by
  unfold execRcpt
  split
  · rename_i e
    have h1 (h : s.Rest Canon) := State.Rest.ofSnd (.cRecv h) e
    exact .next h1
  · rename_i e
    have h1 (h : s.Rest Canon) := State.Rest.ofSnd (.cRecv h) e
    exact .next fun h => .settle (.foldl (fun _ _ h2' => .rcptOne h2') (h1 h))

theorem keeps_execBind {h0 : CHdr} {mtok ostamp : Nat} {s : State} : Keeps s (execBind h0 mtok ostamp s) := by
  unfold execBind
  split
  all_goals
    rename_i e
    have h1 (h : s.Rest Canon) := State.Rest.ofSnd (.cRecv h) e
  · exact .next h1
  · exact .ite (.next h1) (.ite (.next fun h => .sendC (.heard (o := ostamp) (h1 h))) (.next fun h => .staleTok (h1 h)))

theorem keeps_execBindAck {h0 : CHdr} {mtok : Nat} {s : State} : Keeps s (execBindAck h0 mtok s) := by
  unfold execBindAck
  split
  · rename_i e
    have h1 (h : s.Rest Canon) := State.Rest.ofSnd (.cRecv h) e
    exact .next h1
  · rename_i e
    have h1 (h : s.Rest Canon) := State.Rest.ofSnd (.cRecv h) e
    split
    · exact .next fun h => .settle (.commitWait (.updCmd (h1 h)))
    · exact .next fun h => .ite (h1 h) (.staleTok (h1 h))

theorem keeps_execFreeCmd {h0 : CHdr} {slots : List Nat} {s : State} : Keeps s (execFreeCmd h0 slots s) := by
  unfold execFreeCmd
  split
  · rename_i e
    have h1 (h : s.Rest Canon) := State.Rest.ofSnd (.cRecv h) e
    exact .next h1
  · rename_i e
    have h1 (h : s.Rest Canon) := State.Rest.ofSnd (.cRecv h) e
    exact .ite (.next h1) (.next h1)

theorem keeps_execCancelCmd {h0 : CHdr} {mtok : Nat} {s : State} : Keeps s (execCancelCmd h0 mtok s) := by
  unfold execCancelCmd
  split
  · rename_i e
    have h1 (h : s.Rest Canon) := State.Rest.ofSnd (.cRecv h) e
    exact .next h1
  · rename_i e
    have h1 (h : s.Rest Canon) := State.Rest.ofSnd (.cRecv h) e
    exact .ite (.next h1) (.ite (.next h1) (.next (fun h => .staleTok (h1 h))))

theorem keeps_execRecs {h0 : CHdr} {lane : Fin 32} {rs : List JRec} {s : State} : Keeps s (execRecs h0 lane rs s) := by
  unfold execRecs
  split
  · rename_i e
    have h1 (h : s.Rest Canon) := State.Rest.ofSnd (.cRecv h) e
    exact .next h1
  · rename_i e
    have h1 (h : s.Rest Canon) := State.Rest.ofSnd (.cRecv h) e
    exact .ite (.next h1) (.next (fun h => .heard (h1 h)))

theorem State.Rest.horizonOne {s : State} {l : Nat × Nat} (h : s.Rest Canon) : (s.horizonOne l).Rest Canon :=
  .heard h

theorem keeps_execHorizon {h0 : CHdr} {ls : List (Nat × Nat)} {s : State} : Keeps s (execHorizon h0 ls s) := by
  unfold execHorizon
  split
  · rename_i e
    have h1 (h : s.Rest Canon) := State.Rest.ofSnd (.cRecv h) e
    exact .next h1
  · rename_i e
    have h1 (h : s.Rest Canon) := State.Rest.ofSnd (.cRecv h) e
    exact .ite (.next h1) (.next (fun h => .foldl (fun _ _ h2' => .horizonOne h2') (h1 h)))

theorem State.Rest.takeGeo {s : State} {geo : List SegGeo} (h : s.Rest Canon) : (s.takeGeo geo).Rest Canon :=
  .foldl (fun _ _ h' => .setSeg h') h

theorem State.Rest.takeLay {s : State} {lay : List (Nat × Pool)} (h : s.Rest Canon) : (s.takeLay lay).Rest Canon :=
  .foldl (fun _ _ h' => h') h

theorem State.Rest.resetByPartner {s : State} {g : List JRec} (h : s.Rest Canon) : (s.resetByPartner g).Rest Canon :=
  .foldl (fun _ _ h' => .resetSlice h') h

theorem State.Rest.applyDelta {s : State} {o : Nat} {geo : List SegGeo} {lay : List (Nat × Pool)} {dir : List (Nat × Nat × Nat)}
    (h : s.Rest Canon) : (s.applyDelta o geo lay dir).Rest Canon := by
  unfold State.applyDelta
  extract_lets g _ s1
  have h1 : s1.Rest Canon := h
  clear_value s1
  split
  · rename_i e
    have h2 := State.Rest.applyGroup (.takeLay h1) _ e
    exact .foldl (fun _ _ h => .ckptAdopt h) (.releaseAll (.wcRelease (.resetByPartner (.takeGeo h2))))
  · exact h1

theorem keeps_execPartnerGroupApply {ostamp : Nat} {geo : List (Nat × Nat × Nat × Nat × Nat)} {lay : List (Nat × Pool)}
    {s : State} {dir : List (Nat × Nat × Nat)} : Keeps s (execPartnerGroupApply ostamp geo lay s dir) :=
  .ite (.next (fun h => .settle (.applyDelta h))) (.next id)

theorem keeps_execLackTick {s : State} : Keeps s (execLackTick s) :=
  .ite (.next id) (.next (fun h => .sendC (.updCpl h)))

theorem State.Rest.noteA {s : State} {p : Nat} (h : s.Rest Canon) : (s.noteA p).Rest Canon := h

theorem keeps_execLack {h0 : CHdr} {physAt ptSeq : Nat} {applied durable : List Nat} {s : State} :
    Keeps s (execLack h0 physAt ptSeq applied durable s) := by
  unfold execLack
  split
  · rename_i e
    have h1 (h : s.Rest Canon) := State.Rest.ofSnd (.cRecv h) e
    exact .next h1
  · rename_i e
    have h1 (h : s.Rest Canon) := State.Rest.ofSnd (.cRecv h) e
    exact .next fun h => .noteA (h1 h)

theorem keeps_execPt {h0 : CHdr} {seq : Nat} {es : List (Nat × Nat)} {s : State} : Keeps s (execPt h0 seq es s) := by
  unfold execPt
  split
  · rename_i e
    have h1 (h : s.Rest Canon) := State.Rest.ofSnd (.cRecv h) e
    exact .next h1
  · rename_i e
    have h1 (h : s.Rest Canon) := State.Rest.ofSnd (.cRecv h) e
    exact .ite (.next h1) (.next h1)

theorem keeps_execHfcHint {h0 : CHdr} {es : List HfcEnt} {s : State} : Keeps s (execHfcHint h0 es s) := by
  unfold execHfcHint
  split
  · rename_i e
    have h1 (h : s.Rest Canon) := State.Rest.ofSnd (.cRecv h) e
    exact .next h1
  · rename_i e
    have h1 (h : s.Rest Canon) := State.Rest.ofSnd (.cRecv h) e
    exact .ite (.next h1) (.next (fun h => .foldl (fun _ _ h2' => .hfcPut h2') (h1 h)))

theorem keeps_execHeartbeatTick {s : State} : Keeps s (execHeartbeatTick s) :=
  .ite (.next (fun h => .sendC (.updCpl h))) (.next id)

theorem keeps_execHeartbeat {h0 : CHdr} {seq _estamp mode flags gen : Nat} {s : State} :
    Keeps s (execHeartbeat h0 seq _estamp mode flags gen s) := by
  unfold execHeartbeat
  split
  · rename_i e
    have h1 (h : s.Rest Canon) := State.Rest.ofSnd (.cRecv h) e
    exact .next h1
  · rename_i e
    have h1 (h : s.Rest Canon) := State.Rest.ofSnd (.cRecv h) e
    exact .next fun h => .noteGen (.updCpl (h1 h))

theorem keeps_execSplitYield {s : State} : Keeps s (execSplitYield s) :=
  .ite (.next (fun h => .updCpl h)) (by
    split
    · exact .next fun h => .updCpl h
    · exact .ite (.next (fun h => .settle (.raise h))) (.next id))

theorem keeps_execForwardCmd {h0 : CHdr} {tok slice : Nat} {f : FwdCmd} {data : Bytes} {s : State} :
    Keeps s (execForwardCmd h0 tok slice f data s) := by
  unfold execForwardCmd
  split
  · rename_i e
    have h1 (h : s.Rest Canon) := State.Rest.ofSnd (.cRecv h) e
    exact .next h1
  · rename_i e
    have h1 (h : s.Rest Canon) := State.Rest.ofSnd (.cRecv h) e
    exact .ite (.next h1) (.ite (.next (fun h => .staleHandle (h1 h))) (.ite (.next (fun h => .carryOut (.insertCmd (h1 h)))) (.next
        (fun h => .insertCmd (h1 h)))))

theorem keeps_execWdata {h0 : CHdr} {tok off : Nat} {data : Bytes} {s : State} : Keeps s (execWdata h0 tok off data s) := by
  unfold execWdata
  split
  · rename_i e
    have h1 (h : s.Rest Canon) := State.Rest.ofSnd (.cRecv h) e
    exact .next h1
  · rename_i e
    have h1 (h : s.Rest Canon) := State.Rest.ofSnd (.cRecv h) e
    split
    · exact .next fun h => .staleTok (h1 h)
    · dsimp only
      split
      · exact .ite (.next (fun h => .carryOut (.updCmd (h1 h)))) (.next (fun h => .updCmd (h1 h)))
      · exact .next fun h => .updCmd (h1 h)

theorem keeps_execRdata {h0 : CHdr} {tok off tag : Nat} {data : Bytes} {s : State} : Keeps s (execRdata h0 tok off tag data s) := by
  unfold execRdata
  split
  · rename_i e
    have h1 (h : s.Rest Canon) := State.Rest.ofSnd (.cRecv h) e
    exact .next h1
  · rename_i e
    have h1 (h : s.Rest Canon) := State.Rest.ofSnd (.cRecv h) e
    split
    · exact .next fun h => .staleTok (h1 h)
    · split
      · exact .next h1
      · dsimp only
        split
        · exact .next fun h => .iteOf (.piReads (.updCmd (h1 h))) fun h3 => .sendGrain h3
        · exact .next fun h => .piReads (.updCmd (h1 h))

theorem keeps_execDone {h0 : CHdr} {tok sct sc : Nat} {dnr : Bool} {ostamp : Nat} {s : State} :
    Keeps s (execDone h0 tok sct sc dnr ostamp s) := by
  unfold execDone
  split
  · rename_i e
    have h1 (h : s.Rest Canon) := State.Rest.ofSnd (.cRecv h) e
    exact .next h1
  · rename_i e
    have h1 (h : s.Rest Canon) := State.Rest.ofSnd (.cRecv h) e
    split
    · exact .next fun h => .staleTok (h1 h)
    · exact .ite (.next (fun h => .settle (.commitWait (.updCmd (.ite (h1 h) (.heard (h1 h))))))) (.ite (.next (fun h => .settle (.failCmd
        (.ite (h1 h) (.heard (h1 h)))))) (by
        split
        · exact .next fun h => .settle (.failCmd (.ite (h1 h) (.heard (h1 h))))
        · exact .ite (.next (fun h => .settle (.doneCmd (.ite (.resApply (.ite (h1 h) (.heard (h1 h)))) (.ite (h1 h) (.heard (h1 h)))))))
            (.next (fun h => .settle (.commitWait (.updCmd (.ite (.resApply (.ite (h1 h) (.heard (h1 h)))) (.ite (h1 h) (.heard
            (h1 h))))))))))

theorem keeps_execForwardAbort {h0 : CHdr} {tok : Nat} {s : State} : Keeps s (execForwardAbort h0 tok s) := by
  unfold execForwardAbort
  split
  · rename_i e
    have h1 (h : s.Rest Canon) := State.Rest.ofSnd (.cRecv h) e
    exact .next h1
  · rename_i e
    have h1 (h : s.Rest Canon) := State.Rest.ofSnd (.cRecv h) e
    split
    · exact .next fun h => .staleTok (h1 h)
    · exact .ite (.next h1) (.next (fun h => .settle (.sendC (.dropCmd (h1 h)))))

theorem State.Rest.randomBytes {k : Nat} {s : State} (h : s.Rest Canon) : (State.randomBytes k s).2.Rest Canon := by
  induction k generalizing s with
  | zero => exact h
  | succ k ih => exact ih (.draw h)

theorem State.Rest.secShow {s : State} (h : s.Rest Canon) : s.secShow.Rest Canon := .wf (.wf (.wf h))

theorem State.Rest.secBoot {s : State} (h : s.Rest Canon) : s.secBoot.Rest Canon := .secShow h

theorem State.Rest.replayGroups {s : State} {gs : List (List JRec)} (h : s.Rest Canon) : (s.replayGroups gs).Rest Canon :=
  .foldl (fun _ _ h' => .ite (by
    split
    · rename_i e2
      have h2 := State.Rest.applyGroup h' _ e2
      exact h2
    · exact h') h') h

theorem State.Rest.validFrom {s : State} (h : s.Rest Canon) : s.validFrom.Rest Canon := h

theorem State.Rest.derived {s : State} (h : s.Rest Canon) : s.derived.Rest Canon :=
  .sameWf rfl (.validFrom (.wf (.wf h)))

theorem State.Rest.headersTo {s : State} {old : Maps} {ts : List FoundTile} (h : s.Rest Canon) : (s.headersTo old ts).Rest Canon :=
  .foldl (fun _ _ h' => .foldl (fun _ _ h2' => .ite (.setSeg h2') h2') (.setSeg h')) (.foldl (fun _ _ h' => by
    split
    · exact .setSeg h'
    · exact h') h)

theorem State.Rest.slicesFrom {s : State} {found : List (Nat × Bytes)} (h : s.Rest Canon) : (s.slicesFrom found).Rest Canon :=
  h

theorem State.Rest.loadMaps {s : State} {f : Found} {upTo : Option Nat} (h : s.Rest Canon) : SomeRest Canon id (s.loadMaps f upTo) := by
  unfold State.loadMaps
  extract_lets copies tiles js gons tails all ck cov recs image lay bad _ s1 s2 s3 s4 pt _ s5 s6
  refine .ite .none ?_
  have h1 : s1.Rest Canon := h
  clear_value s1
  have h4 : s4.Rest Canon := .headersTo (.replayGroups (.raiseFloor h1))
  clear_value s4
  have h6 : s6.Rest Canon := .derived (.slicesFrom (s := s5) h4)
  clear_value s6
  exact .some h6

theorem State.Rest.moveOffer {s : State} {g : Nat} (h : s.Rest Canon) : (s.moveOffer g).Rest Canon :=
  .ask (.updCpl h)

theorem State.Rest.handCmds {s : State} {gs : List Nat} (h : s.Rest Canon) : (s.handCmds gs).Rest Canon :=
  .foldl (fun _ _ h' => .ite (.sendC (.dropCmd (.sameWf rfl (.ite (.sendC h') h')))) (.updCmd (.sameWf rfl (.ite (.sendC h') h')))) h

theorem State.Rest.moveJournal {s : State} {g o dest : Nat} (h : s.Rest Canon) : (s.moveJournal g o dest).2.Rest Canon :=
  .iteSnd h (.journal h)

theorem State.Rest.moveSet {s : State} {g o dest : Nat} (h : s.Rest Canon) : (s.moveSet g o dest).Rest Canon :=
  .ite (.updCpl h) (.handCmds (.moveJournal (.rplMoved (.anaChange (.updCpl h)))))

theorem keeps_execMovePropose {h0 : CHdr} {g : Fin 65536} {p : Nat} {s : State} : Keeps s (execMovePropose h0 g p s) := by
  unfold execMovePropose
  split
  · rename_i e
    have h1 (h : s.Rest Canon) := State.Rest.ofSnd (.cRecv h) e
    exact .next h1
  · rename_i e
    have h1 (h : s.Rest Canon) := State.Rest.ofSnd (.cRecv h) e
    exact .next fun h => .settle (.ite (.updCpl (.sendC (.heard (h1 h)))) (.moveSet (.sendC (.heard (h1 h)))))

theorem keeps_execMoveAgree {h0 : CHdr} {g : Fin 65536} {o : Nat} {s : State} : Keeps s (execMoveAgree h0 g o s) := by
  unfold execMoveAgree
  split
  · rename_i e
    have h1 (h : s.Rest Canon) := State.Rest.ofSnd (.cAnswer h) e
    exact .next h1
  · rename_i e
    have h1 (h : s.Rest Canon) := State.Rest.ofSnd (.cAnswer h) e
    split
    · exact .next fun h => .staleTok (h1 h)
    · exact .ite (by
        split
        · rename_i e2
          have h2 (h : s.Rest Canon) := State.Rest.ofSnd (.journal (.updCpl (.heard (h1 h)))) e2
          exact .next fun h => .settle (.sendC (.updCpl (h2 h)))
        · rename_i e2
          have h2 (h : s.Rest Canon) := State.Rest.ofSnd (.journal (.updCpl (.heard (h1 h)))) e2
          exact .next (fun h => (h2 h))) (.next (fun h => .settle (.moveSet (.updCpl (.heard (h1 h))))))

theorem keeps_execMoveComplete {g : Fin 65536} {s : State} : Keeps s (execMoveComplete g s) := by
  unfold execMoveComplete
  split
  · exact .ite (.next id) (by
      split
      · rename_i e
        have h1 (h : s.Rest Canon) := State.Rest.ofSnd (.moveJournal h) e
        exact .next h1
      · rename_i e
        have h1 (h : s.Rest Canon) := State.Rest.ofSnd (.moveJournal h) e
        exact .ite (.next h1) (.next (fun h => .settle (.iteOf (.sendC (.updCpl (h1 h))) fun h3 => .anaReport h3))))
  · exact .next id

theorem keeps_execMoveDone {h0 : CHdr} {g : Fin 65536} {o : Nat} {s : State} : Keeps s (execMoveDone h0 g o s) := by
  unfold execMoveDone
  split
  all_goals
    rename_i e
    have h1 (h : s.Rest Canon) := State.Rest.ofSnd (.cRecv h) e
  · exact .next h1
  · extract_lets s2
    have h2 (h : s.Rest Canon) : s2.Rest Canon := .heard (h1 h)
    clear_value s2
    refine .ite (.ite (.next fun h => .ask (.wf (h2 h))) (.next h2)) ?_
    split
    · exact .ite (.next fun h => .staleTok (h2 h))
        (.next fun h => .settle (.admitAll (.foldl (fun _ _ h => .carryOut h) (.anaMove (h2 h)))))
    · exact .next fun h => .staleTok (h2 h)

theorem keeps_execOwnershipMove {g : Fin 1024} {s : State} : Keeps s (execOwnershipMove g s) :=
  .ite (.next id) (.ite (.next (fun h => .emit h)) (.ite (.next id) (.next (fun h => .settle (.moveOffer h)))))

theorem State.Rest.joinStart {s : State} (h : s.Rest Canon) : s.joinStart.Rest Canon :=
  .ask (.updCpl (.sameWf rfl (.wf (.wf (.wf (.wf (.wf (.wf h))))))))

theorem State.Rest.shortShow {s : State} (h : s.Rest Canon) : s.shortShow.Rest Canon := .wf h

theorem keeps_execJoinRsp {h0 : CHdr} {reason cut : Nat} {found : Found} {s : State} :
    Keeps s (execJoinRsp h0 reason cut found s) := by
  unfold execJoinRsp
  split
  · rename_i e
    have h1 (h : s.Rest Canon) := State.Rest.ofSnd (.cAnswer h) e
    exact .next h1
  · rename_i e
    have h1 (h : s.Rest Canon) := State.Rest.ofSnd (.cAnswer h) e
    exact .ite (.next (fun h => .staleTok (h1 h))) (.ite (.next (fun h => .joinRefuse (.ite (.shortShow (h1 h)) (h1 h)))) (by
      dsimp only
      split
      · exact .next fun h => .joinRefuse (.wf (.heard (h1 h)))
      · rename_i e2
        have h2 (h : s.Rest Canon) := State.Rest.loadMaps (.wf (.heard (h1 h))) _ e2
        exact .next (fun h => .updCpl (h2 h))))

theorem State.Rest.ringOne {s : State} {e0 : Bytes} (h : s.Rest Canon) : (s.ringOne e0).Rest Canon :=
  .sameWf rfl (.wf (.store h))

theorem keeps_execRingCmd {h0 : CHdr} {es : List Bytes} {s : State} : Keeps s (execRingCmd h0 es s) := by
  unfold execRingCmd
  split
  · rename_i e
    have h1 (h : s.Rest Canon) := State.Rest.ofSnd (.cRecv h) e
    exact .next h1
  · rename_i e
    have h1 (h : s.Rest Canon) := State.Rest.ofSnd (.cRecv h) e
    exact .ite (.next h1) (.next (fun h => .foldl (fun _ _ h2' => .ringOne h2') (h1 h)))

theorem keeps_execReleased {h0 : CHdr} {gen : Nat} {s : State} : Keeps s (execReleased h0 gen s) := by
  unfold execReleased
  split
  · rename_i e
    have h1 (h : s.Rest Canon) := State.Rest.ofSnd (.iteSnd (.cAnswer h) (.cRecv h)) e
    exact .next h1
  · rename_i e
    have h1 (h : s.Rest Canon) := State.Rest.ofSnd (.iteSnd (.cAnswer h) (.cRecv h)) e
    exact .ite (.next (fun h => .noteGen (h1 h))) (.next (fun h => .ite (.updCpl (.wf (.foldl (fun _ _ h2' => .jClaim h2') (.sendC
        (.sameWf rfl (.noteGen (h1 h))))))) (.iteOf (.foldl (fun _ _ h2' => .jClaim h2') (.sendC (.sameWf rfl (.noteGen (h1 h)))))
        fun h3 => h3)))

theorem keeps_execClaimgen {h0 : CHdr} {gen : Nat} {s : State} : Keeps s (execClaimgen h0 gen s) := by
  unfold execClaimgen
  split
  · rename_i e
    have h1 (h : s.Rest Canon) := State.Rest.ofSnd (.cRecv h) e
    exact .next h1
  · rename_i e
    have h1 (h : s.Rest Canon) := State.Rest.ofSnd (.cRecv h) e
    exact .next fun h => .noteGen (h1 h)

theorem State.Rest.refuseJoin {s : State} {reason : Nat} (h : s.Rest Canon) : (s.refuseJoin reason).Rest Canon :=
  .sendC (.joinRefuse h)

theorem State.Rest.streamTo {s : State} {j : Nat} (h : s.Rest Canon) : (s.streamTo j).Rest Canon :=
  .iteNot (.ptSend (.foldl (fun _ _ h' => .ite h' (.sendC h')) h)) fun h2 => .sendC h2

theorem State.Rest.acceptJoin {s : State} (h : s.Rest Canon) : s.acceptJoin.Rest Canon :=
  .streamTo (.sendC (.sameWf rfl (.sameWf rfl (.wf (.wf (.wf h))))))

theorem keeps_execJoinReq {h0 : CHdr} {limit ctBits minor gib : Nat} {s : State} :
    Keeps s (execJoinReq h0 limit ctBits minor gib s) := by
  unfold execJoinReq
  split
  · rename_i e
    have h1 (h : s.Rest Canon) := State.Rest.ofSnd (.cRecv h) e
    exact .next h1
  · rename_i e
    have h1 (h : s.Rest Canon) := State.Rest.ofSnd (.cRecv h) e
    exact .ite (.next (fun h => .sendC (h1 h))) (.ite (.next (fun h => .sendC (h1 h))) (.ite (.next (fun h => .refuseJoin (.wf (.wf
        (.updCpl (h1 h)))))) (.ite (.next (fun h => .refuseJoin (.wf (.wf (.wf (.updCpl (h1 h))))))) (.ite (.next (fun h => .refuseJoin
        (.wf (.wf (.updCpl (h1 h)))))) (.ite (.next (fun h => .ckptStart (.updCpl (.putIdent (.sameWf rfl (.wf (.wf (.wf (.wf (.updCpl
        (h1 h))))))))))) (.next (fun h => .acceptJoin (.wf (.wf (.updCpl (h1 h)))))))))))

theorem keeps_execJoinVersionWaitEnd {s : State} : Keeps s (execJoinVersionWaitEnd s) :=
  .ite (.next (fun h => .acceptJoin h)) (.next id)

theorem keeps_execJoinSwitch {s : State} : Keeps s (execJoinSwitch s) :=
  .ite (.next id) (.ite (.next (fun h => .settle (.moveOffer (.ite (.updCpl (.wf h)) h)))) (.next (fun h => .settle (.ite (.updCpl
      (.wf h)) h))))

theorem keeps_execReleaseReq {h0 : CHdr} {_head : Fin 2} {s : State} : Keeps s (execReleaseReq h0 _head s) := by
  unfold execReleaseReq
  split
  · rename_i e
    have h1 (h : s.Rest Canon) := State.Rest.ofSnd (.cRecv h) e
    exact .next h1
  · rename_i e
    have h1 (h : s.Rest Canon) := State.Rest.ofSnd (.cRecv h) e
    exact .ite (.next (fun h => .settle (.relPump (.updCpl (.wf (h1 h)))))) (.next h1)

theorem keeps_execJoinDone {peer : Bool} {s : State} {info : PeerInfo} : Keeps s (execJoinDone peer s info) := by
  unfold execJoinDone
  extract_lets s0 joiner server ver s1 _ s2 _ _ s3 s4 s5 owner _ _ _ s6 s7
  have h0 (h : s.Rest Canon) : s0.Rest Canon := .iteOf h fun h => .shortShow h
  clear_value s0
  refine .ite (.next h0) (.next fun h => ?_)
  have h1 : s1.Rest Canon := .wf (.wf (.wf (h0 h)))
  clear_value s1
  have h2 : s2.Rest Canon := .iteNot h1 fun h => .putIdent h
  clear_value s2
  have h5 : s5.Rest Canon := .enter canon_modeFree (.updCpl (h2 : s3.Rest Canon))
  clear_value s5
  exact .minCheck (.settle (.handCmds (.anaMove (h5 : s6.Rest Canon))))

theorem State.Rest.handoverStart {s : State} {cause : Nat} (h : s.Rest Canon) : (s.handoverStart cause).Rest Canon := by
  unfold State.handoverStart
  extract_lets s1 gs s2 _ _ s3 s4
  have h2 : s2.Rest Canon := .rplMoved (.anaChange (.enter canon_modeFree h))
  clear_value s2
  have h3 : s3.Rest Canon := .wf h2
  clear_value s3
  have h4 : s4.Rest Canon := .updCpl h3
  clear_value s4
  exact .settle (.moveOffer (.ask h4))

theorem keeps_execHoReq {h0 : CHdr} {s : State} : Keeps s (execHoReq h0 s) := by
  unfold execHoReq
  split
  · rename_i e
    have h1 (h : s.Rest Canon) := State.Rest.ofSnd (.cRecv h) e
    exact .next h1
  · rename_i e
    have h1 (h : s.Rest Canon) := State.Rest.ofSnd (.cRecv h) e
    exact .ite (.next h1) (.next (fun h => .settle (.anaMove (.sendC (.updCpl (.sameWf rfl (.wf (h1 h))))))))

theorem keeps_execHoAck {h0 : CHdr} {s : State} : Keeps s (execHoAck h0 s) := by
  unfold execHoAck
  split
  · rename_i e
    have h1 (h : s.Rest Canon) := State.Rest.ofSnd (.cAnswer h) e
    exact .next h1
  · rename_i e
    have h1 (h : s.Rest Canon) := State.Rest.ofSnd (.cAnswer h) e
    exact .next fun h => .ite (.updCpl (h1 h)) (h1 h)

theorem keeps_execHandoverDrainComplete {s : State} : Keeps s (execHandoverDrainComplete s) :=
  .ite (.next id) (.ite (.next id) (.ite (.next (fun h => .ite (.settle (.relPump (.updCpl h))) h)) (.ite (.next (fun h => .updCpl
      (.sendC h))) (.ite (.next id) (.next (fun h => .settle (.foldl (fun _ _ h' => .ite (.dropLport h') h') (.stopServing (.sameWf rfl
      (.enter canon_modeFree h))))))))))

theorem State.Rest.claimAll {s : State} (h : s.Rest Canon) : s.claimAll.Rest Canon :=
  .foldl (fun _ _ h' => .jClaim h') h

theorem State.Rest.failForwarded {s : State} (h : s.Rest Canon) : s.failForwarded.Rest Canon :=
  .foldl (fun _ _ h' => .failCmd h') h

theorem State.Rest.stopChannels {s : State} (h : s.Rest Canon) : s.stopChannels.Rest Canon := .updCpl h

theorem keeps_execPartnerLoss {s : State} : Keeps s (execPartnerLoss s) :=
  .ite (.next id) (by
    dsimp only
    split
    · exact .next fun h => .claimAll h
    · exact .next fun h => .settle (.claimAll (.failForwarded h))
    · exact .next fun h => .joinRefuse h
    · exact .ite (.next (fun h => .settle (.joinRefuse (.stopChannels h)))) (.next id)
    · exact .next id)

theorem keeps_execQuorumTimeout {s : State} : Keeps s (execQuorumTimeout s) := by
  unfold execQuorumTimeout
  split
  · exact .next id
  · exact .ite (.next id) (.ite (.next (fun h => .stopServing (.enter canon_modeFree h))) (.ite (.next (fun h => .sameWf rfl (.wf h))) (.next id)))

theorem State.Rest.adoptEntry {s : State} {op : Nat} {e0 : SbEnt} {o cid gen clen : Nat} {fp : Bytes} (h : s.Rest Canon) :
    (s.adoptEntry op e0 o cid gen clen fp).Rest Canon := h

theorem State.Rest.adoptGrain {s : State} {e0 : SbEnt} {o : Nat} (h : s.Rest Canon) : (s.adoptGrain e0 o).Rest Canon :=
  .ite h (.adoptEntry (.sameWf rfl (.ite (.dgeRan h) (.dgeNoSlot h))))

theorem State.Rest.rewriteGrain {s : State} {e0 : SbEnt} (h : s.Rest Canon) : (s.rewriteGrain e0).Rest Canon :=
  .sameWf rfl (.beginGrain h)

theorem State.Rest.handleGrain {s : State} {got : List JRec} {e0 : SbEnt} (h : s.Rest Canon) : (s.handleGrain got e0).Rest Canon := by
  unfold State.handleGrain
  split
  · exact h
  · exact .ite h (.ite (.adoptGrain h) (.ite h (.rewriteGrain h)))

theorem State.Rest.adoptAll {s : State} {got : List JRec} (h : s.Rest Canon) : (s.adoptAll got).Rest Canon :=
  .foldl (fun _ _ h' => .handleGrain h') h

theorem State.Rest.placeAgain {s : State} {seg : Nat} {p : Placed} (h : s.Rest Canon) : (s.placeAgain seg p).Rest Canon :=
  .ite h h

theorem State.Rest.resync {s : State} {x : Nat × Bool × List Placed × List Nat} (h : s.Rest Canon) : (s.resync x).Rest Canon :=
  .ite h (.ite (.foldSeal (.inc h)) (.ite (.journal (.inc h)) (.retireIfDrained (.foldl (fun _ _ h' => .ite (.loseGrain h') h') (.foldl
      (fun _ _ h' => .placeAgain h') (.inc h))))))

theorem State.Rest.rehomeLanes {s : State} (h : s.Rest Canon) : s.rehomeLanes.Rest Canon := by
  unfold State.rehomeLanes
  split
  · exact h
  · exact .foldl (fun _ _ h' => .journal h') h

theorem State.Rest.keepForwarded {s : State} (h : s.Rest Canon) : s.keepForwarded.Rest Canon := h

theorem State.Rest.takeoverFloor {s : State} (h : s.Rest Canon) : s.takeoverFloor.Rest Canon := .raiseFloor h

theorem State.Rest.enterSolo {s : State} {resync : List (Nat × Bool × List Placed × List Nat)} (h : s.Rest Canon) :
    (s.enterSolo resync).Rest Canon := by
  unfold State.enterSolo
  extract_lets fresh led s1 got gs _ s2 s3 s4 _ _ s5 s6 _ s7 _ s8 s9 s10 theirs s11 s12 s13 s14
  have h1 : s1.Rest Canon := .iteNot h fun h => .takeoverFloor h
  clear_value s1
  have h4 : s4.Rest Canon := .enter canon_modeFree (.updCpl (.stopChannels (.replayGroups h1)))
  clear_value s4
  have h6 : s6.Rest Canon := .wf (.wf (.wf h4))
  clear_value s6
  have h8 : s8.Rest Canon := .ite h6 h6
  clear_value s8
  have h10 : s10.Rest Canon := .rehomeLanes (.adoptAll (.keepForwarded h8))
  have h14 : s14.Rest Canon := .foldl (fun _ _ h => .resync h) (.anaReport (.failForwarded (.anaChange h10)))
  exact .minCheck (.settle (.admitAll (.releaseAll (.pumpGrains (.foldl (fun _ _ h => .commitWait h) h14)))))

theorem keeps_execQuorumReached {resync : List (Nat × Bool × List Placed × List Nat)} {s : State} :
    Keeps s (execQuorumReached resync s) := .ite (.next (fun h => .enterSolo h)) (.next id)

theorem State.Rest.stampRetry {s : State} (h : s.Rest Canon) : s.stampRetry.Rest Canon :=
  .settle (.foldl (fun _ _ h' => .commitWait h') (.copyUpAll (.pumpSegs (.vaultCheck (.vaultPump (.metaFlush (.snapRetry (.layRetry
      (.slmRetry (.stampFlush h))))))))))

theorem keeps_execCeilingWriteDone {s : State} : Keeps s (execCeilingWriteDone s) := by
  unfold execCeilingWriteDone
  split
  · exact .next id
  · exact .ite (.next id) (.next (fun h => .stampRetry (.ceilDone h)))

theorem keeps_execLogicalOvfResume {unit : Fin 128} {s : State} : Keeps s (execLogicalOvfResume unit s) := by
  unfold execLogicalOvfResume
  split
  · exact .ite (.next (fun h => .stampRetry h)) (.next id)
  · exact .next id

theorem State.Rest.modeResult {s : State} {r : Nat} (h : s.Rest Canon) : (s.modeResult r).Rest Canon := .wf h

theorem State.Rest.joinCmd {s : State} (h : s.Rest Canon) : s.joinCmd.Rest Canon :=
  .ite (.modeResult h) (.ite (.modeResult h) (.ite (.modeResult h) (.ite (.modeResult h) (.joinStart (.enter canon_modeFree (.sameWf rfl
      (.modeResult h)))))))

theorem keeps_execJoin {s : State} : Keeps s (execJoin s) := .next fun h => .joinCmd h

theorem keeps_execAutoJoin {s : State} : Keeps s (execAutoJoin s) :=
  .ite (.next (fun h => .joinCmd h)) (.next id)

theorem State.Rest.vaultIncomplete {s : State} {head gen : Nat} (h : s.Rest Canon) : (s.vaultIncomplete head gen).Rest Canon :=
  .evrEvent h

theorem State.Rest.soloLoad {s : State} {f : Found} (h : s.Rest Canon) : SomeRest Canon id (s.soloLoad f) :=
  .map (State.Rest.loadMaps h) fun _ h => .foldl (fun _ _ h => .vaultIncomplete h) h

theorem State.Rest.serveSolo {s : State} {f : Found} (h : s.Rest Canon) : (s.serveSolo f).Rest Canon :=
  .ite (.modeResult h) (.ite (.modeResult h) (.ite (.modeResult h) (.ite (.modeResult h) (by
    split
    · exact .modeResult (.wf h)
    · rename_i e
      have h1 := State.Rest.soloLoad h _ e
      exact .ite (.modeResult h) (.claimAll (.sameWf rfl (.modeResult h1)))))))

theorem keeps_execServeSolo {found : Found} {s : State} : Keeps s (execServeSolo found s) :=
  .next fun h => .serveSolo h

theorem State.Rest.handoverCmd {s : State} (h : s.Rest Canon) : s.handoverCmd.Rest Canon :=
  .ite (.modeResult h) (.ite (.modeResult h) (.ite (.modeResult h) (.handoverStart (.modeResult h))))

theorem keeps_execHandover {s : State} : Keeps s (execHandover s) := .next fun h => .handoverCmd h

theorem State.Rest.stopCmd {s : State} (h : s.Rest Canon) : s.stopCmd.Rest Canon :=
  .ite (.modeResult h) (.ite (.modeResult h) (.settle (.sameWf rfl (.modeResult h))))

theorem keeps_execStop {s : State} : Keeps s (execStop s) := .next fun h => .stopCmd h

theorem State.Rest.portsDown {s : State} (h : s.Rest Canon) : s.portsDown.Rest Canon :=
  .foldl (fun _ _ h' => .ite (.dropLport h') h') h

theorem State.Rest.serviceCmd {s : State} (h : s.Rest Canon) : s.serviceCmd.Rest Canon :=
  .ite (.modeResult h) (.ite (.modeResult h) (.cplDown (.portsDown (.enter canon_modeFree (.modeResult h)))))

theorem keeps_execEnterService {s : State} : Keeps s (execEnterService s) :=
  .next fun h => .serviceCmd h

theorem State.Rest.modeCmd {s : State} {v : Nat} {found : Found} (h : s.Rest Canon) : (s.modeCmd v found).Rest Canon :=
  .ite (.joinCmd h) (.ite (.serveSolo h) (.ite (.handoverCmd h) (.ite (.stopCmd h) (.ite (.serviceCmd h) (.ite (.modeResult h)
      (.modeResult h))))))

theorem State.Rest.enterVault {s : State} {cause : Nat} {save : Bool} (h : s.Rest Canon) : (s.enterVault cause save).Rest Canon := by
  unfold State.enterVault
  extract_lets s1 _ _ s2 s3 s4 _ s5
  have h1 : s1.Rest Canon := .enter canon_modeFree h
  clear_value s1
  have h4 : s4.Rest Canon := .muteDies (.rplSettle (.portsDown (.cplDown (.ddcPower (s := s2) h1))))
  clear_value s4
  exact .ite (.vaultStart h4) h4

theorem State.Rest.evrStop {s : State} (h : s.Rest Canon) : s.evrStop.Rest Canon := h

theorem keeps_execPwrFailFall {lowNs : Nat} {s : State} : Keeps s (execPwrFailFall lowNs s) :=
  .ite (.next id) (.next (fun h => .evrStop (.ite (.enterVault h) h)))

theorem keeps_execPwrFailRise {s : State} : Keeps s (execPwrFailRise s) :=
  .ite (.next id) (.next id)

theorem keeps_execGondolaSeal {s : State} : Keeps s (execGondolaSeal s) :=
  .ite (.next (fun h => .iteOf (.vaultCheck (.vaultPump h)) fun h2 => .vaultCheck (.vaultSealed h2))) (.next id)

theorem keeps_execGondolaAbandon {s : State} : Keeps s (execGondolaAbandon s) :=
  .ite (.next (fun h => .sameWf rfl (.muteDies h))) (.next id)

theorem State.Rest.resetTo {s : State} (h : s.Rest Canon) : s.resetTo.Rest Canon := by
  obtain ⟨hs, -, -, hf⟩ := h
  have h0 : State.Rest Canon { State.reset with flash := s.flash } := ⟨hs, rfl, rfl, hf⟩
  exact .evrEvent (.wf (.wf (.wf (.sameWf rfl h0))))

theorem keeps_execResetAssert {lowNs : Nat} {s : State} : Keeps s (execResetAssert lowNs s) :=
  .ite (.next id) (.next (fun h => .sameWf rfl (.resetTo h)))

theorem State.Rest.hbmFences {s : State} (h : s.Rest Canon) : s.hbmFences.Rest Canon :=
  .wf (.foldl (fun _ _ h' => .markFenced h') h)

theorem State.Rest.hbmRegions {s : State} (h : s.Rest Canon) : s.hbmRegions.Rest Canon := h

theorem State.Rest.svcAddress {s : State} (h : s.Rest Canon) : s.svcAddress.Rest Canon := by
  unfold State.svcAddress
  split
  · exact .wf (.wf h)
  · exact .wf h

theorem State.Rest.bootGo {s : State} {bad : List Nat} (h : s.Rest Canon) : (s.bootGo bad).Rest Canon := by
  unfold State.bootGo
  extract_lets c utc ceil low rtc start _ _ s1 s2 s3 s4
  clear_value start rtc low ceil utc c
  have h3 : s3.Rest Canon := .slotChoice (.svcAddress (.ceilBegin (.wf (h : s1.Rest Canon))))
  clear_value s3
  have h4 : s4.Rest Canon := .evrEvent h3
  clear_value s4
  exact .iteNot (s := { s4 with evr := _ }) h4 fun h => .enter canon_modeFree h

theorem keeps_execResetRelease {bad : List Nat} {s : State} : Keeps s (execResetRelease bad s) := by
  unfold execResetRelease
  refine .ite (.next id) ?_
  extract_lets low _ _ _ s1 s2
  have h1 (h : s.Rest Canon) : s1.Rest Canon := h
  clear_value s1
  have h2 (h : s.Rest Canon) : s2.Rest Canon := .evrBoot (.secBoot (.hbmRegions (.hbmFences (.wf (.draw (h1 h))))))
  clear_value s2
  exact .ite (.next fun h => .enter canon_modeFree (h2 h)) (.ite (.next h2) (.next fun h => .bootGo (h2 h)))

theorem State.Rest.bootResume {s : State} (h : s.Rest Canon) : s.bootResume.Rest Canon := .ite (.bootGo h) h

theorem State.Rest.trainDone {s : State} {badPc : List (Fin 64)} {badCh : List (Fin 16)} (h : s.Rest Canon) :
    (s.trainDone badPc badCh).Rest Canon :=
  .wf (.foldl (fun _ _ h' => .raiseU h') (.wf (.wf (.wf (.hbmRegions (.foldl (fun _ _ h' => .wf (.markFenced (.raiseU h'))) h))))))

theorem State.Rest.gondolaFound {s : State} {gon : Option (Bool × Nat)} (h : s.Rest Canon) : (s.gondolaFound gon).Rest Canon := by
  unfold State.gondolaFound
  split
  · exact h
  · exact .vaultIncomplete h
  · exact h

theorem keeps_execBootComplete {badPc : List (Fin 64)} {badCh : List (Fin 16)} {gon : Option (Bool × Nat)} {s : State} :
    Keeps s (execBootComplete badPc badCh gon s) :=
  .ite (.next id) (.next (fun h => .sameWf rfl (.enter canon_modeFree (.gondolaFound (.trainDone h)))))

theorem keeps_execVaultExit {bad : List Nat} {s : State} : Keeps s (execVaultExit bad s) :=
  .ite (.next (fun h => .bootGo (.evrBoot (.secBoot (.hbmRegions (.hbmFences (.wf (.draw (.sameWf rfl (.event (.wf (.sameWf rfl
      (.resetTo h))))))))))))) (.next id)

theorem State.Rest.lanesIdle {s : State} (h : s.Rest Canon) : s.lanesIdle.Rest Canon :=
  .foldl (fun _ _ h' => .linkDown h') (.sameWf rfl (.foldl (fun _ _ h' => .endConn h') (.cplDown (.portsDown h))))

theorem keeps_execPrsntRise {s : State} : Keeps s (execPrsntRise s) :=
  .ite (.next id) (.next (fun h => .lanesIdle (.ite (.enterVault h) h)))

theorem keeps_execPrsntFall {s : State} : Keeps s (execPrsntFall s) := .ite (.next id) (.next id)

theorem keeps_execLaneEnable {s : State} : Keeps s (execLaneEnable s) :=
  .ite (.next id) (.next id)

theorem keeps_execEjectReq {s : State} : Keeps s (execEjectReq s) :=
  .ite (.next (fun h => .handoverStart h)) (.next (fun h => .event h))

theorem keeps_execPowerDown {s : State} : Keeps s (execPowerDown s) :=
  .ite (.next id) (.next (fun h => .sameWf rfl (.wf (.resetTo h))))

theorem keeps_execVbatLoss {s : State} : Keeps s (execVbatLoss s) := .ite (.next id) (.next id)

theorem keeps_execRefclkPcieChange {present : Bool} {s : State} : Keeps s (execRefclkPcieChange present s) :=
  .ite (.next id) (.next (fun h => .settle (.sameWf rfl (.foldl (fun _ _ h' => .endConn h') h))))

theorem State.Rest.engineShow {s : State} (h : s.Rest Canon) : s.engineShow.Rest Canon := .wf (.wf h)

theorem State.Rest.dStatus {s : State} {a v : Nat} (h : s.Rest Canon) : (s.dStatus a v).Rest Canon := .store h

theorem State.Rest.dgeAgain {s : State} (h : s.Rest Canon) : s.dgeAgain.Rest Canon := by
  unfold State.dgeAgain
  split <;> exact h

theorem State.Rest.dgeFenced {s : State} (h : s.Rest Canon) : s.dgeFenced.Rest Canon :=
  .ite (.sameWf rfl (.foldl (fun _ _ h' => .inc (.dStatus h')) h)) (.foldl (fun _ _ h' => .dgeAgain h') h)

theorem State.Rest.cphFenced {s : State} (h : s.Rest Canon) : s.cphFenced.Rest Canon :=
  .ite (.sameWf rfl (.foldl (fun _ _ h' => .raise (.dStatus h')) h)) (.foldl (fun _ _ h' => by
    split <;> exact h') h)

theorem State.Rest.fenceSync {s : State} (h : s.Rest Canon) : s.fenceSync.Rest Canon :=
  .rplSettle (.iteOf (.foldl (fun _ _ h' => .ite (.linkDown h') h') (.foldl (fun _ _ h' => .ite (.dropLport h') h') (.engineShow
      (.cphFenced (.dgeFenced h))))) fun h2 => .cplDown h2)

theorem keeps_execCtlFenceWrite {page : Fin 64} {s : State} : Keeps s (execCtlFenceWrite page s) :=
  .next fun h => .ite (.fenceSync (.fenceBlock h)) h

theorem keeps_execErrInjWrite {page : Fin 64} {v : BitVec 32} {s : State} : Keeps s (execErrInjWrite page v s) :=
  .next fun h => .ite (.fenceSync (.errInj h)) h

theorem State.Rest.ceCheck {s : State} {hbm : Bool} {u : Nat} (h : s.Rest Canon) : (s.ceCheck hbm u).Rest Canon :=
  .ite h (.ite (.raiseU h) (.raiseU h))

theorem State.Rest.ceCount {s : State} {hbm : Bool} {u : Nat} (h : s.Rest Canon) : (s.ceCount hbm u).Rest Canon :=
  .ceCheck (.ite (.sameWf rfl (.inc h)) (.sameWf rfl (.inc h)))

theorem keeps_execCeWindowEnd {s : State} : Keeps s (execCeWindowEnd s) := by
  unfold execCeWindowEnd
  refine .ite (.next id) ?_
  extract_lets s1 s2
  have h2 (h : s.Rest Canon) : s2.Rest Canon := .foldl (fun _ _ h => .ceCheck h) (.foldl (fun _ _ h => .ceCheck h) h)
  clear_value s2
  exact .next h2

theorem State.Rest.hbcFence {s : State} {pc : Nat} (h : s.Rest Canon) : (s.hbcFence pc).Rest Canon :=
  .ite h (.fence h)

theorem keeps_execHbcFence {pc : Fin 64} {s : State} : Keeps s (execHbcFence pc s) :=
  .next fun h => .hbcFence h

theorem State.Rest.ddcFence {s : State} {ch : Nat} (h : s.Rest Canon) : (s.ddcFence ch).Rest Canon :=
  .ite h (.fence h)

theorem keeps_execDdcFence {ch : Fin 16} {s : State} : Keeps s (execDdcFence ch s) :=
  .next fun h => .ddcFence h

theorem keeps_execDdrChannelLoss {ch : Fin 16} {s : State} : Keeps s (execDdrChannelLoss ch s) :=
  .next fun h => .raiseU h

theorem State.Rest.ddcUe {s : State} {addr ch : Nat} (h : s.Rest Canon) : (s.ddcUe addr ch).Rest Canon :=
  .raiseU (.wf (.inc h))

theorem keeps_execHbmRefreshDouble {stack : Fin 2} {temp : Int} {s : State} : Keeps s (execHbmRefreshDouble stack temp s) :=
  .ite (.next id) (.next (fun h => .raise (.wf h)))

theorem keeps_execHbmRefreshNormal {stack : Fin 2} {temp : Int} {s : State} : Keeps s (execHbmRefreshNormal stack temp s) :=
  .ite (.next id) (.next (fun h => .wf h))

theorem State.Rest.hitCmd {s : State} {op : Nat} (h : s.Rest Canon) : (s.hitCmd op).Rest Canon := by
  unfold State.hitCmd
  split
  · exact h
  · exact .ite h (.ite (.settle (.failWrite h)) (.settle (.failCmd h)))

theorem State.Rest.hitMap {s : State} {op gi : Nat} (h : s.Rest Canon) : (s.hitMap op gi).Rest Canon := by
  unfold State.hitMap
  split
  · exact h
  · exact .iteNot (.mapFail h) fun h2 => .ite (.settle (.failWrite h2)) (.settle (.failCmd h2))

theorem State.Rest.hitCt {s : State} {cid : Nat} (h : s.Rest Canon) : (s.hitCt cid).Rest Canon :=
  .ite (.ctPut h) h

theorem State.Rest.strike {s : State} {v : Struck} (h : s.Rest Canon) : (s.strike v).Rest Canon := by
  unfold State.strike
  split
  · exact h
  · exact .hitCmd h
  · exact h
  · exact .hitMap h
  · exact .hitCt h
  · exact h
  · exact .emit h

theorem keeps_execDdcScrub {line : Nat} {finding : Fin 3} {hit : Struck} {s : State} : Keeps s (execDdcScrub line finding hit s) :=
  .ite (.next id) (.ite (.next (fun h => .ceCount (.raiseU h))) (.ite (.next (fun h => .fenceSync (.strike (.ddcUe h)))) (.next id)))

theorem State.Rest.occurrence {s : State} {page src : Nat} {unit : Option Nat} {detail : Nat} {hit : Struck} (h : s.Rest Canon) :
    (s.occurrence page src unit detail hit).Rest Canon :=
  .ite (.ceCount (.occur h)) (.ite (.ceCount (.occur h)) (.ite (.strike (.occur (.wf (.inc h)))) (.ite (.strike (.occur (.wf (.inc h))))
      (.iteOf (.occur h) fun h2 => .strike h2))))

theorem keeps_execErrorOccurrence {page : Fin 64} {src : Fin 32} {unit : Option Nat} {detail : Nat} {hit : Struck} {s : State} :
    Keeps s (execErrorOccurrence page src unit detail hit s) :=
  .ite (.next (fun h => .fenceSync (.occurrence h))) (.next id)

theorem State.Rest.rplDone {s : State} {r : Nat} (h : s.Rest Canon) : (s.rplDone r).Rest Canon := .wf h

theorem State.Rest.rplStart {s : State} {i : Nat} (h : s.Rest Canon) : (s.rplStart i).Rest Canon :=
  .ite (.rplDone h) (by
    split
    · exact .rplDone h
    · exact .ite (.rplDone h) (.ite (.rplDone h) (.ite (.rplDone h) (.ite (.rplDone h) (.rplDone (.emit h))))))

theorem State.Rest.rplCancel {s : State} {i : Nat} (h : s.Rest Canon) : (s.rplCancel i).Rest Canon :=
  .rplDone (.rplAbort h)

theorem State.Rest.rplSealAck {s : State} {j : Nat} (h : s.Rest Canon) : (s.rplSealAck j).Rest Canon := by
  unfold State.rplSealAck
  split
  · exact .rplDone h
  · exact .rplDone (.bindState (.updSess (.rspSend h)))

theorem State.Rest.rplSealCmd {s : State} {i : Nat} (h : s.Rest Canon) : (s.rplSealCmd i).Rest Canon := by
  unfold State.rplSealCmd
  split
  · exact .ite (.rplDone (.updSess h)) (.rplDone h)
  · exact .rplDone h

theorem State.Rest.rplStartCmd {s : State} {i : Nat} (h : s.Rest Canon) : (s.rplStartCmd i).Rest Canon :=
  .ite (.rplStart h) h

theorem State.Rest.rplRestart {s : State} (h : s.Rest Canon) : s.rplRestart.Rest Canon :=
  .ite (.foldl (fun _ _ h' => .rplStart h') h) h

theorem State.Rest.rplCmd {s : State} {op ix : Nat} (h : s.Rest Canon) : (s.rplCmd op ix).Rest Canon :=
  .settle (.ite (.rplStartCmd h) (.ite (.rplCancel h) (.ite (.rplSealAck h) (.ite (.rplSealCmd h) (.rplDone h)))))

theorem keeps_execStartCmd {ix : Fin 1024} {s : State} : Keeps s (execStartCmd ix s) :=
  .next fun h => .rplCmd h

theorem keeps_execRplCancel {ix : Fin 1024} {s : State} : Keeps s (execRplCancel ix s) :=
  .next fun h => .rplCmd h

theorem keeps_execSealAck {ix : Fin 1024} {s : State} : Keeps s (execSealAck ix s) :=
  .next fun h => .rplCmd h

theorem keeps_execRplSeal {ix : Fin 1024} {s : State} : Keeps s (execRplSeal ix s) :=
  .next fun h => .rplCmd h

theorem State.Rest.rspHello {s : State} {i : Nat} (h : s.Rest Canon) : (s.rspHello i).Rest Canon :=
  .ite (.rplEnd h) (by
    dsimp only
    split
    · exact .updSess (.newNonce h)
    · exact .rspSend (.updSess (.newNonce h)))

theorem keeps_execRspConnectAccept {lport : Fin 64} {out : Option (Fin 64)} {s : State} {port : Fin 65536} :
    Keeps s (execRspConnectAccept lport out s port) := by
  unfold execRspConnectAccept
  split
  · split
    · exact .next fun h => .ite (.rspHello h) h
    · exact .next id
  · exact .ite (by
      split
      · exact .next fun h => .rspHello h
      · exact .next (fun h => .emit h)) (.next id)

theorem State.Rest.rplKeys {s : State} {i : Nat} {k : Bytes} {ver : Nat} {peer : Bytes} (h : s.Rest Canon) : (s.rplKeys i k ver peer).Rest Canon := by
  unfold State.rplKeys
  split
  · exact h
  · exact .updSess h

theorem State.Rest.rplHello {s : State} {i vers role array : Nat} {nonce : Bytes} (h : s.Rest Canon) :
    (s.rplHello i vers role array nonce).Rest Canon := by
  unfold State.rplHello
  split
  · exact h
  · exact .ite (.rplAbort h) (.ite (.rplAbort h) (.ite (.rplAbort h) (by
      split
      · exact .rplEnd h
      · exact .ite (.updSess (.dgeRan (.rplKeys h))) (.ite (.rplAbort (.dgeRan (.rplKeys h))) (by
          split
          · exact .rplAbort (.dgeRan (.rplKeys h))
          · exact .rspSend (.iteOf (.dgeRan (.rplKeys h)) fun h2 => .dgeRan h2))))))

theorem keeps_execRspHello {ix : Fin 64} {h0 : RHdr} {vers role : Fin 256} {array : BitVec 128} {nonce : Bytes} {s : State} :
    Keeps s (execRspHello ix h0 vers role array nonce s) := by
  unfold execRspHello
  split
  · rename_i e
    have h1 (h : s.Rest Canon) := State.Rest.ofSnd (.rspRecv h) e
    exact .next fun h => .settle (h1 h)
  · rename_i e
    have h1 (h : s.Rest Canon) := State.Rest.ofSnd (.rspRecv h) e
    split
    · exact .next fun h => .settle (.ite (.rplHello (h1 h)) (.rplAbort (h1 h)))
    · exact .next h1

theorem State.Rest.sessionAccept {s : State} {i j : Nat} {b : RSession} (h : s.Rest Canon) : (s.sessionAccept i j b).Rest Canon :=
  .rspSend (.updSess (.bindState (.restoreRoot (.ite (.dgeRan h) h))))

theorem keeps_execSession {ix : Fin 64} {h0 : RHdr} {b : RSession} {s : State} : Keeps s (execSession ix h0 b s) := by
  unfold execSession
  split
  · rename_i e
    have h1 (h : s.Rest Canon) := State.Rest.ofSnd (.rspRecv h) e
    exact .next fun h => .settle (h1 h)
  · rename_i e
    have h1 (h : s.Rest Canon) := State.Rest.ofSnd (.rspRecv h) e
    split
    · exact .next h1
    · exact .ite (.next (fun h => .settle (.rplAbort (h1 h)))) (.ite (by
        split
        · exact .next fun h => .settle (.rplAbort (h1 h))
        · exact .next (fun h => .settle (.sessionAccept (h1 h)))) (.next (fun h => .settle (.updSess (h1 h)))))

theorem State.Rest.rspIn {s : State} {i : Nat} {h0 : RHdr} {inbound : Bool} (h : s.Rest Canon) : (s.rspIn i h0 inbound).2.Rest Canon := by
  unfold State.rspIn
  split
  · rename_i e
    exact .ofSnd (.rspRecv h) e
  · rename_i e
    have h1 := State.Rest.ofSnd (.rspRecv h) e
    split
    · exact h1
    · exact .iteSnd h1 (.rplAbort h1)

theorem State.Rest.rplOffers {s : State} {i batch : Nat} {x : RSess} {fps : List Bytes} (h : s.Rest Canon) :
    (s.rplOffers i batch x fps).Rest Canon := .foldl (fun _ _ h' => .lookup h') (.updSess h)

theorem keeps_execOffer {ix : Fin 64} {h0 : RHdr} {batch : Fin 4294967296} {fps : List Bytes} {s : State} :
    Keeps s (execOffer ix h0 batch fps s) := by
  unfold execOffer
  split
  · rename_i e
    have h1 (h : s.Rest Canon) := State.Rest.ofSnd (.rspIn h) e
    exact .next fun h => .settle (h1 h)
  · rename_i e
    have h1 (h : s.Rest Canon) := State.Rest.ofSnd (.rspIn h) e
    exact .ite (.next (fun h => .settle (.rplAbort (h1 h)))) (.next (fun h => .settle (.rplOffers (h1 h))))

theorem keeps_execWant {ix : Fin 64} {h0 : RHdr} {batch : Fin 4294967296} {final : Bool} {bits : List Bool} {s : State} :
    Keeps s (execWant ix h0 batch final bits s) := by
  unfold execWant
  split
  · rename_i e
    have h1 (h : s.Rest Canon) := State.Rest.ofSnd (.rspIn h) e
    exact .next fun h => .settle (h1 h)
  · rename_i e
    have h1 (h : s.Rest Canon) := State.Rest.ofSnd (.rspIn h) e
    split
    · exact .next fun h => .settle (.rplAbort (h1 h))
    · exact .ite (.next (fun h => .settle (.updSess (h1 h)))) (.ite (.next (fun h => .settle (.rplAbort (h1 h)))) (.next (fun h => .settle
        (.rplServe (h1 h)))))

theorem State.Rest.rplRan {s : State} {x : RSess} {code : Nat} (h : s.Rest Canon) : (s.rplRan x code).Rest Canon :=
  .ite (.dgeNoSlot h) (.ite h (.ite h (.iteOf (.dgeRan h) fun h2 => .cmpRan h2)))

theorem State.Rest.rplArrive {s : State} {i batch : Nat} {g : RGrain} {plain fp : Bytes} (h : s.Rest Canon) :
    (s.rplArrive i batch g plain fp).Rest Canon := by
  unfold State.rplArrive
  dsimp only
  split
  · exact .updSess h
  · exact .foldl (fun _ _ h' => by
      split
      · exact h'
      · exact .ite h' (.mirrorCmd (.foldl (fun _ _ h2' => .lookup (.rplCache (.updGrain h2'))) (.sameWf rfl (.ite (.sendC h') h')))))
          (.updSess h)

theorem State.Rest.rplEntries {s : State} {i batch : Nat} {gs : List RGrain} (h : s.Rest Canon) : (s.rplEntries i batch gs).Rest Canon := by
  induction gs generalizing s with
  | nil => exact h
  | cons g gs ih =>
    unfold State.rplEntries
    split
    · exact h
    · split
      · exact .rplAbort (.rplRan h)
      · exact ih (.rplArrive (.rplRan h))

theorem keeps_execRspGrain {ix : Fin 64} {h0 : RHdr} {batch : Fin 4294967296} {gs : List RGrain} {s : State} :
    Keeps s (execRspGrain ix h0 batch gs s) :=
  .ite (.next id) (by
    split
    · rename_i e
      have h1 (h : s.Rest Canon) := State.Rest.ofSnd (.rspIn h) e
      exact .next fun h => .settle (h1 h)
    · rename_i e
      have h1 (h : s.Rest Canon) := State.Rest.ofSnd (.rspIn h) e
      exact .next (fun h => .settle (.rplEntries (h1 h))))

theorem keeps_execExtent {ix : Fin 64} {h0 : RHdr} {batch : Fin 4294967296} {run : Option Nat} {start : Fin 274877906944}
    {vals : List Nat} {s : State} : Keeps s (execExtent ix h0 batch run start vals s) := by
  unfold execExtent
  split
  · rename_i e
    have h1 (h : s.Rest Canon) := State.Rest.ofSnd (.rspIn h) e
    exact .next fun h => .settle (h1 h)
  · rename_i e
    have h1 (h : s.Rest Canon) := State.Rest.ofSnd (.rspIn h) e
    exact .ite (.next (fun h => .settle (.updSess (h1 h)))) (.next (fun h => .settle (.rplAbort (h1 h))))

theorem keeps_execRspSeal {ix : Fin 64} {h0 : RHdr} {sid new_ tepoch batches grains : Nat} {s : State} :
    Keeps s (execRspSeal ix h0 sid new_ tepoch batches grains s) := by
  unfold execRspSeal
  split
  · rename_i e
    have h1 (h : s.Rest Canon) := State.Rest.ofSnd (.rspRecv h) e
    exact .next fun h => .settle (h1 h)
  · rename_i e
    have h1 (h : s.Rest Canon) := State.Rest.ofSnd (.rspRecv h) e
    split
    · exact .next h1
    · exact .ite (.ite (.next (fun h => .settle (.rplAbort (h1 h)))) (.next (fun h => .settle (.updSess (h1 h))))) (.ite (.next
        (fun h => .settle (.emit (.updSess (h1 h))))) (.next (fun h => .settle (.rplAbort (h1 h)))))

theorem keeps_execRspAbort {ix : Fin 64} {h0 : RHdr} {code : Fin 65536} {s : State} : Keeps s (execRspAbort ix h0 code s) := by
  unfold execRspAbort
  split
  · exact .next id
  · split
    · rename_i e
      have h1 (h : s.Rest Canon) := State.Rest.ofSnd (.rspRecv h) e
      exact .next fun h => .settle (h1 h)
    · rename_i e
      have h1 (h : s.Rest Canon) := State.Rest.ofSnd (.rspRecv h) e
      exact .next fun h => .settle (.rplEnd (h1 h))

theorem keeps_execRspIdleTimeout {ix : Fin 64} {s : State} : Keeps s (execRspIdleTimeout ix s) := by
  unfold execRspIdleTimeout
  split
  · exact .ite (.next (fun h => .settle (.rplEnd h))) (.next id)
  · exact .next id

theorem keeps_execRspConnectionLoss {ix : Fin 64} {s : State} : Keeps s (execRspConnectionLoss ix s) :=
  .next fun h => .settle (.rplEnd h)

theorem State.Rest.rplBatch {s : State} {i : Nat} {ents : List (Nat × Nat)} {trailers : List (Nat × Bytes)} (h : s.Rest Canon) :
    (s.rplBatch i ents trailers).Rest Canon := by
  unfold State.rplBatch
  split
  · exact h
  · exact .rplReady (.updSess h)

theorem State.Rest.rplRuns {s : State} {i : Nat} {runs : List (Nat × Nat × Nat)} (h : s.Rest Canon) : (s.rplRuns i runs).Rest Canon :=
  .foldl (fun _ _ h' => .rspSend (.updSess h')) h

theorem State.Rest.rplWalk {s : State} {i : Nat} {trailers : List (Nat × Bytes)} (h : s.Rest Canon) : (s.rplWalk i trailers).Rest Canon := by
  unfold State.rplWalk
  split
  · exact h
  · split
    · exact .rplAbort h
    · dsimp only
      split
      · exact .ite (.rplAbort h) (.mapFail (.updSess h))
      · split
        · exact .rplBatch (.updSess (.rplRuns h))
        · exact .rplRuns h
        · exact .updSess (.rplRuns h)

theorem State.Rest.rplExtra {s : State} {i : Nat} {extra : List Nat} {trailers : List (Nat × Bytes)} (h : s.Rest Canon) :
    (s.rplExtra i extra trailers).Rest Canon := by
  unfold State.rplExtra
  split
  · exact h
  · split
    · exact .rplAbort h
    · exact .ite h (.rplBatch h)

theorem keeps_execDiffWalkBatch {ix : Fin 64} {trailers : List (Nat × Bytes)} {extra : List Nat} {s : State} :
    Keeps s (execDiffWalkBatch ix trailers extra s) := by
  unfold execDiffWalkBatch
  split
  · exact .next id
  · exact .ite (.next id) (.ite (.next (fun h => .settle (.rplWalk h))) (.ite (.next (fun h => .settle (.rplExtra h))) (.next id)))

theorem State.Rest.enSync {s : State} {page : Nat} (h : s.Rest Canon) : (s.enSync page).Rest Canon :=
  .ite h (.settle (.admitAll (.stampRetry (.rplRestart (.pumpCarid (.ite (.foldl (fun _ _ h' => .pumpEnd h') h) h))))))

theorem State.Rest.ctlCommit {s : State} {page v : Nat} (h : s.Rest Canon) : (s.ctlCommit page v).Rest Canon :=
  .enSync (.fenceSync (.ctlWrite h))

theorem keeps_execCtlEnWrite {page : Fin 64} {v : Bool} {s : State} : Keeps s (execCtlEnWrite page v s) :=
  .next fun h => .ite (.enSync (.setEn h)) h

theorem keeps_execCtlLockWrite {page : Fin 64} {v : BitVec 31} {s : State} : Keeps s (execCtlLockWrite page v s) :=
  .next fun h => .ite (.ctlCommit h) h

end Sys2Proof.Machine
end

section
/-! SUPPORT for O56 and O57. The invariant (logs 6 and 10) through
engines, keys, cores and caches, and the accesses of the control space.
Each lemma repeats the shape of the definition whose name it bears. -/
namespace Sys2Proof.Machine
open Sys2Proof Sys2Proof.Laws

variable {Q : RestPart → Prop}

theorem State.Rest.ringTake {s : State} {q : RingRegs} (h : s.Rest Canon) : (s.ringTake q).Rest Canon := .wf h

theorem State.Rest.dgeEnd {s : State} {desc st : Nat} (h : s.Rest Canon) : (s.dgeEnd desc st).Rest Canon :=
  .iteOf (.iteOf (.dStatus h) fun h2 => .inc h2) fun h2 => .raise h2

theorem State.Rest.dgeDrop {s : State} {k : Nat} (h : s.Rest Canon) : (s.dgeDrop k).Rest Canon :=
  .engineShow (.dgeAgain h)

theorem State.Rest.dgeAdv {s : State} (h : s.Rest Canon) : s.dgeAdv.Rest Canon := .sameWf rfl (.ringTake h)

theorem State.Rest.dgeNext {s : State} {k : Nat} {r : DgeReq} {a : Nat} (h : s.Rest Canon) : (s.dgeNext k r a).Rest Canon :=
  .ite (.dgeEnd (.dgeDrop (.dgeAdv h))) (.sameWf rfl (.dStatus (.dgeAdv h)))

theorem State.Rest.dgeNew {s : State} {a : Nat} (h : s.Rest Canon) : (s.dgeNew a).Rest Canon :=
  .ite (.dgeEnd (.dgeAdv h)) (.ite (.dgeEnd (.inc (.dgeAdv h))) (.ite h (.engineShow (.sameWf rfl (.dgeAdv h)))))

theorem State.Rest.dgeBad {k : Nat} {s : State} (h : s.Rest Canon) : (State.dgeBad k s).Rest Canon := by
  induction k generalizing s with
  | zero => exact h
  | succ k ih =>
    unfold State.dgeBad
    split
    · exact .ite (ih (.dgeEnd (.dgeAdv h))) h
    · exact h

theorem State.Rest.dgeTake {s : State} {op : Nat} (h : s.Rest Canon) : (s.dgeTake op).Rest Canon := by
  unfold State.dgeTake
  split
  · exact h
  · split
    · exact .ite (.dgeBad (.dgeNext h)) h
    · exact .ite (.dgeBad (.dgeNew h)) h

theorem State.Rest.dgePost {s : State} {ix : Nat} (h : s.Rest Canon) : (s.dgePost ix).Rest Canon :=
  .dgeBad (.wf h)

theorem keeps_execDgeFwqPost {ix : Fin 65536} {s : State} : Keeps s (execDgeFwqPost ix s) :=
  .next fun h => .dgePost h

theorem keeps_execSha256 {s : State} : Keeps s (execSha256 s) := .next fun h => .dgeTake h

theorem keeps_execHmac {s : State} : Keeps s (execHmac s) := .next fun h => .dgeTake h

theorem keeps_execCompareDigest {s : State} : Keeps s (execCompareDigest s) :=
  .next fun h => .dgeTake h

theorem keeps_execDigestComplete {r : Nat} {s : State} : Keeps s (execDigestComplete r s) := by
  unfold execDigestComplete
  split
  · exact .next id
  · exact .ite (.next id) (.next (fun h => .dgeEnd (.incWrap (.store (.dgeDrop h)))))

theorem keeps_execChainTimeout {r : Nat} {s : State} : Keeps s (execChainTimeout r s) := by
  unfold execChainTimeout
  split
  · exact .next id
  · exact .ite (.next (fun h => .dgeEnd (.dgeDrop h))) (.next id)

theorem State.Rest.cphEnd {s : State} {desc st : Nat} (h : s.Rest Canon) : (s.cphEnd desc st).Rest Canon :=
  .iteOf (.ite (.incWrap (.dStatus h)) (.raise (.dStatus h))) fun h2 => .raise (.inc h2)

theorem State.Rest.cphDrop {s : State} {k : Nat} (h : s.Rest Canon) : (s.cphDrop k).Rest Canon := .engineShow h

theorem State.Rest.cphStart {s : State} {k : Nat} {r : CphReq} (h : s.Rest Canon) : (s.cphStart k r).Rest Canon :=
  .ite (.engineShow h) (by
    split
    · exact .cphEnd (.cphDrop h)
    · exact .ite (.cphEnd (.cphDrop h)) (.ite (.iteOf (.sameWf rfl (.engineShow h)) fun h2 => .raise h2) (.engineShow h)))

theorem State.Rest.cphPump {k : Nat} {s : State} (h : s.Rest Canon) : (State.cphPump k s).Rest Canon := by
  induction k generalizing s with
  | zero => exact h
  | succ k ih =>
    unfold State.cphPump
    split
    · exact ih (.cphStart h)
    · exact h

theorem State.Rest.cphGo {s : State} (h : s.Rest Canon) : s.cphGo.Rest Canon := .cphPump h

theorem State.Rest.cphNew {s : State} {a : Nat} (h : s.Rest Canon) : (s.cphNew a).Rest Canon :=
  .ite (.cphEnd (.sameWf rfl (.ringTake h))) (.cphGo (.sameWf rfl (.sameWf rfl (.ringTake h))))

theorem State.Rest.cphBad {k : Nat} {s : State} (h : s.Rest Canon) : (State.cphBad k s).Rest Canon := by
  induction k generalizing s with
  | zero => exact h
  | succ k ih =>
    unfold State.cphBad
    split
    · exact .ite (ih (.cphEnd (.ringTake h))) h
    · exact h

theorem State.Rest.cphTake {s : State} {op : Nat} (h : s.Rest Canon) : (s.cphTake op).Rest Canon := by
  unfold State.cphTake
  split
  · exact h
  · exact .ite (.cphBad (.cphNew h)) h

theorem State.Rest.cphPost {s : State} {ix : Nat} (h : s.Rest Canon) : (s.cphPost ix).Rest Canon :=
  .cphBad (.wf h)

theorem keeps_execCphFwqPost {ix : Fin 65536} {s : State} : Keeps s (execCphFwqPost ix s) :=
  .next fun h => .cphPost h

theorem keeps_execXtsEnc {s : State} : Keeps s (execXtsEnc s) := .next fun h => .cphTake h

theorem keeps_execXtsDec {s : State} : Keeps s (execXtsDec s) := .next fun h => .cphTake h

theorem keeps_execGcmEnc {s : State} : Keeps s (execGcmEnc s) := .next fun h => .cphTake h

theorem keeps_execGcmDec {s : State} : Keeps s (execGcmDec s) := .next fun h => .cphTake h

theorem keeps_execCipherComplete {r : Nat} {s : State} : Keeps s (execCipherComplete r s) := by
  unfold execCipherComplete
  split
  · exact .next id
  · split
    · exact .next id
    · exact .ite (.next id) (.next (fun h => .cphGo (.cphEnd (.store (.cphDrop h)))))

theorem keeps_execCphRequestAged {r : Nat} {s : State} : Keeps s (execCphRequestAged r s) := by
  unfold execCphRequestAged
  split
  · exact .next id
  · exact .ite (.next (fun h => .cphGo (.inc h))) (.next id)

theorem State.Rest.keyDone {s : State} {r : Nat} (h : s.Rest Canon) : (s.keyDone r).Rest Canon := .wf (.wf h)

theorem State.Rest.keyPut {s : State} {eng slot : Nat} {k : Key} (h : s.Rest Canon) : (s.keyPut eng slot k).Rest Canon :=
  .ite h h

theorem State.Rest.keyClear {s : State} {eng slot : Nat} (h : s.Rest Canon) : (s.keyClear eng slot).Rest Canon :=
  .ite h h

theorem State.Rest.keyFinish {s : State} {eng slot : Nat} {key : Bytes} (h : s.Rest Canon) : (s.keyFinish eng slot key).Rest Canon :=
  .ite (.keyDone h) (.keyDone (.iteOf (.store (.keyPut h)) fun h2 => .store h2))

theorem State.Rest.keyImport {s : State} {eng slot : Nat} (h : s.Rest Canon) : (s.keyImport eng slot).Rest Canon :=
  .ite (.keyDone h) (.ite (.keyDone h) (.ite (.keyDone h) (.keyFinish h)))

theorem State.Rest.keyGenerate {s : State} {eng slot : Nat} (h : s.Rest Canon) : (s.keyGenerate eng slot).Rest Canon :=
  .ite (.keyDone h) (.ite (.keyDone h) (.ite (.keyDone h) (.keyFinish (.randomBytes h))))

theorem State.Rest.keyLoad {s : State} {eng slot : Nat} (h : s.Rest Canon) : (s.keyLoad eng slot).Rest Canon :=
  .ite (.keyDone h) (.ite (.keyDone h) (by
    split
    · exact .keyDone h
    · exact .ite (.keyDone h) (.keyDone (.keyPut h))))

theorem State.Rest.keyErase {s : State} {eng slot : Nat} (h : s.Rest Canon) : (s.keyErase eng slot).Rest Canon :=
  .sameWf rfl (.wf (by
    split
    · exact .keyPut h
    · exact h))

theorem State.Rest.keyCmd {s : State} {op eng slot : Nat} (h : s.Rest Canon) : (s.keyCmd op eng slot).Rest Canon :=
  .ite (.wf h) (.ite (.keyDone h) (.ite (.keyImport h) (.ite (.keyGenerate h) (.ite (.keyLoad h) (.ite (.keyErase h) (.keyDone h))))))

theorem keeps_execImportCmd {eng : Fin 2} {slot : Fin 8192} {s : State} : Keeps s (execImportCmd eng slot s) :=
  .next fun h => .keyCmd h

theorem keeps_execGenerate {eng : Fin 2} {slot : Fin 8192} {s : State} : Keeps s (execGenerate eng slot s) :=
  .next fun h => .keyCmd h

theorem keeps_execLoadCmd {eng : Fin 2} {slot : Fin 8192} {s : State} : Keeps s (execLoadCmd eng slot s) :=
  .next fun h => .keyCmd h

theorem keeps_execErase {eng : Fin 2} {slot : Fin 8192} {s : State} : Keeps s (execErase eng slot s) :=
  .next fun h => .keyCmd h

theorem keeps_execKeyEraseDone {s : State} : Keeps s (execKeyEraseDone s) := by
  unfold execKeyEraseDone
  split
  · exact .next id
  · exact .ite (.next id) (.next (fun h => .keyDone (.sameWf rfl (.keyClear h))))

theorem State.Rest.takeIndex {s : State} (h : s.Rest Canon) : SomeRest Canon Prod.snd s.takeIndex :=
  .ite (.some (.secShow h)) (.ite (.some (.iteOf (.secShow h) fun h2 => .raise h2)) .none)

theorem State.Rest.signDone {s : State} {r : Nat} (h : s.Rest Canon) : (s.signDone r).Rest Canon := .wf (.wf h)

theorem State.Rest.signRefuse {s : State} {forSeal : Bool} {code : Nat} (h : s.Rest Canon) : (s.signRefuse forSeal code).Rest Canon :=
  .ite (.slmRetry (.raise (.sameWf rfl (.ite h (.raise h))))) (.signDone (.ite h (.raise h)))

theorem State.Rest.signBegin {s : State} {forSeal : Bool} {msg : Bytes} (h : s.Rest Canon) : (s.signBegin forSeal msg).Rest Canon := by
  unfold State.signBegin
  split
  · rename_i e
    have h1 := State.Rest.takeIndex h _ e
    exact h1
  · exact .signRefuse h

theorem State.Rest.signNext {s : State} (h : s.Rest Canon) : s.signNext.Rest Canon :=
  .ite h (by
    split
    · exact .signBegin h
    · exact .signBegin h
    · exact h)

theorem State.Rest.sealPut {s : State} {hdr sig : Bytes} (h : s.Rest Canon) : (s.sealPut hdr sig).Rest Canon := by
  unfold State.sealPut
  extract_lets all es s1
  have h1 : s1.Rest Canon := .foldl (fun _ _ h => .chainPut h) (.dgeRan h)
  clear_value s1
  exact h1

theorem State.Rest.signRelease {s : State} {j : SignJob} (h : s.Rest Canon) : (s.signRelease j).Rest Canon :=
  .ite (.slmRetry (.ite (.sealPut (.sameWf rfl (.inc h))) (.sameWf rfl (.sameWf rfl (.inc h))))) (.signDone (.store (.sameWf rfl (.inc h))))

theorem keeps_execSignatureRelease {ok : Bool} {s : State} : Keeps s (execSignatureRelease ok s) := by
  unfold execSignatureRelease
  split
  · exact .next id
  · refine .ite (.next id) (.ite (.next fun h => .signNext (.signRelease h)) ?_)
    extract_lets _ s1 s2
    have h1 (h : s.Rest Canon) : s1.Rest Canon := h
    clear_value s1
    have h2 (h : s.Rest Canon) : s2.Rest Canon := .raise (h1 h)
    clear_value s2
    refine .ite (.next fun h => .signNext (.signRefuse (h1 h))) ?_
    split
    · rename_i e
      have h3 (h : s.Rest Canon) := State.Rest.takeIndex (h2 h) _ e
      exact .next h3
    · exact .next fun h => .signNext (.signRefuse (h2 h))

theorem State.Rest.genIdentity {s : State} (h : s.Rest Canon) : s.genIdentity.Rest Canon := by
  unfold State.genIdentity
  refine .ite (.signDone h) ?_
  split
  · exact .signDone h
  · refine .ite (.signDone h) (.ite (.wf h) ?_)
    extract_lets r seed I b s1 _ s2
    have h1 : s1.Rest Canon := .flStore (.flStore (.flErase (.flErase (.randomBytes h))))
    clear_value s1
    exact .signDone (.secShow (.wf (h1 : s2.Rest Canon)))

theorem keeps_execNodeTablesReady {s : State} : Keeps s (execNodeTablesReady s) :=
  .ite (.next (fun h => .genIdentity h)) (.ite (.next (fun h => .sameWf rfl (.wf h))) (.next id))

theorem keeps_execNextTreeBuild {s : State} : Keeps s (execNextTreeBuild s) :=
  .ite (.next id) (.next (fun h => .ite h h))

theorem keeps_execHourlySeal {s : State} : Keeps s (execHourlySeal s) :=
  .ite (.next id) (by
    split
    · exact .next id
    · split
      · rename_i e
        have h1 (h : s.Rest Canon) := State.Rest.ofSnd (.issue h) e
        exact .next fun h => .ovfBegin h
      · rename_i e
        have h1 (h : s.Rest Canon) := State.Rest.ofSnd (.issue h) e
        exact .ite (.next (fun h => .signRefuse (h1 h))) (.next (fun h => .signNext (.sameWf rfl (.dgeRan (h1 h))))))

theorem State.Rest.signQuote {s : State} (h : s.Rest Canon) : s.signQuote.Rest Canon := by
  unfold State.signQuote
  dsimp only
  split
  · exact .signRefuse h
  · exact .ite (.signDone h) (.ite (.signDone h) (.signNext (.sameWf rfl (.wf h))))

theorem State.Rest.signPubkey {s : State} (h : s.Rest Canon) : s.signPubkey.Rest Canon := by
  unfold State.signPubkey
  split
  · exact .signDone h
  · exact .ite (.signDone (.store h)) (.signDone h)

theorem State.Rest.measExtend {s : State} {r : Nat} (h : s.Rest Canon) : (s.measExtend r).Rest Canon :=
  .ite (.signDone h) (.signDone h)

theorem State.Rest.signCmd {s : State} {op mreg : Nat} (h : s.Rest Canon) : (s.signCmd op mreg).Rest Canon :=
  .ite (.wf h) (.ite (.ite (.signRefuse h) (.signDone h)) (.ite (.signQuote h) (.ite (.signPubkey h) (.ite (.measExtend h) (.ite
      (.genIdentity h) (.signDone h))))))

theorem keeps_execQuote {s : State} : Keeps s (execQuote s) := .next fun h => .signCmd h

theorem keeps_execPubkey {s : State} : Keeps s (execPubkey s) := .next fun h => .signCmd h

theorem keeps_execMeasExtend {mreg : Fin 4} {s : State} : Keeps s (execMeasExtend mreg s) :=
  .next fun h => .signCmd h

theorem keeps_execGenIdentity {s : State} : Keeps s (execGenIdentity s) :=
  .next fun h => .signCmd h

theorem State.Rest.zeroRequests {s : State} (h : s.Rest Canon) : s.zeroRequests.Rest Canon :=
  .sameWf rfl (.foldl (fun _ _ h' => .cphEnd (.cphDrop h')) (.foldl (fun _ _ h' => .dgeEnd (.dgeDrop h')) h))

theorem State.Rest.zeroKeys {s : State} (h : s.Rest Canon) : s.zeroKeys.Rest Canon :=
  .sameWf rfl (.iteNot (.updCpl (.foldl (fun _ _ h' => .rplEnd h') (.zeroRequests h))) fun h2 => .cplDown h2)

theorem State.Rest.zeroCommands {s : State} (h : s.Rest Canon) : s.zeroCommands.Rest Canon :=
  .iteOf (.iteOf (.iteOf (.sameWf rfl (.ite (.keyDone h) h)) fun h2 => .signDone h2) fun h2 => .signRefuse h2) fun h2 => .signRefuse h2

theorem keeps_execAlarm {src : Fin 5} {s : State} : Keeps s (execAlarm src s) :=
  .ite (.next id) (.next (fun h => .settle (.raise (.evrEvent (.iteOf (.zeroCommands (.zeroKeys (.wf (.wf h)))) fun h2 => h2)))))

theorem keeps_execNoiseSourceFail {n : Fin 2} {s : State} : Keeps s (execNoiseSourceFail n s) :=
  .ite (.next id) (.next (fun h => .settle (.ite (.raise (.wf h)) (.raise (.wf h)))))

theorem State.Rest.updCore {s : State} {c : Nat} {f : Core → Core} (h : s.Rest Canon) : (s.updCore c f).Rest Canon :=
  h

theorem State.Rest.coreRunWrite {s : State} {v : Nat} (h : s.Rest Canon) : (s.coreRunWrite v).Rest Canon := .wf h

theorem keeps_execCoreRunWrite {v : BitVec 32} {s : State} : Keeps s (execCoreRunWrite v s) :=
  .next fun h => .coreRunWrite h

theorem keeps_execStampCsrRead {core : Fin 24} {hi user : Bool} {s : State} : Keeps s (execStampCsrRead core hi user s) :=
  .ite (.next id) (.ite (.next (fun h => .emit h)) (.ite (.next (fun h => .emit h)) (by
    split
    · rename_i e
      have h1 (h : s.Rest Canon) := State.Rest.ofSnd (.issue h) e
      exact .next fun h => .emit (h1 h)
    · rename_i e
      have h1 (h : s.Rest Canon) := State.Rest.ofSnd (.issue h) e
      exact .next (fun h => .ovfBegin h))))

theorem State.Rest.timerSet {s : State} {c : Nat} (h : s.Rest Canon) : (s.timerSet c).Rest Canon := .updCore h

theorem keeps_execTimerCompareMatch {core : Fin 24} {stime : Option (BitVec 64)} {s : State} :
    Keeps s (execTimerCompareMatch core stime s) :=
  .next (fun h => .timerSet (by
    split
    · exact .updCore h
    · exact h))

theorem State.Rest.l2Dirty {s : State} {line : Nat} (h : s.Rest Canon) : (s.l2Dirty line).Rest Canon := h

theorem State.Rest.l2Touch {s : State} {line : Nat} (h : s.Rest Canon) : (s.l2Touch line).Rest Canon := h

theorem State.Rest.l1Drop {s : State} {line keep : Nat} {instr : Bool} (h : s.Rest Canon) : (s.l1Drop line keep instr).Rest Canon :=
  .ite (.l2Dirty h) h

theorem State.Rest.l1Clean {s : State} {line : Nat} (h : s.Rest Canon) : (s.l1Clean line).Rest Canon :=
  .ite (.l2Dirty h) h

theorem State.Rest.l2Evict {s : State} {line : Nat} (h : s.Rest Canon) : (s.l2Evict line).Rest Canon :=
  .sameWf rfl (.l1Drop h)

theorem State.Rest.l2Insert {s : State} {line : Nat} (h : s.Rest Canon) : (s.l2Insert line).Rest Canon :=
  .ite (.l2Touch h) (by
    dsimp only
    split
    · exact h
    · split
      · exact .sameWf rfl (.l2Evict h)
      · exact h)

theorem State.Rest.l1dInsert {s : State} {c line : Nat} {dirty : Bool} (h : s.Rest Canon) : (s.l1dInsert c line dirty).Rest Canon := by
  unfold State.l1dInsert
  dsimp only
  split
  · exact .iteOf (.updCore h) fun h2 => .l2Dirty h2
  · exact .updCore h

theorem State.Rest.l1iInsert {s : State} {c line : Nat} (h : s.Rest Canon) : (s.l1iInsert c line).Rest Canon :=
  .updCore h

theorem State.Rest.restart {s : State} {r : CacheReq} (h : s.Rest Canon) : (s.restart r).Rest Canon := by
  unfold State.restart
  split
  · exact .ite h (.emit h)
  · exact h

theorem State.Rest.l2Serve {s : State} {r : CacheReq} (h : s.Rest Canon) : (s.l2Serve r).Rest Canon :=
  .restart (.ite (.l1dInsert (.ite (.l1Drop (.l2Touch h)) (.l1Clean (.l2Touch h)))) (.ite (.l1iInsert (.l2Touch h)) (.l1Clean
      (.l2Touch h))))

theorem State.Rest.l2Demand {s : State} {r : CacheReq} (h : s.Rest Canon) : (s.l2Demand r).Rest Canon :=
  .ite h (.ite (.l2Serve (.incWrap h)) (.ite (.l2Serve (.l2Insert (.sameWf rfl (.inc h)))) (by
    split
    · exact .ite (.sameWf rfl (.inc (.incWrap h))) h
    · exact .ite (.sameWf rfl (.incWrap h)) h)))

theorem State.Rest.l2Prefetch {s : State} {c line : Nat} {store : Bool} (h : s.Rest Canon) : (s.l2Prefetch c line store).Rest Canon :=
  .ite h (.ite (.l1dInsert (.l2Touch (.ite (.l1Drop h) (.l1Clean h)))) (.ite h h))

theorem State.Rest.sidePush {s : State} {line : Nat} (h : s.Rest Canon) : (s.sidePush line).Rest Canon := by
  unfold State.sidePush
  dsimp only
  split <;> exact h

theorem keeps_execCriticalChunk {line : Nat} {s : State} : Keeps s (execCriticalChunk line s) := by
  unfold execCriticalChunk
  split
  · exact .next id
  · split
    · exact .ite (.next (fun h => .sameWf rfl (.restart h))) (.next id)
    · exact .next id

theorem State.Rest.l2Fill {s : State} {m : MissReg} (h : s.Rest Canon) : (s.l2Fill m).Rest Canon :=
  .foldl (fun _ _ h' => .ite (.l2Demand h') (.restart h')) (.sameWf rfl (.ite (.foldl (fun _ _ h' => .restart h') h) (.ite (.sidePush h)
      (.foldl (fun _ _ h' => .l2Serve h') (.l2Insert h)))))

theorem keeps_execL2LineFill {line : Nat} {s : State} : Keeps s (execL2LineFill line s) := by
  unfold execL2LineFill
  split
  · exact .next fun h => .l2Fill h
  · exact .next id

theorem State.Rest.l2Bad {s : State} {f : Fld} (h : s.Rest Canon) : (s.l2Bad f).Rest Canon := .raise (.wf h)

theorem State.Rest.l2Empty {s : State} (h : s.Rest Canon) : s.l2Empty.Rest Canon := .sameWf rfl (.wf (.wf h))

theorem State.Rest.l2Invalidate {s : State} (h : s.Rest Canon) : s.l2Invalidate.Rest Canon :=
  .ite (.wf (.wf h)) h

theorem keeps_execL2Invalidate {s : State} : Keeps s (execL2Invalidate s) :=
  .next fun h => .l2Invalidate h

theorem keeps_execL2InvalidateDone {s : State} : Keeps s (execL2InvalidateDone s) :=
  .ite (.next (fun h => .wf (.wf (.wf (.l2Empty h))))) (.next id)

theorem State.Rest.l2Enable {s : State} (h : s.Rest Canon) : s.l2Enable.Rest Canon :=
  .ite h (.ite (.wf (.wf h)) (.l2Bad h))

theorem keeps_execL2Enable {s : State} : Keeps s (execL2Enable s) := .next fun h => .l2Enable h

theorem State.Rest.l2Disable {s : State} (h : s.Rest Canon) : s.l2Disable.Rest Canon :=
  .ite h (.wf (.wf (.sameWf rfl (.foldl (fun _ _ h' => .l2Dirty h') h))))

theorem keeps_execL2Disable {s : State} : Keeps s (execL2Disable s) := .next fun h => .l2Disable h

theorem keeps_execL2DrainComplete {s : State} : Keeps s (execL2DrainComplete s) :=
  .ite (.next (fun h => .wf (.wf (.wf (.l2Empty h))))) (.next id)

theorem State.Rest.l2Preload {s : State} {way : Nat} (h : s.Rest Canon) : (s.l2Preload way).Rest Canon :=
  .ite h (.ite (.sameWf rfl (.wf h)) (.l2Bad h))

theorem keeps_execL2Preload {way : Fin 16} {s : State} : Keeps s (execL2Preload way s) :=
  .next fun h => .l2Preload h

theorem State.Rest.preloadLine {s : State} {way line : Nat} (h : s.Rest Canon) : (s.preloadLine way line).Rest Canon := by
  unfold State.preloadLine
  split
  · exact .ite h (.sameWf rfl (by
      split
      · exact .l2Evict h
      · exact h))
  · exact .sameWf rfl (by
      split
      · exact .l2Evict h
      · exact h)

theorem keeps_execL2PreloadDone {s : State} : Keeps s (execL2PreloadDone s) := by
  unfold execL2PreloadDone
  split
  · exact .next id
  · exact .ite (.next (fun h => .sameWf rfl (.wf h))) (.next (fun h => .wf (.foldl (fun _ _ h' => .preloadLine h') (.sameWf rfl (.wf h)))))

theorem State.Rest.l2LockWrite {s : State} {v : Nat} (h : s.Rest Canon) : (s.l2LockWrite v).Rest Canon :=
  .iteNot (.wf h) fun h2 => .l2Bad h2

theorem keeps_execL2LockWrite {v : BitVec 32} {s : State} : Keeps s (execL2LockWrite v s) :=
  .next fun h => .l2LockWrite h

theorem State.Rest.irqClaim {s : State} {c p : Nat} (h : s.Rest Canon) : (s.irqClaim c p).2.Rest Canon :=
  .iteSnd h (.ite (.deassert h) h)

theorem State.Rest.irqComplete {s : State} {c p k : Nat} (h : s.Rest Canon) : (s.irqComplete c p k).Rest Canon :=
  .ite h h

theorem keeps_execInterruptAssert {src : Fin 128} {s : State} : Keeps s (execInterruptAssert src s) :=
  .ite (.next id) (.next (fun h => .assertWith (fun _ _ h1' => .occur h1') h))

theorem keeps_execInterruptClaim {core : Fin 24} {sup : Bool} {by_ : Fin 24} {s : State} :
    Keeps s (execInterruptClaim core sup by_ s) := .next fun h => .emit (.irqClaim h)

theorem keeps_execInterruptComplete {core : Fin 24} {sup : Bool} {src : Fin 128} {s : State} :
    Keeps s (execInterruptComplete core sup src s) := .next fun h => .irqComplete h

theorem keeps_execSoftwareInterruptWrite {core : Fin 24} {sup v : Bool} {s : State} :
    Keeps s (execSoftwareInterruptWrite core sup v s) := .next fun h => .wf h

theorem State.Rest.putRow {locked : Bool} {key k v : Nat} {r : FRow} {s : State} (h : s.Rest Canon) :
    (Machine.putRow locked key k v r s).Rest Canon := by
  unfold Machine.putRow
  split
  · exact h
  · split
    · exact .wf h
    · exact .iteNot h fun h => .wf h
    · exact .wf h
    · exact .wf h
    · exact h
    · exact h

theorem State.Rest.putRows {s : State} {locked : Bool} {key k v : Nat} (h : s.Rest Canon) : (s.putRows locked key k v).Rest Canon :=
  .foldl (fun _ _ h' => .putRow h') h

theorem State.Rest.hdrCommit {s : State} {page off k v : Nat} (h : s.Rest Canon) : (s.hdrCommit page off k v).Rest Canon := by
  unfold State.hdrCommit
  dsimp only
  split
  · exact .ctlCommit h
  · exact .errStatWrite h
  · exact .errMaskWrite h
  · exact .ite h (.errClassWrite h)
  · exact .fenceSync (.errInj h)
  · exact .putRows h

theorem State.Rest.svcCommit {s : State} {env : WriteEnv} {locked : Bool} {page off k v : Nat} (h : s.Rest Canon) :
    (s.svcCommit env locked page off k v).Rest Canon := by
  unfold State.svcCommit
  dsimp only
  split
  · exact .modeCmd h
  · exact .ite (.bootOk h) (.ite (.confirm h) (.ite (.revert h) (.updResult h)))
  · exact .ite (.flCmdRead h) (.ite (.cabAppend h) (.ite (.cabFind h) (.flResult h)))
  · exact .faultClear h
  · exact .faultClear h
  · exact .keyCmd h
  · exact .signCmd h
  · exact .ite (.calSet h) h
  · exact .putRows h

theorem State.Rest.vlogRd {s : State} {v : Nat} (h : s.Rest Canon) : (s.vlogRd v).Rest Canon := .sameWf rfl (.wf h)

theorem State.Rest.wglRd {s : State} {v : Nat} (h : s.Rest Canon) : (s.wglRd v).Rest Canon := .updDyn h

theorem State.Rest.ioCommit {s : State} {locked : Bool} {page off k v : Nat} (h : s.Rest Canon) : (s.ioCommit locked page off k v).Rest Canon :=
  .ite (.ite (.settle (.portCfgWrite h)) (.putRows h)) (by
    split
    · exact .iteOf (.putRows h) fun h2 => h2
    · exact .vlogRd h
    · exact .settle (.slmCmd h)
    · exact .wglRd h
    · exact h
    · exact .dgePost h
    · exact .cphPost h
    · exact .putRows h)

theorem State.Rest.mediaCommit {s : State} {env : WriteEnv} {locked : Bool} {page off k v : Nat} (h : s.Rest Canon) :
    (s.mediaCommit env locked page off k v).Rest Canon := by
  unfold State.mediaCommit
  split
  · exact .layCmd h
  · exact .lostRd h
  · exact .snapCmd h
  · exact .ite (.mpcInvalidate h) (.ite (.mpcPreload h) h)
  · exact .mpcLockWrite h
  · exact .ite (.mpcEnable h) (.mpcDisable h)
  · exact .putRows h

theorem State.Rest.linkCommit {s : State} {locked : Bool} {page off k v : Nat} (h : s.Rest Canon) :
    (s.linkCommit locked page off k v).Rest Canon :=
  .ite (.claimCmd h) (by
    split
    · exact .rplCmd h
    · exact .ite (.hbcFence h) h
    · exact .ite (.ddcFence h) h
    · exact .putRows h)

theorem State.Rest.cclCommit {s : State} {locked : Bool} {off k v : Nat} (h : s.Rest Canon) : (s.cclCommit locked off k v).Rest Canon := by
  unfold State.cclCommit
  split
  · exact .coreRunWrite h
  · exact .ite (.l2Enable h) (.l2Disable h)
  · exact .ite (.l2Invalidate h) (.ite (.l2Preload h) h)
  · exact .l2LockWrite h
  · exact h
  · exact .putRows h

theorem State.Rest.localCommit {s : State} {r key k v : Nat} (h : s.Rest Canon) : (s.localCommit r key k v).Rest Canon := by
  unfold State.localCommit
  dsimp only
  split
  · exact .timerSet (.putRows h)
  · exact .irqComplete h
  · exact .irqComplete h
  · exact .putRows h

theorem State.Rest.commit {s : State} {env : WriteEnv} {r key k v : Nat} (h : s.Rest Canon) : (s.commit env r key k v).Rest Canon :=
  .ite (.localCommit h) (.ite (.hdrCommit h) (.ite (.svcCommit h) (.ite (.ioCommit h) (.ite (.mediaCommit h) (.ite (.cclCommit h) (.ite
      (.putRows h) (.linkCommit h)))))))

theorem State.Rest.dropOther {s : State} {r base : Nat} (h : s.Rest Canon) : (s.dropOther r base).Rest Canon := by
  unfold State.dropOther
  dsimp only
  split
  · exact .iteNot (by
      split
      · exact .ite h h
      · exact h) fun h2 => h2
  · split
    · exact .ite h h
    · exact h

theorem State.Rest.read32 {s : State} {r key : Nat} (h : s.Rest Canon) : (s.read32 r key).2.Rest Canon :=
  .iteSnd (.irqClaim h) (by
    split
    · exact h
    · exact .sameWf rfl (.dropOther h)
    · dsimp only
      split
      · exact .sameWf rfl (.dropOther h)
      · exact .dropOther h)

theorem State.Rest.write32 {s : State} {env : WriteEnv} {r key v : Nat} (h : s.Rest Canon) : (s.write32 env r key v).Rest Canon := by
  unfold State.write32
  split
  · exact .commit h
  · exact .ite (.commit (.dropOther h)) (.ite (.sameWf rfl (.dropOther h)) (.commit (.sameWf rfl (.dropOther h))))

theorem State.Rest.read64 {s : State} {r key : Nat} (h : s.Rest Canon) : (s.read64 r key).2.Rest Canon :=
  .iteSnd (.sameWf rfl (.dropOther h)) (.read32 (.read32 h))

theorem State.Rest.write64 {s : State} {env : WriteEnv} {r key v : Nat} (h : s.Rest Canon) : (s.write64 env r key v).Rest Canon :=
  .ite (.commit (.sameWf rfl (.dropOther h))) (.write32 (.write32 h))

theorem State.Rest.answerRead {s : State} {r key v : Nat} (h : s.Rest Canon) : (s.answerRead r key v).Rest Canon :=
  .emit h

theorem State.Rest.unassigned {s : State} {r key : Nat} {isWrite : Bool} (h : s.Rest Canon) : (s.unassigned r key isWrite).Rest Canon :=
  .ite (.raise (.ite h (.answerRead h))) (.raise (.emit h))

theorem State.Rest.badAccess {s : State} {r key : Nat} {isWrite : Bool} (h : s.Rest Canon) : (s.badAccess r key isWrite).Rest Canon :=
  .raise (.ite h (.answerRead h))

theorem State.Rest.serveAccess {s : State} {env : WriteEnv} {r key size : Nat} {wr : Option Nat} (h : s.Rest Canon) :
    (s.serveAccess env r key size wr).Rest Canon := by
  unfold State.serveAccess
  split
  · exact .ite (.write64 h) (.write32 h)
  · exact .answerRead (.iteSnd (.read64 h) (.read32 h))

theorem State.Rest.csAccess {s : State} {env : WriteEnv} {r key size : Nat} {wr : Option Nat} (h : s.Rest Canon) :
    (s.csAccess env r key size wr).Rest Canon :=
  .ite h (.ite (.emit h) (.ite (.ite h (.ite (.serveAccess h) (.badAccess h))) (.ite (.unassigned h) (.ite (.raise (.inc h)) (.ite (.ite h
      (.answerRead h)) (.ite (.serveAccess h) (.badAccess h)))))))

theorem keeps_execRegisterWrite {r : Requester} {key : Fin 67207168} {v : BitVec 32} {env : WriteEnv} {s : State} :
    Keeps s (execRegisterWrite r key v env s) := .next fun h => .csAccess h

theorem keeps_execReadCapture64 {r : Requester} {key : Fin 67207168} {s : State} : Keeps s (execReadCapture64 r key s) :=
  .next fun h => .csAccess h

theorem keeps_execWriteUpperShadow {r : Requester} {key : Fin 67207168} {v : BitVec 32} {s : State} :
    Keeps s (execWriteUpperShadow r key v s) := .next fun h => .csAccess h

theorem keeps_execWriteLowerCommit {r : Requester} {key : Fin 67207168} {v : BitVec 32} {s : State} :
    Keeps s (execWriteLowerCommit r key v s) := .next fun h => .csAccess h

theorem keeps_execAnnex64bitAccess {key : Fin 67207168} {wr : Option (BitVec 64)} {env : WriteEnv} {s : State} :
    Keeps s (execAnnex64bitAccess key wr env s) := .next fun h => .csAccess h

theorem keeps_execMisalignedAccess {r : Requester} {key : Fin 67207168} {size : Fin 9} {wr : Option (BitVec 64)} {s : State} :
    Keeps s (execMisalignedAccess r key size wr s) := .next fun h => .csAccess h

theorem keeps_execUnassignedPageAccess {r : Requester} {key : Fin 67207168} {wr : Option (BitVec 32)} {s : State} :
    Keeps s (execUnassignedPageAccess r key wr s) := .next fun h => .csAccess h

theorem State.Rest.prefetch {s : State} {c pc addr : Nat} {store : Bool} (h : s.Rest Canon) : (s.prefetch c pc addr store).Rest Canon :=
  .ite (.foldl (fun _ _ h' => .l2Prefetch h') (.updCore h)) h

theorem State.Rest.memAct {s : State} {c a : Nat} {acc : CoreAcc} (h : s.Rest Canon) : (s.memAct c a acc).2.Rest Canon := by
  unfold State.memAct
  dsimp only
  split
  · exact h
  · exact h
  · exact h
  · exact .updCore h
  · exact .store h
  · exact .store h
  · exact .updCore (.ite (.store h) h)

theorem State.Rest.bypass {s : State} {c a : Nat} {acc : CoreAcc} (h : s.Rest Canon) : (s.bypass c a acc).Rest Canon := by
  unfold State.bypass
  dsimp only
  split
  · exact .emit (.ite (.sameWf rfl (.memAct h)) (.memAct h))
  · exact .ite (.sameWf rfl (.memAct h)) (.memAct h)

theorem State.Rest.cachedData {s : State} {c pc a : Nat} {acc : CoreAcc} (h : s.Rest Canon) : (s.cachedData c pc a acc).Rest Canon :=
  .prefetch (.ite (by
    dsimp only
    split
    · exact .emit (.l1dInsert (.iteOf (.memAct h) fun h2 => .l1Drop h2))
    · exact .l1dInsert (.iteOf (.memAct h) fun h2 => .l1Drop h2)) (.l2Demand (.memAct h)))

theorem State.Rest.cachedFetch {s : State} {c a n : Nat} {trap : Bool} (h : s.Rest Canon) : (s.cachedFetch c a n trap).Rest Canon :=
  .ite (.emit (.l1iInsert h)) (.l2Demand h)

theorem State.Rest.coreMem {s : State} {c pc a : Nat} {acc : CoreAcc} {cached : Bool} (h : s.Rest Canon) :
    (s.coreMem c pc a acc cached).Rest Canon :=
  .ite (.emit h) (.ite (.emit h) (.ite (.bypass h) (by
    split
    · exact .cachedFetch h
    · exact .cachedData h)))

theorem State.Rest.walkRead {s : State} {a n : Nat} (h : s.Rest Canon) : (s.walkRead a n).Rest Canon :=
  .ite (.l2Demand h) (.emit h)

theorem State.Rest.coreDevice {s : State} {env : WriteEnv} {c key a : Nat} {acc : CoreAcc} (h : s.Rest Canon) :
    (s.coreDevice env c key a acc).Rest Canon := by
  unfold State.coreDevice
  split
  · exact .csAccess h
  · exact .csAccess h
  · exact .emit h

theorem State.Rest.coreAccess {s : State} {env : WriteEnv} {c pc a : Nat} {acc : CoreAcc} (h : s.Rest Canon) :
    (s.coreAccess env c pc a acc).Rest Canon :=
  .ite (.ite (.emit h) (.coreMem h)) (.ite (.coreDevice h) (.ite (.coreDevice h) (.ite (.ite (.coreMem h) (.ite (.coreMem h) (.emit h)))
      (.ite (.coreMem h) (.raise (.emit h))))))

theorem keeps_execCoreDataAccess {core : Fin 24} {pc addr : Nat} {acc : CoreAcc} {env : WriteEnv} {s : State} :
    Keeps s (execCoreDataAccess core pc addr acc env s) := by
  unfold execCoreDataAccess
  split
  · exact .next fun h => .walkRead h
  · exact .next fun h => .ite (.coreAccess h) h

end Sys2Proof.Machine
end

section
/-! SUPPORT for O56 and O57. The invariant (logs 6 and 10) through
the dispatch, the tick and the step.
Each lemma repeats the shape of the definition whose name it bears. -/
namespace Sys2Proof.Machine
open Sys2Proof Sys2Proof.Laws

variable {Q : RestPart → Prop}

theorem keeps_exec {i : Instr} {s : State} : Keeps s (exec i s) := by
  unfold exec
  split
  · exact keeps_execRegisterWrite
  · exact keeps_execReadCapture64
  · exact keeps_execWriteUpperShadow
  · exact keeps_execWriteLowerCommit
  · exact keeps_execAnnex64bitAccess
  · exact keeps_execMisalignedAccess
  · exact keeps_execUnassignedPageAccess
  · exact keeps_execHbcFence
  · exact keeps_execDdcFence
  · exact keeps_execDdrChannelLoss
  · exact keeps_execDdcScrub
  · exact keeps_execCeWindowEnd
  · exact keeps_execAutoJoin
  · exact keeps_execHbmRefreshDouble
  · exact keeps_execHbmRefreshNormal
  · exact keeps_execJoin
  · exact keeps_execServeSolo
  · exact keeps_execHandover
  · exact keeps_execStop
  · exact keeps_execEnterService
  · exact keeps_execPartnerLoss
  · exact keeps_execQuorumReached
  · exact keeps_execQuorumTimeout
  · exact keeps_execHandoverDrainComplete
  · exact keeps_execPwrFailFall
  · exact keeps_execPwrFailRise
  · exact keeps_execGondolaSeal
  · exact keeps_execGondolaAbandon
  · exact keeps_execVaultExit
  · exact keeps_execResetAssert
  · exact keeps_execResetRelease
  · exact keeps_execBootComplete
  · exact keeps_execCeilingWrite
  · exact keeps_execCeilingWriteDone
  · exact keeps_execCeilingStall
  · exact keeps_execCalSet
  · exact keeps_execRtcHourlyUpdate
  · exact keeps_execLogicalOvfResume
  · exact keeps_execTetherExchangeStart
  · exact keeps_execTetherReq
  · exact keeps_execTetherRsp
  · exact keeps_execTetherExchangeLost
  · exact keeps_execTetherLockLoss
  · exact keeps_execCommitWaitPass
  · exact keeps_execGroupStamp
  · exact keeps_execLanePageFlush
  · exact keeps_execLanePageDurable
  · exact keeps_execLaneHorizonAdvance
  · exact keeps_execPartnerGroupApply
  · exact keeps_execPortCfgWrite
  · exact keeps_execPortLinkUp
  · exact keeps_execPortLinkDown
  · exact keeps_execEcnMarkedPacket
  · exact keeps_execCnpReceived
  · exact keeps_execRateRegain
  · exact keeps_execIcreq
  · exact keeps_execFabricsConnect
  · exact keeps_execReadCmd
  · exact keeps_execWriteCmd
  · exact keeps_execFlushCmd
  · exact keeps_execWriteZeroes
  · exact keeps_execDatasetManagement
  · exact keeps_execCopyCmd
  · exact keeps_execCompareCmd
  · exact keeps_execReservationRegister
  · exact keeps_execReservationReport
  · exact keeps_execReservationAcquire
  · exact keeps_execReservationRelease
  · exact keeps_execIdentifyCmd
  · exact keeps_execGetLogPage
  · exact keeps_execGetFeatures
  · exact keeps_execSetFeatures
  · exact keeps_execKeepAlive
  · exact keeps_execAbortCmd
  · exact keeps_execAsyncEventRequest
  · exact keeps_execH2cData
  · exact keeps_execRdmaReadResponse
  · exact keeps_execRocePacketOutOfWindow
  · exact keeps_execAnnexDoorbell
  · exact keeps_execAnnexQueueCreate
  · exact keeps_execAnnexQueueDelete
  · exact keeps_execKeepAliveTimeout
  · exact keeps_execConnectionEnd
  · exact keeps_execVcntClear
  · exact keeps_execTcpRetransmit
  · exact keeps_execHostDataAck
  · exact keeps_execCreateCmd
  · exact keeps_execReshape
  · exact keeps_execQuiesce
  · exact keeps_execResumeCmd
  · exact keeps_execResetCmd
  · exact keeps_execRemoveCmd
  · exact keeps_execFreeze
  · exact keeps_execSaveCmd
  · exact keeps_execRestoreCmd
  · exact keeps_execWglStart
  · exact keeps_execWglStop
  · exact keeps_execQuiesceComplete
  · exact keeps_execResetComplete
  · exact keeps_execBridleEpoch
  · exact keeps_execPartner1msExchange
  · exact keeps_execDemand
  · exact keeps_execMeterCnt
  · exact keeps_execMeterRec
  · exact keeps_execMeterAck
  · exact keeps_execInflight
  · exact keeps_execMinuteClose
  · exact keeps_execMeterPublish
  · exact keeps_execHourlySeal
  · exact keeps_execAttributionSweep
  · exact keeps_execFingerprint
  · exact keeps_execTrailerFetchDone
  · exact keeps_execCompressDone
  · exact keeps_execGrainEncryptDone
  · exact keeps_execSegmentSeal
  · exact keeps_execSegmentDurable
  · exact keeps_execHitExpiry
  · exact keeps_execPinRecord
  · exact keeps_execCtFreeIssue
  · exact keeps_execSnapCreate
  · exact keeps_execSnapDelete
  · exact keeps_execPageReq
  · exact keeps_execPageRsp
  · exact keeps_execCheckpointStart
  · exact keeps_execCheckpointComplete
  · exact keeps_execMpcInvalidate
  · exact keeps_execMpcInvalidateDone
  · exact keeps_execMpcPreload
  · exact keeps_execMpcPreloadDone
  · exact keeps_execMpcEnable
  · exact keeps_execMpcDisable
  · exact keeps_execMpcDrainComplete
  · exact keeps_execMpcLockWrite
  · exact keeps_execMpcHotWindow
  · exact keeps_execStagingBufferFree
  · exact keeps_execCreatePool
  · exact keeps_execLayoutReshape
  · exact keeps_execRetire
  · exact keeps_execRetireGraceExpiry
  · exact keeps_execReshapeComplete
  · exact keeps_execSegmentOpen
  · exact keeps_execUnitRebuild
  · exact keeps_execRebuiltAdvance
  · exact keeps_execLostGrainWalk
  · exact keeps_execFoldStart
  · exact keeps_execFoldUnitsDurable
  · exact keeps_execFoldRetireSource
  · exact keeps_execGcStart
  · exact keeps_execGcRelocateCommit
  · exact keeps_execBlockEraseIssue
  · exact keeps_execPageMove
  · exact keeps_execPatrolRead
  · exact keeps_execDieRecordWrite
  · exact keeps_execSignalDetect
  · exact keeps_execTrainRateTimeout
  · exact keeps_execLaneTrained
  · exact keeps_execAlignLock
  · exact keeps_execTrainSendTick
  · exact keeps_execTrain
  · exact keeps_execRetrainEntry
  · exact keeps_execRetrainTimeout
  · exact keeps_execSignalLost
  · exact keeps_execJonanNak
  · exact keeps_execJonanIdle
  · exact keeps_execJonanAckTimer
  · exact keeps_execEventCmd
  · exact keeps_execJonanRead
  · exact keeps_execJonanProgram
  · exact keeps_execJonanErase
  · exact keeps_execJonanStatus
  · exact keeps_execParamCmd
  · exact keeps_execClaim
  · exact keeps_execClaimRelease
  · exact keeps_execWitnessWrite
  · exact keeps_execWitnessRead
  · exact keeps_execBridgeOpStart
  · exact keeps_execClaimAnswer
  · exact keeps_execJonanRsp
  · exact keeps_execRequestTimeout
  · exact keeps_execJlkClaim
  · exact keeps_execJlkRelease
  · exact keeps_execWitnessTick
  · exact keeps_execStatusPoll
  · exact keeps_execHelloSendTick
  · exact keeps_execHello
  · exact keeps_execCaridRetrain
  · exact keeps_execCaridNak
  · exact keeps_execCaridIdle
  · exact keeps_execRekeyTimer
  · exact keeps_execRekey
  · exact keeps_execGrain
  · exact keeps_execRcpt
  · exact keeps_execBind
  · exact keeps_execBindAck
  · exact keeps_execFreeCmd
  · exact keeps_execCancelCmd
  · exact keeps_execRecs
  · exact keeps_execHorizon
  · exact keeps_execLackTick
  · exact keeps_execLack
  · exact keeps_execPt
  · exact keeps_execHfcHint
  · exact keeps_execHeartbeatTick
  · exact keeps_execHeartbeat
  · exact keeps_execSplitYield
  · exact keeps_execForwardCmd
  · exact keeps_execWdata
  · exact keeps_execRdata
  · exact keeps_execDone
  · exact keeps_execForwardAbort
  · exact keeps_execMovePropose
  · exact keeps_execMoveAgree
  · exact keeps_execMoveComplete
  · exact keeps_execMoveDone
  · exact keeps_execJoinReq
  · exact keeps_execJoinRsp
  · exact keeps_execJoinVersionWaitEnd
  · exact keeps_execJoinSwitch
  · exact keeps_execReleaseReq
  · exact keeps_execReleased
  · exact keeps_execRingCmd
  · exact keeps_execJoinDone
  · exact keeps_execHoReq
  · exact keeps_execHoAck
  · exact keeps_execClaimgen
  · exact keeps_execStartCmd
  · exact keeps_execRplCancel
  · exact keeps_execSealAck
  · exact keeps_execRplSeal
  · exact keeps_execRspConnectAccept
  · exact keeps_execRspHello
  · exact keeps_execSession
  · exact keeps_execOffer
  · exact keeps_execWant
  · exact keeps_execRspGrain
  · exact keeps_execExtent
  · exact keeps_execRspSeal
  · exact keeps_execRspAbort
  · exact keeps_execRspIdleTimeout
  · exact keeps_execRspConnectionLoss
  · exact keeps_execDiffWalkBatch
  · exact keeps_execDgeFwqPost
  · exact keeps_execCphFwqPost
  · exact keeps_execSha256
  · exact keeps_execHmac
  · exact keeps_execCompareDigest
  · exact keeps_execXtsEnc
  · exact keeps_execXtsDec
  · exact keeps_execGcmEnc
  · exact keeps_execGcmDec
  · exact keeps_execDigestComplete
  · exact keeps_execCipherComplete
  · exact keeps_execChainTimeout
  · exact keeps_execCphRequestAged
  · exact keeps_execImportCmd
  · exact keeps_execGenerate
  · exact keeps_execLoadCmd
  · exact keeps_execErase
  · exact keeps_execKeyEraseDone
  · exact keeps_execQuote
  · exact keeps_execPubkey
  · exact keeps_execMeasExtend
  · exact keeps_execGenIdentity
  · exact keeps_execSignatureRelease
  · exact keeps_execNodeTablesReady
  · exact keeps_execNextTreeBuild
  · exact keeps_execAlarm
  · exact keeps_execNoiseSourceFail
  · exact keeps_execCoreRunWrite
  · exact keeps_execStampCsrRead
  · exact keeps_execTimerCompareMatch
  · exact keeps_execCoreDataAccess
  · exact keeps_execCriticalChunk
  · exact keeps_execL2LineFill
  · exact keeps_execL2Invalidate
  · exact keeps_execL2InvalidateDone
  · exact keeps_execL2Preload
  · exact keeps_execL2PreloadDone
  · exact keeps_execL2Enable
  · exact keeps_execL2Disable
  · exact keeps_execL2DrainComplete
  · exact keeps_execL2LockWrite
  · exact keeps_execInterruptAssert
  · exact keeps_execInterruptClaim
  · exact keeps_execInterruptComplete
  · exact keeps_execSoftwareInterruptWrite
  · exact keeps_execBootOk
  · exact keeps_execConfirm
  · exact keeps_execRevert
  · exact keeps_execProbationExpiry
  · exact keeps_execFlRead
  · exact keeps_execCabAppend
  · exact keeps_execCabFind
  · exact keeps_execCabinetCompact
  · exact keeps_execTftpWrq
  · exact keeps_execTftpRrq
  · exact keeps_execTftpData
  · exact keeps_execTftpAck
  · exact keeps_execTftpRetransmit
  · exact keeps_execErrorOccurrence
  · exact keeps_execErrInjWrite
  · exact keeps_execFclFaultClear
  · exact keeps_execFclLogRdWrite
  · exact keeps_execPinHoldWrite
  · exact keeps_execFaultNPulseEnd
  · exact keeps_execEvrSample
  · exact keeps_execEvrPeriodClose
  · exact keeps_execEvrEventProgram
  · exact keeps_execPowerStateEntry
  · exact keeps_execPowerStateExit
  · exact keeps_execCtlEnWrite
  · exact keeps_execBlockStopped
  · exact keeps_execSoftReset
  · exact keeps_execSoftResetDone
  · exact keeps_execCtlFenceWrite
  · exact keeps_execCtlLockWrite
  · exact keeps_execPrsntRise
  · exact keeps_execPrsntFall
  · exact keeps_execLaneEnable
  · exact keeps_execEjectReq
  · exact keeps_execPowerDown
  · exact keeps_execVbatLoss
  · exact keeps_execRefclkPcieChange
  · exact keeps_execUnsupportedOpcode
  · exact keeps_execInvalidPdu
  · exact keeps_execRdmaCmConnect
  · exact keeps_execPriorityFlowControl
  · exact keeps_execServicePortFrame
  · exact keeps_execNamespaceManagement
  · exact keeps_execOwnershipMove
  · exact keeps_execDieOperationDone
  · exact keeps_execBootFlashProgramDone
  · exact keeps_execMapPageRebuildDone

theorem State.Rest.physTick {s : State} (h : s.Rest Canon) : s.physTick.Rest Canon := .ite h h

theorem State.Rest.rtcTick {s : State} (h : s.Rest Canon) : s.rtcTick.Rest Canon := .ite h h

theorem State.Rest.epsTick {s : State} (h : s.Rest Canon) : s.epsTick.Rest Canon := .ite (.raise h) h

theorem State.Rest.tick {s : State} (h : s.Rest Canon) : s.tick.Rest Canon :=
  .bootResume (.epsTick (.rtcTick (.physTick h)))

theorem keeps_step {s : State} : Keeps s (step s) := by
  unfold step
  split
  · exact .next fun h => .tick h
  · obtain ⟨t, ht, hk⟩ := keeps_exec (i := _) (s := { s with pending := _ })
    exact ⟨t, ht, hk⟩

end Sys2Proof.Machine
end

section
/-! The obligations on every step: the invariant is kept, and every step answers. -/
namespace Sys2Proof.Proofs
open Sys2Proof Sys2Proof.Machine Sys2Proof.Laws

/-- Settles O56: each row's operations keep the invariant (`keeps_step`). -/
theorem invKeptByEveryStep : Obligations.InvKeptByEveryStep := by
  intro s t h e
  obtain ⟨u, hu, hk⟩ := keeps_step (s := s)
  rw [hu] at e
  cases e
  exact rest_canon_iff.mp (hk (rest_canon_iff.mpr h))

/-- Settles O57: each row answers a next state (`keeps_exec`). -/
theorem everyStepAnswers : Obligations.EveryStepAnswers := by
  refine ⟨fun s => ?_, fun c s => ?_⟩
  · obtain ⟨t, ht, -⟩ := keeps_step (s := s)
    exact ⟨t, ht⟩
  · obtain ⟨t, ht, -⟩ := keeps_exec (i := c) (s := s)
    exact ⟨t, ht⟩

end Sys2Proof.Proofs
end

section
/-! O58: what little-endian fields, records under a CRC-32C and journal records read back as (R10, R127, Table 3-7). -/
namespace Sys2Proof.Proofs
open Sys2Proof Sys2Proof.Machine Sys2Proof.Laws

theorem leVal_le (n k : Nat) : leVal (le n k) = n % 256 ^ k := by
  induction k generalizing n with
  | zero => simp [le, leVal, Nat.mod_one]
  | succ k ih =>
    rw [le, leVal, ih, Nat.pow_succ', Nat.mod_mul, BitVec.toNat_ofNat]

/-- A field of k bytes behind a run reads back what was written there. -/
theorem leAt_append_le {pre rest l : Bytes} {n o k : Nat} (hl : l = pre ++ (le n k ++ rest)) (ho : pre.length = o)
    (hn : n < 256 ^ k) : leAt l o k = n := by
  subst hl ho
  rw [leAt, slice, List.drop_left, List.take_left' (le_length n k), leVal_le, Nat.mod_eq_of_lt hn]

theorem withCrc_length (l : Bytes) : (withCrc l).length = l.length + 4 := by
  simp [withCrc, le_length]

/-- A structure closed by its CRC-32C checks. -/
theorem crcOk_withCrc {l : Bytes} {n : Nat} (hl : l.length + 4 = n) : crcOk n (withCrc l) = true := by
  subst hl
  have hread : leAt (withCrc l) l.length 4 = crc32c l :=
    leAt_append_le (rest := []) (by rw [List.append_nil]; rfl) rfl (BitVec.isLt _)
  rw [crcOk, Nat.add_sub_cancel, hread, slice, List.drop_zero, withCrc, List.take_left, beq_self_eq_true]

theorem jrBytes_length (r : JRec) : (jrBytes r).length = 64 := by
  simp [jrBytes, withCrc_length, le_length, zeros]

/-- Settles O58: the record's CRC checks and each field reads back at its offset. -/
theorem journalRecordRoundTrip : Obligations.JournalRecordRoundTrip := by
  intro r hostamp htyp hflags hidx hcnt hhead hlane htarget hold hnew
  refine ⟨jrBytes_length r, ?_⟩
  have hcrc : crcOk 64 (jrBytes r) = true := crcOk_withCrc (by simp [le_length, zeros])
  have field (pre rest : Bytes) (n o k : Nat) (hl : jrBytes r = pre ++ (le n k ++ rest)) (ho : pre.length = o)
      (hn : n < 256 ^ k) : leAt (jrBytes r) o k = n := leAt_append_le hl ho hn
  have e0 : leAt (jrBytes r) 0 12 = r.ostamp := field [] _ _ _ _ (by simp [jrBytes, withCrc]; rfl) rfl hostamp
  have e12 : leAt (jrBytes r) 12 1 = r.typ :=
    field (le r.ostamp 12) _ _ _ _ (by simp [jrBytes, withCrc]; rfl) (by simp [le_length]) htyp
  have e13 : leAt (jrBytes r) 13 1 = r.flags :=
    field (le r.ostamp 12 ++ le r.typ 1) _ _ _ _ (by simp [jrBytes, withCrc]; rfl) (by simp [le_length]) hflags
  have e14 : leAt (jrBytes r) 14 3 = r.idx + r.cnt * 4096 :=
    field (le r.ostamp 12 ++ le r.typ 1 ++ le r.flags 1) _ _ _ _ (by simp [jrBytes, withCrc]; rfl) (by simp [le_length]) (by omega)
  have e17 : leAt (jrBytes r) 17 1 = r.head * 128 + r.lane :=
    field (le r.ostamp 12 ++ le r.typ 1 ++ le r.flags 1 ++ le (r.idx + r.cnt * 4096) 3) _ _ _ _
      (by simp [jrBytes, withCrc]; rfl) (by simp [le_length]) (by omega)
  have e20 : leAt (jrBytes r) 20 8 = r.target :=
    field (le r.ostamp 12 ++ le r.typ 1 ++ le r.flags 1 ++ le (r.idx + r.cnt * 4096) 3 ++ le (r.head * 128 + r.lane) 1 ++ zeros 2)
      _ _ _ _ (by simp [jrBytes, withCrc]; rfl) (by simp [le_length, zeros]) htarget
  have e28 : leAt (jrBytes r) 28 16 = r.old :=
    field (le r.ostamp 12 ++ le r.typ 1 ++ le r.flags 1 ++ le (r.idx + r.cnt * 4096) 3 ++ le (r.head * 128 + r.lane) 1 ++ zeros 2
      ++ le r.target 8) _ _ _ _ (by simp [jrBytes, withCrc]; rfl) (by simp [le_length, zeros]) hold
  have e44 : leAt (jrBytes r) 44 16 = r.new :=
    field (le r.ostamp 12 ++ le r.typ 1 ++ le r.flags 1 ++ le (r.idx + r.cnt * 4096) 3 ++ le (r.head * 128 + r.lane) 1 ++ zeros 2
      ++ le r.target 8 ++ le r.old 16) _ _ _ _ (by simp [jrBytes, withCrc]; rfl) (by simp [le_length, zeros]) hnew
  have hidx' : (r.idx + r.cnt * 4096) % 4096 = r.idx := by omega
  have hcnt' : (r.idx + r.cnt * 4096) / 4096 = r.cnt := by omega
  have hhead' : (r.head * 128 + r.lane) / 128 = r.head := by omega
  have hlane' : (r.head * 128 + r.lane) % 32 = r.lane := by omega
  rw [jrParse, if_pos ⟨jrBytes_length r, hcrc⟩]
  simp only [e0, e12, e13, e14, e17, e20, e28, e44, hidx', hcnt', hhead', hlane']

end Sys2Proof.Proofs
end

section
/-! O54 and O55: a step runs the front command; the state after reset. -/
namespace Sys2Proof.Proofs
open Sys2Proof Sys2Proof.Machine Sys2Proof.Laws

/-- Settles O54: the two cases of the queue. -/
theorem stepRunsFrontCommand : Obligations.StepRunsFrontCommand :=
  ⟨fun _ _ _ => rfl, fun s h => by simp [step, h]⟩

/-- Settles O55: each field and register of the reset state by its value. -/
theorem resetState : Obligations.ResetState := by
  refine ⟨rfl, rfl, rfl, rfl, ⟨rfl, rfl⟩, rfl, rfl, rfl, rfl, rfl, ?_⟩
  decide
end Sys2Proof.Proofs
end

section
/-! O2: what a write leaves in a field, by its access code (R13, R16). -/
namespace Sys2Proof.Proofs
open Sys2Proof Sys2Proof.Machine Sys2Proof.Laws

/-- A field set to a value that fits its width reads as that value. -/
theorem rf_wf_of_lt (s : State) (f : Fld) {v : Nat} (h : s.regsWf = true) (hv : v < 2 ^ f.w) : (s.wf f v).rf f = v := by
  rw [rf_wf_same s f v h, Nat.mod_eq_of_lt hv]

/-- Settles O2: each access code leaves the field as it is or sets it to a value of its width. -/
theorem accessCodes : Obligations.AccessCodes := by
  intro locked key k v lo w row s h hp
  have hx : fld v lo w < 2 ^ w := fld_le v lo w
  have hf : s.rf ⟨key, lo, w⟩ < 2 ^ w := rf_lt s ⟨key, lo, w⟩
  have same {u : Nat} (hu : u < 2 ^ w) : (s.wf ⟨key, lo, w⟩ u).rf ⟨key, lo, w⟩ = u := rf_wf_of_lt s _ h hu
  have other {u : Nat} : ∀ g : Fld, apart ⟨key, lo, w⟩ g = true → (s.wf ⟨key, lo, w⟩ u).rf g = s.rf g :=
    fun g hg => rf_wf_apart s _ g u h hg
  simp only [putRow, hp]
  cases row.acc with
  | rw => exact ⟨same hx, other⟩
  | rwl =>
    cases locked with
    | true => exact ⟨rfl, fun _ _ => rfl⟩
    | false => exact ⟨same hx, other⟩
  | w1c => exact ⟨same (by omega), other⟩
  | w1s => exact ⟨same (Nat.or_lt_two_pow hf hx), other⟩
  | ro => exact ⟨rfl, fun _ _ => rfl⟩
  | wo => exact ⟨rfl, fun _ _ => rfl⟩

end Sys2Proof.Proofs
end

section
/-! What an occurrence, a mode change and a fence keep: a predicate that survives each basic update they make survives the whole
(R55, R643 to R652). Below it, what an occurrence leaves in the error registers, and O59. -/
namespace Sys2Proof.Proofs
open Sys2Proof Sys2Proof.Machine Sys2Proof.Laws

/-! ## The registers an occurrence and a fence write -/

/-- The registers an occurrence without a fence or mode change writes, besides the error registers of the page headers. -/
inductive FaultField : Fld → Prop
  | group : FaultField R.FCL.FAULT.GROUP
  | fclass : FaultField R.FCL.FCLASS.CLASS
  | cntClass (c : Nat) (h : c < 4) : FaultField (R.FCL.CNT_CLASS.COUNT c)
  | entry (i : Nat) (h : i < 64) : FaultField (R.FCL.LOG.ENTRY i)
  | logWr : FaultField R.FCL.LOG_WR.INDEX
  | logRd : FaultField R.FCL.LOG_RD.INDEX
  | logLost : FaultField R.FCL.CNT_LOGLOST.COUNT
  | pinHold : FaultField R.FCL.PIN_HOLD.HOLD
  | stall : FaultField R.TBS.CNT_OVF.COUNT
  | redirect : FaultField R.CCL.CNT_IRQ_REDIR.COUNT

/-- The registers a fence of a unit of page p and a mode change write. -/
inductive FenceField (p : Nat) : Fld → Prop
  | modeStamp : FenceField p R.BSV.MODE_STAMP.ESTAMP
  | modeResult : FenceField p R.BSV.MODE_RESULT.RESULT
  | units : FenceField p (R.HDR.STAT.FENCED_UNITS p)
  | degraded : FenceField p (R.HDR.STAT.DEGRADED p)
  | lanes (n : Nat) (lo : 6 ≤ p) : FenceField p (R.HFX.PORT_STAT.FENCED (p - 6) n)
  | dge : FenceField p R.DGE.STAT.CORES
  | cph : FenceField p R.CPH.STAT.CORES
  | hard : FenceField p R.LDC.STAT.HARD
  | soft : FenceField p R.LDC.STAT.SOFT
  | cores : FenceField p R.CCL.CORE_FENCED.FENCED
  | channels : FenceField p R.DDC.CH_FENCED.CH
  | enabled : FenceField p R.DDC.STAT.CH_EN
  | usable : FenceField p R.DDC.USABLE.GIB
  | pcs : FenceField p R.HBC.PC_FENCED.PC
  | pcsLeft : FenceField p R.HBC.STAT.ENABLED
  | pcsPending : FenceField p R.HBC.PC_PENDING.PC

/-! ## Predicates an occurrence keeps -/

/-- A predicate that survives each basic update of an occurrence that neither fences nor changes the mode. -/
structure MinorKept (P : State → Prop) : Prop where
  field {s f v} : P s → FaultField f → P (s.wf f v)
  stat {s p c} : P s → P (s.setErrStat p c)
  stamps {s a b} : P s → P { s with tbs := { s.tbs with issuers := a, ovfStalls := b } }
  fcl {s : State} {x : Fcl} : P s → x.softRst = s.fcl.softRst → x.fusesLoaded = s.fcl.fusesLoaded → P { s with fcl := x }
  event {s t u d} : P s → P (s.evrEvent t u d)
  irq {s x} : P s → P { s with irq := x }
  emit {s m} : P s → P (s.emit m)

/-- A predicate on either branch holds of the choice. -/
theorem of_ite {α : Type} {P : α → Prop} {c : Prop} [Decidable c] {x y : α} (hx : P x) (hy : P y) : P (if c then x else y) := by
  split
  · exact hx
  · exact hy

namespace MinorKept
variable {P : State → Prop} (hP : MinorKept P) {s : State}
include hP

theorem ovfBegin {u : Nat} (h : P s) : P (s.ovfBegin u) := by
  unfold State.ovfBegin
  split
  · exact hP.stamps (s := s.inc R.TBS.CNT_OVF.COUNT) (a := (s.inc R.TBS.CNT_OVF.COUNT).tbs.issuers) (hP.field h .stall)
  · exact h

theorem issue {u : Nat} (h : P s) : P (s.issue u).2 := by
  unfold State.issue
  split
  · exact hP.stamps (b := s.tbs.ovfStalls) h
  · exact hP.ovfBegin h

theorem fclNew {o : Ostamp} {w : FclWait} (h : P s) : P (s.fclNew o w).2 := by
  have hwr : s.rf R.FCL.LOG_WR.INDEX < 64 := rf_lt s _
  unfold State.fclNew
  extract_lets wr e s1 gone _ s2 nx s3
  have h1 : P s1 := hP.field h (.entry _ hwr)
  have h3 : P s3 := hP.field (hP.fcl h1 rfl rfl) .logWr
  clear_value s3
  split
  · exact hP.field (hP.field h3 .logRd) .logLost
  · exact h3

theorem fclFresh {w : FclWait} (h : P s) : P (match s.issue Unit.fcl with
    | (some st, t) => t.fclNew st w
    | (none, t) => (false, { t with fcl := { t.fcl with wait := t.fcl.wait ++ [w] } })).2 := by
  have h1 := hP.issue (u := Unit.fcl) h
  split <;> rename_i e <;> rw [e] at h1
  · exact hP.fclNew h1
  · exact hP.fcl h1 rfl rfl

theorem fclPut {w : FclWait} (h : P s) : P (s.fclPut w).2 := by
  unfold State.fclPut
  extract_lets fresh
  have hfresh : P (fresh s).2 := hP.fclFresh h
  split
  · split
    · split
      · rename_i i _ _ hi
        exact hP.field h (.entry i hi)
      · exact hP.field h .logLost
    · exact hfresh
  · exact hfresh

theorem fclFlush (h : P s) : P s.fclFlush.2 := by
  have hfold (l : List FclWait) (a : Bool × State) (ha : P a.2) :
      P (l.foldl (fun (a : Bool × State) w => let b := a.2.fclPut w; (a.1 || b.1, b.2)) a).2 := by
    induction l generalizing a with
    | nil => exact ha
    | cons w l ih => exact ih _ (hP.fclPut ha)
  exact hfold _ _ (hP.fcl h rfl rfl)

theorem fclTake {o : Occ} {c : Nat} {b : Bool} (hc : c < 4) (h : P s) : P (s.fclTake o c b).2 := by
  unfold State.fclTake
  extract_lets s1 g s2 s3
  have h3 : P s3 := hP.field (hP.field (hP.field h .group) .fclass) (.cntClass c hc)
  clear_value s3
  split
  rename_i lost s4 e
  have h4 : P s4 := by
    have hlog : P (s3.fclLog o c b).2 := hP.fclFlush (hP.fcl h3 rfl rfl)
    rwa [e] at hlog
  extract_lets s5 s6
  have h5 : P s5 := of_ite (hP.event h4) h4
  exact of_ite (of_ite (hP.field (hP.fcl h5 rfl rfl) .pinHold) (hP.fcl h5 rfl rfl)) h5

theorem assertWith {rz : Occ → State → State} {src : Nat} (hrz : ∀ t, P t → P (rz { page := Pg.CCL, src := 6 } t)) (h : P s) :
    P (State.assertWith rz src s) := by
  unfold State.assertWith
  exact of_ite h (of_ite (hP.emit (hP.irq h)) (of_ite (hrz _ (hP.field (hP.irq h) .redirect)) (hP.irq h)))

end MinorKept

/-! ## Occurrences that only an occurrence causes -/

/-- The occurrences that handling another one can cause: a redirected interrupt and a lost log entry (R606, R651). -/
def Caused (o : Occ) : Prop := o = { page := Pg.CCL, src := 6 } ∨ o = { page := Pg.FCL, src := 0 }

/-- The head is in mode m, and where that is PAIRED neither caused occurrence is of class F, which would end serving (R648). -/
def StaysIn (m : Sys2Proof.Mode) (s : State) : Prop :=
  s.mode = m ∧ (m = .paired → s.errClass Pg.CCL 6 ≠ 3 ∧ s.errClass Pg.FCL 0 ≠ 3)

theorem errClass_lt (s : State) (p c : Nat) : s.errClass p c < 4 := fld_le _ _ 2

theorem Caused.no_unit {o : Occ} (h : Caused o) : o.unit = none := by
  obtain rfl | rfl := h <;> rfl

theorem StaysIn.class_ne {m : Sys2Proof.Mode} {s : State} {o : Occ} (h : StaysIn m s) (ho : Caused o) (hm : m = .paired) :
    s.errClass o.page o.src ≠ 3 := by
  obtain rfl | rfl := ho
  · exact (h.2 hm).1
  · exact (h.2 hm).2

/-- What survives the basic updates and pins the mode survives a caused occurrence. -/
theorem MinorKept.raiseN {P : State → Prop} {m : Sys2Proof.Mode} (hP : MinorKept P) (hm : ∀ s, P s → StaysIn m s) {k : Nat} {o : Occ}
    {s : State} (ho : Caused o) (h : P s) : P (raiseN k o s) := by
  induction k generalizing o s with
  | zero => exact h
  | succ k ih =>
    have hrz (t : State) (ht : P t) : P (Machine.raiseN k { page := Pg.CCL, src := 6 } t) := ih (.inl rfl) ht
    unfold Machine.raiseN
    extract_lets fresh cls s1 s2
    have h1 : P s1 := hP.stat h
    have h2 : P s2 := by
      simp only [s2, ho.no_unit]
      exact h1
    clear_value s2 s1
    refine of_ite h1 ?_
    split
    rename_i lost s3 e
    have h3 : P s3 := by
      have ht : P (s2.fclTake o cls fresh).2 := hP.fclTake (errClass_lt s _ _) h2
      rwa [e] at ht
    extract_lets s4 s5 s6
    have h6 : P s6 := of_ite (ih (.inr rfl) (hP.assertWith hrz (hP.assertWith hrz h3))) (hP.assertWith hrz (hP.assertWith hrz h3))
    clear_value s6
    have hstay : (decide (cls = 3) && decide (s6.mode = .paired)) = false := by
      rw [(hm s6 h6).1, Bool.and_eq_false_iff, decide_eq_false_iff_not, decide_eq_false_iff_not, ← not_and_or]
      exact fun hp => (hm s h).class_ne ho hp.2 hp.1
    rw [hstay]
    exact h6

/-- One more level of an occurrence, from the state with its ERR_STAT bit set, for what survives the fence and the end of serving it may bring. -/
theorem MinorKept.raiseN_succ {P : State → Prop} (hP : MinorKept P) {k : Nat} {o : Occ} {s : State}
    (hk : ∀ o t, Caused o → P t → P (Machine.raiseN k o t))
    (hfence : ∀ u t, o.unit = some u → (∀ t, P t → P (Machine.raiseN k { page := Pg.CCL, src := 6 } t)) → P t →
      P (State.fenceWith (Machine.raiseN k) o.page u t))
    (hleave : ∀ t, (∀ t, P t → P (Machine.raiseN k { page := Pg.CCL, src := 6 } t)) → P t → P (State.leaveWith (Machine.raiseN k) 0x05 t))
    (h1 : P (s.setErrStat o.page o.src)) : P (Machine.raiseN (k + 1) o s) := by
  have hrz (t : State) (ht : P t) : P (Machine.raiseN k { page := Pg.CCL, src := 6 } t) := hk _ t (.inl rfl) ht
  unfold Machine.raiseN
  extract_lets fresh cls s1 s2
  have h2 : P s2 := by
    unfold s2
    split
    · rename_i u hu
      exact of_ite (hfence u _ hu hrz h1) h1
    · exact h1
  refine of_ite h1 ?_
  clear_value s2 s1
  split
  rename_i lost s3 e
  have h3 : P s3 := by
    have ht : P (s2.fclTake o cls fresh).2 := hP.fclTake (errClass_lt s _ _) h2
    rwa [e] at ht
  extract_lets s4 s5 s6
  have h5 : P s5 := hP.assertWith hrz (hP.assertWith hrz h3)
  have h6 : P s6 := of_ite (hk _ _ (.inr rfl) h5) h5
  exact of_ite (hleave _ hrz h6) h6

/-! ## Predicates a fence and a mode change keep -/

/-- A predicate that survives each basic update of any occurrence of page p, mode change or fence. -/
structure FaultKept (p : Nat) (P : State → Prop) : Prop extends MinorKept P where
  fence {s f v} : P s → FenceField p f → P (s.wf f v)
  serve {s a b c d} : P s → P { s with io := a, bsv := b, cpl := c, pins := d }
  mute {s : State} : P s → P s.muteDies

namespace FaultKept
variable {p : Nat} {P : State → Prop} (hP : FaultKept p P) {s : State}
include hP

omit hP in
theorem foldl {α : Type} {f : State → α → State} (hf : ∀ t a, P t → P (f t a)) {l : List α} (h : P s) : P (l.foldl f s) := by
  induction l generalizing s with
  | nil => exact h
  | cons a l ih => exact ih (hf s a h)

theorem asyncEvent {k d : Nat} (h : P s) : P (s.asyncEvent k d) := by
  unfold State.asyncEvent
  split
  · exact h
  · split
    · exact hP.emit (hP.serve (b := s.bsv) (c := s.cpl) (d := s.pins) h)
    · exact of_ite h (hP.serve (b := s.bsv) (c := s.cpl) (d := s.pins) h)

theorem io {x : Io} (h : P s) : P { s with io := x } := hP.serve (b := s.bsv) (c := s.cpl) (d := s.pins) h

theorem bsv {x : Bsv} (h : P s) : P { s with bsv := x } := hP.serve (a := s.io) (c := s.cpl) (d := s.pins) h

theorem anaNotify (h : P s) : P s.anaNotify := foldl (fun _ _ ht => hP.asyncEvent ht) (hP.io h)

theorem anaMove {gs : List (Nat × Nat)} (h : P s) : P (s.anaMove gs) := by
  have hchange {t : State} {l : List Nat} (ht : P t) : P (t.anaChange l) := of_ite ht (hP.anaNotify (hP.io ht))
  have hreport {t : State} {l : List (Nat × Nat)} (ht : P t) : P (t.anaReport l) := of_ite ht (hP.anaNotify (hP.io ht))
  exact hreport (hchange h)

theorem answerWaiting (h : P s) : P s.answerWaiting := by
  refine foldl (fun t e ht => ?_) h
  split
  · exact hP.emit ht
  · exact ht

theorem stopServing {b : Bool} (h : P s) : P (s.stopServing b) := by
  unfold State.stopServing
  extract_lets s1 s2
  have h2 : P s2 := of_ite (hP.answerWaiting (hP.anaMove h)) (hP.anaMove h)
  exact hP.serve (d := s2.pins) h2

variable {rz : Occ → State → State} (hrz : ∀ t, P t → P (rz { page := Pg.CCL, src := 6 } t))
include hrz

theorem enterWith {m : Sys2Proof.Mode} {c : Nat} (h : P s) : P (State.enterWith rz m c s) :=
  hP.assertWith hrz (hP.event (hP.fence (hP.serve (a := s.io) (c := s.cpl) h) .modeStamp))

theorem leaveWith {c : Nat} (h : P s) : P (State.leaveWith rz c s) := by
  unfold State.leaveWith
  extract_lets go
  have hgo {b : Bool} {t : State} (ht : P t) : P (go b t) := hP.mute (hP.stopServing (hP.enterWith hrz (hP.bsv ht)))
  split
  · exact hgo h
  · exact of_ite (hgo h) (hP.bsv h)
  · exact h

omit hrz in
theorem markFenced {u : Nat} (h : P s) : P (s.markFenced p u) := by
  have hshow {t : State} (ht : P t) : P (t.showFence p u) := by
    unfold State.showFence
    split
    · rename_i hp
      exact hP.fence ht (.lanes _ hp.1)
    · exact of_ite (hP.fence ht .dge) <| of_ite (hP.fence ht .cph) <|
      of_ite (of_ite (hP.fence ht .hard) (hP.fence ht .soft)) <| of_ite (hP.fence ht .cores) <|
        of_ite (hP.fence (hP.fence (hP.fence ht .channels) .enabled) .usable) <|
          of_ite (hP.fence (hP.fence ht .pcs) .pcsLeft) ht
  exact of_ite h (hshow (hP.fence (hP.fence (hP.fcl h rfl rfl) .units) .degraded))

omit hrz in
theorem unloadMaps (h : P s) : P s.unloadMaps := hP.bsv (of_ite (hP.fence h .modeResult) h)

theorem fenceWith {u : Nat} (h : P s) : P (State.fenceWith rz p u s) :=
  of_ite (hP.fence h .pcsPending) <| of_ite (of_ite (hP.unloadMaps (hP.markFenced h)) (hP.leaveWith hrz (hP.markFenced h))) <|
    of_ite (hP.leaveWith hrz (hP.markFenced h)) (hP.markFenced h)

omit hrz in
/-- One more level of an occurrence, from the state with its ERR_STAT bit set. -/
theorem raiseN_succ {k : Nat} {o : Occ} (hk : ∀ o t, Caused o → P t → P (raiseN k o t)) (ho : o.page = p ∨ Caused o)
    (h1 : P (s.setErrStat o.page o.src)) : P (raiseN (k + 1) o s) := by
  refine hP.toMinorKept.raiseN_succ hk (fun u t hu hrz ht => ?_) (fun t hrz ht => hP.leaveWith hrz ht) h1
  obtain hp | hc := ho
  · rw [hp]
    exact hP.fenceWith hrz ht
  · rw [hc.no_unit] at hu
    cases hu

omit hrz in
theorem raiseN {k : Nat} {o : Occ} (ho : o.page = p ∨ Caused o) (h : P s) : P (raiseN k o s) := by
  induction k generalizing o s with
  | zero => exact h
  | succ k ih => exact hP.raiseN_succ (fun _ _ hc ht => ih (.inr hc) ht) ho (hP.stat h)

omit hrz in
/-- An occurrence keeps what holds once its ERR_STAT bit is set. -/
theorem occur_of_stat {o : Occ} (ho : o.page = p) (h : P (s.setErrStat o.page o.src)) : P (s.occur o) :=
  hP.raiseN_succ (fun _ _ hc ht => hP.raiseN (.inr hc) ht) (.inl ho) h

omit hrz in
theorem occur {o : Occ} (ho : o.page = p) (h : P s) : P (s.occur o) := hP.occur_of_stat ho (hP.stat h)

end FaultKept

/-! ## Predicates on the registers -/

/-- What survives another evr, fresh stamps and a counted stall survives an event entry. -/
theorem evrEvent_keeps {P : State → Prop} (hevr : ∀ s x, P s → P { s with evr := x })
    (hstamps : ∀ s a b, P s → P { s with tbs := { s.tbs with issuers := a, ovfStalls := b } })
    (hstall : ∀ s v, P s → P (s.wf R.TBS.CNT_OVF.COUNT v)) {s : State} {t u d : Nat} (h : P s) : P (s.evrEvent t u d) := by
  have hissue {s : State} {u : Nat} (h : P s) : P (s.issue u).2 := by
    unfold State.issue State.ovfBegin
    split
    · exact hstamps s _ s.tbs.ovfStalls h
    · exact of_ite (hstamps (s.inc R.TBS.CNT_OVF.COUNT) (s.inc R.TBS.CNT_OVF.COUNT).tbs.issuers _ (hstall _ _ h)) h
  have hstamp (s : State) (w : EvrWait) (h : P s) : P (s.evrStamp w) := by
    have h1 : P (s.issue w.unit).2 := hissue h
    unfold State.evrStamp
    split <;> rename_i e <;> rw [e] at h1 <;> exact hevr _ _ h1
  exact FaultKept.foldl hstamp (hevr _ _ (hevr _ _ h))

/-- A predicate on the registers survives an occurrence when it survives the writes of the occurrence. -/
theorem FaultKept.of_regs {p : Nat} {P : State → Prop} (hregs : ∀ {s t}, P s → t.regs = s.regs → P t)
    (hfield : ∀ s f v, P s → FaultField f ∨ FenceField p f → P (s.wf f v)) (hstat : ∀ s q c, P s → P (s.setErrStat q c)) :
    FaultKept p P where
  field h hf := hfield _ _ _ h (.inl hf)
  fence h hf := hfield _ _ _ h (.inr hf)
  stat h := hstat _ _ _ h
  stamps h := hregs h rfl
  fcl h _ _ := hregs h rfl
  irq h := hregs h rfl
  emit h := hregs h rfl
  serve h := hregs h rfl
  mute h := hregs h rfl
  event h := evrEvent_keeps (fun _ _ h => hregs h rfl) (fun _ _ _ h => hregs h rfl)
    (fun _ _ h => hfield _ _ _ h (.inl .stall)) h

/-! ## The error registers of a page header -/

/-- A field of a block's own registers, behind the page header. -/
abbrev OwnField (f : Fld) : Prop := 256 ≤ f.addr % 4096 ∧ f.addr % 4096 + 4 * wordsOf f ≤ 4096

theorem FaultField.own {f : Fld} (h : FaultField f) : OwnField f := by
  cases h with
  | cntClass c hc => simp only [OwnField, wordsOf, R.FCL.CNT_CLASS.COUNT]; omega
  | entry i hi => simp only [OwnField, wordsOf, R.FCL.LOG.ENTRY]; omega
  | _ => decide

/-- A block's own field and a header's field share no bit. -/
theorem OwnField.apart_header {f g : Fld} (h : OwnField f) {p a : Nat} (hg : g.addr = p * 4096 + a) (ha : a + 4 * wordsOf g ≤ 256) :
    apart f g = true := by
  obtain ⟨h1, h2⟩ := h
  simp only [apart, Bool.or_eq_true, decide_eq_true_eq, hg]
  omega

theorem FenceField.apart_errStat {p : Nat} {f : Fld} (h : FenceField p f) : apart f (R.HDR.ERR_STAT.SRC p) = true := by
  have own (hf : OwnField f) : apart f (R.HDR.ERR_STAT.SRC p) = true := hf.apart_header (a := 16) rfl (by simp [wordsOf, R.HDR.ERR_STAT.SRC])
  cases h with
  | units => simp [apart, wordsOf, R.HDR.STAT.FENCED_UNITS, R.HDR.ERR_STAT.SRC]
  | degraded => simp [apart, wordsOf, R.HDR.STAT.DEGRADED, R.HDR.ERR_STAT.SRC]
  | lanes n lo => simp [apart, wordsOf, R.HFX.PORT_STAT.FENCED, R.HDR.ERR_STAT.SRC]; omega
  | _ => exact own (by decide)

/-! ## ERR_STAT, ERR_FIRST and ERR_STAMP (R643, R645) -/

/-- ERR_STAT shares no bit with what captures the first error, of the same page or another's. -/
theorem first_apart_errStat (p q : Nat) : apart (R.HDR.ERR_FIRST.SOURCE q) (R.HDR.ERR_STAT.SRC p) = true ∧
    apart (R.HDR.ERR_FIRST.VALID q) (R.HDR.ERR_STAT.SRC p) = true ∧ apart (R.HDR.ERR_STAMP.ESTAMP q) (R.HDR.ERR_STAT.SRC p) = true := by
  refine ⟨?_, ?_, ?_⟩ <;>
    simp [apart, wordsOf, R.HDR.ERR_FIRST.SOURCE, R.HDR.ERR_FIRST.VALID, R.HDR.ERR_STAMP.ESTAMP, R.HDR.ERR_STAT.SRC] <;> omega

theorem errStat_apart_errStat {p q : Nat} (h : q ≠ p) : apart (R.HDR.ERR_STAT.SRC q) (R.HDR.ERR_STAT.SRC p) = true := by
  simp [apart, wordsOf, R.HDR.ERR_STAT.SRC]
  omega

theorem bit_setBit_same (n i : Nat) : bit (setBit n i true) i = true := decide_eq_true (fld_setFld_same n i 1 1)

theorem bit_setBit_of_bit {n i : Nat} (j : Nat) (h : bit n i = true) : bit (setBit n j true) i = true := by
  by_cases hij : i = j
  · rw [hij]
    exact bit_setBit_same n j
  · have hf : fld (setBit n j true) i 1 = fld n i 1 := fld_setFld_other n j 1 1 i 1 (by omega)
    have hn : fld n i 1 = 1 := of_decide_eq_true h
    exact decide_eq_true (hf.trans hn)

theorem bit_mod {n i k : Nat} (h : i < k) : bit (n % 2 ^ k) i = bit n i := by
  have hf : fld (n % 2 ^ k) i 1 = fld n i 1 := fld_of_mod n i 1 k h
  rw [bit, bit]
  exact congrArg (fun x => decide (x = 1)) hf

section
variable (s : State) (p c : Nat) (h : s.regsWf = true)
include h

theorem regsWf_setErrStat : (s.setErrStat p c).regsWf = true := by
  unfold State.setErrStat
  extract_lets old s1
  have h1 : s1.regsWf = true := regs_wf s _ _ h
  exact of_ite (P := fun t : State => t.regsWf = true) (regs_wf _ _ _ (regs_wf _ _ _ (regs_wf _ _ _ h1))) h1

/-- The header's other registers read as before. -/
theorem rf_setErrStat_apart {g : Fld} (hs : apart (R.HDR.ERR_STAT.SRC p) g = true) (hf : apart (R.HDR.ERR_FIRST.SOURCE p) g = true)
    (hv : apart (R.HDR.ERR_FIRST.VALID p) g = true) (he : apart (R.HDR.ERR_STAMP.ESTAMP p) g = true) :
    (s.setErrStat p c).rf g = s.rf g := by
  unfold State.setErrStat
  extract_lets old s1
  have h1 : s1.regsWf = true := regs_wf s _ _ h
  have e1 : s1.rf g = s.rf g := rf_wf_apart s _ g _ h hs
  split
  · rw [rf_wf_apart _ _ g _ (regs_wf _ _ _ (regs_wf _ _ _ h1)) he, rf_wf_apart _ _ g _ (regs_wf _ _ _ h1) hv,
      rf_wf_apart _ _ g _ h1 hf, e1]
  · exact e1

theorem rf_setErrStat_stat : (s.setErrStat p c).rf (R.HDR.ERR_STAT.SRC p) = setBit (s.rf (R.HDR.ERR_STAT.SRC p)) c true % 2 ^ 32 := by
  obtain ⟨hs, hv, he⟩ := first_apart_errStat p p
  unfold State.setErrStat
  extract_lets old s1
  have h1 : s1.regsWf = true := regs_wf s _ _ h
  have e1 : s1.rf (R.HDR.ERR_STAT.SRC p) = setBit old c true % 2 ^ 32 := rf_wf_same s _ _ h
  split
  · rw [rf_wf_apart _ _ _ _ (regs_wf _ _ _ (regs_wf _ _ _ h1)) he, rf_wf_apart _ _ _ _ (regs_wf _ _ _ h1) hv,
      rf_wf_apart _ _ _ _ h1 hs, e1]
  · exact e1

end

/-- The register file is canonical and a source's ERR_STAT bit is set. -/
def ErrSet (p c : Nat) (s : State) : Prop := s.regsWf = true ∧ bit (s.rf (R.HDR.ERR_STAT.SRC p)) c = true

theorem errSet_setErrStat {s : State} {p c : Nat} (h : s.regsWf = true) (hc : c < 32) : ErrSet p c (s.setErrStat p c) := by
  refine ⟨regsWf_setErrStat s p c h, ?_⟩
  rw [rf_setErrStat_stat s p c h, bit_mod hc, bit_setBit_same]

/-- No occurrence clears an ERR_STAT bit. -/
theorem errSet_kept {p c : Nat} (hc : c < 32) : FaultKept p (ErrSet p c) := by
  refine .of_regs ?_ ?_ ?_
  · intro s t h e
    rwa [ErrSet, State.regsWf, rf_eq_of_regs_eq e, e]
  · rintro s f v ⟨hr, hb⟩ hf
    have ha : apart f (R.HDR.ERR_STAT.SRC p) = true := by
      obtain hf | hf := hf
      · exact hf.own.apart_header (a := 16) rfl (by simp [wordsOf, R.HDR.ERR_STAT.SRC])
      · exact hf.apart_errStat
    exact ⟨regs_wf s f v hr, by rwa [rf_wf_apart s f _ v hr ha]⟩
  · rintro s q d ⟨hr, hb⟩
    refine ⟨regsWf_setErrStat s q d hr, ?_⟩
    by_cases hq : q = p
    · subst hq
      rw [rf_setErrStat_stat s q d hr, bit_mod hc]
      exact bit_setBit_of_bit d hb
    · obtain ⟨hs, hv, he⟩ := first_apart_errStat p q
      rwa [rf_setErrStat_apart s q d hr (errStat_apart_errStat hq) hs hv he]

/-- The mask and the class of a source do not hang on the bits an occurrence sets. -/
theorem errMasked_setErrStat (s : State) (p c d : Nat) (h : s.regsWf = true) :
    (s.setErrStat p c).errMasked p d = s.errMasked p d := by
  have hmask : (s.setErrStat p c).rf (R.HDR.ERR_MASK.MASK p) = s.rf (R.HDR.ERR_MASK.MASK p) := by
    refine rf_setErrStat_apart s p c h ?_ ?_ ?_ ?_ <;>
      simp [apart, wordsOf, R.HDR.ERR_FIRST.SOURCE, R.HDR.ERR_FIRST.VALID, R.HDR.ERR_STAMP.ESTAMP, R.HDR.ERR_STAT.SRC, R.HDR.ERR_MASK.MASK]
  have hclass : (s.setErrStat p c).rf (R.HDR.ERR_CLASS.CLASS p) = s.rf (R.HDR.ERR_CLASS.CLASS p) := by
    refine rf_setErrStat_apart s p c h ?_ ?_ ?_ ?_ <;>
      simp [apart, wordsOf, R.HDR.ERR_FIRST.SOURCE, R.HDR.ERR_FIRST.VALID, R.HDR.ERR_STAMP.ESTAMP, R.HDR.ERR_STAT.SRC, R.HDR.ERR_CLASS.CLASS]
  rw [State.errMasked, State.errClass, hmask, hclass]
  rfl

/-- A masked occurrence only sets its bit. -/
theorem occur_of_masked {s : State} {o : Occ} (h : s.regsWf = true) (hm : s.errMasked o.page o.src = true) :
    s.occur o = s.setErrStat o.page o.src :=
  if_pos ((errMasked_setErrStat s o.page o.src o.src h).trans hm)

/-- The first occurrence of a page is captured. -/
theorem setErrStat_first {s : State} {p c : Nat} (h : s.regsWf = true) (hc : c < 32) (h0 : s.rf (R.HDR.ERR_STAT.SRC p) = 0) :
    (s.setErrStat p c).rf (R.HDR.ERR_FIRST.SOURCE p) = c ∧ (s.setErrStat p c).rf (R.HDR.ERR_FIRST.VALID p) = 1 ∧
      (s.setErrStat p c).rf (R.HDR.ERR_STAMP.ESTAMP p) = s.estamp % 2 ^ 64 := by
  have hvs : apart (R.HDR.ERR_FIRST.VALID p) (R.HDR.ERR_FIRST.SOURCE p) = true := by
    simp [apart, wordsOf, R.HDR.ERR_FIRST.SOURCE, R.HDR.ERR_FIRST.VALID]
  have hes : apart (R.HDR.ERR_STAMP.ESTAMP p) (R.HDR.ERR_FIRST.SOURCE p) = true := by
    simp [apart, wordsOf, R.HDR.ERR_FIRST.SOURCE, R.HDR.ERR_STAMP.ESTAMP]
  have hev : apart (R.HDR.ERR_STAMP.ESTAMP p) (R.HDR.ERR_FIRST.VALID p) = true := by
    simp [apart, wordsOf, R.HDR.ERR_FIRST.VALID, R.HDR.ERR_STAMP.ESTAMP]
  unfold State.setErrStat
  extract_lets old s1
  rw [if_pos h0]
  have h1 : s1.regsWf = true := regs_wf s _ _ h
  have h2 : (s1.wf (R.HDR.ERR_FIRST.SOURCE p) c).regsWf = true := regs_wf _ _ _ h1
  have h3 : ((s1.wf (R.HDR.ERR_FIRST.SOURCE p) c).wf (R.HDR.ERR_FIRST.VALID p) 1).regsWf = true := regs_wf _ _ _ h2
  refine ⟨?_, ?_, rf_wf_same _ _ _ h3⟩
  · rw [rf_wf_apart _ _ _ _ h3 hes, rf_wf_apart _ _ _ _ h2 hvs, rf_wf_same _ _ _ h1]
    exact Nat.mod_eq_of_lt hc
  · rw [rf_wf_apart _ _ _ _ h3 hev, rf_wf_same _ _ _ h2]
    rfl

/-- Later occurrences keep the capture. -/
theorem setErrStat_later {s : State} {p c : Nat} (h : s.regsWf = true) (h0 : s.rf (R.HDR.ERR_STAT.SRC p) ≠ 0) :
    (s.setErrStat p c).rf (R.HDR.ERR_FIRST.SOURCE p) = s.rf (R.HDR.ERR_FIRST.SOURCE p) ∧
      (s.setErrStat p c).rf (R.HDR.ERR_STAMP.ESTAMP p) = s.rf (R.HDR.ERR_STAMP.ESTAMP p) := by
  have hs : apart (R.HDR.ERR_STAT.SRC p) (R.HDR.ERR_FIRST.SOURCE p) = true := by
    simp [apart, wordsOf, R.HDR.ERR_FIRST.SOURCE, R.HDR.ERR_STAT.SRC]
  have he : apart (R.HDR.ERR_STAT.SRC p) (R.HDR.ERR_STAMP.ESTAMP p) = true := by
    simp [apart, wordsOf, R.HDR.ERR_STAMP.ESTAMP, R.HDR.ERR_STAT.SRC]
  unfold State.setErrStat
  extract_lets old s1
  rw [if_neg h0]
  exact ⟨rf_wf_apart s _ _ _ h hs, rf_wf_apart s _ _ _ h he⟩

/-- Settles O59: the occurrence starts by setting its bit, which nothing it brings clears (`errSet_kept`). -/
theorem occurrenceRecorded : Obligations.OccurrenceRecorded := by
  intro o s h _ _ hsrc
  have hset : bit ((s.occur o).rf (R.HDR.ERR_STAT.SRC o.page)) o.src = true :=
    ((errSet_kept hsrc).occur_of_stat rfl (errSet_setErrStat h hsrc)).2
  exact ⟨hset, occur_of_masked h, setErrStat_first h hsrc, setErrStat_later h, occur_maps s o, occur_mem s o, occur_flash s o⟩

end Sys2Proof.Proofs
end

section
/-! O14: commit wait (R113, R116). -/
namespace Sys2Proof.Proofs
open Sys2Proof Sys2Proof.Machine Sys2Proof.Laws

/-- A stamped command of a host that may be acknowledged is completed under a completion stamp. -/
theorem commitWait_of_mayAck {op q : Nat} {c : IoCmd} {s u : State} {o : Ostamp} (hc : aget s.io.cmds op = some c)
    (hp : c.fromPartner = false) (hv : s.mode ≠ .vault) (hm : s.mayAck c = true) (hq : c.conn = some q)
    (hi : s.issue (s.nvtUnit q) = (some o, u)) :
    s.commitWait op =
      (State.complete { u with io := { u.io with cqLog := u.io.cqLog ++ [(o, q, c.cid)] } } op 0 0 false).wcRelease
        (State.complete { u with io := { u.io with cqLog := u.io.cqLog ++ [(o, q, c.cid)] } } op 0 0 false).wcDone := by
  have hmode : (s.mode == Mode.vault) = false := beq_eq_false_iff_ne.mpr hv
  simp only [State.commitWait, hc, hp, hmode, hm, hq, hi, Bool.false_eq_true, if_false, Bool.not_true, Bool.or_self]

/-- A command that may not be acknowledged yet waits on. -/
theorem commitWait_of_not_mayAck {op : Nat} {c : IoCmd} {s : State} (hc : aget s.io.cmds op = some c) (hp : c.fromPartner = false)
    (hm : s.mayAck c = false) : s.commitWait op = s := by
  simp [State.commitWait, hc, hp, hm]

/-- Settles O14: a passed stamp and held data acknowledge, a stamp not passed does not. -/
theorem commitWait : Obligations.CommitWait := by
  refine ⟨?_, ?_, ?_⟩
  · intro op q c s u v o hc hp hv hd hh hpass hq hi rfl
    have heps : (!(s.mode == .paired && s.epsOver)) = true := (Bool.and_eq_true_iff.mp hpass).2
    have hm : s.mayAck c = true := by
      rw [State.mayAck, hd, hh, hpass, heps, ite_self]
      rfl
    rw [exec_commitWaitPass, execCommitWaitPass, commitWait_of_mayAck hc hp hv hm hq hi]
  · intro op c s hc hp ho hpass
    have hm : s.mayAck c = false := by simp [State.mayAck, hpass, ho]
    rw [exec_commitWaitPass, execCommitWaitPass, commitWait_of_not_mayAck hc hp hm]
  · intro o s h
    simp only [State.commitPassed, Bool.and_eq_true, decide_eq_true_eq] at h
    exact h.1

end Sys2Proof.Proofs
end

section
/-! O38 and O39: what an end of a Jonan link accepts, its sending window and its credits (R434 to R438, Table 11-8). -/
namespace Sys2Proof.Proofs
open Sys2Proof Sys2Proof.Machine Sys2Proof.Laws

/-! ## Ends -/

/-- An end reads back as it was set. -/
@[simp] theorem linkEnd_setEnd_same (s : State) (i : Nat) (e : LinkEnd) : (s.setEnd i e).linkEnd i = e := by
  rw [State.linkEnd, agetD, State.setEnd, aget_aset_same, Option.getD_some]

@[simp] theorem linkEnd_updEnd_same (s : State) (i : Nat) (f : LinkEnd → LinkEnd) : (s.updEnd i f).linkEnd i = f (s.linkEnd i) :=
  linkEnd_setEnd_same _ _ _

@[simp] theorem linkEnd_emit (s : State) (i : Nat) (m : Out) : (s.emit m).linkEnd i = s.linkEnd i := rfl

/-- A frame on the lane takes the credits it returns with it and settles the acknowledgement due. -/
@[simp] theorem linkEnd_jEmit (s : State) (i l : Nat) (f : JFrame) : (s.jEmit i l f).linkEnd i =
    { s.linkEnd i with owed := (s.linkEnd i).owed - min 255 (s.linkEnd i).owed
                       rxCred := (s.linkEnd i).rxCred + min 255 (s.linkEnd i).owed, ackDue := none } := by
  simp only [State.jEmit, linkEnd_emit, linkEnd_setEnd_same]

/-! ## The sending window -/

theorem sumL_append (a b : List Nat) : sumL (a ++ b) = sumL a + sumL b := by
  induction a with
  | nil => simp [sumL]
  | cons x a ih => simp only [List.cons_append, sumL, ih, Nat.add_assoc]

/-- The credits a list of frames needs. -/
def creditsOf (l : List (Nat × JFrame)) : Nat := sumL (l.map (fun x => credOf x.2.payload.length))

/-- From one state of an end to another, frames went from the queue's front to the window's back, each paid for, within the window. -/
def Sends (e f : LinkEnd) : Prop :=
  ∃ sent, f.unack = e.unack ++ sent ∧ f.unack.length ≤ 1024 ∧ sent.map Prod.snd ++ f.queue = e.queue ∧
    f.txCred + creditsOf sent = e.txCred

theorem Sends.refl {e : LinkEnd} (h : e.unack.length ≤ 1024) : Sends e e :=
  ⟨[], by simp, h, rfl, by simp [creditsOf, sumL]⟩

theorem pumpTx_sends (i k : Nat) (s : State) (h : (s.linkEnd i).unack.length ≤ 1024) :
    Sends (s.linkEnd i) ((s.pumpTx i k).linkEnd i) := by
  induction k generalizing s with
  | zero => exact .refl h
  | succ k ih =>
    rw [State.pumpTx]
    extract_lets l
    split
    · exact .refl h
    · rename_i f t hq
      extract_lets n s1
      split
      · rename_i hc
        simp only [Bool.and_eq_true, decide_eq_true_eq] at hc
        obtain ⟨⟨-, hlen⟩, hcred⟩ := hc
        have h1 : ((s1.jEmit i l f).linkEnd i).unack.length ≤ 1024 := by
          simp only [s1, linkEnd_jEmit, linkEnd_setEnd_same, List.length_append]
          exact hlen
        obtain ⟨sent, e1, e2, e3, e4⟩ := ih _ h1
        simp only [s1, linkEnd_jEmit, linkEnd_setEnd_same] at e1 e3 e4
        refine ⟨(l, f) :: sent, ?_, e2, ?_, ?_⟩
        · rw [e1, List.append_assoc]
          rfl
        · rw [List.map_cons, List.cons_append, e3]
          exact hq.symm
        · have hpay : creditsOf ((l, f) :: sent) = credOf f.payload.length + creditsOf sent := rfl
          have hleft : (((s1.jEmit i l f).pumpTx i k).linkEnd i).txCred + creditsOf sent = (s.linkEnd i).txCred - credOf f.payload.length := e4
          have hfit : credOf f.payload.length ≤ (s.linkEnd i).txCred := hcred
          clear_value n
          omega
      · exact .refl h

/-- Settles O39: sending is `Sends`. -/
theorem windowAndCredits : Obligations.WindowAndCredits := by
  intro i s h
  obtain ⟨sent, e1, e2, e3, e4⟩ := pumpTx_sends i _ s h
  refine ⟨e2, ?_, ?_⟩
  · rw [State.pumpEnd, e1, List.map_append, List.append_assoc, e3]
  · rw [State.pumpEnd, e1, List.drop_left]
    exact e4

/-! ## Receiving -/

theorem pumpTx_rxNext (i k : Nat) (s : State) : ((s.pumpTx i k).linkEnd i).rxNext = (s.linkEnd i).rxNext := by
  induction k generalizing s with
  | zero => rfl
  | succ k ih =>
    rw [State.pumpTx]
    extract_lets l
    split
    · rfl
    · extract_lets n s1
      split
      · rw [ih, linkEnd_jEmit, linkEnd_setEnd_same]
      · rfl

theorem ackIn_rxNext (s : State) (i : Nat) (h : JHdr) : ((s.ackIn i h).linkEnd i).rxNext = (s.linkEnd i).rxNext := by
  rw [State.ackIn, State.pumpEnd, pumpTx_rxNext, linkEnd_updEnd_same]

theorem dropCred_rxNext (s : State) (i n : Nat) : ((s.dropCred i n).linkEnd i).rxNext = (s.linkEnd i).rxNext := by
  rw [State.dropCred, linkEnd_updEnd_same]

theorem aget_amap {β : Type} (m : AMap β) (g : Nat → β → β) (k : Nat) : aget (amap m g) k = (aget m k).map (g k) := by
  induction m with
  | nil => rfl
  | cons e t ih =>
    obtain ⟨a, v⟩ := e
    simp only [amap, List.map_cons, aget] at ih ⊢
    split
    · rename_i ha
      rw [ha]
      rfl
    · exact ih

/-- Frames that wait to leave a muted head are dropped; what the end expects is not touched. -/
theorem muteDies_rxNext (s : State) (i : Nat) : (s.muteDies.linkEnd i).rxNext = (s.linkEnd i).rxNext := by
  simp only [State.muteDies, State.linkEnd, agetD, aget_amap]
  cases aget s.jlk.ends i with
  | none => rfl
  | some e =>
    simp only [Option.map_some, Option.getD_some]
    split <;> rfl

/-- A predicate on what an end expects survives every occurrence. -/
theorem rxNext_kept (p i n : Nat) : FaultKept p (fun t => (t.linkEnd i).rxNext = n) where
  field {s f v} h _ := by rw [State.linkEnd, wf_jlk]; exact h
  fence {s f v} h _ := by rw [State.linkEnd, wf_jlk]; exact h
  stat {s q c} h := by rw [State.linkEnd, of_calm State.jlk (fun _ => rfl) (calm_setErrStat s q c)]; exact h
  event {s t u d} h := by rw [State.linkEnd, evrEvent_jlk]; exact h
  mute {s} h := by rw [muteDies_rxNext]; exact h
  stamps h := h
  fcl h _ _ := h
  irq h := h
  emit h := h
  serve h := h

theorem raise_rxNext (s : State) (p c i : Nat) : ((s.raise p c).linkEnd i).rxNext = (s.linkEnd i).rxNext :=
  (rxNext_kept p i _).occur rfl rfl

theorem nakCount_rxNext (s : State) (i code : Nat) : ((s.nakCount i code).linkEnd i).rxNext = (s.linkEnd i).rxNext := by
  unfold State.nakCount
  refine of_ite (P := fun t : State => (t.linkEnd i).rxNext = (s.linkEnd i).rxNext) rfl ?_
  rw [raise_rxNext, linkEnd_updEnd_same]
  split_ifs <;> rfl

theorem nak_rxNext (s : State) (i code : Nat) : ((s.nak i code).linkEnd i).rxNext = (s.linkEnd i).rxNext := by
  have hsend (t : State) (f : JFrame) : ((t.jSendU i f).linkEnd i).rxNext = (t.linkEnd i).rxNext := by
    rw [State.jSendU, linkEnd_jEmit]
  have hcount (t : State) : ((t.nakCount i code).linkEnd i).rxNext = (t.linkEnd i).rxNext := nakCount_rxNext t i code
  unfold State.nak
  extract_lets e mute
  refine of_ite (P := fun t : State => (t.linkEnd i).rxNext = (s.linkEnd i).rxNext) rfl ?_
  rw [hcount, hsend, linkEnd_setEnd_same]

/-- Settles O38: the checks of Table 11-8 in their order. -/
theorem framesAcceptedInOrder : Obligations.FramesAcceptedInOrder := by
  intro i h s u hnak hidle
  have hctl : ¬(h.typ = fNak ∨ h.typ = fIdle) := fun hh => hh.elim hnak hidle
  unfold State.jRecv
  extract_lets e n s1
  have hdrop (code : Nat) : (((s.dropCred i n).nak i code).linkEnd i).rxNext = e.rxNext := by
    rw [nak_rxNext, dropCred_rxNext]
  rw [if_neg hctl]
  split_ifs with hst hcrc hver hlen hcred hseq hdup
  all_goals refine ⟨fun hr => ?_, fun hr => ?_⟩ <;> simp only [Prod.mk.injEq, reduceCtorEq, false_and, true_and] at hr
  all_goals subst hr
  · rfl
  · exact hdrop 1
  · exact hdrop 5
  · exact hdrop 3
  · exact nak_rxNext s i 4
  · rw [Bool.or_eq_true, not_or, decide_eq_true_eq, not_not] at hver
    rw [Bool.not_eq_true', Bool.not_eq_false] at hcrc
    refine ⟨not_not.mp hst, hcrc, hver.2, not_not.mp hlen, hseq, not_lt.mp hcred, ?_⟩
    rw [ackIn_rxNext, linkEnd_setEnd_same]
  · rw [linkEnd_updEnd_same, ackIn_rxNext, dropCred_rxNext]
  · exact hdrop 2

end Sys2Proof.Proofs
end

section
/-! O32: the members of a row and the homes of its units (R329, R360). -/
namespace Sys2Proof.Proofs
open Sys2Proof Sys2Proof.Machine Sys2Proof.Laws

/-! ## Rows -/

theorem setNth_eq_set {α : Type} (l : List α) (i : Nat) (v : α) : setNth l i v = l.set i v := by
  induction l generalizing i with
  | nil => rfl
  | cons x l ih =>
    cases i with
    | zero => rfl
    | succ i => rw [setNth, ih, List.set_cons_succ]

theorem nthD_of_lt {l : List Nat} {i : Nat} (h : i < l.length) : nthD l i 0 = l[i] := by
  rw [nthD, List.getElem?_eq_getElem h, Option.getD_some]

theorem swapAt_perm {l : List Nat} {i j : Nat} (hi : i < l.length) (hj : j < l.length) : (swapAt l i j).Perm l := by
  rw [swapAt, setNth_eq_set, setNth_eq_set, nthD_of_lt hi, nthD_of_lt hj]
  exact List.set_set_perm hi hj

/-- The passes of Fisher and Yates permute. -/
theorem permute_perm (key : Bytes) (g row k : Nat) (l : List Nat) (h : k < l.length ∨ k = 0) : (permute key g row k l).Perm l := by
  induction k generalizing l with
  | zero => exact .rfl
  | succ k ih =>
    have hk : k + 1 < l.length := h.resolve_right (Nat.succ_ne_zero k)
    have hmod (x : Nat) : x % (k + 2) < l.length := lt_of_lt_of_le (Nat.mod_lt x (Nat.succ_pos _)) hk
    have hswap {x : Nat} : (swapAt l (k + 1) (x % (k + 2))).Perm l := swapAt_perm hk (hmod x)
    refine (ih _ (.inl ?_)).trans hswap
    rw [hswap.length_eq]
    omega

theorem rowPerm_perm (b : Base) (row : Nat) : (rowPerm b row).Perm (onesBelow b.mask 64) := by
  refine permute_perm _ _ _ _ _ ?_
  omega

theorem mem_onesBelow {n k m : Nat} : m ∈ onesBelow n k ↔ m < k ∧ bit n m = true := by
  induction k with
  | zero => simp [onesBelow]
  | succ k ih =>
    rw [onesBelow, List.mem_append, ih]
    split
    · rename_i hb
      rw [List.mem_singleton]
      constructor
      · rintro (⟨hm, hbit⟩ | rfl)
        · exact ⟨by omega, hbit⟩
        · exact ⟨Nat.lt_succ_self _, hb⟩
      · rintro ⟨hm, hbit⟩
        by_cases hmk : m = k
        · exact .inr hmk
        · exact .inl ⟨by omega, hbit⟩
    · rename_i hb
      simp only [List.not_mem_nil, or_false]
      refine ⟨fun ⟨hm, hbit⟩ => ⟨by omega, hbit⟩, fun ⟨hm, hbit⟩ => ⟨?_, hbit⟩⟩
      have hmk : m ≠ k := by
        rintro rfl
        exact hb hbit
      omega

theorem onesBelow_nodup (n k : Nat) : (onesBelow n k).Nodup := by
  induction k with
  | zero => exact List.nodup_nil
  | succ k ih =>
    rw [onesBelow]
    split
    · refine List.nodup_append.mpr ⟨ih, List.nodup_singleton k, ?_⟩
      intro m hm x hx
      rw [List.mem_singleton] at hx
      have := (mem_onesBelow.mp hm).1
      omega
    · rwa [List.append_nil]

theorem rowPerm_nodup (b : Base) (row : Nat) : (rowPerm b row).Nodup := (rowPerm_perm b row).nodup_iff.mpr (onesBelow_nodup _ _)

/-! ## Homes -/

/-- Homes and spares of a row while the modules of R retire: each names modules of the base that have not retired, and each module at most
once. -/
structure Apart (mods R : List Nat) (x : List (Option Nat) × List Nat) : Prop where
  home {i m : Nat} : x.1[i]? = some (some m) → m ∈ mods ∧ m ∉ R
  once {i j m : Nat} : x.1[i]? = some (some m) → x.1[j]? = some (some m) → i = j
  spare {m : Nat} : m ∈ x.2 → m ∈ mods ∧ m ∉ R ∧ ∀ i : Nat, x.1[i]? ≠ some (some m)
  nodup : x.2.Nodup

/-- A retired module leaves the homes and the spares; a spare takes its home. -/
theorem Apart.retireOne {mods R : List Nat} {x : List (Option Nat) × List Nat} (h : Apart mods R x) (f : Nat) :
    Apart mods (R ++ [f]) (retireOne x f) := by
  have hnew {m : Nat} (hm : m ∉ R) (hf : m ≠ f) : m ∉ R ++ [f] := by simp [hm, hf]
  have hsp {m : Nat} (hm : m ∈ x.2.filter (fun m => m != f)) : m ∈ x.2 ∧ m ≠ f := by
    rw [List.mem_filter, bne_iff_ne] at hm
    exact hm
  have hdup : (x.2.filter (fun m => m != f)).Nodup := h.nodup.filter _
  unfold Machine.retireOne
  extract_lets sp
  split
  · rename_i k hk
    obtain ⟨hlt, hhome, -⟩ := List.findIdx?_eq_some_iff_getElem.mp hk
    have hkf : x.1[k]? = some (some f) := by
      rw [List.getElem?_eq_getElem hlt, eq_of_beq hhome]
    have hset (i : Nat) : (setNth x.1 k sp.head?)[i]? = if k = i then some sp.head? else x.1[i]? := by
      rw [setNth_eq_set, List.getElem?_set, if_pos hlt]
    have hhead {m : Nat} (hm : some sp.head? = some (some m)) : m ∈ sp := List.mem_of_head? (Option.some.inj hm)
    refine ⟨?_, ?_, ?_, hdup.tail⟩
    · intro i m hi
      rw [hset] at hi
      split at hi
      · obtain ⟨hm, hf⟩ := hsp (hhead hi)
        exact ⟨(h.spare hm).1, hnew (h.spare hm).2.1 hf⟩
      · rename_i hki
        refine ⟨(h.home hi).1, hnew (h.home hi).2 ?_⟩
        rintro rfl
        exact hki (h.once hkf hi)
    · intro i j m hi hj
      rw [hset] at hi hj
      split at hi <;> split at hj
      · omega
      · exact absurd hj ((h.spare (hsp (hhead hi)).1).2.2 j)
      · exact absurd hi ((h.spare (hsp (hhead hj)).1).2.2 i)
      · exact h.once hi hj
    · intro m hm
      obtain ⟨hx, hf⟩ := hsp (List.mem_of_mem_tail hm)
      refine ⟨(h.spare hx).1, hnew (h.spare hx).2.1 hf, fun i hi => ?_⟩
      rw [hset] at hi
      split at hi
      · have hcons : sp = m :: sp.tail := (List.cons_head?_tail (Option.some.inj hi)).symm
        have hdup : (m :: sp.tail).Nodup := hcons ▸ hdup
        exact (List.nodup_cons.mp hdup).1 hm
      · exact (h.spare hx).2.2 i hi
  · rename_i hk
    rw [List.findIdx?_eq_none_iff] at hk
    have hne {i m : Nat} (hi : x.1[i]? = some (some m)) : m ≠ f := by
      rintro rfl
      simpa using hk _ (List.mem_of_getElem? hi)
    refine ⟨fun hi => ⟨(h.home hi).1, hnew (h.home hi).2 (hne hi)⟩, h.once, fun hm => ?_, hdup⟩
    obtain ⟨hx, hf⟩ := hsp hm
    exact ⟨(h.spare hx).1, hnew (h.spare hx).2.1 hf, (h.spare hx).2.2⟩

theorem Apart.foldl {mods R : List Nat} {x : List (Option Nat) × List Nat} (h : Apart mods R x) (l : List Nat) :
    Apart mods (R ++ l) (l.foldl Machine.retireOne x) := by
  induction l generalizing R x with
  | nil => rwa [List.append_nil]
  | cons f l ih =>
    rw [List.foldl_cons, ← List.singleton_append, ← List.append_assoc]
    exact ih (h.retireOne f)

theorem getElem?_map_some {l : List Nat} {i m : Nat} (h : (l.map some)[i]? = some (some m)) : l[i]? = some m := by
  rw [List.getElem?_map, Option.map_eq_some_iff] at h
  obtain ⟨a, ha, he⟩ := h
  rw [ha, Option.some.inj he]

/-- Before any module retires the first members are the homes and the others the spares. -/
theorem apart_row (l : List Nat) (k : Nat) (h : l.Nodup) : Apart l [] ((l.take k).map some, l.drop k) where
  home hi := ⟨List.mem_of_mem_take (List.mem_of_getElem? (getElem?_map_some hi)), List.not_mem_nil⟩
  once {i j m} hi hj := by
    have hi := getElem?_map_some hi
    have hj := getElem?_map_some hj
    obtain ⟨hlt, -⟩ := List.getElem?_eq_some_iff.mp hi
    exact (List.getElem?_inj hlt (h.sublist (List.take_sublist k l))).mp (hi.trans hj.symm)
  spare {m} hm := by
    refine ⟨List.mem_of_mem_drop hm, List.not_mem_nil, fun i hi => ?_⟩
    have htake : m ∈ l.take k := List.mem_of_getElem? (getElem?_map_some hi)
    exact List.disjoint_take_drop h le_rfl htake hm
  nodup := h.sublist (List.drop_sublist k l)

/-- Settles O32: rows are permutations of the base, and retiring keeps homes and spares apart (`Apart.retireOne`). -/
theorem rowsAndHomes : Obligations.RowsAndHomes := by
  refine ⟨fun b row => ⟨rowPerm_perm b row, rowPerm_nodup b row, fun p hp => ?_⟩, fun p b row m => ?_⟩
  · rw [homesOf, hp, List.foldl_nil]
  · have h : Apart (rowPerm b row) p.retired (_, _) := (apart_row _ (b.d + 2) (rowPerm_nodup b row)).foldl p.retired
    refine ⟨fun hm => ?_, fun i j hij hi hj => ?_⟩
    · obtain ⟨i, hi⟩ := List.getElem?_of_mem hm
      obtain ⟨hmod, hret⟩ := h.home hi
      exact ⟨hret, (mem_onesBelow.mp ((rowPerm_perm b row).mem_iff.mp hmod)).2⟩
    · exact absurd (h.once hi hj) (Nat.ne_of_lt hij)

end Sys2Proof.Proofs
end

section
/-! A saved slice's blob: its layout, where it is stored, and O25 (R199, R200, Table 5-3). -/
namespace Sys2Proof.Proofs
open Sys2Proof Sys2Proof.Machine Sys2Proof.Laws

/-! ## The lengths of a blob's parts -/

theorem nthD_length_le {n : Nat} {w : List Bytes} (h : ∀ x ∈ w, x.length ≤ n) (i : Nat) : (nthD w i []).length ≤ n := by
  unfold nthD
  cases e : w[i]? with
  | none => exact Nat.zero_le n
  | some x => exact h x (List.mem_of_getElem? e)

theorem aesExpand_word_length_le {k i : Nat} {rc : Byte} {w : List Bytes} (h : ∀ x ∈ w, x.length ≤ 4) :
    ∀ x ∈ aesExpand k i rc w, x.length ≤ 4 := by
  induction k generalizing i rc w with
  | zero => exact h
  | succ k ih =>
    have hprev := nthD_length_le h 0
    have hback := nthD_length_le h 7
    refine ih fun x hx => ?_
    obtain rfl | hx := List.mem_cons.mp hx
    · rw [xorBytes_length]
      refine max_le hback ?_
      split
      · rw [xorBytes_length]
        simp
        omega
      · split
        · rwa [List.length_map]
        · exact hprev
    · exact h x hx

/-- A round key is four words. -/
theorem aesKeys_length_le (key : Bytes) (i : Nat) : (nthD (aesKeys key) i []).length ≤ 16 := by
  refine nthD_length_le (fun x hx => ?_) i
  obtain ⟨r, -, rfl⟩ := List.mem_map.mp hx
  have hword : ∀ y ∈ ((aesExpand 52 8 1#8 ((List.range 8).map (fun i => slice key (4 * i) 4)).reverse).reverse.drop (4 * r)).take 4,
      y.length ≤ 4 := by
    intro y hy
    refine aesExpand_word_length_le ?_ y (List.mem_reverse.mp (List.mem_of_mem_drop (List.mem_of_mem_take hy)))
    intro z hz
    obtain ⟨j, -, rfl⟩ := List.mem_map.mp (List.mem_reverse.mp hz)
    exact (List.length_take_le _ _)
  have hsum := List.sum_le_card_nsmul (((((aesExpand 52 8 1#8 ((List.range 8).map (fun i => slice key (4 * i) 4)).reverse).reverse.drop
    (4 * r)).take 4).map List.length)) 4
    (by simpa only [List.forall_mem_map] using hword)
  rw [List.length_flatten]
  refine hsum.trans ?_
  rw [List.length_map, List.length_take, smul_eq_mul]
  omega

theorem aesEnc_length (key blk : Bytes) : (aesEnc key blk).length = 16 := by
  have hk := aesKeys_length_le key 14
  unfold aesEnc
  rw [xorBytes_length, shiftRows, List.length_map, List.length_range]
  omega

theorem gcmTag_length (key iv aad c : Bytes) : (gcmTag key iv aad c).length = 16 := by
  unfold gcmTag
  rw [xorBytes_length, aesEnc_length, be_length, Nat.max_self]

theorem gcmEnc_length (key iv aad p : Bytes) : (gcmEnc key iv aad p).1.length = p.length :=
  gctr_length key iv _ 2 p (by unfold cdiv; omega)

@[simp] theorem padTo_length (k : Nat) (l : Bytes) : (padTo k l).length = k := by simp [padTo, zeros]; omega

theorem blobBody_length (s : State) (h : Nat) : (s.blobBody h).length = 8112 := by
  rw [State.blobBody]
  simp only [List.length_append, padTo_length]
  rw [zeros, List.length_replicate]

/-- The fields of Table 5-3 are the parts a blob is put together from. -/
theorem blob_parts {hd c tag : Bytes} (h1 : hd.length = 64) (h2 : c.length = 8112) (h3 : tag.length = 16) :
    (hd ++ c ++ tag).length = 8192 ∧ slice (hd ++ c ++ tag) 0x1C 12 = slice hd 0x1C 12 ∧ (hd ++ c ++ tag).take 64 = hd ∧
      slice (hd ++ c ++ tag) 0x40 0x1FB0 = c ∧ slice (hd ++ c ++ tag) 0x1FF0 16 = tag := by
  have hc : (hd ++ c).length = 8176 := by rw [List.length_append, h1, h2]
  have hd12 : 12 ≤ (hd.drop 0x1C).length := by rw [List.length_drop, h1]; decide
  refine ⟨by rw [List.length_append, hc, h3], ?_, ?_, ?_, ?_⟩
  · rw [slice, List.append_assoc, List.drop_append_of_le_length (by omega), List.take_append_of_le_length hd12, slice]
  · rw [List.append_assoc, ← h1, List.take_left]
  · rw [slice, List.append_assoc, ← h1, List.drop_left, ← h2, List.take_left]
  · rw [slice, List.drop_left' hc, ← h3, List.take_length]

/-! ## The blob's address does not move while the blob is made -/

/-- A field in other words of the register file is unchanged, whether or not the file is canonical. -/
theorem rf_wf_far (s : State) (f g : Fld) (v : Nat) (h : g.addr + 4 * wordsOf g ≤ f.addr ∨ f.addr + 4 * wordsOf f ≤ g.addr) :
    (s.wf f v).rf g = s.rf g :=
  congrArg (fun n => fld n g.lo g.w) (words_setWords_other s f.addr _ _ g.addr _ h)

/-- No register of a header, and none that a fault of CPH writes, lies in the words of BLOB_ADDR. -/
theorem blobAddr_kept (n : Nat) : FaultKept Pg.CPH (fun s => s.rf R.SLM.BLOB_ADDR.ADDR = n) := by
  refine .of_regs ?_ ?_ ?_
  · intro s t h e
    rw [rf_eq_of_regs_eq e, h]
  · intro s f v h hf
    rw [rf_wf_far _ _ _ _ ?_, h]
    obtain hf | hf := hf
    · cases hf with
      | cntClass c hc => simp [wordsOf, R.FCL.CNT_CLASS.COUNT, R.SLM.BLOB_ADDR.ADDR]; omega
      | entry i hi => simp [wordsOf, R.FCL.LOG.ENTRY, R.SLM.BLOB_ADDR.ADDR]; omega
      | _ => decide
    · cases hf with
      | lanes m _ => simp [wordsOf, R.HFX.PORT_STAT.FENCED, R.SLM.BLOB_ADDR.ADDR, Pg.CPH]; omega
      | _ => decide
  · intro s q c h
    have hstat (t : State) (v : Nat) : (t.wf (R.HDR.ERR_STAT.SRC q) v).rf R.SLM.BLOB_ADDR.ADDR = t.rf R.SLM.BLOB_ADDR.ADDR :=
      rf_wf_far _ _ _ _ (by simp [wordsOf, R.HDR.ERR_STAT.SRC, R.SLM.BLOB_ADDR.ADDR]; omega)
    unfold State.setErrStat
    extract_lets old s1
    have h1 : s1.rf R.SLM.BLOB_ADDR.ADDR = n := (hstat s _).trans h
    refine of_ite (P := fun t : State => t.rf R.SLM.BLOB_ADDR.ADDR = n) ?_ h1
    rw [rf_wf_far _ _ _ _ (by simp [wordsOf, R.HDR.ERR_STAMP.ESTAMP, R.SLM.BLOB_ADDR.ADDR]; omega),
      rf_wf_far _ _ _ _ (by simp [wordsOf, R.HDR.ERR_FIRST.VALID, R.SLM.BLOB_ADDR.ADDR]; omega),
      rf_wf_far _ _ _ _ (by simp [wordsOf, R.HDR.ERR_FIRST.SOURCE, R.SLM.BLOB_ADDR.ADDR]; omega), h1]

/-- An answered command leaves memory as it is. -/
theorem slmDone_mem (s : State) (r h : Nat) : (s.slmDone r h).mem = s.mem := by
  unfold State.slmDone
  extract_lets s1 s2 s3
  have h3 : s3.mem = s.mem := by simp only [s3, s1, wf_mem]
  split
  · exact of_ite (P := fun t : State => t.mem = s.mem) (by rw [wf_mem, h3]) h3
  · exact h3

/-- The header of a slice's blob (Table 5-3). -/
def blobHeader (s : State) (h : Nat) (nonce : Bytes) : Bytes :=
  le 1 2 ++ le 0 2 ++ le 8192 4 ++ padTo 16 (le s.arrayId 16) ++ le h 4 ++ nonce ++ zeros 24

theorem blobHeader_nonce (s : State) (h : Nat) {nonce : Bytes} (hn : nonce.length = 12) :
    (blobHeader s h nonce).length = 64 ∧ slice (blobHeader s h nonce) 0x1C 12 = nonce := by
  refine ⟨by simp [blobHeader, zeros, le_length, hn], ?_⟩
  have hpre : (le 1 2 ++ le 0 2 ++ le 8192 4 ++ padTo 16 (le s.arrayId 16) ++ le h 4).length = 0x1C := by simp [le_length]
  rw [slice, blobHeader, List.append_assoc _ nonce, ← hpre, List.drop_left, ← hn, List.take_left]

/-- What SAVE leaves in memory at BLOB_ADDR: header, ciphertext and tag under the migration key. -/
theorem load_slmSave {s : State} {h : Nat} {k : Key} (hst : sdState (s.sliceDesc (h % 4096)) = 4)
    (hk : s.gcmKey (s.rf R.SLM.MIG_KEY.KEYSLOT) = some k) (hinv : k.inv < 2 ^ 32) (hrng : s.rf R.SEC.STAT.RNG ≠ 0)
    (hmem : s.memWf = true) :
    ∃ nonce : Bytes, nonce.length = 12 ∧
      (s.slmSave h).load (hbmBase + s.rf R.SLM.BLOB_ADDR.ADDR) 8192 =
        blobHeader s h nonce ++ (gcmEnc k.key nonce (blobHeader s h nonce) (s.blobBody h)).1 ++
          (gcmEnc k.key nonce (blobHeader s h nonce) (s.blobBody h)).2 := by
  unfold State.slmSave
  rw [if_neg (not_not.mpr hst), hk]
  dsimp -zeta only
  rw [if_neg (not_le.mpr hinv), if_neg hrng]
  extract_lets nonce hd _ s1 s2
  have hn : nonce.length = 12 := by simp [nonce, le_length]
  obtain ⟨hlen, -⟩ := blob_parts (blobHeader_nonce s h hn).1 ((gcmEnc_length k.key nonce hd _).trans (blobBody_length s h))
    (gcmTag_length k.key nonce hd (gcmEnc k.key nonce hd (s.blobBody h)).1)
  have hkept : s2.rf R.SLM.BLOB_ADDR.ADDR = s.rf R.SLM.BLOB_ADDR.ADDR ∧ s2.mem = s.mem := by
    have haddr : (s1.cphRan 1).rf R.SLM.BLOB_ADDR.ADDR = s.rf R.SLM.BLOB_ADDR.ADDR := rf_wf_far s1 _ _ _ (by decide)
    have hm : (s1.cphRan 1).mem = s.mem := wf_mem s1 _ _
    exact of_ite (P := fun t : State => t.rf R.SLM.BLOB_ADDR.ADDR = s.rf R.SLM.BLOB_ADDR.ADDR ∧ t.mem = s.mem)
      ⟨(blobAddr_kept _).occur rfl haddr, (raise_mem _ _ _).trans hm⟩ ⟨haddr, hm⟩
  obtain ⟨haddr, hm⟩ := hkept
  refine ⟨nonce, hn, ?_⟩
  have hwf : Memory.wf s2.mem = true := by
    rw [hm]
    exact (Bool.and_eq_true_iff.mp hmem).1
  rw [haddr, State.load, slmDone_mem]
  exact (congrArg _ hlen.symm).trans (load_store_same s2 _ _ hwf)

/-- Settles O25: SAVE stores header, ciphertext and tag where BLOB_ADDR points (`load_slmSave`), and the parts of the blob are those that
`gcmDec_gcmEnc` opens. -/
theorem savedBlobOpens : Obligations.SavedBlobOpens := by
  intro h k s t hcmd hon hlead hok hst hk hinv hrng hmem hexec b hb
  have ht : t = s.slmSave h := by
    have hrun : s.slmCmd cSave h = s.slmSave h := by simp [State.slmCmd, hcmd, hon, hlead, hok, cSave, cRemove, cFreeze, cCreate, cRestore, cReshape, cQuiesce, cResume, cReset]
    rw [exec_saveCmd, execSaveCmd, hrun] at hexec
    cases hexec
    rfl
  obtain ⟨nonce, hn, hload⟩ := load_slmSave hst hk hinv hrng hmem
  obtain ⟨hhd, hnonce⟩ := blobHeader_nonce s h hn
  obtain ⟨-, h1, h2, h3, h4⟩ := blob_parts hhd ((gcmEnc_length k.key nonce (blobHeader s h nonce) _).trans (blobBody_length s h))
    (gcmTag_length k.key nonce (blobHeader s h nonce) (gcmEnc k.key nonce (blobHeader s h nonce) (s.blobBody h)).1)
  rw [hb, ht, hload]
  have e : gcmTag k.key nonce (blobHeader s h nonce) (gcmEnc k.key nonce (blobHeader s h nonce) (s.blobBody h)).1 =
      (gcmEnc k.key nonce (blobHeader s h nonce) (s.blobBody h)).2 := rfl
  rw [e] at h1 h2 h3 h4
  rw [h1, h2, h3, h4, hnonce]
  exact gcmDec_gcmEnc _ _ _ _

end Sys2Proof.Proofs
end

section
/-! What a mode change leaves behind besides what `FaultKept` gives, and O5 (R55, R91). -/
namespace Sys2Proof.Proofs
open Sys2Proof Sys2Proof.Machine Sys2Proof.Laws

theorem MinorKept.and {P Q : State → Prop} (hP : MinorKept P) (hQ : MinorKept Q) : MinorKept (fun s => P s ∧ Q s) where
  field h hf := ⟨hP.field h.1 hf, hQ.field h.2 hf⟩
  stat h := ⟨hP.stat h.1, hQ.stat h.2⟩
  stamps h := ⟨hP.stamps h.1, hQ.stamps h.2⟩
  fcl h hr hf := ⟨hP.fcl h.1 hr hf, hQ.fcl h.2 hr hf⟩
  event h := ⟨hP.event h.1, hQ.event h.2⟩
  irq h := ⟨hP.irq h.1, hQ.irq h.2⟩
  emit h := ⟨hP.emit h.1, hQ.emit h.2⟩

/-! ## Fields an occurrence spares -/

/-- A field that shares no bit with what an occurrence writes. -/
structure Spared (g : Fld) : Prop where
  fault {f} : FaultField f → apart f g = true
  stat {q : Nat} : apart (R.HDR.ERR_STAT.SRC q) g = true
  source {q : Nat} : apart (R.HDR.ERR_FIRST.SOURCE q) g = true
  valid {q : Nat} : apart (R.HDR.ERR_FIRST.VALID q) g = true
  stamp {q : Nat} : apart (R.HDR.ERR_STAMP.ESTAMP q) g = true

/-- The register file is canonical and a field of it holds n. -/
def Reads (g : Fld) (n : Nat) (s : State) : Prop := s.regsWf = true ∧ s.rf g = n

theorem Spared.kept {g : Fld} (hg : Spared g) (n : Nat) : MinorKept (Reads g n) := by
  have hregs {s t : State} (h : Reads g n s) (e : t.regs = s.regs) : Reads g n t := by
    rwa [Reads, State.regsWf, rf_eq_of_regs_eq e, e]
  have hfield {s : State} {f : Fld} {v : Nat} (h : Reads g n s) (hf : FaultField f) : Reads g n (s.wf f v) :=
    ⟨regs_wf s f v h.1, (rf_wf_apart s f g v h.1 (hg.fault hf)).trans h.2⟩
  exact {
    field := hfield
    stat := fun h => ⟨regsWf_setErrStat _ _ _ h.1, (rf_setErrStat_apart _ _ _ h.1 hg.stat hg.source hg.valid hg.stamp).trans h.2⟩
    stamps := fun h => hregs h rfl
    fcl := fun h _ _ => hregs h rfl
    event := fun h => evrEvent_keeps (fun _ _ h => hregs h rfl) (fun _ _ _ h => hregs h rfl) (fun _ _ h => hfield h .stall) h
    irq := fun h => hregs h rfl
    emit := fun h => hregs h rfl }

theorem errClass_spared (p : Nat) : Spared (R.HDR.ERR_CLASS.CLASS p) where
  fault hf := hf.own.apart_header (a := 24) rfl (by simp [wordsOf, R.HDR.ERR_CLASS.CLASS])
  stat := by simp [apart, wordsOf, R.HDR.ERR_STAT.SRC, R.HDR.ERR_CLASS.CLASS]; omega
  source := by simp [apart, wordsOf, R.HDR.ERR_FIRST.SOURCE, R.HDR.ERR_CLASS.CLASS]; omega
  valid := by simp [apart, wordsOf, R.HDR.ERR_FIRST.VALID, R.HDR.ERR_CLASS.CLASS]; omega
  stamp := by simp [apart, wordsOf, R.HDR.ERR_STAMP.ESTAMP, R.HDR.ERR_CLASS.CLASS]; omega

theorem modeStamp_spared : Spared R.BSV.MODE_STAMP.ESTAMP where
  fault hf := by
    cases hf with
    | cntClass c hc => simp [apart, wordsOf, R.FCL.CNT_CLASS.COUNT, R.BSV.MODE_STAMP.ESTAMP]; omega
    | entry i hi => simp [apart, wordsOf, R.FCL.LOG.ENTRY, R.BSV.MODE_STAMP.ESTAMP]; omega
    | _ => decide
  stat := by simp [apart, wordsOf, R.HDR.ERR_STAT.SRC, R.BSV.MODE_STAMP.ESTAMP]; omega
  source := by simp [apart, wordsOf, R.HDR.ERR_FIRST.SOURCE, R.BSV.MODE_STAMP.ESTAMP]; omega
  valid := by simp [apart, wordsOf, R.HDR.ERR_FIRST.VALID, R.BSV.MODE_STAMP.ESTAMP]; omega
  stamp := by simp [apart, wordsOf, R.HDR.ERR_STAMP.ESTAMP, R.BSV.MODE_STAMP.ESTAMP]; omega

/-! ## The entries the event recorder holds -/

/-- The entries queued in the event recorder and those that wait for their stamp. -/
def evrLoad (s : State) : Nat := s.evr.queue.length + s.evr.wait.length

theorem issue_evr (s : State) (u : Nat) : (s.issue u).2.evr = s.evr := by
  unfold State.issue
  split
  · rfl
  · exact of_ite (P := fun t : State => t.evr = s.evr) (wf_evr s _ _) rfl

theorem evrLoad_evrStamp (s : State) (w : EvrWait) : evrLoad (s.evrStamp w) = evrLoad s + 1 := by
  have h := issue_evr s w.unit
  unfold State.evrStamp
  split <;> rename_i e <;> rw [e] at h <;> simp only [evrLoad, List.length_append, List.length_singleton, ← h] <;> omega

theorem evrLoad_evrFlush (s : State) : evrLoad s.evrFlush = evrLoad s := by
  have hfold (l : List EvrWait) (t : State) : evrLoad (l.foldl State.evrStamp t) = evrLoad t + l.length := by
    induction l generalizing t with
    | nil => rfl
    | cons w l ih =>
      rw [List.foldl_cons, ih, evrLoad_evrStamp, List.length_cons]
      omega
  exact hfold s.evr.wait _

/-- An event puts one entry in. -/
theorem evrLoad_evrEvent (s : State) (t u d : Nat) : evrLoad (s.evrEvent t u d) = evrLoad s + 1 := by
  rw [State.evrEvent, evrLoad_evrFlush]
  simp [evrLoad, Nat.add_assoc]

/-! ## What a mode change keeps of itself -/

/-- The mode controller reads b and the event recorder holds more than n entries. -/
def Entered (b : Bsv) (n : Nat) (s : State) : Prop := s.bsv = b ∧ n < evrLoad s

theorem entered_kept (b : Bsv) (n : Nat) : MinorKept (Entered b n) where
  field h _ := ⟨(wf_bsv _ _ _).trans h.1, by rw [evrLoad, wf_evr]; exact h.2⟩
  stat {s p c} h := by
    have hkeep {t : State} {f : Fld} {v : Nat} (h : Entered b n t) : Entered b n (t.wf f v) :=
      ⟨(wf_bsv _ _ _).trans h.1, by rw [evrLoad, wf_evr]; exact h.2⟩
    exact of_ite (hkeep (hkeep (hkeep (hkeep h)))) (hkeep h)
  stamps h := h
  fcl h _ _ := h
  event {s t u d} h := ⟨evrEvent_keeps (P := fun t => t.bsv = b) (fun _ _ h => h) (fun _ _ _ h => h) (fun _ _ h => (wf_bsv _ _ _).trans h) h.1,
    by rw [evrLoad_evrEvent]; exact Nat.lt_succ_of_lt h.2⟩
  irq h := h
  emit h := h

/-- A mode change that no caused occurrence undoes: the mode controller, the stamp, the classes of the two caused sources and the events. -/
def Changed (b : Bsv) (n e c6 c0 : Nat) (s : State) : Prop :=
  Entered b n s ∧ Reads R.BSV.MODE_STAMP.ESTAMP e s ∧ Reads (R.HDR.ERR_CLASS.CLASS Pg.CCL) c6 s ∧ Reads (R.HDR.ERR_CLASS.CLASS Pg.FCL) c0 s

theorem changed_kept (b : Bsv) (n e c6 c0 : Nat) : MinorKept (Changed b n e c6 c0) :=
  (entered_kept b n).and ((modeStamp_spared.kept e).and (((errClass_spared Pg.CCL).kept c6).and ((errClass_spared Pg.FCL).kept c0)))

/-- The state of the mode controller after a change to mode m. -/
def changedBsv (s : State) (m : Sys2Proof.Mode) (cause : Nat) : Bsv :=
  { s.bsv with mode := m, prev := some s.mode, cause := cause, pending := false }

/-- A mode change leaves the mode controller, MODE_STAMP and the recorder as it wrote them, where no class F fault follows it at once. -/
theorem enter_changed {m : Sys2Proof.Mode} {cause : Nat} {s : State} (hw : s.regsWf = true)
    (hc : m = .paired → s.errClass Pg.CCL 6 ≠ 3 ∧ s.errClass Pg.FCL 0 ≠ 3) :
    Changed (changedBsv s m cause) (evrLoad s) (s.estamp % 2 ^ 64) (s.rf (R.HDR.ERR_CLASS.CLASS Pg.CCL)) (s.rf (R.HDR.ERR_CLASS.CLASS Pg.FCL))
      (s.enter m cause) := by
  have hkept := changed_kept (changedBsv s m cause) (evrLoad s) (s.estamp % 2 ^ 64) (s.rf (R.HDR.ERR_CLASS.CLASS Pg.CCL))
    (s.rf (R.HDR.ERR_CLASS.CLASS Pg.FCL))
  have hstay (t : State) (ht : Changed (changedBsv s m cause) (evrLoad s) (s.estamp % 2 ^ 64) (s.rf (R.HDR.ERR_CLASS.CLASS Pg.CCL))
      (s.rf (R.HDR.ERR_CLASS.CLASS Pg.FCL)) t) : StaysIn m t := by
    obtain ⟨⟨hb, -⟩, -, ⟨-, h6⟩, -, h0⟩ := ht
    refine ⟨congrArg Bsv.mode hb, fun hm => ?_⟩
    rw [State.errClass, State.errClass, h6, h0]
    exact hc hm
  have hsame {g : Fld} (t : State) (ht : t.regs = s.regs) (hg : apart R.BSV.MODE_STAMP.ESTAMP g = true) :
      Reads g (s.rf g) (t.wf R.BSV.MODE_STAMP.ESTAMP s.estamp) := by
    have hwt : t.regsWf = true := by rwa [State.regsWf, ht]
    exact ⟨regs_wf t _ _ hwt, (rf_wf_apart t _ g _ hwt hg).trans (rf_eq_of_regs_eq ht g)⟩
  unfold State.enter State.enterWith
  extract_lets old _ _ s1 s2 s3
  have hw1 : s1.regsWf = true := hw
  have h2 : Changed (changedBsv s m cause) (evrLoad s) (s.estamp % 2 ^ 64) (s.rf (R.HDR.ERR_CLASS.CLASS Pg.CCL))
      (s.rf (R.HDR.ERR_CLASS.CLASS Pg.FCL)) s3 := by
    refine ⟨⟨?_, ?_⟩, ?_, ?_, ?_⟩
    · exact evrEvent_keeps (P := fun t => t.bsv = changedBsv s m cause) (fun _ _ h => h) (fun _ _ _ h => h)
        (fun _ _ h => (wf_bsv _ _ _).trans h) (wf_bsv s1 _ _)
    · have hload : evrLoad s2 = evrLoad s := congrArg (fun e : Evr => e.queue.length + e.wait.length) (wf_evr s1 _ _)
      rw [evrLoad_evrEvent, hload]
      exact Nat.lt_succ_self _
    · exact (modeStamp_spared.kept _).event ⟨regs_wf s1 _ _ hw1, rf_wf_same s1 _ _ hw1⟩
    · exact ((errClass_spared Pg.CCL).kept _).event (hsame s1 rfl (by decide))
    · exact ((errClass_spared Pg.FCL).kept _).event (hsame s1 rfl (by decide))
  exact hkept.assertWith (fun t ht => hkept.raiseN hstay (.inl rfl) ht) h2

/-- Settles O5: the mode change writes all of it before it asserts its interrupt (`enter_changed`). -/
theorem modeChangeIsOneUpdate : Obligations.ModeChangeIsOneUpdate := by
  intro m cause s hw hc
  obtain ⟨⟨hb, hn⟩, ⟨-, hstamp⟩, -, -⟩ := enter_changed (cause := cause) hw hc
  rw [State.mode, hb]
  exact ⟨rfl, rfl, rfl, rfl, hstamp, hn⟩

end Sys2Proof.Proofs
end

section
/-! Accesses to the control space: what a read shows does not hang on captures and shadows, the shape of an access that reaches its page,
and O1 and O3 (R13 to R23, R580, R667 to R672). -/
namespace Sys2Proof.Proofs
open Sys2Proof Sys2Proof.Machine Sys2Proof.Laws

/-! ## Captures and shadows are not shown -/

section
variable (s : State) (c h : AMap (Nat × Word))

theorem rf_caps_shadows (f : Fld) : ({ s with caps := c, shadows := h } : State).rf f = s.rf f :=
  rf_eq_of_regs_eq (s := s) (t := { s with caps := c, shadows := h }) rfl f

theorem holdsWork_caps_shadows (p : Nat) : ({ s with caps := c, shadows := h } : State).holdsWork p = s.holdsWork p := by
  unfold State.holdsWork
  split <;> rfl

theorem unitPower_caps_shadows (p u : Nat) : ({ s with caps := c, shadows := h } : State).unitPower p u = s.unitPower p u := by
  unfold State.unitPower State.deepest State.unitWorks
  simp only [rf_caps_shadows, holdsWork_caps_shadows]
  rfl

theorem jlkView_caps_shadows (p off w : Nat) : ({ s with caps := c, shadows := h } : State).jlkView p off w = s.jlkView p off w := by
  unfold State.jlkView
  simp only [rf_caps_shadows]
  rfl

theorem hdrView_caps_shadows (p off : Nat) : ({ s with caps := c, shadows := h } : State).hdrView p off = s.hdrView p off := by
  have hb : ({ s with caps := c, shadows := h } : State).busy p = s.busy p := by
    rw [State.busy, holdsWork_caps_shadows]
    rfl
  have hp : ({ s with caps := c, shadows := h } : State).pwrState p = s.pwrState p :=
    congrArg (minL 4) (List.map_congr_left fun u _ => unitPower_caps_shadows s c h p u)
  have ha : ({ s with caps := c, shadows := h } : State).activeUnits p = s.activeUnits p := by
    simp only [State.activeUnits, unitPower_caps_shadows]
    rfl
  have hm : ({ s with caps := c, shadows := h } : State).maskEff p = s.maskEff p := by
    have hi (i : Nat) : ({ s with caps := c, shadows := h } : State).errMasked p i = s.errMasked p i := by
      rw [State.errMasked, State.errClass, rf_caps_shadows s c h (R.HDR.ERR_MASK.MASK p), rf_caps_shadows s c h (R.HDR.ERR_CLASS.CLASS p)]
      rfl
    simp only [State.maskEff, hi]
  have hv : ({ s with caps := c, shadows := h } : State).ifver p = s.ifver p := rfl
  have hw (a : Nat) : ({ s with caps := c, shadows := h } : State).word a = s.word a := rfl
  simp only [State.hdrView, hb, hp, ha, hm, hv, hw]

theorem blockView_caps_shadows (p off : Nat) : ({ s with caps := c, shadows := h } : State).blockView p off = s.blockView p off := by
  have hw (a : Nat) : ({ s with caps := c, shadows := h } : State).word a = s.word a := rfl
  have hsvc (w : Nat) : ({ s with caps := c, shadows := h } : State).svcView p off w = s.svcView p off w := rfl
  have hio (w : Nat) : ({ s with caps := c, shadows := h } : State).ioView p off w = s.ioView p off w := rfl
  have hmedia (w : Nat) : ({ s with caps := c, shadows := h } : State).mediaView p off w = s.mediaView p off w := rfl
  have hlink (w : Nat) : ({ s with caps := c, shadows := h } : State).linkView p off w = s.linkView p off w := rfl
  have hccl (w : Nat) : ({ s with caps := c, shadows := h } : State).cclView off w = s.cclView off w := rfl
  simp only [State.blockView, jlkView_caps_shadows, hw, hsvc, hio, hmedia, hlink, hccl]

/-- What a word shows does not hang on captures and shadows. -/
theorem view_caps_shadows (key : Nat) : ({ s with caps := c, shadows := h } : State).view key = s.view key := by
  have hlocal : ({ s with caps := c, shadows := h } : State).localView key = s.localView key := rfl
  simp only [State.view, hdrView_caps_shadows, blockView_caps_shadows, hlocal]

end

/-- Discarding another register's capture and shadow changes captures and shadows alone. -/
theorem dropOther_eq (s : State) (r base : Nat) : ∃ c h, s.dropOther r base = { s with caps := c, shadows := h } := by
  unfold State.dropOther
  extract_lets k s1
  have h1 : ∃ c, s1 = { s with caps := c } := by
    unfold s1
    split
    · split
      · exact ⟨_, rfl⟩
      · exact ⟨_, rfl⟩
    · exact ⟨_, rfl⟩
  obtain ⟨c, e⟩ := h1
  rw [e]
  split
  · split
    · exact ⟨_, _, rfl⟩
    · exact ⟨_, _, rfl⟩
  · exact ⟨_, _, rfl⟩

/-- The accessed register's own capture stays. -/
theorem caps_dropOther {s : State} {r base : Nat} {u : Word} (h : aget s.caps (capKey r base) = some (base, u)) :
    aget (s.dropOther r base).caps (capKey r base) = some (base, u) := by
  unfold State.dropOther
  extract_lets k s1
  have h1 : s1 = s := by
    unfold s1 k
    rw [h]
    exact if_pos rfl
  rw [h1]
  split
  · split <;> exact h
  · exact h

/-- The accessed register's own shadow stays. -/
theorem shadows_dropOther {s : State} {r base : Nat} {u : Word} (h : aget s.shadows (capKey r base) = some (base, u)) :
    aget (s.dropOther r base).shadows (capKey r base) = some (base, u) := by
  unfold State.dropOther
  extract_lets k s1
  have h1 : s1.shadows = s.shadows := by
    unfold s1
    split
    · split <;> rfl
    · rfl
  rw [h1, h]
  dsimp only
  rw [if_pos rfl, h1, h]

/-! ## Accesses that reach their page -/

/-- An aligned access of four bytes, or of the Annex port of eight, that reaches a live page is served there. -/
theorem csAccess_of_reaches {s : State} {r key size : Nat} {wr : Option Nat} (env : WriteEnv) (hr : r ≤ 24) (h : s.reaches r key wr.isSome)
    (hsize : size = 4 ∨ size = 8 ∧ r = 24) (hal : key % size = 0) : s.csAccess env r key size wr = s.serveAccess env r key size wr := by
  obtain ⟨hrun, -, hlocal, hpage⟩ := h
  have hok : (decide (size = 4 ∨ (size = 8 ∧ r = 24)) && decide (key % size = 0)) = true := by simp [hsize, hal]
  have h4 : ¬(r < 24 ∧ 4 < size) := by omega
  have hrun' : ¬(r < 24 ∧ s.coreRuns r = false) := fun ⟨h1, h2⟩ => by rw [hrun h1] at h2; cases h2
  unfold State.csAccess
  rw [hok]
  simp only [if_neg hrun', if_neg h4]
  by_cases hk : localBase ≤ key
  · rw [if_pos hk, if_neg (by have := hlocal hk; omega), if_pos trivial]
  · obtain ⟨hb, hf, hhide, hwr⟩ := hpage (not_le.mp hk)
    have hseen : ¬(blockOf (key / 4096) = 0 ∨ (r = 24 ∧ 1 ≤ key / 4096 ∧ key / 4096 ≤ 4 ∧ s.flag R.ANX.CS_CFG.SVC_HIDE = true)) := by
      rintro (h0 | ⟨h24, hp⟩)
      · exact hb h0
      · obtain ⟨h1, h2, h3⟩ := hp
        exact hhide h24.ge ⟨h1, h2, h3⟩
    have hmay : ¬(r = 24 ∧ wr.isSome = true ∧ s.flag R.ANX.CS_CFG.WR_EN = false) := by
      rintro ⟨h24, h1, h2⟩
      rw [hwr h24.ge h1] at h2
      cases h2
    rw [if_neg hk, if_neg hseen, if_neg hmay, hf]
    rfl


theorem annex_or_core (r : Requester) : r.val ≤ 24 := Nat.le_of_lt_succ r.isLt

theorem registerWrite_of_reaches {s : State} {r : Requester} {key : Fin 67207168} (v : BitVec 32) (env : WriteEnv) (h : s.reaches r key true) :
    s.csAccess env r.val key.val 4 (some v.toNat) = s.write32 env r key v.toNat := by
  rw [csAccess_of_reaches env (annex_or_core r) (by exact h) (.inl rfl) h.2.1]
  simp only [State.serveAccess, Nat.mod_eq_of_lt v.isLt]
  rfl

theorem readCapture_of_reaches {s : State} {r : Requester} {key : Fin 67207168} (h : s.reaches r key false) :
    s.csAccess {} r.val key.val 4 none = (s.read32 r key).2.answerRead r key (s.read32 r key).1 := by
  rw [csAccess_of_reaches {} (annex_or_core r) (by exact h) (.inl rfl) h.2.1]
  rfl

/-- Settles O1: an access that reaches its page is served there (`csAccess_of_reaches`), by `write32` and `read32`. -/
theorem registerAccessCompletes : Obligations.RegisterAccessCompletes := by
  refine ⟨fun r key v env s h => ⟨?_, fun hreg hoff hpage => ?_⟩, fun r key base s h hkey => ⟨fun hreg => ?_, fun u hreg hcap => ?_⟩,
    fun r key base v s h hreg hsh => ?_, fun r key v u s h hreg hsh hheld => ?_⟩
  · rw [exec_registerWrite, execRegisterWrite, registerWrite_of_reaches v env h]
  · rw [exec_registerWrite, execRegisterWrite, registerWrite_of_reaches v env h, State.write32, hreg]
    dsimp only
    unfold State.commit
    simp only [List.mem_cons, List.not_mem_nil, or_false] at hpage
    have hl : ¬localBase ≤ key.val := by simp only [localBase]; omega
    rw [if_neg hl, if_neg (by omega), if_neg (by omega), if_neg (by omega), if_neg (by omega), if_neg (by omega), if_pos hpage]
  · rw [exec_readCapture64, execReadCapture64, readCapture_of_reaches h]
    obtain ⟨c, hh, e⟩ := dropOther_eq s r base
    have hr : s.read32 r key = (s.view key, { s with caps := aset c (capKey r base) (base, BitVec.ofNat 32 (s.view (base + 4))), shadows := hh }) := by
      unfold State.read32
      rw [if_neg (fun hc => absurd hc.1 (not_le.mpr hkey)), hreg]
      dsimp only
      rw [e, view_caps_shadows s c hh, view_caps_shadows s c hh]
    rw [hr]
    exact ⟨_, rfl, rfl, aget_aset_same _ _ _, rfl⟩
  · rw [exec_readCapture64, execReadCapture64, readCapture_of_reaches h]
    obtain ⟨c, hh, e⟩ := dropOther_eq s r base
    have hcap' := caps_dropOther hcap
    rw [e] at hcap'
    have hr : s.read32 r key = (u.toNat, { s with caps := adel c (capKey r base), shadows := hh }) := by
      unfold State.read32
      rw [if_neg (fun hc => absurd hc.1 (not_le.mpr hkey)), hreg]
      dsimp only
      rw [e]
      dsimp only at hcap' ⊢
      rw [hcap']
    rw [hr]
    exact ⟨_, rfl, rfl, aget_adel_same _ _, rfl⟩
  · rw [exec_writeUpperShadow, execWriteUpperShadow, registerWrite_of_reaches v {} h, State.write32, hreg]
    dsimp only
    obtain ⟨c, hh, e⟩ := dropOther_eq s r base
    rw [hsh, e]
    refine ⟨_, rfl, ?_, rfl, rfl, rfl⟩
    exact (aget_aset_same _ _ _).trans (by rw [BitVec.ofNat_toNat, BitVec.setWidth_eq])
  · rw [exec_writeLowerCommit, execWriteLowerCommit, registerWrite_of_reaches v {} h, State.write32, hreg]
    dsimp only
    rw [hsh, shadows_dropOther hheld, Nat.mod_eq_of_lt v.isLt]
    rfl


/-! ## 64-bit, misaligned and unassigned accesses -/

theorem State.reaches.read {s : State} {r key : Nat} (h : s.reaches r key true) : s.reaches r key false := by
  obtain ⟨hrun, hal, hlocal, hpage⟩ := h
  refine ⟨hrun, hal, hlocal, fun hk => ?_⟩
  obtain ⟨hb, hf, hhide, -⟩ := hpage hk
  exact ⟨hb, hf, hhide, fun _ h => by cases h⟩

/-- Settles O3: an aligned 64-bit access is served whole, an odd one on an assigned page is `badAccess`, and one of an unassigned page
`unassigned`. -/
theorem oddAccessesComplete : Obligations.OddAccessesComplete := by
  refine ⟨fun key env s h hal hreg => ⟨?_, fun v => ?_⟩, fun r key size wr s hrun hkey hb hf hhide hwr hbad => ?_,
    fun r key wr s hrun hkey hb => ?_⟩
  · have hserve : s.csAccess env 24 key 8 none = s.serveAccess env 24 key 8 none :=
      csAccess_of_reaches env le_rfl (State.reaches.read h) (.inr ⟨rfl, rfl⟩) hal
    obtain ⟨c, hh, e⟩ := dropOther_eq s 24 key
    have hr : s.read64 24 key = (s.view key + 4294967296 * s.view (key + 4), { s with caps := adel c (capKey 24 key), shadows := hh }) := by
      unfold State.read64
      rw [if_pos hreg]
      dsimp only
      rw [e, view_caps_shadows s c hh, view_caps_shadows s c hh]
    rw [exec_annex64bitAccess, execAnnex64bitAccess, Option.map_none, hserve]
    unfold State.serveAccess
    dsimp only
    rw [if_pos rfl, hr]
    exact ⟨_, rfl, rfl, rfl⟩
  · have hserve : s.csAccess env 24 key 8 (some v.toNat) = s.serveAccess env 24 key 8 (some v.toNat) :=
      csAccess_of_reaches env le_rfl h (.inr ⟨rfl, rfl⟩) hal
    obtain ⟨c, hh, e⟩ := dropOther_eq s 24 key
    rw [exec_annex64bitAccess, execAnnex64bitAccess, Option.map_some, hserve]
    unfold State.serveAccess State.write64
    dsimp only
    rw [if_pos rfl, if_pos hreg, e]
    exact ⟨{ s with caps := c, shadows := adel hh (capKey 24 key) }, rfl, rfl, rfl⟩
  · have hok : (decide (size.val = 4 ∨ (size.val = 8 ∧ r.val = 24)) && decide (key.val % size.val = 0)) = false := by
      simp only [Bool.and_eq_false_iff, decide_eq_false_iff_not]
      omega
    have hl : ¬localBase ≤ key.val := not_le.mpr hkey
    rw [exec_misalignedAccess, execMisalignedAccess, State.csAccess, hok]
    rw [if_neg (fun ⟨h1, h2⟩ => by rw [(hrun h1).1] at h2; cases h2), if_neg (fun ⟨h1, h2⟩ => by have := (hrun h1).2; omega), if_neg hl,
      if_neg (not_or.mpr ⟨hb, hhide⟩), if_neg (fun ⟨h1, h2, h3⟩ => by rw [Option.isSome_map] at h2; rw [hwr h1 h2] at h3; cases h3), hf]
    simp [State.badAccess, if_neg hl]
  · have hl : ¬localBase ≤ key.val := not_le.mpr hkey
    rw [exec_unassignedPageAccess, execUnassignedPageAccess, State.csAccess]
    rw [if_neg (fun ⟨h1, h2⟩ => by rw [hrun h1] at h2; cases h2), if_neg (by omega), if_neg hl, if_pos (.inl hb)]
    simp [State.unassigned]

end Sys2Proof.Proofs
end

section
/-! What a mode change leaves of the serving state, and what the end of serving leaves of everything else (R55, R64 to R66). -/
namespace Sys2Proof.Proofs
open Sys2Proof Sys2Proof.Machine Sys2Proof.Laws

/-! ## Updates of the host side and of the output alone -/

/-- t differs from s in the host side and in what was sent alone. -/
def IoOnly (s t : State) : Prop := ∃ x o, t = { s with io := x, out := o }

theorem IoOnly.rfl {s : State} : IoOnly s s := ⟨s.io, s.out, Eq.refl s⟩

theorem IoOnly.trans {s t u : State} (h : IoOnly s t) (h' : IoOnly t u) : IoOnly s u := by
  obtain ⟨x, o, rfl⟩ := h
  obtain ⟨y, p, rfl⟩ := h'
  exact ⟨y, p, Eq.refl _⟩

theorem IoOnly.foldl {α : Type} {f : State → α → State} (hf : ∀ t a, IoOnly t (f t a)) (l : List α) (s : State) : IoOnly s (l.foldl f s) := by
  induction l generalizing s with
  | nil => exact .rfl
  | cons a l ih => exact (hf s a).trans (ih _)

theorem ioOnly_emit (s : State) (m : Out) : IoOnly s (s.emit m) := ⟨_, _, rfl⟩

theorem ioOnly_asyncEvent (s : State) (k d : Nat) : IoOnly s (s.asyncEvent k d) := by
  unfold State.asyncEvent
  split
  · exact .rfl
  · split
    · exact ⟨_, _, rfl⟩
    · exact of_ite .rfl ⟨_, _, rfl⟩

theorem ioOnly_anaNotify (s : State) : IoOnly s s.anaNotify :=
  IoOnly.trans ⟨_, _, rfl⟩ (.foldl (fun t _ => ioOnly_asyncEvent t _ _) _ _)

theorem ioOnly_anaMove (s : State) (gs : List (Nat × Nat)) : IoOnly s (s.anaMove gs) := by
  have hchange (t : State) (l : List Nat) : IoOnly t (t.anaChange l) := of_ite .rfl (IoOnly.trans ⟨_, _, rfl⟩ (ioOnly_anaNotify _))
  have hreport (t : State) (l : List (Nat × Nat)) : IoOnly t (t.anaReport l) := of_ite .rfl (IoOnly.trans ⟨_, _, rfl⟩ (ioOnly_anaNotify _))
  exact (hchange s _).trans (hreport _ _)

theorem ioOnly_answerWaiting (s : State) : IoOnly s s.answerWaiting := by
  refine .foldl (fun t e => ?_) _ _
  split
  · exact ioOnly_emit t _
  · exact .rfl

/-! ## The end of serving -/

/-- Nothing is served any more: no command is held, the maps are unloaded and no loss of the partner runs. -/
structure Stopped (s t : State) : Prop where
  bsv : t.bsv = { s.bsv with mapsLoaded := false, lossAt := none }
  cmds : t.io.cmds = []
  wc : t.io.wc = []
  regs : t.regs = s.regs
  pins : t.pins = s.pins
  role : t.cpl.role = 0
  fcl : t.fcl = s.fcl

theorem stopServing_stopped (s : State) (b : Bool) : Stopped s (s.stopServing b) := by
  unfold State.stopServing
  extract_lets s1 s2
  have h2 : IoOnly s s2 := of_ite ((ioOnly_anaMove s _).trans (ioOnly_answerWaiting _)) (ioOnly_anaMove s _)
  clear_value s2
  obtain ⟨x, o, rfl⟩ := h2
  exact ⟨rfl, rfl, rfl, rfl, rfl, rfl, rfl⟩

/-! ## Mode changes -/

/-- What a fault without a fence leaves alone: mode controller, host side, partner, links, pins, running soft resets and whether the fuses are loaded. -/
abbrev Serving := Bsv × Io × Cpl × Jlk × Pins × List Nat × Bool

/-- The serving state of the head. -/
def serveState (s : State) : Serving := (s.bsv, s.io, s.cpl, s.jlk, s.pins, s.fcl.softRst, s.fcl.fusesLoaded)

@[simp] theorem serveState_wf (s : State) (f : Fld) (v : Nat) : serveState (s.wf f v) = serveState s := by
  simp only [serveState, wf_bsv, wf_io, wf_cpl, wf_jlk, wf_pins, wf_fcl]

/-- What hangs on the serving state alone survives all but fences and mode changes. -/
theorem kept_of_serveState {α : Type} (g : Serving → α) (x : α) : MinorKept (fun s => g (serveState s) = x) where
  field h _ := by rwa [serveState_wf]
  stat h := of_ite (P := fun t => g (serveState t) = x) (by simpa only [serveState_wf] using h) (by simpa only [serveState_wf] using h)
  stamps h := h
  fcl {s x} h hr hf := by rwa [serveState, hr, hf]
  event h := evrEvent_keeps (P := fun t => g (serveState t) = x) (fun _ _ h => h) (fun _ _ _ h => h) (fun _ _ h => by rwa [serveState_wf]) h
  irq h := h
  emit h := h

/-- Only fences and mode changes touch the serving state. -/
theorem serveState_kept (x : Serving) : MinorKept (fun s => serveState s = x) := kept_of_serveState id x

theorem serveState_markFenced (s : State) (p u : Nat) : serveState (s.markFenced p u) = serveState s := by
  have hshow (t : State) : serveState (t.showFence p u) = serveState t := by
    simp only [State.showFence, apply_ite serveState, serveState_wf, ite_self]
  refine of_ite (P := fun t => serveState t = serveState s) rfl ?_
  rw [hshow, serveState_wf, serveState_wf]
  rfl

/-- A change to another mode than PAIRED writes the mode controller and READY_REMOVE_N, and nothing else of the serving state. -/
theorem enterWith_serveState {k : Nat} {m : Sys2Proof.Mode} (hm : m ≠ .paired) (s : State) (cause : Nat) :
    serveState (State.enterWith (raiseN k) m cause s) =
      (changedBsv s m cause, s.io, s.cpl, s.jlk, { s.pins with readyRemoveN := s.pins.readyRemoveN || decide (m ≠ .isolated) },
        s.fcl.softRst, s.fcl.fusesLoaded) := by
  have hkept := serveState_kept
    (changedBsv s m cause, s.io, s.cpl, s.jlk, { s.pins with readyRemoveN := s.pins.readyRemoveN || decide (m ≠ .isolated) },
      s.fcl.softRst, s.fcl.fusesLoaded)
  refine hkept.assertWith (fun t ht => hkept.raiseN (m := m) (fun u hu => ?_) (.inl rfl) ht) (hkept.event ?_)
  · exact ⟨congrArg (fun x : Serving => x.1.mode) hu, fun h => absurd h hm⟩
  · rw [serveState_wf]
    rfl

section
variable {m : Sys2Proof.Mode} (hm : m ≠ .paired) (s : State) (cause : Nat)
include hm

theorem enter_bsv : (s.enter m cause).bsv = changedBsv s m cause := congrArg (fun x => x.1) (enterWith_serveState hm s cause)

theorem enter_io : (s.enter m cause).io = s.io := congrArg (fun x => x.2.1) (enterWith_serveState hm s cause)

theorem enter_cpl : (s.enter m cause).cpl = s.cpl := congrArg (fun x => x.2.2.1) (enterWith_serveState hm s cause)

theorem enter_pins : (s.enter m cause).pins = { s.pins with readyRemoveN := s.pins.readyRemoveN || decide (m ≠ .isolated) } :=
  congrArg (fun x => x.2.2.2.2.1) (enterWith_serveState hm s cause)

theorem enter_fusesLoaded : (s.enter m cause).fcl.fusesLoaded = s.fcl.fusesLoaded :=
  congrArg (fun x => x.2.2.2.2.2.2) (enterWith_serveState hm s cause)

end

/-! ## Occurrences while the head does not serve -/

/-- The serving state but for what unloading the maps resets. -/
def idlePart (x : Serving) : Serving :=
  ({ x.1 with mapsLoaded := false, autoJoinArmed := false, pending := false, lossAt := none, soloAsked := false }, x.2)

/-- What an occurrence leaves alone on a head that serves nothing. -/
def idleState (s : State) : Serving := idlePart (serveState s)

/-- The head is in a mode that no fault ends. -/
def Idle (s : State) : Prop := s.mode ≠ .paired ∧ s.mode ≠ .solo

theorem leaveWith_idle {s : State} (h : Idle s) (rz : Occ → State → State) (c : Nat) : State.leaveWith rz c s = s := by
  unfold State.leaveWith
  extract_lets go
  split
  · rename_i hm
    exact absurd hm h.1
  · rename_i hm
    exact absurd hm h.2
  · rfl

theorem Idle.of_idleState {s t : State} (h : Idle s) (e : idleState t = idleState s) : Idle t := by
  have hm : t.mode = s.mode := congrArg (fun x : Serving => x.1.mode) e
  rwa [Idle, hm]

theorem idleState_unloadMaps (s : State) : idleState s.unloadMaps = idleState s := by
  unfold State.unloadMaps
  extract_lets s1
  have h1 : idleState s1 = idleState s := of_ite (P := fun t => idleState t = idleState s) (congrArg idlePart (serveState_wf _ _ _)) rfl
  exact h1

/-- A fence brings a head that serves nothing no further. -/
theorem idleState_fenceWith {s : State} (h : Idle s) (rz : Occ → State → State) (p u : Nat) :
    idleState (State.fenceWith rz p u s) = idleState s := by
  have hm : idleState (s.markFenced p u) = idleState s := congrArg idlePart (serveState_markFenced s p u)
  unfold State.fenceWith
  refine of_ite (P := fun t => idleState t = idleState s) (congrArg idlePart (serveState_wf _ _ _)) ?_
  dsimp only
  rw [leaveWith_idle (h.of_idleState hm), leaveWith_idle (h.of_idleState hm), ite_self]
  exact of_ite (P := fun t => idleState t = idleState s) (of_ite (P := fun t => idleState t = idleState s) ((idleState_unloadMaps _).trans hm) hm) hm

/-- No occurrence changes the mode, its cause or the serving state of a head that serves nothing. -/
theorem idleState_raiseN {s : State} (h : Idle s) (k : Nat) (o : Occ) : idleState (raiseN k o s) = idleState s := by
  have hkept := kept_of_serveState idlePart (idleState s)
  have hall (k : Nat) : ∀ o t, idleState t = idleState s → idleState (raiseN k o t) = idleState s := by
    induction k with
    | zero => exact fun _ _ ht => ht
    | succ k ih =>
      intro o t ht
      refine hkept.raiseN_succ (fun o t _ ht => ih o t ht) (fun u t _ _ ht => ?_) (fun t _ ht => ?_) (hkept.stat ht)
      · exact (idleState_fenceWith (h.of_idleState ht) _ _ _).trans ht
      · rw [leaveWith_idle (h.of_idleState ht)]
        exact ht
  exact hall k o s rfl

theorem idleState_raiseU {s : State} (h : Idle s) (p c u : Nat) : idleState (s.raiseU p c u) = idleState s := idleState_raiseN h 3 _

theorem idleState_raise {s : State} (h : Idle s) (p c : Nat) : idleState (s.raise p c) = idleState s := idleState_raiseN h 3 _

theorem idleState_event {s : State} (h : Idle s) (p : Nat) : idleState (s.event p) = idleState s :=
  (kept_of_serveState idlePart (idleState s)).assertWith (fun _ ht => (idleState_raiseN (h.of_idleState ht) 2 _).trans ht) rfl

/-- A PAIRED head that leaves serving is ISOLATED, silent and serves nothing (R42, R44, R648). -/
theorem leaveWith_paired {k : Nat} {s : State} (h : s.mode = .paired) (cause : Nat) :
    (State.leaveWith (raiseN k) cause s).bsv =
      { changedBsv { s with bsv := { s.bsv with silent := true, leaveCause := none, autoJoinArmed := decide (cause = 0x0A) } } .isolated cause with
        mapsLoaded := false, lossAt := none } := by
  have hb : (State.enterWith (raiseN k) .isolated cause
      { s with bsv := { s.bsv with silent := true, leaveCause := none, autoJoinArmed := decide (cause = 0x0A) } }).bsv = _ :=
    congrArg (fun x : Serving => x.1) (enterWith_serveState (by decide) _ cause)
  have hstop := (stopServing_stopped (State.enterWith (raiseN k) .isolated cause
      { s with bsv := { s.bsv with silent := true, leaveCause := none, autoJoinArmed := decide (cause = 0x0A) } }) false).bsv
  rw [hb] at hstop
  unfold State.leaveWith
  extract_lets go
  have hmute (b : Bool) (t : State) : (go b t).bsv =
      ((State.enterWith (raiseN k) .isolated cause
        { t with bsv := { t.bsv with silent := true, leaveCause := none, autoJoinArmed := decide (cause = 0x0A) } }).stopServing b).bsv := rfl
  clear_value go
  rw [h]
  exact (hmute false s).trans hstop

end Sys2Proof.Proofs
end

section
/-! Fences, refresh, scrub and error windows of the memory controllers, and O4 (R44 to R49, R643, R712). -/
namespace Sys2Proof.Proofs
open Sys2Proof Sys2Proof.Machine Sys2Proof.Laws

/-! ## Fences of DRAM channels -/

/-- t has the fenced units and the mode controller of s. -/
def SameFences (s t : State) : Prop := t.fcl = s.fcl ∧ t.bsv = s.bsv

theorem SameFences.wf {s t : State} {f : Fld} {v : Nat} (h : SameFences s t) : SameFences s (t.wf f v) :=
  ⟨(wf_fcl _ _ _).trans h.1, (wf_bsv _ _ _).trans h.2⟩

/-- Showing a fence in the block's registers leaves the fenced units and the mode controller as they are. -/
theorem showFence_keeps (s : State) (p u : Nat) : SameFences s (s.showFence p u) := by
  have h0 : SameFences s s := ⟨rfl, rfl⟩
  exact of_ite h0.wf <| of_ite h0.wf <| of_ite h0.wf <| of_ite (of_ite h0.wf h0.wf) <| of_ite h0.wf <| of_ite h0.wf.wf.wf <|
    of_ite h0.wf.wf h0

/-- A unit not fenced before is marked; the mode controller stays. -/
theorem markFenced_marks {s : State} {p u : Nat} (h : u ∉ s.fencedUnits p) :
    u ∈ (s.markFenced p u).fencedUnits p ∧ (s.markFenced p u).bsv = s.bsv := by
  unfold State.markFenced
  rw [if_neg (by simpa using h)]
  extract_lets _ s1 s2 s3
  obtain ⟨hf, hb⟩ := showFence_keeps s3 p u
  refine ⟨?_, hb.trans ((wf_bsv _ _ _).trans (wf_bsv _ _ _))⟩
  rw [State.fencedUnits, hf, wf_fcl, wf_fcl, agetD, aget_aset_same]
  simp

theorem ddcFence_eq {s : State} {ch : Nat} (h : ch ∉ s.fencedUnits Pg.DDC) :
    s.ddcFence ch = if s.mode = .isolated then (s.markFenced Pg.DDC ch).unloadMaps else State.leaveWith (raiseN 2) 0x0A (s.markFenced Pg.DDC ch) := by
  have hb := (markFenced_marks h).2
  unfold State.ddcFence State.fence State.fenceWith
  rw [if_neg (by simpa using h), if_neg (by decide)]
  dsimp only
  rw [if_pos rfl, State.mode, hb]

/-- The mode controller after the maps are unloaded. -/
def unloaded (b : Bsv) : Bsv :=
  { b with mapsLoaded := false, autoJoinArmed := true, pending := b.pending && !b.soloAsked, lossAt := if b.soloAsked then none else b.lossAt
           soloAsked := false }

theorem unloadMaps_keeps (s : State) : s.unloadMaps.fcl = s.fcl ∧ s.unloadMaps.bsv = unloaded s.bsv := by
  have h : SameFences s (if s.bsv.soloAsked then s.wf R.BSV.MODE_RESULT.RESULT 8 else s) := of_ite (SameFences.wf ⟨rfl, rfl⟩) ⟨rfl, rfl⟩
  exact ⟨h.1, congrArg unloaded h.2⟩

/-- A fence in ISOLATED unloads the maps (R44). -/
theorem ddcFence_isolated {s : State} {ch : Nat} (h : ch ∉ s.fencedUnits Pg.DDC) (hm : s.mode = .isolated) :
    ch ∈ (s.ddcFence ch).fencedUnits Pg.DDC ∧ (s.ddcFence ch).bsv = unloaded s.bsv := by
  obtain ⟨hmark, hb⟩ := markFenced_marks h
  obtain ⟨hfcl, hbsv⟩ := unloadMaps_keeps (s.markFenced Pg.DDC ch)
  rw [ddcFence_eq h, if_pos hm, hbsv, hb]
  exact ⟨by rwa [State.fencedUnits, hfcl], rfl⟩

theorem ddcFence_paired {s : State} {ch : Nat} (h : ch ∉ s.fencedUnits Pg.DDC) (hm : s.mode = .paired) :
    (s.ddcFence ch).mode = .isolated ∧ (s.ddcFence ch).bsv.cause = 0x0A ∧ (s.ddcFence ch).bsv.silent = true ∧
      (s.ddcFence ch).bsv.mapsLoaded = false := by
  have hb := (markFenced_marks h).2
  rw [ddcFence_eq h, if_neg (by rw [hm]; decide), State.mode, leaveWith_paired (by rw [State.mode, hb]; exact hm)]
  exact ⟨rfl, rfl, rfl, rfl⟩

/-! ## Corrected errors -/

/-- Checking a count against its threshold leaves the counts as they are, and raises at most one occurrence. -/
theorem ceCheck_keeps (s : State) (hbm : Bool) (u : Nat) :
    (s.ceCheck hbm u).dram.ddrCe = s.dram.ddrCe ∧ (s.ceCheck hbm u).dram.scrub = s.dram.scrub ∧ (s.ceCheck hbm u).maps = s.maps ∧
      (s.ceCheck hbm u).mem = s.mem := by
  unfold State.ceCheck
  extract_lets key n thr _ s1
  split
  · exact ⟨rfl, rfl, rfl, rfl⟩
  · split <;> simp only [raiseU_dram, raiseU_maps, raiseU_mem] <;> exact ⟨rfl, rfl, rfl, rfl⟩

theorem ceCount_ddr (s : State) (u : Nat) :
    agetD (s.ceCount false u).dram.ddrCe u 0 = agetD s.dram.ddrCe u 0 + 1 ∧ (s.ceCount false u).dram.scrub = s.dram.scrub := by
  obtain ⟨hce, hscrub, -, -⟩ := ceCheck_keeps { s.inc R.DDC.CNT_CE.COUNT with dram := { s.dram with ddrCe := abump s.dram.ddrCe u 1 } } false u
  refine ⟨?_, hscrub⟩
  have h : (s.ceCount false u).dram.ddrCe = abump s.dram.ddrCe u 1 := hce
  rw [h, abump, agetD, aget_aset_same]
  rfl

theorem ceChecks_keep (hbm : Bool) (l : List Nat) (s : State) :
    (l.foldl (fun s u => s.ceCheck hbm u) s).maps = s.maps ∧ (l.foldl (fun s u => s.ceCheck hbm u) s).mem = s.mem := by
  induction l generalizing s with
  | nil => exact ⟨rfl, rfl⟩
  | cons u l ih =>
    obtain ⟨-, -, hmaps, hmem⟩ := ceCheck_keeps s hbm u
    exact ⟨(ih _).1.trans hmaps, (ih _).2.trans hmem⟩

/-- The state after a line is read by the scrub, before its finding is handled. -/
def scrubbed (s : State) (line : Nat) : State := { s with dram := { s.dram with scrub := aset s.dram.scrub line s.estamp } }

/-- A line the scrub has not read for a period is read, and its finding handled. -/
theorem ddcScrub_due {s : State} {line : Nat} (h : ∀ t, aget s.dram.scrub line = some t → t + s.scrubPeriod ≤ s.estamp) (f : Fin 3) (hit : Struck) :
    exec (.ddcScrub line f hit) s =
      if f.val = 1 then .next (((scrubbed s line).raiseU Pg.DDC 0 (s.dramChan line)).ceCount false (s.dramChan line))
      else if f.val = 2 then .next ((((scrubbed s line).ddcUe (line * 64) (s.dramChan line)).strike hit).fenceSync)
      else .next (scrubbed s line) := by
  rw [exec_ddcScrub, execDdcScrub]
  cases e : aget s.dram.scrub line with
  | none => rfl
  | some t =>
    simp only [decide_eq_true (h t e)]
    rfl

/-- Settles O4: each command is its definition's branch, the fences by `ddcFence_isolated` and `ddcFence_paired`. -/
theorem memoryControllersComplete : Obligations.MemoryControllersComplete := by
  refine ⟨⟨fun pc s h => ?_, fun ch s h hm => ?_, fun ch s h hm => ?_, fun ch s => ?_, fun stack temp s h hf => ?_, fun stack temp s h => ?_⟩,
    ⟨fun line hit s u hdue hu => ⟨?_, ?_, ?_⟩, fun s h => ?_, fun page src unit detail hit s hlive hsrc hunit hpage => ?_⟩⟩
  · simp [execHbcFence, State.hbcFence, h, State.fence, State.fenceWith]
  · obtain ⟨hmark, hb⟩ := ddcFence_isolated h hm
    refine ⟨s.ddcFence ch, rfl, hmark, ?_, ?_, ?_, ?_, fun hs => ?_⟩ <;> simp only [State.mode, hb, unloaded]
    · exact hm
    · simp [hs]
  · obtain ⟨h1, h2, h3, h4⟩ := ddcFence_paired h hm
    exact ⟨s.ddcFence ch, rfl, h1, h2, h3, h4⟩
  · rfl
  · have hs : stack.val = 0 ↔ stack = 0 := Fin.val_eq_zero_iff
    simp only [exec_hbmRefreshDouble, execHbmRefreshDouble, hs, hf, not_le.mpr h, Bool.false_eq_true, or_false, if_false]
  · have hs : stack.val = 0 ↔ stack = 0 := Fin.val_eq_zero_iff
    simp only [exec_hbmRefreshNormal, execHbmRefreshNormal, hs, if_neg (not_le.mpr h)]
  · rw [ddcScrub_due hdue, hu]
    rfl
  · obtain ⟨hce, hscrub⟩ := ceCount_ddr ((scrubbed s line).raiseU Pg.DDC 0 (s.dramChan line)) (s.dramChan line)
    refine ⟨_, ddcScrub_due hdue 1 hit, ?_, ?_⟩
    · rw [hscrub, raiseU_dram]
      exact aget_aset_same _ _ _
    · rw [hce, raiseU_dram]
      rfl
  · rw [ddcScrub_due hdue, hu]
    rfl
  · rw [exec_ceWindowEnd, execCeWindowEnd, if_neg (not_lt.mpr h)]
    extract_lets s1 s2
    obtain ⟨hmaps, hmem⟩ : s2.maps = s.maps ∧ s2.mem = s.mem := by
      obtain ⟨hmaps, hmem⟩ := ceChecks_keep true (List.range 64) s
      obtain ⟨hmaps', hmem'⟩ := ceChecks_keep false (List.range 16) s1
      exact ⟨hmaps'.trans hmaps, hmem'.trans hmem⟩
    clear_value s2
    exact ⟨_, rfl, rfl, rfl, rfl, hmaps, hmem⟩
  · obtain ⟨h1, h2, h3, h4⟩ : page.val ≠ Pg.HBC ∧ page.val ≠ Pg.DDC ∧ page.val ≠ Pg.MPC ∧ page.val ≠ Pg.CCL := by simpa using hpage
    cases unit with
    | none => simp [execErrorOccurrence, hlive, hsrc, State.occurrence, h1, h2, h3, h4]
    | some u => simp [execErrorOccurrence, hlive, hsrc, hunit u rfl, State.occurrence, h1, h2, h3, h4]

end Sys2Proof.Proofs
end

section
/-! What sending over Carid leaves unchanged (R464 to R471, R489). -/
namespace Sys2Proof.Proofs
open Sys2Proof Sys2Proof.Machine Sys2Proof.Laws

/-- The partner state without what sending a message uses: requests, queue, sequence, keys and credits. -/
def cplSteady (c : Cpl) : Cpl :=
  { c with asks := [], askGen := [], queue := [], xseq := 0, txKey := [], txNew := none, txCred := [], unack := [], owed := [], rxCred := [],
           uctr := 0, ackDue := none }

/-- t is s after messages were sent over Carid. -/
def CSends (s t : State) : Prop := ∃ c o, t = { s with cpl := c, out := o } ∧ cplSteady c = cplSteady s.cpl

theorem CSends.rfl {s : State} : CSends s s := ⟨s.cpl, s.out, Eq.refl s, Eq.refl _⟩

theorem CSends.trans {s t u : State} (h : CSends s t) (h' : CSends t u) : CSends s u := by
  obtain ⟨c, o, rfl, hc⟩ := h
  obtain ⟨d, p, rfl, hd⟩ := h'
  exact ⟨d, p, Eq.refl _, hd.trans hc⟩

theorem cSends_setCpl {s : State} {c : Cpl} (h : cplSteady c = cplSteady s.cpl) : CSends s (s.setCpl c) := ⟨c, s.out, rfl, h⟩

theorem cSends_updCpl {s : State} {f : Cpl → Cpl} (h : cplSteady (f s.cpl) = cplSteady s.cpl) : CSends s (s.updCpl f) := ⟨_, s.out, rfl, h⟩

theorem cSends_cOut (s : State) (h : CSent) (m : CMsg) : CSends s (s.cOut h m) := ⟨_, _, rfl, rfl⟩

theorem cSends_pumpC (k : Nat) (s : State) : CSends s (State.pumpC k s) := by
  induction k generalizing s with
  | zero => exact .rfl
  | succ k ih =>
    unfold State.pumpC
    refine of_ite .rfl ?_
    split
    · exact .rfl
    · extract_lets c
      split
      extract_lets s1 h
      have h1 : CSends s s1 := cSends_setCpl rfl
      clear_value s1 h
      exact h1.trans (((cSends_updCpl rfl).trans (cSends_cOut _ _ _)).trans (ih _))

theorem cSends_sendC (s : State) (m : CMsg) : CSends s (s.sendC m) :=
  of_ite .rfl (of_ite (CSends.trans ⟨_, _, rfl, rfl⟩ (cSends_pumpC _ _)) (of_ite (cSends_cOut _ _ _) .rfl))

theorem cSends_ask (s : State) (m : CMsg) : CSends s (s.ask m) :=
  of_ite .rfl (CSends.trans ⟨_, _, rfl, rfl⟩ (cSends_sendC _ _))

end Sys2Proof.Proofs
end

section
/-! The mode commands, and O6 (R53, R54, R57, R65, R72, R81). -/
namespace Sys2Proof.Proofs
open Sys2Proof Sys2Proof.Machine Sys2Proof.Laws

/-- JOIN's first steps make this head the joiner; the mode and its cause stay. -/
theorem joinStart_keeps (s : State) :
    s.joinStart.bsv = { s.bsv with silent := false, mapsLoaded := false, soloAsked := false } ∧ s.joinStart.cpl.role = 1 := by
  unfold State.joinStart
  extract_lets s1 s2 _ _ _ s3 s4
  have hb : s2.bsv = s.bsv := by simp only [s2, s1, wf_bsv]
  obtain ⟨c, o, e, hc⟩ := cSends_ask s4 (.joinReq (positionsOf s4.fuses.variant) (s4.rf R.MPE.CT_BITS.BITS) s4.cMax s4.usableGib)
  rw [e]
  exact ⟨congrArg (fun b : Bsv => { b with silent := false, mapsLoaded := false, soloAsked := false }) hb, congrArg Cpl.role hc⟩

/-- A JOIN that Table 2-5 and its requirements allow enters JOINING as the joiner. -/
theorem joinCmd_joins {s : State} (hp : s.bsv.pending = false) (hm : s.mode = .isolated) (hj : s.joinCheck = 0) (hg : s.gondolaKept = false) :
    s.joinCmd.mode = .joining ∧ s.joinCmd.bsv.prev = some .isolated ∧ s.joinCmd.bsv.cause = 0x01 ∧ s.joinCmd.bsv.gondolaValid = false ∧
      s.joinCmd.bsv.autoJoinArmed = false ∧ s.joinCmd.cpl.role = 1 := by
  unfold State.joinCmd
  rw [hp, hm, hj, hg]
  rw [if_neg (by decide), if_neg (by decide), if_neg (by decide), if_neg (by decide)]
  extract_lets _ _ s1
  obtain ⟨hb, hr⟩ := joinStart_keeps (s1.enter .joining 0x01)
  have he : (s1.enter .joining 0x01).bsv = changedBsv s1 .joining 0x01 := enter_bsv (by decide) s1 0x01
  rw [State.mode, hb, he]
  exact ⟨rfl, congrArg some hm, rfl, rfl, rfl, hr⟩

/-- The requirements of JOIN do not hang on the mode controller. -/
theorem joinCheck_bsv (s : State) (b : Bsv) : ({ s with bsv := b } : State).joinCheck = s.joinCheck := by
  have hw : ({ s with bsv := b } : State).witOn = s.witOn := by
    have hf (f : Fld) : ({ s with bsv := b } : State).flag f = s.flag f :=
      congrArg (fun n => decide (n = 1)) (rf_eq_of_regs_eq (s := s) (t := { s with bsv := b }) rfl f)
    simp only [State.witOn, hf]
  have hh : ({ s with bsv := b } : State).hbRecent = s.hbRecent := rfl
  have hl : ({ s with bsv := b } : State).rf R.CPL.LINK_STAT.STATE = s.rf R.CPL.LINK_STAT.STATE := rfl
  rw [State.joinCheck, hw, hh, hl]
  rfl

/-- Settles O6: each command takes the branch its requirements choose. -/
theorem modeCommandsComplete : Obligations.ModeCommandsComplete := by
  refine ⟨fun s hp hm hj hg => ?_, fun f s t hp hm hw hh hr hl hg hc => ?_, fun s hp hm hq => ?_, fun s hp hm => ?_, fun s hp hm => ?_,
    fun s hm ha hf hg hp hj hk => ?_⟩
  · obtain ⟨h1, h2, h3, h4, -, h6⟩ := joinCmd_joins hp hm hj hg
    exact ⟨s.joinCmd, rfl, h1, h2, h3, h4, h6⟩
  · simp [execServeSolo, State.serveSolo, hp, hm, hw, hh, hr, hl, hg, hc]
  · simp [execHandover, State.handoverCmd, hp, hm, hq]
  · simp [execStop, State.stopCmd, hp, hm]
  · simp [execEnterService, State.serviceCmd, hp, hm]
  · obtain ⟨h1, h2, h3, -, h5, h6⟩ := joinCmd_joins (s := { s with bsv := { s.bsv with autoJoinArmed := false } }) hp hm ((joinCheck_bsv s _).trans hj) hk
    rw [exec_autoJoin, execAutoJoin, if_pos ⟨hm, ha, hf, hg⟩]
    exact ⟨_, rfl, h1, h2, h3, h5, h6⟩

end Sys2Proof.Proofs
end

section
/-! Reset, its release and the end of BOOT, and O8 (R56, R622, R698, R699, Table 18-6). -/
namespace Sys2Proof.Proofs
open Sys2Proof Sys2Proof.Machine Sys2Proof.Laws

/-! ## The state after a reset -/

/-- What a reset leaves: BOOT, the default serving state, and what Table 18-6 keeps. -/
structure ResetTo (s t : State) : Prop where
  mode : t.mode = .boot
  pins : t.pins = { s.pins with readyRemoveN := true, ejectReported := false }
  fuses : t.fuses = s.fuses
  straps : t.straps = s.straps
  bridges : t.bridges = s.bridges
  flash : t.flash = s.flash
  mem : t.mem = []
  cmds : t.io.cmds = []
  maps : t.maps = {}
  cpl : t.cpl = {}
  rtc : t.tbs.rtc = s.tbs.rtc
  rtcValid : t.tbs.rtcValid = s.tbs.rtcValid

theorem evrEvent_serveState (s : State) (t u d : Nat) : serveState (s.evrEvent t u d) = serveState s := (serveState_kept _).event rfl

theorem evrEvent_rtc (s : State) (t u d : Nat) :
    (s.evrEvent t u d).tbs.rtc = s.tbs.rtc ∧ (s.evrEvent t u d).tbs.rtcValid = s.tbs.rtcValid :=
  evrEvent_keeps (P := fun w => w.tbs.rtc = s.tbs.rtc ∧ w.tbs.rtcValid = s.tbs.rtcValid) (fun _ _ h => h) (fun _ _ _ h => h)
    (fun w _ h => by rwa [wf_tbs]) ⟨rfl, rfl⟩

theorem resetTo_reset (s : State) : ResetTo s s.resetTo := by
  unfold State.resetTo
  extract_lets was pcp last t0 _ t1 t2
  have hs : serveState (t2.evrEvent 1 Unit.bsv (modeCode .boot + 256 * modeCode was)) = serveState t1 := by
    rw [evrEvent_serveState, serveState, serveState]
    simp only [t2, wf_bsv, wf_io, wf_cpl, wf_jlk, wf_pins, wf_fcl]
  obtain ⟨hr, hv⟩ := evrEvent_rtc t2 1 Unit.bsv (modeCode .boot + 256 * modeCode was)
  exact {
    mode := congrArg (fun x : Serving => x.1.mode) hs
    pins := congrArg (fun x : Serving => x.2.2.2.2.1) hs
    fuses := by simp only [evrEvent_fuses, t2, wf_fuses]; rfl
    straps := by simp only [evrEvent_straps, t2, wf_straps]; rfl
    bridges := by simp only [evrEvent_bridges, t2, wf_bridges]; rfl
    flash := by simp only [evrEvent_flash, t2, wf_flash]; rfl
    mem := by simp only [evrEvent_mem, t2, wf_mem]; rfl
    cmds := congrArg (fun x : Serving => x.2.1.cmds) hs
    maps := by simp only [evrEvent_maps, t2, wf_maps]; rfl
    cpl := congrArg (fun x : Serving => x.2.2.1) hs
    rtc := hr.trans (by simp only [t2, wf_tbs]; rfl)
    rtcValid := hv.trans (by simp only [t2, wf_tbs]; rfl) }

/-! ## The release of RESET_N -/

theorem serveState_foldl {α : Type} {f : State → α → State} (hf : ∀ t a, serveState (f t a) = serveState t) (l : List α) (s : State) :
    serveState (l.foldl f s) = serveState s :=
  FaultKept.foldl (P := fun t => serveState t = serveState s) (fun t a ht => (hf t a).trans ht) rfl

/-- What the boot steps before the image leave alone: the serving state. -/
theorem serveState_bootSteps (s : State) : serveState s.hbmFences.hbmRegions.secBoot.evrBoot = serveState s := by
  have hfences : serveState s.hbmFences = serveState s :=
    (serveState_wf _ _ _).trans (serveState_foldl (fun t p => serveState_markFenced t _ p) _ s)
  have hregions (t : State) : serveState t.hbmRegions = serveState t := rfl
  have hsec (t : State) : serveState t.secBoot = serveState t := by
    simp only [State.secBoot, State.secShow, serveState_wf]
    rfl
  have hevr (t : State) : serveState t.evrBoot = serveState t := by
    simp only [State.evrBoot, State.evrFull, serveState_wf]
    exact serveState_foldl (fun t _ => serveState_wf t _ _) _ t
  exact (hevr _).trans ((hsec _).trans ((hregions _).trans hfences))

/-- What neither a log entry nor the regions of HBM nor SEC bear on, the boot steps before the image leave alone. -/
theorem bootSteps_keeps {α : Type} (f : State → α) (hf : ∀ s, f (calm s) = f s) (hd : ∀ s x, f { s with dram := x } = f s)
    (hs : ∀ s x, f { s with sec := x } = f s) (s : State) : f s.hbmFences.hbmRegions.secBoot.evrBoot = f s := by
  have hwf (t : State) (r : Fld) (v : Nat) : f (t.wf r v) = f t := of_calm f hf (calm_wf t r v)
  have hfences : f s.hbmFences = f s :=
    (hwf _ _ _).trans (FaultKept.foldl (P := fun t => f t = f s) (fun t p ht => (of_calm f hf (calm_markFenced t Pg.HBC p)).trans ht) rfl)
  have hsec (t : State) : f t.secBoot = f t := by
    simp only [State.secBoot, State.secShow, hwf]
    exact hs t _
  have hevr (t : State) : f t.evrBoot = f t := by
    simp only [State.evrBoot, State.evrFull, hwf]
    exact FaultKept.foldl (P := fun u => f u = f t) (fun u _ hu => (hwf u _ _).trans hu) rfl
  exact (hevr _).trans ((hsec _).trans ((hd _ _).trans hfences))

theorem straps_bootSteps (s : State) : s.hbmFences.hbmRegions.secBoot.evrBoot.straps = s.straps :=
  bootSteps_keeps State.straps (fun _ => rfl) (fun _ _ => rfl) (fun _ _ => rfl) s

theorem bridges_bootSteps (s : State) : s.hbmFences.hbmRegions.secBoot.evrBoot.bridges = s.bridges :=
  bootSteps_keeps State.bridges (fun _ => rfl) (fun _ _ => rfl) (fun _ _ => rfl) s

/-! ## The end of BOOT -/

/-- Training's results leave a head in BOOT as it is, but for fences. -/
theorem idleState_trainDone {s : State} (h : Idle s) (badPc : List (Fin 64)) (badCh : List (Fin 16)) :
    idleState (s.trainDone badPc badCh) = idleState s := by
  have hwf (t : State) (f : Fld) (v : Nat) : idleState (t.wf f v) = idleState t := congrArg idlePart (serveState_wf t f v)
  have hfold {α : Type} {f : State → α → State} {t : State} (l : List α) (ht : idleState t = idleState s)
      (hf : ∀ u a, idleState u = idleState s → idleState (f u a) = idleState s) : idleState (l.foldl f t) = idleState s :=
    FaultKept.foldl (P := fun u => idleState u = idleState s) hf ht
  unfold State.trainDone
  extract_lets s1 s2 s3 s4 s5
  have h1 : idleState s1 = idleState s := by
    refine hfold _ rfl fun u p hu => ?_
    rw [hwf]
    exact (congrArg idlePart (serveState_markFenced _ _ _)).trans ((idleState_raiseU (h.of_idleState hu) _ _ _).trans hu)
  have h4 : idleState s4 = idleState s := by
    simp only [s4, s3, hwf]
    exact h1
  have h5 : idleState s5 = idleState s := hfold _ h4 fun u c hu => (idleState_raiseU (h.of_idleState hu) _ _ _).trans hu
  exact (hwf _ _ _).trans h5

/-- Settles O8: a reset leaves what `ResetTo` lists, its release and the end of BOOT enter the next mode. -/
theorem resetAndBootComplete : Obligations.ResetAndBootComplete := by
  refine ⟨fun lowNs s hlow hr => ?_, fun bad s hr hse => ?_, fun badPc badCh s hm hi ht => ?_⟩
  · have h := resetTo_reset s
    rw [exec_resetAssert, execResetAssert, if_neg (by rw [hr]; simp; omega)]
    exact ⟨_, rfl, h.mode, rfl, rfl, h.fuses, h.bridges, h.flash, h.mem, h.cmds, h.maps, h.cpl, h.rtc, h.rtcValid⟩
  · rw [exec_resetRelease, execResetRelease, if_neg (by rw [hr]; simp)]
    extract_lets low _ _ _ s1 s2
    have hs : serveState s2 = serveState s1 := (serveState_bootSteps _).trans (serveState_wf _ _ _)
    have hst : s2.straps = s1.straps := (straps_bootSteps _).trans (wf_straps _ _ _)
    clear_value s2
    have hfl : s2.fcl.fusesLoaded = true := congrArg (fun x : Serving => x.2.2.2.2.2.2) hs
    have hpin : s2.pins.resetN = true := congrArg (fun x : Serving => x.2.2.2.2.1.resetN) hs
    have hoff : s2.straps.serviceEn = false := by
      rw [hst]
      exact hse
    rw [hoff]
    have hb : (s2.enter .service 0x08).bsv = changedBsv s2 .service 0x08 := enter_bsv (by decide) s2 0x08
    have hp : (s2.enter .service 0x08).pins.resetN = true := by
      rw [enter_pins (by decide)]
      exact hpin
    refine ⟨_, rfl, congrArg Bsv.mode hb, congrArg Bsv.cause hb, hp, ?_, (enter_fusesLoaded (by decide) s2 0x08).trans hfl⟩
    rw [enter_straps, hst]
  · have hidle : Idle s := by
      rw [Idle, hm]
      exact ⟨by decide, by decide⟩
    have hprev : (s.trainDone badPc badCh).mode = .boot :=
      (congrArg (fun x : Serving => x.1.mode) (idleState_trainDone hidle badPc badCh)).trans hm
    have hb : ((s.trainDone badPc badCh).enter .isolated 0x00).bsv = changedBsv (s.trainDone badPc badCh) .isolated 0x00 :=
      enter_bsv (by decide) _ _
    rw [exec_bootComplete, execBootComplete, if_neg (by rw [hm, hi, ht]; decide)]
    refine ⟨_, rfl, congrArg Bsv.mode hb, congrArg Bsv.cause hb, ?_, rfl⟩
    exact (congrArg Bsv.prev hb).trans (congrArg some hprev)

end Sys2Proof.Proofs
end

section
/-! Groups, lanes and horizons of the journal, and O15 (R120 to R124, R132, R239, R353, R354). -/
namespace Sys2Proof.Proofs
open Sys2Proof Sys2Proof.Machine Sys2Proof.Laws

/-- A command that may be stamped and whose group the issuer stamps is done up to that group. -/
theorem groupStamp_stamps {op : Nat} {c : IoCmd} {o : Ostamp} {s u : State} (hc : aget s.io.cmds op = some c) (hs : c.stage = .active)
    (hg : c.grains ≠ []) (hd : c.doneN < c.grains.length) (hr : ∀ g ∈ leftGrains c, grainReady g = true ∧ s.grainHeld op c.ns g.gi = false)
    (hm : s.moveHolds c.ns = false) (hh : s.hitsExpired c = false)
    (hp : s.prepPaths c.ns (((s.nextGrains c).filter (fun g => !(s.grainRecs c g).isEmpty)).filter
      (fun g => g.st != .unmap || s.leafEntry c.ns g.gi != 0) |>.map (fun g => g.gi)) = [])
    (hn : groupOrder ((s.nextGrains c).flatMap (s.grainRecs c)) ≠ [])
    (hst : s.stampGroup (b2n c.adopted) (groupOrder ((s.nextGrains c).flatMap (s.grainRecs c))) = .done o u) :
    s.groupStamp op = u.groupDone op (s.nextGrains c) o := by
  have hwait : (c.stage != .active || c.grains.isEmpty || decide (c.grains.length ≤ c.doneN) || !(leftGrains c).all grainReady
      || (leftGrains c).any (fun g => s.grainHeld op c.ns g.gi) || s.moveHolds c.ns) = false := by
    have hall : (leftGrains c).all grainReady = true := List.all_eq_true.mpr fun g h => (hr g h).1
    have hany : (leftGrains c).any (fun g => s.grainHeld op c.ns g.gi) = false := by
      rw [List.any_eq_false]
      exact fun g h => by rw [(hr g h).2]; decide
    rw [hs, hall, hany, hm, decide_eq_false (not_le.mpr hd), List.isEmpty_eq_false_iff.mpr hg]
    rfl
  unfold State.groupStamp
  rw [hc]
  dsimp only
  rw [if_neg (by rw [hwait]; decide), if_neg (by rw [hh]; decide), hp, if_pos rfl]
  dsimp only
  rw [if_neg hn, hst]

@[simp] theorem lane_setLane_same (l : Nat) (x : Lane) (s : State) : (s.setLane l x).lane l = x := by
  simp [State.lane, State.setLane, agetD, aget_aset_same]

theorem lane_setLane_other {l k : Nat} (x : Lane) (s : State) (h : k ≠ l) : (s.setLane l x).lane k = s.lane k := by
  simp [State.lane, State.setLane, agetD, aget_aset_other, h]

/-- Where no replica is kept current, enqueueing a record changes its lane alone. -/
theorem enqueue_of_not_mirrors (r : JRec) {s : State} (h : s.mirrors = false) :
    ∃ x : Lane, x.queue = (s.lane r.lane).queue ++ [r] ∧ s.enqueue r = s.setLane r.lane x := by
  refine ⟨{ s.lane r.lane with
    queue := (s.lane r.lane).queue ++ [r], firstAt := if (s.lane r.lane).queue.isEmpty then s.estamp else (s.lane r.lane).firstAt
    horizon := max (s.lane r.lane).horizon r.ostamp, lastAt := s.estamp }, rfl, ?_⟩
  unfold State.enqueue
  exact if_neg (by rw [show ∀ x, (s.setLane r.lane x).mirrors = s.mirrors from fun _ => rfl, h]; decide)

/-- A lane whose queue waits for its page programs it in its tile, once the meter's lane has taken up its entries. -/
theorem lanePageFlush_programs {lane : Fin 32} {s u : State}
    (hu : (if lane.val = 31 && serving s.mode && s.mayProgram && s.firstPool.isSome then s.meterFlush else s) = u)
    (hs : serving u.mode = true) (hp : u.mayProgram = true) (hf : u.firstPool ≠ none)
    (hd : u.laneDue lane = true) (hseg : (u.lane lane).seg ≠ 0) (ht : (u.lane lane).tilePages < 4) :
    exec (.lanePageFlush lane) s = .next (u.programLanePage lane) := by
  have hq : (u.lane lane).queue.isEmpty = false := by
    unfold State.laneDue at hd
    simpa using (Bool.and_eq_true_iff.mp hd).1
  have hwait : (!serving u.mode || !u.mayProgram || u.firstPool.isNone) = false := by
    rw [hs, hp, Bool.eq_false_iff.mpr (fun h => hf (Option.isNone_iff_eq_none.mp h))]
    rfl
  rw [exec_lanePageFlush]
  unfold execLanePageFlush
  dsimp only
  rw [hu, if_neg (by rw [hwait]; decide), if_pos ⟨hseg, ht, .inr hq⟩, if_pos hd]

/-- A list of records of which a later one does not apply is not applied. -/
theorem applyRecs_append_none {slice : Nat} {a b : List JRec} {r : JRec} {s u : State} (ha : applyRecs slice a s = some u)
    (hr : u.applyRec slice r = none) : applyRecs slice (a ++ r :: b) s = none := by
  induction a generalizing s with
  | nil =>
    cases ha
    rw [List.nil_append, applyRecs, hr]
  | cons x xs ih =>
    rw [applyRecs] at ha
    rw [List.cons_append, applyRecs]
    cases hx : s.applyRec slice x with
    | none => rfl
    | some v => exact ih (by rwa [hx] at ha)

/-- Settles O15: a ready group is stamped, journalled on its lanes and applied whole or not at all. -/
theorem journalCompletes : Obligations.JournalCompletes := by
  unfold Obligations.JournalCompletes
  refine ⟨fun op c o s u hc hs hg hd hr hm hh hp hn hst => ?_, fun r s h => ?_, fun lane s hl hq ht hs hp hf hseg htp => ?_,
    fun s u hs hp hf hu hs' hp' hf' hd hseg ht => ?_, fun lane s => ?_, fun lane o s u hm hl ho hu => ?_,
    fun o geo lay dir s ht hj ha => ?_, fun slice a b r s u ha hr => applyRecs_append_none ha hr⟩
  · rw [exec_groupStamp, execGroupStamp, groupStamp_stamps hc hs hg hd hr hm hh hp hn hst]
  · obtain ⟨x, hx, he⟩ := enqueue_of_not_mirrors r h
    rw [he, lane_setLane_same]
    exact ⟨hx, fun l hl => lane_setLane_other x s hl⟩
  · have hd : s.laneDue lane = true := by
      unfold State.laneDue
      simp [hq, ht]
    refine lanePageFlush_programs (if_neg ?_) hs hp hf hd hseg htp
    have : lane.val ≠ 31 := fun h => hl (Fin.ext h)
    simp [this]
  · subst hu
    refine lanePageFlush_programs (lane := 31) (if_pos ?_) hs' hp' hf' hd hseg ht
    simp [hs, hp, Option.isSome_iff_ne_none, hf]
  · rfl
  · subst ho hu
    rw [exec_laneHorizonAdvance]
    unfold execLaneHorizonAdvance
    dsimp only
    exact if_neg (by simp [hm, hl])
  · rw [exec_partnerGroupApply, execPartnerGroupApply]
    have hload : (s.mode != .joining || s.cpl.loaded) = true := by
      by_cases h : s.mode = .joining
      · rw [hj h, Bool.or_true]
      · simp [h]
    exact if_pos (by rw [ht, hload, ha]; rfl)

end Sys2Proof.Proofs
end

section
/-! Ports and O16 (R136 to R140, R166). -/
namespace Sys2Proof.Proofs
open Sys2Proof Sys2Proof.Machine Sys2Proof.Laws

theorem aget_aupd_same {β : Type} (m : AMap β) (k : Nat) (f : β → β) : aget (aupd m k f) k = (aget m k).map f := by
  induction m with
  | nil => rfl
  | cons e t ih =>
    obtain ⟨a, v⟩ := e
    rw [aupd] at ih
    by_cases h : a = k <;> simp [aupd, aget, h, ih]

theorem aget_aupd_other {β : Type} (m : AMap β) {k j : Nat} (f : β → β) (h : j ≠ k) : aget (aupd m k f) j = aget m j := by
  induction m with
  | nil => rfl
  | cons e t ih =>
    obtain ⟨a, v⟩ := e
    rw [aupd] at ih
    by_cases hk : a = k
    · have : k ≠ j := fun e => h e.symm
      simp [aupd, aget, hk, ih, this]
    · simp [aupd, aget, hk, ih]

theorem updConn_conn {q : Nat} {c : Conn} {s : State} (f : Conn → Conn) (h : aget s.io.conns q = some c) :
    aget (s.updConn q f).io.conns q = some (f c) := by
  rw [State.updConn, aget_aupd_same, h]
  rfl

theorem foldl_emit (l : List (Nat × Out)) (s : State) : l.foldl (fun s e => s.emit e.2) s = { s with out := s.out ++ l.map Prod.snd } := by
  induction l generalizing s with
  | nil => simp
  | cons e l ih => rw [List.foldl_cons, ih, State.emit, List.map_cons, List.append_assoc]; rfl

/-- A held message may go: its queue's priority is not paused. -/
def mayGo (s : State) (e : Nat × Out) : Bool := !bit (s.pausedAt e.1) (Config.connPrio e.1 % 8)

/-- Resuming a host's port sends what may go, in order, and holds the rest. -/
theorem hostResume_eq (s : State) : s.hostResume =
    { s with io := { s.io with held := s.io.held.filter (fun e => !mayGo s e) }
             out := s.out ++ (s.io.held.filter (mayGo s)).map Prod.snd } :=
  foldl_emit _ _

theorem bit_eq_testBit (n i : Nat) : bit n i = n.testBit i := Nat.testBit_eq_decide_div_mod_eq.symm

theorem sumL_pow_lt (g : Nat → Bool) (n : Nat) : sumL ((List.range n).map (fun j => if g j then 2 ^ j else 0)) < 2 ^ n := by
  induction n with
  | zero => simp [sumL]
  | succ n ih =>
    rw [List.range_succ, List.map_append, sumL_append, Nat.pow_succ]
    simp only [List.map_cons, List.map_nil, sumL]
    split <;> omega

/-- A sum of distinct powers of two, bit by bit. -/
theorem bit_sumL_pow (g : Nat → Bool) (n i : Nat) :
    bit (sumL ((List.range n).map (fun j => if g j then 2 ^ j else 0))) i = (decide (i < n) && g i) := by
  rw [bit_eq_testBit]
  induction n with
  | zero => simp [sumL]
  | succ n ih =>
    have hlt := sumL_pow_lt g n
    rw [List.range_succ, List.map_append, sumL_append]
    simp only [List.map_cons, List.map_nil, sumL, Nat.add_zero]
    rcases Nat.lt_trichotomy i n with h | rfl | h
    · have hsame : (sumL ((List.range n).map fun j => if g j then 2 ^ j else 0) + if g n then 2 ^ n else 0).testBit i
          = (sumL ((List.range n).map fun j => if g j then 2 ^ j else 0)).testBit i := by
        split
        · rw [Nat.add_comm, Nat.testBit_two_pow_add_gt h]
        · rw [Nat.add_zero]
      rw [hsame, ih, decide_eq_true h, decide_eq_true (Nat.lt_succ_of_lt h)]
    · rw [decide_eq_true (Nat.lt_succ_self i), Bool.true_and]
      cases hg : g i with
      | true => rw [if_pos rfl, Nat.add_comm, Nat.testBit_two_pow_add_eq, Nat.testBit_lt_two_pow hlt]; rfl
      | false => rw [if_neg Bool.false_ne_true, Nat.add_zero, Nat.testBit_lt_two_pow hlt]
    · have hsum : (sumL ((List.range n).map fun j => if g j then 2 ^ j else 0) + if g n then 2 ^ n else 0) < 2 ^ i :=
        Nat.lt_of_lt_of_le (by rw [Nat.pow_succ]; split <;> omega) (Nat.pow_le_pow_right (by decide) (Nat.succ_le_of_lt h) : 2 ^ (n + 1) ≤ 2 ^ i)
      rw [Nat.testBit_lt_two_pow hsum, decide_eq_false (by omega)]
      rfl

/-! ## The pause of priorities -/

/-- The priorities of a port that are paused after a pause frame (R140). -/
def pausedAfter (m old : Nat) (classes pause : BitVec 8) : Nat :=
  sumL ((List.range 8).map (fun i =>
    if bit m i && classes.getLsbD i then (if pause.getLsbD i then 2 ^ i else 0) else (if bit old i then 2 ^ i else 0)))

theorem bit_pausedAfter (m old : Nat) (classes pause : BitVec 8) {i : Nat} (hi : i < 8) :
    bit (pausedAfter m old classes pause) i = (if bit m i && classes.getLsbD i then pause.getLsbD i else bit old i) := by
  have hfun : (fun i => if bit m i && classes.getLsbD i then (if pause.getLsbD i then 2 ^ i else 0) else (if bit old i then 2 ^ i else 0))
      = fun i => if (if bit m i && classes.getLsbD i then pause.getLsbD i else bit old i) then 2 ^ i else 0 := by
    funext i
    cases bit m i && classes.getLsbD i <;> rfl
  rw [pausedAfter, hfun, bit_sumL_pow (fun i => if bit m i && classes.getLsbD i then pause.getLsbD i else bit old i), decide_eq_true hi,
    Bool.true_and]

/-- The state with a port's paused priorities set, before what they held is sent. -/
def setPaused (s : State) (l n : Nat) : State :=
  { s with io := { s.io with paused := if n = 0 then adel s.io.paused l else aset s.io.paused l n } }

theorem setPaused_same (s : State) (l n : Nat) : agetD (setPaused s l n).io.paused l 0 = n := by
  by_cases h : n = 0 <;> simp [setPaused, h, agetD, aget_adel_same, aget_aset_same]

theorem setPaused_other (s : State) {l k : Nat} (n : Nat) (h : k ≠ l) : aget (setPaused s l n).io.paused k = aget s.io.paused k := by
  by_cases hn : n = 0 <;> simp [setPaused, hn, aget_adel_other, aget_aset_other, h]

/-- A pause frame acts on the priorities of PFC_MASK that it names, and what a pause no longer holds is sent. -/
theorem priorityFlowControl_pauses {lp : Fin 64} {classes pause : BitVec 8} {s : State}
    (he : s.flag (R.HFX.PORT_CFG.PFC_EN (lp.val / 16) (lp.val / 4 % 4)) = true) (hu : s.lportUp lp = true) :
    exec (.priorityFlowControl lp classes pause) s = .next (setPaused s lp
      (pausedAfter (s.rf (R.HFX.PORT_CFG.PFC_MASK (lp.val / 16) (lp.val / 4 % 4))) (agetD s.io.paused lp 0) classes pause)).hostResume := by
  have hp : lp.val / 4 / 4 = lp.val / 16 := by omega
  rw [exec_priorityFlowControl]
  unfold execPriorityFlowControl
  simp only [portH, portN, hp]
  rw [if_pos (by rw [he, hu]; rfl)]
  rfl

/-! ## The port's mode -/

/-- The state after a write of PORT_CFG has set its other fields. -/
def portFields (s : State) (p v : Nat) : State :=
  (((s.wf (R.HFX.PORT_CFG.AN (portH p) (portN p)) (fld v 2 1)).wf (R.HFX.PORT_CFG.PFC_EN (portH p) (portN p)) (fld v 3 1)).wf
    (R.HFX.PORT_CFG.PFC_MASK (portH p) (portN p)) (fld v 4 8)).wf (R.HFX.PORT_CFG.MTU (portH p) (portN p)) (fld v 16 14)

/-- The port with every logical port of it down. -/
def portDown (s : State) (p : Nat) : State :=
  (List.range 4).foldl (fun s k => if s.lportUp (4 * p + k) then s.dropLport (4 * p + k) else s) s

theorem portCfgWrite_eq (s : State) (p v : Nat) : s.portCfgWrite p v =
    if fld v 0 2 = s.portMode p then portFields s p v
    else if s.portMode p ≠ 3 ∧ fld v 0 2 ≠ 3 then (portFields s p v).raise (6 + portH p) 0
    else (portDown (portFields s p v) p).wf (R.HFX.PORT_CFG.MODE (portH p) (portN p)) (fld v 0 2) := rfl

theorem portFields_io (s : State) (p v : Nat) : (portFields s p v).io = s.io := by
  simp only [portFields, wf_io]

theorem portFields_regsWf {s : State} (p v : Nat) (h : s.regsWf = true) : (portFields s p v).regsWf = true :=
  regs_wf _ _ _ (regs_wf _ _ _ (regs_wf _ _ _ (regs_wf _ _ _ h)))

/-- A field of other bits of the same words is unchanged. -/
theorem rf_wf_beside {s : State} {f g : Fld} (v : Nat) (h : s.regsWf = true) (ha : f.addr = g.addr) (hk : wordsOf f = wordsOf g)
    (hb : g.lo + g.w ≤ f.lo ∨ f.lo + f.w ≤ g.lo) : (s.wf f v).rf g = s.rf g := by
  refine rf_wf_apart s f g v h ?_
  simp only [apart, Bool.or_eq_true, Bool.and_eq_true, decide_eq_true_eq]
  exact .inr ⟨⟨ha, hk⟩, hb⟩

theorem portFields_mode {s : State} (p v : Nat) (h : s.regsWf = true) : (portFields s p v).portMode p = s.portMode p := by
  have hlo (f : Fld) (n : Nat) (u : State) (hu : u.regsWf = true) (ha : f.addr = (R.HFX.PORT_CFG.MODE (portH p) (portN p)).addr)
      (hk : f.lo + f.w ≤ 32) (hb : 2 ≤ f.lo) : (u.wf f n).portMode p = u.portMode p := by
    have hw : wordsOf f = wordsOf (R.HFX.PORT_CFG.MODE (portH p) (portN p)) := by
      simp only [wordsOf, R.HFX.PORT_CFG.MODE]
      omega
    exact rf_wf_beside n hu ha hw (.inl hb)
  unfold portFields
  rw [hlo (R.HFX.PORT_CFG.MTU _ _) _ _ (regs_wf _ _ _ (regs_wf _ _ _ (regs_wf _ _ _ h))) rfl (by decide : 16 + 14 ≤ 32) (by decide : 2 ≤ 16),
    hlo (R.HFX.PORT_CFG.PFC_MASK _ _) _ _ (regs_wf _ _ _ (regs_wf _ _ _ h)) rfl (by decide : 4 + 8 ≤ 32) (by decide : 2 ≤ 4),
    hlo (R.HFX.PORT_CFG.PFC_EN _ _) _ _ (regs_wf _ _ _ h) rfl (by decide : 3 + 1 ≤ 32) (by decide : 2 ≤ 3),
    hlo (R.HFX.PORT_CFG.AN _ _) _ _ h rfl (by decide : 2 + 1 ≤ 32) (by decide : 2 ≤ 2)]

/-- That the registers are in canonical form is kept by what a head does at rest. -/
theorem regsWf_steady : Steady (fun c => swf resetWord c.regs = true) where
  regs {s} a v h := regs_setWord s a v h
  mem _ _ h := h
  bsv _ _ h := h
  mode := .inl fun _ _ _ h => h

theorem portDown_regsWf {s : State} (p : Nat) (h : s.regsWf = true) : (portDown s p).regsWf = true :=
  have hr : State.Rest (fun c => swf resetWord c.regs = true) (portDown s p) :=
    .foldl (fun _ _ h' => .ite (.dropLport h') h') ⟨regsWf_steady, h⟩
  hr.2

theorem portMode_portCfgWrite {s : State} {p v : Nat} (h : s.regsWf = true)
    (hm : s.portMode p = fld v 0 2 ∨ s.portMode p = 3 ∨ fld v 0 2 = 3) : (s.portCfgWrite p v).portMode p = fld v 0 2 := by
  have hlt : fld v 0 2 < 2 ^ 2 := Nat.mod_lt _ (by decide)
  rw [portCfgWrite_eq]
  split
  · rename_i he
    rw [portFields_mode p v h, he]
  · rename_i he
    rw [if_neg (by rcases hm with h1 | h1 | h1 <;> simp [h1] at he ⊢)]
    exact (rf_wf_same _ _ _ (portDown_regsWf p (portFields_regsWf p v h))).trans (Nat.mod_eq_of_lt hlt)

/-- Settles O16: PORT_CFG's fields and mode, link, congestion, pauses and counters act as Tables 4-2 and R136 to R140 give. -/
theorem portsComplete : Obligations.PortsComplete := by
  unfold Obligations.PortsComplete
  refine ⟨fun port v s hr => ⟨rfl, portMode_portCfgWrite hr, fun hne h3 hv => ?_⟩, fun port k s hin hf hm hl => ?_, fun port k s => rfl,
    fun q c s hc hx => ⟨fun hat => ?_, ⟨_, rfl, ?_, rfl, rfl⟩, fun hrate hgain => ⟨_, rfl, rfl, rfl, ?_⟩⟩, fun lp classes pause s he hu => ?_,
    fun s => rfl⟩
  · refine ⟨portFields s port v.toNat, portFields_mode _ _ hr, portFields_io s _ _, ?_⟩
    rw [portCfgWrite_eq, if_neg (Ne.symm hne), if_pos ⟨h3, hv⟩]
    rfl
  · rw [exec_portLinkUp]
    unfold execPortLinkUp
    simp only [List.mem_cons, List.not_mem_nil, or_false, not_or] at hm
    obtain ⟨hb, hv, hs⟩ := hm
    have hall : (lportLanes (s.portMode port) k).all
        (fun j => !bit (s.rf (R.HFX.PORT_STAT.FENCED (portH port) (portN port))) j) = true := by
      rw [List.all_eq_true]
      exact fun j hj => by rw [hl j hj]; rfl
    exact if_pos (by simp only [hin, hf, hall, bne_iff_ne.mpr hb, bne_iff_ne.mpr hv, bne_iff_ne.mpr hs]; decide)
  · simp only [exec_ecnMarkedPacket, execEcnMarkedPacket, hc]
    refine if_pos ?_
    cases hcnp : c.cnpAt with
    | none => simp [hx]
    | some t => simp [hx, hat t hcnp]
  · rw [updConn_conn _ hc]
    simp [hx]
  · rw [updConn_conn _ hc]
    simp [hx, hrate, hgain]
  · refine ⟨_, priorityFlowControl_pauses he hu, ?_⟩
    rw [hostResume_eq]
    refine ⟨rfl, fun h => ?_, fun e h => ?_, fun l h => setPaused_other s _ h, fun i hi => ?_⟩
    · simp [setPaused, h]
    · obtain ⟨-, hgo⟩ := List.mem_filter.mp h
      exact (Bool.not_not _).symm.trans hgo
    · simp only [setPaused_same, bit_pausedAfter _ _ _ _ hi]

end Sys2Proof.Proofs
end

section
/-! What the boot sequence from the ceiling log on leaves alone: the commands and the modules' bridges (R92, R621, R659). -/
namespace Sys2Proof.Proofs
open Sys2Proof Sys2Proof.Machine Sys2Proof.Laws

/-- A head in BOOT that serves nothing, with its modules' bridges b. -/
def Booting (b : AMap Bridge) (s : State) : Prop := s.mode = .boot ∧ s.io.cmds = [] ∧ s.bridges = b

namespace Booting
variable {b : AMap Bridge} {s : State}

theorem foldl {α : Type} {f : State → α → State} {l : List α} (hf : ∀ t a, Booting b t → Booting b (f t a)) (h : Booting b s) :
    Booting b (l.foldl f s) := FaultKept.foldl hf h

theorem wf {f : Fld} {v : Nat} (h : Booting b s) : Booting b (s.wf f v) := by
  simpa only [Booting, State.mode, wf_bsv, wf_io, wf_bridges] using h

theorem evrEvent {t u d : Nat} (h : Booting b s) : Booting b (s.evrEvent t u d) := by
  obtain ⟨hm, hc, hb⟩ := h
  have hs := evrEvent_serveState s t u d
  exact ⟨(congrArg (fun x : Serving => x.1.mode) hs).trans hm, (congrArg (fun x : Serving => x.2.1.cmds) hs).trans hc,
    (evrEvent_bridges s t u d).trans hb⟩

theorem raise {p c : Nat} (h : Booting b s) : Booting b (s.raise p c) := by
  obtain ⟨hm, hc, hb⟩ := h
  have hi : Idle s := by rw [Idle, hm]; decide
  have hs := idleState_raise hi p c
  exact ⟨(congrArg (fun x : Serving => x.1.mode) hs).trans hm, (congrArg (fun x : Serving => x.2.1.cmds) hs).trans hc,
    (raise_bridges s p c).trans hb⟩

theorem event {p : Nat} (h : Booting b s) : Booting b (s.event p) := by
  obtain ⟨hm, hc, hb⟩ := h
  have hi : Idle s := by rw [Idle, hm]; decide
  have hs := idleState_event hi p
  exact ⟨(congrArg (fun x : Serving => x.1.mode) hs).trans hm, (congrArg (fun x : Serving => x.2.1.cmds) hs).trans hc,
    (event_bridges s p).trans hb⟩

theorem bootSteps (h : Booting b s) : Booting b s.hbmFences.hbmRegions.secBoot.evrBoot := by
  obtain ⟨hm, hc, hb⟩ := h
  have hs := serveState_bootSteps s
  have hbr := bridges_bootSteps s
  generalize s.hbmFences.hbmRegions.secBoot.evrBoot = t at hs hbr ⊢
  exact ⟨(congrArg (fun x : Serving => x.1.mode) hs).trans hm, (congrArg (fun x : Serving => x.2.1.cmds) hs).trans hc, hbr.trans hb⟩

theorem cabPut {r : CabRec} (h : Booting b s) : Booting b (s.cabPut r) := by
  unfold State.cabPut
  refine wf ?_
  split
  · exact of_ite h h
  · exact h

theorem cabOwn {r : CabRec} (h : Booting b s) : Booting b (s.cabOwn r) := .cabPut h

theorem cabPurge {p : CabRec → Bool} (h : Booting b s) : Booting b (s.cabPurge p) := .foldl (fun _ _ h => .cabOwn h) h

theorem putBootRec {r : BootRec} (h : Booting b s) : Booting b (s.putBootRec r) := .wf (.cabOwn h)

theorem armSlot {slot n : Nat} (h : Booting b s) : Booting b (s.armSlot slot n) := .putBootRec h

theorem checkAt {slot : Nat} {bad : List Nat} (h : Booting b s) : Booting b (s.checkAt slot bad).2 :=
  have h1 : Booting b (if slot = 0 then s.wf R.BSV.BOOT_STAT.CHECK_A (s.checkSlot slot (bad.contains slot))
      else s.wf R.BSV.BOOT_STAT.CHECK_B (s.checkSlot slot (bad.contains slot))) := of_ite (.wf h) (.wf h)
  of_ite h1 h1.raise

theorem loadImage {slot : Nat} {trial : Bool} (h : Booting b s) : Booting b (s.loadImage slot trial) := by
  unfold State.loadImage
  extract_lets hd m r s1 _ s2
  have h1 : Booting b s1 := .foldl (fun _ _ h => h) h
  clear_value s1
  exact .wf (.wf (.wf (.wf (.wf h1))))

theorem confirmTrial {slot : Nat} (h : Booting b s) : Booting b (s.confirmTrial slot) :=
  .putBootRec (.cabPurge (.putBootRec h))

theorem fallbackPurge (h : Booting b s) : Booting b s.fallbackPurge := .putBootRec (.cabPurge h)

theorem fallBack (h : Booting b s) : Booting b s.fallBack := .evrEvent (.raise (.wf (.fallbackPurge (.putBootRec h))))

/-- A check of a slot that may have been made before. -/
theorem checked {slot : Nat} {bad : List Nat} {p : Nat × State} {c : Prop} [Decidable c] (h : Booting b s) (hp : p.2 = s) :
    Booting b (if c then p else s.checkAt slot bad).2 :=
  of_ite (P := fun q : Nat × State => Booting b q.2) (hp ▸ h) (.checkAt h)

theorem chooseConfirmed {startS : Nat} {bad : List Nat} (h : Booting b s) : Booting b (s.chooseConfirmed startS bad) :=
  of_ite (.loadImage (.checked h rfl)) (of_ite (.loadImage (.putBootRec (.armSlot (.checkAt (.checked h rfl))))) (.checkAt (.checked h rfl)))

theorem slotChoice {startS : Nat} {bad : List Nat} (h : Booting b s) : Booting b (s.slotChoice startS bad) := by
  unfold State.slotChoice
  extract_lets r0 s1 s2 _ s3 r first s4 s5
  have hretry (o : Option (Nat × State)) (u : State) (hu : Booting b u) :
      Booting b (match o with | some x => (x.1, u) | none => u.checkAt r.trial bad).2 := by
    cases o with
    | some x => exact hu
    | none => exact .checkAt hu
  have h1 : Booting b s1 := of_ite (.fallbackPurge h) h
  clear_value s1
  have h3 : Booting b s3 := of_ite (.putBootRec (.cabPurge h1)) h1
  clear_value s3
  have h4 : Booting b s4 := by
    have hfirst : ∀ x, first = some x → Booting b x.2 := of_ite (P := fun o => ∀ x : Nat × State, o = some x → Booting b x.2)
      (fun x hx => by cases hx; exact .checkAt h3) (fun x hx => nomatch hx)
    cases hf : first with
    | none =>
      simp only [s4]
      rw [hf]
      exact h3
    | some x =>
      simp only [s4]
      rw [hf]
      exact hfirst x hf
  clear_value s4
  have h5 : Booting b s5 := .putBootRec h4
  clear_value s5
  exact of_ite (.chooseConfirmed (.putBootRec h3)) (of_ite (.loadImage (.confirmTrial h4)) (of_ite (.chooseConfirmed (.fallBack h4))
    (of_ite (.loadImage (hretry _ _ h5)) (.chooseConfirmed (.fallBack (hretry _ _ h5))))))

theorem svcAddress (h : Booting b s) : Booting b s.svcAddress := by
  unfold State.svcAddress
  split
  · exact .wf (.wf h)
  · exact .wf h

end Booting

/-- The boot sequence ends in BOOT with the image loaded or in SERVICE, and serves nothing. -/
theorem bootGo_boots {b : AMap Bridge} {s : State} (bad : List Nat) (h : Booting b s) :
    (s.bootGo bad).mode ∈ [Sys2Proof.Mode.boot, .service] ∧ (s.bootGo bad).io.cmds = [] ∧ (s.bootGo bad).bridges = b := by
  unfold State.bootGo
  extract_lets c utc ceil low rtc start _ _ s1 s2 s3 s4 _ s5
  obtain ⟨hmode, hcmds, hbridges⟩ := h
  have h1 : Booting b s1 := ⟨hmode, hcmds, hbridges⟩
  clear_value s1
  have h2 : Booting b s2 := h1.wf
  clear_value s2
  have h5 : Booting b s5 := .evrEvent (.slotChoice (.svcAddress h2))
  clear_value s5
  obtain ⟨hm, hc, hb⟩ := h5
  split
  · exact ⟨by rw [hm]; decide, hc, hb⟩
  · have he : (s5.enter .service 0x09).bsv = changedBsv s5 .service 0x09 := enter_bsv (by decide) _ _
    refine ⟨?_, ?_, (enter_bridges _ _ _).trans hb⟩
    · rw [show (s5.enter .service 0x09).mode = .service from congrArg Bsv.mode he]
      decide
    · rw [enter_io (by decide)]
      exact hc

end Sys2Proof.Proofs
end

section
/-! Takeover, the drain's end and VAULT, and O7 (R64 to R66, R73 to R80, R659, R700). -/
namespace Sys2Proof.Proofs
open Sys2Proof Sys2Proof.Machine Sys2Proof.Laws

/-! ## The end of a HANDOVER -/

/-- A head that left through HANDOVER: ISOLATED with CAUSE 0x0B and READY_REMOVE_N low (R73). -/
def LeftByHandover (c : RestPart) : Prop := c.bsv.mode = .isolated ∧ c.bsv.cause = 0x0B ∧ c.pins.readyRemoveN = false

theorem leftByHandover_steady : Steady LeftByHandover where
  regs _ _ h := h
  mem _ _ h := h
  bsv hm hc h := ⟨hm.trans h.1, hc.trans h.2.1, h.2.2⟩
  mode := .inr fun c h => by
    rw [h.1]
    decide

/-! ## VAULT -/

theorem foldl_id {α : Type} {f : State → α → State} {s : State} (l : List α) (h : ∀ a ∈ l, f s a = s) : l.foldl f s = s := by
  induction l with
  | nil => rfl
  | cons a l ih => rw [List.foldl_cons, h a (.head l), ih fun b hb => h b (.tail a hb)]

/-- Every segment of the vault waits for no unit and lacks at most two. -/
theorem vaultWritten_iff (s : State) : s.vaultWritten = true ↔ ∀ v ∈ s.sgb.vault, v.wait.isEmpty = true ∧ v.absent.length ≤ 2 := by
  simp only [State.vaultWritten, List.all_eq_true, Bool.and_eq_true, decide_eq_true_eq]

/-- Once every segment is written, none is issued again. -/
theorem vaultPump_of_written {s : State} (h : s.vaultWritten = true) : s.vaultPump = s :=
  of_ite (P := fun t => t = s) (foldl_id _ fun v hv => if_pos ((vaultWritten_iff s).mp h v hv).1) rfl

theorem vaultAgain_of_written {s : State} (h : s.vaultWritten = true) : s.sgb.vault.foldl State.vaultAgain s = s :=
  foldl_id _ fun v hv => if_pos ((vaultWritten_iff s).mp h v hv).2

theorem vaultCheck_of_written {s : State} (h : s.vaultWritten = true) : s.vaultCheck =
    if s.mode ≠ .vault ∨ s.bsv.vaultDone = true then s
    else if s.sgb.sealing.isSome && s.vaultWritten && decide (s.now < s.bsv.vaultAt + oneS) then
      { s.ddcPower 2 with bsv := { s.bsv with vaultDone := true, silent := true }, sgb := { s.sgb with sealing := none } }
    else s := by
  rw [State.vaultCheck, vaultAgain_of_written h]
  rfl

/-- Settles O7: partner loss, quorum, the drain's end and VAULT act as R64 to R80 give. -/
theorem takeoverAndVaultComplete : Obligations.TakeoverAndVaultComplete := by
  refine ⟨⟨fun s hm hh hw hl => ?_, fun r s hl hq hm => ?_, fun t0 s hl ht hq hm => ?_, fun s hm hd hc hf ha => ?_⟩,
    fun lowNs s hlow hp hs => ?_, fun lowNs s hlow hp hs => ?_, fun s hp => ?_, fun s hm hd hst hse hw ht => ?_, fun seg s hm hd hse hw ht => ?_,
    fun s hm hd hor => ?_, fun bad s hm hd hf => ?_⟩
  · simp [exec_partnerLoss, execPartnerLoss, hm, hh, hw, hl]
  · simp [exec_quorumReached, execQuorumReached, hm, hl, hq]
  · have hstop := stopServing_stopped (s.enter .isolated 0x0D) true
    have hb := enter_bsv (m := .isolated) (by decide) s 0x0D
    have hlate : ¬ (s.now < t0 + 40000000 ∨ s.quorum = true) := by
      simp [hq, ht]
    rw [exec_quorumTimeout, execQuorumTimeout, hl]
    dsimp only
    rw [if_neg hlate, if_pos hm]
    refine ⟨_, rfl, ?_, ?_, hstop.cmds, hstop.wc, congrArg Bsv.mapsLoaded hstop.bsv⟩
    · exact (congrArg Bsv.mode hstop.bsv).trans (congrArg Bsv.mode hb)
    · exact (congrArg Bsv.cause hstop.bsv).trans (congrArg Bsv.cause hb)
  · have hb := enter_bsv (m := .isolated) (by decide) s 0x0B
    have hleft : State.Rest LeftByHandover { s.enter .isolated 0x0B with
        bsv := { (s.enter .isolated 0x0B).bsv with silent := true }, pins := { (s.enter .isolated 0x0B).pins with readyRemoveN := false } } :=
      ⟨leftByHandover_steady, congrArg Bsv.mode hb, congrArg Bsv.cause hb, rfl⟩
    have hend := (State.Rest.settle (.foldl (l := List.range 64) (fun s l h => .iteOf (c := s.lportUp l = true) h fun h => .dropLport (l := l) h)
      (.stopServing (answer := true) hleft))).2
    rw [exec_handoverDrainComplete, execHandoverDrainComplete, if_neg (not_not.mpr hm), hd, hc, hf, ha]
    exact ⟨_, rfl, hend⟩
  · have hgo : ¬ (lowNs < 500 ∨ s.pins.pwrFailN = false) := by
      rw [hp]
      simp [hlow]
    rw [exec_pwrFailFall, execPwrFailFall, if_neg hgo]
    dsimp only
    rw [if_pos hs]
  · have hgo : ¬ (lowNs < 500 ∨ s.pins.pwrFailN = false) := by
      rw [hp]
      simp [hlow]
    rw [exec_pwrFailFall, execPwrFailFall, if_neg hgo]
    dsimp only
    rw [if_neg (by rw [hs]; decide)]
    exact ⟨_, rfl, rfl, rfl, rfl, rfl, rfl, rfl⟩
  · rw [exec_pwrFailRise, execPwrFailRise, if_neg (by rw [hp]; decide)]
  · have hcheck : s.vaultCheck = s := by
      rw [vaultCheck_of_written hw, hse]
      exact of_ite (P := fun t => t = s) rfl (if_neg Bool.false_ne_true)
    rw [exec_gondolaSeal, execGondolaSeal, if_pos ⟨hm, hd, hst, by rw [hse]; rfl, ht⟩, vaultPump_of_written hw, hcheck]
    exact congrArg _ (if_pos hw)
  · have hmode : ¬ (s.mode ≠ .vault ∨ s.bsv.vaultDone = true) := by
      rw [hm, hd]
      decide
    rw [vaultCheck_of_written hw, if_neg hmode, if_pos (by rw [hse, hw, decide_eq_true ht]; rfl)]
    exact ⟨rfl, rfl, rfl⟩
  · rw [exec_gondolaAbandon, execGondolaAbandon, if_pos ⟨hm, hd, hor⟩]
  · rw [exec_vaultExit, execVaultExit, if_pos ⟨hm, hd, hf⟩]
    extract_lets at_ s1 _ s2 _ _ s3
    have hr : ResetTo s s1 := resetTo_reset s
    have h1 : Booting s.bridges s1 := ⟨hr.mode, hr.cmds, hr.bridges⟩
    clear_value s1
    have h2 : Booting s.bridges s2 := .event (.wf ⟨h1.1, h1.2.1, h1.2.2⟩)
    clear_value s2
    have h3 : Booting s.bridges s3 := ⟨h2.1, h2.2.1, h2.2.2⟩
    exact ⟨_, rfl, bootGo_boots bad (.bootSteps (.wf h3))⟩

end Sys2Proof.Proofs
end

section
/-! Pins and power, and O9 (R49, R94, R693, R697, R707 to R709). -/
namespace Sys2Proof.Proofs
open Sys2Proof Sys2Proof.Machine Sys2Proof.Laws

theorem resetTo_regsWf (s : State) : s.resetTo.regsWf = true := by
  unfold State.resetTo
  extract_lets was pcp last t0 _ t1 t2
  have h1 : t1.Rest (fun c => swf resetWord c.regs = true) := ⟨regsWf_steady, rfl⟩
  clear_value t1
  exact (State.Rest.evrEvent (.wf (.wf (.wf h1)))).2

/-- REFCLK_PCIE is absent. -/
def NoPcieClock (c : RestPart) : Prop := c.pins.refclkPcie = false

theorem noPcieClock_steady : Steady NoPcieClock where
  regs _ _ h := h
  mem _ _ h := h
  bsv _ _ h := h
  mode := .inl fun _ _ _ h => h

/-- Settles O9: each pin's edge and each loss of power acts as R693 to R709 give. -/
theorem pinsAndPowerComplete : Obligations.PinsAndPowerComplete := by
  refine ⟨⟨fun s hp hs => ?_, fun s hp hs => ?_, fun s hp => ?_, fun s hp hr hl => ?_, fun s hm hf hpp => ?_, fun s hor => ?_⟩,
    fun s hw hr hp ht => ?_, fun s hr => ?_, fun s => rfl, fun s => ?_⟩
  · rw [exec_prsntRise, execPrsntRise, if_neg (by rw [hp]; decide)]
    dsimp only
    rw [if_pos hs]
  · rw [exec_prsntRise, execPrsntRise, if_neg (by rw [hp]; decide)]
    dsimp only
    rw [if_neg (by rw [hs]; decide)]
  · rw [exec_prsntFall, execPrsntFall, if_pos hp]
  · rw [exec_laneEnable, execLaneEnable, if_pos (by rw [hp, hr, decide_eq_true hl]; rfl)]
  · rw [exec_ejectReq, execEjectReq]
    exact if_pos ⟨hm, hf, hpp⟩
  · rw [exec_ejectReq, execEjectReq]
    refine if_neg fun h => ?_
    obtain ⟨hm, hf, hpp⟩ := h
    rcases hor with h | h | h
    · exact h hm
    · exact Bool.false_ne_true (h.symm.trans hf)
    · exact Bool.false_ne_true (h.symm.trans hpp)
  · have hreset := resetTo_reset s
    have hlow : ¬ ((!s.pins.railsGood) = true ∨ (!(!s.pins.resetN && decide (s.pins.resetFallAt + 10000 ≤ s.now)
        || !s.pins.pwrFailN && decide (s.pins.pwrFallAt + 1200000000 ≤ s.now))) = true) := by
      rw [hr, hp, decide_eq_true ht]
      simp
    rw [exec_powerDown, execPowerDown]
    dsimp only
    rw [if_neg hlow]
    have hregs := resetTo_regsWf s
    generalize s.resetTo = t at hreset hregs ⊢
    refine ⟨_, rfl, rfl, rfl, ?_, (rf_wf_same t R.HBC.PC_PENDING.PC 0 hregs).trans (Nat.zero_mod _), ?_, ?_⟩
    · exact (congrArg Bsv.mode (wf_bsv _ _ _)).trans hreset.mode
    · exact (wf_fuses _ _ _).trans hreset.fuses
    · exact (wf_flash _ _ _).trans hreset.flash
  · rw [exec_vbatLoss, execVbatLoss, if_neg (by rw [hr]; decide)]
  · have hsettle (u : State) (h : u.Rest NoPcieClock) : u.settle.pins.refclkPcie = false := h.settle.2
    exact ⟨_, rfl, hsettle _ (.same rfl (.foldl (fun _ _ h => .endConn h) ⟨noPcieClock_steady, rfl⟩))⟩

end Sys2Proof.Proofs
end

section
/-! Transport connections, and O17 (R141, R142, R161, R164). -/
namespace Sys2Proof.Proofs
open Sys2Proof Sys2Proof.Machine Sys2Proof.Laws

theorem ahas_of_some {β : Type} {m : AMap β} {k : Nat} {v : β} (h : aget m k = some v) : ahas m k = true := by rw [ahas, h]; rfl

theorem ahas_of_none {β : Type} {m : AMap β} {k : Nat} (h : aget m k = none) : ahas m k = false := by rw [ahas, h]; rfl

/-- A digest asked for by XPORT_CFG and given. -/
theorem digest_given {b d : Bool} (h : b = true → d = true) : (b && !d) = false := by
  cases b with
  | false => rfl
  | true => rw [h rfl]; rfl

/-- Settles O17: connections are made, refused and ended as R141, R142, R161 and R164 give. -/
theorem connectionsComplete : Obligations.ConnectionsComplete := by
  refine ⟨fun q lp port hd dd s ht hu hn hp hh hdd => ?_, fun q c lp mal d1 d2 s hc => ?_, fun q lp rc s hr hu hn => ?_, fun q s => rfl,
    fun id k s hk h0 ht => ⟨?_, rfl⟩, fun q psn k s hk hx hps => ?_, fun q cid off d err op c s hf => ?_,
    fun q ttag off d last s k r x c hk hx hd hr hg hc hn hf hl hfull => ?_⟩
  · have hport : (decide (port.val = s.rf R.NVT.DISC_PORT.PORT) || decide (port.val = s.rf R.NVT.TCP_PORT.PORT)) = true := by
      rcases hp with h | h <;> simp [h]
    have hopen : (!s.flag R.NVT.XPORT_CFG.TCP_EN || !s.lportUp lp.val
        || !(decide (port.val = s.rf R.NVT.DISC_PORT.PORT) || decide (port.val = s.rf R.NVT.TCP_PORT.PORT))) = false := by
      rw [ht, hu, hport]
      rfl
    rw [exec_icreq]
    unfold execIcreq
    dsimp only
    rw [if_neg (by rw [hopen]; decide), if_neg (by rw [ahas_of_none hn]; decide)]
    refine ⟨_, if_neg ?_, rfl, rfl, aget_aset_same _ _ _⟩
    change ¬ ((s.flag R.NVT.XPORT_CFG.HDGST_REQ && !hd || s.flag R.NVT.XPORT_CFG.DDGST_REQ && !dd) = true)
    rw [digest_given hh, digest_given hdd]
    decide
  · rw [exec_invalidPdu, execInvalidPdu]
    dsimp only
    rw [if_pos (ahas_of_some hc)]
    cases mal <;> rfl
  · have hopen : (!s.flag R.NVT.XPORT_CFG.ROCE_EN || !s.lportUp lp.val || ahas s.io.conns q) = false := by
      rw [hr, hu, ahas_of_none hn]
      rfl
    rw [exec_rdmaCmConnect, execRdmaCmConnect, if_neg (by rw [hopen]; decide)]
    cases rc with
    | true => exact ⟨_, rfl, rfl, rfl, aget_aset_same _ _ _⟩
    | false => exact ⟨_, rfl, rfl, rfl, hn⟩
  · rw [exec_keepAliveTimeout, execKeepAliveTimeout, hk]
    exact if_pos ⟨h0, ht⟩
  · rw [exec_rocePacketOutOfWindow, execRocePacketOutOfWindow, hk]
    exact if_neg (by simp [hx, hps])
  · rw [exec_rdmaReadResponse, execRdmaReadResponse, hf]
    cases err <;> rfl
  · have hlast : (last && decide (x.got + d.length < x.len)) = false := by
      cases last with
      | false => rfl
      | true => exact absurd (hl rfl) (by omega)
    have howner : ((some r).bind fun r => if r.gen = ttag / 4096 then (aget s.io.cmds r.op).map (fun c => (r, c)) else none) = some (r, c) := by
      simp [hg, hc]
    have hpart : decide (x.len ≤ x.got + d.length) = false := decide_eq_false (by omega)
    rw [exec_h2cData, execH2cData]
    unfold State.h2cData
    rw [hk]
    dsimp only
    rw [if_neg (not_not.mpr hx), if_neg (by decide), if_neg (by omega), hr, howner]
    dsimp only
    rw [if_neg (by omega), hf]
    dsimp only
    rw [if_neg (by rw [hlast]; decide), hpart]
    rfl

end Sys2Proof.Proofs
end

section
/-! Queues of slices, and O18 (R144 to R146, R164, R174 to R176). -/
namespace Sys2Proof.Proofs
open Sys2Proof Sys2Proof.Machine Sys2Proof.Laws

/-- The queue pool with one pair fewer. -/
def tookPair (s : State) : State := s.wf R.NVT.QPOOL_FREE.FREE (s.rf R.NVT.QPOOL_FREE.FREE - 1)

/-- A slice below its queue limit takes a pair of the pool. -/
theorem takePair_takes {s : State} {h : Nat} (hq : s.pairsOf h < sdQueues (s.sliceDesc (h % 4096))) (hf : s.rf R.NVT.QPOOL_FREE.FREE ≠ 0) :
    s.takePair h = (some (tookPair s), s) := by
  rw [State.takePair, if_neg (fun h => absurd h.1 (by omega)), if_neg hf]
  rfl

theorem tookPair_free {s : State} (hw : s.regsWf = true) (hf : s.rf R.NVT.QPOOL_FREE.FREE ≠ 0) :
    (tookPair s).rf R.NVT.QPOOL_FREE.FREE + 1 = s.rf R.NVT.QPOOL_FREE.FREE := by
  have hlt := rf_lt s R.NVT.QPOOL_FREE.FREE
  rw [tookPair, rf_wf_same _ _ _ hw, Nat.mod_eq_of_lt (by omega)]
  omega

theorem tookPair_io (s : State) : (tookPair s).io = s.io := wf_io _ _ _

theorem tookPair_out (s : State) : (tookPair s).out = s.out := wf_out _ _ _

theorem tookPair_head (s : State) : (tookPair s).head = s.head := by simp only [State.head, tookPair, wf_straps]

theorem tookPair_nextCtl (s : State) : (tookPair s).nextCtl = s.nextCtl := by
  simp only [State.nextCtl, tookPair_io, tookPair_head]

/-- A new controller's number is in its range and not in use (R146). -/
theorem nextCtl_spec {s : State} {n : Nat} (h : s.nextCtl = some n) : 1 ≤ n ∧ n ≤ 0x7FEF ∧ ahas s.io.ctls (s.head * 32768 + n) = false := by
  obtain ⟨i, -, hi⟩ := List.exists_of_findSome?_eq_some h
  dsimp only at hi
  split at hi
  · exact absurd hi (by simp)
  · rename_i hfree
    have hn := Option.some.inj hi
    have hlt := Nat.mod_lt (s.io.lastCtl + i) (by decide : 0x7FEF > 0)
    subst hn
    exact ⟨by omega, by omega, Bool.eq_false_iff.mpr hfree⟩

/-- A queue bound to a controller. -/
theorem bound_conn {s : State} {q : Nat} {c : Conn} (f : Conn → Conn) (m : Out) (hc : aget s.io.conns q = some c) :
    aget ((s.updConn q f).emit m).io.conns q = some (f c) := updConn_conn f hc

theorem newCtl_binds {s : State} {q h size kato n : Nat} {hostId : Bytes} (hq : s.pairsOf h < sdQueues (s.sliceDesc (h % 4096)))
    (hf : s.rf R.NVT.QPOOL_FREE.FREE ≠ 0) (hn : s.nextCtl = some n) :
    ∃ ctls, s.newCtl q h size kato hostId = (State.updConn { tookPair s with io := { s.io with ctls := ctls, lastCtl := n } } q
      (fun c => { c with ctl := some (s.head * 32768 + n), qid := 0, size := size, pair := true })).emit (.connectRsp q 0 0 (s.head * 32768 + n) 0) := by
  rw [State.newCtl, takePair_takes hq hf]
  dsimp only
  rw [tookPair_nextCtl, hn]
  dsimp only
  rw [tookPair_head, tookPair_io]
  exact ⟨_, rfl⟩

/-- Settles O18: admin and I/O Connect, the Annex port's queues and its doorbell act as R144 to R146 and R174 to R176 give. -/
theorem queuesComplete : Obligations.QueuesComplete := by
  refine ⟨fun q size cntlid kato h hostId hostNqn subNqn c s hc hctl hr hx h2 h4 hl ho hd => ?_,
    fun q qid size cntlid kato hostId hostNqn subNqn c s hc hctl hr hx h2 h4 hq => ?_,
    fun q h size kato n hostId c s hq hf hw hn hc => ?_, fun q qid size cntlid hostId k c s hk hi hqid hq hf hw hc => ?_,
    fun q pasid size h s u hc hl ho hd h2 h4 hu hb => ?_, fun q c s hc hx => ?_, fun q pasid off tail c s hc hx => ⟨fun hp => ?_, fun hp => ?_⟩⟩
  · simp only [exec_fabricsConnect, execFabricsConnect, hc]
    rw [if_neg (by simp [hctl, hr, hx]), if_neg (by omega), if_pos trivial, hl]
    dsimp only
    rw [if_neg (by rw [ho]; decide), if_neg (not_not.mpr hd)]
  · simp only [exec_fabricsConnect, execFabricsConnect, hc]
    rw [if_neg (by simp [hctl, hr, hx]), if_neg (by omega), if_neg hq]
  · obtain ⟨ctls, he⟩ := newCtl_binds (size := size) (kato := kato) (hostId := hostId) hq hf hn
    obtain ⟨hn1, hn2, hfree⟩ := nextCtl_spec hn
    rw [he]
    exact ⟨congrArg (· ++ _) (tookPair_out s), tookPair_free hw hf, bound_conn _ _ hc, hn1, hn2, hfree⟩
  · have he : s.newQueue q cntlid qid size hostId = ((tookPair s).updConn q
        (fun c => { c with ctl := some cntlid, qid := qid, size := size, pair := true })).emit (.connectRsp q 0 0 cntlid 0) := by
      rw [State.newQueue, hk]
      dsimp only
      rw [if_neg (not_not.mpr hi), if_neg (by omega), takePair_takes hq hf]
    have hc' : aget (tookPair s).io.conns q = some c := by rw [tookPair_io, hc]
    rw [he]
    exact ⟨congrArg (· ++ _) (tookPair_out s), tookPair_free hw hf, bound_conn _ _ hc'⟩
  · subst hu
    simp only [exec_annexQueueCreate, execAnnexQueueCreate, ahas_of_none hc, hl, ho]
    rw [if_neg (by decide), if_neg (by omega), if_neg (by decide), if_neg (not_not.mpr hd), if_pos trivial, if_pos hb]
  · simp only [exec_annexQueueDelete, execAnnexQueueDelete, hc, hx, if_true]
  · simp only [exec_annexDoorbell, execAnnexDoorbell, hc]
    exact if_pos ⟨hx, hp⟩
  · simp only [exec_annexDoorbell, execAnnexDoorbell, hc]
    exact if_neg fun h => hp h.2

end Sys2Proof.Proofs
end

section
/-! Admin commands, and O19 (R59, R147, R149, R157, R162). -/
namespace Sys2Proof.Proofs
open Sys2Proof Sys2Proof.Machine Sys2Proof.Laws

/-- An admin command that passes its checks is taken in with its controller. -/
theorem adminIn_of_accepts {s : State} {q opc id : Nat} {c : NvmeCmd} {k : Conn} {ctl : Ctl} (h : s.acceptsAdmin q opc c k id ctl) :
    s.adminIn q opc c = (some (id, ctl), s.arrived q c) := by
  obtain ⟨hk, hctl, hq, hchk⟩ := h
  simp [State.adminIn, hk, hctl, hq, hchk]

/-- The answer to an ABORT in s, where hit is the command it names. -/
def abortAnswer (q : Nat) (c : NvmeCmd) (s : State) (hit : Option (Nat × IoCmd)) : Host.Outcome State Fault Refusal :=
  match hit with
  | some (op, m) =>
    if m.stage = .waiting then .next ((s.failCmd op 0 0x07 true 0).hostEmit q (.cqe q c.cid 0 0 false 0)).settle
    else if m.fwd && m.bound then .next ((s.sendC (.fwdAbort m.tok)).hostEmit q (.cqe q c.cid 0 0 false 1))
    else .next (s.hostEmit q (.cqe q c.cid 0 0 false 1))
  | none => .next (s.hostEmit q (.cqe q c.cid 0 0 false 1))

/-- The command that an ABORT of controller id names. -/
def abortHit (c : NvmeCmd) (s : State) (id : Nat) : Option (Nat × IoCmd) :=
  s.io.cmds.find? (fun e => e.2.cid == nthD c.cdw 0 0 / 65536 % 65536 && (match e.2.conn.bind (fun x => aget s.io.conns x) with
    | some k => k.ctl == some id && k.qid == nthD c.cdw 0 0 % 65536
    | none => false))

theorem abortCmd_of_accepts {s : State} {q id : Nat} {c : NvmeCmd} {k : Conn} {ctl : Ctl} (h : s.acceptsAdmin q 0x108 c k id ctl) :
    exec (.abortCmd q c) s = abortAnswer q c (s.arrived q c) (abortHit c (s.arrived q c) id) := by
  rw [exec_abortCmd, execAbortCmd, adminIn_of_accepts h]
  rfl

/-- Settles O19: an admin command that passes its checks has its effect and is answered. -/
theorem adminCommandsComplete : Obligations.AdminCommandsComplete := by
  refine ⟨fun q c k id ctl s u hu => ?_, fun q opc c k s hk hctl ht hb => ?_⟩
  · subst hu
    refine ⟨fun h hf => ?_, fun n h hf hn hsl => ?_, fun h hf hn => ?_, fun h hf len off hlen hoff => ?_, fun h => ?_, fun h hf => ?_,
      fun h hf n hn => ?_, fun h => ?_, fun op m h hm hs => ?_, fun e l h he => ?_, fun h he => ?_⟩
    · simp only [exec_identifyCmd, execIdentifyCmd, adminIn_of_accepts h, hf]
    · simp only [exec_identifyCmd, execIdentifyCmd, adminIn_of_accepts h, hf, hn, hsl, if_true]
    · simp only [exec_identifyCmd, execIdentifyCmd, adminIn_of_accepts h, hf, hn]
    · subst hlen hoff
      have hlog : ¬ ((0x0C : Nat) = 0x01) := by decide
      simp only [exec_getLogPage, execGetLogPage, adminIn_of_accepts h, hf, hlog, if_false, if_true, or_true]
    · simp only [exec_getFeatures, execGetFeatures, adminIn_of_accepts h]
    · simp only [exec_setFeatures, execSetFeatures, adminIn_of_accepts h, hf]
      rfl
    · subst hn
      simp only [exec_setFeatures, execSetFeatures, adminIn_of_accepts h, hf]
      rfl
    · simp only [exec_keepAlive, execKeepAlive, adminIn_of_accepts h]
    · have hhit : abortHit c (s.arrived q c) id = some (op, m) := hm
      rw [abortCmd_of_accepts h, hhit]
      exact if_pos hs
    · simp only [exec_asyncEventRequest, execAsyncEventRequest, adminIn_of_accepts h, he]
    · simp only [exec_asyncEventRequest, execAsyncEventRequest, adminIn_of_accepts h, he]
  · have hcid : s.chkCid q opc c = none := by simp [State.chkCid, hb]
    obtain ⟨id, hid⟩ := Option.isSome_iff_exists.mp hctl
    simp [exec_unsupportedOpcode, execUnsupportedOpcode, hk, hid, ht, hcid]

end Sys2Proof.Proofs
end

section
/-! Host commands at their arrival and at admission, and O20 (R30, R141, R147, R150, R157, R190). -/
namespace Sys2Proof.Proofs
open Sys2Proof Sys2Proof.Machine Sys2Proof.Laws

/-- The opcode under which each host command on a namespace arrives. -/
theorem exec_arrives {q : Nat} {c : NvmeCmd} {row : Instr × Nat} (s : State)
    (h : row ∈ [(Instr.readCmd q c, oRead), (.writeCmd q c, oWrite), (.flushCmd q c, oFlush), (.writeZeroes q c, oWz), (.datasetManagement q c, oDsm),
      (.copyCmd q c, oCopy), (.compareCmd q c, oCompare), (.reservationRegister q c, oResReg), (.reservationAcquire q c, oResAcq),
      (.reservationRelease q c, oResRel), (.reservationReport q c, oResRep)]) :
    exec row.1 s = .next (s.arrive q row.2 c) := by
  simp only [List.mem_cons, List.not_mem_nil, or_false] at h
  rcases h with h | h | h | h | h | h | h | h | h | h | h <;> rw [h] <;> rfl

/-- Settles O20: a host command is taken in or answered, and admitted or turned away. -/
theorem hostCommandsComplete : Obligations.HostCommandsComplete := by
  refine ⟨fun q c k s u row hrow hacc hu => ?_, fun q c k s u row hrow hk hctl he hq hchk => ?_,
    fun op c s u v hc hs ha ht hm hp hroom hb hu => ?_, fun op c s sct sc dnr q hc hs ha ht hq => ?_⟩
  · obtain ⟨hk, hctl, he, hq, hchk, hres⟩ := hacc
    have hctl' : k.ctl.isNone = false := Option.isNone_eq_false_iff.mpr hctl
    rw [exec_arrives s hrow]
    subst hu
    unfold State.arrive
    rw [hk]
    dsimp only
    rw [if_neg (by simp [hctl', he]), if_neg hq, hchk]
    have hnone : (!isResv row.2 && resConflict ((s.arrived q c).resvOf c.nsid) ((s.arrived q c).hostOf q) row.2) = false := by
      cases hr : isResv row.2 with
      | true => rfl
      | false => rw [hres hr]; rfl
    dsimp only
    rw [if_neg (by rw [hnone]; decide)]
    rfl
  · have hctl' : k.ctl.isNone = false := Option.isNone_eq_false_iff.mpr hctl
    rw [exec_arrives s hrow]
    unfold State.arrive
    rw [hk]
    dsimp only
    rw [if_neg (by simp [hctl', he]), if_neg hq, hchk]
  · subst hu
    have hopen : (c.stage != .waiting || !s.admitting) = false := by rw [hs, ha]; rfl
    have hway : (s.moveWaits c.ns c.opc || !s.pathOn c) = false := by rw [hm, hp]; rfl
    have hfits : (s.wcNeed c != 0 && !(s.shareRoom c && s.writeRoom c)) = false := by
      by_cases h : s.wcNeed c = 0
      · rw [h]
        rfl
      · obtain ⟨h1, h2⟩ := hroom h
        rw [h1, h2, Bool.and_self, Bool.not_true, Bool.and_false]
    unfold State.tryAdmit
    rw [hc]
    dsimp only
    rw [if_neg (by rw [hopen]; decide), ht]
    dsimp only
    rw [if_neg (by rw [hway]; decide), if_neg (by rw [hfits]; decide), hb]
  · simp [State.tryAdmit, hc, hs, ha, ht, hq]

end Sys2Proof.Proofs
end

section
/-! The lifecycle commands of slices, and O22 (R171, R173, R180, R182 to R188, R208). -/
namespace Sys2Proof.Proofs
open Sys2Proof Sys2Proof.Machine Sys2Proof.Laws

/-! ## When a lifecycle command runs -/

/-- No lifecycle command runs and SLM is enabled. -/
structure SlmFree (s : State) : Prop where
  cmd : s.slm.cmd = none
  on : s.blockOn Pg.SLM = true

/-- What a lifecycle command does once nothing stands before it. -/
def slmRun (s : State) (op h : Nat) : State :=
  if op = cCreate then s.slmCreate
  else if op = cReshape then s.slmReshape h
  else if op = cQuiesce then s.slmMove op h (· == 1) (fun _ => false) 2 id
  else if op = cResume then s.slmMove op h (fun x => x == 3 || x == 4) (fun _ => false) 1 id
  else if op = cReset then s.slmMove op h (· == 3) (fun x => x == 1 || x == 2) 5 (fun s => s.resetSlice h)
  else if op = cRemove then s.slmRemove h
  else if op = cFreeze then s.slmFreeze h
  else if op = cSave then s.slmSave h
  else if op = cRestore then s.slmRestore
  else if op = cWglStart then s.wglStart h
  else s.wglStop h

theorem slmCmd_busy {s : State} (h : s.slm.cmd.isSome = true) (op k : Nat) : s.slmCmd op k = s.wf R.SLM.CMD_STAT.RESULT 2 := if_pos h

theorem SlmFree.busy {s : State} (hf : SlmFree s) : ¬ (s.slm.cmd.isSome = true) := by
  rw [hf.cmd]
  decide

theorem SlmFree.enabled {s : State} (hf : SlmFree s) : ¬ ((!s.blockOn Pg.SLM) = true) := by
  rw [hf.on]
  decide

section
variable {s : State} {op h : Nat} (hf : SlmFree s) (hop : ¬ (op = 0 ∨ 11 < op))
include hf hop

theorem slmCmd_notLead (hl : s.lead = false) (h10 : op < 10) : s.slmCmd op h = s.slmDone 8 h := by
  rw [State.slmCmd, if_neg hf.busy, if_neg hf.enabled, if_neg hop, if_pos ⟨h10, hl⟩]

variable (hl : op < 10 → s.lead = true) (hseal : op = cRemove ∨ op = cFreeze → s.slm.hseal = none)
include hl hseal

theorem slmCmd_stale (hc : op ≠ cCreate) (hr : op ≠ cRestore) (ho : s.handleOk h = false) : s.slmCmd op h = s.staleHandle.slmDone 5 h := by
  have hlead : ¬ (op < 10 ∧ s.lead = false) := fun hn => Bool.false_ne_true (hn.2.symm.trans (hl hn.1))
  have hpend : ¬ ((op = cRemove ∨ op = cFreeze) ∧ s.slm.hseal.isSome = true) := fun hn => by
    rw [hseal hn.1] at hn
    exact Bool.false_ne_true hn.2
  rw [State.slmCmd, if_neg hf.busy, if_neg hf.enabled, if_neg hop, if_neg hlead, if_neg hpend, if_pos ⟨hc, hr, ho⟩]

theorem slmCmd_runs (ho : op = cCreate ∨ op = cRestore ∨ s.handleOk h = true) : s.slmCmd op h = slmRun s op h := by
  have hlead : ¬ (op < 10 ∧ s.lead = false) := fun hn => Bool.false_ne_true (hn.2.symm.trans (hl hn.1))
  have hpend : ¬ ((op = cRemove ∨ op = cFreeze) ∧ s.slm.hseal.isSome = true) := fun hn => by
    rw [hseal hn.1] at hn
    exact Bool.false_ne_true hn.2
  have hok : ¬ (op ≠ cCreate ∧ op ≠ cRestore ∧ s.handleOk h = false) := fun hn => by
    obtain ⟨hc, hr, hn⟩ := hn
    rcases ho with ho | ho | ho
    · exact hc ho
    · exact hr ho
    · exact Bool.false_ne_true (hn.symm.trans ho)
  rw [State.slmCmd, if_neg hf.busy, if_neg hf.enabled, if_neg hop, if_neg hlead, if_neg hpend, if_neg hok]
  rfl

end

/-! ## Moves between the states of a slice -/

theorem slmJournal_done {s u : State} {op h new : Nat} {more : List JRec} (fin : State → State)
    (hj : s.journal (rSlice h (s.descOf (h % 4096)) new :: more) = (true, u)) : s.slmJournal op h new more fin = (fin u).slmDone 0 h := by
  rw [State.slmJournal, hj]

theorem slmMove_done {s u : State} {op h dest : Nat} {ok busy : Nat → Bool} {fin : State → State}
    (hok : ok (sdState (s.sliceDesc (h % 4096))) = true) (hbusy : busy (sdState (s.sliceDesc (h % 4096))) = false)
    (hj : s.journal [rSlice h (s.descOf (h % 4096)) (sdWith (s.sliceDesc (h % 4096)) dest)] = (true, u)) :
    s.slmMove op h ok busy dest fin = (fin u).slmDone 0 h := by
  rw [State.slmMove]
  rw [hok, hbusy, if_neg Bool.false_ne_true, if_neg (by decide), slmJournal_done fin hj]

theorem slmClose_done {s t u : State} {op h new : Nat} {fin : State → State} (hc : s.closeEarly (h % 4096) = some t)
    (hj : t.journal [rSlice h (s.descOf (h % 4096)) new] = (true, u)) : s.slmClose op h new fin = (fin u).slmDone 0 h := by
  rw [State.slmClose, hc]
  simp only [hj]

/-! ## The answer -/

/-- CMD_STAT and DESC share no word. -/
theorem slmDone_stat {s : State} {r h : Nat} {f : Fld} (hf : f.addr + 4 * wordsOf f ≤ R.SLM.DESC.DESC.addr) :
    (s.slmDone r h).rf f = (((s.wf R.SLM.CMD_STAT.RESULT r).wf R.SLM.CMD_STAT.PENDING 0).wf R.SLM.CMD_STAT.HANDLE h).rf f := by
  unfold State.slmDone
  extract_lets s1 _ s2
  have h2 : s2.rf f = s1.rf f := rf_eq_of_regs_eq (s := s1) (t := s2) rfl f
  split
  · split
    · exact (rf_wf_far s2 _ _ _ (.inl hf)).trans h2
    · exact h2
  · exact h2

theorem slmDone_slm (s : State) (r h : Nat) : (s.slmDone r h).slm = { s.slm with cmd := none } := by
  unfold State.slmDone
  dsimp only
  split
  · split <;> simp only [wf_slm]
  · simp only [wf_slm]

theorem slmDone_maps (s : State) (r h : Nat) : (s.slmDone r h).maps = s.maps := by
  unfold State.slmDone
  dsimp only
  split
  · split <;> simp only [wf_maps]
  · simp only [wf_maps]

/-- Settles O22: a lifecycle command that Table 5-2 allows journals the slice's new state and ends with RESULT 0. -/
theorem lifecycleCompletes : Obligations.LifecycleCompletes := by
  refine ⟨fun h s u i d hc hon hl hse ho hi hd => ?_, fun h s u d hc hon hl hd hb hn hr hj => ?_, fun i r s hr hl => ?_, fun r h s hw hr hh => ?_⟩
  · subst hi hd
    have hfree : SlmFree s := ⟨hc, hon⟩
    have hrun (op : Nat) (hop : ¬ (op = 0 ∨ 11 < op)) : s.slmCmd op h = slmRun s op h :=
      slmCmd_runs hfree hop (fun _ => hl) (fun _ => hse) (.inr (.inr ho))
    refine ⟨fun h1 hj => ?_, fun h34 hj => ?_, fun h3 hj => ?_, fun t h3 hce hj => ?_, fun t h34 ha hce hj => ?_, fun n hn h3 hb ha hnr hj => ?_⟩
    · rw [exec_quiesce, execQuiesce, hrun _ (by decide)]
      change Host.Outcome.next (s.slmMove cQuiesce h (· == 1) (fun _ => false) 2 id) = _
      rw [slmMove_done (by rw [h1]; rfl) rfl hj]
      rfl
    · have hok : (sdState (s.sliceDesc (h.val % 4096)) == 3 || sdState (s.sliceDesc (h.val % 4096)) == 4) = true := by simpa using h34
      rw [exec_resumeCmd, execResumeCmd, hrun _ (by decide)]
      change Host.Outcome.next (s.slmMove cResume h (fun x => x == 3 || x == 4) (fun _ => false) 1 id) = _
      rw [slmMove_done hok rfl hj]
      rfl
    · rw [exec_resetCmd, execResetCmd, hrun _ (by decide)]
      change Host.Outcome.next (s.slmMove cReset h (· == 3) (fun x => x == 1 || x == 2) 5 (fun s => s.resetSlice h)).settle = _
      rw [slmMove_done (by rw [h3]; rfl) (by rw [h3]; rfl) hj]
    · rw [exec_freeze, execFreeze, hrun _ (by decide)]
      change Host.Outcome.next (s.slmFreeze h) = _
      rw [State.slmFreeze, if_neg (not_not.mpr h3), slmClose_done hce hj]
      rfl
    · rw [exec_removeCmd, execRemoveCmd, hrun _ (by decide)]
      change Host.Outcome.next (s.slmRemove h) = _
      rw [State.slmRemove, if_neg (by omega), if_neg (by omega), if_neg (not_not.mpr ha), slmClose_done hce hj]
    · subst hn
      rw [exec_reshape, execReshape, hrun _ (by decide)]
      change Host.Outcome.next (s.slmReshape h) = _
      rw [State.slmReshape, if_neg (by omega), if_neg (by rw [hb]; decide), if_neg (fun h => h.1 h3), if_neg (fun h => h.2 ha), if_neg (by rw [hnr]; decide)]
      exact congrArg _ (slmJournal_done id hj)
  · subst hd
    rw [exec_createCmd, execCreateCmd, slmCmd_runs ⟨hc, hon⟩ (by decide) (fun _ => hl) (fun h => absurd h (by decide)) (.inl rfl)]
    change Host.Outcome.next s.slmCreate = _
    rw [State.slmCreate, if_neg (by rw [hb]; decide), hn]
    dsimp only
    rw [if_neg (by rw [hr]; decide)]
    exact congrArg _ (slmJournal_done id hj)
  · refine ⟨fun h2 h0 hp => ?_, fun partner h5 h0 hp => ?_⟩
    · have hidle : (s.mode == .solo || (s.dynOf i.val).pInfl == some 0) = true := by
        rcases hp with h | h <;> simp [h]
      simp [exec_quiesceComplete, execQuiesceComplete, hr, hl, h2, h0, hidle]
    · have hgone : (partner || s.mode == .solo) = true := by
        rcases hp with h | h <;> simp [h]
      simp [exec_resetComplete, execResetComplete, hr, hl, h5, h0, hgone]
  · have h1 := regs_wf s R.SLM.CMD_STAT.RESULT r hw
    have h2 := regs_wf _ R.SLM.CMD_STAT.PENDING 0 h1
    refine ⟨?_, ?_, ?_, congrArg Slm.cmd (slmDone_slm s r h), slmDone_maps s r h⟩
    · rw [slmDone_stat (by decide), rf_wf_apart _ _ _ _ h2 (by decide), rf_wf_apart _ _ _ _ h1 (by decide), rf_wf_same _ _ _ hw]
      exact Nat.mod_eq_of_lt hr
    · rw [slmDone_stat (by decide), rf_wf_apart _ _ _ _ h2 (by decide), rf_wf_same _ _ _ h1]
      rfl
    · rw [slmDone_stat (by decide), rf_wf_same _ _ _ h2]
      exact Nat.mod_eq_of_lt hh

end Sys2Proof.Proofs
end

section
/-! Refused mode and lifecycle commands, and O23 (R53, R54, R57, R172, R173, Table 5-2). -/
namespace Sys2Proof.Proofs
open Sys2Proof Sys2Proof.Machine Sys2Proof.Laws

/-! ## Mode commands -/

theorem joinCmd_refused {s : State} (hp : s.bsv.pending = false) (hm : s.mode = .isolated) (hj : s.joinCheck ≠ 0) :
    exec .join s = .next (s.modeResult s.joinCheck) := by
  rw [exec_join, execJoin, State.joinCmd, hp, if_neg Bool.false_ne_true, if_neg (not_not.mpr hm), if_pos hj]

/-- A mode command in a mode that Table 2-5 does not give it. -/
theorem modeCmd_badMode {s : State} (hp : s.bsv.pending = false) :
    (s.mode ≠ .isolated → exec .join s = .next (s.modeResult 2) ∧ (∀ f, exec (.serveSolo f) s = .next (s.modeResult 2)) ∧
      exec .enterService s = .next (s.modeResult 2)) ∧
    (s.mode ≠ .paired → exec .handover s = .next (s.modeResult 2)) ∧ (s.mode ≠ .solo → exec .stop s = .next (s.modeResult 2)) := by
  refine ⟨fun hm => ⟨?_, fun f => ?_, ?_⟩, fun hm => ?_, fun hm => ?_⟩
  · rw [exec_join, execJoin, State.joinCmd, hp, if_neg Bool.false_ne_true, if_pos hm]
  · rw [exec_serveSolo, execServeSolo, State.serveSolo, hp, if_neg Bool.false_ne_true, if_pos hm]
  · rw [exec_enterService, execEnterService, State.serviceCmd, hp, if_neg Bool.false_ne_true, if_pos hm]
  · rw [exec_handover, execHandover, State.handoverCmd, hp, if_neg Bool.false_ne_true, if_pos hm]
  · rw [exec_stop, execStop, State.stopCmd, hp, if_neg Bool.false_ne_true, if_pos hm]

/-! ## Lifecycle commands -/

/-- The instruction is lifecycle command op on handle k. -/
def IsSlmCmd (c : Instr) (op k : Nat) : Prop := ∀ s, exec c s = .next (s.slmCmd op k)

section
variable {h : Fin 1048576} {c : Instr}

theorem isSlmCmd_of_mem (hc : c ∈ [Instr.createCmd, .reshape h, .quiesce h, .resumeCmd h, .removeCmd h, .freeze h, .saveCmd h, .restoreCmd, .wglStart h,
    .wglStop h]) : ∃ op k, IsSlmCmd c op k := by
  simp only [List.mem_cons, List.not_mem_nil, or_false] at hc
  rcases hc with rfl | rfl | rfl | rfl | rfl | rfl | rfl | rfl | rfl | rfl <;> exact ⟨_, _, fun s => rfl⟩

/-- The lifecycle commands that need a handle and, but for those of the written-grain log, the lead. -/
theorem isSlmCmd_of_handle (hc : c ∈ [Instr.reshape h, .quiesce h, .resumeCmd h, .removeCmd h, .freeze h, .saveCmd h, .wglStart h, .wglStop h]) :
    ∃ op, ¬ (op = 0 ∨ 11 < op) ∧ op ≠ cCreate ∧ op ≠ cRestore ∧ IsSlmCmd c op h := by
  simp only [List.mem_cons, List.not_mem_nil, or_false] at hc
  rcases hc with rfl | rfl | rfl | rfl | rfl | rfl | rfl | rfl <;>
    exact ⟨_, of_decide_eq_true rfl, of_decide_eq_true rfl, of_decide_eq_true rfl, fun s => rfl⟩

theorem isSlmCmd_of_lead (hc : c ∈ [Instr.reshape h, .quiesce h, .resumeCmd h, .removeCmd h, .freeze h, .saveCmd h]) :
    ∃ op, ¬ (op = 0 ∨ 11 < op) ∧ op < 10 ∧ IsSlmCmd c op h := by
  simp only [List.mem_cons, List.not_mem_nil, or_false] at hc
  rcases hc with rfl | rfl | rfl | rfl | rfl | rfl <;> exact ⟨_, of_decide_eq_true rfl, of_decide_eq_true rfl, fun s => rfl⟩

end

/-- A slice in another state than a command's move begins from refuses it. -/
theorem slmMove_badState {s : State} {op h dest : Nat} {ok busy : Nat → Bool} {fin : State → State}
    (hbusy : busy (sdState (s.sliceDesc (h % 4096))) = false) (hok : ok (sdState (s.sliceDesc (h % 4096))) = false) :
    s.slmMove op h ok busy dest fin = s.slmDone 4 h := by
  rw [State.slmMove, hbusy, hok, if_neg Bool.false_ne_true, if_pos (by decide)]

/-- Settles O23: a command that may not run answers with its result and changes nothing else. -/
theorem commandRefusals : Obligations.CommandRefusals := by
  refine ⟨⟨fun c s hp hc => ?_, fun f s hp => congrArg _ (if_pos hp), fun s hp => modeCmd_badMode hp, fun s hp hm => ⟨fun hw => ⟨?_, fun f => ?_⟩, fun hw hb => ?_,
    fun hw hb f => ?_⟩, fun s hp hm hpp => ?_⟩, fun h c s hb hc => ?_, fun h s hc hon => ⟨?_, ?_⟩, fun h s hc hon hl => ⟨fun c hm => ?_, fun c hm => ?_⟩,
    fun h s hc hon hl hse ho c hm => ?_, fun h s hc hon hl hse ho => ?_⟩
  · simp only [List.mem_cons, List.not_mem_nil, or_false] at hc
    rcases hc with rfl | rfl | rfl | rfl <;> exact congrArg _ (if_pos hp)
  · have hj : s.joinCheck = 8 := if_pos (by rw [hw]; rfl)
    rw [joinCmd_refused hp hm (by rw [hj]; decide), hj]
    rfl
  · rw [exec_serveSolo, execServeSolo, State.serveSolo, hp, if_neg Bool.false_ne_true, if_neg (not_not.mpr hm), if_pos (by rw [hw]; rfl)]
    rfl
  · have hj : s.joinCheck = 3 := (if_neg (by rw [hw]; decide)).trans (if_pos (.inr hb))
    rw [joinCmd_refused hp hm (by rw [hj]; decide), hj]
    rfl
  · rw [exec_serveSolo, execServeSolo, State.serveSolo, hp, if_neg Bool.false_ne_true, if_neg (not_not.mpr hm), if_neg (by rw [hw]; decide),
      if_pos (by rw [hb]; rfl)]
    rfl
  · rw [exec_handover, execHandover, State.handoverCmd, hp, if_neg Bool.false_ne_true, if_neg (not_not.mpr hm), if_pos (by rw [hpp]; rfl)]
    rfl
  · obtain ⟨op, k, he⟩ := isSlmCmd_of_mem hc
    rw [he, slmCmd_busy hb]
  · rw [exec_quiesce, execQuiesce, State.slmCmd, if_neg (by rw [hc]; decide), if_pos (by rw [hon]; rfl)]
    rfl
  · rw [exec_wglStop, execWglStop, State.slmCmd, if_neg (by rw [hc]; decide), if_pos (by rw [hon]; rfl)]
    rfl
  · obtain ⟨op, hop, h10, he⟩ := isSlmCmd_of_lead hm
    rw [he, slmCmd_notLead ⟨hc, hon⟩ hop hl h10]
  · simp only [List.mem_cons, List.not_mem_nil, or_false] at hm
    rcases hm with rfl | rfl
    · exact congrArg _ (slmCmd_notLead (op := cCreate) ⟨hc, hon⟩ (by decide) hl (by decide))
    · exact congrArg _ (slmCmd_notLead (op := cRestore) ⟨hc, hon⟩ (by decide) hl (by decide))
  · obtain ⟨op, hop, hcr, hre, he⟩ := isSlmCmd_of_handle hm
    rw [he, slmCmd_stale ⟨hc, hon⟩ hop (fun _ => hl) (fun _ => hse) hcr hre ho]
  · have hrun (op : Nat) (hop : ¬ (op = 0 ∨ 11 < op)) : s.slmCmd op h = slmRun s op h :=
      slmCmd_runs ⟨hc, hon⟩ hop (fun _ => hl) (fun _ => hse) (.inr (.inr ho))
    refine ⟨fun hst => ?_, fun hst => ?_, fun hst => ?_, fun hst => ?_, fun hst => ?_, fun hst ha => ?_⟩
    · rw [exec_quiesce, execQuiesce, hrun _ (by decide)]
      exact congrArg _ (slmMove_badState (ok := (· == 1)) (busy := fun _ => false) rfl (by simpa using hst))
    · rw [exec_resumeCmd, execResumeCmd, hrun _ (by decide)]
      exact congrArg _ (slmMove_badState (ok := fun x => x == 3 || x == 4) (busy := fun _ => false) rfl (by simpa using hst))
    · rw [exec_resetCmd, execResetCmd, hrun _ (by decide)]
      change Host.Outcome.next (s.slmMove cReset h (· == 3) (fun x => x == 1 || x == 2) 5 (fun s => s.resetSlice h)).settle = _
      rw [State.slmMove, if_pos (by simpa using hst)]
    · rw [exec_freeze, execFreeze, hrun _ (by decide)]
      exact congrArg _ (if_pos hst)
    · rw [exec_saveCmd, execSaveCmd, hrun _ (by decide)]
      exact congrArg _ (if_pos hst)
    · rw [exec_removeCmd, execRemoveCmd, hrun _ (by decide)]
      have h34 : sdState (s.sliceDesc (h.val % 4096)) = 3 ∨ sdState (s.sliceDesc (h.val % 4096)) = 4 := by simpa using hst
      change Host.Outcome.next (s.slmRemove h) = _
      rw [State.slmRemove, if_neg (by omega), if_neg (by omega), if_pos ha]

end Sys2Proof.Proofs
end

section
/-! SAVE, RESTORE and the written-grain log, and O24 (R183, R198 to R200, Table 5-3). -/
namespace Sys2Proof.Proofs
open Sys2Proof Sys2Proof.Machine Sys2Proof.Laws

/-! ## The blob's header -/

/-- Version, length and handle stand in the header as Table 5-3 gives them. -/
theorem blobHeader_fields (s : State) {h : Nat} (hh : h < 2 ^ 20) (nonce rest : Bytes) :
    leAt (blobHeader s h nonce ++ rest) 0 2 = 1 ∧ leAt (blobHeader s h nonce ++ rest) 4 4 = 8192 ∧ leAt (blobHeader s h nonce ++ rest) 24 4 = h := by
  refine ⟨leAt_append_le (pre := []) (by simp only [blobHeader, List.append_assoc, List.nil_append]; rfl) rfl (by decide),
    leAt_append_le (pre := le 1 2 ++ le 0 2) (by simp only [blobHeader, List.append_assoc]; rfl) (by simp [le_length]) (by decide),
    leAt_append_le (pre := le 1 2 ++ le 0 2 ++ le 8192 4 ++ padTo 16 (le s.arrayId 16)) (by simp only [blobHeader, List.append_assoc]; rfl)
      (by simp [le_length]) (by omega)⟩

/-- SAVE of a frozen slice stores one blob and is done. -/
theorem slmSave_stores {s : State} {h : Nat} {k : Key} (hh : h < 2 ^ 20) (hst : sdState (s.sliceDesc (h % 4096)) = 4)
    (hk : s.gcmKey (s.rf R.SLM.MIG_KEY.KEYSLOT) = some k) (hinv : k.inv + 1 < 2 ^ 32) (hrng : s.rf R.SEC.STAT.RNG ≠ 0) :
    ∃ (u : State) (blob : Bytes), s.slmSave h = (u.store (hbmBase + s.rf R.SLM.BLOB_ADDR.ADDR) blob).slmDone 0 h ∧ u.mem = s.mem ∧
      u.maps = s.maps ∧ u.slm = s.slm ∧ blob.length = 8192 ∧ leAt blob 0 2 = 1 ∧ leAt blob 4 4 = 8192 ∧ leAt blob 24 4 = h := by
  unfold State.slmSave
  rw [if_neg (not_not.mpr hst), hk]
  dsimp -zeta only
  rw [if_neg (not_le.mpr (by omega)), if_neg hrng]
  extract_lets nonce hd _ s1 s2
  have hn : nonce.length = 12 := by simp [nonce, le_length]
  obtain ⟨hlen, -⟩ := blob_parts (blobHeader_nonce s h hn).1 ((gcmEnc_length k.key nonce hd _).trans (blobBody_length s h))
    (gcmTag_length k.key nonce hd (gcmEnc k.key nonce hd (s.blobBody h)).1)
  have h2 : s2 = s1.cphRan 1 := if_neg (by omega)
  clear_value s2
  subst h2
  have haddr : (s1.cphRan 1).rf R.SLM.BLOB_ADDR.ADDR = s.rf R.SLM.BLOB_ADDR.ADDR := rf_wf_far s1 _ _ _ (by decide)
  rw [haddr]
  have hfields := blobHeader_fields s hh nonce ((gcmEnc k.key nonce hd (s.blobBody h)).1 ++ (gcmEnc k.key nonce hd (s.blobBody h)).2)
  rw [← List.append_assoc] at hfields
  exact ⟨s1.cphRan 1, _, rfl, wf_mem _ _ _, wf_maps _ _ _, wf_slm _ _ _, hlen, hfields⟩

/-! ## RESTORE -/

/-- An entry of the NQN table goes to memory alone. -/
theorem nqnPut_keeps (h : Nat) (l : List Bytes) (s : State) :
    (l.foldl (fun s e => s.nqnPut e h) s).maps = s.maps ∧ (l.foldl (fun s e => s.nqnPut e h) s).io = s.io ∧
      (l.foldl (fun s e => s.nqnPut e h) s).regs = s.regs := by
  refine FaultKept.foldl (P := fun t => t.maps = s.maps ∧ t.io = s.io ∧ t.regs = s.regs) (fun t e ht => ?_) ⟨rfl, rfl, rfl⟩
  unfold State.nqnPut
  dsimp only
  split
  · exact ht
  · exact ht

theorem exec_restoreCmd_runs {s : State} (hf : SlmFree s) (hl : s.lead = true) : exec .restoreCmd s = .next s.slmRestore := by
  rw [exec_restoreCmd, execRestoreCmd, slmCmd_runs hf (by decide) (fun _ => hl) (fun h => absurd h (by decide)) (.inr (.inl rfl))]
  rfl

/-- Settles O24: SAVE writes the blob of Table 5-3, RESTORE checks one and journals what it holds, the written-grain log starts and stops. -/
theorem migrationCompletes : Obligations.MigrationCompletes := by
  refine ⟨fun h k s hc hon hl ho hst hk hinv hrng => ?_, fun k s u hc hon hl hk b hb hu => ⟨fun hd => ?_, fun body hd => ⟨fun hver => ?_,
    fun h d v hver hns hnext hdd hbad hroom hj => ?_⟩⟩, fun s hc hon hl => ?_, fun h s hc hon ho hst => ⟨fun hw => ?_, ?_⟩⟩
  · rw [exec_saveCmd, execSaveCmd, slmCmd_runs ⟨hc, hon⟩ (by decide) (fun _ => hl) (fun h => absurd h (by decide)) (.inr (.inr ho))]
    obtain ⟨u, blob, he, hu⟩ := slmSave_stores h.isLt hst hk hinv hrng
    exact ⟨u, blob, congrArg _ he, hu⟩
  · rw [exec_restoreCmd_runs ⟨hc, hon⟩ hl]
    simp only [State.slmRestore, hk, Option.bind_some, ← hb, hd]
    rfl
  · subst hu
    rw [exec_restoreCmd_runs ⟨hc, hon⟩ hl]
    simp only [State.slmRestore, hk, Option.bind_some, ← hb, hd]
    rw [if_pos hver]
  · subst hu
    rw [exec_restoreCmd_runs ⟨hc, hon⟩ hl]
    simp only [State.slmRestore, hk, Option.bind_some, ← hb, hd]
    rw [if_neg (not_not.mpr hver), hns, if_neg (by rw [List.all_nil]; decide), hnext]
    dsimp only
    rw [← hdd, hbad, hroom, if_neg (by decide)]
    simp only [List.zipIdx_nil, List.map_nil, List.foldl_nil, ite_self]
    rw [slmJournal_done _ hj]
    exact ⟨_, rfl, nqnPut_keeps h _ _⟩
  · exact exec_restoreCmd_runs ⟨hc, hon⟩ hl
  · rw [exec_wglStart, execWglStart, slmCmd_runs ⟨hc, hon⟩ (by decide) (fun h => absurd h (by decide)) (fun h => absurd h (by decide)) (.inr (.inr ho))]
    change Host.Outcome.next (s.wglStart h) = _
    rw [State.wglStart, if_neg (by simpa using hst), if_neg (by rw [hw]; decide)]
  · rw [exec_wglStop, execWglStop, slmCmd_runs ⟨hc, hon⟩ (by decide) (fun h => absurd h (by decide)) (fun h => absurd h (by decide)) (.inr (.inr ho))]
    change Host.Outcome.next (s.wglStop h) = _
    rw [State.wglStop, if_neg (by simpa using hst)]

end Sys2Proof.Proofs
end

section
/-! The write path, and O27 (R220 to R226, R231 to R238, R268, R344). -/
namespace Sys2Proof.Proofs
open Sys2Proof Sys2Proof.Machine Sys2Proof.Laws

/-- A count does not change the container table. -/
theorem ctRec_counted (s : State) (cid : Nat) (f g : Fld) : ((s.inc f).incWrap g).ctRec cid = s.ctRec cid := by
  simp only [State.ctRec, State.inc, State.incBy, State.incWrap, wf_maps]

/-- What CMP gives for a grain is kept where it is short enough, else the grain is stored raw (R232, R233). -/
theorem compressDone_frame {op g : Nat} {c : IoCmd} {x : Grain} {blk f : Bytes} {s : State} (hg : s.grainAt op g = some (c, x)) (hst : x.st = .compress)
    (hop : c.opc ≠ oAdopt) (hvia : c.via = none) (hf : f = (if constRun x.data then zstdFrame 1 4096 (x.data.take 1) else zstdFrame 2 blk.length blk))
    (hz : constRun x.data = false → zstdDecode f = some (x.data, f.length)) : exec (.compressDone op g blk) s =
      if f.length ≤ 3584 then .next ((s.predict (c.slice % 4096) x.probe true).updGrain op g
        (fun x => { x with stored := padTo (cdiv f.length 16 * 16) f, raw := false, st := .sealing }))
      else .next (((s.predict (c.slice % 4096) x.probe false).incWrap R.ING.CNT_RAW.COUNT).updGrain op g
        (fun x => { x with stored := x.data, raw := true, st := .sealing })) := by
  have hvalid : (!constRun x.data && zstdDecode f != some (x.data, f.length)) = false := by
    cases hc : constRun x.data with
    | true => rfl
    | false => rw [hz hc]; simp
  simp only [exec_compressDone, execCompressDone, hg, hst, hvia, ← hf]
  rw [if_pos trivial, if_neg (by rw [hvalid]; decide), if_neg hop]
  rfl

/-- Settles O27: each step of a grain's way to the Shelf takes it to the next. -/
theorem writePathCompletes : Obligations.WritePathCompletes := by
  refine ⟨fun op g slot c x s hg hst hsl => ⟨fun k hk => ?_, fun hk => ?_⟩, fun op g cid rest c x f s hg hst => ⟨?_, ?_⟩,
    fun op g c x blk f s hg hst hop hvia hf hz => ⟨fun hlen => ?_, fun hlen => ?_⟩, fun op g c x s hg hst => ⟨fun k hk => ?_, fun hk => ?_⟩,
    fun seg o t0 s ho hc hr hold ht => ?_, fun seg o s u ho hi hfold hd ha hp hk hj v hv => ?_, fun op c s hc hst hh => ?_⟩
  · simp only [exec_fingerprint, execFingerprint, hg, hst, hsl, hk, if_true]
  · simp only [exec_fingerprint, execFingerprint, hg, hst, hsl, hk, if_true]
  · simp only [exec_trailerFetchDone, execTrailerFetchDone, State.trailerDone, hg, hst]
    split
    · simp only [State.cmpRan, ctRec_counted]
    · rfl
  · simp only [exec_trailerFetchDone, execTrailerFetchDone, State.trailerDone, hg, hst]
  · rw [compressDone_frame hg hst hop hvia hf hz, if_pos hlen]
  · rw [compressDone_frame hg hst hop hvia hf hz, if_neg (by omega)]
  · simp only [exec_grainEncryptDone, execGrainEncryptDone, hg, hst, hk, if_true]
  · simp only [exec_grainEncryptDone, execGrainEncryptDone, hg, hst, hk, if_true]
  · have hdue : (!o.closed && !o.recs.isEmpty && (decide (t0 + (if s.mode = .solo then 20000 else 1000000) ≤ s.now)
        || (s.roomIn seg o 32).isNone)) = true := by
      simp [hc, hr, ht]
    simp only [exec_segmentSeal, execSegmentSeal, ho, hold]
    exact if_pos hdue
  · subst hv
    have hall : ((List.range ((s.seg seg).d + 2)).all (fun k => o.durable.contains k || [].contains k)) = true := by
      rw [List.all_eq_true]
      exact fun k hk' => by rw [List.contains_iff_mem.mpr (hd k (List.mem_range.mp hk'))]; rfl
    have hacked : (!s.mirrors || decide (o.ptSeq ≤ s.fmm.ptAck)) = true := by
      rcases hp with h | h <;> simp [h]
    simp only [exec_segmentDurable, execSegmentDurable, ho, hi, hfold, hall, hacked, ha, List.length_nil]
    rw [if_neg (by decide), if_pos trivial, hj]
    dsimp only
    rw [if_neg (fun h => hk h.1), if_pos trivial]
    rfl
  · simp [exec_hitExpiry, execHitExpiry, hc, hst, hh]

end Sys2Proof.Proofs
end

section
/-! Snapshots, due records, map pages and checkpoints, and O28 (R258, R265, R270, R271, R277, R279, R285 to R289, R716). -/
namespace Sys2Proof.Proofs
open Sys2Proof Sys2Proof.Machine Sys2Proof.Laws

/-! ## Snapshot commands -/

/-- A snapshot command while none is pending and MPE is enabled goes on to its checks. -/
theorem snapCmd_goes {s : State} {op : Nat} (ns : Nat) (hop : op = 1 ∨ op = 2) (hp : s.flag R.MPE.SNAP_STAT.PENDING = false) (hon : s.blockOn Pg.MPE = true) :
    s.snapCmd op ns = s.snapGo op ns (s.rf R.MPE.SNAP_ARG.EPOCH) := by
  rw [State.snapCmd, hp, if_neg Bool.false_ne_true, if_pos hop, if_pos hon]

theorem snapCmd_busy {s : State} (op ns : Nat) (hp : s.flag R.MPE.SNAP_STAT.PENDING = true) : s.snapCmd op ns = s.wf R.MPE.SNAP_STAT.RESULT 5 := if_pos hp

theorem snapGo_refused {s : State} {op ns e : Nat} (h : s.snapCheck op ns e ≠ 0) : s.snapGo op ns e = s.snapDone (s.snapCheck op ns e) := by
  rw [State.snapGo, if_pos h]

theorem snapGo_done {s u : State} {op ns e : Nat} {n : Ns} (hc : s.snapCheck op ns e = 0) (hn : s.nsOf ns = some n) (hm : s.moveHolds ns = false)
    (hj : s.journal [if op = 1 then rEpoch ns n.epoch else rMapPage ns (pageIx 0xF e) (agetD n.slots e 0) 0] = (true, u)) :
    s.snapGo op ns e = (u.snapDone 0).releaseAll := by
  rw [State.snapGo, if_neg (not_not.mpr hc), hn]
  dsimp only
  rw [hm, if_neg Bool.false_ne_true, hj]

theorem snapCheck_noNs {s : State} {op ns e : Nat} (h : s.nsOf ns = none) : s.snapCheck op ns e = 6 := by
  rw [State.snapCheck, h]

/-- Settles O28: snapshots, pins, frees, map pages and checkpoints are carried out or refused as Table 7-4 and R265 to R289 give. -/
theorem mapsComplete : Obligations.MapsComplete := by
  refine ⟨fun ns n s u hp hon hn hm => ⟨fun hc hj => ?_, fun e he hc hj => ?_⟩, fun ns s => ⟨fun hp => ⟨?_, ?_⟩, fun hp hon hn => ⟨?_, ?_⟩⟩,
    fun cid s u hmem hf hpin ho hj => ?_, fun cid w s u hw hm hf hr hpin ho hz hj => ?_, fun h ns pix s u hr => ?_, fun h ns pix st ents s u hr => ?_,
    fun ns pix s hm hb => ?_, fun s hw hl hs ht hrun hbits hon => ?_, fun ok s hrun hor => ?_, fun k s u hrun hw hcov hj => ?_,
    fun ns d e s u hl hv hj => ?_⟩
  · rw [exec_snapCreate, execSnapCreate, snapCmd_goes _ (.inl rfl) hp hon, snapGo_done hc hn hm hj]
  · subst he
    rw [exec_snapDelete, execSnapDelete, snapCmd_goes _ (.inr rfl) hp hon, snapGo_done hc hn hm hj]
  · rw [exec_snapCreate, execSnapCreate, snapCmd_busy _ _ hp]
  · rw [exec_snapDelete, execSnapDelete, snapCmd_busy _ _ hp]
  · rw [exec_snapCreate, execSnapCreate, snapCmd_goes _ (.inl rfl) hp hon, snapGo_refused (by rw [snapCheck_noNs hn]; decide), snapCheck_noNs hn]
  · rw [exec_snapDelete, execSnapDelete, snapCmd_goes _ (.inr rfl) hp hon, snapGo_refused (by rw [snapCheck_noNs hn]; decide), snapCheck_noNs hn]
  · have hin : (!s.mpe.pins.contains cid.val) = false := by rw [List.contains_iff_mem.mpr hmem]; rfl
    have hlive : (ctFree (s.ctRec cid) || (s.ctRec cid).pinned) = false := by rw [hf, hpin]; rfl
    rw [exec_pinRecord, execPinRecord]
    dsimp only
    rw [if_neg (by rw [hin]; decide), if_neg (by rw [hlive]; decide), if_neg (by rw [ho]; decide), hj]
  · rw [exec_ctFreeIssue, execCtFreeIssue, hw]
    dsimp only
    rw [if_neg (by simp [hm, serving, hf, hr, hpin, ho, hz]), hj]
  · rw [exec_pageReq, execPageReq, hr]
  · rw [exec_pageRsp, execPageRsp, hr]
    simp only [Fin.ext_iff]
    rfl
  · rw [exec_mapPageRebuildDone, execMapPageRebuildDone]
    exact if_pos ⟨hm, List.contains_iff_mem.mpr hb⟩
  · have hdue : (decide (s.mpe.ckAt + s.rf R.MPE.CKPT_CFG.PERIOD * 1000000000 ≤ s.estamp) || decide (s.rf R.MPE.CKPT_CFG.JRN_PCT < s.jrnUse) || s.tileShort) = true := by
      rw [decide_eq_true ht]
      rfl
    rw [exec_checkpointStart, execCheckpointStart, if_neg (by rw [hl, hs, hrun]; decide), if_pos (by rw [hl, hs, hdue, hon]; rfl), State.ckptStart, if_neg (by rw [hrun, hbits]; decide)]
    refine ⟨_, rfl, ?_, rfl, wf_maps _ _ _, wf_mem _ _ _, rfl⟩
    exact rf_wf_same (s.chunkQueue _) R.MPE.CKPT_STAT.RUNNING 1 hw
  · obtain ⟨k, hk⟩ := Option.isSome_iff_exists.mp hrun
    have hstop : (!ok || !s.ckptWritten) = true := by
      rcases hor with h | h <;> simp [h]
    rw [exec_checkpointComplete, execCheckpointComplete, hk]
    exact if_pos hstop
  · rw [exec_checkpointComplete, execCheckpointComplete, hrun]
    dsimp only
    rw [hw, if_neg (by decide), if_neg (by omega), hj]
  · rw [exec_namespaceManagement, execNamespaceManagement]
    dsimp only
    rw [if_neg (by rw [hl]; decide), hj]
    dsimp only
    rw [hv, Bool.and_false, if_neg Bool.false_ne_true]

end Sys2Proof.Proofs
end

section
/-! The map cache, and O29 (R293 to R296). -/
namespace Sys2Proof.Proofs
open Sys2Proof Sys2Proof.Machine Sys2Proof.Laws

/-! ## Sets of ways as bit masks -/

theorem sumL_eq_sum (l : List Nat) : sumL l = l.sum := by
  induction l with
  | nil => rfl
  | cons a l ih => rw [sumL, ih, List.sum_cons]

/-- A mask of ascending ways holds just them. -/
theorem bit_mask {l : List Nat} (h : l.SortedLT) (i : Nat) : bit (sumL (l.map (fun w => 2 ^ w))) i = true ↔ i ∈ l := by
  rw [bit_eq_testBit, ← Nat.mem_bitIndices, sumL_eq_sum, Nat.bitIndices_sum_map_two_pow h]

theorem onesBelow_sorted (n k : Nat) : (onesBelow n k).SortedLT := by
  rw [List.sortedLT_iff_pairwise]
  induction k with
  | zero => exact .nil
  | succ k ih =>
    rw [onesBelow, List.pairwise_append]
    refine ⟨ih, of_ite (P := List.Pairwise (· < ·)) (List.pairwise_singleton _ _) .nil, fun a ha b hb => ?_⟩
    have hbk : b = k := of_ite (P := fun l => b ∈ l → b = k) List.mem_singleton.mp (fun h => absurd h List.not_mem_nil) hb
    exact hbk ▸ (mem_onesBelow.mp ha).1

theorem length_onesBelow (n k : Nat) : (onesBelow n k).length = popcount n k := by
  induction k with
  | zero => rfl
  | succ k ih =>
    rw [onesBelow, List.length_append, ih, popcount, bit]
    have := Nat.mod_two_eq_zero_or_one (n / 2 ^ k)
    split <;> simp_all

/-- A number is the mask of its own ones. -/
theorem mask_onesBelow {n k : Nat} (h : n < 2 ^ k) : sumL ((onesBelow n k).map (fun w => 2 ^ w)) = n := by
  refine Nat.eq_of_testBit_eq fun i => ?_
  rw [← bit_eq_testBit, ← bit_eq_testBit, Bool.eq_iff_iff, bit_mask (onesBelow_sorted n k), mem_onesBelow]
  refine ⟨fun h => h.2, fun hb => ⟨?_, hb⟩⟩
  by_contra hk
  rw [bit_eq_testBit, Nat.testBit_lt_two_pow (Nat.lt_of_lt_of_le h (Nat.pow_le_pow_right (by decide) (not_lt.mp hk)))] at hb
  exact Bool.false_ne_true hb

theorem getLsbD_eq_bit {k : Nat} (v : BitVec k) (i : Nat) : v.getLsbD i = bit v.toNat i := (bit_eq_testBit _ _).symm

/-- The ways a write of LOCK locks: preloaded ones, at most eight of them (R295). -/
def lockWays (s : State) (v : Nat) : List Nat := ((onesBelow v 12).filter (fun w => bit (s.rf R.MPC.PRELOADED.WAYS) w)).take 8

theorem mpcLockWrite_eq (s : State) (v : Nat) : s.mpcLockWrite v =
    if (lockWays s v).length = popcount v 12 then s.wf R.MPC.LOCK.WAYS (sumL ((lockWays s v).map (fun w => 2 ^ w)))
    else ((s.wf R.MPC.LOCK.WAYS (sumL ((lockWays s v).map (fun w => 2 ^ w)))).wf R.MPC.STATE.LOCK_NO_PRELOAD 1).raise Pg.MPC 3 := rfl

theorem lockWays_sorted (s : State) (v : Nat) : (lockWays s v).SortedLT := by
  rw [List.sortedLT_iff_pairwise]
  exact ((onesBelow_sorted v 12).pairwise.filter _).sublist (List.take_sublist _ _)

/-! ## Loading lines -/

theorem mpcPut_preload (s : State) (set w line : Nat) (d : Bool) : (s.mpcPut set w line d).mpc.preload = s.mpc.preload := by
  have hhot (t : State) (n : Nat) : (t.mpcHot set n).mpc.preload = t.mpc.preload := by
    unfold State.mpcHot
    split
    · rw [raise_mpc]
      simp only [State.inc, State.incBy, wf_mpc]
    · rfl
  unfold State.mpcPut
  extract_lets k c full ev _ t
  exact of_ite (P := fun u : State => u.mpc.preload = s.mpc.preload) (hhot t _) rfl

theorem mpcLoadLines_preload (way n : Nat) (a : Nat) (s : State) : (s.mpcLoadLines way a n).mpc.preload = s.mpc.preload := by
  induction n generalizing s a with
  | zero => rfl
  | succ n ih => rw [State.mpcLoadLines, ih, mpcPut_preload]

theorem mpcLoadLines_regsWf {way n a : Nat} {s : State} (h : s.regsWf = true) : (s.mpcLoadLines way a n).regsWf = true := by
  have hrest : ∀ n a (s : State), s.Rest (fun c => swf resetWord c.regs = true) →
      (s.mpcLoadLines way a n).Rest (fun c => swf resetWord c.regs = true) := by
    intro n
    induction n with
    | zero => exact fun _ _ h => h
    | succ n ih => exact fun a s h => ih _ _ (.mpcPut h)
  exact (hrest n a s ⟨regsWf_steady, h⟩).2

/-- Settles O29: MPC goes through the states of Table 7-5 by its commands alone, and locks preloaded ways only. -/
theorem mapCacheCompletes : Obligations.MapCacheCompletes := by
  refine ⟨fun s hw hoff hb => ?_, fun s hor => ?_, fun s hw hi => ?_, fun way s hon hb hway => ?_, fun way s hor => ?_, fun way addr len s hw hp hway => ?_,
    fun s hoff => ⟨fun hd => ?_, fun hd => ?_⟩, fun s hon => ?_, fun s hw hd => ?_, fun v s hall hpop => ?_, fun v s hbad => ?_, fun s ht => ?_⟩
  · have h1 := regs_wf s R.MPC.STATE.STATE mpcInvalidating hw
    have h2 := regs_wf _ R.MPC.STATE.BUSY 1 h1
    have h3 := regs_wf _ R.MPC.PRELOADED.WAYS 0 h2
    rw [exec_mpcInvalidate, execMpcInvalidate, State.mpcInvalidate, if_pos (by rw [hoff, hb]; rfl)]
    refine ⟨_, rfl, ?_, ?_, ?_, ?_, by simp only [wf_mpc]⟩
    · rw [rf_wf_apart _ _ _ _ h3 (by decide), rf_wf_apart _ _ _ _ h2 (by decide), rf_wf_apart _ _ _ _ h1 (by decide), rf_wf_same _ _ _ hw]
      rfl
    · rw [rf_wf_apart _ _ _ _ h3 (by decide), rf_wf_apart _ _ _ _ h2 (by decide), rf_wf_same _ _ _ h1]
      rfl
    · rw [rf_wf_apart _ _ _ _ h3 (by decide), rf_wf_same _ _ _ h2]
      rfl
    · rw [rf_wf_same _ _ _ h3]
      rfl
  · rw [exec_mpcInvalidate, execMpcInvalidate, State.mpcInvalidate, if_neg (by rcases hor with h | h <;> simp [h])]
  · have h1 := regs_wf s R.MPC.STATE.STATE mpcOff hw
    have h2 := regs_wf _ R.MPC.STATE.BUSY 0 h1
    rw [exec_mpcInvalidateDone, execMpcInvalidateDone, if_pos hi]
    refine ⟨_, rfl, ?_, ?_, ?_, rfl, by simp only [wf_mem]⟩
    · exact ((rf_wf_apart _ _ _ _ h2 (by decide)).trans (rf_wf_apart _ _ _ _ h1 (by decide))).trans (rf_wf_same s R.MPC.STATE.STATE mpcOff hw)
    · exact (rf_wf_apart _ _ _ _ h2 (by decide)).trans (rf_wf_same _ R.MPC.STATE.BUSY 0 h1)
    · exact rf_wf_same _ R.MPC.STATE.INV_DONE 1 h2
  · rw [exec_mpcPreload, execMpcPreload, State.mpcPreload, if_pos (by rw [hon, hb, decide_eq_true hway]; rfl)]
    exact ⟨_, rfl, rfl, rfl⟩
  · rw [exec_mpcPreload, execMpcPreload, State.mpcPreload, if_neg (by rcases hor with h | h | h <;> simp [h])]
  · have hwf := mpcLoadLines_regsWf (way := way) (n := len / 64) (a := addr) (s := { s with mpc := { s.mpc with preload := none } }) hw
    have hpre := mpcLoadLines_preload way (len / 64) addr { s with mpc := { s.mpc with preload := none } }
    rw [exec_mpcPreloadDone, execMpcPreloadDone, hp]
    dsimp only
    generalize State.mpcLoadLines { s with mpc := { s.mpc with preload := none } } way addr (len / 64) = t at hwf hpre ⊢
    have h1 := regs_wf t R.MPC.PRELOADED.WAYS (setBit (t.rf R.MPC.PRELOADED.WAYS) way true) hwf
    refine ⟨_, rfl, ?_, ?_, ?_⟩
    · rw [rf_wf_apart _ _ _ _ h1 (by decide), rf_wf_same _ _ _ hwf]
      exact (bit_mod hway).trans (bit_setBit_same _ _)
    · rw [rf_wf_same _ _ _ h1]
      rfl
    · rw [wf_mpc, wf_mpc, hpre]
  · rw [exec_mpcEnable, execMpcEnable, State.mpcEnable, if_pos hoff, if_pos hd]
  · rw [exec_mpcEnable, execMpcEnable, State.mpcEnable, if_pos hoff, if_neg (by rw [hd]; decide)]
  · rw [exec_mpcDisable, execMpcDisable, State.mpcDisable, if_pos hon]
  · have h1 := regs_wf s R.MPC.STATE.STATE mpcOff hw
    rw [exec_mpcDrainComplete, execMpcDrainComplete, if_pos hd]
    refine ⟨_, rfl, ?_, ?_, rfl⟩
    · exact (rf_wf_apart _ _ _ _ h1 (by decide)).trans (rf_wf_same s R.MPC.STATE.STATE mpcOff hw)
    · exact rf_wf_same _ R.MPC.DRAIN_COUNT.LINES _ h1
  · have hok : lockWays s v.toNat = onesBelow v.toNat 12 := by
      have hf : (onesBelow v.toNat 12).filter (fun w => bit (s.rf R.MPC.PRELOADED.WAYS) w) = onesBelow v.toNat 12 :=
        List.filter_eq_self.mpr fun w hw => by
          obtain ⟨hlt, hbit⟩ := mem_onesBelow.mp hw
          exact hall w hlt ((getLsbD_eq_bit v w).trans hbit)
      rw [lockWays, hf, List.take_of_length_le (by rw [length_onesBelow]; exact hpop)]
    rw [exec_mpcLockWrite, execMpcLockWrite, mpcLockWrite_eq, hok, mask_onesBelow v.isLt]
    exact congrArg _ (if_pos (length_onesBelow _ _))
  · obtain ⟨w, hlt, hv, hno⟩ := hbad
    have hshort : (lockWays s v.toNat).length ≠ popcount v.toNat 12 := by
      have hmiss : ((onesBelow v.toNat 12).filter (fun w => bit (s.rf R.MPC.PRELOADED.WAYS) w)).length < (onesBelow v.toNat 12).length :=
        List.length_filter_lt_length_iff_exists.mpr ⟨w, mem_onesBelow.mpr ⟨hlt, (getLsbD_eq_bit v w).symm.trans hv⟩, by rw [hno]; decide⟩
      rw [← length_onesBelow, lockWays, List.length_take]
      omega
    refine ⟨sumL ((lockWays s v.toNat).map (fun w => 2 ^ w)), ?_, fun u hu hb => ?_⟩
    · rw [exec_mpcLockWrite, execMpcLockWrite, mpcLockWrite_eq, if_neg hshort]
    · obtain ⟨hone, hpre⟩ := List.mem_filter.mp (List.mem_of_mem_take ((bit_mask (lockWays_sorted s v.toNat) u).mp hb))
      exact ⟨(getLsbD_eq_bit v u).trans (mem_onesBelow.mp hone).2, hpre⟩
  · rw [exec_mpcHotWindow, execMpcHotWindow, if_pos ht]

end Sys2Proof.Proofs
end

section
/-! The read path, and O30 (R307, R319). -/
namespace Sys2Proof.Proofs
open Sys2Proof Sys2Proof.Machine Sys2Proof.Laws

section
variable {q cid off : Nat} {u : Unack} {s : State}

/-- A grain whose buffer is still held is sent from it. -/
theorem tcpRetransmit_held (hu : s.io.unack.find? (fun u => u.conn == q && u.cid == cid && u.off == off) = some u) (hrel : u.rel = false) :
    exec (.tcpRetransmit q cid off) s = .next (s.sendData q cid off (wireGrain (s.lbafOf u.ns) u.base u.pract u.g).2) := by
  simp only [exec_tcpRetransmit, execTcpRetransmit, hu, hrel, Bool.not_false, if_true]

/-- A grain whose buffer is gone is read again, under a command of its own. -/
theorem tcpRetransmit_released (hu : s.io.unack.find? (fun u => u.conn == q && u.cid == cid && u.off == off) = some u) (hrel : u.rel = true) :
    ∃ (v : State) (c : IoCmd), exec (.tcpRetransmit q cid off) s =
        .next ((if u.g.loc = 0 then v.readGrain s.io.nextOp 0 else v.readRec s.io.nextOp 0 u.g.cid).afterRead s.io.nextOp) ∧
      v = { s with io := { s.io with cmds := aset s.io.cmds s.io.nextOp c, nextOp := s.io.nextOp + 1 } } ∧ c.conn = none ∧ c.opc = oReread ∧ c.stage = .active ∧
      c.reads.map (fun g => (g.cid, g.gi)) = [(u.g.cid, u.g.gi)] := by
  simp only [exec_tcpRetransmit, execTcpRetransmit, hu, hrel, Bool.not_true, Bool.false_eq_true, if_false]
  exact ⟨_, _, rfl, rfl, rfl, rfl, rfl, rfl⟩

end

/-- A held codeword goes on as soon as there is room for it. -/
theorem unhold_succ {k : Nat} {h : Held} {l : List Held} {s : State} (hheld : s.jlk.held = h :: l) (hroom : s.stagingFor h.req.why = true) :
    s.unhold (k + 1) = State.unhold ((State.freeCred { s with jlk := { s.jlk with held := l } } h.pos h.cred).stageRead h.pos h.req h.cws) k := by
  rw [State.unhold, hheld]
  exact if_pos hroom

/-- Settles O30: the instructions' own branches, and one turn of the loop over the held codewords. -/
theorem readPathCompletes : Obligations.ReadPathCompletes :=
  ⟨fun _ _ _ _ => rfl, fun _ _ _ _ _ hu => ⟨tcpRetransmit_held hu, tcpRetransmit_released hu⟩, fun _ => rfl,
    fun _ _ _ _ hheld hroom => unhold_succ hheld hroom⟩

end Sys2Proof.Proofs
end

section
/-! Segments, relocation, folding, erasing and patrol, and O33 (R343, R347, R384, R389, R393 to R406, R410). -/
namespace Sys2Proof.Proofs
open Sys2Proof Sys2Proof.Machine Sys2Proof.Laws

/-! ## Records of segments leave the content table and the chunk directory -/

/-- Where contents lie: the content table and the directory of map chunks. -/
def contents (s : State) : AMap CtRec × AMap (Nat × Nat) := (s.maps.ct, s.mpe.dir)

theorem contents_incWrap (s : State) (f : Fld) : contents (s.incWrap f) = contents s := by simp [contents, State.incWrap]

theorem contents_raise (s : State) (p c : Nat) : contents (s.raise p c) = contents s := by simp [contents]

theorem contents_mpcHot (s : State) (set n : Nat) : contents (s.mpcHot set n) = contents s := by
  unfold State.mpcHot
  split_ifs
  · simp [contents]
  · rfl

theorem contents_mpcPut (s : State) (set w line : Nat) (d : Bool) : contents (s.mpcPut set w line d) = contents s := by
  unfold State.mpcPut
  extract_lets k c full ev _ s1
  have h1 : contents s1 = contents s := rfl
  exact of_ite (P := fun u => contents u = contents s) ((contents_mpcHot s1 _ _).trans h1) h1

theorem contents_mpcTouch (s : State) (a : Nat) (wr : Bool) : contents (s.mpcTouch a wr) = contents s := by
  unfold State.mpcTouch
  extract_lets line st set s1
  have h1 : contents s1 = contents s := contents_incWrap _ _
  refine of_ite (P := fun u => contents u = contents s) ?_ (of_ite (P := fun u => contents u = contents s) ?_ rfl)
  · split
    · exact (contents_incWrap _ _).trans (contents_mpcPut ..)
    · exact (contents_incWrap _ _).trans (contents_mpcPut ..)
  · split
    · exact of_ite (P := fun u => contents u = contents s) h1 h1
    · exact contents_incWrap _ _

theorem contents_issue (s : State) (unit : Nat) : contents (s.issue unit).2 = contents s := of_calm contents (fun _ => rfl) (calm_issue s unit)

theorem contents_issueAbove (s : State) (unit h : Nat) : contents (s.issueAbove unit h).2 = contents s := by
  unfold State.issueAbove
  split
  · split_ifs
    · exact contents_issue _ _
    · exact contents_issue _ _
  · exact contents_issue _ _

theorem contents_segPut (s : State) (n : Nat) (g : Seg) : contents (s.segPut n g) = contents s := contents_mpcTouch s (s.segAddr n) true

theorem contents_applySegState (s : State) (r : JRec) : contents (s.applySegState r) = contents s := by
  unfold State.applySegState
  extract_lets n gen g st kind g1 g2 g3
  split_ifs
  · simp [contents]
  all_goals exact contents_segPut _ _ _

/-- A record of a segment's state or of its dirt. -/
def OfSegments (r : JRec) : Prop := r.typ = tSegState ∨ r.typ = tDirty

theorem contents_applyRec {s t : State} {slice : Nat} {r : JRec} (hr : OfSegments r) (h : s.applyRec slice r = some t) : contents t = contents s := by
  unfold State.applyRec at h
  extract_lets own at h
  obtain hr | hr := hr <;> simp only [hr] at h
  · cases h
    exact contents_applySegState _ _
  · cases h
    rfl

theorem contents_applyRecs {slice : Nat} {l : List JRec} {s t : State} (hl : ∀ r ∈ l, OfSegments r) (h : applyRecs slice l s = some t) :
    contents t = contents s := by
  induction l generalizing s with
  | nil => cases h; rfl
  | cons r l ih =>
    rw [applyRecs] at h
    split at h
    · next u hu => exact (ih (fun x hx => hl x (List.mem_cons_of_mem _ hx)) h).trans (contents_applyRec (hl r List.mem_cons_self) hu)
    · cases h

theorem contents_lateChunks (s : State) (g : List JRec) : contents (s.lateChunks g) = contents s := by
  unfold State.lateChunks
  split
  · split_ifs
    · rfl
    · rfl
  · rfl

theorem contents_applyNow {g : List JRec} {s t : State} (hg : ∀ r ∈ g, OfSegments r) (h : s.applyNow g = some t) : contents t = contents s := by
  unfold State.applyNow at h
  split at h
  · next u hu =>
    cases h
    exact (contents_applyRecs hg hu).trans (contents_lateChunks s g)
  · cases h

theorem contents_applyGroup {g : List JRec} {s t : State} (hg : ∀ r ∈ g, OfSegments r) (h : s.applyGroup g = some t) : contents t = contents s := by
  unfold State.applyGroup at h
  split at h
  · split at h
    · cases h
    · cases h
      have hr : contents (if s.mpe.held.isEmpty then s.raise Pg.MPE 2 else s) = contents s :=
        of_ite (P := fun u => contents u = contents s) (contents_raise s Pg.MPE 2) rfl
      exact hr
  · unfold State.applyShadowed at h
    split at h
    · obtain ⟨u, hu, rfl⟩ := Option.map_eq_some_iff.1 h
      have hu' : contents u = contents s := contents_applyNow hg hu
      exact hu'
    · exact contents_applyNow hg h

theorem contents_of_cSends {s t : State} (h : CSends s t) : contents t = contents s := by
  obtain ⟨c, o, rfl, -⟩ := h
  rfl

theorem contents_enqueue (s : State) (r : JRec) : contents (s.enqueue r) = contents s := by
  unfold State.enqueue
  extract_lets l x x1 s1
  have h1 : contents s1 = contents s := rfl
  exact of_ite (P := fun u => contents u = contents s) ((contents_of_cSends (cSends_sendC s1 _)).trans h1) h1

theorem contents_enqueued (g : List JRec) (s : State) : contents (g.foldl (fun s r => s.enqueue r) s) = contents s :=
  List.foldlRecOn g _ (motive := fun u => contents u = contents s) rfl (fun u hu r _ => (contents_enqueue u r).trans hu)

theorem ofSegments_finishGroup {head ostamp flags : Nat} {rs : List JRec} (h : ∀ r ∈ rs, OfSegments r) : ∀ r ∈ finishGroup head ostamp flags rs, OfSegments r := by
  intro r hr
  obtain ⟨p, hp, rfl⟩ := List.mem_map.1 hr
  exact h p.1 (List.fst_mem_of_mem_zipIdx hp)

/-- A group of records of segments moves no content. -/
theorem contents_journal {rs : List JRec} {s u : State} (hrs : ∀ r ∈ rs, OfSegments r) (h : s.journal rs = (true, u)) : contents u = contents s := by
  unfold State.journal State.stampGroup at h
  cases rs with
  | nil => cases h; rfl
  | cons r0 l =>
    dsimp only at h
    split at h
    · next o v hv =>
      split at hv
      · cases hv
      · next o' w hw =>
        split at hv
        · next x hx =>
          cases hv
          cases h
          have hw' : contents w = contents s := (congrArg (fun p => contents p.2) hw).symm.trans (contents_issueAbove ..)
          exact (contents_enqueued _ _).trans ((contents_applyGroup (ofSegments_finishGroup hrs) hx).trans hw')
        · cases hv
    · cases h
    · cases h

/-! ## Folds -/

/-- Where no content lies in the source, a fold has none to move. -/
theorem foldMoves_of_unused {s : State} {src : Nat} (h : ∀ e ∈ s.maps.ct, ¬(locSeg e.2.loc = src ∧ ctFree e.2 = false)) (n q : Nat) :
    s.foldMoves n src q = s := by
  have hnone : s.maps.ct.filter (fun e => locSeg e.2.loc == src && !ctFree e.2) = [] := by
    refine List.filter_eq_nil_iff.2 fun e he hb => h e he ?_
    simpa using hb
  rw [State.foldMoves, hnone]
  rfl

theorem foldMoves_sources {s : State} {l : List (Nat × Nat)} (h : ∀ e ∈ s.maps.ct, locSeg e.2.loc ∉ l.map Prod.fst) (n : Nat) :
    l.foldl (fun s p => s.foldMoves n p.1 p.2) s = s :=
  List.foldlRecOn l _ (motive := fun u => u = s) rfl fun u hu p hp => by
    rw [hu]
    exact foldMoves_of_unused (fun e he hb => h e he (hb.1 ▸ List.mem_map_of_mem hp)) n p.2

/-- Where no chunk is held, there is none to move. -/
theorem chunkMove_of_no_dir {s : State} (h : s.mpe.dir = []) (seg : Nat) (f : Nat → Nat) : s.chunkMove seg f = s := by
  rw [State.chunkMove, h]
  change { s with mpe := { s.mpe with dir := [] } } = s
  rw [← h]

theorem chunkMoves_of_no_dir {s : State} (h : s.mpe.dir = []) (l : List (Nat × Nat)) (n : Nat) :
    l.foldl (fun s p => s.chunkMove p.1 (foldLoc n p.2)) s = s :=
  List.foldlRecOn l _ (motive := fun u => u = s) rfl fun u hu p _ => by rw [hu, chunkMove_of_no_dir h]

section
variable {n : Nat} {s u : State}

/-- The records of a fold's end: the target is sealed and its sources are superseded. -/
def foldRecs (s : State) (n : Nat) : List JRec :=
  [rSegState n (s.seg n).gen (s.seg n).kind 1 3, rDirty n true false] ++ (s.seg n).sources.map (fun q => rSegState q (s.seg q).gen (s.seg q).kind 2 4)

theorem foldRecs_ofSegments (s : State) (n : Nat) : ∀ r ∈ foldRecs s n, OfSegments r := by
  intro r hr
  obtain hr | hr := List.mem_append.1 hr
  · obtain rfl | hr := List.mem_cons.1 hr
    · exact .inl rfl
    · rw [List.mem_singleton.1 hr]
      exact .inr rfl
  · obtain ⟨q, -, rfl⟩ := List.mem_map.1 hr
    exact .inl rfl

/-- A fold none of whose sources holds anything ends with its records. -/
theorem foldSeal_of_unused (hct : ∀ e ∈ s.maps.ct, locSeg e.2.loc ∉ (s.seg n).sources) (hkind : (s.seg n).kind ≠ 4) (hdir : s.mpe.dir = [])
    (hj : s.journal (foldRecs s n) = (true, u)) :
    s.foldSeal n = State.incWrap { u with sgb := { u.sgb with opens := adel u.sgb.opens n } } R.FMM.CNT_FOLD.COUNT := by
  have hc : contents u = contents s := contents_journal (foldRecs_ofSegments s n) hj
  have hu : u.maps.ct = s.maps.ct := congrArg Prod.fst hc
  have hd : u.mpe.dir = [] := (congrArg Prod.snd hc).trans hdir
  unfold foldRecs at hj
  simp only [State.foldSeal, hj, if_neg hkind]
  generalize hv : State.incWrap { u with sgb := { u.sgb with opens := adel u.sgb.opens n } } R.FMM.CNT_FOLD.COUNT = v
  have hvd : v.mpe.dir = [] := by rw [← hv]; exact (congrArg Prod.snd (contents_incWrap _ _)).trans hd
  have hvc : v.maps.ct = s.maps.ct := by rw [← hv]; exact (congrArg Prod.fst (contents_incWrap _ _)).trans hu
  rw [chunkMoves_of_no_dir hvd, foldMoves_sources]
  rw [hvc, List.zipIdx_map_fst]
  exact hct

end

/-! ## The instructions -/

section
variable {s u : State}

theorem segmentOpen_chunk {seg : Fin 33554432} {pool : Fin 4} {row : Fin 4096} {away : BitVec 64} {p : Pool} {w : State}
    (hw : w = { s with fmm := { s.fmm with pAway := away.toNat } }) (hp : aget s.maps.pools pool = some p) (hm : w.mayOpen seg = true)
    (hr : w.rowOpen p row = true) (hc : ∃ c ∈ s.mpe.ckTodo, c.1 = pool.val) :
    exec (.segmentOpen seg pool row away) s = .next (w.chunkSeg seg pool row) := by
  have hc' : w.mpe.ckTodo.any (fun c => c.1 == pool.val) = true := by
    rw [hw]
    exact List.any_eq_true.2 (hc.imp fun c h => ⟨h.1, beq_iff_eq.2 h.2⟩)
  have hp' : aget w.maps.pools pool.val = some p := by rw [hw]; exact hp
  rw [exec_segmentOpen, execSegmentOpen, ← hw]
  simp only [hp', hm, hr, hc', Bool.and_true, if_true]

theorem segmentOpen_opens {seg : Fin 33554432} {pool : Fin 4} {row : Fin 4096} {away : BitVec 64} {p : Pool} {w v : State}
    (hw : w = { s with fmm := { s.fmm with pAway := away.toNat } }) (hp : aget s.maps.pools pool = some p) (hm : w.mayOpen seg = true)
    (hr : w.rowOpen p row = true) (hc : ∀ c ∈ s.mpe.ckTodo, c.1 ≠ pool.val)
    (ha : (s.sgb.opens.filter (fun e => !e.2.closed && e.2.recs.isEmpty)).length < max 1 (s.rf R.SGB.CFG.PREOPEN))
    (hj : w.journal [rSegState seg (s.seg seg).gen 0 0 1, rDirty seg false true] = (true, u))
    (hv : v = u.setSeg seg { u.seg seg with pool := pool, d := p.baseNew.d, basegen := p.baseNew.basegen, row := row }) :
    exec (.segmentOpen seg pool row away) s = .next (State.replaceStray { v with sgb := { v.sgb with opens := aset v.sgb.opens seg {} } }).pumpPlace := by
  have hc' : w.mpe.ckTodo.any (fun c => c.1 == pool.val) = false := by
    rw [hw]
    exact List.any_eq_false.2 fun c h => by rw [beq_iff_eq]; exact hc c h
  have hp' : aget w.maps.pools pool.val = some p := by rw [hw]; exact hp
  have ha' : (w.sgb.opens.filter (fun e => !e.2.closed && e.2.recs.isEmpty)).length < max 1 (w.rf R.SGB.CFG.PREOPEN) := by rw [hw]; exact ha
  have hj' : w.journal [rSegState seg (w.seg seg).gen 0 0 1, rDirty seg false true] = (true, u) := by
    have hs : w.seg seg = s.seg seg := by rw [hw]; rfl
    rw [hs]
    exact hj
  rw [exec_segmentOpen, execSegmentOpen, ← hw]
  simp only [hp', hm, hr, hc', Bool.and_false, Bool.and_true, Bool.false_eq_true, if_false, decide_eq_true ha', if_true, hj', hv]

theorem gcStart_drains {seg : Fin 33554432} {recs : List Placed} (hc : s.collectable seg = true) (hb : s.blockOn Pg.FMM = true)
    (hu : u = (if (s.seg seg).state = 6 then s else s.segTo seg 6)) (h6 : (u.seg seg).state = 6) :
    exec (.gcStart seg recs) s = .next ((if (u.seg seg).kind = 4 then u.chunkAgain seg else u.replace seg recs).retireIfDrained seg) := by
  simp only [exec_gcStart, execGcStart, hc, hb, Bool.not_true, Bool.or_false, Bool.false_eq_true, if_false, ← hu, h6, if_true]
  split_ifs <;> rfl

/-- The live record of a segment that came to be SEALED is found at its new place. -/
theorem gcRelocateCommit_moves {seg : Fin 33554432} {r : Reloc} {v w : State} (h2 : (s.seg seg).state = 2)
    (hr : s.sgb.reloc.filter (fun r => locSeg r.dst == seg.val) = [r]) (hfree : ctFree (s.ctRec r.cid) = false) (hgen : (s.ctRec r.cid).gen = r.gen)
    (hloc : (s.ctRec r.cid).loc = r.src) (hj : s.journal [rCtLoc r.cid r.src r.dst] = (true, u)) (hv : v = u.incWrap R.FMM.CNT_RELOC.COUNT)
    (hw : w = { v with sgb := { v.sgb with reloc := v.sgb.reloc.filter (fun x => x != r) } }) :
    exec (.gcRelocateCommit seg) s = .next ((w.retireIfDrained (locSeg r.src)).wcRelease w.wcDone).settle := by
  simp only [exec_gcRelocateCommit, execGcRelocateCommit, ne_eq, h2, not_true, if_false, hr, List.foldl_cons, List.foldl_nil, hfree, hgen, hloc, beq_self_eq_true,
    Bool.not_false, Bool.and_true, if_true, hj, ← hv, ← hw]
  rfl

end

section
variable {s u : State}

/-- What is put and is not the default is read back, whatever the map. -/
theorem aget_sput_of_ne {β : Type} [DecidableEq β] {d : Nat → β} {v : β} {k : Nat} (h : v ≠ d k) (m : AMap β) : aget (sput d m k v) k = some v := by
  induction m with
  | nil => simp [sput, h, aget]
  | cons p m ih =>
    obtain ⟨a, w⟩ := p
    rw [sput, if_neg h, if_neg h]
    split_ifs with hlt heq
    · simp [aget]
    · simp [aget]
    · rw [aget, if_neg (Ne.symm heq)]
      exact ih

theorem seg_setSeg_of_ne {g : Seg} (h : g ≠ {}) (n : Nat) (s : State) : (s.setSeg n g).seg n = g := by
  rw [State.seg, agetD, State.setSeg, aget_sput_of_ne h, Option.getD_some]

theorem seg_setSeg_other {n k : Nat} (g : Seg) (s : State) (h : k ≠ n) : (s.setSeg n g).seg k = s.seg k :=
  sget_sput_other _ s.maps.segs n k g h

/-- Source i of a fold into n, linked to it. -/
def linkedTo (n gen i : Nat) (g : Seg) : Seg := { g with linked := true, tgtSeg := n, tgtGen := gen, q := i }

/-- Linking the sources of a fold leaves its target what it is. -/
theorem fold_target_linked {n m gen : Nat} {l : List Nat} (q : List (Nat × Nat)) (h : (s.seg n).isFold = true ∧ (s.seg n).sources = l) :
    ((q.foldl (fun s p => s.setSeg p.1 (linkedTo m gen p.2 (s.seg p.1))) s).seg n).isFold = true ∧
      ((q.foldl (fun s p => s.setSeg p.1 (linkedTo m gen p.2 (s.seg p.1))) s).seg n).sources = l := by
  refine List.foldlRecOn q _ (motive := fun (u : State) => (u.seg n).isFold = true ∧ (u.seg n).sources = l) h fun u hu p _ => ?_
  by_cases hp : n = p.1
  · have hne : linkedTo m gen p.2 (u.seg p.1) ≠ {} := fun h0 => Bool.noConfusion (congrArg Seg.linked h0)
    rw [← hp, seg_setSeg_of_ne (hp ▸ hne)]
    exact hu
  · rw [seg_setSeg_other _ _ hp]
    exact hu

/-- A fold of the sources q into segment n, whose records are journalled, with the data it folds. -/
def foldSetUp (u : State) (n : Nat) (g0 : Seg) (q : List Nat) (tiles : List (List Bytes)) : State :=
  let gen := (u.seg n).gen
  let u := u.setSeg n { u.seg n with pool := g0.pool, d := g0.d, basegen := g0.basegen, row := g0.row, isFold := true, sources := q }
  let u := q.zipIdx.foldl (fun u p => u.setSeg p.1 (linkedTo n gen p.2 (u.seg p.1))) u
  { u with sgb := { u.sgb with opens := aset u.sgb.opens n { fold := true, closed := true, tiles := tiles } } }

theorem foldSetUp_seg (u : State) (n : Nat) (g0 : Seg) (q : List Nat) (tiles : List (List Bytes)) :
    ((foldSetUp u n g0 q tiles).seg n).isFold = true ∧ ((foldSetUp u n g0 q tiles).seg n).sources = q := by
  refine fold_target_linked _ ?_
  rw [seg_setSeg_of_ne fun h0 => Bool.noConfusion (congrArg Seg.isFold h0)]
  exact ⟨rfl, rfl⟩

/-- What a fold programs, unit by unit and tile by tile, from the codewords read. -/
def foldTiles (got : List (Nat × Bytes)) (d : Nat) : List (List Bytes) :=
  (List.range (d + 2)).map (fun k => (List.range 4).map (fun t => (List.range 16).flatMap (fun c => (aget got (cwKey k t c)).getD [])))

/-- A fold whose sources are all read is journalled, linked and set up, closed, with the data it folds. -/
theorem foldStart_folds {q0 q1 q2 q3 new : Fin 33554432} {got : List (Nat × Bytes)} (hq : s.quadOk [q0, q1, q2, q3] = true) (h0 : (s.seg new).state = 0)
    (hn : new.val ≠ 0) (hown : s.mode = .solo ∨ new.val % 2 = s.head) (hp : s.mayProgram = true) (hb : s.blockOn Pg.FMM = true)
    (hd : s.dirtySegs < s.rf R.SGB.CFG.MAX_DIRTY)
    (hall : ∀ k t c, k < (s.seg q0).d + 2 → t < 4 → c < 16 → (aget got (cwKey k t c)).isSome = true)
    (hj : s.journal [rSegState new (s.seg new).gen (s.seg q0).kind 0 1, rDirty new false true] = (true, u)) : ∃ v : State,
    exec (.foldStart q0 q1 q2 q3 new got) s = .next v.pumpSegs ∧ (v.seg new).isFold = true ∧ (v.seg new).sources = [q0.val, q1, q2, q3] ∧
    ∃ o : OpenSeg, aget v.sgb.opens new = some o ∧ o.fold = true ∧ o.closed = true ∧ o.tiles.length = (s.seg q0).d + 2 := by
  have hguard : (s.quadOk [q0, q1, q2, q3] && (s.seg new).state == 0 && new.val != 0 && (s.mode == .solo || new.val % 2 == s.head) && s.mayProgram && s.blockOn Pg.FMM
      && decide (s.dirtySegs < s.rf R.SGB.CFG.MAX_DIRTY)) = true := by
    simp only [hq, h0, hp, hb, decide_eq_true hd, Bool.and_true, Bool.true_and, beq_self_eq_true, Bool.and_eq_true, bne_iff_ne, Bool.or_eq_true, beq_iff_eq]
    exact ⟨hn, hown⟩
  have hbad : (List.range ((s.seg q0).d + 2)).flatMap (fun k => ((List.range 4).filter (fun t => (List.range 16).any (fun c => (aget got (cwKey k t c)).isNone))).map
      (fun t => (k, t))) = [] := by
    refine List.flatMap_eq_nil_iff.2 fun k hk => List.map_eq_nil_iff.2 (List.filter_eq_nil_iff.2 fun t ht => ?_)
    rw [Bool.not_eq_true, List.any_eq_false]
    intro c hc
    rw [Option.isNone_iff_eq_none, ← Option.not_isSome_iff_eq_none, not_not]
    exact hall k t c (List.mem_range.1 hk) (List.mem_range.1 ht) (List.mem_range.1 hc)
  have hexec : exec (.foldStart q0 q1 q2 q3 new got) s =
      .next (foldSetUp u new (s.seg q0) [q0.val, q1, q2, q3] (foldTiles got (s.seg q0).d)).pumpSegs := by
    simp only [exec_foldStart, execFoldStart, hguard, Bool.not_true, Bool.false_eq_true, if_false, hbad, bne_self_eq_false, hj]
    rfl
  refine ⟨_, hexec, (foldSetUp_seg ..).1, (foldSetUp_seg ..).2, _, aget_aset_same .., rfl, rfl, ?_⟩
  rw [foldTiles, List.length_map, List.length_range]

end

section
variable {s u : State}

/-- A fold whose units are all durable or lost, and known to the partner, is done. -/
theorem foldUnitsDurable_done {seg : Fin 33554432} {o : OpenSeg} (ho : aget s.sgb.opens seg = some o) (hf : o.fold = true) (hi : o.issued = true)
    (hack : s.mirrors = false ∨ o.ptSeq ≤ s.fmm.ptAck) (hall : ∀ k < (s.seg seg).d + 2, k ∈ o.durable ∨ k ∈ o.absent) :
    exec (.foldUnitsDurable seg) s = .next (if o.absent ≠ [] then s.foldAbort seg o.absent.length else s.foldSeal seg) := by
  have hall' : (List.range ((s.seg seg).d + 2)).all (fun k => o.durable.contains k || o.absent.contains k) = true := by
    simpa only [List.all_eq_true, List.mem_range, Bool.or_eq_true, List.contains_iff_mem] using hall
  have hack' : (!s.mirrors || decide (o.ptSeq ≤ s.fmm.ptAck)) = true := by
    simpa only [Bool.or_eq_true, Bool.not_eq_true', decide_eq_true_eq] using hack
  simp only [exec_foldUnitsDurable, execFoldUnitsDurable, ho, hf, hi, hall', hack', Bool.and_true, Bool.not_true, Bool.false_eq_true, if_false]
  exact (apply_ite Host.Outcome.next ..).symm

theorem foldRetireSource_retires {seg : Fin 33554432} (h4 : (s.seg seg).state = 4) (hown : s.ownsSeg seg = true) (hv : (s.seg seg).valid = 0) (hk : (s.seg seg).kind ≠ 4)
    (hct : ∀ e ∈ s.maps.ct, ¬(locSeg e.2.loc = seg.val ∧ ctFree e.2 = false)) : exec (.foldRetireSource seg) s = .next (s.segTo seg 7) := by
  have hgo : ¬((s.seg seg).state ≠ 4 ∨ s.ownsSeg seg = false) := by simp [h4, hown]
  simp only [exec_foldRetireSource, execFoldRetireSource, if_neg hgo, foldMoves_of_unused hct, if_neg hk, if_pos hv]

theorem blockEraseIssue_erases {m die : Fin 64} {block : Fin 8192} {k : Nat} (hk : k = btKey m die block) (hp : s.mayProgram = true) (hm : serving s.mode = true)
    (hd : die.val ∈ s.ownDies m) (hst : (s.blk k).state = 3 ∨ (s.blk k).state = 4) (hu : ∀ n ∈ s.unitsIn m die block, (s.seg n).state = 0)
    (hack : s.mirrors = false ∨ s.fmm.ptSeq ≤ s.fmm.ptAck) (ho : (s.blk k).outRd = 0) (he : (s.blk k).erasing = false) (ha : s.absent m = false)
    {o : Ostamp} {a : Nat} (hi : s.issue (Unit.fmm (m.val / 16)) = (some o, u)) (haw : a = addrWord block 0 0 0 0 false 0 0 0) :
    exec (.blockEraseIssue m die block) s = .next ((u.setBlk k { s.blk k with erasing := true }).jReq m opErase die a 0 [le a 8] (.erase die block)) := by
  have hfree : (s.unitsIn m die block).all (fun n => (s.seg n).state == 0
      || ((s.seg n).state == 7 && (s.seg n).valid == 0 && s.allDurable (s.seg n).retStamp && s.partnerApplied (s.seg n).retStamp)) = true :=
    List.all_eq_true.2 fun n hn => by rw [hu n hn]; rfl
  have hst' : (s.blk k).state == 3 || (s.blk k).state == 4 := by simpa using hst
  have hack' : (!s.mirrors || decide (s.fmm.ptSeq ≤ s.fmm.ptAck)) = true := by
    simpa only [Bool.or_eq_true, Bool.not_eq_true', decide_eq_true_eq] using hack
  have hused : (((s.blk k).state == 7 && (s.blk k).wl != 0 && !s.bsv.gondolaValid) || (s.blk k).state == 3 || (s.blk k).state == 4
      || (((s.blk k).state == 1 || (s.blk k).state == 2) && (s.blk k).wl == 64)) = true := by
    rw [Bool.or_assoc (_ && _ && _), hst', Bool.or_true, Bool.true_or]
  simp only [exec_blockEraseIssue, execBlockEraseIssue, ← hk, hp, hm, List.contains_iff_mem.2 hd, hused, hfree, hack', ho, he, ha, Bool.not_false, beq_self_eq_true,
    Bool.and_true, if_true, hi, haw]

/-- What programming a unit leaves: nothing where it found no place. -/
def programmedOr (s : State) : Option (Bool × State) → State
  | some (_, v) => v
  | none => s

/-- A unit that has a cause to move is programmed again from the codewords read. -/
theorem pageMove_moves {m : Fin 64} {seg : Fin 33554432} {got : List (Nat × Bytes)} {unit e : Nat} (hu : s.unitOn seg m = some unit)
    (he : e = agetD s.fmm.pt (ptKey m seg 0 0) 0) (hv : ptValid e = true) (hd : ptDie e ∈ s.ownDies m) (ha : s.absent m = false)
    (hc : s.moveCause m (ptDie e) (ptBlock e) = true) (hr : s.jlk.reqs = [])
    (hg : ∀ i < (if (s.seg seg).isFold then 4 else 1) * 16, (aget got i).isSome = true) : ∃ data : List Bytes,
    exec (.pageMove m seg got) s = .next (programmedOr s (s.progUnit m seg unit data false (.move (ptKey m seg 0 0) 0))) ∧
      data.length = if (s.seg seg).isFold then 4 else 1 := by
  refine ⟨(List.range (if (s.seg seg).isFold then 4 else 1)).map (fun t => (List.range 16).flatMap (fun c => (aget got (t * 16 + c)).getD [])), ?_,
    by rw [List.length_map, List.length_range]⟩
  have hwhole : (List.range ((if (s.seg seg).isFold then 4 else 1) * 16)).all (fun i => (aget got i).isSome) = true :=
    List.all_eq_true.2 fun i hi => hg i (List.mem_range.1 hi)
  simp only [exec_pageMove, execPageMove, hu, ← he, hv, List.contains_iff_mem.2 hd, ha, hc, hwhole, hr, List.any_nil, Bool.not_false, Bool.and_true, if_true]
  rfl

/-- s after a patrol read of page table entry e, noted under key k. -/
def patrolled (s : State) (m e k : Nat) : State :=
  let u := s.noteRead m e
  { u with fmm := { u.fmm with mods := aupd u.fmm.mods m (fun x => { x with patrol := aset x.patrol k (u.now + 1) }) } }

/-- A unit never patrolled is read, and its module notes when. -/
theorem patrolRead_due {m : Fin 64} {seg : Fin 33554432} {tile plane : Fin 4} {e : Nat} {x : Mod} (he : e = agetD s.fmm.pt (ptKey m seg tile plane) 0)
    (hv : ptValid e = true) (ha : s.absent m = false) (hd : ptDie e ∈ s.ownDies m) (hx : aget s.fmm.mods m = some x)
    (hp : aget x.patrol (ptKey 0 seg tile plane) = none) : ∃ v : State,
    exec (.patrolRead m seg tile plane true) s = .next v ∧
    exec (.patrolRead m seg tile plane false) s = .next (((v.inc R.FMM.CNT_PATROL_UNREC.COUNT).ptClear m seg).raise Pg.FMM 2) ∧ v.maps = s.maps ∧
      v.regs = (s.noteRead m e).regs := by
  have hlast : agetD (agetD s.fmm.mods m.val { dies := 0 }).patrol (ptKey 0 seg tile plane) 0 = 0 := by
    rw [agetD, agetD, hx, Option.getD_some, hp, Option.getD_none]
  have hgo : ∀ ok, execPatrolRead m seg tile plane ok s = .next (if ok then patrolled s m e (ptKey 0 seg tile plane)
      else (((patrolled s m e (ptKey 0 seg tile plane)).inc R.FMM.CNT_PATROL_UNREC.COUNT).ptClear m seg).raise Pg.FMM 2) := by
    intro ok
    simp only [execPatrolRead, ← he, hlast, hv, ha, List.contains_iff_mem.2 hd, Bool.not_false, Bool.and_true, beq_self_eq_true, Bool.true_or, if_true]
    rfl
  exact ⟨_, hgo true, hgo false, rfl, rfl⟩

theorem dieRecordWrite_writes {m die : Fin 64} (hd : die.val ∈ s.ownDies m) (ha : s.absent m = false) (hp : s.mayProgram = true) :
    exec (.dieRecordWrite m die) s = .next (s.writeDieRecord m die) := by
  simp only [exec_dieRecordWrite, execDieRecordWrite, List.contains_iff_mem.2 hd, ha, hp, Bool.not_false, Bool.and_true, if_true]

end

/-- Settles O33: each instruction in the case its rule names; a fold's end moves nothing where nothing lies in its sources, as records of segments move no content. -/
theorem mediaCompletes : Obligations.MediaCompletes := by
  refine ⟨fun seg pool row away p s w hw hp hm hr => ⟨segmentOpen_chunk hw hp hm hr, fun u v hc ha hj hv => segmentOpen_opens hw hp hm hr hc ha hj hv⟩,
    fun seg recs s u hc hb hu h6 => gcStart_drains hc hb hu h6,
    fun seg r s u h2 hr hf hg hl hj v w hv hw => gcRelocateCommit_moves h2 hr hf hg hl hj hv hw,
    fun q0 q1 q2 q3 new got s u hq h0 hn hown hp hb hd hall hj => foldStart_folds hq h0 hn hown hp hb hd hall hj, ?_,
    fun seg s h4 hown hv hk hct => foldRetireSource_retires h4 hown hv hk hct,
    fun m die block k s hk hp hm hd hst hu hack ho he ha o u a hi haw => blockEraseIssue_erases hk hp hm hd hst hu hack ho he ha hi haw,
    fun m seg got unit e s hu he hv hd ha hc hr hg => pageMove_moves hu he hv hd ha hc hr hg,
    fun m seg tile plane e x s he hv ha hd hx hp => patrolRead_due he hv ha hd hx hp, fun m die s hd ha hp => dieRecordWrite_writes hd ha hp⟩
  intro seg o s ho hf hi hack hall
  have hdone := foldUnitsDurable_done ho hf hi hack hall
  refine ⟨fun habs => by rw [hdone, if_pos habs], fun habs => by rw [hdone, if_neg (not_not_intro habs)], fun u habs hct hk hdir hj => ?_⟩
  rw [hdone, if_neg (not_not_intro habs), foldSeal_of_unused hct hk hdir hj]

end Sys2Proof.Proofs
end

section
/-! Training of Jonan links, and O35 (R423, R427 to R430, R454). -/
namespace Sys2Proof.Proofs
open Sys2Proof Sys2Proof.Machine Sys2Proof.Laws

section
variable {p : Fin 64} {e : LinkEnd} {s : State}

/-- The head's own ends are the first 64. -/
@[simp] theorem isHead_position (p : Fin 64) : isHead p.val = true := decide_eq_true p.isLt

theorem signalDetect_trains (he : e = s.linkEnd p) (hst : e.state = lDown) (hl : s.pins.lanesEnabled = true) (hp : p.val < positionsOf s.fuses.variant) :
    exec (.signalDetect (.jonan p)) s = .next (s.setEnd p { e with state := lTrain, rate := 1, lanes := 0, reason := 0, since := s.now }) := by
  have hd : s.jDetect p = s.setEnd p { e with state := lTrain, rate := 1, lanes := 0, reason := 0, since := s.now } := by
    simp only [State.jDetect, ← he, hst, State.lanesOk, isHead_position, hl, decide_eq_false (Nat.not_le.2 hp), Bool.and_false]
    simp
  exact congrArg _ hd

theorem laneTrained_aligns (he : e = s.linkEnd p) {l : Fin 32} (hl : l.val < 2) (hst : e.state = lTrain ∨ e.state = lAlign) (hf : s.laneFenced p l = false) :
    exec (.laneTrained (.jonan p) l) s = .next (s.setEnd p { e with state := lAlign, lanes := setBit e.lanes l true }) := by
  have hj : s.jLane p l = s.setEnd p { e with state := lAlign, lanes := setBit e.lanes l true } := by
    simp only [State.jLane, ← he, if_pos (And.intro hst hf)]
  exact (if_pos hl).trans (congrArg _ hj)

theorem alignLock_negotiates (he : e = s.linkEnd p) (bad : BitVec 32) (hst : e.state = lAlign) (h0 : s.laneFenced p 0 = false) (h1 : s.laneFenced p 1 = false) :
    exec (.alignLock (.jonan p) 3 bad) s = .next (s.setEnd p { e with state := lNegotiate, lanes := 3, since := s.now, trainGot := false, trainAt := none }) := by
  have hr : List.range 2 = [0, 1] := rfl
  have hb : bit 3 0 = true ∧ bit 3 1 = true := ⟨rfl, rfl⟩
  have hj (ms : Nat) : s.jAlign p 3 ms = s.setEnd p { e with state := lNegotiate, lanes := 3, since := s.now, trainGot := false, trainAt := none } := by
    simp [State.jAlign, ← he, hst, hr, h0, h1, hb, sumL]
  exact congrArg _ (hj _)

theorem trainSendTick_sends (he : e = s.linkEnd p) (hst : e.state = lNegotiate) (hg : e.trainGot = false) (ht : e.trainAt = none) :
    exec (.trainSendTick (.jonan p)) s = .next ((s.setEnd p { e with trainAt := some s.now }).jSendU p { typ := fTrain, payload := s.trainPayload p }) := by
  have hj : s.trainTick p = (s.setEnd p { e with trainAt := some s.now }).jSendU p { typ := fTrain, payload := s.trainPayload p } := by
    simp [State.trainTick, ← he, hst, hg, ht]
  exact congrArg _ hj

section
variable {vers port lanes rxcred t0 lo hi : Nat} (he : e = s.linkEnd p) (hst : e.state = lNegotiate) (ht : e.trainAt = some t0) (hv : (lo, hi) = s.verRange p)
include he hst ht hv

/-- The partner's TRAIN, once this end has sent its own: the highest common version, or none. -/
theorem jTrain_decides : s.jTrain p vers port rxcred =
    if min hi (vers / 16 % 16) < max lo (vers % 16) then (false, s.setEnd p { e with state := lDown, reason := 2, lanes := 0, rate := 0, since := s.now })
    else (true, s.setEnd p { e with state := lActive, ver := min hi (vers / 16 % 16), peer := port, trainGot := true, txCred := rxcred, rxCred := s.advertised p
                                    txNext := 0, rxNext := 0, unack := [], queue := [], owed := 0, nakAt := none, ackDue := none, replays := 0, since := s.now }) := by
  simp [State.jTrain, ← he, hst, ht, ← hv]

theorem train_agrees (hl : lanes % 4 ≠ 0) (hc : max lo (vers % 16) ≤ min hi (vers / 16 % 16)) : exec (.train (.jonan p) vers 1 port lanes rxcred) s =
    .next (State.admStart (s.setEnd p { e with state := lActive, ver := min hi (vers / 16 % 16), peer := port, trainGot := true, txCred := rxcred, rxCred := s.advertised p
                                               txNext := 0, rxNext := 0, unack := [], queue := [], owed := 0, nakAt := none, ackDue := none, replays := 0, since := s.now }) p) := by
  have hj := (jTrain_decides (vers := vers) (port := port) (rxcred := rxcred) he hst ht hv).trans (if_neg (Nat.not_lt.2 hc))
  simp [execTrain, endKey, hl, hj]

theorem train_disagrees (hl : lanes % 4 ≠ 0) (hc : min hi (vers / 16 % 16) < max lo (vers % 16)) : exec (.train (.jonan p) vers 1 port lanes rxcred) s =
    .next (((s.setEnd p { e with state := lDown, reason := 2, lanes := 0, rate := 0, since := s.now }).raise (posPage p) 3).admFail p 2) := by
  have hj := (jTrain_decides (vers := vers) (port := port) (rxcred := rxcred) he hst ht hv).trans (if_pos hc)
  simp [execTrain, endKey, hl, hj, linkEnd_setEnd_same]

end

theorem retrainEntry_retrains (he : e = s.linkEnd p) {loss : Fin 3} (hst : e.state = lActive) (hl : loss = 0 → s.rf (R.JLK.CFG.RETRY_MAX (posInst p)) ≤ e.replays) :
    exec (.retrainEntry (.jonan p) loss) s =
      .next ((s.setEnd p { e with state := lRetrain, since := s.now, cntRetrain := satAdd 32 e.cntRetrain 1 }).raise (posPage p) 1) := by
  have hgo : ¬(e.state ≠ lActive ∨ (loss.val = 0 ∧ e.replays < s.rf (R.JLK.CFG.RETRY_MAX (posInst p)))) := by
    rintro (h | ⟨h0, hr⟩)
    · exact h hst
    · exact absurd (hl (Fin.ext h0)) (Nat.not_le.2 hr)
  simp only [exec_retrainEntry, execRetrainEntry, endKey, isHead_position, if_true, ← he, if_neg hgo]

end

/-- Settles O35: each transition of Table 11-3 on an end of the head. -/
theorem jonanTrainingCompletes : Obligations.JonanTrainingCompletes := by
  intro p e s he
  refine ⟨fun hst hl hp => signalDetect_trains he hst hl hp, fun hst ht hr => ?_, fun hst ht hr => ?_, fun l hl hst hf => laneTrained_aligns he hl hst hf,
    fun bad hst h0 h1 => alignLock_negotiates he bad hst h0 h1, fun hst hg ht => trainSendTick_sends he hst hg ht, fun vers port lanes rxcred t0 lo hi hst ht hl hv =>
      ⟨fun hc => train_agrees he hst ht hv hl hc, fun hc => train_disagrees he hst ht hv hl hc⟩, fun loss hst hl => retrainEntry_retrains he hst hl, fun hst ht => ?_, rfl⟩
  · simp only [exec_trainRateTimeout, execTrainRateTimeout, endKey, ← he, if_pos (And.intro hst ht), if_pos hr]
  · simp only [exec_trainRateTimeout, execTrainRateTimeout, endKey, ← he, if_pos (And.intro hst ht), if_neg (Nat.not_lt.2 hr)]
  · simp only [exec_retrainTimeout, execRetrainTimeout, endKey, ← he, isHead_position, if_true, if_pos (And.intro hst ht)]

end Sys2Proof.Proofs
end

section
/-! Training of Carid, and O36 (R457 to R466, R472, R622). -/
namespace Sys2Proof.Proofs
open Sys2Proof Sys2Proof.Machine Sys2Proof.Laws

/-! ## HELLO -/

/-- s once a MAC was checked and, with gcm, the two link keys were made. -/
def helloDigests (s : State) (mac gcm : Bool) : State :=
  let s := if mac then (s.dgeRan 1).cmpRan else s
  if gcm then s.dgeRan 2 else s

/-- s with the link up at version ver. -/
def linkUp (s : State) (ver gcm : Nat) : State := ((s.wf R.CPL.LINK_STAT.STATE lActive).wf R.CPL.LINK_STAT.VER ver).wf R.CPL.LINK_STAT.GCM gcm

/-- s with the partner state of a link that is up anew, under the keys tx and rx. -/
def linkFresh (s : State) (h : Hello) (tx rx : Bytes) : State :=
  let s := s.updCpl (fun c => { c with
    since := s.now, keyAt := s.now, pNonce := h.nonce, pLanes := h.lanes, txKey := tx, rxKey := rx, rehello := false
    xseq := 0, rxNext := 0, uctr := 0, queue := [], unack := [], rxNew := none, txNew := none
    txCred := [cMirror, cDelta, cForward, cAdmin].zip h.creds, rxCred := [cMirror, cDelta, cForward, cAdmin].zip cCredits
    owed := [], nakAt := none, ackDue := none, replays := 0 })
  { s with fmm := { s.fmm with ptSeq := 0, ptAck := 0, ptIn := 0 } }

theorem helloDigests_regsWf {s : State} (mac gcm : Bool) (h : s.regsWf = true) : (helloDigests s mac gcm).regsWf = true := by
  unfold helloDigests
  refine of_ite (P := fun (u : State) => u.regsWf = true) (regs_wf _ _ _ ?_) ?_ <;>
    exact of_ite (P := fun (u : State) => u.regsWf = true) (regs_wf _ _ _ (regs_wf _ _ _ h)) h

theorem helloDigests_maps (s : State) (mac gcm : Bool) : (helloDigests s mac gcm).maps = s.maps := by
  unfold helloDigests
  refine of_ite (P := fun (u : State) => u.maps = s.maps) (wf_maps _ _ _ |>.trans ?_) ?_ <;>
    exact of_ite (P := fun (u : State) => u.maps = s.maps) ((wf_maps ..).trans (wf_maps ..)) rfl

/-- Making and checking MACs counts them and leaves other registers. -/
theorem helloDigests_rf {s : State} (mac gcm : Bool) (f : Fld) (h : s.regsWf = true) (hm : apart R.DGE.CNT_MSG.COUNT f = true) (hc : apart R.DGE.CNT_CMP.COUNT f = true) :
    (helloDigests s mac gcm).rf f = s.rf f := by
  have hmsg (n : Nat) {u : State} (hu : u.regsWf = true) : (u.dgeRan n).rf f = u.rf f := rf_wf_apart _ _ _ _ hu hm
  have h1 : (s.dgeRan 1).cmpRan.rf f = s.rf f := (rf_wf_apart _ _ _ _ (regs_wf _ _ _ h) hc).trans (hmsg 1 h)
  have hmac : (if mac then (s.dgeRan 1).cmpRan else s).rf f = s.rf f := of_ite (P := fun (u : State) => u.rf f = s.rf f) h1 rfl
  have hw : (if mac then (s.dgeRan 1).cmpRan else s).regsWf = true := helloDigests_regsWf mac false h
  exact of_ite (P := fun (u : State) => u.rf f = s.rf f) ((hmsg 2 hw).trans hmac) hmac

theorem helloDigests_cMax {s : State} (mac gcm : Bool) (h : s.regsWf = true) : (helloDigests s mac gcm).cMax = s.cMax := by
  have hbsv : (helloDigests s mac gcm).bsv = s.bsv := by
    unfold helloDigests
    cases mac <;> cases gcm <;> simp [State.dgeRan, State.cmpRan]
  simp only [State.cMax, State.runsTrial, State.bootRecord, State.flag, hbsv, helloDigests_rf mac gcm R.CPL.CFG.MAX_VER h (by decide) (by decide),
    helloDigests_rf mac gcm R.BSV.BOOT_STAT.TRIAL h (by decide) (by decide)]
  rfl

theorem linkUp_regsWf {s : State} (ver gcm : Nat) (h : s.regsWf = true) : (linkUp s ver gcm).regsWf = true := regs_wf _ _ _ (regs_wf _ _ _ (regs_wf _ _ _ h))

section
variable {s : State} (ver gcm : Nat) (h : s.regsWf = true)
include h

theorem linkUp_state : (linkUp s ver gcm).rf R.CPL.LINK_STAT.STATE = lActive := by
  rw [linkUp, rf_wf_apart _ _ R.CPL.LINK_STAT.STATE _ (regs_wf _ _ _ (regs_wf _ _ _ h)) (by decide),
    rf_wf_apart _ _ R.CPL.LINK_STAT.STATE _ (regs_wf _ _ _ h) (by decide), rf_wf_same _ _ _ h]
  rfl

theorem linkUp_ver : (linkUp s ver gcm).rf R.CPL.LINK_STAT.VER = ver % 16 := by
  rw [linkUp, rf_wf_apart _ _ R.CPL.LINK_STAT.VER _ (regs_wf _ _ _ (regs_wf _ _ _ h)) (by decide), rf_wf_same _ _ _ (regs_wf _ _ _ h)]
  rfl

theorem linkUp_gcm : (linkUp s ver gcm).rf R.CPL.LINK_STAT.GCM = gcm % 2 := by
  rw [linkUp, rf_wf_same _ _ _ (regs_wf _ _ _ (regs_wf _ _ _ h))]
  rfl

end

section
variable {h : Hello} {t0 : Nat} {s : State}

theorem hello_fails (hst : s.rf R.CPL.LINK_STAT.STATE = lNegotiate) (hm : s.mode ≠ .boot) (ht : s.cpl.helloAt = some t0) (hn : s.cpl.nonce ≠ [])
    (hc : s.helloCheck h ≠ 0) :
    exec (.hello h) s = .next (State.helloFail (if s.pairKey.isSome && bit h.flags 1 then (s.dgeRan 1).cmpRan else s) (s.helloCheck h)) := by
  have hgo : ¬(s.rf R.CPL.LINK_STAT.STATE ≠ lNegotiate ∨ s.mode = .boot) := by simp [hst, hm]
  simp only [exec_hello, execHello, if_neg hgo, ht, Option.isNone_some, Bool.false_eq_true, if_false, if_neg hn, if_pos hc]

/-- A HELLO that passes its checks brings the link up. -/
theorem hello_linksUp (hst : s.rf R.CPL.LINK_STAT.STATE = lNegotiate) (hm : s.mode ≠ .boot) (ht : s.cpl.helloAt = some t0) (hn : s.cpl.nonce ≠ [])
    (hc : s.helloCheck h = 0) (hr : s.cpl.rehello = false) : ∃ (mac gcm : Bool) (tx rx : Bytes), gcm = (State.flag (helloDigests s mac false) R.CPL.CFG.GCM_REQ || bit h.flags 0) ∧
      exec (.hello h) s = .next (linkFresh (linkUp (helloDigests s mac gcm) (min (helloDigests s mac false).cMax (h.vers / 16)) (b2n gcm)) h tx rx).pumpCarid.pumpFwd := by
  have hgo : ¬(s.rf R.CPL.LINK_STAT.STATE ≠ lNegotiate ∨ s.mode = .boot) := by simp [hst, hm]
  have hr' (b : Bool) : (if b then (s.dgeRan 1).cmpRan else s).cpl.rehello = false := by
    cases b
    · exact hr
    · exact hr
  refine ⟨s.pairKey.isSome && bit h.flags 1, _, ?_, ?_, rfl, ?_⟩
  rotate_left 2
  · simp only [exec_hello, execHello, if_neg hgo, ht, Option.isNone_some, Bool.false_eq_true, if_false, if_neg hn, hc, ne_eq, not_true, hr', false_and]
    rfl

end

/-! ## Keys -/

section
variable {s : State} (hst : s.rf R.CPL.LINK_STAT.STATE = lActive)
include hst

theorem caridRetrain_of_active (rehello : Bool) : s.caridRetrain rehello =
    (((s.wf R.CPL.LINK_STAT.STATE lRetrain).updCpl (fun c => { c with since := s.now, rehello := rehello })).inc R.CPL.CNT_RETRAIN.COUNT).raise Pg.CPL 1 :=
  if_neg (not_not_intro hst)

variable (hg : s.flag R.CPL.LINK_STAT.GCM = true) (hn : s.cpl.txNew = none)
  (ht : s.cpl.keyAt + s.rf R.CPL.CFG2.REKEY_H * 3600 * 1000000000 ≤ s.now) (hr : s.rf R.SEC.STAT.RNG ≠ 0)
include hg hn ht hr

theorem rekeyTimer_retrains (hv : s.rf R.CPL.LINK_STAT.VER < 2) : exec .rekeyTimer s = .next (s.caridRetrain true) := by
  simp only [exec_rekeyTimer, execRekeyTimer, hst, hg, hn, decide_eq_true ht, Bool.or_true, Bool.not_true, Bool.or_false, Option.isSome_none, ne_eq, not_true,
    decide_false, Bool.false_eq_true, if_false, if_neg hr, if_pos hv]

theorem rekeyTimer_rekeys {k : Bytes} (hv : 2 ≤ s.rf R.CPL.LINK_STAT.VER) (hk : s.pairKey = some k) : ∃ (u : State) (n : Bytes),
    exec .rekeyTimer s = .next (u.sendC (.rekey n (s.cpl.xseq + s.cpl.queue.length + 1))) ∧ u.cpl.nonce = n ∧ u.cpl.txNew.isSome = true ∧
      u.regs = (s.dgeRan 1).regs := by
  simp only [exec_rekeyTimer, execRekeyTimer, hst, hg, hn, decide_eq_true ht, Bool.or_true, Bool.not_true, Bool.or_false, Option.isSome_none, ne_eq, not_true,
    decide_false, Bool.false_eq_true, if_false, if_neg hr, if_neg (Nat.not_lt.2 hv), hk]
  exact ⟨_, _, rfl, rfl, rfl, rfl⟩

end

/-- Settles O36: each transition on Carid; a HELLO that passes its checks brings the link up with what it agreed. -/
theorem caridTrainingCompletes : Obligations.CaridTrainingCompletes := by
  refine ⟨fun s hst hl hv hm => ?_, fun s hst ht => if_pos ⟨hst, ht⟩, fun l s hst hl => ?_, fun lanes s => ?_, fun s hst hm hp hh => ?_, ?_, ?_, ?_,
    fun s hst ht => if_pos ⟨hst, ht⟩, fun s hst => if_neg hst⟩
  · simp [execSignalDetect, hst, hl, hv, hm]
  · exact if_pos ⟨hst, by simpa using hl⟩
  · have hnone : onesBelow (BitVec.toNat (0 : BitVec 32)) 32 = [] := rfl
    simp only [exec_alignLock, execAlignLock, hnone, List.filter_nil, List.foldl_nil, ite_self]
  · simp [execHelloSendTick, hst, hm, hp, hh]
  · refine fun h t0 s hst hm ht hn => ⟨fun hc => hello_fails hst hm ht hn hc, fun hw hc hr => ?_⟩
    obtain ⟨mac, gcm, tx, rx, hgcm, hx⟩ := hello_linksUp hst hm ht hn hc hr
    have hwd := helloDigests_regsWf mac gcm hw
    rw [helloDigests_cMax mac false hw] at hx
    refine ⟨_, hx, linkUp_state _ _ hwd, linkUp_ver _ _ hwd, (linkUp_gcm _ _ hwd).trans ?_, rfl, rfl, rfl, rfl, rfl, ?_⟩
    · rw [hgcm, State.flag, helloDigests_rf mac false _ hw (by decide) (by decide)]
      exact Nat.mod_eq_of_lt (of_ite (P := fun n => n < 2) (by decide) (by decide))
    · exact ((wf_maps ..).trans ((wf_maps ..).trans (wf_maps ..))).trans (helloDigests_maps s mac gcm)
  · refine fun s hst => ⟨fun rekey hv => ?_, fun hg hn ht hr hv => rekeyTimer_retrains hst hg hn ht hr hv, fun k hg hn ht hr hv hk => rekeyTimer_rekeys hst hg hn ht hr hv hk⟩
    have hgo : ¬((rekey && decide (2 ≤ s.rf R.CPL.LINK_STAT.VER)) = true) := by
      rw [Bool.and_eq_true, decide_eq_true_eq, not_and, Nat.not_le]
      exact hv
    exact (if_neg hgo).trans (congrArg _ (caridRetrain_of_active hst rekey))
  · intro h nonce x k s u hc hk
    simp only [exec_rekey, execRekey, hc, hk]
    exact ⟨_, rfl, rfl, ⟨_, rfl⟩, rfl⟩

end Sys2Proof.Proofs
end

section
/-! Link frames of no request, and O37 (R413, R431, R432, R436, R437, R440, R441, R449, R450). -/
namespace Sys2Proof.Proofs
open Sys2Proof Sys2Proof.Machine Sys2Proof.Laws

/-! ## What a NAK's counting leaves unchanged -/

/-- What was sent and not acknowledged is not touched when a head is muted. -/
theorem muteDies_unack (s : State) (i : Nat) : (s.muteDies.linkEnd i).unack = (s.linkEnd i).unack := by
  simp only [State.muteDies, State.linkEnd, agetD, aget_amap]
  cases aget s.jlk.ends i with
  | none => rfl
  | some e =>
    simp only [Option.map_some, Option.getD_some]
    split <;> rfl

/-- A predicate on what an end has sent survives every occurrence. -/
theorem unack_kept (p i : Nat) (l : List (Nat × JFrame)) : FaultKept p (fun t => (t.linkEnd i).unack = l) where
  field {s f v} h _ := by rw [State.linkEnd, wf_jlk]; exact h
  fence {s f v} h _ := by rw [State.linkEnd, wf_jlk]; exact h
  stat {s q c} h := by rw [State.linkEnd, of_calm State.jlk (fun _ => rfl) (calm_setErrStat s q c)]; exact h
  event {s t u d} h := by rw [State.linkEnd, evrEvent_jlk]; exact h
  mute {s} h := by rw [muteDies_unack]; exact h
  stamps h := h
  fcl h _ _ := h
  irq h := h
  emit h := h
  serve h := h

theorem nakCount_unack (s : State) (i code : Nat) : ((s.nakCount i code).linkEnd i).unack = (s.linkEnd i).unack := by
  unfold State.nakCount
  refine of_ite (P := fun t : State => (t.linkEnd i).unack = (s.linkEnd i).unack) rfl ?_
  refine ((unack_kept _ i _).occur rfl rfl).trans ?_
  rw [linkEnd_updEnd_same]
  split_ifs <;> rfl

theorem nakCount_maps (s : State) (i code : Nat) : (s.nakCount i code).maps = s.maps :=
  of_ite (P := fun t : State => t.maps = s.maps) rfl (raise_maps _ _ _)

theorem jonanNak_replays {sel : LinkSel} {h : JHdr} {code : Fin 256} {s u : State} (hr : s.jRecv (endKey sel) { h with typ := fNak } = (true, u)) :
    ∃ v : State, exec (.jonanNak sel h code) s = .next ((v.rewind (endKey sel)).pumpEnd (endKey sel)) ∧
      (v.linkEnd (endKey sel)).unack = (u.linkEnd (endKey sel)).unack ∧ v.maps = u.maps := by
  simp only [exec_jonanNak, execJonanNak, hr]
  refine ⟨_, rfl, ?_, ?_⟩
  · rw [linkEnd_updEnd_same]
    exact nakCount_unack ..
  · exact nakCount_maps ..

/-! ## The other frames and timers -/

section
variable {p : Fin 64} {s u : State}

theorem jonanAckTimer_idle (hst : (s.linkEnd p).state = lActive) (hd : (s.linkEnd p).ackDue.isSome = true ∨ 0 < (s.linkEnd p).owed) :
    exec (.jonanAckTimer (.jonan p)) s = .next (s.jSendU p { typ := fIdle }) := by
  have hp : p.val ≠ 192 := by omega
  exact (if_neg hp).trans (if_pos (Bool.and_eq_true_iff.2 ⟨decide_eq_true hst, Bool.or_eq_true_iff.2 (hd.imp_right decide_eq_true)⟩))

theorem caridAckTimer_idle (hst : s.rf R.CPL.LINK_STAT.STATE = lActive) (hd : s.cpl.ackDue.isSome = true) :
    exec (.jonanAckTimer .carid) s = .next (s.sendLink .idle) := by
  have hst' : s.rf R.CPL.LINK_STAT.STATE = 5 := hst
  simp only [exec_jonanAckTimer, execJonanAckTimer, endKey, if_true, hst', decide_true, hd, Bool.true_or, Bool.and_self]

theorem caridNak_replays {h : CHdr} {code : Fin 256} {x : Nat} {m : CMsg} {b : CSent} {l : List (Nat × CMsg × CSent)} (hr : s.cRecv cLink h = (true, u))
    (hu : u.cpl.unack = (x, m, b) :: l) :
    exec (.caridNak h code) s = .next (((u.cNakCount (chanOf m) code).updCpl (fun c => { c with replays := c.replays + 1 })).cReplay) := by
  simp only [exec_caridNak, execCaridNak, hr, hu]

theorem eventCmd_takes {h : JHdr} {die : Fin 256} (hr : s.jRecv p { h with typ := fEvent } = (true, u)) :
    exec (.eventCmd p h 1 die) s = .next ((u.freeCred p h.got).modFatal p) ∧
    (die.val < 64 → exec (.eventCmd p h 2 die) s = .next ((u.freeCred p h.got).dieFailed p die)) ∧
    (∀ code : Fin 256, 2 < code.val → exec (.eventCmd p h code die) s = .next (u.freeCred p h.got)) := by
  simp only [exec_eventCmd, execEventCmd, hr]
  refine ⟨if_pos rfl, fun hd => ?_, fun code hc => ?_⟩
  · rw [if_neg (by decide), if_pos ⟨rfl, hd⟩]
  · rw [if_neg (by omega), if_neg (by omega)]

theorem statusPoll_first (hst : (s.linkEnd p).state = lActive) (hv : (s.linkEnd p).ver < 5) (hp : aget s.jlk.pollAt p = none) :
    exec (.statusPoll p) s = .next (State.jReq { s with jlk := { s.jlk with pollAt := aset s.jlk.pollAt p s.now } } p opStatus 0xFFF 0 0 [[]] .poll) := by
  simp only [exec_statusPoll, execStatusPoll, hst, decide_eq_true hv, hp, decide_true, Bool.and_self, if_true]

section
variable {h : JHdr} {tag : Fin 4096} {tgen : Fin 16} {st : Fin 256} {info : Nat} {pl : Bytes} {cws : List CwDec}
  (hr : s.jRecv p { h with typ := fRsp } = (true, u))
include hr

theorem jonanRsp_completes {r : Req} (hq : aget u.jlk.reqs (p.val * 4096 + tag) = some r) (hg : r.gen = tgen.val) (hst : st = 0)
    (hroom : r.op = opRead → (u.takeReq (p.val * 4096 + tag) false).stagingFor r.why = true) : exec (.jonanRsp p h tag tgen st info pl cws) s =
      .next ((((u.takeReq (p.val * 4096 + tag) false).freeCred p h.got).finish p r 0 info pl cws).relPump.settle) := by
  have hroom' : ¬((r.op == opRead && !(u.takeReq (p.val * 4096 + tag) false).stagingFor r.why) = true) := by
    rw [Bool.and_eq_true, beq_iff_eq, Bool.not_eq_true']
    exact fun hb => Bool.noConfusion (hb.2.symm.trans (hroom hb.1))
  have h0 : st.val = 0 := congrArg Fin.val hst
  have h0o : ¬(0 = stOwner) := by decide
  have h0b : ¬(0 = stTagBusy) := by decide
  simp only [exec_jonanRsp, execJonanRsp, hr, hq, hg, h0, ne_eq, not_true, decide_false, if_false, if_neg h0o, if_neg h0b]
  exact if_neg hroom'

theorem jonanRsp_stale (hq : ∀ r, aget u.jlk.reqs (p.val * 4096 + tag) = some r → r.gen ≠ tgen.val) : exec (.jonanRsp p h tag tgen st info pl cws) s =
      .next (((u.freeCred p h.got).updEnd p (fun e => { e with cntStale := satAdd 32 e.cntStale 1 })).raise (posPage p) 6) := by
  simp only [exec_jonanRsp, execJonanRsp, hr]
  split
  · rfl
  · next r hr' => rw [if_pos (hq r hr')]

end

theorem requestTimeout_fails {tag : Fin 4096} {r : Req} (hq : aget s.jlk.reqs (p.val * 4096 + tag) = some r) (hw : ∀ w ∈ s.jlk.wait, w.1 ≠ p.val * 4096 + tag.val)
    (ht : r.at0 + s.rf (R.JLK.CFG.TIMEOUT_MS (posInst p)) * 1000000 ≤ s.now) : exec (.requestTimeout p tag) s = .next (s.failReq (p.val * 4096 + tag)).settle := by
  have hw' : s.jlk.wait.any (fun w => w.1 == p.val * 4096 + tag.val) = false := List.any_eq_false.2 fun w h => by rw [beq_iff_eq]; exact hw w h
  simp only [exec_requestTimeout, execRequestTimeout, hq, hw', decide_eq_true ht, Bool.not_false, Bool.and_self, if_true]

end

/-- The witness round of a link at position m. -/
def witnessOn (w : Bytes) (u : State) (m : Nat) : State :=
  if (u.linkEnd m).state ≠ lActive then u
  else State.jReq (if u.writesWitness then u.jReq m opWitness 0xFFF 0 1 [w] (.wit true) else u) m opWitness 0xFFF 0 0 [[]] (.wit false)

theorem witnessTick_due {inst : Fin 4} {s v : State} {w : Bytes} (he : s.flag (R.JLK.WIT_CFG.EN inst) = true)
    (hd : ∀ t, aget s.jlk.witAt inst = some t → t + s.rf (R.JLK.WIT_CFG.PERIOD_MS inst) * 1000000 ≤ s.now)
    (hv : v = { s with jlk := { s.jlk with witAt := aset s.jlk.witAt inst s.now, witSeq := s.jlk.witSeq + 1 } })
    (hw : w = le (s.jlk.witSeq + 1) 8 ++ le s.estamp 8 ++ le s.jlk.gen 4 ++ le (modeCode s.mode) 1 ++ zeros 3) :
    exec (.witnessTick inst) s = .next (((List.range 16).map (fun p => 16 * inst.val + p)).foldl (witnessOn w) v) := by
  subst hv hw
  simp only [exec_witnessTick, execWitnessTick]
  rw [if_neg]
  · rfl
  · cases ht : aget s.jlk.witAt inst with
    | none => simp [he]
    | some t => simp [he, hd t ht]

/-- Settles O37: each frame in the branch its rule names. -/
theorem linkFramesComplete : Obligations.LinkFramesComplete := by
  exact ⟨fun sel h code s u hr => jonanNak_replays hr, fun _ _ _ => rfl, fun p s hst hd => jonanAckTimer_idle hst hd, fun s hst hd => caridAckTimer_idle hst hd,
    fun h code x m b l s u hr hu => caridNak_replays hr hu, fun _ _ => rfl, fun p h die s u hr => eventCmd_takes hr, fun p s hst hv hp => statusPoll_first hst hv hp,
    fun p h tag tgen st info pl cws s u hr => ⟨fun r hq hg hst hroom => jonanRsp_completes hr hq hg hst hroom, fun hq => jonanRsp_stale hr hq⟩,
    fun p tag r s hq hw ht => requestTimeout_fails hq hw ht, fun _ _ _ => ⟨rfl, rfl⟩, fun inst s v w he hd hv hw => witnessTick_due he hd hv hw⟩

end Sys2Proof.Proofs
end

section
/-! MIRROR, and O40 (R242, R243, R245, R246, R473 to R477). -/
namespace Sys2Proof.Proofs
open Sys2Proof Sys2Proof.Machine Sys2Proof.Laws

/-- Grains of slices whose handles are current are all taken. -/
theorem takeLive_of_current {u : State} {mtok gcnt : Nat} {gs : List MGrain} (h : ∀ g ∈ gs, g.slice = 0xFFFFF ∨ u.handleOk g.slice = true) :
    u.takeLive mtok gcnt gs = u.takeGrains mtok gcnt gs := by
  have hall : gs.filter (fun g => g.slice == 0xFFFFF || u.handleOk g.slice) = gs :=
    List.filter_eq_self.2 fun g hg => by simpa only [Bool.or_eq_true, beq_iff_eq] using h g hg
  have hstale : gs.filter (fun g => g.slice != 0xFFFFF && !u.handleOk g.slice) = [] := by
    refine List.filter_eq_nil_iff.2 fun g hg hb => ?_
    rw [Bool.and_eq_true, bne_iff_ne, Bool.not_eq_true'] at hb
    exact (h g hg).elim hb.1 fun hok => Bool.noConfusion (hok.symm.trans hb.2)
  rw [State.takeLive, hall, hstale]
  rfl

section
variable {h : CHdr} {s u : State} (hr : s.cRecv cMirror h = (true, u))
include hr

theorem grain_taken {mtok gcnt : Nat} {gs : List MGrain} (hm : takesMirror u.mode = true) :
    exec (.grain h mtok gcnt gs) s = .next (if u.tokFresh mtok then u.takeLive mtok gcnt gs else u.staleTok) := by
  simp only [exec_grain, execGrain, hr, hm, Bool.not_true, Bool.false_eq_true, if_false]
  exact (apply_ite Host.Outcome.next ..).symm

theorem bindAck_bound {txn op : Nat} {c : IoCmd} (hc : u.byTxn txn = some (op, c)) :
    exec (.bindAck h txn) s = .next ((u.updCmd op (fun c => { c with bound := true })).commitWait op).settle := by
  simp only [exec_bindAck, execBindAck, hr, hc]

theorem bind_noted {mtok o : Nat} (hm : takesMirror u.mode = true) (hk : u.tokKnown mtok = true) : ∃ v : State,
    exec (.bind h mtok o) s = .next (v.sendC (.bindAck mtok)) ∧
      v.io.sb = (u.heard o).io.sb.map (fun e => if e.txn = mtok then { e with ostamp := some o } else e) ∧ v.io.wc = (u.heard o).io.wc ∧
      v.regs = (u.heard o).regs := by
  simp only [exec_bind, execBind, hr, hm, hk, Bool.not_true, Bool.false_eq_true, if_false, if_true]
  exact ⟨_, rfl, rfl, rfl, rfl⟩

theorem freeCmd_frees {slots : List Nat} (hm : takesMirror u.mode = true) :
    exec (.freeCmd h slots) s = .next { u with io := { u.io with sb := u.io.sb.filter (fun e => !slots.contains e.slot) } } := by
  simp only [exec_freeCmd, execFreeCmd, hr, hm, if_true]

theorem cancelCmd_cancels {mtok : Nat} (hm : takesMirror u.mode = true) (hk : u.tokKnown mtok = true) :
    exec (.cancelCmd h mtok) s = .next { u with io := { u.io with sb := u.io.sb.filter (fun e => e.txn != mtok) } } := by
  simp only [exec_cancelCmd, execCancelCmd, hr, hm, hk, Bool.not_true, Bool.false_eq_true, if_false, if_true]

theorem rcpt_taken {es : List (Nat × Bool)} : exec (.rcpt h es) s = .next (es.foldl (fun s e => s.rcptOne e) u).settle := by
  simp only [exec_rcpt, execRcpt, hr]

end

theorem rcptOne_of_held {u : State} {txn op : Nat} {c : IoCmd} (hc : u.byTxn txn = some (op, c)) :
    u.rcptOne (txn, false) = (u.updCmd op (fun c => { c with grains := c.grains.map (fun g => { g with rcpt := true }) })).commitWait op ∧
      u.rcptOne (txn, true) = (u.failWrite op 0 0x06 false).pumpGrains := by
  simp only [State.rcptOne, hc, Bool.false_eq_true, if_false, if_true, and_self]

/-- Settles O40: each accepted frame in the branch its rule names. -/
theorem mirrorCompletes : Obligations.MirrorCompletes := fun _ _ _ hr =>
  ⟨fun _ _ _ hm => ⟨grain_taken hr hm, takeLive_of_current⟩, fun _ _ _ hc => ⟨(rcptOne_of_held hc).1, (rcptOne_of_held hc).2, bindAck_bound hr hc⟩,
    fun _ => rcpt_taken hr, fun _ _ hm hk => bind_noted hr hm hk, fun _ hm => freeCmd_frees hr hm, fun _ hm hk => cancelCmd_cancels hr hm hk⟩

end Sys2Proof.Proofs
end

section
/-! DELTA, and O41 (R122, R132, R227, R386, R478 to R481). -/
namespace Sys2Proof.Proofs
open Sys2Proof Sys2Proof.Machine Sys2Proof.Laws

/-! ## A list of horizons, put lane by lane -/

/-- Horizons put from a lane on leave the lanes before it. -/
theorem aget_lanes_before (b j : Nat) (l : List Nat) (k : Nat) (m : AMap Nat) (hj : j < k) (hk : k + l.length ≤ 32) :
    aget ((l.zipIdx k).foldl (fun (m : AMap Nat) p => aset m (b + p.2 % 32) p.1) m) (b + j) = aget m (b + j) := by
  induction l generalizing k m with
  | nil => rfl
  | cons a l ih =>
    rw [List.length_cons] at hk
    rw [List.zipIdx_cons, List.foldl_cons, ih (k + 1) _ (by omega) (by omega), aget_aset_other _ _ _ _ (by omega)]

/-- Each lane reads the horizon the list gives it. -/
theorem aget_lanes (b : Nat) (l : List Nat) (k i o : Nat) (m : AMap Nat) (hk : k + l.length ≤ 32) (hi : l[i]? = some o) :
    aget ((l.zipIdx k).foldl (fun (m : AMap Nat) p => aset m (b + p.2 % 32) p.1) m) (b + (k + i)) = some o := by
  induction l generalizing k i m with
  | nil => cases hi
  | cons a l ih =>
    rw [List.length_cons] at hk
    rw [List.zipIdx_cons, List.foldl_cons]
    cases i with
    | zero =>
      obtain rfl : a = o := Option.some.inj hi
      rw [Nat.add_zero k, aget_lanes_before b k l (k + 1) _ (by omega) (by omega), Nat.mod_eq_of_lt (by omega), aget_aset_same]
    | succ i =>
      have hki : k + (i + 1) = k + 1 + i := by omega
      rw [hki]
      exact ih (k + 1) i _ (by omega) hi

/-! ## The frames -/

section
variable {h : CHdr} {s u : State} (hr : s.cRecv cDelta h = (true, u))
include hr

theorem recs_kept {lane : Fin 32} {rs : List JRec} (hm : takesMirror u.mode = true) : ∃ v : State,
    exec (.recs h lane rs) s = .next (v.heard (maxL (rs.map (fun r => r.ostamp)))) ∧ v.mpe.delta = u.mpe.delta ++ rs ∧
      agetD v.mpe.pHor lane 0 = max (maxL (rs.map (fun r => r.ostamp))) (agetD u.mpe.pHor lane 0) ∧ v.maps = u.maps ∧ v.regs = u.regs := by
  simp only [exec_recs, execRecs, hr, hm, Bool.not_true, Bool.false_eq_true, if_false]
  refine ⟨_, rfl, rfl, ?_, rfl, rfl⟩
  rw [agetD, aget_aset_same, Option.getD_some]

theorem horizon_kept {ls : List (Nat × Nat)} (hm : takesMirror u.mode = true) : exec (.horizon h ls) s = .next (ls.foldl (fun s l => s.horizonOne l) u) := by
  simp only [exec_horizon, execHorizon, hr, hm, Bool.not_true, Bool.false_eq_true, if_false]

theorem lack_kept {physAt seq : Nat} {app dur : List Nat} : ∃ v : State, exec (.lack h physAt seq app dur) s = .next (v.noteA physAt) ∧
    v.fmm.ptAck = max u.fmm.ptAck ((seq + 1) % 2 ^ 64) ∧
      (∀ l o : Nat, l < 32 → app.length ≤ 32 → app[l]? = some o → agetD v.mpe.pApp (u.head * 32 + l) 0 = o) ∧
      (∀ l o : Nat, l < 32 → dur.length ≤ 32 → dur[l]? = some o → agetD v.mpe.pDur l 0 = o) ∧ v.maps = u.maps ∧ v.regs = u.regs := by
  simp only [exec_lack, execLack, hr]
  refine ⟨_, rfl, rfl, fun l o _ hn ho => ?_, fun l o _ hn ho => ?_, rfl, rfl⟩
  · have hl := aget_lanes (u.head * 32) app 0 l o u.mpe.pApp (by omega) ho
    rw [Nat.zero_add] at hl
    rw [agetD, hl, Option.getD_some]
  · have hl := aget_lanes 0 dur 0 l o u.mpe.pDur (by omega) ho
    simp only [Nat.zero_add] at hl
    rw [agetD, hl, Option.getD_some]

theorem pt_applied {seq : Nat} {es : List (Nat × Nat)} (hm : takesMirror u.mode = true) : exec (.pt h seq es) s =
    .next { u with fmm := { u.fmm with pt := es.foldl (fun (m : AMap Nat) e => sput (fun _ => 0) m e.1 e.2) u.fmm.pt, ptIn := max u.fmm.ptIn (seq + es.length) } } := by
  simp only [exec_pt, execPt, hr, hm, Bool.not_true, Bool.false_eq_true, if_false]

theorem hfcHint_taken {es : List HfcEnt} :
    exec (.hfcHint h es) s = .next (if u.rf R.CPL.LINK_STAT.VER < 4 then u else es.foldl (fun s e => s.hfcPut e.cid e.gen e.fp) u) := by
  simp only [exec_hfcHint, execHfcHint, hr]
  exact (apply_ite Host.Outcome.next ..).symm

end

theorem horizonOne_lane (u : State) {lane : Nat} (o : Nat) (hl : lane < 32) :
    agetD (u.horizonOne (lane, o)).mpe.pHor lane 0 = max o (agetD u.mpe.pHor lane 0) := by
  change agetD (aset u.mpe.pHor (lane % 32) (max o (agetD u.mpe.pHor (lane % 32) 0))) lane 0 = _
  rw [Nat.mod_eq_of_lt hl, agetD, aget_aset_same, Option.getD_some]

theorem horizonOne_floor (u : State) (lane o : Nat) : (u.horizonOne (lane, o)).tbs.floor = max o u.tbs.floor := Nat.max_comm _ _

theorem lackTick_due {s : State} (hup : s.caridUp = true) (hm : takesMirror s.mode = true) (ht : s.cpl.lackAt + s.rf R.CPL.CFG2.LACK_US * 1000 ≤ s.now) :
    exec .lackTick s = .next ((s.updCpl (fun c => { c with lackAt := s.now })).sendC
      (.lack s.estamp ((s.fmm.ptIn + 2 ^ 64 - 1) % 2 ^ 64) ((List.range 32).map s.appHorizon) ((List.range 32).map s.durHorizon))) := by
  simp only [exec_lackTick, execLackTick, hup, hm, decide_eq_false (Nat.not_lt.2 ht), Bool.true_or, Bool.not_true, Bool.or_self, Bool.false_eq_true, if_false]
  rfl

/-- Settles O41: each accepted frame in the branch its rule names; LACK's lists reach their lanes. -/
theorem deltaCompletes : Obligations.DeltaCompletes :=
  ⟨fun _ _ u hr => ⟨fun _ _ hm => recs_kept hr hm, fun _ hm => horizon_kept hr hm, fun lane o hl => ⟨horizonOne_lane u o hl, horizonOne_floor u lane o⟩,
    fun _ _ _ _ => lack_kept hr, fun _ _ hm => pt_applied hr hm, fun _ => hfcHint_taken hr⟩, fun _ hup hm ht => lackTick_due hup hm ht⟩

end Sys2Proof.Proofs
end

section
/-! FORWARD, and O42 (R63, R64, R482 to R484, R487, R488). -/
namespace Sys2Proof.Proofs
open Sys2Proof Sys2Proof.Machine Sys2Proof.Laws

section
variable {h : CHdr} {s u : State} (hr : s.cRecv cForward h = (true, u))
include hr

theorem forwardCmd_stale {tok slice : Nat} {f : FwdCmd} {data : Bytes} (hm : serving u.mode = true) (hs : u.handleOk slice = false) :
    exec (.forwardCmd h tok slice f data) s = .next u.staleHandle := by
  simp only [exec_forwardCmd, execForwardCmd, hr, hm, hs, Bool.not_true, Bool.not_false, Bool.false_eq_true, if_false, if_true]

theorem forwardCmd_carriedOut {tok slice : Nat} {f : FwdCmd} {data : Bytes} (hm : serving u.mode = true) (hs : u.handleOk slice = true)
    (hd : u.fwdBytes f ≤ data.length) : ∃ (c : IoCmd) (v : State),
    exec (.forwardCmd h tok slice f data) s = .next (v.carryOut u.io.nextOp) ∧ v = (u.insertCmd c).2 ∧ c.conn = none ∧ c.fromPartner = true ∧ c.tok = tok ∧ c.opc = f.opc ∧
      c.ns = f.ns ∧ c.slba = f.slba ∧ c.nlb = f.nlb ∧ c.slice = slice := by
  simp only [exec_forwardCmd, execForwardCmd, hr, hm, hs, Bool.not_true, Bool.false_eq_true, if_false, if_pos hd]
  exact ⟨_, _, rfl, rfl, rfl, rfl, rfl, rfl, rfl, rfl, rfl, rfl⟩

theorem wdata_taken {tok off op : Nat} {data : Bytes} {c0 c : IoCmd} (ht : u.byTok tok false = some (op, c0)) {v : State}
    (hv : v = u.updCmd op (fun c => { c with data := (c.data.take off ++ data ++ c.data.drop (off + data.length)).take c.need, recvd := c.recvd + data.length }))
    (hc : aget v.io.cmds op = some c) : exec (.wdata h tok off data) s = .next (if c.stage = .data ∧ c.need ≤ c.recvd then v.carryOut op else v) := by
  subst hv
  simp only [exec_wdata, execWdata, hr, ht, hc]
  exact (apply_ite Host.Outcome.next ..).symm

theorem rdata_goesOn {tok off tag op : Nat} {data : Bytes} {c : IoCmd} {p : Nat × Nat × Nat} {c' : IoCmd} {g : RdGrain} {v : State} (ht : u.byTok tok true = some (op, c))
    (hp : (grainSpan (u.lbafOf c.ns) c.slba c.nlb)[off / 4096]? = some p)
    (hv : v = (u.updCmd op (fun c => { c with reads := c.reads ++ [{ gi := p.1, sec := p.2.1, nsec := p.2.2, clen := 256, data := data, tag := tag, done := true }] })).piReads op)
    (hg : v.readAt op c.reads.length = some (c', g)) : exec (.rdata h tok off tag data) s = .next (if g.fail.isNone then v.sendGrain op c.reads.length else v) := by
  subst hv
  simp only [exec_rdata, execRdata, hr, ht, hp, hg]

section
variable {tok op : Nat} {c : IoCmd} {dnr : Bool} (ht : u.byTok tok true = some (op, c))
include ht

theorem done_reservation (hres : isResv c.opc = true) (hst : c.stage = .stamped) (sct sc : Nat) :
    exec (.done h tok sct sc dnr 0) s = .next (((u.updCmd op (fun c => { c with bound := true })).commitWait op).settle) := by
  simp only [exec_done, execDone, hr, ht, hres, hst, if_true, beq_self_eq_true, Bool.and_self]

variable (hres : isResv c.opc = false)
include hres

theorem done_failed {sct sc : Nat} (hf : sct ≠ 0 ∨ sc ≠ 0) : exec (.done h tok sct sc dnr 0) s = .next (u.failCmd op sct sc dnr c.slba).settle := by
  simp only [exec_done, execDone, hr, ht, hres, if_true, Bool.false_and, Bool.false_eq_true, if_false, if_pos hf]

theorem done_unchanged (hl : lowestFail c = none) : exec (.done h tok 0 0 dnr 0) s = .next (u.doneCmd op).settle := by
  simp only [exec_done, execDone, hr, ht, hres, if_true, Bool.false_and, Bool.false_eq_true, if_false, ne_eq, not_true, or_self, hl]

theorem done_changed {o : Nat} (hl : lowestFail c = none) (ho : o ≠ 0) : exec (.done h tok 0 0 dnr o) s =
    .next ((((u.heard o).updCmd op (fun c => { c with stage := Stage.stamped, ostamp := o })).commitWait op).settle) := by
  simp only [exec_done, execDone, hr, ht, hres, Bool.false_and, Bool.false_eq_true, if_false, ne_eq, not_true, or_self, hl, if_neg ho]

end

theorem forwardAbort_ends {tok op : Nat} {c : IoCmd} (ht : u.byTok tok false = some (op, c)) (hrecvd : c.recvd = 0) (hreads : c.reads = []) (hst : c.stage = .data)
    (hdone : c.doneN = 0) : exec (.forwardAbort h tok) s = .next ((u.dropCmd op).sendC (.fwdDone tok 0 0x07 false 0 0)).settle := by
  have hbegun : (decide (c.recvd ≠ 0) || c.reads.any (fun g => g.sent) || c.stage == .stamped || decide (c.doneN ≠ 0) || (c.stage == .active && writes c.opc)) = false := by
    rw [hrecvd, hreads, hst, hdone]
    rfl
  simp only [exec_forwardAbort, execForwardAbort, hr, ht, hbegun, Bool.false_eq_true, if_false]

end

theorem heartbeat_noted {h : CHdr} {seq es mode flags gen : Nat} {s u : State} (hr : s.cRecv cHeart h = (true, u)) : ∃ v : State,
    exec (.heartbeat h seq es mode flags gen) s = .next (v.noteGen gen) ∧ v.cpl.hbAt = some u.now ∧ v.cpl.hbMode = mode % 256 ∧
      v.cpl.hbPSeq = max seq u.cpl.hbPSeq ∧ v.mode = u.mode ∧ v.regs = u.regs := by
  simp only [exec_heartbeat, execHeartbeat, hr]
  exact ⟨_, rfl, rfl, rfl, rfl, rfl, rfl⟩

section
variable {s : State} (hm : s.mode = .paired) (hl : s.rf R.CPL.LINK_STAT.STATE ≠ lActive) (hw : s.witRecent 20000000 = true)
include hm hl hw

theorem splitYield_begins (h0 : s.cpl.splitAt = none) : exec .splitYield s = .next (s.updCpl (fun c => { c with splitAt := some s.now })) := by
  simp only [exec_splitYield, execSplitYield, hm, hw, decide_eq_true hl, h0, beq_self_eq_true, Bool.true_or, Bool.and_self, Bool.not_true, Bool.false_eq_true, if_false]

theorem splitYield_yields {t0 : Nat} (h0 : s.cpl.splitAt = some t0) (ht : t0 + s.rf R.CPL.CFG.SPLIT_MS * 1000000 ≤ s.now) (hs : s.bsv.silent = false)
    (hy : s.ownHello.lanes < s.cpl.pLanes ∨ (s.ownHello.lanes = s.cpl.pLanes ∧ s.head = 1)) : exec .splitYield s = .next (s.raise Pg.CPL 5).settle := by
  have hyields : (decide (s.ownHello.lanes < s.cpl.pLanes) || (s.ownHello.lanes == s.cpl.pLanes && s.head == 1)) = true := by
    simpa only [Bool.or_eq_true, Bool.and_eq_true, decide_eq_true_eq, beq_iff_eq] using hy
  simp only [exec_splitYield, execSplitYield, hm, hw, decide_eq_true hl, h0, beq_self_eq_true, Bool.true_or, Bool.and_self, Bool.not_true, Bool.false_eq_true, if_false]
  exact if_pos ⟨ht, hyields, hs⟩

end

/-- Settles O42: each accepted frame and timer in the branch its rule names. -/
theorem forwardCompletes : Obligations.ForwardCompletes := by
  refine ⟨fun _ _ _ hr => ⟨fun _ _ _ _ hm hs => forwardCmd_stale hr hm hs, fun _ _ _ _ hm hs hd => forwardCmd_carriedOut hr hm hs hd,
      fun _ _ _ _ _ _ ht _ hv hc => wdata_taken hr ht hv hc, fun _ _ _ _ _ _ _ _ _ _ ht hp hv hg => rdata_goesOn hr ht hp hv hg,
      fun _ _ _ _ ht hres hst => done_reservation hr ht hres hst, fun _ _ _ _ ht hres =>
        ⟨fun _ _ hf => done_failed hr ht hres hf, fun hl => done_unchanged hr ht hres hl, fun _ hl ho => done_changed hr ht hres hl ho⟩,
      fun _ _ _ ht hrecvd hreads hst hdone => forwardAbort_ends hr ht hrecvd hreads hst hdone⟩, fun s hl hb ht v hv => ?_, fun _ _ _ _ _ _ _ _ hr => heartbeat_noted hr,
    fun _ _ hm hl hw => ⟨fun h0 => splitYield_begins hm hl hw h0, fun h0 ht hs hy => splitYield_yields hm hl hw h0 ht hs hy⟩⟩
  subst hv
  exact if_pos ⟨hl, hb, ht⟩

end Sys2Proof.Proofs
end

section
/-! Moves of groups and HANDOVER, and O43 (R72, R119, R208, R463, R490, R492, R497). -/
namespace Sys2Proof.Proofs
open Sys2Proof Sys2Proof.Machine Sys2Proof.Laws

theorem mode_sendC (s : State) (m : CMsg) : (s.sendC m).mode = s.mode := by
  obtain ⟨c, o, h, -⟩ := cSends_sendC s m
  rw [h]


/-! ## Moves -/

section
variable {h : CHdr} {g : Fin 65536} {s u : State}

theorem movePropose_agrees {p : Nat} (hr : s.cRecv cAdmin h = (true, u)) {v : State} (hv : v = (u.heard p).sendC (.admin h.atag (.moveAgree g (max p u.moveStamp)))) :
    (u.mode ≠ .joining → exec (.movePropose h g p) s = .next (v.moveSet g (max p u.moveStamp) (u.moveTo g false)).settle) ∧
    (u.mode = .joining → exec (.movePropose h g p) s = .next (v.updCpl (fun c => { c with switch := some (max p u.moveStamp) })).settle) := by
  have hm : v.mode = u.mode := by rw [hv]; exact mode_sendC ..
  simp only [exec_movePropose, execMovePropose, hr, ← hv, hm]
  exact ⟨fun hj => by rw [if_neg hj], fun hj => by rw [if_pos hj]⟩

theorem moveAgree_set {o x dest : Nat} (hr : s.cAnswer h = (true, u)) (hp : aget u.cpl.props g = some (x, dest)) {v : State}
    (hv : v = (u.heard o).updCpl (fun c => { c with props := adel c.props g })) :
    (u.mode ≠ .solo → exec (.moveAgree h g o) s = .next (v.moveSet g o dest).settle) ∧
    (∀ w : State, u.mode = .solo → v.journal [rMove g v.head v.head o] = (true, w) →
      exec (.moveAgree h g o) s = .next ((w.updCpl (fun c => { c with switch := some o })).sendC (.moveDone g o)).settle) := by
  have hm : v.mode = u.mode := by rw [hv]; rfl
  simp only [exec_moveAgree, execMoveAgree, hr, hp, ← hv, hm]
  exact ⟨fun hs => by rw [if_neg hs], fun w hs hj => by simp only [if_pos hs, hj]⟩

theorem moveDone_takes {o d : Nat} (hr : s.cRecv cAdmin h = (true, u)) (hm : (u.heard o).mode = .paired) (hg : aget (u.heard o).cpl.moves g = some (o, d)) :
    ∃ v w : State, exec (.moveDone h g o) s = .next w.admitAll.settle ∧ v.maps.owner = (moveGroups g).foldl (fun m x => aset m x u.head) u.maps.owner ∧
      aget v.cpl.moves g = none ∧
      w = ((v.anaMove ((moveGroups g).map (fun x => (x, 1)))).io.cmds.filter (fun e => e.2.fromPartner && e.2.stage == .data && decide (e.2.need ≤ e.2.recvd))).foldl
        (fun s e => s.carryOut e.1) (v.anaMove ((moveGroups g).map (fun x => (x, 1)))) := by
  have hj : (u.heard o).mode ≠ .joining := by rw [hm]; exact nofun
  simp only [exec_moveDone, execMoveDone, hr, if_neg hj, hg, ne_eq, not_true, if_false, List.foldl_map]
  exact ⟨_, _, rfl, rfl, aget_adel_same .., rfl⟩

theorem moveDone_joins {o : Nat} (hr : s.cRecv cAdmin h = (true, u)) (hm : (u.heard o).mode = .joining) (hs : (u.heard o).cpl.switch = some o) :
    exec (.moveDone h g o) s = .next (((u.heard o).wf R.CPL.JOIN_STAT.PHASE 6).ask (.releaseReq (u.heard o).head)) := by
  simp only [exec_moveDone, execMoveDone, hr, if_pos hm, if_pos hs]

theorem moveComplete_done {o dest : Nat} (hg : aget s.cpl.moves g = some (o, dest)) (hd : dest ≠ s.head) (hown : s.moveOwned g = []) (hc : s.io.cmds = [])
    (ho : s.movedOver o = true) (hm : s.mode = .paired) {v : State} (hv : v = (s.updCpl (fun c => { c with moves := adel c.moves g })).sendC (.moveDone g o)) :
    exec (.moveComplete g) s = .next (v.anaReport ((moveGroups g).map (fun x => (x, 2)))).settle := by
  have hj : s.moveJournal g o dest = (true, s) := if_pos hown
  have hvm : v.mode = .paired := by rw [hv]; exact (mode_sendC ..).trans hm
  simp only [exec_moveComplete, execMoveComplete, hg, if_neg hd, hj, hc, ho, List.any_nil, Bool.not_true, Bool.false_eq_true, or_self, if_false, ← hv, if_pos hvm]

end

/-- A move agreed on: the new owner waits, the old one closes its groups, journals the move and hands its commands over. -/
theorem moveSet_sets {g o dest : Nat} {u v : State} (hv : v = u.updCpl (fun c => { c with moves := aset c.moves g (o, dest) })) :
    (dest = u.head → u.moveSet g o dest = v) ∧
    (dest ≠ u.head → ∃ gs : List Nat, (∀ y, y ∈ gs ↔ y ∈ moveGroups g ∧ u.ownsGroup y = true) ∧
      ∃ w : State, w = (v.anaChange gs).rplMoved (fun x => gs.contains x) ∧ u.moveSet g o dest = (w.moveJournal g o dest).2.handCmds gs ∧
        ((∃ x, x ∈ w.moveOwned g) → w.moveJournal g o dest = w.journal [rMove g w.head dest o])) := by
  subst hv
  refine ⟨fun hd => if_pos hd, fun hd => ⟨(moveGroups g).filter u.ownsGroup, fun y => List.mem_filter, _, rfl, if_neg hd, fun ⟨x, hx⟩ => if_neg ?_⟩⟩
  exact List.ne_nil_of_mem hx

theorem ownershipMove_offers {g : Fin 1024} {s : State} (hm : s.mode = .paired) (hl : s.rf R.CPL.LINK_STAT.STATE = lActive) (h1 : s.cpl.moves = []) (h2 : s.cpl.props = []) :
    (3 ≤ s.rf R.CPL.LINK_STAT.VER → exec (.ownershipMove g) s = .next (s.moveOffer g).settle) ∧
    (s.rf R.CPL.LINK_STAT.VER < 3 → exec (.ownershipMove g) s = .next (s.emit (.badVersion g))) := by
  have hgo : ¬(s.mode ≠ .paired ∨ s.rf R.CPL.LINK_STAT.STATE ≠ lActive) := by simp [hm, hl]
  have hnone (k : Nat) : ahas ([] : AMap (Nat × Nat)) k = false := rfl
  simp only [exec_ownershipMove, execOwnershipMove, if_neg hgo, h1, h2, hnone, Bool.or_self, Bool.false_eq_true, if_false]
  exact ⟨fun hv => if_neg (Nat.not_lt.2 hv), fun hv => if_pos hv⟩

/-! ## HANDOVER -/

section
variable {h : CHdr} {s u : State}

theorem hoReq_taken (hr : s.cRecv cAdmin h = (true, u)) (hm : u.mode = .paired) : ∃ v : State,
    exec (.hoReq h) s = .next (v.anaMove ((allGroups.filter (fun g => !v.ownsGroup g)).map (fun g => (g, 1)))).settle ∧
      v = (State.updCpl { (u.wf R.TBS.STAT.ROLE 0) with tbs := { u.tbs with rate := 0 } } (fun c => { c with hoFrom := true })).sendC (.admin h.atag .hoAck) := by
  simp only [exec_hoReq, execHoReq, hr, hm, ne_eq, not_true, if_false]
  exact ⟨_, rfl, rfl⟩

theorem hoAck_taken (hr : s.cAnswer h = (true, u)) (hm : u.mode = .handover) : exec (.hoAck h) s = .next (u.updCpl (fun c => { c with hoSent := false })) := by
  simp only [exec_hoAck, execHoAck, hr, if_pos hm]

theorem handoverDrain_goesOn (hm : s.mode = .handover) (hd : s.drained = true) :
    (s.cpl.hoClaimed = false → s.cpl.relStage = 0 → exec .handoverDrainComplete s = .next ((s.updCpl (fun c => { c with relStage := 1 })).relPump).settle) ∧
    (s.cpl.hoClaimed = true → s.cpl.hoFinal = false → exec .handoverDrainComplete s =
      .next ((s.sendC (.meterCnt true (s.slm.dyn.map (fun e => (s.handleOf e.1, meterBytes e.2.own))))).updCpl (fun c => { c with hoFinal := true, hoMeters := c.hbPSeq }))) := by
  simp only [exec_handoverDrainComplete, execHandoverDrainComplete, hm, hd, ne_eq, not_true, Bool.not_true, Bool.false_eq_true, if_false]
  exact ⟨fun hc hr => by simp only [hc, Bool.not_false, if_true, if_pos hr], fun hc hf => by simp only [hc, hf, Bool.not_true, Bool.not_false, Bool.false_eq_true, if_false, if_true]⟩

end

/-- Settles O43: each step of a move and of a handover; sending leaves the mode. -/
theorem movesAndHandoverComplete : Obligations.MovesAndHandoverComplete :=
  ⟨⟨fun _ _ _ _ _ hr _ hv => movePropose_agrees hr hv, fun _ _ _ _ _ hv => moveSet_sets hv, fun _ _ _ _ _ _ _ hr hp _ hv => moveAgree_set hr hp hv,
      fun _ _ _ _ hg hd hown hc ho hm _ hv => moveComplete_done hg hd hown hc ho hm hv, fun _ _ _ _ _ _ hr hm hg => moveDone_takes hr hm hg,
      fun _ _ _ _ _ hr hm hs => moveDone_joins hr hm hs, fun _ _ hm hl h1 h2 => ownershipMove_offers hm hl h1 h2⟩,
    fun _ _ _ hr hm => hoReq_taken hr hm, fun _ _ _ hr hm => hoAck_taken hr hm, fun _ hm hd => handoverDrain_goesOn hm hd⟩

end Sys2Proof.Proofs
end

section
/-! JOINING, and O44 (R55, R71, R384, R388, R449, R464, R465, R493 to R495). -/
namespace Sys2Proof.Proofs
open Sys2Proof Sys2Proof.Machine Sys2Proof.Laws

/-! ## What writing the identity record leaves unchanged -/

/-- The version, the mode and the partner state: a Cabinet record touches none. -/
def joinState (s : State) : Nat × Sys2Proof.Mode × Cpl := (s.bsv.acver, s.mode, s.cpl)

theorem joinState_wf (s : State) (f : Fld) (v : Nat) : joinState (s.wf f v) = joinState s := by simp [joinState, State.mode]

theorem joinState_cabNew (s : State) (r : CabRec) : joinState (s.cabNew r) = joinState s := rfl

theorem joinState_cabPut (s : State) (r : CabRec) : joinState (s.cabPut r) = joinState s := by
  unfold State.cabPut
  refine (joinState_wf ..).trans ?_
  split
  · exact of_ite (P := fun u => joinState u = joinState s) rfl (joinState_cabNew s r)
  · exact joinState_cabNew s r

theorem joinState_putIdent (s : State) : joinState s.putIdent = joinState s :=
  of_ite (P := fun u => joinState u = joinState s) (joinState_cabPut _ _) rfl

/-! ## The server's side -/

/-- s once it waits for a checkpoint that ends the use of records the joiner's version does not know. -/
def joinWait (s : State) (minor : Nat) : State :=
  let s := (s.wf R.CPL.ACVER.MINOR minor).wf R.CPL.JOIN_STAT.PHASE 2
  let s := { s with bsv := { s.bsv with acver := minor } }.putIdent
  s.updCpl (fun c => { c with role := 2, jMinor := minor, waitFor := s.lastNewRec minor })

theorem joinWait_acver (s : State) (minor : Nat) : (joinWait s minor).bsv.acver = minor := congrArg Prod.fst (joinState_putIdent _)

section
variable {h : CHdr} {limit ct minor gib : Nat} {s u v : State} (hr : s.cRecv cAdmin h = (true, u))
include hr

theorem joinReq_busy (hb : u.mode = .paired ∨ u.mode = .handover ∨ u.cpl.role ≠ 0) :
    exec (.joinReq h limit ct minor gib) s = .next (u.sendC (.admin h.atag (.joinRsp 0x0C 0))) := by
  have hb' : u.mode = .paired ∨ u.mode = .handover ∨ u.cpl.role ≠ 0 ∨ (u.mode = .solo ∧ u.bsv.leaveCause.isSome) :=
    hb.imp_right fun hb => hb.imp_right fun hb => .inl hb
  simp only [exec_joinReq, execJoinReq, hr, if_pos hb']

theorem joinReq_notServing (h1 : u.mode ≠ .paired) (h2 : u.mode ≠ .handover) (h3 : u.mode ≠ .solo) (h4 : u.cpl.role = 0) :
    exec (.joinReq h limit ct minor gib) s = .next (u.sendC (.admin h.atag (.joinRsp 0x01 0))) := by
  have hb : ¬(u.mode = .paired ∨ u.mode = .handover ∨ u.cpl.role ≠ 0 ∨ (u.mode = .solo ∧ u.bsv.leaveCause.isSome)) := by simp [h1, h2, h3, h4]
  simp only [exec_joinReq, execJoinReq, hr, if_neg hb, if_pos h3]

section
variable (hm : u.mode = .solo) (hrole : u.cpl.role = 0) (hl : u.bsv.leaveCause = none)
  (hv : v = ((u.updCpl (fun c => { c with jTag := h.atag })).wf R.CPL.JOIN_STAT.REASON 0).wf R.CPL.JOIN_STAT.SHORT 0)
include hm hrole hl hv

/-- What a server that serves alone answers to a join request, check by check. -/
theorem joinReq_solo : exec (.joinReq h limit ct minor gib) s = .next (
    if limit < u.poolModules then v.refuseJoin 0x06
    else if 0 < u.shortGib gib then (v.wf R.CPL.JOIN_STAT.SHORT (u.shortGib gib)).refuseJoin 0x07
    else if ct ≠ u.rf R.MPE.CT_BITS.BITS then v.refuseJoin 0x08
    else if minor < u.bsv.acver ∧ u.cpl.jMinor ≤ u.bsv.acver ∧ u.rf R.CPL.JOIN_STAT.PHASE ≠ 2 then (joinWait v minor).ckptStart
    else v.acceptJoin) := by
  have hb : ¬(u.mode = .paired ∨ u.mode = .handover ∨ u.cpl.role ≠ 0 ∨ (u.mode = .solo ∧ u.bsv.leaveCause.isSome)) := by simp [hm, hrole, hl]
  have hs : ¬(u.mode ≠ .solo) := not_not_intro hm
  simp only [exec_joinReq, execJoinReq, hr, if_neg hb, if_neg hs, ← hv]
  split_ifs <;> rfl

end

end

theorem releaseReq_releases {h : CHdr} {hd : Fin 2} {s u : State} (hr : s.cRecv cAdmin h = (true, u)) (hm : u.mode = .solo) (hrole : u.cpl.role = 2)
    (hp : u.rf R.CPL.JOIN_STAT.PHASE = 5) :
    exec (.releaseReq h hd) s = .next (((u.wf R.CPL.JOIN_STAT.PHASE 6).updCpl (fun c => { c with relStage := 1, relTag := h.atag })).relPump).settle := by
  simp only [exec_releaseReq, execReleaseReq, hr, if_pos (And.intro hm (And.intro hrole hp))]

section
variable {s : State}

theorem joinVersionWait_over (hrole : s.cpl.role = 2) (hp : s.rf R.CPL.JOIN_STAT.PHASE = 2) (hk : ∃ k, s.mpe.ckpt = some k ∧ s.cpl.waitFor < k.covered) :
    exec .joinVersionWaitEnd s = .next s.acceptJoin := by
  obtain ⟨k, hk, hw⟩ := hk
  simp only [exec_joinVersionWaitEnd, execJoinVersionWaitEnd, hrole, hp, hk, decide_eq_true hw, and_self, if_true]

theorem joinSwitch_proposes (hm : s.mode = .solo) (hrole : s.cpl.role = 2) (hp : s.rf R.CPL.JOIN_STAT.PHASE = 5) (hs : s.cpl.switch = none)
    (hq : ahas s.cpl.props 0xFFFF = false)
    (hc : ∀ e ∈ s.io.cmds, e.1 < s.cpl.opM.getD 0 → writes e.2.opc = true → e.2.stage ≠ .active ∧ e.2.stage ≠ .data) :
    exec .joinSwitch s = .next (s.moveOffer 0xFFFF).settle := by
  have hgo : ¬(s.mode ≠ .solo ∨ s.cpl.role ≠ 2) := by simp [hm, hrole]
  have h4 : ¬(s.rf R.CPL.JOIN_STAT.PHASE = 4) := by rw [hp]; decide
  have hearly : s.io.cmds.any (fun e => decide (e.1 < s.cpl.opM.getD 0) && writes e.2.opc && (e.2.stage == .active || e.2.stage == .data)) = false := by
    refine List.any_eq_false.2 fun e he hb => ?_
    simp only [Bool.and_eq_true, Bool.or_eq_true, decide_eq_true_eq, beq_iff_eq] at hb
    obtain ⟨⟨hlt, hw⟩, hst⟩ := hb
    exact hst.elim (hc e he hlt hw).1 (hc e he hlt hw).2
  simp only [exec_joinSwitch, execJoinSwitch, if_neg hgo, if_neg h4]
  exact if_pos ⟨hp, hearly, by rw [hs]; rfl, hq⟩

end

/-! ## The joiner's side -/

section
variable {h : CHdr} {s u v : State}

theorem joinRsp_taken {reason cut : Nat} {f : Found} (hr : s.cAnswer h = (true, u)) (hm : u.mode = .joining) (hrole : u.cpl.role = 1) :
    (reason ≠ 0 → exec (.joinRsp h reason cut f) s = .next ((if reason = 7 then u.shortShow else u).joinRefuse reason)) ∧
    (((u.heard cut).wf R.CPL.JOIN_STAT.PHASE 3).loadMaps f (some cut) = some v →
      exec (.joinRsp h 0 cut f) s = .next (v.updCpl (fun c => { c with cut := cut, loaded := true }))) ∧
    (((u.heard cut).wf R.CPL.JOIN_STAT.PHASE 3).loadMaps f (some cut) = none →
      exec (.joinRsp h 0 cut f) s = .next (((u.heard cut).wf R.CPL.JOIN_STAT.PHASE 3).joinRefuse 0x0A)) := by
  have hgo : ¬(u.mode ≠ .joining ∨ u.cpl.role ≠ 1) := by simp [hm, hrole]
  simp only [exec_joinRsp, execJoinRsp, hr, if_neg hgo]
  refine ⟨fun h0 => if_pos h0, fun hl => ?_, fun hl => ?_⟩
  · simp only [ne_eq, not_true, if_false, hl]
  · simp only [ne_eq, not_true, if_false, hl]

/-- With no module present there is nothing to claim. -/
theorem released_alone {gen : Nat} (hj : s.mode = .joining) (hr : s.cAnswer h = (true, u)) (hv : v = u.noteGen gen) (hm : v.mode = .joining)
    (hp : v.rf R.CPL.JOIN_STAT.PHASE = 6) (hn : v.present = []) : ∃ w : State,
    exec (.released h gen) s = .next ((w.wf R.CPL.JOIN_STAT.PHASE 7).updCpl (fun c => { c with diesOk := true })) ∧
      w = State.sendC { v with jlk := { v.jlk with asked := [], won := [] } } (.claimGen v.jlk.gen) := by
  have h3 : ¬(3 = 0) := by decide
  refine ⟨_, ?_, rfl⟩
  simp only [exec_released, execReleased, if_pos hj, hr, ← hv, if_pos (And.intro hm hp), if_neg h3, hn, List.foldl_nil, and_self, if_true]

theorem ring_taken {es : List Bytes} (hr : s.cRecv cAdmin h = (true, u)) (hm : u.mode = .joining) :
    exec (.ringCmd h es) s = .next (es.foldl (fun s e => s.ringOne e) u) := by
  simp only [exec_ringCmd, execRingCmd, hr, hm, ne_eq, not_true, if_false]

theorem claimgen_noted {gen : Nat} (hr : s.cRecv cAdmin h = (true, u)) : exec (.claimgen h gen) s = .next (u.noteGen gen) := by
  simp only [exec_claimgen, execClaimgen, hr]

end

theorem ringOne_kept (e : Bytes) (s : State) : (s.ringOne e).slm.log = s.slm.log ++ [(s.rf R.SLM.MRING_WR.SEQ, e)] ∧
    (s.ringOne e).slm.seq = s.rf R.SLM.MRING_WR.SEQ + 1 ∧
    (s.ringOne e).mem = (s.store (dramBase + s.rf R.SLM.MRING_BASE.ADDR + s.rf R.SLM.MRING_WR.SEQ % 16777216 * 256) e).mem := by
  refine ⟨?_, rfl, wf_mem ..⟩
  change (State.wf _ _ _).slm.log ++ _ = _
  rw [wf_slm]
  rfl

/-! ## The end of a join -/

/-- s with everything a join's end sets before the mode changes: version, phase and what belongs to the join. -/
def joinEnded (s : State) (joiner : Bool) : State :=
  let ver := s.rf R.CPL.LINK_STAT.VER
  let s := ((s.wf R.CPL.ACVER.MINOR ver).wf R.CPL.JOIN_STAT.PHASE 0).wf R.TBS.STAT.LOCK 1
  let s := if ver = s.bsv.acver then s else { s with bsv := { s.bsv with acver := ver } }.putIdent
  let s := { s with bsv := { s.bsv with silent := false, served := true, soloAsked := false, stopAsked := false },
                    slm := { s.slm with minuteAt := if joiner then s.estamp else s.slm.minuteAt } }
  s.updCpl (fun c => { c with role := 0, switch := if c.role = 2 then c.switch else none, opM := none, loaded := false, relStage := 0, diesOk := false, jMinor := 0, hoSent := false, hoFrom := false, hoClaimed := false, hoFinal := false })

/-- u, in PAIRED, with every group at its preferred owner and what the partner told of itself. -/
def joinPaired (u : State) (joiner : Bool) (info : PeerInfo) : State :=
  State.anaMove { u with maps := { u.maps with owner := allGroups.map (fun g => (g, agetD u.bsv.pref g 0)) },
                         io := { u.io with pSb := info.sb, resv := if joiner then info.resv else u.io.resv },
                         slm := { u.slm with pCapI := info.capI, pCapB := info.capB } }
    (allGroups.map (fun g => (g, if agetD u.bsv.pref g 0 = u.head then 1 else 2)))

theorem joinEnded_state (s : State) (joiner : Bool) :
    (joinEnded s joiner).bsv.acver = s.rf R.CPL.LINK_STAT.VER ∧ (joinEnded s joiner).mode = s.mode := by
  unfold joinEnded
  extract_lets ver s1 _ s2
  have h1 : joinState s1 = joinState s := (joinState_wf ..).trans ((joinState_wf ..).trans (joinState_wf ..))
  have hm : s1.mode = s.mode := congrArg (fun x => x.2.1) h1
  have h2 : s2.bsv.acver = ver ∧ s2.mode = s.mode := by
    by_cases hc : ver = s1.bsv.acver
    · rw [show s2 = s1 from if_pos hc]
      exact ⟨hc.symm, hm⟩
    · rw [show s2 = State.putIdent _ from if_neg hc]
      have h3 := joinState_putIdent { s1 with bsv := { s1.bsv with acver := ver } }
      exact ⟨congrArg Prod.fst h3, (congrArg (fun x => x.2.1) h3).trans hm⟩
  exact h2

theorem joinDone_pairs {s : State} {info : PeerInfo} {joiner : Bool} {t : State} (ht : t = if joiner then s.shortShow else s)
    (hl : s.rf R.CPL.LINK_STAT.STATE = lActive)
    (hready : (joiner = true ∧ s.mode = .joining ∧ s.cpl.role = 1 ∧ t.joinerReady = true) ∨ (joiner = false ∧ s.mode = .solo ∧ s.cpl.role = 2 ∧ t.serverReady = true)) :
    ∃ u : State, u = (joinEnded t joiner).enter .paired (if joiner then 0x01 else 0x07) ∧
      exec (.joinDone true info) s = .next (((joinPaired u joiner info).handCmds (allGroups.filter (fun g => agetD u.bsv.pref g 0 != u.head))).settle).minCheck := by
  have hj : (s.mode == .joining && s.cpl.role == 1) = joiner := by
    obtain ⟨rfl, hm, hr, -⟩ | ⟨rfl, hm, -⟩ := hready
    · rw [hm, hr]; rfl
    · rw [hm]; rfl
  have hs : joinState t = joinState s := by
    rw [ht]
    exact of_ite (P := fun u => joinState u = joinState s) (joinState_wf ..) rfl
  have htm : t.mode = s.mode := congrArg (fun x => x.2.1) hs
  have htc : t.cpl = s.cpl := congrArg (fun x => x.2.2) hs
  have htl : t.rf R.CPL.LINK_STAT.STATE = lActive := by
    rw [ht]
    exact of_ite (P := fun u : State => u.rf R.CPL.LINK_STAT.STATE = lActive) ((rf_wf_far _ _ _ _ (by decide)).trans hl) hl
  have hgo : (true && t.rf R.CPL.LINK_STAT.STATE == lActive &&
      ((joiner && t.joinerReady) || ((t.mode == .solo && t.cpl.role == 2) && t.serverReady))) = true := by
    rw [htl, htm, htc]
    obtain ⟨rfl, -, -, h⟩ | ⟨rfl, hm, hr, h⟩ := hready
    · rw [h]; rfl
    · rw [hm, hr, h]; rfl
  have htj : (t.mode == .joining && t.cpl.role == 1) = joiner := by rw [htm, htc, hj]
  refine ⟨_, rfl, ?_⟩
  change execJoinDone true s info = _
  unfold execJoinDone
  extract_lets t' joiner' server ver s1 _ s2 _ _ s3 s4 s5 owner _ _ _ s6 s7
  obtain rfl : t' = t := by rw [ht, ← hj]
  obtain rfl : joiner' = joiner := htj
  refine (if_neg (by rw [hgo]; decide)).trans ?_
  have h5 : s5 = (joinEnded t' joiner').enter .paired (if joiner' then 0x01 else 0x07) := rfl
  have h7 : s7 = joinPaired s5 joiner' info := rfl
  have hhead : s7.head = s5.head := congrArg Straps.head (anaMove_straps _ _)
  have howner : owner = fun g => agetD s5.bsv.pref g 0 := rfl
  clear_value s7
  clear s6
  clear_value owner s5
  rw [← h5, ← h7, ← hhead, howner]

/-- Settles O44: each step of Table 12-10 on either head. -/
theorem joinCompletes : Obligations.JoinCompletes := by
  refine ⟨fun h limit ct minor gib s u hr hm hrole hl v hv => ?_, fun h limit ct minor gib s u hr => ⟨joinReq_busy hr, joinReq_notServing hr⟩,
    fun h reason cut f s u v hr hm hrole => joinRsp_taken hr hm hrole, fun s hrole hp hk => joinVersionWait_over hrole hp hk,
    fun s hm hrole hp hs hq hc => joinSwitch_proposes hm hrole hp hs hq hc, fun h hd s u hr hm hrole hp => releaseReq_releases hr hm hrole hp,
    fun h gen s u v hj hr hv hm hp hn => released_alone hj hr hv hm hp hn, fun h es s u hr hm => ring_taken hr hm, ringOne_kept, ?_, fun h gen s u hr => claimgen_noted hr⟩
  · have hx := joinReq_solo (limit := limit) (ct := ct) (minor := minor) (gib := gib) hr hm hrole hl hv
    refine ⟨fun h1 => by rw [hx, if_pos h1], fun h1 h2 => by rw [hx, if_neg (Nat.not_lt.2 h1), if_pos h2], fun h1 h2 h3 => ?_, fun h1 h2 h3 h4 => ?_,
      fun h1 h2 h3 h4 h5 h6 => ⟨joinWait v minor, ?_, rfl, joinWait_acver v minor, rfl⟩⟩
    · rw [hx, if_neg (Nat.not_lt.2 h1), if_neg (by omega), if_pos h3]
    · rw [hx, if_neg (Nat.not_lt.2 h1), if_neg (by omega), if_neg (not_not_intro h3), if_neg (fun hc => Nat.not_le.2 hc.1 h4)]
    · rw [hx, if_neg (Nat.not_lt.2 h1), if_neg (by omega), if_neg (not_not_intro h3), if_pos ⟨h4, h5, h6⟩]
  · rintro info s hl (⟨hm, hrole, hj⟩ | ⟨hm, hrole, hs⟩)
    · obtain ⟨u, hu, hx⟩ := joinDone_pairs (info := info) (joiner := true) rfl hl (.inl ⟨rfl, hm, hrole, hj⟩)
      refine ⟨_, u, _, hx, (joinEnded_state s.shortShow true).1.trans (rf_wf_far _ _ _ _ (by decide)), rfl, (joinEnded_state s.shortShow true).2.trans ?_, ?_, ?_⟩
      · exact congrArg (fun x => x.2.1) (joinState_wf s _ _)
      · rw [hu, if_pos hm]
        rfl
      · rw [if_pos hm]
        rfl
    · have hne : ¬(s.mode = .joining) := by rw [hm]; exact nofun
      obtain ⟨u, hu, hx⟩ := joinDone_pairs (info := info) (joiner := false) rfl hl (.inr ⟨rfl, hm, hrole, hs⟩)
      refine ⟨_, u, _, hx, (joinEnded_state s false).1, rfl, (joinEnded_state s false).2, ?_, ?_⟩
      · rw [hu, if_neg hne]
        rfl
      · rw [if_neg hne]
        rfl

end Sys2Proof.Proofs
end

section
/-! Commands and connections of RPL, and O45 (R505, R506, R523, R525, R526). -/
namespace Sys2Proof.Proofs
open Sys2Proof Sys2Proof.Machine Sys2Proof.Laws

section
variable {s : State}

theorem rplDone_result (r : Nat) (h : s.regsWf = true) (hr : r < 8) : (s.rplDone r).rf R.RPL.CMD_STAT.RESULT = r := by
  rw [State.rplDone, rf_wf_same _ _ _ h]
  exact Nat.mod_eq_of_lt (Nat.lt_trans hr (by decide))

/-- A START whose entry passes its checks makes the session and asks for its connection. -/
theorem startCmd_starts {ix : Fin 1024} {ns new_ : Nat} {n : Ns} {d : Bytes} (hix : ix.val < 64) (hb : s.blockOn Pg.RPL = true)
    (hd : d = s.entry (s.outAddr ix) 64) (hk : leAt d 0x13 1 = 1) (hl : leAt d 0x12 1 ≤ 63) (hns : leAt d 0x14 2 = ns) (hnew : leAt d 0x1C 4 = new_)
    (hn : s.nsOf ns = some n) (ho : s.ownsGroup n.desc.group = true) (hs : ahas n.slots new_ = true) (hkey : s.flag R.RPL.KEY.VALID = true)
    (hfree : s.sessOf ix = none) : ∃ v : State, exec (.startCmd ix) s = .next ((v.rplDone 0).settle) ∧
      v.out = s.out ++ [.rspConnect ix (leAt d 0 16) (leAt d 0x10 2) (leAt d 0x12 1)] ∧
      v.regs = s.regs ∧ v.maps = s.maps ∧ ∃ x : RSess, aget v.rpl.sess ix = some x ∧ x.state = 1 ∧ x.inbound = false ∧ x.kind = 1 ∧ x.ns = ns ∧ x.new_ = new_ ∧
        x.target = leAt d 0x16 2 ∧ x.sid = leAt d 0x20 4 ∧ x.rate = leAt d 0x24 4 := by
  have hgo : ¬(64 ≤ ix.val ∨ (1 : Nat) = 0 ∨ 3 < (1 : Nat) ∨ 63 < leAt d 0x12 1) := by omega
  have hkind : ((1 : Nat) == 2) = false := rfl
  simp only [exec_startCmd, execStartCmd, State.rplCmd, if_true, State.rplStartCmd, hb, Bool.not_true, Bool.false_eq_true, if_false, State.rplStart, ← hd, hk, hns, hnew,
    if_neg hgo, hn, ho, hs, hkind, Bool.false_and, Bool.or_self, hkey, hfree, Option.isSome_none]
  exact ⟨_, rfl, rfl, rfl, rfl, _, aget_aset_same .., rfl, rfl, rfl, rfl, rfl, rfl, rfl, rfl⟩

theorem startCmd_held (ix : Fin 1024) (hb : s.blockOn Pg.RPL = false) :
    exec (.startCmd ix) s = .next (State.settle { s with rpl := { s.rpl with held := s.rpl.held ++ [ix.val] } }) := by
  simp only [exec_startCmd, execStartCmd, State.rplCmd, if_true, State.rplStartCmd, hb, Bool.false_eq_true, if_false]

theorem sealAck_none {ix : Fin 1024} (h : s.sealWait ix = none) : exec (.sealAck ix) s = .next (s.rplDone 1).settle := by
  change Host.Outcome.next (s.rplSealAck ix).settle = _
  rw [State.rplSealAck, h]

theorem sealAck_answers {ix : Fin 1024} {i : Nat} {x : RSess} {q : Nat × Nat × Nat} {v w : State} (h : s.sealWait ix = some (i, x)) (hq : x.sealReq = some q)
    (hv : v = s.rspSend i (.seal_ x.sid q.1 (x.slot.getD 0) q.2.1 q.2.2))
    (hw : w = v.updSess i (fun x => if x.state = 5 then { x with state := 6, tbs := [], exts := [] } else x)) :
    exec (.sealAck ix) s = .next ((w.bindState ix 0).rplDone 0).settle := by
  subst hv hw
  change Host.Outcome.next (s.rplSealAck ix).settle = _
  simp only [State.rplSealAck, h, hq, Option.getD_some]

theorem rplSeal_none {ix : Fin 1024} (h : s.sessOf ix = none) : exec (.rplSeal ix) s = .next (s.rplDone 1).settle := by
  change Host.Outcome.next (s.rplSealCmd ix).settle = _
  rw [State.rplSealCmd, h]

theorem rplSeal_asks {ix : Fin 1024} {x : RSess} (h : s.sessOf ix = some x) (hi : x.inbound = false) (hk : x.kind = 3) (hst : x.state = 4) :
    exec (.rplSeal ix) s = .next ((s.updSess ix (fun x => { x with sealAsked := true })).rplDone 0).settle := by
  change Host.Outcome.next (s.rplSealCmd ix).settle = _
  simp [State.rplSealCmd, h, hi, hk, hst]

theorem rspConnectAccept_ours {lport i : Fin 64} {port : Fin 65536} {x : RSess} (h : s.sessOf i = some x) (hi : x.inbound = false) (hst : x.state = 1) :
    exec (.rspConnectAccept lport (some i) port) s = .next (s.rspHello i) := by
  simp only [exec_rspConnectAccept, execRspConnectAccept, h, hi, hst, Bool.not_false, beq_self_eq_true, Bool.and_self, if_true]

theorem rspConnectAccept_theirs {lport : Fin 64} {port : Fin 65536} (hm : s.mode = .paired ∨ s.mode = .solo) (hb : s.blockOn Pg.RPL = true)
    (hp : port.val = s.rf R.RPL.CFG.PORT) (hl : s.lportUp lport = true) :
    (s.freeSess = none → exec (.rspConnectAccept lport none port) s = .next (s.emit (.rspReset lport))) ∧
    (∀ i, s.freeSess = some i → ∃ v : State, exec (.rspConnectAccept lport none port) s = .next (v.rspHello i) ∧ v.regs = s.regs ∧ v.out = s.out ∧
      ∃ x : RSess, aget v.rpl.sess i = some x ∧ x.inbound = true ∧ x.state = 2 ∧ x.lport = lport) := by
  simp only [exec_rspConnectAccept, execRspConnectAccept, if_pos (And.intro hm (And.intro hb (And.intro hp hl)))]
  refine ⟨fun h => by rw [h], fun i h => ?_⟩
  rw [h]
  exact ⟨_, rfl, rfl, rfl, _, aget_aset_same .., rfl, rfl, rfl⟩

theorem rspAbort_ends {ix : Fin 64} {h : RHdr} {code : Fin 65536} {x : RSess} {u : State} (hx : s.sessOf ix = some x)
    (hr : s.rspRecv ix h (decide (3 ≤ x.state)) = (true, u)) : exec (.rspAbort ix h code) s = .next (u.rplEnd ix code false).settle := by
  simp only [exec_rspAbort, execRspAbort, hx, hr]

theorem rspIdleTimeout_of_session {ix : Fin 64} {x : RSess} (hx : s.sessOf ix = some x) :
    (x.lastAt + s.rf R.RPL.CFG.IDLE_S * 1000000000 ≤ s.now → exec (.rspIdleTimeout ix) s = .next (s.rplEnd ix 0x0C false).settle) ∧
    (s.now < x.lastAt + s.rf R.RPL.CFG.IDLE_S * 1000000000 → exec (.rspIdleTimeout ix) s = .next s) := by
  simp only [exec_rspIdleTimeout, execRspIdleTimeout, hx]
  exact ⟨fun h => if_pos h, fun h => if_neg (Nat.not_le.2 h)⟩

end

/-- Settles O45: each command and connection event in the branch its rule names. -/
theorem replicationCommandsComplete : Obligations.ReplicationCommandsComplete :=
  ⟨fun _ _ _ _ _ _ hix hb hd hk hl hns hnew hn ho hs hkey hfree => startCmd_starts hix hb hd hk hl hns hnew hn ho hs hkey hfree, fun ix _ hb => startCmd_held ix hb,
    fun _ _ => ⟨fun h r hr => rplDone_result r h hr, rfl, sealAck_none, rplSeal_none⟩, fun _ _ _ _ _ _ h hq _ hv hw => sealAck_answers h hq hv hw,
    fun _ _ _ h hi hk hst => rplSeal_asks h hi hk hst, fun _ _ _ _ _ h hi hst => rspConnectAccept_ours h hi hst,
    fun _ _ _ hm hb hp hl => rspConnectAccept_theirs hm hb hp hl, fun _ _ _ _ _ _ hx hr => rspAbort_ends hx hr, fun _ _ _ hx => rspIdleTimeout_of_session hx, fun _ _ => rfl⟩

end Sys2Proof.Proofs
end

section
/-! Records of a replication session, and O46 (R508, R513 to R516, R518, R520 to R523, R526). -/
namespace Sys2Proof.Proofs
open Sys2Proof Sys2Proof.Machine Sys2Proof.Laws

section
variable {ix : Fin 64} {h : RHdr} {x : RSess} {s u : State}

theorem rspHello_taken {vers role : Fin 256} {array : BitVec 128} {nonce : Bytes} (hr : s.rspRecv ix h false = (true, u)) (hx : u.sessOf ix = some x)
    (hst : x.state = 2) : exec (.rspHello ix h vers role array nonce) s = .next (u.rplHello ix vers role array.toNat nonce).settle := by
  simp only [exec_rspHello, execRspHello, hr, hx, if_pos hst]

theorem session_taken {b : RSession} (hr : s.rspRecv ix h true = (true, u)) (hx : u.sessOf ix = some x) (hst : x.state = 3) :
    (x.inbound = false → exec (.session ix h b) s = .next (u.updSess ix (fun x => { x with state := 4, offers := b.offers })).settle) ∧
    (∀ j, x.inbound = true → u.sessionCheck ix x.array x.ver b = .inr j → exec (.session ix h b) s = .next (u.sessionAccept ix j b).settle) ∧
    (∀ c, x.inbound = true → u.sessionCheck ix x.array x.ver b = .inl c → exec (.session ix h b) s = .next (u.rplAbort ix c 0).settle) := by
  simp only [exec_session, execSession, hr, hx, hst, ne_eq, not_true, if_false]
  exact ⟨fun hi => by simp only [hi, Bool.false_eq_true, if_false], fun j hi hc => by simp only [hi, if_true, hc], fun c hi hc => by simp only [hi, if_true, hc]⟩

section
variable (hr : s.rspIn ix h true = (some x, u))
include hr

theorem offer_lookedUp {batch : Fin 4294967296} {fps : List Bytes} (h0 : fps ≠ []) (hn : fps.length ≤ 1024) (ho : x.offers = true) (hb : x.tb batch = none) :
    exec (.offer ix h batch fps) s = .next (u.rplOffers ix batch x (fps.map (padTo 32))).settle := by
  have hgo : ¬(fps = [] ∨ 1024 < fps.length ∨ x.offers = false ∨ (x.tb batch.val).isSome = true) := by
    simp [h0, ho, hb, Nat.not_lt.2 hn]
  simp only [exec_offer, execOffer, hr, if_neg hgo]

theorem grain_checked {batch : Fin 4294967296} {gs : List RGrain} (hroom : s.rplRoom gs.length = true) :
    exec (.rspGrain ix h batch gs) s = .next (u.rplEntries ix batch gs).settle := by
  simp only [exec_rspGrain, execRspGrain, hroom, Bool.true_eq_false, if_false, hr]

theorem extent_kept {batch : Fin 4294967296} {run : Option Nat} {start : Fin 274877906944} {vals : List Nat} (hok : extentOk x batch run vals = true) :
    ∃ e : RExt, e.start = start ∧ e.vals = vals ∧ e.len = run.getD vals.length ∧
      exec (.extent ix h batch run start vals) s = .next (u.updSess ix (fun x => { x with exts := x.exts ++ [e] })).settle := by
  refine ⟨{ batch := if run.isSome then none else some batch.val, start := start.val, len := run.getD vals.length, vals := vals }, rfl, rfl, rfl, ?_⟩
  simp only [exec_extent, execExtent, hr, hok, if_true]

end

/-- A GRAIN that would go past WCSHARE stays unread. -/
theorem grain_unread {batch : Fin 4294967296} {gs : List RGrain} (hw : s.rf R.RPL.CFG2.WCSHARE * 4194304 < s.rplHeld + 4096 * gs.length) :
    exec (.rspGrain ix h batch gs) s = .next s := by
  have hroom : s.rplRoom gs.length = false := by rw [State.rplRoom, decide_eq_false (Nat.not_le.2 hw), Bool.false_and]
  simp only [exec_rspGrain, execRspGrain, hroom, if_true]

/-- The offers WANT asks for, with those asked for before. -/
def wantedOf (b : RBatch) (bits : List Bool) : List Nat :=
  b.wants ++ ((List.range bits.length).filter (fun k => nthD bits k false)).filter (fun k => !b.wants.contains k)

theorem mem_wantedOf (b : RBatch) (bits : List Bool) (k : Nat) : k ∈ wantedOf b bits ↔ k ∈ b.wants ∨ bits[k]? = some true := by
  have hbit : nthD bits k false = true ↔ bits[k]? = some true := by
    cases hk : bits[k]? <;> simp [nthD, hk]
  have hlen : bits[k]? = some true → k < bits.length := fun hk => (List.getElem?_eq_some_iff.1 hk).1
  simp only [wantedOf, List.mem_append, List.mem_filter, List.mem_range, hbit, Bool.not_eq_true', List.contains_eq_mem, decide_eq_false_iff_not]
  by_cases hm : k ∈ b.wants
  · simp [hm]
  · simp only [hm, not_false_eq_true, and_true, false_or]
    exact ⟨fun hb => hb.2, fun hb => ⟨hlen hb, hb⟩⟩

theorem want_taken {batch : Fin 4294967296} {bits : List Bool} {b : RBatch} (hr : s.rspIn ix h false = (some x, u))
    (hb : x.batches.find? (fun b => b.num == batch.val) = some b) :
    exec (.want ix h batch true bits) s = .next (u.updSess ix (fun x => { x with batches := x.batches.filter (fun y => y.num != batch.val) })).settle ∧
    (bits.length = b.offers.length → ∃ ws : List Nat, (∀ k, k ∈ ws ↔ k ∈ b.wants ∨ bits[k]? = some true) ∧
      exec (.want ix h batch false bits) s = .next (u.rplServe ix { b with wants := ws }).settle) := by
  simp only [exec_want, execWant, hr, hb, if_true, Bool.false_eq_true, if_false]
  refine ⟨trivial, fun hl => ⟨wantedOf b bits, mem_wantedOf b bits, ?_⟩⟩
  exact if_neg (not_not_intro hl)

theorem rspSeal_taken {sid new_ tepoch batches grains : Nat} (hr : s.rspRecv ix h true = (true, u)) (hx : u.sessOf ix = some x) :
    (x.inbound = true → x.state = 4 → batches ≠ x.count → exec (.rspSeal ix h sid new_ tepoch batches grains) s = .next (u.rplAbort ix 0x05 0).settle) ∧
    (x.inbound = true → x.state = 4 → batches = x.count → exec (.rspSeal ix h sid new_ tepoch batches grains) s =
      .next (u.updSess ix (fun x => { x with state := 5, sid := sid, sealReq := some (new_, batches, grains) })).settle) ∧
    (x.inbound = false → x.state = 5 → exec (.rspSeal ix h sid new_ tepoch batches grains) s =
      .next ((u.updSess ix (fun x => { x with state := 6, slot := some tepoch })).emit (.rspClose ix)).settle) := by
  simp only [exec_rspSeal, execRspSeal, hr, hx]
  refine ⟨fun hi hst hc => ?_, fun hi hst hc => ?_, fun hi hst => ?_⟩
  · simp only [hi, hst, beq_self_eq_true, Bool.and_self, if_true, if_pos hc]
  · simp only [hi, hst, beq_self_eq_true, Bool.and_self, if_true, if_neg (not_not_intro hc)]
  · simp only [hi, hst, Bool.false_and, Bool.false_eq_true, if_false, Bool.not_false, beq_self_eq_true, Bool.and_self, if_true]

theorem diffWalkBatch_goesOn {trailers : List (Nat × Bytes)} {extra : List Nat} (hx : s.sessOf ix = some x) (hi : x.inbound = false) (hst : x.state = 4)
    (hrate : s.rateOk x = true) (hw : x.batches.length < max 1 (min 256 (s.rf R.RPL.CFG2.WINDOW))) :
    (x.walked = false → exec (.diffWalkBatch ix trailers extra) s = .next (s.rplWalk ix trailers).settle) ∧
    (x.walked = true → x.kind = 3 → exec (.diffWalkBatch ix trailers extra) s = .next (s.rplExtra ix extra trailers).settle) := by
  simp only [exec_diffWalkBatch, execDiffWalkBatch, hx, hi, hst, hrate, decide_eq_false (Nat.not_le.2 hw), bne_self_eq_false, Bool.or_self, Bool.not_true, Bool.false_eq_true,
    if_false]
  refine ⟨fun h => ?_, fun h hk => ?_⟩
  · simp only [h, Bool.not_false, if_true]
  · simp only [h, Bool.not_true, Bool.false_eq_true, if_false, if_pos hk]

end

/-- Settles O46: each record in the branch its rule names. -/
theorem replicationRecordsComplete : Obligations.ReplicationRecordsComplete :=
  ⟨fun _ _ _ _ _ _ _ _ _ hr hx hst => rspHello_taken hr hx hst, fun _ _ _ _ _ _ hr hx hst => session_taken hr hx hst,
    fun _ _ _ _ _ hr => ⟨fun _ _ h0 hn ho hb => offer_lookedUp hr h0 hn ho hb, fun _ _ hroom => grain_checked hr hroom, fun _ _ _ _ hok => extent_kept hr hok⟩,
    fun _ _ _ _ _ hw => grain_unread hw, fun _ _ _ _ _ _ _ _ hr hb => want_taken hr hb, fun _ _ _ _ _ _ _ _ _ _ hr hx => rspSeal_taken hr hx,
    fun _ _ _ _ _ hx hi hst hrate hw => diffWalkBatch_goesOn hx hi hst hrate hw⟩

end Sys2Proof.Proofs
end

section
/-! The digest and cipher engines, and O48 (R530 to R535, R540 to R547). -/
namespace Sys2Proof.Proofs
open Sys2Proof Sys2Proof.Machine Sys2Proof.Laws

/-- No check of a descriptor fails: no code is given. -/
theorem lowCode_of_none {l : List (Bool × Nat)} (h : ∀ p ∈ l, p.1 = false) : lowCode l = 0 := by
  have hnone : l.filter (fun p => p.1) = [] := List.filter_eq_nil_iff.2 fun p hp => by rw [h p hp]; decide
  rw [lowCode, hnone]
  rfl

/-! ## Digests -/

section
variable {a : Nat} {s : State}

theorem dgeTake_new {op : Nat} (hf : s.ringFront dgeRing = some a) (hc : s.dgeChain = none) (hb : s.blockOn Pg.DGE = true) (ho : s.dFld a 0 1 = op) :
    s.dgeTake op = (s.dgeNew a).dgeBad 65536 := by
  simp [State.dgeTake, hf, hc, hb, ho]

theorem dgeTake_next {op k : Nat} {r : DgeReq} (hf : s.ringFront dgeRing = some a) (hc : s.dgeChain = some (k, r)) (ho : r.op = op) :
    s.dgeTake op = (s.dgeNext k r a).dgeBad 65536 := by
  simp [State.dgeTake, hf, hc, ho]

/-- A comparison is over at once. -/
theorem dgeNew_compares {n : Nat} (ho : s.dFld a 0 1 = 3) (hl : s.dFld a 4 4 = n) (hn : n ≤ 32) (h1 : s.inFw (s.dFld a 8 8) n = true)
    (h2 : s.inFw (s.dFld a 0x18 8) n = true) : s.dgeNew a = (s.dgeAdv.inc R.DGE.CNT_CMP.COUNT).dgeEnd a
      (if padTo 32 (s.load (hbmBase + s.dFld a 8 8) n) = padTo 32 (s.load (hbmBase + s.dFld a 0x18 8) n) then 0 else 4) := by
  unfold State.dgeNew
  rw [ho, hl]
  extract_lets op slot len src dst aux more key addr c wait
  have hc : c = 0 := lowCode_of_none (by simp [op, addr, len, src, aux, h1, h2, Nat.not_lt.2 hn])
  rw [if_neg (not_not_intro hc), if_pos rfl]

/-- A message of one part goes to a free core. -/
theorem dgeNew_runs {n : Nat} (ho : s.dFld a 0 1 = 1) (hm : s.dFld a 1 1 = 0) (hl : s.dFld a 4 4 = n) (h1 : s.inFw (s.dFld a 8 8) n = true)
    (h2 : s.inFw (s.dFld a 0x10 8) 32 = true) (hfree : s.dgeFree.isSome = true) (hcores : 0 < s.rf R.DGE.STAT.CORES) (hn : n ≤ 65536) :
    ∃ (v : State) (r : DgeReq), s.dgeNew a = v.engineShow ∧ v.mem = s.mem ∧
      v.sec.dreq = aset s.sec.dreq s.sec.next r ∧ r.op = 1 ∧ r.data = s.load (hbmBase + s.dFld a 8 8) n ∧ r.dst = s.dFld a 0x10 8 ∧ r.chain = false ∧ r.at0 = s.now := by
  unfold State.dgeNew
  rw [ho, hl, hm]
  extract_lets op slot len src dst aux more key addr c wait _ _ r s1
  have hmore : more = false := rfl
  have hc : c = 0 := lowCode_of_none (by simp [op, addr, len, src, dst, hmore, h1, h2, Nat.ne_of_gt hcores])
  have hwait : ¬(wait = true) := by simp [wait, len, Nat.not_lt.2 hn, Option.isSome_iff_ne_none.1 hfree]
  have h3 : ¬(op = 3) := by decide
  rw [if_neg (not_not_intro hc), if_neg h3, if_neg hwait]
  exact ⟨_, r, rfl, wf_mem .., rfl, rfl, rfl, rfl, hmore, rfl⟩

theorem digestComplete_over {k : Nat} {r : DgeReq} (hr : aget s.sec.dreq k = some r) (hch : r.chain = false) (hco : r.core.isSome = true)
    (ht : r.at0 + 16 * digestBlocks r.op r.data.length ≤ s.now) : exec (.digestComplete k) s =
      .next ((((s.dgeDrop k).store (hbmBase + r.dst) (if r.op = 2 then hmac r.key r.data else sha256 r.data)).incWrap R.DGE.CNT_MSG.COUNT).dgeEnd r.desc 0) := by
  have hgo : ¬(r.chain = true ∨ r.core.isNone = true ∨ s.now < r.at0 + 16 * digestBlocks r.op r.data.length) := by
    simp [hch, Option.isSome_iff_ne_none.1 hco, Nat.not_lt.2 ht]
  simp only [exec_digestComplete, execDigestComplete, hr, if_neg hgo]

theorem chainTimeout_ends {k : Nat} {r : DgeReq} (hr : aget s.sec.dreq k = some r) (hch : r.chain = true) (hp : s.ringPosted dgeRing = 0)
    (ht : r.last + s.rf R.DGE.CFG.CHAIN_US * 1000 ≤ s.now) : exec (.chainTimeout k) s = .next ((s.dgeDrop k).dgeEnd r.desc 9) := by
  simp only [exec_chainTimeout, execChainTimeout, hr, if_pos (And.intro hch (And.intro hp ht))]

end

/-! ## Ciphers -/

section
variable {s : State}

theorem cphTake_new {a op : Nat} (hf : s.ringFront cphRing = some a) (hb : s.blockOn Pg.CPH = true) (ho : s.dFld a 0 1 = op) :
    s.cphTake op = (s.cphNew a).cphBad 65536 := by
  simp [State.cphTake, hf, hb, ho]

theorem cipherComplete_over {k t : Nat} {r : CphReq} (hr : aget s.sec.creq k = some r) (hco : r.core = some t)
    (ht : 8 * t + 5 * cdiv (r.len + r.auxLen) 16 ≤ 8 * s.now) : exec (.cipherComplete k) s =
      .next (((s.cphDrop k).store (hbmBase + r.dst) (s.cphOutput r).1).cphEnd r.desc (s.cphOutput r).2).cphGo := by
  simp only [exec_cipherComplete, execCipherComplete, hr, hco, if_neg (Nat.not_lt.2 ht)]

theorem cphOutput_of_op (r : CphReq) (s : State) : (r.op = 1 → s.cphOutput r = (xtsEnc r.key r.iv (s.load (hbmBase + r.src) r.len), 0)) ∧
    (r.op = 2 → s.cphOutput r = (xtsDec r.key r.iv (s.load (hbmBase + r.src) r.len), 0)) ∧
    (r.op = 4 → gcmDec r.key (r.iv.take 12) (s.load (hbmBase + r.aux) r.auxLen) (s.load (hbmBase + r.src) r.len) (s.load (hbmBase + r.src + r.len) 16) = none →
      s.cphOutput r = (zeros r.len, 3)) := by
  refine ⟨fun ho => if_pos ho, fun ho => ?_, fun ho hd => ?_⟩
  · rw [State.cphOutput, ho]
    rfl
  · simp only [State.cphOutput, ho, hd]
    rfl

theorem cphRequestAged_ages {k : Nat} {r : CphReq} (hr : aget s.sec.creq k = some r) (hco : r.core = none) (ha : r.aged = false)
    (ht : r.at0 + s.rf R.CPH.CFG.AGE_US * 1000 < s.now) : ∃ v : State,
    exec (.cphRequestAged k) s = .next (v.inc R.CPH.CNT_AGED.COUNT).cphGo ∧ v.sec.creq = aupd s.sec.creq k (fun (x : CphReq) => { x with aged := true }) ∧ v.regs = s.regs := by
  have hgo : r.core.isNone ∧ r.aged = false ∧ r.at0 + s.rf R.CPH.CFG.AGE_US * 1000 < s.now := ⟨by rw [hco]; rfl, ha, ht⟩
  simp only [exec_cphRequestAged, execCphRequestAged, hr, if_pos hgo]
  exact ⟨_, rfl, rfl, rfl⟩

end

/-- Settles O48: what a ring's front descriptor starts, and what ends it. -/
theorem enginesComplete : Obligations.EnginesComplete := by
  refine ⟨fun _ _ => ⟨rfl, rfl⟩, fun a s hf hc hb => ⟨fun ho => ?_, fun ho => ?_, fun ho => ?_⟩, fun a k r s hf hc => ⟨fun ho => ?_, fun ho => ?_⟩,
    fun a n s ho hl hn h1 h2 => dgeNew_compares ho hl hn h1 h2, fun a n s ho hm hl h1 h2 hfree hcores hn => dgeNew_runs ho hm hl h1 h2 hfree hcores hn,
    fun k r s hr hch hco ht => digestComplete_over hr hch hco ht, fun k r s hr hch hp ht => chainTimeout_ends hr hch hp ht,
    fun a s hf hb => ⟨fun ho => ?_, fun ho => ?_, fun ho => ?_, fun ho => ?_⟩, fun k t r s hr hco ht => cipherComplete_over hr hco ht, cphOutput_of_op,
    fun k r s hr hco ha ht => cphRequestAged_ages hr hco ha ht⟩
  · exact congrArg Host.Outcome.next (dgeTake_new hf hc hb ho)
  · exact congrArg Host.Outcome.next (dgeTake_new hf hc hb ho)
  · exact congrArg Host.Outcome.next (dgeTake_new hf hc hb ho)
  · exact congrArg Host.Outcome.next (dgeTake_next hf hc ho)
  · exact congrArg Host.Outcome.next (dgeTake_next hf hc ho)
  · exact congrArg Host.Outcome.next (cphTake_new hf hb ho)
  · exact congrArg Host.Outcome.next (cphTake_new hf hb ho)
  · exact congrArg Host.Outcome.next (cphTake_new hf hb ho)
  · exact congrArg Host.Outcome.next (cphTake_new hf hb ho)

end Sys2Proof.Proofs
end

section
/-! Keys, signatures and alarms, and O49 (R549 to R558, R561 to R568). -/
namespace Sys2Proof.Proofs
open Sys2Proof Sys2Proof.Machine Sys2Proof.Laws

/-! ## Key slots -/

section
variable {eng slot : Nat} {s : State}

theorem keyAt_keyPut_same (s : State) (eng slot : Nat) (k : Key) : (s.keyPut eng slot k).keyAt eng slot = some k := by
  unfold State.keyPut State.keyAt
  split_ifs <;> exact aget_aset_same ..

theorem keyAt_keyPut_other {j : Nat} (s : State) (eng : Nat) (k : Key) (h : j ≠ slot) : (s.keyPut eng slot k).keyAt eng j = s.keyAt eng j := by
  unfold State.keyPut State.keyAt
  split_ifs <;> exact aget_aset_other _ _ _ _ h

theorem keyAt_keyClear_same (s : State) (eng slot : Nat) : (s.keyClear eng slot).keyAt eng slot = none := by
  unfold State.keyClear State.keyAt
  split_ifs <;> exact aget_adel_same ..

theorem keyPut_regs (s : State) (eng slot : Nat) (k : Key) : (s.keyPut eng slot k).regs = s.regs := of_ite (P := fun u : State => u.regs = s.regs) rfl rfl

theorem keyClear_regs (s : State) (eng slot : Nat) : (s.keyClear eng slot).regs = s.regs := of_ite (P := fun u : State => u.regs = s.regs) rfl rfl

/-- A key brought in in the clear fills its free slot and no other. -/
theorem keyImport_fills {n : Nat} {key : Bytes} (hc : s.flag R.SEC.CFG.CLEAR_IMPORT = true) (ha : s.keyArgOk eng slot = true)
    (hn : n = klenOf eng (s.rf R.SEC.KEY_ARG.KIND)) (hin : s.inFw (s.rf R.SEC.KEY_IN.ADDR) n = true) (hfree : s.keyAt eng slot = none)
    (hk : key = s.load (hbmBase + s.rf R.SEC.KEY_IN.ADDR) n) (hw : weakKey eng (s.rf R.SEC.KEY_ARG.KIND) key = false) :
    ∃ v : State, s.keyImport eng slot = v.keyDone 0 ∧ v.keyAt eng slot = some { kind := s.rf R.SEC.KEY_ARG.KIND, key := key, kid := s.rf R.SEC.KEY_KID.KID } ∧
      v.regs = s.regs ∧ ∀ j, j ≠ slot → v.keyAt eng j = s.keyAt eng j := by
  have himport : s.keyImport eng slot = s.keyFinish eng slot key := by
    simp only [State.keyImport, hc, ha, ← hn, hin, hfree, ← hk, Bool.not_true, Bool.or_self, Bool.false_eq_true, if_false, Option.isSome_none]
  rw [himport, State.keyFinish]
  simp only [hw, Bool.false_eq_true, if_false]
  refine ⟨_, rfl, ?_, ?_, fun j hj => ?_⟩
  · exact of_ite (P := fun u : State => u.keyAt eng slot = _) (keyAt_keyPut_same ..) (keyAt_keyPut_same ..)
  · exact of_ite (P := fun u : State => u.regs = s.regs) (keyPut_regs ..) (keyPut_regs ..)
  · exact of_ite (P := fun u : State => u.keyAt eng j = _) (keyAt_keyPut_other _ _ _ hj) (keyAt_keyPut_other _ _ _ hj)

theorem keyErase_marks {k : Key} (hk : s.keyAt eng slot = some k) : (s.keyErase eng slot).keyAt eng slot = some { k with dying := true } ∧
    (s.keyErase eng slot).sec.erase = some (eng, slot) := by
  simp only [State.keyErase, hk]
  exact ⟨keyAt_keyPut_same .., trivial⟩

theorem keyEraseDone_clears (he : s.sec.erase = some (eng, slot)) (hb : s.slotBusy eng slot = false) : ∃ v : State,
    exec .keyEraseDone s = .next (v.keyDone 0) ∧ v.keyAt eng slot = none ∧ v.sec.erase = none ∧ v.regs = s.regs := by
  simp only [exec_keyEraseDone, execKeyEraseDone, he, hb, Bool.false_eq_true, if_false]
  exact ⟨_, rfl, keyAt_keyClear_same s eng slot, rfl, keyClear_regs s eng slot⟩

end

theorem keyCmd_idle {s : State} (hp : s.flag R.SEC.KEY_STAT.PENDING = false) (hz : s.flag R.SEC.STAT.ZEROISED = false) (eng slot : Nat) :
    s.keyCmd 1 eng slot = s.keyImport eng slot ∧ s.keyCmd 2 eng slot = s.keyGenerate eng slot ∧ s.keyCmd 3 eng slot = s.keyLoad eng slot ∧
      s.keyCmd 4 eng slot = s.keyErase eng slot := by
  simp [State.keyCmd, hp, hz]

theorem keyCmd_busy {s : State} (hp : s.flag R.SEC.KEY_STAT.PENDING = true) (op eng slot : Nat) : s.keyCmd op eng slot = s.wf R.SEC.KEY_STAT.RESULT 2 := if_pos hp

/-! ## Signatures and measurements -/

section
variable {s : State}

theorem signCmd_idle (hp : s.flag R.SEC.SIGN_STAT.PENDING = false) (hz : s.flag R.SEC.STAT.ZEROISED = false) (m : Nat) :
    s.signCmd 1 m = s.signQuote ∧ s.signCmd 2 m = s.signPubkey ∧ s.signCmd 3 m = s.measExtend m ∧ s.signCmd 4 m = s.genIdentity := by
  simp [State.signCmd, hp, hz]

theorem measExtend_extends {r : Nat} (hin : s.inFw (s.rf R.SEC.SIGN_IN.ADDR) 32 = true) : ∃ v : State, s.measExtend r = v.signDone 0 ∧
    v.sec.meas = s.sec.meas.set r (sha256 (padTo 32 (nthD s.sec.meas r []) ++ s.load (hbmBase + s.rf R.SEC.SIGN_IN.ADDR) 32)) ∧ v.regs = s.regs ∧ v.mem = s.mem := by
  simp only [State.measExtend, hin, if_true, setNth_eq_set]
  exact ⟨_, rfl, rfl, rfl, rfl⟩

theorem signPubkey_known {seed I : Bytes} (hi : s.sec.ident = some (seed, I)) (hin : s.inFw (s.rf R.SEC.SIGN_OUT.ADDR) 8192 = true) :
    s.signPubkey = (s.store (hbmBase + s.rf R.SEC.SIGN_OUT.ADDR) (identPub I seed)).signDone 0 := by
  simp only [State.signPubkey, hi, hin, if_true]

theorem signatureRelease_of_ready {j : SignJob} (hj : s.sec.job = some j) (hr : s.flag R.SEC.STAT.READY = true) (ht : s.sec.trees.contains (j.q / 32768) = true) :
    exec (.signatureRelease true) s = .next (s.signRelease j).signNext ∧
    (j.again = true → ∃ v : State, v.sec.job = none ∧ v.regs = s.regs ∧ exec (.signatureRelease false) s = .next (v.signRefuse j.forSeal 7).signNext) := by
  have hgo : ¬(s.flag R.SEC.STAT.READY = false ∨ s.sec.trees.contains (j.q / 32768) = false) := by rw [hr, ht]; decide
  simp only [exec_signatureRelease, execSignatureRelease, hj, if_neg hgo, if_true, Bool.false_eq_true, if_false]
  exact ⟨trivial, fun ha => ⟨{ s with sec := { s.sec with job := none } }, rfl, rfl, by simp only [ha, if_true]⟩⟩

theorem secShow_keeps (s : State) : s.secShow.sec = s.sec ∧ s.secShow.fuses = s.fuses := by simp [State.secShow]

/-- An index is reserved in the fuses before it is given, and a block of the reservation is used up first. -/
theorem takeIndex_takes {q : Nat} {u : State} (h : s.takeIndex = some (q, u)) :
    s.fuses.reservation ≤ u.fuses.reservation ∧ u.fuses.reservation ≤ max 8192 s.fuses.reservation ∧
      (s.sec.block = true → s.sec.used < 1024 → u.fuses = s.fuses ∧ u.sec.used = s.sec.used + 1) := by
  unfold State.takeIndex at h
  extract_lets k _ _ s1 at h
  have h1 : s1.fuses.reservation = k + 1 := congrArg Fuses.reservation (secShow_keeps _).2
  split at h
  · obtain ⟨-, rfl⟩ := Prod.mk.inj (Option.some.inj h)
    rw [(secShow_keeps _).1, (secShow_keeps _).2]
    exact ⟨Nat.le_refl _, Nat.le_max_right _ _, fun _ _ => ⟨rfl, rfl⟩⟩
  · next hb =>
    split at h
    · next hk =>
      obtain ⟨-, hu⟩ := Prod.mk.inj (Option.some.inj h)
      have hr : u.fuses.reservation = k + 1 := by
        rw [← hu]
        exact of_ite (P := fun t : State => t.fuses.reservation = k + 1) ((congrArg Fuses.reservation (raise_fuses ..)).trans h1) h1
      refine ⟨by omega, by omega, fun h2 h3 => absurd ⟨h2, h3⟩ hb⟩
    · cases h

theorem genIdentity_waits {drk : Bytes} (hm : s.mode = .service) (hd : s.sec.drk = some drk) (hr : s.rf R.SEC.STAT.RNG ≠ 0) (hf : s.flashOk = false) :
    s.genIdentity = { s.wf R.SEC.SIGN_STAT.PENDING 1 with sec := { s.sec with genWait := true } } := by
  simp only [State.genIdentity, ne_eq, hm, not_true, if_false, hd, if_neg hr, hf, Bool.not_false, if_true]

theorem genIdentity_makes {drk : Bytes} (hm : s.mode = .service) (hd : s.sec.drk = some drk) (hr : s.rf R.SEC.STAT.RNG ≠ 0) (hf : s.flashOk = true) :
    ∃ v : State, s.genIdentity = v.signDone 0 ∧ v.sec.ident.isSome = true ∧ v.sec.trees = [] := by
  simp only [State.genIdentity, ne_eq, hm, not_true, if_false, hd, if_neg hr, hf, Bool.not_true, Bool.false_eq_true]
  refine ⟨_, rfl, ?_⟩
  rw [(secShow_keeps _).1]
  exact ⟨rfl, rfl⟩

theorem nodeTablesReady_ready (hg : s.sec.genWait = false) (hi : s.sec.ident.isSome = true) : ∃ v : State,
    exec .nodeTablesReady s = .next v ∧ v.sec.trees = [s.nextTree] ∧ v.mem = s.mem := by
  simp only [exec_nodeTablesReady, execNodeTablesReady, hg, Bool.false_and, Bool.false_eq_true, if_false, hi, if_true]
  exact ⟨_, rfl, rfl, wf_mem ..⟩

theorem nextTreeBuild_builds (hr : s.flag R.SEC.STAT.READY = true) (hi : s.sec.ident.isSome = true) (hj : s.sec.job = none)
    (hq : 16384 ≤ s.rf R.SEC.NEXT_Q.INDEX % 32768) (hn : s.sec.trees.contains (s.nextTree + 1) = false) : ∃ v : State,
    exec .nextTreeBuild s = .next v ∧ v.sec.trees = s.sec.trees ++ [s.nextTree + 1] ∧ v.regs = s.regs := by
  have hgo : ¬(s.flag R.SEC.STAT.READY = false ∨ s.sec.ident.isNone = true) := by simp [hr, Option.isSome_iff_ne_none.1 hi]
  simp only [exec_nextTreeBuild, execNextTreeBuild, if_neg hgo, hj, if_pos hq, hn, Bool.false_eq_true, if_false]
  exact ⟨_, rfl, rfl, rfl⟩

theorem noiseSourceFail_falls {n : Fin 2} {v : State} (hb : bit (s.rf R.SEC.STAT.RNG) n = true)
    (hv : v = s.wf R.SEC.STAT.RNG (setBit (s.rf R.SEC.STAT.RNG) n false)) :
    exec (.noiseSourceFail n) s = .next ((v.raise Pg.SEC (if v.rf R.SEC.STAT.RNG = 0 then 2 else 1)).settle) := by
  simp only [exec_noiseSourceFail, execNoiseSourceFail, hb, Bool.not_true, Bool.false_eq_true, if_false, ← hv]
  split_ifs <;> rfl

end

/-- An alarm clears every key, then ends what needed one. -/
theorem alarm_zeroises {src : Fin 5} {s v w : State} (ht : src.val = 4 → s.flag R.SEC.CFG.TAMPER_EN = true)
    (hw : w = ((s.wf R.SEC.ALARM.SRC (setBit (s.rf R.SEC.ALARM.SRC) src true)).wf R.SEC.STAT.ZEROISED 1).zeroKeys)
    (hv : v = (if w.zeroCommands.mode = .vault then { w.zeroCommands with sgb := { w.zeroCommands.sgb with vaultStuck := true } } else w.zeroCommands)) :
    exec (.alarm src) s = .next (((v.evrEvent 3 Unit.sec (v.rf R.SEC.ALARM.SRC)).raise Pg.SEC 0).settle) ∧
      w.sec.dge = [] ∧ w.sec.cph = [] ∧ w.sec.drk = none ∧ w.sec.ident = none := by
  have hgo : ¬(src.val = 4 ∧ s.flag R.SEC.CFG.TAMPER_EN = false) := fun h => Bool.noConfusion (h.2.symm.trans (ht h.1))
  refine ⟨?_, by rw [hw]; exact ⟨rfl, rfl, rfl, rfl⟩⟩
  simp only [exec_alarm, execAlarm, if_neg hgo, ← hw, ← hv]

/-- Settles O49: SEC's commands in the branch their conditions give; an index is never given twice from a block. -/
theorem keysComplete : Obligations.KeysComplete := by
  refine ⟨fun eng slot s hp hz => ?_, fun eng slot s hp => ?_, fun eng slot n key s hc ha hn hin hfree hk hw => keyImport_fills hc ha hn hin hfree hk hw,
    fun eng slot k s hk => keyErase_marks hk, fun eng slot s he hb => keyEraseDone_clears he hb, fun mreg s hp hz => ?_, fun seed I s hi hin => signPubkey_known hi hin,
    fun s hm => if_pos hm, fun j s hj hr ht => signatureRelease_of_ready hj hr ht, fun q s u h => takeIndex_takes h,
    fun drk s hm hd hr => ⟨genIdentity_waits hm hd hr, genIdentity_makes hm hd hr⟩, fun s hg hi => nodeTablesReady_ready hg hi,
    fun s hr hi hj hq hn => nextTreeBuild_builds hr hi hj hq hn, fun src s v w ht hw hv => alarm_zeroises ht hw hv, fun n s v hb hv => noiseSourceFail_falls hb hv⟩
  · obtain ⟨h1, h2, h3, h4⟩ := keyCmd_idle hp hz eng slot
    exact ⟨congrArg _ h1, congrArg _ h2, congrArg _ h3, congrArg _ h4⟩
  · exact ⟨congrArg _ (keyCmd_busy hp ..), congrArg _ (keyCmd_busy hp ..), congrArg _ (keyCmd_busy hp ..), congrArg _ (keyCmd_busy hp ..)⟩
  · obtain ⟨h1, h2, -, h4⟩ := signCmd_idle hp hz 0
    obtain ⟨-, -, h3, -⟩ := signCmd_idle hp hz mreg
    refine ⟨congrArg _ h1, congrArg _ h2, congrArg _ h4, fun hin _ => ?_⟩
    obtain ⟨v, hv, hrest⟩ := measExtend_extends (r := mreg) hin
    exact ⟨v, congrArg _ (h3.trans hv), hrest⟩

end Sys2Proof.Proofs
end

section
/-! Cores and their accesses, and O50 (R574, R575, R577 to R580, R583, R592, R595). -/
namespace Sys2Proof.Proofs
open Sys2Proof Sys2Proof.Machine Sys2Proof.Laws

theorem coreRun_grows {s : State} (v : BitVec 32) (h : s.regsWf = true) :
    (s.coreRunWrite v.toNat).rf R.CCL.CORE_RUN.RUN = (s.rf R.CCL.CORE_RUN.RUN ||| v.toNat % 2 ^ 24) := by
  rw [State.coreRunWrite, rf_wf_same _ _ _ h]
  exact Nat.mod_eq_of_lt (Nat.or_lt_two_pow (rf_lt s R.CCL.CORE_RUN.RUN) (Nat.mod_lt _ (by decide)))

section
variable {c : Fin 24} {s u : State}

theorem stampCsrRead_of_runs {o : Ostamp} (h : s.coreRuns c = true) :
    (s.issue (Unit.core c) = (some o, u) → exec (.stampCsrRead c false false) s = .next (u.emit (.readData c 0xCC0 (o % 2 ^ 64)))) ∧
    exec (.stampCsrRead c true false) s = .next (s.emit (.readData c 0xCC1 (agetD s.tbs.issuers (Unit.core c) 0 / 2 ^ 64))) ∧
    (∀ hi : Bool, exec (.stampCsrRead c hi true) s = .next (s.emit (.illegal c (if hi then 0xCC1 else 0xCC0)))) := by
  simp only [exec_stampCsrRead, execStampCsrRead, h, Bool.not_true, Bool.false_eq_true, if_false, if_true]
  exact ⟨fun hi => by simp only [hi], trivial, fun _ => trivial⟩

theorem coreDataAccess_of_runs {pc a : Nat} {acc : CoreAcc} {env : WriteEnv} (h : s.coreRuns c = true) (hw : ∀ n, acc ≠ .walk n) :
    exec (.coreDataAccess c pc a acc env) s = .next (s.coreAccess env c pc a acc) := by
  cases acc with
  | walk n => exact absurd rfl (hw n)
  | load | store | lr | sc | amo | fetch => exact congrArg _ (if_pos h)

end

/-! ## Where an access goes -/

section
variable {env : WriteEnv} {c pc a : Nat} {acc : CoreAcc} {s : State}

/-- An access inside HBM is none to the boot ROM or to a device. -/
theorem coreAccess_hbm (h1 : hbmBase ≤ a) (h2 : a + accLen acc ≤ hbmBase + 51539607552) : s.coreAccess env c pc a acc =
    if s.inFw (a - hbmBase) (accLen acc) then s.coreMem c pc a acc true
    else if s.mode = .service then s.coreMem c pc a acc false
    else s.emit (.accessFault c a) := by
  have hb : hbmBase = 1099511627776 := rfl
  unfold State.coreAccess
  rw [if_neg (by omega), if_neg (by omega), if_neg (by omega), if_pos ⟨h1, h2⟩]

/-- Between the devices and HBM there is nothing. -/
theorem coreAccess_unassigned (h1 : 0x44000000 ≤ a) (h0 : 0 < accLen acc) (h2 : a + accLen acc ≤ hbmBase) :
    s.coreAccess env c pc a acc = (s.emit (.accessFault c a)).raise Pg.CCL 7 := by
  have hb : hbmBase = 1099511627776 := rfl
  have hd : dramBase = 17592186044416 := rfl
  unfold State.coreAccess
  rw [if_neg (by omega), if_neg (by omega), if_neg (by omega), if_neg (by omega), if_neg (by omega)]

end

/-! ## What an access does in memory -/

section
variable {c pc a : Nat} {s : State}

/-- What an access past L2 shows: the memory and the answers. -/
def besideL2 (s : State) : List Host.Cell × List Out := (s.mem, s.out)

/-- Past the caches, the access itself and its answer are all. -/
theorem bypass_beside (acc : CoreAcc) : besideL2 (s.bypass c a acc) =
    ((s.memAct c a acc).2.mem, (s.memAct c a acc).2.out ++ ((s.memAct c a acc).1.map (fun v => Out.readData c a v)).toList) := by
  unfold State.bypass
  extract_lets x s1 line d _ s2
  have h2 : besideL2 s2 = besideL2 s1 := of_ite (P := fun t => besideL2 t = besideL2 s1) rfl rfl
  have hmem : s2.mem = s1.mem := congrArg Prod.fst h2
  have hout : s2.out = s1.out := congrArg Prod.snd h2
  split
  · next v hv =>
    rw [hv]
    exact Prod.ext hmem (congrArg (· ++ [Out.readData c a v]) hout)
  · next hv =>
    rw [hv]
    exact Prod.ext hmem (hout.trans (List.append_nil _).symm)

theorem coreMem_bypass {acc : CoreAcc} (h2 : s.l2State ≠ 1) (hr : ¬(accReads acc = true ∧ s.readable a (accLen acc) = false)) :
    s.coreMem c pc a acc true = s.bypass c a acc := by
  unfold State.coreMem
  rw [if_neg (fun h => Bool.noConfusion h.1), if_neg hr, if_pos (.inr h2)]

theorem coreMem_store (d : Bytes) (h2 : s.l2State ≠ 1) : (s.coreMem c pc a (.store d) true).mem = (s.store a d).mem := by
  rw [coreMem_bypass h2 (fun h => Bool.noConfusion h.1)]
  exact congrArg Prod.fst (bypass_beside _)

theorem coreMem_load {n : Nat} (h2 : s.l2State ≠ 1) (ha : 65536 ≤ a) (hr : s.readable a n = true) :
    (s.coreMem c pc a (.load n) true).out = s.out ++ [.readData c a (leVal (s.physBytes a n))] ∧ (s.coreMem c pc a (.load n) true).mem = s.mem := by
  have hp : s.physLoad a n = s.physBytes a n := if_neg (Nat.not_lt.2 ha)
  rw [coreMem_bypass h2 (fun h => Bool.noConfusion (h.2.symm.trans hr)), ← hp]
  have hb := bypass_beside (c := c) (a := a) (s := s) (.load n)
  exact ⟨congrArg Prod.snd hb, congrArg Prod.fst hb⟩

theorem coreMem_unreadable {n : Nat} (hr : s.readable a n = false) : s.coreMem c pc a (.load n) true = s.emit (.accessFault c a) := by
  unfold State.coreMem
  rw [if_neg (fun h => Bool.noConfusion h.1), if_pos ⟨rfl, hr⟩]

theorem coreMem_sc (d : Bytes) (h2 : s.l2State ≠ 1) :
    (s.coreMem c pc a (.sc d) true).mem = (if (s.core c).resv = some (a / 64) then (s.store a d).mem else s.mem) := by
  rw [coreMem_bypass h2 (fun h => Bool.noConfusion h.1)]
  have hb := bypass_beside (c := c) (a := a) (s := s) (.sc d)
  refine (congrArg Prod.fst hb).trans ?_
  exact apply_ite State.mem ((s.core c).resv = some (a / 64)) _ _

end

/-- Settles O50: each access where its region sends it; past L2 an access changes memory as it says and answers what it read. -/
theorem coresComplete : Obligations.CoresComplete := by
  refine ⟨fun v s h => ⟨_, rfl, coreRun_grows v h⟩, fun c s u o h => stampCsrRead_of_runs h, fun c v s => ⟨rfl, rfl⟩, fun c pc a acc env s h hw =>
      ⟨coreDataAccess_of_runs h hw, fun h1 h2 hin => ?_, fun h1 h2 hin hm => ?_, fun h1 h0 h2 => coreAccess_unassigned h1 h0 h2⟩, fun _ _ _ _ _ _ => rfl,
    fun c pc a d s h2 => ⟨coreMem_store d h2, fun n ha hr => coreMem_load h2 ha hr, fun n hr => coreMem_unreadable hr, coreMem_sc d h2⟩⟩
  · rw [coreAccess_hbm h1 h2, if_pos hin]
  · rw [coreAccess_hbm h1 h2, if_neg (by rw [hin]; decide), if_neg hm]

end Sys2Proof.Proofs
end

section
/-! L2 and interrupt delivery, and O51 (R591, R592, R596 to R600, R602 to R608). -/
namespace Sys2Proof.Proofs
open Sys2Proof Sys2Proof.Machine Sys2Proof.Laws

/-! ## Misses -/

section
variable {line : Nat} {m : MissReg} {s : State}

theorem restart_keeps (s : State) (r : CacheReq) : (s.restart r).mem = s.mem ∧ (s.restart r).ccl = s.ccl := by
  unfold State.restart
  split
  · split <;> exact ⟨rfl, rfl⟩
  · exact ⟨rfl, rfl⟩

/-- The first requester of a privileged miss goes on with its chunk. -/
theorem criticalChunk_restarts {r : CacheReq} {t : List CacheReq} (hm : s.ccl.regs.find? (fun m => m.line == line) = some m) (hr : m.reqs = r :: t)
    (hp : r.priv = true) (hf : m.prefetched = false) (ha : r.answered = false) : ∃ v : State,
    exec (.criticalChunk line) s = .next v ∧ v.out = (s.restart r).out ∧ v.mem = s.mem ∧
      v.ccl.regs = s.ccl.regs.map (fun (x : MissReg) => if x.line = line then { x with reqs := { r with answered := true } :: t } else x) := by
  simp only [exec_criticalChunk, execCriticalChunk, hm, hr, hp, hf, ha, Bool.not_false, Bool.and_self, if_true]
  refine ⟨_, rfl, rfl, (restart_keeps s r).1, ?_⟩
  dsimp only
  rw [(restart_keeps s r).2]

theorem l2LineFill_fills (hm : s.ccl.regs.find? (fun m => m.line == line) = some m) : exec (.l2LineFill line) s = .next (s.l2Fill m) := by
  simp only [exec_l2LineFill, execL2LineFill, hm]

end

/-! ## The states of L2 -/

/-- The marking of lines as dirty is a matter of L2 alone. -/
theorem l2Dirty_lines (s : State) (l : List Nat) : (l.foldl (fun s l => s.l2Dirty l) s).regs = s.regs ∧ (l.foldl (fun s l => s.l2Dirty l) s).mem = s.mem :=
  List.foldlRecOn l _ (motive := fun u : State => u.regs = s.regs ∧ u.mem = s.mem) ⟨rfl, rfl⟩ fun _ hu _ _ => hu

section
variable {s : State} (h : s.regsWf = true)
include h

/-- A write of another field of L2_STATE leaves the state. -/
theorem l2State_wf_apart {f : Fld} (v : Nat) (ha : apart f R.CCL.L2_STATE.STATE = true) : (s.wf f v).l2State = s.l2State := rf_wf_apart _ _ _ _ h ha

theorem l2State_wf (v : Nat) : (s.wf R.CCL.L2_STATE.STATE v).l2State = v % 4 := rf_wf_same _ _ _ h

theorem l2Invalidate_begins (h0 : s.l2State = 0) (hb : s.flag R.CCL.L2_STATE.BUSY = false) : ∃ v : State,
    exec .l2Invalidate s = .next v ∧ v.l2State = 3 ∧ v.flag R.CCL.L2_STATE.BUSY = true := by
  have h1 := regs_wf s R.CCL.L2_STATE.STATE 3 h
  refine ⟨_, congrArg Host.Outcome.next (if_pos ⟨hb, h0⟩), ?_, ?_⟩
  · rw [l2State_wf_apart h1 _ (by decide), l2State_wf h]
  · rw [State.flag, rf_wf_same _ _ _ h1]
    rfl

/-- Emptying the caches keeps the registers canonical. -/
theorem l2Empty_regsWf : s.l2Empty.regsWf = true := regs_wf (s.wf R.CCL.L2_PRELOADED.WAYS 0) _ _ (regs_wf s _ _ h)

theorem l2InvalidateDone_off (h3 : s.l2State = 3) : ∃ v : State, exec .l2InvalidateDone s = .next v ∧ v.l2State = 0 ∧ v.flag R.CCL.L2_STATE.INV_DONE = true ∧
    v.ccl.l2 = [] ∧ v.ccl.side = [] := by
  have h0 := l2Empty_regsWf h
  have h1 := regs_wf _ R.CCL.L2_STATE.STATE 0 h0
  have h2 := regs_wf _ R.CCL.L2_STATE.BUSY 0 h1
  refine ⟨_, if_pos h3, ?_, ?_, ?_, ?_⟩
  · rw [l2State_wf_apart h2 _ (by decide), l2State_wf_apart h1 _ (by decide), l2State_wf h0]
  · rw [State.flag, rf_wf_same _ _ _ h2]
    rfl
  · simp only [wf_ccl]
    rfl
  · simp only [wf_ccl]
    rfl

theorem l2Enable_on (h0 : s.l2State = 0) (hd : s.flag R.CCL.L2_STATE.INV_DONE = true) : ∃ v : State, exec .l2Enable s = .next v ∧ v.l2State = 1 := by
  refine ⟨(s.wf R.CCL.L2_STATE.STATE 1).wf R.CCL.L2_CTL.EN 1, ?_, ?_⟩
  · simp only [exec_l2Enable, execL2Enable, State.l2Enable, h0, hd, ne_eq, not_true, if_false, if_true]
  · rw [l2State_wf_apart (regs_wf s _ _ h) _ (by decide), l2State_wf h]

theorem l2State_draining : ((s.wf R.CCL.L2_STATE.STATE 2).wf R.CCL.L2_CTL.EN 0).l2State = 2 := by
  rw [l2State_wf_apart (regs_wf _ _ _ h) _ (by decide), l2State_wf h]

theorem l2Disable_drains (h1 : s.l2State = 1) : ∃ v : State, exec .l2Disable s = .next v ∧ v.l2State = 2 ∧ v.ccl.side = [] ∧ v.mem = s.mem := by
  have hgo : ¬(s.l2State ≠ 1) := not_not_intro h1
  simp only [exec_l2Disable, execL2Disable, State.l2Disable, if_neg hgo]
  generalize hl : s.ccl.cores.flatMap (fun e => (e.2.l1d.filter (fun x => x.2)).map Prod.fst) = dirty
  obtain ⟨hregs, hmem⟩ := l2Dirty_lines s dirty
  have hw : swf resetWord (dirty.foldl (fun s l => s.l2Dirty l) s).regs = true := by rw [hregs]; exact h
  generalize dirty.foldl (fun s l => s.l2Dirty l) s = u at hmem hw
  refine ⟨_, rfl, ?_, ?_, ?_⟩
  · exact l2State_draining hw
  · simp only [wf_ccl]
  · simp only [wf_mem]
    exact hmem

theorem l2DrainComplete_off (h2 : s.l2State = 2) : ∃ v : State, exec .l2DrainComplete s = .next v ∧ v.l2State = 0 ∧ v.ccl.l2 = [] ∧
    v.rf R.CCL.L2_DRAIN_COUNT.LINES = min (s.ccl.drained + (s.ccl.l2.filter (fun x => x.dirty)).length) 0xFFFFFFFF := by
  have h0 := l2Empty_regsWf h
  have h1 := regs_wf _ R.CCL.L2_STATE.STATE 0 h0
  have h3 := regs_wf _ R.CCL.L2_STATE.BUSY 0 h1
  refine ⟨_, if_pos h2, ?_, ?_, ?_⟩
  · rw [l2State_wf_apart h3 _ (by decide), l2State_wf_apart h1 _ (by decide), l2State_wf h0]
  · simp only [wf_ccl]
    rfl
  · rw [rf_wf_same _ _ _ h3]
    exact Nat.mod_eq_of_lt (by simp only [R.CCL.L2_DRAIN_COUNT.LINES]; omega)

end

theorem l2Enable_refused {s : State} (h0 : s.l2State = 0) (hd : s.flag R.CCL.L2_STATE.INV_DONE = false) :
    exec .l2Enable s = .next (s.l2Bad R.CCL.L2_STATE.ENABLE_NO_INV) := by
  simp only [exec_l2Enable, execL2Enable, State.l2Enable, h0, hd, ne_eq, not_true, if_false, Bool.false_eq_true]

theorem l2Preload_begins {w : Fin 16} {a n : Nat} {s : State} (h1 : s.l2State = 1) (hb : s.flag R.CCL.L2_STATE.BUSY = false) (ha : s.rf R.CCL.L2_PRELOAD_ADDR.ADDR = a)
    (hn : s.rf R.CCL.L2_PRELOAD_LEN.BYTES = n) (ha64 : a % 64 = 0) (hn64 : n % 64 = 0) (hn0 : 0 < n) (hmib : a / 1048576 = (a + n - 1) / 1048576)
    (hc1 : s.cacheable a = true) (hc2 : s.cacheable (a + n - 1) = true) (hl : bit (s.rf R.CCL.L2_LOCK.WAYS) w = false) : ∃ v : State,
    exec (.l2Preload w) s = .next v ∧ v.ccl.preload = some w.val ∧ v.ccl.l2 = s.ccl.l2 ∧ v.mem = s.mem := by
  refine ⟨{ s.wf R.CCL.L2_STATE.BUSY 1 with ccl := { s.ccl with preload := some w.val } }, ?_, rfl, rfl, wf_mem ..⟩
  simp only [exec_l2Preload, execL2Preload, State.l2Preload, ha, hn, hb, Bool.false_eq_true, if_false, hc1, hc2, hl, Bool.not_false, Bool.and_true,
    decide_eq_true (And.intro h1 (And.intro ha64 (And.intro hn64 (And.intro hn0 hmib)))), if_true]

theorem l2PreloadDone_preloads {w : Nat} {s v u : State} (hw : s.ccl.preload = some w) (hv : v = { s.wf R.CCL.L2_STATE.BUSY 0 with ccl := { s.ccl with preload := none } })
    (h1 : v.l2State = 1) (hu : u = (List.range (v.rf R.CCL.L2_PRELOAD_LEN.BYTES / 64)).foldl (fun s k => s.preloadLine w (v.rf R.CCL.L2_PRELOAD_ADDR.ADDR / 64 + k)) v) :
    exec .l2PreloadDone s = .next (u.wf R.CCL.L2_PRELOADED.WAYS (setBit (u.rf R.CCL.L2_PRELOADED.WAYS) w true)) := by
  simp only [exec_l2PreloadDone, execL2PreloadDone, hw, ← hv, ne_eq, h1, not_true, if_false, ← hu]

/-! ## Interrupts -/

theorem interruptAssert_asserts {src : Fin 128} {s : State} (h2 : 2 ≤ src.val) (h65 : src.val ≤ 65) (he : src.val % 2 = 1 → s.errLine (src / 2) = true) :
    exec (.interruptAssert src) s = .next (s.assertWith (fun o s => s.occur o) src) := by
  refine if_neg ?_
  rintro (h | h | ⟨ho, hn⟩)
  · omega
  · omega
  · exact Bool.noConfusion (hn.symm.trans (he ho))

/-- s with source k in service at core c with privilege p. -/
def claimed (s : State) (c p k : Nat) : State :=
  { s with irq := { s.irq with inService := aset s.irq.inService k (c * 2 + p), held := aset s.irq.held k (agetD s.irq.cfg k 0) } }

/-- A claim takes the source of highest priority into service and answers its number. -/
theorem interruptClaim_claims {c b : Fin 24} {sup : Bool} {k : Nat} {s : State} (hk : k = s.claimSource c (b2n sup)) (h0 : k ≠ 0) : ∃ v : State,
    exec (.interruptClaim c sup b) s = .next v ∧ aget v.irq.inService k = some (c * 2 + b2n sup) ∧ v.regs = s.regs ∧
      v.out = s.out ++ [.readData b (0x02000000 + c * 4096 + (if sup then 0x2C else 0x24)) k] := by
  have hr : s.irqClaim c (b2n sup) = (k, if k % 2 = 0 then (claimed s c (b2n sup) k).deassert k else claimed s c (b2n sup) k) := by
    rw [State.irqClaim, ← hk]
    exact if_neg h0
  simp only [exec_interruptClaim, execInterruptClaim, hr]
  refine ⟨_, rfl, ?_, ?_, ?_⟩
  · exact of_ite (P := fun u : State => aget u.irq.inService k = _) (aget_aset_same ..) (aget_aset_same ..)
  · exact of_ite (P := fun u : State => u.regs = s.regs) rfl rfl
  · exact of_ite (P := fun u : State => u.out ++ _ = s.out ++ _) rfl rfl

/-- Source k is claimed before x: its priority is higher, or the same and its number not larger. -/
def Before (s : State) (k x : Nat) : Prop := s.irqPrio x < s.irqPrio k ∨ (s.irqPrio x = s.irqPrio k ∧ k ≤ x)

theorem Before.refl (s : State) (k : Nat) : Before s k k := .inr ⟨rfl, Nat.le_refl k⟩

theorem Before.trans {s : State} {i j k : Nat} (h1 : Before s i j) (h2 : Before s j k) : Before s i k := by
  unfold Before at *
  omega

/-- The better of the source found so far and the next. -/
def better (s : State) (m k : Nat) : Nat := if m = 0 ∨ s.irqPrio m < s.irqPrio k then k else m

/-- Over sources in ascending order, the choice is one of them, and no source that may be claimed stands before it. -/
theorem better_foldl {s : State} (l : List Nat) (m : Nat) (hl : l.Pairwise (· < ·)) (hm : ∀ x ∈ l, m < x ∨ m = 0) :
    (l.foldl (better s) m = m ∨ l.foldl (better s) m ∈ l) ∧ (m ≠ 0 → l.foldl (better s) m ≠ 0 ∧ Before s (l.foldl (better s) m) m) ∧
      ∀ x ∈ l, x ≠ 0 → l.foldl (better s) m ≠ 0 ∧ Before s (l.foldl (better s) m) x := by
  induction l generalizing m with
  | nil => exact ⟨.inl rfl, fun h => ⟨h, .refl s m⟩, fun _ hx => nomatch hx⟩
  | cons k l ih =>
    obtain ⟨hk, hl'⟩ := List.pairwise_cons.1 hl
    have hnext : ∀ x ∈ l, better s m k < x ∨ better s m k = 0 := fun x hx => by
      have h1 := hk x hx
      have h2 := hm x (List.mem_cons_of_mem _ hx)
      unfold better
      split_ifs <;> omega
    obtain ⟨hmem, hbest, hall⟩ := ih (better s m k) hl' hnext
    have hkm : k ≠ 0 → better s m k ≠ 0 ∧ Before s (better s m k) k := fun h0 => by
      have h2 := hm k List.mem_cons_self
      unfold better Before
      split_ifs <;> omega
    have hmm : m ≠ 0 → better s m k ≠ 0 ∧ Before s (better s m k) m := fun h0 => by
      have h2 := hm k List.mem_cons_self
      unfold better Before
      split_ifs <;> omega
    rw [List.foldl_cons]
    refine ⟨?_, fun h0 => ?_, fun x hx h0 => ?_⟩
    · obtain heq | hin := hmem
      · rw [heq]
        unfold better
        split_ifs
        · exact .inr List.mem_cons_self
        · exact .inl rfl
      · exact .inr (List.mem_cons_of_mem _ hin)
    · obtain ⟨hne, hb⟩ := hbest (hmm h0).1
      exact ⟨hne, hb.trans (hmm h0).2⟩
    · obtain rfl | hx := List.mem_cons.1 hx
      · obtain ⟨hne, hb⟩ := hbest (hkm h0).1
        exact ⟨hne, hb.trans (hkm h0).2⟩
      · exact hall x hx h0

theorem claimSource_first {c p k j : Nat} {s : State} (hk : k = s.claimSource c p) (he : s.eligible c p j = true) (hj : j < 66) (h0 : 0 < j) :
    s.eligible c p k = true ∧ (s.irqPrio j < s.irqPrio k ∨ (s.irqPrio j = s.irqPrio k ∧ k ≤ j)) := by
  have hsorted : ((List.range 66).filter (s.eligible c p)).Pairwise (· < ·) := List.pairwise_lt_range.filter _
  obtain ⟨hmem, -, hall⟩ := better_foldl (s := s) _ 0 hsorted (fun _ _ => .inr rfl)
  obtain ⟨hne, hb⟩ := hall j (List.mem_filter.2 ⟨List.mem_range.2 hj, he⟩) (by omega)
  rw [hk]
  exact ⟨(List.mem_filter.1 (hmem.resolve_left hne)).2, hb⟩

theorem interruptComplete_completes {c : Fin 24} {sup : Bool} {src : Fin 128} {s : State} :
    (aget s.irq.inService src = some (c * 2 + b2n sup) → ∃ v : State, exec (.interruptComplete c sup src) s = .next v ∧ aget v.irq.inService src = none ∧ v.regs = s.regs) ∧
    (aget s.irq.inService src ≠ some (c * 2 + b2n sup) → exec (.interruptComplete c sup src) s = .next s) := by
  refine ⟨fun h => ⟨_, congrArg Host.Outcome.next (if_pos h), aget_adel_same .., rfl⟩, fun h => congrArg Host.Outcome.next (if_neg h)⟩

/-- Settles O51: L2's transitions by their registers, and the claim by induction over the sources in ascending order. -/
theorem cachesAndInterruptsComplete : Obligations.CachesAndInterruptsComplete :=
  ⟨fun _ _ _ hm => ⟨l2LineFill_fills hm, fun _ _ hr hp hf ha => criticalChunk_restarts hm hr hp hf ha⟩, fun _ h h0 hb => l2Invalidate_begins h h0 hb,
    fun _ h h3 => l2InvalidateDone_off h h3, fun _ h h0 hd => l2Enable_on h h0 hd, fun _ h0 hd => l2Enable_refused h0 hd, fun _ h h1 => l2Disable_drains h h1,
    fun _ h h2 => l2DrainComplete_off h h2, fun _ _ _ _ h1 hb ha hn ha64 hn64 hn0 hmib hc1 hc2 hl => l2Preload_begins h1 hb ha hn ha64 hn64 hn0 hmib hc1 hc2 hl,
    fun _ _ _ hw _ hv h1 _ hu => l2PreloadDone_preloads hw hv h1 hu, fun _ _ => rfl, fun _ _ h2 h65 he => interruptAssert_asserts h2 h65 he,
    fun _ _ _ _ _ hk h0 => interruptClaim_claims hk h0, fun _ _ _ _ _ hk he hj h0 => claimSource_first hk he hj h0, fun _ _ _ _ => interruptComplete_completes,
    fun _ _ _ => ⟨rfl, rfl⟩⟩

end Sys2Proof.Proofs
end

section
/-! Update commands, boot flash, Cabinet and TFTP, and O52 (R613, R615, R620, R621, R624 to R634). -/
namespace Sys2Proof.Proofs
open Sys2Proof Sys2Proof.Machine Sys2Proof.Laws

/-! ## The boot record -/

/-- What a Cabinet record of the head's own leaves as it is. -/
def cabState (s : State) : Option BootRec × Sys2Proof.Mode × List Host.Cell × Fuses := (s.bsv.bootRec, s.mode, s.mem, s.fuses)

theorem cabState_wf (s : State) (f : Fld) (v : Nat) : cabState (s.wf f v) = cabState s := by simp [cabState, State.mode]

theorem cabState_cabPut (s : State) (r : CabRec) : cabState (s.cabPut r) = cabState s := by
  unfold State.cabPut
  refine (cabState_wf ..).trans ?_
  split
  · exact of_ite (P := fun u => cabState u = cabState s) rfl rfl
  · rfl

theorem cabState_putBootRec (s : State) (b : BootRec) : cabState (s.putBootRec b) = (some b, s.mode, s.mem, s.fuses) :=
  (cabState_wf ..).trans (cabState_cabPut ..)

theorem putBootRec_keeps (b : BootRec) (s : State) :
    (s.putBootRec b).bootRecord = b ∧ (s.putBootRec b).mode = s.mode ∧ (s.putBootRec b).mem = s.mem ∧ (s.putBootRec b).fuses = s.fuses := by
  have h := cabState_putBootRec s b
  have hrec : (s.putBootRec b).bsv.bootRec = some b := congrArg Prod.fst h
  exact ⟨congrArg (·.getD {}) hrec, congrArg (fun x => x.2.1) h, congrArg (fun x => x.2.2.1) h, congrArg (fun x => x.2.2.2) h⟩

theorem flashOk_wf (s : State) (f : Fld) (v : Nat) : (s.wf f v).flashOk = s.flashOk := by simp [State.flashOk]

/-! ## BOOT_OK, CONFIRM and REVERT -/

section
variable {s : State} (hp : s.flag R.BSV.UPD_STAT.PENDING = false)
include hp

theorem bootOk_writes (ht : s.runsTrial = true) (hf : s.flashOk = true) :
    exec .bootOk s = .next ((s.putBootRec { s.bootRecord with tries := 0 }).updResult 0) := by
  simp only [exec_bootOk, execBootOk, State.bootOk, State.updRun, hp, ht, hf, Bool.false_eq_true, if_false, if_true]

theorem bootOk_waits (ht : s.runsTrial = true) (hf : s.flashOk = false) : exec .bootOk s = .next ((s.wf R.BSV.UPD_STAT.PENDING 1).flPost .bootOk) := by
  simp only [exec_bootOk, execBootOk, State.bootOk, State.updRun, hp, ht, hf, Bool.false_eq_true, if_false, if_true]

theorem confirm_runs (hb : s.mode ≠ .boot) (hv : s.mode ≠ .vault) (ht : s.runsTrial = true) (he : s.flag R.BSV.BOOT_STAT.EXPIRED = false) :
    exec (.confirm none) s = .next (s.confirmDone (max s.fuses.antiRollback (s.rf R.BSV.SECVER.RUN))) := by
  simp only [exec_confirm, execConfirm, State.confirm, hp, ht, hb, hv, he, Bool.not_true, Bool.false_eq_true, or_self, if_false]

theorem confirm_noTrial (ht : s.runsTrial = false) : exec (.confirm none) s = .next (s.updResult 3) := by
  simp only [exec_confirm, execConfirm, State.confirm, hp, ht, Bool.not_false, Bool.false_eq_true, if_false, if_true]

theorem revert_writes (ht : s.bootRecord.trial ≠ 0xFF) (hf : s.flashOk = true) :
    exec .revert s = .next ((s.putBootRec { s.bootRecord with tries := 3 }).updResult 0) := by
  simp only [exec_revert, execRevert, State.revert, State.updRun, hp, if_neg ht, hf, Bool.false_eq_true, if_false, if_true]

theorem revert_noTrial (ht : s.bootRecord.trial = 0xFF) : exec .revert s = .next (s.updResult 3) := by
  simp only [exec_revert, execRevert, State.revert, hp, if_pos ht, Bool.false_eq_true, if_false]
end

/-- The state on which CONFIRM makes its trial image the confirmed one: the anti-rollback fuses are burnt. -/
def fusesBurnt (s : State) (want : Nat) : State := { s with fuses := { s.fuses with antiRollback := want } }.wf R.BSV.SECVER.FUSES want

theorem confirmDone_of_flashOk {s : State} (want : Nat) (hf : s.flashOk = true) : s.confirmDone want = (fusesBurnt s want).confirmWrite := by
  have hf' : (fusesBurnt s want).flashOk = true := (flashOk_wf ..).trans hf
  exact if_pos hf'

theorem fusesBurnt_keeps (s : State) (want : Nat) : (fusesBurnt s want).fuses.antiRollback = want ∧ (fusesBurnt s want).bootRecord = s.bootRecord := by
  simp [fusesBurnt, State.bootRecord]

theorem probationExpiry_raises {s : State} (ht : s.runsTrial = true) (he : s.flag R.BSV.BOOT_STAT.EXPIRED = false)
    (hd : s.rf R.BSV.PROB_END.ESTAMP ≤ s.tbs.phys) :
    exec .probationExpiry s = .next (((s.wf R.BSV.BOOT_STAT.EXPIRED 1).raise Pg.BSV 2).event Pg.BSV) := by
  simp only [exec_probationExpiry, execProbationExpiry, ht, he, hd, decide_true, Bool.not_false, Bool.and_self, if_true]

/-! ## Flash and Cabinet commands -/

section
variable {a k h : Nat} {s : State} (hp : s.flag R.BSV.FL_STAT.PENDING = false)
include hp

section
variable (ha : s.rf R.BSV.FL_ADDR.ADDR = a) (hk : s.rf R.BSV.FL_LEN.BYTES = k)
include ha hk

theorem flRead_reads (hh : s.rf R.BSV.FL_HBM.ADDR = h) (hr : a + k ≤ 0x10000000) (hin : s.inFw h k = true) :
    exec .flRead s = .next ((s.store (hbmBase + h) (s.flRead a k)).flResult 0) := by
  have hn : ¬(0x10000000 < a + k ∨ (!s.inFw h k) = true) := by simp [hin, hr]
  simp only [exec_flRead, execFlRead, State.flCmdRead, hp, ha, hk, hh, if_neg hn, Bool.false_eq_true, if_false]

theorem flRead_outOfRange (hr : 0x10000000 < a + k) : exec .flRead s = .next (s.flResult 7) := by
  simp only [exec_flRead, execFlRead, State.flCmdRead, hp, ha, hk, if_pos (Or.inl hr), Bool.false_eq_true, if_false]
end

theorem cabFind_finds {b : Bytes} (hk : s.rf R.BSV.FL_LEN.BYTES = k) (hh : s.rf R.BSV.FL_HBM.ADDR = h)
    (hb : s.cabValue (s.rf R.BSV.CAB_SEL.CLASS) (s.rf R.BSV.CAB_SEL.FMT) (s.rf R.BSV.CAB_KEY.KEY) = some b) (hl : b.length ≤ k) (hin : s.inFw h b.length = true) :
    exec .cabFind s = .next (((s.store (hbmBase + h) b).wf R.BSV.FL_STAT.LEN b.length).flResult 0) := by
  have hn : ¬(k < b.length ∨ (!s.inFw h b.length) = true) := by simp [hin, hl]
  simp only [exec_cabFind, execCabFind, State.cabFind, hp, hb, hk, hh, if_neg hn, Bool.false_eq_true, if_false]

theorem cabFind_none (hb : s.cabValue (s.rf R.BSV.CAB_SEL.CLASS) (s.rf R.BSV.CAB_SEL.FMT) (s.rf R.BSV.CAB_KEY.KEY) = none) :
    exec .cabFind s = .next (s.flResult 4) := by
  simp only [exec_cabFind, execCabFind, State.cabFind, hp, hb, Bool.false_eq_true, if_false]

theorem cabAppend_posts (hh : s.rf R.BSV.FL_HBM.ADDR = h) (hin : s.inFw h (32 + s.cabRequest.body.length) = true) (hl : s.cabRequest.body.length ≤ 65472)
    (hc : 0x100 ≤ s.cabRequest.cls) (hfmt : s.cabRequest.fmt = s.bsv.runFmt) (hfree : 32 ≤ s.cabFreeSectors) :
    exec .cabAppend s = .next ((s.wf R.BSV.FL_STAT.PENDING 1).flPost (.cabAppend s.cabRequest)) := by
  have h1 : ¬((!s.inFw h (32 + s.cabRequest.body.length)) = true ∨ 65472 < s.cabRequest.body.length) := by simp [hin, hl]
  have h2 : ¬(s.cabRequest.cls < 0x100 ∨ s.cabRequest.fmt ≠ s.bsv.runFmt) := by simp [hc, hfmt]
  have h3 : ¬(s.cabFreeSectors < 32 ∧ s.flashOk = true) := fun h => absurd h.1 (by omega)
  have h4 : ¬((if s.cabFits s.cabRequest = true then s.cabFreeSectors else s.cabFreeSectors - 1) < 16) := by split <;> omega
  simp only [exec_cabAppend, execCabAppend, State.cabAppend, hp, hh, if_neg h1, if_neg h2, if_neg h3, if_neg h4, Bool.false_eq_true, if_false]
end

theorem cabinetCompact_runs {s : State} (hf : s.flashOk = true) (hfree : s.cabFreeSectors < 32) : exec .cabinetCompact s = .next s.cabCompact := by
  simp only [exec_cabinetCompact, execCabinetCompact, hf, hfree, decide_true, Bool.and_self, if_true]

/-! ## TFTP -/

theorem targetSlot_ne_none (s : State) : 0xFF ≠ s.targetSlot := by
  unfold State.targetSlot
  split <;> decide

theorem tftpWrq_disabled {s : State} (tid : Nat) (name mode : Bytes) (blk : Option Nat) (hon : s.stagingOn = false) :
    exec (.tftpWrq tid name mode blk) s = .next (s.tftpError tid 2 1 "DISABLED") := by
  simp only [exec_tftpWrq, execTftpWrq, hon, Bool.not_false, if_true]

/-- The transfer that a write request begins. -/
def uploadOf (s : State) (tid : Nat) (blk : Option Nat) : Tftp :=
  { upload := true, tid := tid, slot := s.targetSlot, blksize := tftpBlk blk, blkOpt := blk.isSome, nextBlk := 1
    bytes := 0, lastSent := [], lastAt := s.now, retries := 0, header := [] }

/-- The transfer that a read request begins. -/
def statusOf (s : State) (tid : Nat) (blk : Option Nat) : Tftp :=
  { upload := false, tid := tid, slot := 0, blksize := tftpBlk blk, blkOpt := blk.isSome, nextBlk := 1
    bytes := 0, lastSent := [], lastAt := s.now, retries := 0, header := s.statusFile }

/-- s without a trial image in the slot that an upload takes. -/
def slotFreed (s : State) : State := if s.bootRecord.trial = s.targetSlot then s.putBootRec { s.bootRecord with trial := 0xFF } else s

theorem slotFreed_trial (s : State) : (slotFreed s).bootRecord.trial ≠ s.targetSlot := by
  unfold slotFreed
  split
  · rw [(putBootRec_keeps _ s).1]
    exact targetSlot_ne_none s
  · assumption

/-- s with the slot that an upload takes marked incomplete, and the upload shown. -/
def slotTaken (s : State) (blksize : Nat) : State :=
  let u := slotFreed s
  ((({ u with bsv := { u.bsv with incomplete := s.targetSlot :: u.bsv.incomplete.filter (fun x => x != s.targetSlot) } } : State).wf
    R.BSV.TFTP_STAT.STATE 1).wf R.BSV.TFTP_STAT.BLKSIZE blksize).wf R.BSV.TFTP_BYTES.COUNT 0

theorem slotTaken_keeps (s : State) (blksize : Nat) :
    (slotTaken s blksize).bsv.incomplete.contains s.targetSlot = true ∧ (slotTaken s blksize).bootRecord = (slotFreed s).bootRecord := by
  simp [slotTaken, State.bootRecord]

section
variable {tid : Nat} {mode : Bytes} {blk : Option Nat} {s : State} (hnone : s.bsv.tftp = none) (hm : lowerAscii mode = ascii "octet")
  (hb : ∀ b, blk = some b → 8 ≤ b)

include hnone hm hb

theorem tftpWrq_starts (hon : s.stagingOn = true) (hf : s.flashOk = true) (ht : s.runsTrial = false) : ∃ t : Tftp,
    exec (.tftpWrq tid (ascii "image") mode blk) s =
      .next (if blk.isSome then (slotTaken s (tftpBlk blk)).tftpSend t 6 (tftpBlk blk) [] else (slotTaken s (tftpBlk blk)).tftpSend t 4 0 []) ∧
    t.upload = true ∧ t.tid = tid ∧ t.slot = s.targetSlot ∧ t.nextBlk = 1 ∧ t.bytes = 0 := by
  refine ⟨uploadOf s tid blk, ?_, rfl, rfl, rfl, rfl, rfl⟩
  cases blk with
  | none =>
    simp only [exec_tftpWrq, execTftpWrq, hon, ht, hnone, hm, hf, Option.isSome_none, Bool.not_true, Bool.false_eq_true, if_false, ne_eq, not_true_eq_false]
    rfl
  | some b =>
    have hs : ¬(b < 8) := Nat.not_lt.2 (hb b rfl)
    simp only [exec_tftpWrq, execTftpWrq, hon, ht, hnone, hm, hf, hs, decide_false, Option.isSome_none, Bool.not_true, Bool.false_eq_true, if_false, ne_eq, not_true_eq_false]
    rfl

theorem tftpRrq_starts : exec (.tftpRrq tid (ascii "status") mode blk) s =
    .next (if blk.isSome then s.tftpSend (statusOf s tid blk) 6 (tftpBlk blk) [] else s.tftpSend (statusOf s tid blk) 3 1 (statusBlock (statusOf s tid blk) 1)) := by
  cases blk with
  | none =>
    simp only [exec_tftpRrq, execTftpRrq, hnone, hm, Option.isSome_none, Bool.false_eq_true, if_false, ne_eq, not_true_eq_false]
    rfl
  | some b =>
    have hs : ¬(b < 8) := Nat.not_lt.2 (hb b rfl)
    simp only [exec_tftpRrq, execTftpRrq, hnone, hm, hs, decide_false, Option.isSome_none, Bool.false_eq_true, if_false, ne_eq, not_true_eq_false]
    rfl
end

section
variable {t : Tftp} {s : State} (ht : s.bsv.tftp = some t)
include ht

theorem tftpData_posts {block : Fin 65536} {data : Bytes} (hu : t.upload = true) (hl : data.length ≤ t.blksize) (hj : s.bsv.jobs = [])
    (hb : block.val = t.nextBlk % 65536) (hon : s.stagingOn = true) (hi : t.bytes + data.length ≤ imageMax) :
    exec (.tftpData t.tid block data) s = .next ({ s with bsv := { s.bsv with tftp := some { t with header := (t.header ++ data).take 256 } } }.flPost
      (.slotData (slotBase t.slot + t.bytes) data (decide (data.length < t.blksize)) block.val)) := by
  have h1 : ¬(t.tid ≠ t.tid ∨ (!t.upload) = true) := by simp [hu]
  have h2 : ¬(t.blksize < data.length) := by omega
  have h3 : ¬(block.val + 1 = t.nextBlk % 65536 ∨ (block.val = 65535 ∧ t.nextBlk % 65536 = 0)) := by omega
  have h4 : ¬(block.val ≠ t.nextBlk % 65536) := by omega
  have h5 : ¬(imageMax < t.bytes + data.length) := by omega
  simp only [exec_tftpData, execTftpData, ht, if_neg h1, h2, false_and, if_false, hj, List.any_nil, Bool.false_eq_true, if_neg h3, if_neg h4, hon, Bool.not_true, if_neg h5]

theorem tftpData_draws {block : Fin 65536} {data : Bytes} (hu : t.upload = true) (hl : t.blksize < data.length) (hc : Config.takesLong s.freeCtr = false) :
    exec (.tftpData t.tid block data) s = .next s.draw := by
  have h1 : ¬(t.tid ≠ t.tid ∨ (!t.upload) = true) := by simp [hu]
  simp only [exec_tftpData, execTftpData, ht, if_neg h1, if_pos (And.intro hl hc)]

section
variable {block : Fin 65536} (hu : t.upload = false) (hb : block.val = t.nextBlk) (h0 : t.nextBlk ≠ 0)
include hu hb h0

theorem tftpAck_ends (hl : (statusBlock t t.nextBlk).length < t.blksize) :
    exec (.tftpAck t.tid block) s = .next { s.wf R.BSV.TFTP_STAT.STATE 2 with bsv := { s.bsv with tftp := none } } := by
  have h1 : ¬(t.nextBlk = 0 ∧ t.nextBlk = 1 ∧ t.blkOpt = true) := fun h => h0 h.1
  simp only [exec_tftpAck, execTftpAck, ht, ne_eq, not_true_eq_false, hu, Bool.false_eq_true, if_false, hb, if_neg h1, if_pos hl]

theorem tftpAck_sendsNext (hl : t.blksize ≤ (statusBlock t t.nextBlk).length) :
    exec (.tftpAck t.tid block) s = .next (s.tftpSend { t with nextBlk := t.nextBlk + 1 } 3 (t.nextBlk + 1) (statusBlock t (t.nextBlk + 1))) := by
  have h1 : ¬(t.nextBlk = 0 ∧ t.nextBlk = 1 ∧ t.blkOpt = true) := fun h => h0 h.1
  simp only [exec_tftpAck, execTftpAck, ht, ne_eq, not_true_eq_false, hu, Bool.false_eq_true, if_false, hb, if_neg h1, if_neg (Nat.not_lt.2 hl)]
end

section
variable (hd : t.lastAt + oneS ≤ s.now)
include hd

theorem tftpRetransmit_sends (hr : t.retries < 5) :
    exec .tftpRetransmit s = .next { s.emit (.tftp t.tid (leAt t.lastSent 0 2) (leAt t.lastSent 2 2) (t.lastSent.drop 4)) with
      bsv := { s.bsv with tftp := some { t with retries := t.retries + 1, lastAt := s.now } } } := by
  simp only [exec_tftpRetransmit, execTftpRetransmit, ht, if_neg (Nat.not_lt.2 hd), if_pos hr]

theorem tftpRetransmit_abandons (hr : 5 ≤ t.retries) : exec .tftpRetransmit s = .next s.tftpAbandon := by
  simp only [exec_tftpRetransmit, execTftpRetransmit, ht, if_neg (Nat.not_lt.2 hd), if_neg (Nat.not_lt.2 hr)]
end
end

/-! ## Flash jobs -/

/-- s with js as its flash jobs, none of them held. -/
def jobTaken (s : State) (js : List FlJob) : State := { s with bsv := { s.bsv with jobs := js, jobHeld := false } }

section
variable {r : CabRec} {js : List FlJob} {s : State} (hj : s.bsv.jobs = .cabAppend r :: js) (hf : s.flashOk = true) (hc : s.tbs.ceilWrite = none)
include hj hf hc

theorem cabJob_done : exec (.bootFlashProgramDone true) s =
    .next (((({ jobTaken s js with bsv := { (jobTaken s js).bsv with cabSeq := r.seq } } : State).cabPut r).wf R.BSV.FL_STAT.PENDING 0).flResult 0) := by
  simp only [exec_bootFlashProgramDone, execBootFlashProgramDone, hj, hf, hc, Bool.not_true, Bool.and_false, Bool.false_and, Bool.false_eq_true, if_false, if_true]
  rfl

theorem cabJob_fails : exec (.bootFlashProgramDone false) s = .next ((((jobTaken s js).raise Pg.BSV 4).wf R.BSV.FL_STAT.PENDING 0).flResult 6) := by
  simp only [exec_bootFlashProgramDone, execBootFlashProgramDone, hj, hf, hc, Bool.not_true, Bool.and_false, Bool.false_and, Bool.false_eq_true, if_false]
  rfl
end

/-! ## The obligation -/

/-- Settles O52: one lemma a command; what a boot record's own Cabinet record leaves as it is (cabState) gives the boot record that is read back. -/
theorem bootAndUpdateComplete : Obligations.BootAndUpdateComplete := by
  refine ⟨fun s hp => ⟨bootOk_writes hp, bootOk_waits hp, confirm_runs hp, fun _ _ => confirm_noTrial hp, ?_, revert_writes hp, revert_noTrial hp⟩,
    putBootRec_keeps, fun s => probationExpiry_raises,
    fun a k h s hp ha hk hh => ⟨flRead_reads hp ha hk hh, flRead_outOfRange hp ha hk, fun b => cabFind_finds hp hk hh, cabFind_none hp, ?_⟩,
    fun s => cabinetCompact_runs,
    fun tid s hn => ⟨?_, ?_, tftpWrq_disabled tid⟩,
    fun t s ht => ⟨?_, ?_, fun block hu hb h0 => ⟨fun hl => ⟨_, tftpAck_ends ht hu hb h0 hl, rfl⟩, tftpAck_sendsNext ht hu hb h0⟩,
      fun hd hr => ⟨_, tftpRetransmit_sends ht hd hr, rfl, rfl⟩, tftpRetransmit_abandons ht⟩,
    fun sender src ident seq data s => ⟨rfl, ?_, ?_⟩,
    fun r js s hj hf hc => ?_⟩
  · intro want hf
    obtain ⟨hfuse, hrec⟩ := fusesBurnt_keeps s want
    exact ⟨fusesBurnt s want, _, confirmDone_of_flashOk want hf, hfuse, hrec, rfl⟩
  · intro hin hl hc hfmt hfree
    exact ⟨_, cabAppend_posts hp hh hin hl hc hfmt hfree, rfl, rfl, rfl⟩
  · intro mode blk hon hf htrial hm hb
    obtain ⟨t, hx, hu, htid, hslot, hblk, hbytes⟩ := tftpWrq_starts (tid := tid) hn hm hb hon hf htrial
    obtain ⟨hinc, hrec⟩ := slotTaken_keeps s (tftpBlk blk)
    exact ⟨_, t, hx, hu, htid, hslot, hblk, hbytes, hinc, fun h => slotFreed_trial s (hrec ▸ h)⟩
  · intro mode blk hm hb
    exact ⟨statusOf s tid blk, rfl, rfl, rfl, tftpRrq_starts hn hm hb⟩
  · intro block data hu hl hj hb hon hi
    refine ⟨_, tftpData_posts ht hu hl hj hb hon hi, ?_, rfl, rfl⟩
    exact congrArg (· ++ _) hj
  · intro block data hu hl
    by_cases hc : Config.takesLong s.freeCtr = false
    · exact ⟨_, tftpData_draws ht hu hl hc, fun _ => rfl⟩
    · obtain ⟨v, hv⟩ := everyStepAnswers.2 (.tftpData t.tid block data) s
      exact ⟨v, hv, fun h => absurd h hc⟩
  · exact congrArg Host.Outcome.next (if_pos rfl)
  · exact congrArg Host.Outcome.next (if_pos rfl)
  · exact ⟨_, jobTaken s js, cabJob_done hj hf hc, rfl, rfl, rfl, cabJob_fails hj hf hc, rfl, rfl⟩

end Sys2Proof.Proofs
end

section
/-! Recorder, power states and page headers, and O53 (R646, R650 to R652, R655 to R666, R675 to R680). -/
namespace Sys2Proof.Proofs
open Sys2Proof Sys2Proof.Machine Sys2Proof.Laws

/-! ## Samples -/

/-- s once the energy of a second is counted (Config.energy, drawn as n) at every page that is not fused off. -/
def energyCounted (s : State) (n : Nat) : State :=
  (allPages.foldl (fun (t : State) p => if fusedOff t.fuses.variant p then t else t.incBy (R.HDR.ENERGY.UJ p) (Config.energy p n)) s).draw

/-- What counting energy leaves as it is. -/
def sampleState (s : State) : Tbs × Evr × Maps × List Host.Cell := (s.tbs, s.evr, s.maps, s.mem)

theorem sampleState_energyCounted (s : State) (n : Nat) : sampleState (energyCounted s n) = sampleState s := by
  have hinc (t : State) (p : Nat) (h : sampleState t = sampleState s) :
      sampleState (if fusedOff t.fuses.variant p then t else t.incBy (R.HDR.ENERGY.UJ p) (Config.energy p n)) = sampleState s :=
    of_ite (P := fun u => sampleState u = sampleState s) h (by simpa [sampleState, State.incBy] using h)
  exact FaultKept.foldl (P := fun u => sampleState u = sampleState s) hinc rfl

/-- s with one more sample in its open hour, of temperatures ts and rails rs. -/
def sampled (s : State) (ts : List Int) (rs : List Nat) : State :=
  { s with evr := { s.evr with
    hour := { s.evr.hour with samples := s.evr.hour.samples + 1, qs := s.evrFold (s.evrValues ts rs) }
    now := (s.evrValues ts rs).map (fun v => v.getD 0), prev := s.evrCounters, sampleAt := some s.estamp } }

theorem sensorFill_keeps (n from_ k : Nat) (l : List Int) {i : Nat} (hi : i < k) (hl : i < l.length) : (sensorFill n from_ k l)[i]? = l[i]? := by
  simp [sensorFill, nthD, hi, hl]

/-- The temperatures of a sample; what it leaves out is the sensors' own. -/
def tempsOf (s : State) (temps : List Int) : List Int := sensorFill s.freeCtr 0 12 temps

/-- The rails of a sample; what it leaves out is the sensors' own. -/
def railsOf (s : State) (rails : List Nat) : List Nat :=
  (sensorFill s.freeCtr 12 8 (rails.map (fun v => ((v : Nat) : Int)))).map Int.toNat

/-- s after a sample, before a temperature is compared. -/
def sampleTaken (s : State) (temps : List Int) (rails : List Nat) : State := sampled (energyCounted s s.freeCtr) (tempsOf s temps) (railsOf s rails)

theorem sampleTaken_keeps (s : State) (temps : List Int) (rails : List Nat) :
    (sampleTaken s temps rails).evr.sampleAt = some s.estamp ∧ (sampleTaken s temps rails).evr.hour.samples = s.evr.hour.samples + 1 ∧
      (sampleTaken s temps rails).maps = s.maps ∧ (sampleTaken s temps rails).mem = s.mem := by
  have h := sampleState_energyCounted s s.freeCtr
  have htbs : (energyCounted s s.freeCtr).tbs = s.tbs := congrArg (fun x => x.1) h
  have hevr : (energyCounted s s.freeCtr).evr = s.evr := congrArg (fun x => x.2.1) h
  exact ⟨congrArg (fun x : Tbs => some x.phys) htbs, congrArg (fun x : Evr => x.hour.samples + 1) hevr, congrArg (fun x => x.2.2.1) h,
    congrArg (fun x => x.2.2.2) h⟩

theorem evrSample_samples {temps : List Int} {rails : List Nat} {s : State} (hf : s.fcl.fusesLoaded = true)
    (hd : ∀ t, s.evr.sampleAt = some t → t + 1000000000 ≤ s.estamp) : exec (.evrSample temps rails) s = .next
      (if (tempsOf s temps).any (fun t => decide (((sampleTaken s temps rails).rf R.EVR.TEMP_WARN.TEMP : Int) ≤ t))
        then (sampleTaken s temps rails).raise Pg.EVR 0 else sampleTaken s temps rails) := by
  rw [apply_ite Host.Outcome.next]
  cases ha : s.evr.sampleAt with
  | none =>
    simp only [exec_evrSample, execEvrSample, hf, ha, Bool.not_true, Bool.false_eq_true, if_false]
    rfl
  | some t =>
    have hn : ¬(s.estamp < t + 1000000000) := Nat.not_lt.2 (hd t ha)
    simp only [exec_evrSample, execEvrSample, hf, ha, hn, decide_false, Bool.not_true, Bool.false_eq_true, if_false]
    rfl

theorem evrPeriodClose_closes {tier : Fin 3} {ok : Bool} {s : State} (hf : s.fcl.fusesLoaded = true) (hw : s.flashOk = true) (hd : s.periodDue tier = true)
    (hlow : ∀ k, k < tier.val → s.periodDue k = false) : exec (.evrPeriodClose tier ok) s = .next (s.closePeriod tier false ok) := by
  have hall : (List.range tier.val).all (fun k => !s.periodDue k) = true :=
    List.all_eq_true.2 fun k hk => by rw [hlow k (List.mem_range.1 hk)]; rfl
  simp only [exec_evrPeriodClose, execEvrPeriodClose, hf, hw, hd, hall, Bool.and_self, if_true]

/-! ## Event entries -/

/-- What writing a record of the recorder leaves as it is. -/
def evrState (s : State) : Nat × List Host.Cell := (s.now, s.mem)

theorem evrState_evrReplace (s : State) (sector : Nat) : evrState (s.evrReplace sector).2 = evrState s :=
  of_ite (P := fun x : Bool × State => evrState x.2 = evrState s) (by simp [evrState]) (by simp [evrState])

theorem evrState_evrWrite (s : State) (ring size : Nat) (data : Bytes) (ok : Bool) : evrState (s.evrWrite ring size data ok) = evrState s := by
  unfold State.evrWrite
  split
  rename_i base n _
  extract_lets per slot sector _ s1
  have h1 : evrState (if ok then (true, s1) else s1.evrReplace sector).2 = evrState s :=
    of_ite (P := fun x : Bool × State => evrState x.2 = evrState s) rfl (evrState_evrReplace s1 sector)
  generalize (if ok = true then (true, s1) else s1.evrReplace sector) = x at h1 ⊢
  obtain ⟨room, s2⟩ := x
  refine of_ite (P := fun u => evrState u = evrState s) h1 ?_
  exact of_ite (P := fun u : State => evrState (u.flStore _ _) = evrState s) h1 h1

theorem evrEventProgram_writes {ok : Bool} {s : State} (hw : s.flashOk = true) (hq : s.evr.queue ≠ []) (hl : s.evr.queue.length ≤ 64) (hr : s.evr.recent = []) :
    ∃ v : State, exec (.evrEventProgram ok) s = .next v ∧ v.evr.queue = [] ∧ v.evr.recent = s.evr.queue.map (fun _ => s.now) ∧ v.mem = s.mem := by
  have hstate : evrState (s.evr.queue.foldl (fun s e => s.evrWrite 3 32 e.2 ok) s) = evrState s :=
    FaultKept.foldl (P := fun u => evrState u = evrState s) (fun _ _ h => (evrState_evrWrite ..).trans h) rfl
  have hne : s.evr.queue.isEmpty = false := by simp [hq]
  simp only [exec_evrEventProgram, execEvrEventProgram, hw, hne, hr, List.filter_nil, List.length_nil, Nat.sub_zero, List.take_of_length_le hl, Nat.sub_self,
    Bool.not_true, Bool.or_self, Bool.false_eq_true, if_false, if_true, List.nil_append]
  exact ⟨_, rfl, rfl, congrArg (fun n => s.evr.queue.map fun _ => n) (congrArg Prod.fst hstate), congrArg Prod.snd hstate⟩

/-! ## Power states -/

theorem powerStateEntry_goesDown {page : Fin 33} {unit : Fin 256} {idle : Nat} {s : State} (hd : s.deepest page unit = 1) (hp : 5 < page.val)
    (hf : fusedOff s.fuses.variant page = false) (hpol : s.rf (R.HDR.PWR_CTL.POLICY page) = 0) (hi : 1000 ≤ idle)
    (hst : (agetD s.pwr (pwrKey page unit) {}).state = 0) :
    exec (.powerStateEntry page unit idle) s = .next { s with pwr := aset s.pwr (pwrKey page unit) { state := 1, idleAt := s.now - idle } } := by
  have h1 : ¬(page.val ≤ 5 ∨ fusedOff s.fuses.variant page.val = true ∨ 2 ≤ s.rf (R.HDR.PWR_CTL.POLICY page)) := by
    rw [hf, hpol]
    simp only [Bool.false_eq_true, false_or]
    omega
  have h2 : ¬(False ∨ 1 ≤ (agetD s.pwr (pwrKey page unit) {}).state) := by simp [hst]
  simp only [exec_powerStateEntry, execPowerStateEntry, hd, if_neg h1, if_pos hi, if_true, Nat.one_ne_zero, if_false, if_neg h2]

/-! ## Control words of a page -/

section
variable {page : Fin 64} {s : State}

theorem softResetDone_ends : exec (.softResetDone page) s = .next { s with fcl := { s.fcl with softRst := s.fcl.softRst.filter (fun p => p != page.val) } } := rfl

section
variable (hl : s.pageLive page = true)
include hl

theorem ctlEnWrite_sets (v : Bool) : exec (.ctlEnWrite page v) s = .next ((s.setEn page v).enSync page) := congrArg Host.Outcome.next (if_pos hl)

theorem blockStopped_stops (he : s.flag (R.HDR.CTL.EN page) = false) (hb : s.busy page = false) :
    exec (.blockStopped page) s = .next (s.wf (R.HDR.STAT.STOPPED page) 1) := by
  simp only [exec_blockStopped, execBlockStopped, hl, he, hb, Bool.not_false, Bool.and_self, if_true]

theorem softReset_refused (he : s.flag (R.HDR.CTL.EN page) = true) : exec (.softReset page) s = .next (s.wf (R.HDR.STAT.RST_REFUSED page) 1) := by
  simp only [exec_softReset, execSoftReset, hl, he, State.softReset, Bool.not_true, Bool.and_false, Bool.false_and, Bool.false_eq_true, if_false, if_true]

theorem softReset_begins (hr : softRst (blockOf page) = true) (he : s.flag (R.HDR.CTL.EN page) = false) (hb : s.busy page = false) :
    ∃ v : State, exec (.softReset page) s = .next v ∧ v.busy page = true := by
  simp only [exec_softReset, execSoftReset, hl, he, hr, hb, State.softReset, Bool.not_false, Bool.and_self, if_true]
  refine ⟨_, rfl, ?_⟩
  simp [State.busy]

theorem ctlFenceWrite_fences : exec (.ctlFenceWrite page) s = .next (s.fenceBlock page).fenceSync := congrArg Host.Outcome.next (if_pos hl)

theorem ctlLockWrite_locks (v : BitVec 31) :
    exec (.ctlLockWrite page v) s = .next ((s.ctlWrite page (v.toNat + 2147483648)).fenceSync.enSync page) := congrArg Host.Outcome.next (if_pos hl)

theorem errInjWrite_refused {v : BitVec 32} (hi : s.flag R.FCL.INJ_CFG.EN = false) (hv : v ≠ 0) :
    exec (.errInjWrite page v) s = .next (s.raise Pg.FCL 1).fenceSync := by
  have hn : ¬(v.toNat = 0) := fun h => hv (BitVec.eq_of_toNat_eq h)
  simp only [exec_errInjWrite, execErrInjWrite, hl, State.errInj, hi, if_neg hn, Bool.false_eq_true, if_false, if_true]

theorem errInjWrite_injects {v : BitVec 32} (hi : s.flag R.FCL.INJ_CFG.EN = true) : exec (.errInjWrite page v) s =
    .next (((onesBelow v.toNat 32).filter (fun i => decide (i < errSources (blockOf page)))).foldl (fun t i => t.inject page i) s).fenceSync := by
  simp only [exec_errInjWrite, execErrInjWrite, hl, State.errInj, hi, if_true]
end
end

/-! ## The obligation -/

/-- Settles O53: one lemma a command; counting energy and writing records keep what the statement names (sampleState, evrState). -/
theorem recorderAndControlComplete : Obligations.RecorderAndControlComplete := by
  refine ⟨fun temps rails s hf hd => ⟨tempsOf s temps, sampleTaken s temps rails, List.length_map .., fun i hi hl => sensorFill_keeps _ _ _ _ hi hl,
      evrSample_samples hf hd, sampleTaken_keeps s temps rails⟩,
    fun tier ok s => evrPeriodClose_closes, fun ok s => evrEventProgram_writes, fun page unit idle s => powerStateEntry_goesDown,
    fun page unit s => rfl, fun v s => rfl, fun i b s h => ⟨_, _, rfl, ?_, rfl, ?_⟩, ?_,
    fun page s hl => ⟨fun v => ⟨ctlEnWrite_sets hl v, ?_, fun hfix => if_pos hfix⟩, blockStopped_stops hl, softReset_refused hl, softReset_begins hl, ctlFenceWrite_fences hl,
      ctlLockWrite_locks hl, fun v => errInjWrite_refused hl, fun v => errInjWrite_injects hl⟩,
    fun page s => ⟨_, softResetDone_ends, ?_, rfl, rfl⟩⟩
  · exact (rf_wf_same _ _ _ h).trans (Nat.mod_eq_of_lt i.isLt)
  · exact (rf_wf_same _ _ _ h).trans (by cases b <;> rfl)
  · intro t s ht hd
    simp only [exec_faultNPulseEnd, execFaultNPulseEnd, ht, if_pos hd]
  · intro hv hoff
    unfold State.enSync
    rw [hoff]
    rfl
  · simp

end Sys2Proof.Proofs
end
